-- ==== Sys2Proof/Word.lean ====
section
/-! DEFINITION. The plain types every file uses: bytes, words, and a finite table keyed by numbers. -/
namespace Sys2Proof

/-- One byte. -/
abbrev Byte := BitVec 8
/-- A string of bytes, the byte at the lowest address first. -/
abbrev Bytes := List Byte
/-- A 16-bit word. -/
abbrev W16 := BitVec 16
/-- A 32-bit word. -/
abbrev W32 := BitVec 32
/-- A 64-bit word. -/
abbrev W64 := BitVec 64
/-- A finite table: keys strictly rising, every key that is not listed holds the table's default. -/
abbrev Map (α : Type) := List (Nat × α)
/-- A byte memory in the form of `Host.Cell` lists: keys strictly rising, no listed byte is 0, an unlisted byte reads 0. -/
abbrev Mem := List (Nat × BitVec 8)

end Sys2Proof
end

