-- ==== Sys2Proof/Machine/Assoc.lean ====
section
/-! DEFINITION. Finite tables and byte memories: reading, writing, their canonical form, little-endian fields. -/
namespace Sys2Proof

/-- The value a table holds at `k`, `d` when `k` is not listed. -/
def Map.find {α : Type} : Map α → α → Nat → α
  | [], d, _ => d
  | (a, v) :: m, d, k => if a = k then v else Map.find m d k

/-- Whether `k` is listed. -/
def Map.has {α : Type} : Map α → Nat → Bool
  | [], _ => false
  | (a, _) :: m, k => a == k || Map.has m k

/-- The table without an entry for `k`. -/
def Map.del {α : Type} : Map α → Nat → Map α
  | [], _ => []
  | (a, v) :: m, k => if a = k then Map.del m k else (a, v) :: Map.del m k

/-- Puts an entry in its place in a table that does not list its key. -/
def Map.ins {α : Type} : Map α → Nat → α → Map α
  | [], k, x => [(k, x)]
  | (a, v) :: m, k, x => if k < a then (k, x) :: (a, v) :: m else (a, v) :: Map.ins m k x

/-- Writes `x` at `k`. -/
def Map.put {α : Type} (m : Map α) (k : Nat) (x : α) : Map α := Map.ins (Map.del m k) k x

/-- Writes one byte; a written 0 leaves nothing listed, so that equal memories are equal lists. -/
def Mem.set (m : Mem) (a : Nat) (b : Byte) : Mem :=
  if b = 0#8 then Map.del m a else Map.put m a b

/-- Reads one byte; a byte that nothing has written reads 0. -/
def Mem.get (m : Mem) (a : Nat) : Byte := Map.find m 0#8 a

/-- Reads `n` bytes from `a` up. -/
def Mem.read (m : Mem) (a n : Nat) : Bytes := (List.range n).map fun i => Mem.get m (a + i)

/-- Writes the bytes `b` from `a` up. -/
def Mem.write : Mem → Nat → Bytes → Mem
  | m, _, [] => m
  | m, a, b :: bs => Mem.write (Mem.set m a b) (a + 1) bs

/-- Zeroes `n` bytes from `a` up: no byte of the range stays listed. -/
def Mem.clear (m : Mem) (a n : Nat) : Mem := m.filter fun e => e.1 < a || a + n ≤ e.1

/-- Keys strictly rising. -/
def Map.sorted {α : Type} : Map α → Bool
  | [] => true
  | [_] => true
  | (a, _) :: (b, w) :: m => a < b && Map.sorted ((b, w) :: m)

/-- The canonical form of a memory: keys strictly rising and no byte listed as 0. -/
def Mem.wf (m : Mem) : Bool := Map.sorted m && m.all fun e => e.2 != 0#8

/-- The number a byte string spells, little-endian (R7). -/
def leNat : Bytes → Nat
  | [] => 0
  | b :: bs => b.toNat + 256 * leNat bs

/-- The `n` low bytes of a number, little-endian (R7). -/
def leBytes : Nat → Nat → Bytes
  | 0, _ => []
  | n + 1, x => BitVec.ofNat 8 (x % 256) :: leBytes n (x / 256)

/-- Bytes `[o, o + n)` of a string. -/
def sub (b : Bytes) (o n : Nat) : Bytes := (b.drop o).take n

/-- The little-endian field of `n` bytes at offset `o`. -/
def fld (b : Bytes) (o n : Nat) : Nat := leNat (sub b o n)

/-- A byte string cut or padded with 0 to `n` bytes. -/
def padTo (n : Nat) (b : Bytes) : Bytes := (b ++ List.replicate (n - b.length) 0#8).take n

/-- `n` bytes of 0. -/
def zeros (n : Nat) : Bytes := List.replicate n 0#8

/-- Whether bytes `[o, o + n)` are all 0 (a reserved field as R8 writes it). -/
def zeroAt (b : Bytes) (o n : Nat) : Bool := (sub b o n).all fun x => x == 0#8

/-- A count that stops at the largest value `w` bits hold. -/
def satAdd (w n k : Nat) : Nat := min (n + k) (2 ^ w - 1)

/-- Bit `i` of a number. -/
def bit (n i : Nat) : Bool := n / 2 ^ i % 2 = 1

/-- Bits `[h:l]` of a number. -/
def bits (n h l : Nat) : Nat := n / 2 ^ l % 2 ^ (h + 1 - l)

/-- A truth value as a bit of weight `2^i`. -/
def bitAt (i : Nat) (b : Bool) : Nat := if b then 2 ^ i else 0

/-- Changes entry `i` of a list, where there is one. -/
def modAt {α : Type} (l : List α) (i : Nat) (f : α → α) : List α :=
  match l, i with
  | [], _ => []
  | x :: xs, 0 => f x :: xs
  | x :: xs, i + 1 => x :: modAt xs i f

end Sys2Proof
end

