-- ==== Sys2Proof/Syntax.lean ====
section
/-! DEFINITION. The six slot languages of a bundle (05, 06) and the commands of the block: one constructor of `Instr` per row
of spec/opcode_table.json. -/
namespace Sys2Proof

/-- The predicate header of a slot (R127, R155): an instruction is enabled when `p[pred] xor pn` is 1. -/
structure Hdr where
  pred : BitVec 3
  pn : Bool
deriving DecidableEq, Repr

/-- The second operand of the ALU layout and of CMP (R129): `s[SB]`, or a 26-bit immediate. -/
inductive Src where
  | reg (sb : BitVec 5)
  | imm (i : BitVec 26)
deriving DecidableEq, Repr

/-- The ALU layout of the CT slot (R129). -/
structure Alu where
  sd : BitVec 5
  sa : BitVec 5
  b : Src
  u : Bool
deriving DecidableEq, Repr

/-- LI (R129, R131). -/
structure LiF where
  sd : BitVec 5
  hi : Bool
  imm : BitVec 32
deriving DecidableEq, Repr

/-- CMP (R129, R132). -/
structure CmpF where
  pd : BitVec 3
  sa : BitVec 5
  cond : BitVec 3
  b : Src
deriving DecidableEq, Repr

/-- A branch target (R133): the field, or a scalar register. -/
inductive Tgt where
  | imm (t : BitVec 12)
  | reg (sb : BitVec 5)
deriving DecidableEq, Repr

/-- BR (R129, R133). -/
structure BrF where
  sl : BitVec 5
  tgt : Tgt
deriving DecidableEq, Repr

/-- A 16-bit count field, or a scalar register holding the count (R136, R146, R181). -/
inductive Cnt where
  | imm (c : BitVec 16)
  | reg (sb : BitVec 5)
deriving DecidableEq, Repr

/-- LOOP (R129, R136). -/
structure LoopF where
  endAt : BitVec 12
  count : Cnt
deriving DecidableEq, Repr

/-- PARAM (R93, R129). -/
structure ParamF where
  sd : BitVec 5
  num : BitVec 6
deriving DecidableEq, Repr

/-- An instruction of the CT slot (R129). -/
inductive CtOp where
  | nop
  | li (f : LiF)
  | add (f : Alu) | sub (f : Alu) | and (f : Alu) | or (f : Alu) | xor (f : Alu)
  | shl (f : Alu) | shr (f : Alu) | sra (f : Alu) | mul (f : Alu) | min (f : Alu) | max (f : Alu)
  | cmp (f : CmpF)
  | br (f : BrF)
  | loop (f : LoopF)
  | halt
  | tickrd (sd : BitVec 5)
  | gscrd (sd : BitVec 5)
  | param (f : ParamF)
deriving DecidableEq, Repr

/-- The memory layout of the LS slot (R138) with a data register of `w` bits. -/
structure MemF (w : Nat) where
  r : BitVec w
  ab : BitVec 4
  as : BitVec 4
  am : BitVec 2
  off : BitVec 15
deriving DecidableEq, Repr

/-- The second operand of the address ALU layout (R138): `a[AC]`, or a 22-bit immediate. -/
inductive ASrc where
  | reg (ac : BitVec 4)
  | imm (i : BitVec 22)
deriving DecidableEq, Repr

/-- The address ALU layout (R138). -/
structure AAlu where
  ad : BitVec 4
  aa : BitVec 4
  b : ASrc
deriving DecidableEq, Repr

/-- An instruction of the LS slot (R138). -/
inductive LsOp where
  | nop
  | vld (f : MemF 6) | vst (f : MemF 6)
  | sld (f : MemF 5) | sst (f : MemF 5)
  | aadd (f : AAlu) | asub (f : AAlu)
  | ali (ad : BitVec 4) (imm : BitVec 27)
  | aset (ad : BitVec 4) (sb : BitVec 5)
  | aget (sd : BitVec 5) (ab : BitVec 4)
deriving DecidableEq, Repr

/-- MCFG (R142, R143). -/
structure McfgF where
  lfmt : BitVec 3
  rfmt : BitVec 3
  al : BitVec 4
  ar : BitVec 4
  als : BitVec 4
  ars : BitVec 4
deriving DecidableEq, Repr

/-- MMA (R142, R146). -/
structure MmaF where
  acc : BitVec 2
  k : Cnt
deriving DecidableEq, Repr

/-- MMAG (R142, R147). -/
structure MmagF where
  acc : BitVec 2
  vs : BitVec 6
  k : Cnt
deriving DecidableEq, Repr

/-- MOUT (R142, R149 to R151). -/
structure MoutF where
  acc : BitVec 2
  row0 : BitVec 6
  n : BitVec 6
  dst : Bool
  fmt : BitVec 4
  rm : BitVec 2
  d : BitVec 6
  pitch : BitVec 4
deriving DecidableEq, Repr

/-- MMODE (R142, R152). -/
structure MmodeF where
  skey : BitVec 5
  spos : BitVec 5
  ssid : BitVec 5
  sdrw : BitVec 5
deriving DecidableEq, Repr

/-- An instruction of the MX slot (R142). -/
inductive MxOp where
  | nop
  | mcfg (f : McfgF)
  | mma (f : MmaF)
  | mmag (f : MmagF)
  | mclr (mask : BitVec 4)
  | mout (f : MoutF)
  | mmode (f : MmodeF)
deriving DecidableEq, Repr

/-- The lane layout of the VX slot (R157). -/
structure LaneF where
  vd : BitVec 6
  va : BitVec 6
  vb : BitVec 6
  vc : BitVec 6
  t : BitVec 2
  cond : BitVec 3
  pd : BitVec 3
deriving DecidableEq, Repr

/-- VSHUF (R157, R160). -/
structure ShufF where
  vd : BitVec 6
  va : BitVec 6
  vb : BitVec 6
  mode : BitVec 2
  ln : BitVec 6
  sa : BitVec 5
deriving DecidableEq, Repr

/-- VRED (R157, R161). -/
structure RedF where
  vd : BitVec 6
  va : BitVec 6
  rop : BitVec 2
  t : BitVec 2
deriving DecidableEq, Repr

/-- The convert layout (R157). -/
structure CvtF where
  vd : BitVec 6
  va : BitVec 6
  sf : BitVec 4
  df : BitVec 4
  rm : BitVec 2
  sk : BitVec 5
  sp : BitVec 5
  ss : BitVec 5
deriving DecidableEq, Repr

/-- VFN (R157, R164). -/
structure FnF where
  vd : BitVec 6
  va : BitVec 6
  fn : BitVec 3
deriving DecidableEq, Repr

/-- VTOPK (R157, R167); the SUB field is the constructor of `VxOp`. -/
structure TopkF where
  vd : BitVec 6
  va : BitVec 6
  vb : BitVec 6
  skip : Bool
  sa : BitVec 5
deriving DecidableEq, Repr

/-- VPEN (R157, R168). -/
structure PenF where
  vd : BitVec 6
  va : BitVec 6
  vb : BitVec 6
  vc : BitVec 6
  sp : BitVec 5
  sq : BitVec 5
deriving DecidableEq, Repr

/-- VDRAW DRAW (R169). -/
structure DrawF where
  vd : BitVec 6
  sk : BitVec 5
  sp : BitVec 5
  ss : BitVec 5
deriving DecidableEq, Repr

/-- VDRAW SELECT (R169). -/
structure SelF where
  vd : BitVec 6
  va : BitVec 6
  vb : BitVec 6
  vc : BitVec 6
deriving DecidableEq, Repr

/-- An instruction of the VX slot (R157). -/
inductive VxOp where
  | nop
  | vadd (f : LaneF) | vmul (f : LaneF) | vfma (f : LaneF)
  | vmin (f : LaneF) | vmax (f : LaneF) | vcmp (f : LaneF) | vsel (f : LaneF)
  | vshuf (f : ShufF)
  | vred (f : RedF)
  | vcvt (f : CvtF)
  | vqnt (f : CvtF)
  | vfn (f : FnF)
  | topkInit (f : TopkF) | topkMerge (f : TopkF) | topkRead (f : TopkF)
  | vpen (f : PenF)
  | draw (f : DrawF)
  | select (f : SelF)
  | clrsel
deriving DecidableEq, Repr

/-- SSR and SSW (R170, R172). -/
structure SsF where
  nl : BitVec 3
  rem : Bool
  aw : BitVec 4
  as : BitVec 4
  rt : BitVec 8
deriving DecidableEq, Repr

/-- MSEND (R170, R174). -/
structure MsendF where
  aw : BitVec 4
  rt : BitVec 8
  off : BitVec 11
deriving DecidableEq, Repr

/-- An instruction of the MV slot (R170). -/
inductive MvOp where
  | nop
  | ssr (f : SsF)
  | ssw (f : SsF)
  | msend (f : MsendF)
  | mrecv (port : BitVec 3) (aw : BitVec 4)
  | gath (vd : BitVec 6) (va : BitVec 6)
deriving DecidableEq, Repr

/-- QPUSH (R177, R179). -/
structure QpushF where
  q : BitVec 5
  sa : BitVec 5
  sb : BitVec 5
deriving DecidableEq, Repr

/-- QARM (R177, R181). -/
structure QarmF where
  w : BitVec 3
  q : BitVec 5
  n : Cnt
deriving DecidableEq, Repr

/-- QSTAT (R177, R183). -/
structure QstatF where
  sd : BitVec 5
  q : BitVec 5
  sel : BitVec 2
deriving DecidableEq, Repr

/-- An instruction of the QX slot (R177). -/
inductive QxOp where
  | nop
  | qpush (f : QpushF)
  | qarm (f : QarmF)
  | qwait (w : BitVec 3)
  | qstat (f : QstatF)
deriving DecidableEq, Repr

/-- The six slots of a bundle, in the order that R98 and R125 give them. -/
inductive Slot where
  | ct | mx | vx | ls | mv | qx
deriving DecidableEq, Repr

/-- One slot's instruction with its header. -/
inductive SlotOp where
  | ct (h : Hdr) (o : CtOp)
  | mx (h : Hdr) (o : MxOp)
  | vx (h : Hdr) (o : VxOp)
  | ls (h : Hdr) (o : LsOp)
  | mv (h : Hdr) (o : MvOp)
  | qx (h : Hdr) (o : QxOp)
deriving DecidableEq, Repr

namespace Machine

/-! ### Operands of the block's commands -/

/-- What the module's DMA reads find: runs of bytes at host addresses, zero elsewhere, and the ranges whose reads fail (R417). -/
structure HostView where
  segs : List (Nat × Bytes)
  bad : List (Nat × Nat)
deriving DecidableEq, Repr

/-- What the checks of R204 find in the granule that a far-memory slot reads: whether it was read again, whether the inline code
corrected it, whether it is still in error or, for a check granule, its CRC fails. -/
structure GranErr where
  retried : Bool
  corrected : Bool
  bad : Bool
deriving DecidableEq, Repr

/-- A granule without an error, and one that stays in error. -/
def GranErr.clean : GranErr := { retried := false, corrected := false, bad := false }
def GranErr.uncorrectable : GranErr := { retried := false, corrected := false, bad := true }

/-- The commands a channel's devices demand in a refresh-window slot (R197, R200): a per-bank refresh, refresh management, a ZQ latch, a
run of the WCK2DQ interval oscillator. -/
inductive WinCmd where
  | refresh | rfm | zqLatch | oscillator
deriving DecidableEq, Repr

/-- What one slot of a channel meets: the command its devices demand, the errors of the granule it reads. -/
structure SlotEvent where
  demand : Option WinCmd
  err : GranErr
deriving DecidableEq, Repr

/-- The SMBus protocols the module answers (R449). -/
inductive SmbKind where
  | byte | word | block
deriving DecidableEq, Repr

/-- How programming the flash ends (R455): completed, cut by a restart of the management processor, or cut by power loss, a
module-fatal reset or a tamper. -/
inductive FlashEnd where
  | done | restarted | lost
deriving DecidableEq, Repr

/-- The transport of an SPDM request (R461): PCIe DOE, or SEC_SPDM over a management port. -/
inductive SpdmPath where
  | doe | mgmt0 | mgmt1
deriving DecidableEq, Repr

/-- The operation whose DMA read fails (R417): a prompt's, a ring fetch, a command's data. -/
inductive DmaOp where
  | prompt (id : Nat)
  | ring (r : Nat)
  | command (ch : Nat)
deriving DecidableEq, Repr

/-- One sample of the sensors (R483, R484): the junctions of the 80 regions and the 4 points of the service strip in °C, the coolant
inlet in °C, VIN in units of 10 mV, the input power in W averaged over 100 µs and over 10 ms. -/
structure Sensors where
  junction : List Int
  coolant : Nat
  vin : Nat
  pin : Nat
  pinAvg : Nat
deriving DecidableEq, Repr

end Machine

open Machine

/-- A command of the block: one constructor per row of spec/opcode_table.json. Operands are what the row's event brings: a core, a
region, a port, a mailbox channel, a slot's fields, what DMA reads find, the outcome of something the block observes. -/
inductive Instr where
  | nop (c : Nat) (slot : Slot) (h : Hdr)
  | li (c : Nat) (h : Hdr) (f : LiF)
  | add (c : Nat) (h : Hdr) (f : Alu)
  | sub (c : Nat) (h : Hdr) (f : Alu)
  | and (c : Nat) (h : Hdr) (f : Alu)
  | or (c : Nat) (h : Hdr) (f : Alu)
  | xor (c : Nat) (h : Hdr) (f : Alu)
  | shl (c : Nat) (h : Hdr) (f : Alu)
  | shr (c : Nat) (h : Hdr) (f : Alu)
  | sra (c : Nat) (h : Hdr) (f : Alu)
  | mul (c : Nat) (h : Hdr) (f : Alu)
  | min (c : Nat) (h : Hdr) (f : Alu)
  | max (c : Nat) (h : Hdr) (f : Alu)
  | cmp (c : Nat) (h : Hdr) (f : CmpF)
  | br (c : Nat) (h : Hdr) (f : BrF)
  | loop (c : Nat) (h : Hdr) (f : LoopF)
  | loopEnd (c : Nat)
  | halt (c : Nat) (h : Hdr)
  | tickrd (c : Nat) (h : Hdr) (sd : BitVec 5)
  | gscrd (c : Nat) (h : Hdr) (sd : BitVec 5)
  | param (c : Nat) (h : Hdr) (f : ParamF)
  | vld (c : Nat) (h : Hdr) (f : MemF 6)
  | vst (c : Nat) (h : Hdr) (f : MemF 6)
  | sld (c : Nat) (h : Hdr) (f : MemF 5)
  | sst (c : Nat) (h : Hdr) (f : MemF 5)
  | aadd (c : Nat) (h : Hdr) (f : AAlu)
  | asub (c : Nat) (h : Hdr) (f : AAlu)
  | ali (c : Nat) (h : Hdr) (ad : BitVec 4) (imm : BitVec 27)
  | aset (c : Nat) (h : Hdr) (ad : BitVec 4) (sb : BitVec 5)
  | aget (c : Nat) (h : Hdr) (sd : BitVec 5) (ab : BitVec 4)
  | mcfg (c : Nat) (h : Hdr) (f : McfgF)
  | mma (c : Nat) (h : Hdr) (f : MmaF)
  | mmag (c : Nat) (h : Hdr) (f : MmagF)
  | accumulatorCommit (c a : Nat)
  | mclr (c : Nat) (h : Hdr) (m : BitVec 4)
  | mout (c : Nat) (h : Hdr) (f : MoutF)
  | mmode (c : Nat) (h : Hdr) (f : MmodeF)
  | vadd (c : Nat) (h : Hdr) (f : LaneF)
  | vmul (c : Nat) (h : Hdr) (f : LaneF)
  | vfma (c : Nat) (h : Hdr) (f : LaneF)
  | vmin (c : Nat) (h : Hdr) (f : LaneF)
  | vmax (c : Nat) (h : Hdr) (f : LaneF)
  | vcmp (c : Nat) (h : Hdr) (f : LaneF)
  | vsel (c : Nat) (h : Hdr) (f : LaneF)
  | vshuf (c : Nat) (h : Hdr) (f : ShufF)
  | vred (c : Nat) (h : Hdr) (f : RedF)
  | vcvt (c : Nat) (h : Hdr) (f : CvtF)
  | vqnt (c : Nat) (h : Hdr) (f : CvtF)
  | vfn (c : Nat) (h : Hdr) (f : FnF)
  | vtopkInit (c : Nat) (h : Hdr) (f : TopkF)
  | vtopkMerge (c : Nat) (h : Hdr) (f : TopkF)
  | vtopkRead (c : Nat) (h : Hdr) (f : TopkF)
  | vpen (c : Nat) (h : Hdr) (f : PenF)
  | vdrawDraw (c : Nat) (h : Hdr) (f : DrawF)
  | vdrawSelect (c : Nat) (h : Hdr) (f : SelF)
  | vdrawClrsel (c : Nat) (h : Hdr)
  | ssr (c : Nat) (h : Hdr) (f : SsF)
  | ssw (c : Nat) (h : Hdr) (f : SsF)
  | msend (c : Nat) (h : Hdr) (f : MsendF)
  | mrecv (c : Nat) (h : Hdr) (port : BitVec 3) (aw : BitVec 4)
  | gath (c : Nat) (h : Hdr) (vd va : BitVec 6)
  | qpush (c : Nat) (h : Hdr) (f : QpushF)
  | qarm (c : Nat) (h : Hdr) (f : QarmF)
  | qwait (c : Nat) (h : Hdr) (w : BitVec 3)
  | qstat (c : Nat) (h : Hdr) (f : QstatF)
  | pieceDeferral (c : Nat)
  | lineDeferral (c : Nat)
  | meshUnitArrival (c : Nat) (bad : Option Nat)
  | endpointUnit (core handle : Nat)
  | landingTransfer (i : Nat)
  | queueCompletion (c h : Nat)
  | tickIssue (r : Nat)
  | tickToken (r dir : Nat) (parityOk : Bool)
  | periodElapsed (r : Nat)
  | gateRelease (r : Nat)
  | supplyDroop (r permil : Nat)
  | gearSwitchCount
  | regionRetuneDone (r : Nat)
  | calibration (outside : Bool)
  | trimBuild
  | refLossEvent
  | refLoss
  | refRestored
  | paceStall (r : Nat)
  | tsTimeoutFar (r : Nat)
  | tsTimeoutFabric (r : Nat)
  | retuneTimeout (r : Nat)
  | channelSlot (c k : Nat) (e : SlotEvent)
  | farRequest (core handle ctrl : Nat)
  | backgroundUrgent (c : Nat)
  | mr4Poll (readings : List (Nat × Nat))
  | farTraining (failHi failLo : Bool)
  | ident (ch : Nat)
  | jobLoad (ch : Nat) (v : HostView)
  | jobServe (ch : Nat)
  | jobArm (ch : Nat)
  | jobLaunch (ch : Nat)
  | jobPause (ch : Nat)
  | jobSave (ch : Nat) (v : HostView)
  | jobRestore (ch : Nat) (v : HostView)
  | jobResume (ch : Nat)
  | jobUnload (ch : Nat)
  | jobStop (ch : Nat)
  | auditReplay (ch : Nat) (v : HostView)
  | customerSet (ch : Nat)
  | customerRead (ch : Nat)
  | adapterInstall (ch : Nat) (v v2 : HostView)
  | adapterLoadDone (slot ver : Nat) (ok : Bool)
  | adapterRetire (ch : Nat)
  | casLoad (ch : Nat) (v v2 : HostView)
  | casBcast (ch : Nat) (v v2 : HostView)
  | casChild (ch : Nat)
  | casParent (ch : Nat)
  | casRelease (ch : Nat)
  | casAbort (ch : Nat)
  | casUnload (ch : Nat)
  | cassetteManifest (p : Nat) (digest : Bytes) (first : Nat) (m : Bytes)
  | cassetteBlock (p : Nat) (digest : Bytes) (n : Nat) (b : Bytes)
  | cassetteAck (p : Nat) (digest : Bytes) (first next : Nat)
  | cassetteAckRepeat (digest : Bytes) (first : Nat)
  | childBcastTimeout (digest : Bytes) (first p : Nat)
  | parentBcastTimeout (digest : Bytes) (first : Nat)
  | retainExpiry (digest : Bytes) (first : Nat)
  | residentReadback (i : Nat) (ok : Bool)
  | gearSet (ch : Nat)
  | gearPolicy (ch : Nat)
  | powerPolicy (ch : Nat)
  | stepHint (ch : Nat)
  | tsLimits (ch : Nat)
  | telemetrySnap (ch : Nat)
  | linkCfg (ch : Nat)
  | routeLoad (ch : Nat)
  | routeSwitch (ch : Nat)
  | routeRead (ch : Nat)
  | rankRead (ch : Nat)
  | fence (ch : Nat)
  | syncCfg (ch : Nat)
  | mgmtCfg (ch : Nat)
  | fabAddrSet (ch : Nat)
  | secNonce (ch : Nat)
  | secOwnerClaim (ch : Nat)
  | secOwnerRelease (ch : Nat)
  | secKeySet (ch : Nat)
  | secPolicy (ch : Nat)
  | secMgmtKey (ch : Nat)
  | secOwnerRead (ch : Nat)
  | secFwUpdate (ch : Nat) (v : HostView) (e : FlashEnd)
  | secSvnCommit (ch : Nat)
  | secLcAdvance (ch : Nat)
  | secReset (ch : Nat)
  | secSpdm (ch : Nat) (busy : Bool)
  | secChainRead (ch : Nat)
  | secProvision (ch : Nat)
  | secCertInstall (ch : Nat)
  | recoveryWrite (ch : Nat)
  | recoveryCommit (ch : Nat)
  | nonceExpiry
  | getVersion (path : SpdmPath) (req : Bytes) (busy : Bool)
  | getCapabilities (path : SpdmPath) (req : Bytes) (busy : Bool)
  | negotiateAlgorithms (path : SpdmPath) (req : Bytes) (busy : Bool)
  | getDigests (path : SpdmPath) (req : Bytes) (busy : Bool)
  | getCertificate (path : SpdmPath) (req : Bytes) (busy : Bool)
  | challenge (path : SpdmPath) (req : Bytes) (busy : Bool)
  | getMeasurements (path : SpdmPath) (req : Bytes) (busy : Bool)
  | respondIfReady (path : SpdmPath) (req : Bytes) (busy : Bool)
  | obsSet (ch : Nat)
  | obsSelectApply (pin : Nat)
  | patternSet (ch : Nat)
  | patternRead (ch cmp : Nat) (errs : List Nat)
  | inject (ch : Nat)
  | margin (ch : Nat)
  | marginDwellEnd (p : Nat)
  | debugStop (ch : Nat)
  | debugRead (ch : Nat)
  | debugRelease (ch : Nat)
  | mbDoorbell (ch : Nat) (seq : W32)
  | commandTimeout (ch : Nat)
  | mpWatchdog
  | kick
  | windowAccess (off n : Nat) (data : Option Bytes)
  | pcieReset
  | pcieLinkLoss
  | perstN (high : Bool)
  | hostDma (op : DmaOp)
  | rqTail (r : Nat) (v : W32)
  | rqCfg (r : Nat) (v : W32)
  | cqCfg (r : Nat) (v : W32)
  | cqHead (r : Nat) (v : W32)
  | cqArm (r : Nat) (waiting : Bool)
  | completionModerationTime (r : Nat)
  | recCfg (v : W32)
  | recHead (v : W32)
  | evlCfg (v : W32)
  | evcDoorbell (src : Nat)
  | evcClaim
  | evcDone (src : Nat)
  | evcModTime (src : Nat)
  | evcAgePromotion (src : Nat)
  | registerWrite (host : Bool) (addr size : Nat) (v : W64)
  | heartbeat (p : Nat) (f : Bytes)
  | commandFrame (p : Nat) (f : Bytes)
  | fenceTimer
  | heartbeatWindow (p : Nat)
  | smbusRead (addr code : Nat) (k : SmbKind) (withPec : Bool)
  | smbusClockLowTimeout
  | ringFetch (v : HostView)
  | resultUnit (c : Nat)
  | promptReadDone (id : Nat) (v : HostView)
  | requestUrgent (id : Nat)
  | refillWindow
  | blockClose
  | blockSign (parityOk selfCheckOk : Bool)
  | saveTick
  | jobEnd
  | launchCount
  | jobFatalStop
  | moduleFatalReset
  | unitTime (p : Nat)
  | newUnit (p : Nat) (u : Bytes) (parityOk : Bool)
  | replayUnit (p : Nat) (u : Bytes)
  | idleUnit (p : Nat) (u : Bytes)
  | voidUnit (p : Nat) (u : Bytes)
  | uncorrectableUnit (p : Nat) (u : Bytes)
  | replayTimer (p : Nat) (parityOk : Bool)
  | nakRepeat (p : Nat)
  | trainingFrame (p : Nat) (u : Bytes) (lanesOk : Bool)
  | trainingTimeout (p : Nat)
  | wl1Packet (p : Nat) (b : Bytes) (fec : Option Nat)
  | e2eTrailer
  | e2eAcknowledgement
  | e2eTimeout (p : Nat)
  | beaconPeriod
  | beacon
  | gscUnsync
  | launchUnit (at_ : Nat) (image manifest ranks : Bytes)
  | launchAck (rank : Nat) (accepted : Bool)
  | launchFailed
  | jobStopUnit (rank code : Nat)
  | stepDrained (rank n : Nat)
  | stepClear (n : Nat)
  | leadStepDescriptor (b : Bytes)
  | epochSwitch
  | bankDrained (b : Nat)
  | powerExitPlanned
  | powerExitDone
  | policyCap
  | sensorSample (r : Sensors)
  | brakeOff
  | thermalRestart
  | converterFault
  | tamperDetection (cause : Nat)
  | pwrEnRise
  | powerOnReset (straps : BitVec 2)
  | pwrEnFall
  | undervoltageLockout
  | overvoltageLockout
  | testLogicReset
  | bypass (tdi : List Bool)
  | idcode (tdi : List Bool)
  | samplePreload (tdi : List Bool)
  | extest (tdi : List Bool)
  | extestPulse (tdi : List Bool)
  | extestTrain (tdi : List Bool)
  | clamp (tdi : List Bool)
  | highz (tdi : List Bool)
  | vinTurnOn
  | checkerLock (p l : Nat)
  | checkerLockLost (p l cmp errs : Nat)
  | stepDueLapse
deriving DecidableEq, Repr

end Sys2Proof
end

