-- ==== Sys2Proof/WellFormed.lean ====
section
/-! DEFINITION. Which slot instructions are legal: the values that 05 and 06 name as illegal or reserved (R128, R156). -/
namespace Sys2Proof

/-- R129, R93: U is 1 only for MIN and MAX, COND 7 is illegal, parameters from 12 up do not exist. -/
def CtOp.wf : CtOp → Bool
  | .add f | .sub f | .and f | .or f | .xor f | .shl f | .shr f | .sra f | .mul f => !f.u
  | .cmp f => f.cond != 7#3
  | .param f => f.num.toNat < 12
  | .nop | .li _ | .min _ | .max _ | .br _ | .loop _ | .halt | .tickrd _ | .gscrd _ => true

/-- R139: AM 3 takes an even AS, and AM 0 an AS of 0. -/
def MemF.wf {w : Nat} (f : MemF w) : Bool :=
  (f.am != 3#2 || f.as.toNat % 2 == 0) && (f.am != 0#2 || f.as == 0#4)

/-- R139: SLD and SST have no strided form. -/
def LsOp.wf : LsOp → Bool
  | .vld f | .vst f => f.wf
  | .sld f | .sst f => f.wf && f.am != 1#2
  | .nop | .aadd _ | .asub _ | .ali _ _ | .aset _ _ | .aget _ _ => true

/-- The operand classes of R74. -/
inductive PairClass where
  | f16 | f8 | i8 | f4 | i4
deriving DecidableEq, Repr

/-- The class of a pair of format codes (R57, R74); no other pair is legal. -/
def pairClass (l r : Nat) : Option PairClass :=
  if (l = 1 || l = 2) && (r = 1 || r = 2) then some .f16
  else if (l = 3 || l = 4) && (r = 3 || r = 4) then some .f8
  else if l = 5 && r = 5 then some .i8
  else if l = 6 && r = 6 then some .f4
  else if l = 7 && r = 7 then some .i4
  else none

/-- The rows an MOUT reads (R149). -/
def MoutF.rows (f : MoutF) : Nat := if f.n = 0#6 then 64 else f.n.toNat

/-- R149 to R151: the row range, the formats, the rounding mode, the register and address forms of D. -/
def MoutF.wf (f : MoutF) (exact : Bool) : Bool :=
  f.row0.toNat + f.rows ≤ 64 && f.fmt.toNat ≤ 8 && (f.fmt.toNat != 8 || exact) && f.rm != 3#2 &&
  (if f.dst then f.d.toNat < 16
   else f.fmt.toNat ≤ 5 && f.d.toNat + f.rows ≤ 64 && f.pitch == 0#4)

/-- R143, R146, R147: a legal pair, and no K field of 0. -/
def MxOp.wf (exact : Bool) : MxOp → Bool
  | .mcfg f => (pairClass f.lfmt.toNat f.rfmt.toNat).isSome
  | .mma ⟨_, .imm k⟩ => k != 0#16
  | .mmag ⟨_, _, .imm k⟩ => k != 0#16
  | .mout f => f.wf exact
  | .mma ⟨_, .reg _⟩ | .mmag ⟨_, _, .reg _⟩ | .nop | .mclr _ | .mmode _ => true

/-- The lane layout with the fields R157 reserves in most instructions. -/
def LaneF.wf (f : LaneF) (maxT : Nat) (usesC usesCmp : Bool) : Bool :=
  f.t.toNat ≤ maxT && (usesC || f.vc == 0#6) && (usesCmp || (f.cond == 0#3 && f.pd == 0#3))

/-- R158 to R169: lane types, reserved fields, and the values named as illegal. -/
def VxOp.wf : VxOp → Bool
  | .vadd f | .vmul f => f.wf 1 false false
  | .vfma f => f.wf 1 true false
  | .vmin f | .vmax f => f.wf 2 false false
  | .vcmp f => f.wf 2 false true && f.cond.toNat ≤ 5
  | .vsel f => f.wf 0 true false
  | .vshuf f =>
    (f.mode == 0#2 || f.vb == 0#6) && (f.mode == 1#2 || f.ln == 0#6) && (f.mode.toNat ≥ 2 || f.sa == 0#5)
  | .vred f => f.rop != 3#2 && f.t.toNat ≤ 1
  | .vcvt f =>
    (f.df.toNat ≤ 5 || f.df == 8#4) && f.sf.toNat ≤ 8 && ((f.sf != 6#4 && f.sf != 7#4) || f.df == 0#4) && f.rm != 3#2
  | .vqnt f => (f.sf == 6#4 || f.sf == 7#4) && f.df == 0#4 && f.rm != 3#2
  | .vfn f => f.fn != 7#3
  | .topkInit f => f.vd == 0#6 && f.va == 0#6 && f.vb == 0#6 && !f.skip
  | .topkMerge f => f.vd == 0#6 && f.sa == 0#5
  | .topkRead f => f.va == 0#6 && f.vb == 0#6 && !f.skip && f.vd != 63#6
  | .nop | .vpen _ | .draw _ | .select _ | .clrsel => true

/-- R172 to R174: line counts, the route of an own-slice access reserved, PORT 6 and 7 illegal. -/
def MvOp.wf : MvOp → Bool
  | .ssr f => if f.rem then f.nl == 1#3 else 1 ≤ f.nl.toNat && f.nl.toNat ≤ 6 && f.rt == 0#8
  | .ssw f => if f.rem then f.nl == 1#3 else 1 ≤ f.nl.toNat && f.nl.toNat ≤ 3 && f.rt == 0#8
  | .mrecv p _ => p.toNat ≤ 5
  | .nop | .msend _ | .gath _ _ => true

/-- Whether the fields of a slot instruction hold only values the two instruction references allow; `exact` is ACC_MODE. -/
def SlotOp.wf (exact : Bool) : SlotOp → Bool
  | .ct _ o => o.wf
  | .mx _ o => o.wf exact
  | .vx _ o => o.wf
  | .ls _ o => o.wf
  | .mv _ o => o.wf
  | .qx _ _ => true

end Sys2Proof
end

