-- ==== Sys2Proof/Decode.lean ====
section
/-! DEFINITION. The slot encodings of 05 and 06, both ways, and the host's `decodeTableWord`. A slot is a number whose bit 0 is
slot bit 0. -/
namespace Sys2Proof

/-- Bits `[h:l]` of a slot as a field of `w` bits. -/
def fieldOf (w s h l : Nat) : BitVec w := BitVec.ofNat w (bits s h l)

/-- A flag at bit `i` of a slot. -/
def flagOf (s i : Nat) : Bool := bits s i i = 1

/-- The header whose PRED lies in `[p+2:p]` and whose PN is bit `p-1` (R127, R155). -/
def hdrOf (s p : Nat) : Hdr := ⟨fieldOf 3 s (p + 2) p, flagOf s (p - 1)⟩

/-- The header fields as bits of a slot. -/
def Hdr.enc (h : Hdr) (p : Nat) : Nat := h.pred.toNat * 2 ^ p + bitAt (p - 1) h.pn

/-- Takes an instruction when its reserved bits are 0 (R128). -/
def whenZero {α : Type} (n : Nat) (x : α) : Option α := if n = 0 then some x else none

/-- The ALU second operand: I at [27], then SB [25:21] with [20:0] reserved or IMM [25:0] (R129). -/
def aluSrc (s i : Nat) : Option Src :=
  if flagOf s i then some (.imm (fieldOf 26 s 25 0)) else whenZero (bits s 20 0) (.reg (fieldOf 5 s 25 21))

/-- The ALU layout (R129). -/
def aluOf (s : Nat) : Option Alu :=
  (aluSrc s 27).map fun b => ⟨fieldOf 5 s 37 33, fieldOf 5 s 32 28, b, flagOf s 26⟩

def Src.enc (i : Nat) : Src → Nat
  | .reg sb => sb.toNat * 2 ^ 21
  | .imm v => 2 ^ i + v.toNat

def Alu.enc (f : Alu) : Nat := f.sd.toNat * 2 ^ 33 + f.sa.toNat * 2 ^ 28 + bitAt 26 f.u + f.b.enc 27

/-- A CT slot (R127, R129). -/
def decodeCt (s : Nat) : Option (Hdr × CtOp) :=
  let h := hdrOf s 39
  let alu (k : Alu → CtOp) : Option (Hdr × CtOp) := (aluOf s).map fun f => (h, k f)
  match bits s 47 42 with
  | 0x00 => whenZero (bits s 37 0) (h, .nop)
  | 0x01 => some (h, .li ⟨fieldOf 5 s 37 33, flagOf s 32, fieldOf 32 s 31 0⟩)
  | 0x02 => alu .add
  | 0x03 => alu .sub
  | 0x04 => alu .and
  | 0x05 => alu .or
  | 0x06 => alu .xor
  | 0x07 => alu .shl
  | 0x08 => alu .shr
  | 0x09 => alu .sra
  | 0x0A => alu .mul
  | 0x0B => alu .min
  | 0x0C => alu .max
  | 0x0D => (aluSrc s 26).map fun b => (h, .cmp ⟨fieldOf 3 s 37 35, fieldOf 5 s 34 30, fieldOf 3 s 29 27, b⟩)
  | 0x0E =>
    if flagOf s 37 then whenZero (bits s 26 0) (h, .br ⟨fieldOf 5 s 36 32, .reg (fieldOf 5 s 31 27)⟩)
    else whenZero (bits s 19 0) (h, .br ⟨fieldOf 5 s 36 32, .imm (fieldOf 12 s 31 20)⟩)
  | 0x0F =>
    if flagOf s 25 then whenZero (bits s 19 0) (h, .loop ⟨fieldOf 12 s 37 26, .reg (fieldOf 5 s 24 20)⟩)
    else whenZero (bits s 8 0) (h, .loop ⟨fieldOf 12 s 37 26, .imm (fieldOf 16 s 24 9)⟩)
  | 0x10 => whenZero (bits s 37 0) (h, .halt)
  | 0x11 => whenZero (bits s 32 0) (h, .tickrd (fieldOf 5 s 37 33))
  | 0x12 => whenZero (bits s 32 0) (h, .gscrd (fieldOf 5 s 37 33))
  | 0x13 => whenZero (bits s 26 0) (h, .param ⟨fieldOf 5 s 37 33, fieldOf 6 s 32 27⟩)
  | _ => none

/-- The words of a CT instruction. -/
def encodeCt (h : Hdr) (o : CtOp) : Nat :=
  let e (op operands : Nat) : Nat := op * 2 ^ 42 + h.enc 39 + operands
  match o with
  | .nop => e 0x00 0
  | .li f => e 0x01 (f.sd.toNat * 2 ^ 33 + bitAt 32 f.hi + f.imm.toNat)
  | .add f => e 0x02 f.enc
  | .sub f => e 0x03 f.enc
  | .and f => e 0x04 f.enc
  | .or f => e 0x05 f.enc
  | .xor f => e 0x06 f.enc
  | .shl f => e 0x07 f.enc
  | .shr f => e 0x08 f.enc
  | .sra f => e 0x09 f.enc
  | .mul f => e 0x0A f.enc
  | .min f => e 0x0B f.enc
  | .max f => e 0x0C f.enc
  | .cmp f => e 0x0D (f.pd.toNat * 2 ^ 35 + f.sa.toNat * 2 ^ 30 + f.cond.toNat * 2 ^ 27 + f.b.enc 26)
  | .br ⟨sl, .imm t⟩ => e 0x0E (sl.toNat * 2 ^ 32 + t.toNat * 2 ^ 20)
  | .br ⟨sl, .reg sb⟩ => e 0x0E (2 ^ 37 + sl.toNat * 2 ^ 32 + sb.toNat * 2 ^ 27)
  | .loop ⟨z, .imm c⟩ => e 0x0F (z.toNat * 2 ^ 26 + c.toNat * 2 ^ 9)
  | .loop ⟨z, .reg sb⟩ => e 0x0F (z.toNat * 2 ^ 26 + 2 ^ 25 + sb.toNat * 2 ^ 20)
  | .halt => e 0x10 0
  | .tickrd sd => e 0x11 (sd.toNat * 2 ^ 33)
  | .gscrd sd => e 0x12 (sd.toNat * 2 ^ 33)
  | .param f => e 0x13 (f.sd.toNat * 2 ^ 33 + f.num.toNat * 2 ^ 27)

/-- The memory layout behind its data register (R138). -/
def memOf (w s : Nat) (r : BitVec w) : MemF w :=
  ⟨r, fieldOf 4 s 24 21, fieldOf 4 s 20 17, fieldOf 2 s 16 15, fieldOf 15 s 14 0⟩

def MemF.enc {w : Nat} (f : MemF w) (at_ : Nat) : Nat :=
  f.r.toNat * 2 ^ at_ + f.ab.toNat * 2 ^ 21 + f.as.toNat * 2 ^ 17 + f.am.toNat * 2 ^ 15 + f.off.toNat

/-- The address ALU layout (R138). -/
def aaluOf (s : Nat) : Option AAlu :=
  if flagOf s 22 then some ⟨fieldOf 4 s 30 27, fieldOf 4 s 26 23, .imm (fieldOf 22 s 21 0)⟩
  else whenZero (bits s 17 0) ⟨fieldOf 4 s 30 27, fieldOf 4 s 26 23, .reg (fieldOf 4 s 21 18)⟩

def AAlu.enc (f : AAlu) : Nat :=
  f.ad.toNat * 2 ^ 27 + f.aa.toNat * 2 ^ 23 +
    match f.b with
    | .reg ac => ac.toNat * 2 ^ 18
    | .imm i => 2 ^ 22 + i.toNat

/-- An LS slot (R127, R138). -/
def decodeLs (s : Nat) : Option (Hdr × LsOp) :=
  let h := hdrOf s 32
  match bits s 39 35 with
  | 0x00 => whenZero (bits s 30 0) (h, .nop)
  | 0x01 => some (h, .vld (memOf 6 s (fieldOf 6 s 30 25)))
  | 0x02 => some (h, .vst (memOf 6 s (fieldOf 6 s 30 25)))
  | 0x03 => whenZero (bits s 25 25) (h, .sld (memOf 5 s (fieldOf 5 s 30 26)))
  | 0x04 => whenZero (bits s 25 25) (h, .sst (memOf 5 s (fieldOf 5 s 30 26)))
  | 0x05 => (aaluOf s).map fun f => (h, .aadd f)
  | 0x06 => (aaluOf s).map fun f => (h, .asub f)
  | 0x07 => some (h, .ali (fieldOf 4 s 30 27) (fieldOf 27 s 26 0))
  | 0x08 => whenZero (bits s 21 0) (h, .aset (fieldOf 4 s 30 27) (fieldOf 5 s 26 22))
  | 0x09 => whenZero (bits s 21 0) (h, .aget (fieldOf 5 s 30 26) (fieldOf 4 s 25 22))
  | _ => none

/-- The words of an LS instruction. -/
def encodeLs (h : Hdr) (o : LsOp) : Nat :=
  let e (op operands : Nat) : Nat := op * 2 ^ 35 + h.enc 32 + operands
  match o with
  | .nop => e 0x00 0
  | .vld f => e 0x01 (f.enc 25)
  | .vst f => e 0x02 (f.enc 25)
  | .sld f => e 0x03 (f.enc 26)
  | .sst f => e 0x04 (f.enc 26)
  | .aadd f => e 0x05 f.enc
  | .asub f => e 0x06 f.enc
  | .ali ad i => e 0x07 (ad.toNat * 2 ^ 27 + i.toNat)
  | .aset ad sb => e 0x08 (ad.toNat * 2 ^ 27 + sb.toNat * 2 ^ 22)
  | .aget sd ab => e 0x09 (sd.toNat * 2 ^ 26 + ab.toNat * 2 ^ 22)

/-- An MX slot (R127, R142). -/
def decodeMx (s : Nat) : Option (Hdr × MxOp) :=
  let h := hdrOf s 32
  match bits s 39 35 with
  | 0x00 => whenZero (bits s 30 0) (h, .nop)
  | 0x01 => whenZero (bits s 8 0)
      (h, .mcfg ⟨fieldOf 3 s 30 28, fieldOf 3 s 27 25, fieldOf 4 s 24 21, fieldOf 4 s 20 17, fieldOf 4 s 16 13,
        fieldOf 4 s 12 9⟩)
  | 0x02 =>
    if flagOf s 28 then whenZero (bits s 22 0) (h, .mma ⟨fieldOf 2 s 30 29, .reg (fieldOf 5 s 27 23)⟩)
    else whenZero (bits s 11 0) (h, .mma ⟨fieldOf 2 s 30 29, .imm (fieldOf 16 s 27 12)⟩)
  | 0x03 =>
    if flagOf s 28 then
      whenZero (bits s 16 0) (h, .mmag ⟨fieldOf 2 s 30 29, fieldOf 6 s 27 22, .reg (fieldOf 5 s 21 17)⟩)
    else whenZero (bits s 5 0) (h, .mmag ⟨fieldOf 2 s 30 29, fieldOf 6 s 27 22, .imm (fieldOf 16 s 21 6)⟩)
  | 0x04 => whenZero (bits s 26 0) (h, .mclr (fieldOf 4 s 30 27))
  | 0x05 => some (h, .mout ⟨fieldOf 2 s 30 29, fieldOf 6 s 28 23, fieldOf 6 s 22 17, flagOf s 16, fieldOf 4 s 15 12,
      fieldOf 2 s 11 10, fieldOf 6 s 9 4, fieldOf 4 s 3 0⟩)
  | 0x06 => whenZero (bits s 10 0)
      (h, .mmode ⟨fieldOf 5 s 30 26, fieldOf 5 s 25 21, fieldOf 5 s 20 16, fieldOf 5 s 15 11⟩)
  | _ => none

/-- The words of an MX instruction. -/
def encodeMx (h : Hdr) (o : MxOp) : Nat :=
  let e (op operands : Nat) : Nat := op * 2 ^ 35 + h.enc 32 + operands
  match o with
  | .nop => e 0x00 0
  | .mcfg f => e 0x01 (f.lfmt.toNat * 2 ^ 28 + f.rfmt.toNat * 2 ^ 25 + f.al.toNat * 2 ^ 21 + f.ar.toNat * 2 ^ 17 +
      f.als.toNat * 2 ^ 13 + f.ars.toNat * 2 ^ 9)
  | .mma ⟨a, .imm k⟩ => e 0x02 (a.toNat * 2 ^ 29 + k.toNat * 2 ^ 12)
  | .mma ⟨a, .reg r⟩ => e 0x02 (a.toNat * 2 ^ 29 + 2 ^ 28 + r.toNat * 2 ^ 23)
  | .mmag ⟨a, vs, .imm k⟩ => e 0x03 (a.toNat * 2 ^ 29 + vs.toNat * 2 ^ 22 + k.toNat * 2 ^ 6)
  | .mmag ⟨a, vs, .reg r⟩ => e 0x03 (a.toNat * 2 ^ 29 + 2 ^ 28 + vs.toNat * 2 ^ 22 + r.toNat * 2 ^ 17)
  | .mclr m => e 0x04 (m.toNat * 2 ^ 27)
  | .mout f => e 0x05 (f.acc.toNat * 2 ^ 29 + f.row0.toNat * 2 ^ 23 + f.n.toNat * 2 ^ 17 + bitAt 16 f.dst +
      f.fmt.toNat * 2 ^ 12 + f.rm.toNat * 2 ^ 10 + f.d.toNat * 2 ^ 4 + f.pitch.toNat)
  | .mmode f => e 0x06 (f.skey.toNat * 2 ^ 26 + f.spos.toNat * 2 ^ 21 + f.ssid.toNat * 2 ^ 16 + f.sdrw.toNat * 2 ^ 11)

/-- The lane layout (R157). -/
def laneOf (s : Nat) : LaneF :=
  ⟨fieldOf 6 s 37 32, fieldOf 6 s 31 26, fieldOf 6 s 25 20, fieldOf 6 s 19 14, fieldOf 2 s 13 12, fieldOf 3 s 11 9,
    fieldOf 3 s 8 6⟩

def LaneF.enc (f : LaneF) : Nat :=
  f.vd.toNat * 2 ^ 32 + f.va.toNat * 2 ^ 26 + f.vb.toNat * 2 ^ 20 + f.vc.toNat * 2 ^ 14 + f.t.toNat * 2 ^ 12 +
    f.cond.toNat * 2 ^ 9 + f.pd.toNat * 2 ^ 6

/-- The convert layout (R157). -/
def cvtOf (s : Nat) : CvtF :=
  ⟨fieldOf 6 s 37 32, fieldOf 6 s 31 26, fieldOf 4 s 25 22, fieldOf 4 s 21 18, fieldOf 2 s 17 16, fieldOf 5 s 15 11,
    fieldOf 5 s 10 6, fieldOf 5 s 5 1⟩

def CvtF.enc (f : CvtF) : Nat :=
  f.vd.toNat * 2 ^ 32 + f.va.toNat * 2 ^ 26 + f.sf.toNat * 2 ^ 22 + f.df.toNat * 2 ^ 18 + f.rm.toNat * 2 ^ 16 +
    f.sk.toNat * 2 ^ 11 + f.sp.toNat * 2 ^ 6 + f.ss.toNat * 2

/-- VTOPK's operand fields (R157). -/
def topkOf (s : Nat) : TopkF := ⟨fieldOf 6 s 37 32, fieldOf 6 s 31 26, fieldOf 6 s 25 20, flagOf s 17, fieldOf 5 s 16 12⟩

def TopkF.enc (f : TopkF) (sub_ : Nat) : Nat :=
  f.vd.toNat * 2 ^ 32 + f.va.toNat * 2 ^ 26 + f.vb.toNat * 2 ^ 20 + sub_ * 2 ^ 18 + bitAt 17 f.skip + f.sa.toNat * 2 ^ 12

/-- A VX slot (R155, R157). -/
def decodeVx (s : Nat) : Option (Hdr × VxOp) :=
  let h := hdrOf s 39
  let lane (k : LaneF → VxOp) : Option (Hdr × VxOp) := whenZero (bits s 5 0) (h, k (laneOf s))
  let cvt (k : CvtF → VxOp) : Option (Hdr × VxOp) := whenZero (bits s 0 0) (h, k (cvtOf s))
  match bits s 47 42 with
  | 0x00 => whenZero (bits s 37 0) (h, .nop)
  | 0x01 => lane .vadd
  | 0x02 => lane .vmul
  | 0x03 => lane .vfma
  | 0x04 => lane .vmin
  | 0x05 => lane .vmax
  | 0x06 => lane .vcmp
  | 0x07 => lane .vsel
  | 0x08 => whenZero (bits s 6 0)
      (h, .vshuf ⟨fieldOf 6 s 37 32, fieldOf 6 s 31 26, fieldOf 6 s 25 20, fieldOf 2 s 19 18, fieldOf 6 s 17 12,
        fieldOf 5 s 11 7⟩)
  | 0x09 => whenZero (bits s 21 0) (h, .vred ⟨fieldOf 6 s 37 32, fieldOf 6 s 31 26, fieldOf 2 s 25 24, fieldOf 2 s 23 22⟩)
  | 0x0A => cvt .vcvt
  | 0x0B => cvt .vqnt
  | 0x0C => whenZero (bits s 22 0) (h, .vfn ⟨fieldOf 6 s 37 32, fieldOf 6 s 31 26, fieldOf 3 s 25 23⟩)
  | 0x0D =>
    match bits s 19 18 with
    | 0 => whenZero (bits s 11 0) (h, .topkInit (topkOf s))
    | 1 => whenZero (bits s 11 0) (h, .topkMerge (topkOf s))
    | 2 => whenZero (bits s 11 0) (h, .topkRead (topkOf s))
    | _ => none
  | 0x0E => whenZero (bits s 3 0)
      (h, .vpen ⟨fieldOf 6 s 37 32, fieldOf 6 s 31 26, fieldOf 6 s 25 20, fieldOf 6 s 19 14, fieldOf 5 s 13 9,
        fieldOf 5 s 8 4⟩)
  | 0x0F =>
    match bits s 37 36 with
    | 0 => whenZero (bits s 14 0) (h, .draw ⟨fieldOf 6 s 35 30, fieldOf 5 s 29 25, fieldOf 5 s 24 20, fieldOf 5 s 19 15⟩)
    | 1 => whenZero (bits s 11 0)
        (h, .select ⟨fieldOf 6 s 35 30, fieldOf 6 s 29 24, fieldOf 6 s 23 18, fieldOf 6 s 17 12⟩)
    | 2 => whenZero (bits s 35 0) (h, .clrsel)
    | _ => none
  | _ => none

/-- The words of a VX instruction. -/
def encodeVx (h : Hdr) (o : VxOp) : Nat :=
  let e (op operands : Nat) : Nat := op * 2 ^ 42 + h.enc 39 + operands
  match o with
  | .nop => e 0x00 0
  | .vadd f => e 0x01 f.enc
  | .vmul f => e 0x02 f.enc
  | .vfma f => e 0x03 f.enc
  | .vmin f => e 0x04 f.enc
  | .vmax f => e 0x05 f.enc
  | .vcmp f => e 0x06 f.enc
  | .vsel f => e 0x07 f.enc
  | .vshuf f => e 0x08 (f.vd.toNat * 2 ^ 32 + f.va.toNat * 2 ^ 26 + f.vb.toNat * 2 ^ 20 + f.mode.toNat * 2 ^ 18 +
      f.ln.toNat * 2 ^ 12 + f.sa.toNat * 2 ^ 7)
  | .vred f => e 0x09 (f.vd.toNat * 2 ^ 32 + f.va.toNat * 2 ^ 26 + f.rop.toNat * 2 ^ 24 + f.t.toNat * 2 ^ 22)
  | .vcvt f => e 0x0A f.enc
  | .vqnt f => e 0x0B f.enc
  | .vfn f => e 0x0C (f.vd.toNat * 2 ^ 32 + f.va.toNat * 2 ^ 26 + f.fn.toNat * 2 ^ 23)
  | .topkInit f => e 0x0D (f.enc 0)
  | .topkMerge f => e 0x0D (f.enc 1)
  | .topkRead f => e 0x0D (f.enc 2)
  | .vpen f => e 0x0E (f.vd.toNat * 2 ^ 32 + f.va.toNat * 2 ^ 26 + f.vb.toNat * 2 ^ 20 + f.vc.toNat * 2 ^ 14 +
      f.sp.toNat * 2 ^ 9 + f.sq.toNat * 2 ^ 4)
  | .draw f => e 0x0F (f.vd.toNat * 2 ^ 30 + f.sk.toNat * 2 ^ 25 + f.sp.toNat * 2 ^ 20 + f.ss.toNat * 2 ^ 15)
  | .select f => e 0x0F (2 ^ 36 + f.vd.toNat * 2 ^ 30 + f.va.toNat * 2 ^ 24 + f.vb.toNat * 2 ^ 18 + f.vc.toNat * 2 ^ 12)
  | .clrsel => e 0x0F (2 * 2 ^ 36)

/-- SSR's and SSW's fields (R170). -/
def ssOf (s : Nat) : SsF := ⟨fieldOf 3 s 30 28, flagOf s 27, fieldOf 4 s 26 23, fieldOf 4 s 22 19, fieldOf 8 s 18 11⟩

def SsF.enc (f : SsF) : Nat :=
  f.nl.toNat * 2 ^ 28 + bitAt 27 f.rem + f.aw.toNat * 2 ^ 23 + f.as.toNat * 2 ^ 19 + f.rt.toNat * 2 ^ 11

/-- An MV slot (R155, R170). -/
def decodeMv (s : Nat) : Option (Hdr × MvOp) :=
  let h := hdrOf s 32
  match bits s 39 35 with
  | 0x00 => whenZero (bits s 30 0) (h, .nop)
  | 0x01 => whenZero (bits s 10 0) (h, .ssr (ssOf s))
  | 0x02 => whenZero (bits s 10 0) (h, .ssw (ssOf s))
  | 0x03 => whenZero (bits s 7 0) (h, .msend ⟨fieldOf 4 s 30 27, fieldOf 8 s 26 19, fieldOf 11 s 18 8⟩)
  | 0x04 => whenZero (bits s 23 0) (h, .mrecv (fieldOf 3 s 30 28) (fieldOf 4 s 27 24))
  | 0x05 => whenZero (bits s 18 0) (h, .gath (fieldOf 6 s 30 25) (fieldOf 6 s 24 19))
  | _ => none

/-- The words of an MV instruction. -/
def encodeMv (h : Hdr) (o : MvOp) : Nat :=
  let e (op operands : Nat) : Nat := op * 2 ^ 35 + h.enc 32 + operands
  match o with
  | .nop => e 0x00 0
  | .ssr f => e 0x01 f.enc
  | .ssw f => e 0x02 f.enc
  | .msend f => e 0x03 (f.aw.toNat * 2 ^ 27 + f.rt.toNat * 2 ^ 19 + f.off.toNat * 2 ^ 8)
  | .mrecv p a => e 0x04 (p.toNat * 2 ^ 28 + a.toNat * 2 ^ 24)
  | .gath d a => e 0x05 (d.toNat * 2 ^ 25 + a.toNat * 2 ^ 19)

/-- A QX slot (R155, R177). -/
def decodeQx (s : Nat) : Option (Hdr × QxOp) :=
  let h := hdrOf s 32
  match bits s 39 35 with
  | 0x00 => whenZero (bits s 30 0) (h, .nop)
  | 0x01 => whenZero (bits s 15 0) (h, .qpush ⟨fieldOf 5 s 30 26, fieldOf 5 s 25 21, fieldOf 5 s 20 16⟩)
  | 0x02 =>
    if flagOf s 22 then
      whenZero (bits s 16 0) (h, .qarm ⟨fieldOf 3 s 30 28, fieldOf 5 s 27 23, .reg (fieldOf 5 s 21 17)⟩)
    else whenZero (bits s 5 0) (h, .qarm ⟨fieldOf 3 s 30 28, fieldOf 5 s 27 23, .imm (fieldOf 16 s 21 6)⟩)
  | 0x03 => whenZero (bits s 27 0) (h, .qwait (fieldOf 3 s 30 28))
  | 0x04 => whenZero (bits s 18 0) (h, .qstat ⟨fieldOf 5 s 30 26, fieldOf 5 s 25 21, fieldOf 2 s 20 19⟩)
  | _ => none

/-- The words of a QX instruction. -/
def encodeQx (h : Hdr) (o : QxOp) : Nat :=
  let e (op operands : Nat) : Nat := op * 2 ^ 35 + h.enc 32 + operands
  match o with
  | .nop => e 0x00 0
  | .qpush f => e 0x01 (f.q.toNat * 2 ^ 26 + f.sa.toNat * 2 ^ 21 + f.sb.toNat * 2 ^ 16)
  | .qarm ⟨w, q, .imm n⟩ => e 0x02 (w.toNat * 2 ^ 28 + q.toNat * 2 ^ 23 + n.toNat * 2 ^ 6)
  | .qarm ⟨w, q, .reg r⟩ => e 0x02 (w.toNat * 2 ^ 28 + q.toNat * 2 ^ 23 + 2 ^ 22 + r.toNat * 2 ^ 17)
  | .qwait w => e 0x03 (w.toNat * 2 ^ 28)
  | .qstat f => e 0x04 (f.sd.toNat * 2 ^ 26 + f.q.toNat * 2 ^ 21 + f.sel.toNat * 2 ^ 19)

/-- The six slots of a bundle (R95), in the order CT, MX, VX, LS, MV, QX; `none` for a slot no encoding defines. -/
def decodeBundle (b : Nat) : List (Option SlotOp) :=
  [ (decodeCt (bits b 255 208)).map fun p => .ct p.1 p.2,
    (decodeMx (bits b 207 168)).map fun p => .mx p.1 p.2,
    (decodeVx (bits b 167 120)).map fun p => .vx p.1 p.2,
    (decodeLs (bits b 119 80)).map fun p => .ls p.1 p.2,
    (decodeMv (bits b 79 40)).map fun p => .mv p.1 p.2,
    (decodeQx (bits b 39 0)).map fun p => .qx p.1 p.2 ]

/-- The bundle bits of one slot instruction in an otherwise empty bundle (R95). -/
def encodeSlot : SlotOp → Nat
  | .ct h o => encodeCt h o * 2 ^ 208
  | .mx h o => encodeMx h o * 2 ^ 168
  | .vx h o => encodeVx h o * 2 ^ 120
  | .ls h o => encodeLs h o * 2 ^ 80
  | .mv h o => encodeMv h o * 2 ^ 40
  | .qx h o => encodeQx h o

/-- The command a word of the opcode table spells. No row of the table has bits, so no word spells a command. -/
def decodeTableWord (_nbits _w : Nat) : Option Instr := none

end Sys2Proof
end

