-- ==== Sys2Proof/Machine/CasState.lean ====
section
/-! DEFINITION. State of the cassette engines and the resident-model table (09_cassettes). -/
namespace Sys2Proof.Machine

/-- A resident-model slot's state, in the order of the codes of RMT_STATE (R257, R271). -/
inductive SlotState where
  | empty | loading | resident
deriving DecidableEq, Repr

/-- A slot of the resident-model table (R257). `placed` tells whether its far blocks are allocated. -/
structure RmSlot where
  state : SlotState
  digest : Bytes
  resDigest : Bytes
  placed : Bool
  base : Nat
  size : Nat
  lastUse : Nat
  pins : Nat
  jobs : Nat
deriving DecidableEq, Repr

/-- A tensor-table entry (R245). -/
structure Tensor where
  src : Nat
  dst : Nat
  codec : Nat
  table : Nat
  layout : Nat
  ovf : Bool
  rows : Nat
  cols : Nat
  srcOff : Nat
  srcLen : Nat
deriving DecidableEq, Repr

/-- A verified manifest (R243 to R247): its bytes, body length, block count, tensors, Huffman tables, listed digests, RES_SIZE. -/
structure Manifest where
  bytes : Bytes
  bodyLen : Nat
  blocks : Nat
  tensors : List Tensor
  tables : List Bytes
  digests : List Bytes
  resSize : Nat
deriving DecidableEq, Repr

/-- A child of a broadcast range (R266, R267): its port, the block it starts from, its last acknowledgement plus 1, the block next to
be forwarded to it, the GSC at which its acknowledgement last advanced, whether it has been sent the manifest. -/
structure CasChild where
  port : Nat
  start : Nat
  acked : Nat
  next : Nat
  since : Nat
  manifest : Bool
deriving DecidableEq, Repr

/-- A broadcast range (R263 to R268). `parent` is none for a root. `ackNext` is the block after the highest one acknowledged;
`retain` the lowest block kept for lost children and when that ends. -/
structure CasRange where
  first : Nat
  last : Nat
  parent : Option Nat
  children : List CasChild
  ackNext : Nat
  retain : Option (Nat × Nat)
  lastRx : Nat
  lastAck : Nat
  parentLost : Bool
  stopped : Bool
deriving DecidableEq, Repr

/-- How far a load has come (R257, R260): waiting for a slot or for space at a step boundary, receiving, written and awaiting its
read-back, read back and awaiting a step boundary, failed and awaiting one; or answered, its slot RESIDENT, while its window still serves
children (R266, R267). -/
inductive LoadPhase where
  | needSlot | needSpace | receiving | written | ready | failed | sharing
deriving DecidableEq, Repr

/-- A load in progress: the digest it names, the channel to be answered, the adapter slot and version it fills (none for a
resident-model slot), its slot, its phase, the manifest, the verified blocks by number, the times each block failed, its ranges, its
starting GSC, the resident digest once read back, and for a failed one its result, fault code and block or tensor number (R270).
`host` are the blocks of root ranges that still lie in the host's memory; `sigDemanded` and `keys` the owner's policy and cassette keys
when the command was accepted (R467). -/
structure CasLoad where
  digest : Bytes
  chan : Option Nat
  adapter : Option (Nat × Nat)
  slot : Nat
  phase : LoadPhase
  manifest : Option Manifest
  blocks : Map Bytes
  host : Map Bytes
  sigDemanded : Bool
  keys : Map Bytes
  bad : Map Nat
  ranges : List CasRange
  started : Nat
  resDigest : Bytes
  failed : Option (Nat × Nat × Nat)
deriving DecidableEq, Repr

/-- A cassette message the module puts on a port (R263): the manifest, a block, an acknowledgement, a request for a block again. -/
inductive CasMsg where
  | manifest (digest : Bytes) (first : Nat)
  | block (digest : Bytes) (n : Nat)
  | ack (digest : Bytes) (first next : Nat)
  | again (digest : Bytes) (n : Nat)
deriving DecidableEq, Repr

/-- The CAS block (R271). `unloads` are unloads (slot, channel) that wait for a step boundary; `sent` the messages put on ports, newest last. -/
structure Cas where
  slots : Map RmSlot
  useSeq : Nat
  loads : List CasLoad
  unloads : List (Nat × Nat)
  faultCode : W16
  faultSlot : Nat
  faultValid : Bool
  faultIndex : W32
  bytesOut : Nat
  sent : List (Nat × CasMsg)
deriving DecidableEq, Repr

/-- An EMPTY slot (R257). -/
def RmSlot.init : RmSlot :=
  { state := .empty, digest := [], resDigest := [], placed := false, base := 0, size := 0, lastUse := 0, pins := 0, jobs := 0 }

/-- The CAS block after reset (R257, R259, R271). -/
def Cas.init : Cas :=
  { slots := [], useSeq := 0, loads := [], unloads := [], faultCode := 0#16, faultSlot := 0, faultValid := false, faultIndex := 0#32
    bytesOut := 0, sent := [] }

end Sys2Proof.Machine
end

