-- ==== Sys2Proof/Machine/Numbers.lean ====
section
/-! DEFINITION. Number formats and arithmetic (03_numbers): decoding, rounding, block quantisation, Philox, matrix and vector
arithmetic, LS640. -/
namespace Sys2Proof.Machine

/-- A float format (R57): mantissa width, total width, bias, greatest finite encoding, infinity if any, canonical NaN. -/
structure Fmt where
  m : Nat
  width : Nat
  bias : Nat
  maxEnc : Nat
  inf : Option Nat
  nan : Nat
deriving DecidableEq, Repr

def fp32 : Fmt := ⟨23, 32, 127, 0x7F7FFFFF, some 0x7F800000, 0x7FC00000⟩
def bf16 : Fmt := ⟨7, 16, 127, 0x7F7F, some 0x7F80, 0x7FC0⟩
def fp16 : Fmt := ⟨10, 16, 15, 0x7BFF, some 0x7C00, 0x7E00⟩
def e4m3 : Fmt := ⟨3, 8, 7, 0x7E, none, 0x7F⟩
def e5m2 : Fmt := ⟨2, 8, 15, 0x7B, some 0x7C, 0x7E⟩
/-- The MXFP4 element (R67): m = 1, emin = 0, greatest value 6, no infinities. -/
def e2m1 : Fmt := ⟨1, 4, 1, 0x7, none, 0⟩

/-- The least exponent of a format, `1 - bias` (R67). -/
def Fmt.emin (f : Fmt) : Int := 1 - (f.bias : Int)

/-- A decoded value: NaN, an infinity, or a sign and an exact magnitude (a zero keeps its sign). -/
inductive Val where
  | nan
  | inf (neg : Bool)
  | fin (neg : Bool) (mag : Rat)
deriving DecidableEq, Repr

/-- `2^e` for any integer exponent. -/
def pow2 (e : Int) : Rat := if 0 ≤ e then ((2 ^ e.toNat : Nat) : Rat) else 1 / ((2 ^ (-e).toNat : Nat) : Rat)

/-- The largest integer `e` with `2^e ≤ a`, for `a > 0`. -/
def ilog2 (a : Rat) : Int :=
  let n := a.num.natAbs
  let d := a.den
  let k : Int := (Nat.log2 n : Int) - (Nat.log2 d : Int)
  if pow2 k ≤ a then k else k - 1

/-- The signed value of a finite `Val`. -/
def Val.rat : Val → Rat
  | .fin true x => -x
  | .fin false x => x
  | _ => 0

def Val.neg : Val → Bool
  | .nan => false
  | .inf n => n
  | .fin n _ => n

def Val.isNan : Val → Bool
  | .nan => true
  | _ => false

/-- A float encoding as a value (R58). -/
def Fmt.decode (f : Fmt) (x : Nat) : Val :=
  let neg := bit x (f.width - 1)
  let g := x % 2 ^ (f.width - 1)
  if g ≤ f.maxEnc then
    let p := 2 ^ f.m
    if g < p then .fin neg ((g : Rat) * pow2 (f.emin - f.m))
    else .fin neg (((p + g % p : Nat) : Rat) * pow2 ((g / p : Nat) - 1 + f.emin - f.m))
  else if f.inf = some g then .inf neg else .nan

/-- The encoding of a sign and a magnitude code. -/
def Fmt.signed (f : Fmt) (neg : Bool) (g : Nat) : Nat := bitAt (f.width - 1) neg + g

/-- The rounding modes of R64. -/
inductive Rm where
  | rne | rtz | sr
deriving DecidableEq, Repr

/-- RM as a field codes it; 0b11 is illegal and never reaches a conversion. -/
def rmOf (n : Nat) : Rm := if n = 0 then .rne else if n = 1 then .rtz else .sr

/-- Which of the two neighbours `lo` and `lo + 1`, in units of the spacing, a scaled magnitude `t` rounds to (R67). -/
def roundUnits (t : Rat) (rm : Rm) (r : Nat) : Nat :=
  let lo := t.floor.toNat
  let rest := t - (lo : Rat)
  if rest = 0 then lo
  else
    match rm with
    | .rne => if rest < 1 / 2 then lo else if 1 / 2 < rest then lo + 1 else if lo % 2 = 0 then lo else lo + 1
    | .rtz => lo
    | .sr => if (r : Rat) < rest * (2 ^ 32 : Nat) then lo + 1 else lo

/-- The magnitude code round_to() gives before its overflow test (R67): the binade below the value, its spacing, the rounded
count of spacings. -/
def Fmt.roundCode (f : Fmt) (a : Rat) (rm : Rm) (r : Nat) : Nat :=
  let e := max (ilog2 a) f.emin
  let n := roundUnits (a / pow2 (e - f.m)) rm r
  (e - f.emin).toNat * 2 ^ f.m + n

/-- The overflow result of R68 for a float target; `ovfNan` is E4M3_OVF. -/
def Fmt.overflow (f : Fmt) (ovfNan : Bool) (neg : Bool) (rm : Rm) : Nat :=
  match f.inf with
  | some i => if rm = .rtz then f.signed neg f.maxEnc else f.signed neg i
  | none => if f = e4m3 && ovfNan then f.nan else f.signed neg f.maxEnc

/-- round_to() for a float target (R67, R68); a zero magnitude keeps its sign (R69). -/
def Fmt.round (f : Fmt) (ovfNan : Bool) (rm : Rm) (r : Nat) (neg : Bool) (a : Rat) : Nat :=
  if a = 0 then f.signed neg 0
  else
    let g := f.roundCode a rm r
    if f.maxEnc < g then f.overflow ovfNan neg rm else f.signed neg g

/-- Conversion of any value to a float format (R66 to R69). -/
def Fmt.convert (f : Fmt) (ovfNan : Bool) (rm : Rm) (r : Nat) : Val → Nat
  | .nan => f.nan
  | .inf neg =>
    match f.inf with
    | some i => f.signed neg i
    | none => if ovfNan then f.nan else f.signed neg f.maxEnc
  | .fin neg a => f.round ovfNan rm r neg a

/-- Conversion to a two's-complement integer of `w` bits (R67 to R69): saturating, NaN to 0. -/
def toInt (w : Nat) (rm : Rm) (r : Nat) : Val → Int
  | .nan => 0
  | .inf neg => if neg then -(2 ^ (w - 1) : Nat) else (2 ^ (w - 1) : Nat) - 1
  | .fin neg a =>
    let n := roundUnits a rm r
    if neg then (if 2 ^ (w - 1) < n then -(2 ^ (w - 1) : Nat) else -(n : Int))
    else (if 2 ^ (w - 1) - 1 < n then (2 ^ (w - 1) : Nat) - 1 else (n : Int))

/-- An integer as `w` bits. -/
def wrap (w : Nat) (x : Int) : Nat := (x % (2 ^ w : Nat)).toNat

/-- An integer as a value; an integer zero is +0. -/
def ofInt (x : Int) : Val := .fin (x < 0) (x.natAbs : Rat)

/-- The signed value of a `w`-bit pattern. -/
def sgn (w x : Nat) : Int := if bit x (w - 1) then (x % 2 ^ w : Nat) - (2 ^ w : Nat) else ((x % 2 ^ w : Nat) : Int)

/-- RNE to FP32 of a signed exact value; an exact zero is +0. -/
def rne32 (x : Rat) : W32 := BitVec.ofNat 32 (fp32.round false .rne 0 (x < 0) (if x < 0 then -x else x))

/-- The canonical NaN of FP32 (R59). -/
def nan32 : W32 := 0x7FC00000#32

/-- An FP32 pattern as a value. -/
def val32 (x : W32) : Val := fp32.decode x.toNat

/-- A value FP32 represents, or NaN, as its pattern. -/
def enc32 (v : Val) : W32 := BitVec.ofNat 32 (fp32.convert false .rne 0 v)

/-- The value of one element of format code `c` that has no block scale, or of I32 (code 8) (R57, R162). -/
def decodeElem (c x : Nat) : Val :=
  match c with
  | 0 => fp32.decode (x % 2 ^ 32)
  | 1 => bf16.decode (x % 2 ^ 16)
  | 2 => fp16.decode (x % 2 ^ 16)
  | 3 => e4m3.decode (x % 2 ^ 8)
  | 4 => e5m2.decode (x % 2 ^ 8)
  | 5 => ofInt (sgn 8 x)
  | _ => ofInt (sgn 32 x)

/-- convert() to format code `c`, 0 to 5, or to I32 (8) (R66 to R69, R162). -/
def convertTo (c : Nat) (ovfNan : Bool) (rm : Rm) (r : Nat) (v : Val) : Nat :=
  match c with
  | 0 => fp32.convert ovfNan rm r v
  | 1 => bf16.convert ovfNan rm r v
  | 2 => fp16.convert ovfNan rm r v
  | 3 => e4m3.convert ovfNan rm r v
  | 4 => e5m2.convert ovfNan rm r v
  | 5 => wrap 8 (toInt 8 rm r v)
  | _ => wrap 32 (toInt 32 rm r v)

/-- An element of a block of format code 6 or 7 with its scale (R61). -/
def blockVal (c el scale : Nat) : Val :=
  if scale = 0xFF then .nan
  else
    let v := if c = 6 then e2m1.decode (el % 16) else ofInt (sgn 4 el)
    match v with
    | .fin neg a => .fin neg (a * pow2 ((scale : Int) - 127))
    | v => v

/-- One element of quantise_block() (R71). -/
def quantElem (c : Nat) (rm : Rm) (se : Int) (v : Val) (r : Nat) : Nat :=
  match v with
  | .fin neg a =>
    let w := a / pow2 se
    if w = 0 then (if c = 6 then (if neg then 8 else 0) else 0)
    else if c = 6 then e2m1.round false rm r neg w
    else wrap 4 (toInt 4 rm r (.fin neg w))
  | _ => 0

/-- The scale exponent of quantise_block() (R71). -/
def quantScale (vs : List Val) : Int :=
  let amax := vs.foldl (fun m v => match v with | .fin _ a => max m a | _ => m) (0 : Rat)
  if amax = 0 then 0 else min (max (ilog2 amax - 2) (-127)) 127

/-- quantise_block() (R71): the scale byte and the 32 elements. -/
def quantiseBlock (c : Nat) (rm : Rm) (vs : List Val) (rs : List Nat) : Nat × List Nat :=
  if vs.any fun v => match v with | .fin _ _ => false | _ => true then (0xFF, vs.map fun _ => 0)
  else
    let se := quantScale vs
    ((se + 127).toNat, List.zipWith (quantElem c rm se) vs rs)

/-- Two nibbles a byte, the even element in [3:0] (R62). -/
def packNibbles : List Nat → Bytes
  | a :: b :: r => BitVec.ofNat 8 (a % 16 + 16 * (b % 16)) :: packNibbles r
  | [a] => [BitVec.ofNat 8 (a % 16)]
  | [] => []

/-- The 64-byte row layout of two blocks (R151): elements, the two scales, zeros. -/
def blockRow (a b : Nat × List Nat) : Bytes :=
  padTo 64 (packNibbles a.2 ++ packNibbles b.2 ++ [BitVec.ofNat 8 a.1, BitVec.ofNat 8 b.1])

/-- Element `l` of a 64-byte row in that layout, with its scale (R151, R162). -/
def blockRowElem (c : Nat) (row : Bytes) (l : Nat) : Val :=
  let byte := (row.getD (l / 2) 0#8).toNat
  blockVal c (if l % 2 = 0 then byte % 16 else byte / 16) (row.getD (32 + l / 32) 0#8).toNat

/-- Philox state after one round (R72). -/
def philoxRound (k0 k1 : Nat) (c : Nat × Nat × Nat × Nat) : Nat × Nat × Nat × Nat :=
  let p0 := 0xD2511F53 * c.1
  let p1 := 0xCD9E8D57 * c.2.2.1
  (Nat.xor (Nat.xor (p1 / 2 ^ 32) c.2.1) k0, p1 % 2 ^ 32, Nat.xor (Nat.xor (p0 / 2 ^ 32) c.2.2.2) k1, p0 % 2 ^ 32)

/-- `n` more rounds of Philox from round `i` on. -/
def philoxLoop : Nat → Nat → Nat → Nat × Nat × Nat × Nat → Nat × Nat × Nat × Nat
  | 0, _, _, c => c
  | n + 1, k0, k1, c =>
    philoxLoop n ((k0 + 0x9E3779B9) % 2 ^ 32) ((k1 + 0xBB67AE85) % 2 ^ 32) (philoxRound k0 k1 c)

/-- Philox-4×32-10 with the module's counter order (R72): word `w`, 0 to 3. -/
def philox (key : W64) (d pos : W32) (sid : W64) (w : Nat) : W32 :=
  let c := philoxLoop 10 (key.toNat % 2 ^ 32) (key.toNat / 2 ^ 32)
    (d.toNat, pos.toNat, sid.toNat % 2 ^ 32, sid.toNat / 2 ^ 32)
  BitVec.ofNat 32 (match w with | 0 => c.1 | 1 => c.2.1 | 2 => c.2.2.1 | _ => c.2.2.2)

/-- The random word of lane `l` (R70): draw index `d0 + l / 4`, word `l mod 4`. -/
def laneWord (key : W64) (d0 pos : W32) (sid : W64) (l : Nat) : W32 :=
  philox key (d0 + BitVec.ofNat 32 (l / 4)) pos sid (l % 4)

/-- uniform24 of a word, as FP32 (R73). -/
def uniform24 (w : W32) : W32 := rne32 (((w.toNat / 256 : Nat) : Rat) / (2 ^ 24 : Nat))

/-- prod() (R75). -/
def prod (a b : Val) : Val :=
  match a, b with
  | .nan, _ => .nan
  | _, .nan => .nan
  | .inf s, .inf t => .inf (s != t)
  | .inf s, .fin t x => if x = 0 then .nan else .inf (s != t)
  | .fin s x, .inf t => if x = 0 then .nan else .inf (s != t)
  | .fin s x, .fin t y => .fin (s != t) (x * y)

/-- group_step() (R76): one accumulation of a k-group's products, rounded once. -/
def groupStep (acc : W32) (ps : List Val) : W32 :=
  let all := val32 acc :: ps
  if all.any Val.isNan then nan32
  else
    let pinf := all.contains (.inf false)
    let ninf := all.contains (.inf true)
    if pinf && ninf then nan32
    else if pinf then 0x7F800000#32
    else if ninf then 0xFF800000#32
    else
      let x := all.foldl (fun t v => t + v.rat) (0 : Rat)
      if x = 0 then
        if all.all fun v => v == .fin true 0 then 0x80000000#32 else 0#32
      else rne32 x

/-- An accumulator element: an FP32 pattern, or the exact-sum state of R77 with the sum in units of 2⁻³²⁰. -/
inductive Elt where
  | fp (x : W32)
  | ex (n : Int) (nan pinf ninf : Bool)
deriving DecidableEq, Repr

/-- The state MCLR leaves (R76, R77). -/
def Elt.clear (exact : Bool) : Elt := if exact then .ex 0 false false false else .fp 0#32

/-- exact_add() (R77). -/
def exactAdd (n : Int) (nan pinf ninf : Bool) : Val → Elt
  | .nan => .ex n true pinf ninf
  | .inf false => .ex n nan true ninf
  | .inf true => .ex n nan pinf true
  | .fin s x => .ex (n + (if s then -(x * pow2 320) else x * pow2 320).floor) nan pinf ninf

/-- One k-group on one element: group_step() or exact_add() of every product (R76, R77). -/
def Elt.step (e : Elt) (ps : List Val) : Elt :=
  match e with
  | .fp x => .fp (groupStep x ps)
  | .ex .. => ps.foldl (fun e p => match e with | .ex n a b c => exactAdd n a b c p | e => e) e

/-- readout() (R78), and the FP32 pattern itself in fixed-order mode. -/
def Elt.readout : Elt → W32
  | .fp x => x
  | .ex n nan pinf ninf =>
    if nan || (pinf && ninf) then nan32
    else if pinf then 0x7F800000#32
    else if ninf then 0xFF800000#32
    else if n = 0 then 0#32
    else rne32 ((n : Rat) * pow2 (-320))

/-- Whether an exact-sum element has no LS640 export (R81). -/
def Elt.overflows : Elt → Bool
  | .fp _ => false
  | .ex n nan pinf ninf => !nan && !pinf && !ninf && !(-(2 ^ 631 : Nat) ≤ n && n < (2 ^ 631 : Nat))

/-- The LS640 export of an element that does not overflow (R80, R81). -/
def Elt.ls640 : Elt → Bytes
  | .fp _ => zeros 80
  | .ex n nan pinf ninf =>
    if nan || (pinf && ninf) then zeros 79 ++ [0x7F#8]
    else if pinf then zeros 79 ++ [0x40#8]
    else if ninf then zeros 79 ++ [0xC0#8]
    else leBytes 80 (n % (2 ^ 640 : Nat)).toNat

/-- The value an LS640 import reads (R80, R82). -/
def ls640Val (b : Bytes) : Val :=
  let n := leNat (padTo 80 b)
  let top := n / 2 ^ 631
  if top = 0 then .fin false ((n : Rat) * pow2 (-320))
  else if top = 511 then .fin true (((2 ^ 640 - n : Nat) : Rat) * pow2 (-320))
  else if n = 0x40 * 2 ^ 632 then .inf false
  else if n = 0xC0 * 2 ^ 632 then .inf true
  else .nan

/-- The import of an LS640 value into an accumulator element (R82): exact_add() of the value, or group_step() with it as the single term.
No instruction and no command of the spec imports one into an accumulator (DESIGN CHOICE, log entry 163: the operation stands without a
command that calls it). -/
def Elt.importLs (e : Elt) (b : Bytes) : Elt := e.step [ls640Val b]

/-- The sum of two values as R84 rounds it. -/
def addVal (a b : Val) : W32 :=
  match a, b with
  | .nan, _ => nan32
  | _, .nan => nan32
  | .inf s, .inf t => if s = t then (if s then 0xFF800000#32 else 0x7F800000#32) else nan32
  | .inf s, .fin _ _ => if s then 0xFF800000#32 else 0x7F800000#32
  | .fin _ _, .inf s => if s then 0xFF800000#32 else 0x7F800000#32
  | .fin s x, .fin t y =>
    let z := (if s then -x else x) + (if t then -y else y)
    if z = 0 then (if s && t && x = 0 then 0x80000000#32 else 0#32) else rne32 z

/-- FP32 addition (R84). -/
def fadd (a b : W32) : W32 := addVal (val32 a) (val32 b)

/-- FP32 multiplication (R84): the exact product rounded once. -/
def fmul (a b : W32) : W32 := enc32 (prod (val32 a) (val32 b))

/-- FP32 fused multiply-add (R84). -/
def ffma (a b c : W32) : W32 := addVal (prod (val32 a) (val32 b)) (val32 c)

/-- The key that orders FP32 values with −0 below +0: NaN lowest (R85, R166). -/
def ordKey (x : W32) : Int :=
  match val32 x with
  | .nan => -(2 ^ 33 : Nat)
  | _ => if x.toNat < 2 ^ 31 then (x.toNat : Int) else -((x.toNat - 2 ^ 31 : Nat) : Int) - 1

/-- FP32 minimum (R85). -/
def fmin (a b : W32) : W32 :=
  if (val32 a).isNan || (val32 b).isNan then nan32 else if ordKey b < ordKey a then b else a

/-- FP32 maximum (R85). -/
def fmax (a b : W32) : W32 :=
  if (val32 a).isNan || (val32 b).isNan then nan32 else if ordKey a < ordKey b then b else a

/-- Whether `a < b`, as FP32 values (−0 equals +0, NaN unordered) (R85, R159). -/
def flt (a b : W32) : Bool :=
  match val32 a, val32 b with
  | .nan, _ => false
  | _, .nan => false
  | .inf s, .inf t => s && !t
  | .inf s, .fin _ _ => s
  | .fin _ _, .inf t => !t
  | x, y => x.rat < y.rat

/-- Whether two FP32 values are equal (R159). -/
def feq (a b : W32) : Bool :=
  match val32 a, val32 b with
  | .nan, _ => false
  | _, .nan => false
  | .inf s, .inf t => s == t
  | .inf _, .fin _ _ => false
  | .fin _ _, .inf _ => false
  | x, y => x.rat == y.rat

/-- The pairwise combination of one level of the VRED tree (R86). -/
def pairUp {α : Type} (op : α → α → α) : List α → List α
  | a :: b :: r => op a b :: pairUp op r
  | r => r

/-- `n` levels of the tree. -/
def redTree {α : Type} (op : α → α → α) : Nat → List α → List α
  | 0, w => w
  | n + 1, w => redTree op n (pairUp op w)

/-- vred() over 64 lanes (R86): six levels. -/
def vred (op : W32 → W32 → W32) (v : List W32) : W32 := (redTree op 6 v).getD 0 0#32

end Sys2Proof.Machine
end

