-- ==== Sys2Proof/Machine/CasFormat.lean ====
section
/-! DEFINITION. The cassette format: manifest checks, codecs, transforms, resident layout, Merkle roots (R243 to R255). -/
namespace Sys2Proof.Machine

/-! ### Merkle roots (R247) -/

/-- One level: pairs are hashed, a last unpaired node passes up. -/
def merkleLevel : List Bytes → List Bytes
  | a :: b :: r => sha384 (0x01#8 :: a ++ b) :: merkleLevel r
  | l => l

/-- The root, over at most `n` levels. -/
def merkleUp : Nat → List Bytes → Bytes
  | 0, l => l.getD 0 []
  | n + 1, l => if l.length ≤ 1 then l.getD 0 [] else merkleUp n (merkleLevel l)

def merkleRoot (l : List Bytes) : Bytes := merkleUp 64 l

/-- The 1 MiB pieces of a byte string. -/
def chunksOf (n : Nat) (size : Nat) (b : Bytes) : List Bytes := (List.range ((n + size - 1) / size)).map fun i => sub b (size * i) size

/-- The resident digest of a copy's bytes (R255). -/
def residentDigest (b : Bytes) : Bytes := merkleRoot ((chunksOf b.length 1048576 b).map sha384)

/-! ### Huffman tables and the exponent-plane codec (R249, R250) -/

/-- The occurring symbols by length, then value: (length, symbol). -/
def huffSymbols (t : Bytes) : List (Nat × Nat) :=
  (List.range 16).flatMap fun l => ((List.range 256).filter fun s => (t.getD s 0#8).toNat = l + 1).map fun s => (l + 1, s)

/-- Canonical codes: (length, code, symbol). -/
def huffCodes : List (Nat × Nat) → Nat → Nat → List (Nat × Nat × Nat)
  | [], _, _ => []
  | (l, s) :: r, code, len =>
    let c := code * 2 ^ (l - len)
    (l, c, s) :: huffCodes r (c + 1) l

/-- The codes of a table. -/
def huffTable (t : Bytes) : List (Nat × Nat × Nat) :=
  match huffSymbols t with
  | [] => []
  | x :: r => huffCodes (x :: r) 0 x.1

/-- Whether a table is valid (R250). -/
def huffOk (t : Bytes) : Bool :=
  let l := (t.filter fun x => x ≠ 0#8).map fun x => x.toNat
  l.all (fun x => x ≤ 16) && (l = [1] || l.foldl (fun n x => n + 2 ^ (16 - x)) 0 = 2 ^ 16)

/-- The bits of a byte, [7] first. -/
def msbBits (b : Byte) : List Bool := (List.range 8).map fun i => b.getLsbD (7 - i)

/-- One symbol: at most `n` more bits. -/
def huffOne (codes : List (Nat × Nat × Nat)) : Nat → Nat → Nat → List Bool → Option (Nat × List Bool)
  | 0, _, _, _ => none
  | _, _, _, [] => none
  | n + 1, len, code, b :: r =>
    let c := 2 * code + (if b then 1 else 0)
    match codes.find? fun x => x.1 = len + 1 && x.2.1 = c with
    | some x => some (x.2.2, r)
    | none => huffOne codes n (len + 1) c r

/-- `n` symbols and the bits left. -/
def huffMany (codes : List (Nat × Nat × Nat)) : Nat → List Bool → Option (List Nat × List Bool)
  | 0, b => some ([], b)
  | n + 1, b =>
    match huffOne codes 16 0 0 b with
    | none => none
    | some (x, r) =>
      match huffMany codes n r with
      | none => none
      | some (xs, r) => some (x :: xs, r)

/-- Exponent and mantissa widths of a format (R57). -/
def fmtWidths (c : Nat) : Nat × Nat :=
  match c with
  | 0 => (8, 23) | 1 => (8, 7) | 2 => (5, 10) | 3 => (4, 3) | _ => (5, 2)

/-- Bytes per element of a fixed-width format. -/
def fmtBytes (c : Nat) : Nat := match c with | 0 => 4 | 1 => 2 | 2 => 2 | _ => 1

/-- The length of a raw plane (R249). -/
def rawLen (c n : Nat) : Nat := (n * (1 + (fmtWidths c).2) + 7) / 8

/-- The encodings of one chunk of `n` elements (R249). -/
def chunkDecode (c : Nat) (codes : List (Nat × Nat × Nat)) (n : Nat) (exp raw : Bytes) : Option (List Nat) :=
  match huffMany codes n (exp.flatMap msbBits) with
  | none => none
  | some (xs, rest) =>
    if 8 ≤ rest.length || rest.any id then none
    else
      let m := (fmtWidths c).2; let e := (fmtWidths c).1
      let v := leNat raw
      some (xs.zipIdx.map fun x =>
        let q := v / 2 ^ ((1 + m) * x.2) % 2 ^ (1 + m)
        q / 2 ^ m * 2 ^ (e + m) + x.1 * 2 ^ m + q % 2 ^ m)

/-- The chunks of an encoded tensor from chunk `i` on: each must start where the one before ended (R249). -/
def chunksDecode (c : Nat) (codes : List (Nat × Nat × Nat)) (enc : Bytes) (count : Nat) : Nat → Nat → Nat → Option (List Nat)
  | 0, _, off => if off = enc.length then some [] else none
  | k + 1, i, off =>
    let n := min 65536 (count - 65536 * i)
    let el := fld enc (16 * i + 8) 4
    if fld enc (16 * i) 8 ≠ off || fld enc (16 * i + 12) 4 ≠ 0 then none
    else
      match chunkDecode c codes n (sub enc off el) (sub enc (off + el) (rawLen c n)),
          chunksDecode c codes enc count k (i + 1) (off + el + rawLen c n) with
      | some a, some b => some (a ++ b)
      | _, _ => none

/-- The encodings of a tensor that is not in block format (R248, R249). -/
def tensorDecode (t : Tensor) (table enc : Bytes) : Option (List Nat) :=
  let n := t.rows * t.cols
  if t.codec = 0 then some ((List.range n).map fun i => fld enc (fmtBytes t.src * i) (fmtBytes t.src))
  else
    let k := (n + 65535) / 65536
    chunksDecode t.src (huffTable table) enc n k 0 (16 * k)

/-! ### Shapes (R248, R251, R252) -/

/-- Whether a format code is a block format. -/
def isBlockFmt (c : Nat) : Bool := c = 6 || c = 7

/-- The allowed pairs (R251). -/
def pairAllowed (src dst : Nat) : Bool :=
  if src ≤ 2 then dst ≤ 4 || isBlockFmt dst
  else if src ≤ 4 then dst = src || dst ≤ 2
  else dst = src

/-- R251, R252 and R248's length for a raw tensor. -/
def Tensor.shapeOk (t : Tensor) : Bool :=
  pairAllowed t.src t.dst && !(t.layout ≠ 0 && t.dst = 0) &&
    !(isBlockFmt t.src && t.layout ≠ 0 && (t.layout ≠ 2 || t.cols % 32 ≠ 0)) &&
    (t.codec = 1 ||
      t.srcLen = (if isBlockFmt t.src then (t.rows * t.cols + 2047) / 2048 * 1088 else t.rows * t.cols * fmtBytes t.src))

/-- K and N of a tiled layout (R252). -/
def Tensor.kn (t : Tensor) : Nat × Nat := if t.layout = 1 then (t.rows, t.cols) else (t.cols, t.rows)

/-- TB (R252). -/
def Tensor.tileBytes (t : Tensor) : Nat :=
  let k := t.kn.1
  if isBlockFmt t.dst then 34 * ((k + 31) / 32 * 32) else 64 * fmtBytes t.dst * k

/-- The length of a resident tensor (R252, R253). -/
def Tensor.resLen (t : Tensor) : Nat :=
  if t.layout = 0 then
    (if isBlockFmt t.dst then (t.rows * t.cols + 2047) / 2048 * 1088 else t.rows * t.cols * fmtBytes t.dst)
  else (t.kn.2 + 63) / 64 * t.tileBytes

/-- Rounds up to a multiple of 64 KiB. -/
def up64k (n : Nat) : Nat := (n + 65535) / 65536 * 65536

/-- RES_SIZE (R254). -/
def resSizeOf (ts : List Tensor) : Nat := ts.foldl (fun n t => up64k (n + t.resLen)) 0

/-! ### Transforms (R251 to R253) -/

/-- The source's values in row-major order: element `i`. -/
def srcVal (t : Tensor) (xs : List Nat) (i : Nat) : Val := decodeElem t.src (xs.getD i 0)

/-- One element in a fixed-width target. -/
def dstBytes (t : Tensor) (xs : List Nat) (i : Nat) : Bytes :=
  leBytes (fmtBytes t.dst) (if t.src = t.dst && t.src = 5 then xs.getD i 0 else convertTo t.dst t.ovf .rne 0 (srcVal t xs i))

/-- A block of 32 values: its scale and its elements; positions outside the tensor are zero. -/
def dstBlock (t : Tensor) (xs : List Nat) (at_ : Nat → Option Nat) : Nat × List Nat :=
  quantiseBlock t.dst .rne ((List.range 32).map fun j => match at_ j with | some i => srcVal t xs i | none => .fin false 0)
    (List.replicate 32 0)

/-- Blocks in block groups (R62, R63). -/
def blockGroups (bs : List (Nat × List Nat)) : Bytes :=
  (List.range ((bs.length + 63) / 64)).flatMap fun g =>
    let l := (bs.drop (64 * g)).take 64
    padTo 1024 (l.flatMap fun b => packNibbles b.2) ++ (List.range 64).map fun i =>
      match l[i]? with | some b => BitVec.ofNat 8 b.1 | none => 0x7F#8

/-- A source block in block-group storage: its scale and elements (R62). -/
def srcBlock (enc : Bytes) (b : Nat) : Nat × List Nat :=
  let o := b / 64 * 1088
  ((enc.getD (o + 1024 + b % 64) 0#8).toNat,
    (sub enc (o + 16 * (b % 64)) 16).flatMap fun x => [x.toNat % 16, x.toNat / 16])

/-- A LINEAR resident tensor (R253). A block-format source is copied as it stands, the bytes of its last group that no element or scale
uses among them (DESIGN CHOICE, log entry 164: R63 says what they are, not what a copy holds when they are something else). -/
def linearBytes (t : Tensor) (enc : Bytes) (xs : List Nat) : Bytes :=
  let n := t.rows * t.cols
  if isBlockFmt t.src then enc
  else if isBlockFmt t.dst then
    blockGroups ((List.range ((n + 31) / 32)).map fun b => dstBlock t xs fun j => if 32 * b + j < n then some (32 * b + j) else none)
  else (List.range n).flatMap fun i => dstBytes t xs i

/-- The row-major index of (k, n). -/
def Tensor.index (t : Tensor) (k n : Nat) : Nat := if t.layout = 1 then k * t.cols + n else n * t.cols + k

/-- Tile `j` (R252). -/
def tileBytesOf (t : Tensor) (enc : Bytes) (xs : List Nat) (j : Nat) : Bytes :=
  let K := t.kn.1; let N := t.kn.2
  if isBlockFmt t.dst then
    let kb := (K + 31) / 32
    let blk := fun (q c : Nat) =>
      let n := 64 * j + c
      if N ≤ n then (0x7F, List.replicate 32 0)
      else if isBlockFmt t.src then srcBlock enc (n * (t.cols / 32) + q)
      else dstBlock t xs fun i => if 32 * q + i < K then some (t.index (32 * q + i) n) else none
    ((List.range kb).flatMap fun q => (List.range 16).flatMap fun i => (List.range 64).map fun c =>
        let e := (blk q c).2
        BitVec.ofNat 8 (e.getD (2 * i) 0 + 16 * e.getD (2 * i + 1) 0)) ++
      (List.range kb).flatMap fun q => (List.range 64).map fun c => BitVec.ofNat 8 (blk q c).1
  else
    (List.range K).flatMap fun k => (List.range 64).flatMap fun c =>
      if N ≤ 64 * j + c then zeros (fmtBytes t.dst) else dstBytes t xs (t.index k (64 * j + c))

/-- The tiles in resident order (R253): rank 0's, then rank 1's, each rank's ascending. -/
def tileOrder (tiles cores : Nat) : List Nat := (List.range cores).flatMap fun r => (List.range tiles).filter fun j => j % cores = r

/-- A resident tensor's bytes, for `cores` enabled cores; none when a chunk is malformed (R249, R250). -/
def residentTensor (t : Tensor) (table enc : Bytes) (cores : Nat) : Option Bytes :=
  match (if isBlockFmt t.src then some [] else tensorDecode t table enc) with
  | none => none
  | some xs =>
    some (if t.layout = 0 then linearBytes t enc xs
      else (tileOrder ((t.kn.2 + 63) / 64) cores).flatMap fun j => tileBytesOf t enc xs j)

/-- Whether the reserved bytes of a tensor's chunk directory are 0 (R249, R270). -/
def Tensor.dirOk (t : Tensor) (enc : Bytes) : Bool :=
  t.codec = 0 || (List.range ((t.rows * t.cols + 65535) / 65536)).all fun i => zeroAt enc (16 * i + 12) 4

/-! ### The manifest (R243 to R247) -/

/-- A failure of R270: its fault code and the block or tensor number. -/
structure CasFail where
  code : Nat
  index : Nat
deriving DecidableEq, Repr

/-- The resident copy (R254): tensors in table order, each at a multiple of 64 KiB, gaps 0x00; otherwise the first tensor whose chunk
directory has a reserved byte that is not 0, or that is malformed (R270). -/
def residentCopy (m : Manifest) (body : Bytes) (cores : Nat) : Sum Bytes CasFail :=
  m.tensors.zipIdx.foldl (fun r x =>
    match r with
    | .inr i => .inr i
    | .inl b =>
      let enc := sub body x.1.srcOff x.1.srcLen
      if !x.1.dirOk enc then .inr ⟨0x0801, x.2⟩
      else
        match residentTensor x.1 (m.tables.getD x.1.table []) enc cores with
        | some y => let z := b ++ y; .inl (z ++ zeros (up64k z.length - z.length))
        | none => .inr ⟨0x0805, x.2⟩) (.inl [])

/-- The number that stands where none applies (R270). -/
def casNone : Nat := 0xFFFFFFFF

/-- The header's checks (R243, R244). -/
def casHeaderOk (m : Bytes) : Bool :=
  let body := fld m 0x10 8; let bc := fld m 0x18 4; let tc := fld m 0x1C 4; let tb := fld m 0x20 2
  let tOff := fld m 0x28 4; let dOff := fld m 0x2C 4; let trOff := fld m 0x30 4
  sub m 0 4 = [0x4E#8, 0x44#8, 0x43#8, 0x53#8] && fld m 4 2 = 1 && fld m 6 2 = 256 && fld m 8 8 = trOff + 160 &&
    1 ≤ body && body ≤ 2 ^ 44 && bc = (body + 1048575) / 1048576 && 1 ≤ tc && tc ≤ 65536 && tb ≤ 256 && fld m 0x22 2 ≤ 1 &&
    fld m 0x24 4 = 256 && tOff = 256 + 64 * tc && dOff = tOff + 256 * tb && trOff = (dOff + 48 * bc + 63) / 64 * 64 &&
    zeroAt m 0x34 12 && zeroAt m 0x70 144

/-- Tensor-table entry at `o`. -/
def tensorAt (m : Bytes) (o : Nat) : Tensor :=
  { src := fld m (o + 4) 1, dst := fld m (o + 5) 1, codec := fld m (o + 6) 1, table := fld m (o + 7) 1, layout := fld m (o + 8) 1
    ovf := bit (fld m (o + 9) 1) 0, rows := fld m (o + 16) 4, cols := fld m (o + 20) 4, srcOff := fld m (o + 24) 8
    srcLen := fld m (o + 32) 8 }

/-- R245's ranges of entry `o`. -/
def tensorOk (m : Bytes) (o tables body : Nat) : Bool :=
  let t := tensorAt m o
  t.src ≤ 7 && t.dst ≤ 7 && t.codec ≤ 1 && t.layout ≤ 2 && fld m (o + 9) 1 ≤ 1 && zeroAt m (o + 10) 6 && zeroAt m (o + 40) 24 &&
    1 ≤ t.rows && t.rows ≤ 2 ^ 24 && 1 ≤ t.cols && t.cols ≤ 2 ^ 24 && t.srcOff + t.srcLen ≤ body &&
    (if t.codec = 1 then t.table < tables else t.table = 0)

/-- The first tensor whose encoded data overlaps an earlier one's (R245). -/
def tensorOverlap (ts : List Tensor) : Option Nat :=
  (ts.zipIdx.find? fun x => (ts.take x.2).any fun y =>
    y.srcOff < x.1.srcOff + x.1.srcLen && x.1.srcOff < y.srcOff + y.srcLen).map fun x => x.2

/-- The first index of a list whose entry fails. -/
def firstBad {α : Type} (l : List α) (ok : α → Bool) : Option Nat := (l.zipIdx.find? fun x => !ok x.1).map fun x => x.2

/-- Checks the manifest `m` as received, MAN_LEN bytes, against the digest a command names: R243 to R250, the root, then the
signature. -/
def checkManifest (m digest : Bytes) (sigDemanded : Bool) (keys : Map Bytes) : Sum Manifest CasFail :=
  let bc := fld m 0x18 4; let tc := fld m 0x1C 4; let tb := fld m 0x20 2
  let tOff := fld m 0x28 4; let dOff := fld m 0x2C 4; let tr := fld m 0x30 4
  let signed := bit (fld m 0x22 2) 0
  let ts := (List.range tc).map fun i => tensorAt m (256 + 64 * i)
  let tabs := (List.range tb).map fun i => sub m (tOff + 256 * i) 256
  let digs := (List.range bc).map fun i => sub m (dOff + 48 * i) 48
  let root := sub m tr 48
  if !casHeaderOk m || m.length ≠ fld m 8 8 || !zeroAt m (dOff + 48 * bc) (tr - (dOff + 48 * bc)) || !zeroAt m (tr + 52) 12 ||
      (!signed && !(zeroAt m (tr + 48) 4 && zeroAt m (tr + 64) 96)) then .inr ⟨0x0801, casNone⟩
  else
    match firstBad (List.range tc) fun i => tensorOk m (256 + 64 * i) tb (fld m 0x10 8) with
    | some i => .inr ⟨0x0801, i⟩
    | none =>
      match tensorOverlap ts with
      | some i => .inr ⟨0x0801, i⟩
      | none =>
        if !tabs.all huffOk then .inr ⟨0x0805, casNone⟩
        else if merkleRoot (sha384 (m.take dOff) :: digs) ≠ root || root ≠ digest then .inr ⟨0x0802, casNone⟩
        else if signed && !ecdsaVerify (keys.find [] (fld m (tr + 48) 4)) root (sub m (tr + 64) 48) (sub m (tr + 112) 48) then
          .inr ⟨0x0803, casNone⟩
        else if !signed && sigDemanded then .inr ⟨0x0803, casNone⟩
        else
          match firstBad ts fun t => !(t.codec = 1 && 4 < t.src) with
          | some i => .inr ⟨0x0805, i⟩
          | none =>
            match firstBad ts Tensor.shapeOk with
            | some i => .inr ⟨0x0806, i⟩
            | none =>
              .inl { bytes := m, bodyLen := fld m 0x10 8, blocks := bc, tensors := ts, tables := tabs, digests := digs
                     resSize := resSizeOf ts }

/-- The bytes of block `b` (R243): 1 MiB, or what is left of the body. -/
def Manifest.blockLen (m : Manifest) (b : Nat) : Nat := min 1048576 (m.bodyLen - 1048576 * b)

/-- The result R270 gives a fault code. -/
def casResult (code : Nat) : Nat × Bool := (code, code = 0x0802 || code = 0x0804)

end Sys2Proof.Machine
end

