-- ==== Sys2Proof/Config.lean ====
section
/-! DEFINITION. What the spec leaves open: constants without a body, so that nothing can be proved of their values (log entries 17,
30 to 39, 98, 171, 193, 196). -/
namespace Sys2Proof.Config

/-- The `n`-th draw of the module's random number generator (R457, R464, R472): 64 bytes. -/
opaque trng (n : Nat) : Vector (BitVec 8) 64
/-- The per-signature secret number of the `n`-th signature that no rule fixes (R458), 1 to the group order − 1. -/
opaque signNonce (n : Nat) : Nat
/-- The subject's name, in DER, of the alias certificate of an alias key (R460 does not give it). -/
opaque aliasSubject (pub : List (BitVec 8)) : List (BitVec 8)
/-- SHA-384 of the boot ROM (R462, block 1). -/
opaque romDigest : Vector (BitVec 8) 48
/-- SPDM capability timing and other bytes DSP0274 leaves to the responder. -/
opaque spdmOpaque (n : Nat) : Vector (BitVec 8) 8
/-- The byte a rule leaves undefined at the `n`-th use. -/
opaque freeByte (n : Nat) : BitVec 8
/-- The analogue level of boundary cell `c` at the `n`-th sample (R531). -/
opaque pinLevel (c n : Nat) : Bool
/-- The level of region `r`'s oscillator, divided by 2^`div`, at GSC `n` (R519). -/
opaque oscLevel (r div n : Nat) : Bool
/-- The symbols a margin measurement corrects and receives at the `n`-th use (R525). -/
opaque marginSymbols (n : Nat) : Nat × Nat
/-- The number of cells of the boundary register (R530). -/
opaque boundaryLength : Nat

/-- Whether, at GSC `gsc`, the neighbour on port `p` leads to the job's lead through that port, as its route tables say (R398). -/
opaque leadsHere (gsc p : Nat) : Bool
/-- The four check symbols of a far-memory granule and its address (R203). -/
opaque farCheck (b : List (BitVec 8)) : Vector (BitVec 8) 4
/-- What a spontaneous error strikes: an 8 B word of a core's working store or of the stacked store (`multi`: more than one bit), or a
register of a core. -/
inductive Upset where
  | ws (core word : Nat) (multi : Bool)
  | ss (word : Nat) (multi : Bool)
  | scalar (core n : Nat)
  | address (core n : Nat)
  | predicate (core n : Nat)
  | vector (core n : Nat)
  | accumulator (core n : Nat)
/-- The errors that arise in the stores and register files in the `n`-th nanosecond in which no command waits (R110, R124, R193). -/
opaque upsets (n : Nat) : List Upset

end Sys2Proof.Config
end

