-- ==== Sys2Proof/Machine/CoreState.lean ====
section
/-! DEFINITION. State of one compute core and of the mesh (04_core, 05, 06). -/
namespace Sys2Proof.Machine

/-- A register a result goes to, or a parity error sits in (R92); an accumulator takes no result this way. -/
inductive Reg where
  | s (n : Nat) | a (n : Nat) | p (n : Nat) | v (n : Nat) | acc (n : Nat)
deriving DecidableEq, Repr

/-- A register's new value. -/
inductive RegVal where
  | s (x : W64) | a (x : BitVec 40) | p (x : Bool) | v (x : List W32)
deriving DecidableEq, Repr

/-- A result on its way to a register (R97, R98): where, what, the tick from which it is visible, the tick and slot it issued in. -/
structure Wb where
  reg : Reg
  val : RegVal
  due : Nat
  issue : Nat
  slot : Nat
deriving DecidableEq, Repr

/-- One open hardware loop (R92, R136): first bundle, last bundle, passes still to run after the current one, passes done. -/
structure Loop where
  first : Nat
  last : Nat
  left : Nat
  done : Nat
deriving DecidableEq, Repr

/-- The feed state MCFG sets (R143). -/
structure FeedCfg where
  lfmt : Nat
  rfmt : Nat
  fl : Nat
  fr : Nat
  fls : Nat
  frs : Nat
  kc : Nat
deriving DecidableEq, Repr

/-- The MMA or MMAG the matrix array runs (R113 to R115, R145): the latched feed state, the accumulator, the rows' selectors for
MMAG, the k-groups, how far the feed has come, the pieces of the current tick still to be made and the pieces read. -/
structure Feed where
  cfg : FeedCfg
  acc : Nat
  sel : Option (List Nat)
  k : Nat
  ticks : Nat
  group : Nat
  tickIn : Nat
  todo : List Nat
  started : Bool
  got : List (Nat × Bytes)
  lscale : Bytes
  rscale : List Bytes
deriving DecidableEq, Repr

/-- An open working copy (R114): its elements, and the tick at which it commits once its chain has ended. -/
structure Work where
  elts : Map Elt
  ends : Option Nat
deriving DecidableEq, Repr

/-- The piece classes of R107, highest first; MOUT writes rank below feed pieces of the same class. -/
inductive PieceClass where
  | feed | mout | ls | inbound | outbound | landing
deriving DecidableEq, Repr

/-- A working-store piece (R106, R107): its operation, bank tick, class, address, length, the bytes it writes (none for a read),
its place in the operation's data, and how often it was deferred. -/
structure Piece where
  op : Nat
  tick : Nat
  cls : PieceClass
  issue : Nat
  addr : Nat
  len : Nat
  write : Option Bytes
  off : Nat
  defers : Nat
deriving DecidableEq, Repr

/-- What an operation does once its pieces are made (R104, R111, R172 to R174). -/
inductive OpKind where
  | vld (vd : Nat)
  | sld (sd : Nat)
  | store
  | msend (route : Nat)
  | sswOwn (off lines : Nat)
  | sswRemote (slice off due : Nat)
  | ssrOwn (wsAddr lines : Nat)
  | ssrRemote (wsAddr : Nat)
  | landing
deriving DecidableEq, Repr

/-- An operation with pieces or stacked lines outstanding: issue tick and slot, how many remain, the largest deferral, the data. -/
structure Op where
  kind : OpKind
  issue : Nat
  slot : Nat
  left : Nat
  delay : Nat
  data : Mem
deriving DecidableEq, Repr

/-- A GATH in flight (R112, R176): the destination, the lanes' addresses, the issue tick, the lanes read so far. -/
structure Gather where
  vd : Nat
  addrs : List W32
  issue : Nat
  got : List W32
deriving DecidableEq, Repr

/-- The select engine (R165). `seen` lists the set bits of the seen mask. -/
structure Select where
  list : List (W32 × W32)
  kcap : Nat
  wb : W32
  seen : List Nat
  sel : Bool
  selId : W32
  selIx : Nat
deriving DecidableEq, Repr

/-- An armed wait slot (R181): queue, target, arm tick, whether its gate has passed. -/
structure Wait where
  queue : Nat
  target : W32
  armTick : Nat
  passed : Bool
deriving DecidableEq, Repr

/-- One logical core. Registers that a table does not list are 0; p0 reads 1 and s0 reads 0 in the accessors. `pc` is the bundle
in progress; `ports` holds the tick in which an arrived unit must be taken and its data; `branch` holds a taken branch's target and its delay bundles still to issue; `next` a next bundle already chosen;
`units` the issue tick and occupancy of each unit's last instruction; `busyTo` the last tick in which the core had something left
to do (R103, R334); `wsErr` the 8 B words with an error (true: multi-bit). -/
structure Core where
  s : Map W64
  a : Map (BitVec 40)
  p : Map Bool
  v : Map (List W32)
  acc : Map (Map Elt)
  work : Map Work
  pc : Nat
  loops : List Loop
  branch : Option (Nat × Nat)
  next : Option Nat
  halted : Bool
  stopped : Bool
  wb : List Wb
  units : Map (Nat × Nat)
  feedCfg : FeedCfg
  feed : Option Feed
  mKey : W64
  mPos : W32
  mSid : W64
  mDraw : W32
  sel : Select
  pieces : List Piece
  lost : List Piece
  ops : Map Op
  nextOp : Nat
  gather : List Gather
  ports : Map (Nat × Bytes)
  waits : Map Wait
  ws : Mem
  wsErr : Map Bool
  parity : List Reg
  code : Map Nat
  codeLen : Nat
  role : Nat
  busyTo : Nat
deriving DecidableEq, Repr

/-- Where a flow unit on the mesh goes (R119, R123, R173): a core's arrival port, or a queue's staging area. -/
inductive FlightDest where
  | port (core port : Nat)
  | stage (core handle : Nat)
deriving DecidableEq, Repr

/-- A flow unit in flight (R119, R120): destination, data, the tick in which it must be taken, the core whose route sent it, the cores
whose routers it passes (R122). -/
structure Flight where
  dest : FlightDest
  data : Bytes
  due : Nat
  src : Nat
  path : List Nat
deriving DecidableEq, Repr

/-- A stacked-store line waiting for its bank (R189, R190): the slice it reaches, bank tick, rank, issue tick, issuing core and
operation, offset in the slice, bytes written (none for a read), line number in its access, deferrals. -/
structure SsLine where
  slice : Nat
  tick : Nat
  rank : Nat
  issue : Nat
  core : Nat
  op : Nat
  off : Nat
  write : Option Bytes
  line : Nat
  defers : Nat
deriving DecidableEq, Repr

/-- A trace entry of the compute fabric (R53): the tick, the trace region index, the code of the event traced. -/
structure TraceEntry where
  tick : Nat
  index : Nat
  code : Nat
deriving DecidableEq, Repr

/-- The CORE block (R126), and the fabric's trace since launch, in R53's order. -/
structure CoreRegs where
  faultCode : W16
  faultCore : Nat
  faultSlot : Nat
  faultValid : Bool
  faultTick : Nat
  faultPc : Nat
  faultMore : Nat
  wsCorr : Nat
  haltCount : Nat
  trace : List TraceEntry
deriving DecidableEq, Repr

/-- The feed state at launch (R143). -/
def FeedCfg.init : FeedCfg := { lfmt := 0, rfmt := 0, fl := 0, fr := 0, fls := 0, frs := 0, kc := 0 }

/-- The select engine at launch (R165). -/
def Select.init : Select := { list := [], kcap := 1, wb := 0#32, seen := [], sel := false, selId := 0#32, selIx := 0 }

/-- A core with the registers launch gives it (R94), an empty store and no code. -/
def Core.init : Core :=
  { s := [], a := [], p := [], v := [], acc := [], work := [], pc := 0, loops := [], branch := none, next := none
    halted := false, stopped := false, wb := [], units := [], feedCfg := .init, feed := none, mKey := 0#64
    mPos := 0#32, mSid := 0#64, mDraw := 0#32, sel := .init, pieces := [], lost := [], ops := [], nextOp := 0
    gather := [], ports := [], waits := [], ws := [], wsErr := [], parity := [], code := [], codeLen := 0, role := 0
    busyTo := 0 }

/-- The CORE block after reset (R126). -/
def CoreRegs.init : CoreRegs :=
  { faultCode := 0#16, faultCore := 0, faultSlot := 0, faultValid := false, faultTick := 0, faultPc := 0, faultMore := 0
    wsCorr := 0, haltCount := 0, trace := [] }

end Sys2Proof.Machine
end

