-- ==== Sys2Proof/Machine/HostState.lean ====
section
/-! DEFINITION. State of the host interface: job state, mailboxes, event controller, event log, MSI-X, BAR2 window and
management ports (14_host). -/
namespace Sys2Proof.Machine

/-- The job states of R421, in the order of their codes. -/
inductive JobState where
  | idle | loaded | armed | running | paused | faulted | fenced
deriving DecidableEq, Repr

/-- What the status mirror keeps of the job (R420, R421, R489). -/
structure JobStatus where
  state : JobState
  ended : Bool
  pausePending : Bool
  fault : W16
  faultRank : W32
  faultGsc : Nat
deriving DecidableEq, Repr

/-- The command a channel carries (R423, R424): its header fields, its payload bytes, the SEQ and GSC of its doorbell, and
whether its execution has begun and goes on over several events (R426). -/
structure Cmd where
  opcode : Nat
  length : Nat
  reserved : Nat
  tag : W64
  payload : Bytes
  seq : W32
  doorbellGsc : Nat
  executing : Bool
deriving DecidableEq, Repr

/-- A mailbox response (R423): header fields and payload. -/
structure Response where
  opcode : Nat
  seq : W32
  tag : W64
  result : W16
  fault : W16
  sect : Nat
  entry : W32
  payload : Bytes
deriving DecidableEq, Repr

/-- A command channel: mailbox channels 0 to 7, and 8 and 9 for the management ports (R423, R445). `buf` is the command
buffer, `resp` what the response page holds. -/
structure Channel where
  buf : Mem
  busy : Bool
  done : Bool
  overrun : Bool
  vector : Nat
  vecEn : Bool
  cmd : Option Cmd
  resp : Option Response
deriving DecidableEq, Repr

/-- The states of an event source (R434), in the order of the codes of EVC_STATE. -/
inductive SourceState where
  | idle | pending | eligible | inService
deriving DecidableEq, Repr

/-- What the event log reports of a raise (R438). -/
structure RaiseInfo where
  fault : Bool
  gsc : Nat
  arg0 : W64
  arg1 : W64
deriving DecidableEq, Repr

/-- One source of the event controller: EVC_CFG, EVC_STATE (R434 to R437), and what its next log entry will say. -/
structure Source where
  level : Nat
  enable : Bool
  modCount : Nat
  modTimeUs : Nat
  ageUs : Nat
  state : SourceState
  promoted : Bool
  again : Bool
  raises : Nat
  since : Nat
  info : RaiseInfo
  claimed : Nat
  claimedInfo : RaiseInfo
deriving DecidableEq, Repr

/-- The event controller (R434 to R436) and the event-log ring (R438 to R441). `stack` has its top first;
`resetLog` is the fault (code, GSC) of a module-fatal reset that is still to be logged (R490). -/
structure Evc where
  sources : Map Source
  stack : List (Nat × Nat)
  stackLog : List (Nat × Nat)
  order : Bool
  idleWait : Bool
  lastClaim : Option (Nat × Nat × Bool)
  evlBase : W64
  evlLog2 : Nat
  evlEnable : Bool
  evlVector : Nat
  evlLost : Nat
  evlHead : Nat
  evlTail : Nat
  resetLog : Option (Nat × Nat)
deriving DecidableEq, Repr

/-- One MSI-X table entry, its pending bit, and how many messages its vector has sent. -/
structure MsixEntry where
  addr : W64
  data : W32
  masked : Bool
  pend : Bool
  sent : Nat
deriving DecidableEq, Repr

/-- The function's PCI configuration space (R413, R414): what it identifies itself by, what it can do, and what host software has set. The
link is given by its greatest width and its rate in GT/s, sizes in bytes; `aspm` tells L0p and L1; `poisonFatal` tells whether AER counts a
poisoned TLP fatal. The subsystem ID follows from the ordering code (`State.subsystemId`). -/
structure PciCfg where
  vendor : W16
  device : W16
  revision : Byte
  classCode : BitVec 24
  subVendor : W16
  linkWidth : Nat
  linkRate : Nat
  flitRates : List Nat
  payloadCap : Nat
  readCap : Nat
  tags : Nat
  vectors : Nat
  aspm : Bool × Bool
  flr : Bool
  aer : Bool
  poisonFatal : Bool
  doe : List Nat
  timeoutRanges : List Char
  maxPayload : Nat
  maxRead : Nat
  aspmOn : Bool × Bool
  timeoutMs : Nat
  memEnable : Bool
  busMaster : Bool
deriving DecidableEq, Repr

/-- One aperture of the BAR2 window (R419). `base` is bits [47:16] of the aperture's base. -/
structure Aperture where
  target : Nat
  region : Nat
  base : Nat
deriving DecidableEq, Repr

/-- A management port: last accepted SEQ per frame type, own SEQ, heartbeat validity and time, frames sent (R444 to R447). -/
structure MgmtPort where
  seqHeartbeat : Nat
  seqCommand : Nat
  ownSeq : Nat
  hbValid : Bool
  hbAt : Nat
  tx : List Bytes
deriving DecidableEq, Repr

/-- The host block: everything of 14_host but the rings, which the serving engine and the record ring hold. `order` lists
the channels whose command is not accepted yet, in the order of their doorbells (R425). `hostMem` holds the bytes the module
has written to host memory, `hostWin` those it has written to host windows (R178), at window × 2⁶⁴ + offset. `pcieUp` tells whether the PCIe link is up (R416, R504); `winData`
and `smbData` hold what the latest BAR2 read and SMBus read returned. -/
structure HostBlk where
  chans : Map Channel
  order : List Nat
  evc : Evc
  msix : Map MsixEntry
  win : Map Aperture
  winRefused : Nat
  hostMem : Mem
  hostWin : Mem
  pcieUp : Bool
  mgmt : Map MgmtPort
  hbLost : Bool
  fenceStart : Nat
  hbEver : Bool
  fenceMs : Nat
  udpPort : Nat
  mpRestarts : Nat
  winData : Bytes
  smbData : Option Bytes
  pci : PciCfg
deriving DecidableEq, Repr

/-- A job that has not been loaded. -/
def JobStatus.init : JobStatus :=
  { state := .idle, ended := false, pausePending := false, fault := 0#16, faultRank := 0#32, faultGsc := 0 }

/-- A channel after reset (R424). -/
def Channel.init : Channel :=
  { buf := [], busy := false, done := false, overrun := false, vector := 0, vecEn := false, cmd := none, resp := none }

/-- A raise that has not happened. -/
def RaiseInfo.none : RaiseInfo := { fault := false, gsc := 0, arg0 := 0#64, arg1 := 0#64 }

/-- A source after reset: EVC_CFG's Reset column, idle (R434 to R436). -/
def Source.init : Source :=
  { level := 0, enable := false, modCount := 1, modTimeUs := 0, ageUs := 0, state := .idle, promoted := false
    again := false, raises := 0, since := 0, info := .none, claimed := 0, claimedInfo := .none }

/-- The event controller and event log after reset (R436, R441). -/
def Evc.init : Evc :=
  { sources := [], stack := [], stackLog := [], order := false, idleWait := false, lastClaim := none, evlBase := 0#64
    evlLog2 := 8, evlEnable := false, evlVector := 0, evlLost := 0, evlHead := 0, evlTail := 0
    resetLog := none }

/-- An MSI-X entry after reset: masked, as PCI Express has it. -/
def MsixEntry.init : MsixEntry := { addr := 0#64, data := 0#32, masked := true, pend := false, sent := 0 }

/-- An aperture after reset (R419). -/
def Aperture.init : Aperture := { target := 0, region := 0, base := 0 }

/-- A management port after reset (R445, R447). -/
def MgmtPort.init : MgmtPort :=
  { seqHeartbeat := 0, seqCommand := 0, ownSeq := 0, hbValid := false, hbAt := 0, tx := [] }

/-- The configuration space after reset. What host software sets stands as PCI Express resets it: 128 B payloads, 512 B reads, ASPM and the
enables off (PRESUMED, log entry 187). -/
def PciCfg.init : PciCfg :=
  { vendor := 0x1F7E#16, device := 0x0D09#16, revision := 0xB1#8, classCode := 0x120000#24, subVendor := 0x1F7E#16
    linkWidth := 4, linkRate := 128, flitRates := [64, 128], payloadCap := 512, readCap := 4096, tags := 768, vectors := 128
    aspm := (true, true), flr := true, aer := true, poisonFatal := false, doe := [0, 1], timeoutRanges := ['A', 'B', 'C', 'D']
    maxPayload := 128, maxRead := 512, aspmOn := (false, false), timeoutMs := 50, memEnable := false, busMaster := false }

/-- The host block after reset (R446: FENCE_MS 400; R442: UDP port 50,910). -/
def HostBlk.init : HostBlk :=
  { chans := [], order := [], evc := .init, msix := [], win := [], winRefused := 0, hostMem := [], hostWin := [], pcieUp := false
    mgmt := [], hbLost := false, fenceStart := 0, hbEver := false, fenceMs := 400, udpPort := 50910, mpRestarts := 0
    winData := [], smbData := none, pci := .init }

end Sys2Proof.Machine
end

