-- ==== Sys2Proof/Machine/MemState.lean ====
section
/-! DEFINITION. State of the far memory, its controllers, and the queues of the endpoints (06, 07_memory). -/
namespace Sys2Proof.Machine

/-- The queue kinds of R178, in the order of the codes of QBIND KIND (R232). -/
inductive QKind where
  | farRead | farWrite | fabricSend | fabricReceive | hostWrite | step
deriving DecidableEq, Repr

/-- A RANGES entry (R233). -/
structure RangeEnt where
  type : Nat
  region : Nat
  offset : Nat
  length : Nat
  aux : Nat
deriving DecidableEq, Repr

/-- A request of a queue (R178, R179): its number in push order, the two operands, the controllers that have accepted it, the
granules still to be moved, its data with the count of staged bytes it has been given, the bytes passed to the fabric, and a fabric send's egress
port (16 for the module itself), epoch and end-to-end mode once its first unit is cut (R383, R393), with its number among the transfers
of the module (0 before). -/
structure QReq where
  seq : Nat
  addr : W64
  len : Nat
  accepted : List Nat
  left : Nat
  data : Mem
  got : Nat
  sent : Nat
  mode : Option (Nat × Nat × Bool)
  tid : Nat
deriving DecidableEq, Repr

/-- A bound queue of one core and handle (R178, R180, R232, R533). `done` counts the completions without CC's wrap; `land` holds the
landing buffer's data by request number; `stage` the staged bytes in arrival order that no request has been given yet. -/
structure Queue where
  kind : QKind
  endpoint : Nat
  landSize : Nat
  stageSize : Nat
  ranges : List RangeEnt
  pushed : W32
  cc : W32
  at_ : W32
  gated : W32
  done : Nat
  reqs : List QReq
  stage : Bytes
  land : List (Nat × Bytes)
deriving DecidableEq, Repr

/-- A region-table entry (R208, R217). -/
structure FarRegion where
  ctrlFirst : Nat
  ctrlCount : Nat
  unit : Bool
  ro : Bool
  host : Bool
  valid : Bool
  localBase : Nat
  size : Nat
deriving DecidableEq, Repr

/-- A granule a channel has to move for a program request: its queue and request number, its block, its direction, and whether the
request writes all 15 data granules of the block (R206). -/
structure Gran where
  core : Nat
  handle : Nat
  seq : Nat
  blk : Nat
  write : Bool
  whole : Bool
deriving DecidableEq, Repr

/-- A check granule at a channel (R206): its block, whether it has changed, whether background traffic changed it last. -/
structure Check where
  blk : Nat
  changed : Bool
  bg : Bool
deriving DecidableEq, Repr

/-- One far-memory channel (R197, R199, R205, R206, R216): its slot in the frame, the slots elapsed since launch, the program granules
waiting, the check granules held (most recent first), the changed ones displaced and not yet written, its direction, the slots since it
last switched (128 for that many or more), the slots a switch still costs; the granule patrol scrub reads next (16 to a block), the
blocks it has to write back corrected; how often each window command was issued, and when the interval oscillator next runs. -/
structure FarChan where
  slot : Nat
  elapsed : Nat
  prog : List Gran
  held : List Check
  owed : List Check
  writing : Bool
  sinceSwitch : Nat
  switchLeft : Nat
  scrub : Nat
  fixes : List Nat
  cmds : Map Nat
  oscDue : Nat
deriving DecidableEq, Repr

/-- Who made a background request (R201): the BAR2 window, the serving engine, a cassette engine or a broadcast's window for a
resident-model slot, one for an adapter version, the save engine. -/
inductive BgSrc where
  | window
  | serve
  | copy (slot : Nat)
  | adapter (slot ver : Nat)
  | save
deriving DecidableEq, Repr

/-- A granule of a background request: its channel and block, and whether the request writes all 15 data granules of the block. -/
structure BgGran where
  chan : Nat
  blk : Nat
  whole : Bool
deriving DecidableEq, Repr

/-- A background request (R201, R202): who made it, acceptance GSC, whether urgent, whether begun, its direction, the granules left. -/
structure BgReq where
  src : BgSrc
  at_ : Nat
  urgent : Bool
  begun : Bool
  write : Bool
  grans : List BgGran
deriving DecidableEq, Repr

/-- The counters of one controller (R217), live; SNAP keeps a copy. -/
structure FarCount where
  prog : Nat
  check : Nat
  bg : Nat
  idle : Nat
deriving DecidableEq, Repr

/-- One far-memory controller: its counters live and at SNAP, its background requests, errors and temperature (R217). -/
structure FarCtrl where
  live : FarCount
  snap : FarCount
  bg : List BgReq
  urgent : Nat
  corr : Nat
  retry : Nat
  tempCase : Nat
  rateCode : Nat
deriving DecidableEq, Repr

/-- The stacked-store counters of MEM (R217). -/
structure SsCount where
  rd : Nat
  wr : Nat
  defer : Nat
  slots : Nat
  tick : Nat
deriving DecidableEq, Repr

/-- The MEM block (R217) and the far memory's bytes by physical place (R209); `lastRate` is the rate of the last training (R196). -/
structure Far where
  mem : Mem
  regions : Map FarRegion
  chans : Map FarChan
  ctrls : Map FarCtrl
  bgEnlarged : Bool
  rate : Nat
  lastRate : Nat
  degraded : Bool
  hot : Bool
  selfRefresh : Bool
  caseMax : Nat
  mr4Due : Nat
  ssLive : SsCount
  ssSnap : SsCount
  ssCorr : Nat
  ssHostRefused : Nat
  hazCtrl : Nat
  hazQueue : Nat
  hazCore : Nat
  hazValid : Bool
  hazAddr : Nat
deriving DecidableEq, Repr

/-- A handle that no binding names; `queues` lists only bound handles. -/
def Queue.init : Queue :=
  { kind := .farRead, endpoint := 0, landSize := 0, stageSize := 0, ranges := [], pushed := 0#32, cc := 0#32, at_ := 0#32
    gated := 0#32, done := 0, reqs := [], stage := [], land := [] }

/-- An undefined region (R217). -/
def FarRegion.init : FarRegion :=
  { ctrlFirst := 0, ctrlCount := 0, unit := false, ro := false, host := false, valid := false, localBase := 0, size := 0 }

/-- A channel at the start of a frame (R199). -/
def FarChan.init : FarChan :=
  { slot := 0, elapsed := 0, prog := [], held := [], owed := [], writing := false, sinceSwitch := 0, switchLeft := 0, scrub := 0
    fixes := [], cmds := [], oscDue := 0 }

def FarCount.init : FarCount := { prog := 0, check := 0, bg := 0, idle := 0 }

/-- A controller after reset (R217). -/
def FarCtrl.init : FarCtrl :=
  { live := .init, snap := .init, bg := [], urgent := 0, corr := 0, retry := 0, tempCase := 0, rateCode := 0 }

def SsCount.init : SsCount := { rd := 0, wr := 0, defer := 0, slots := 0, tick := 0 }

/-- The MEM block after reset (R217): not trained, every count 0. -/
def Far.init : Far :=
  { mem := [], regions := [], chans := [], ctrls := [], bgEnlarged := false, rate := 3, lastRate := 0, degraded := false, hot := false
    selfRefresh := false, caseMax := 0, mr4Due := 0, ssLive := .init, ssSnap := .init, ssCorr := 0, ssHostRefused := 0
    hazCtrl := 0, hazQueue := 0, hazCore := 0, hazValid := false, hazAddr := 0 }

end Sys2Proof.Machine
end

