-- ==== Sys2Proof/Machine/ImageState.lean ====
section
/-! DEFINITION. What a loaded job keeps of its program image, resolved for the module's grade (08_images). -/
namespace Sys2Proof.Machine

/-- A route entry of a core (R118, R229). -/
structure Route where
  ep : Bool
  yFirst : Bool
  edgeLane : Bool
  mirror : Bool
  dest : Nat
  queue : Nat
  phase : Nat
  ewLanes : Nat
deriving DecidableEq, Repr

/-- A landing entry, its cursor, and the tick after the last one it was applied at (R230). -/
structure Landing where
  endpoint : Nat
  core : Nat
  queue : Nat
  edgeLane : Bool
  required : Bool
  phase : Nat
  ewLanes : Nat
  ringBase : Nat
  ringUnits : Nat
  doneTick : Nat
  cursor : Nat
deriving DecidableEq, Repr

/-- A bound stacked range (R235). -/
structure StackRange where
  core : Nat
  ro : Bool
  sliceLo : Nat
  sliceHi : Nat
  offLo : Nat
  offHi : Nat
deriving DecidableEq, Repr

/-- A step-menu entry (R236). -/
structure StepShape where
  kind : Nat
  rowsMax : Nat
  posMax : Nat
  adaptersMax : Nat
  classMax : Nat
  stepTicks : Nat
  descSize : Nat
deriving DecidableEq, Repr

/-- A REGIONS entry as declared (R234); a CONTENT 2 entry names the resident slot it resolved to. -/
structure RegionDecl where
  region : Nat
  content : Nat
  slot : Nat
deriving DecidableEq, Repr

/-- An INIT entry with its data bytes (R237). -/
structure InitEnt where
  target : Nat
  core : Nat
  unit : Nat
  addr : Nat
  data : Bytes
deriving DecidableEq, Repr

/-- The role data the launch uses: entry bundle and code length (R224). -/
structure RoleInfo where
  entry : Nat
  length : Nat
deriving DecidableEq, Repr

/-- The loaded image (R219 to R237) after resolution: header fields, parameters, per-core tables. `routes` is keyed by
core × 256 + route number; `queues` of State by core × 32 + handle. -/
structure Image where
  digest : Bytes
  numericMode : Nat
  lookahead : Nat
  period : Nat
  stepCount : Nat
  moduleCount : Nat
  rank : Nat
  leadRank : Nat
  params : List Int
  roles : Map RoleInfo
  routes : Map Route
  landings : List Landing
  stack : List StackRange
  steps : List StepShape
  decls : List RegionDecl
  inits : List InitEnt
deriving DecidableEq, Repr

end Sys2Proof.Machine
end

