-- ==== Sys2Proof/Machine/LinkState.lean ====
section
/-! DEFINITION. State of the link ports, their test units and the fabric block (12_link, 13_fabric, 18_test). -/
namespace Sys2Proof.Machine

/-- The route fields and payload of a NEW unit (R346). -/
structure LUnit where
  cls : Nat
  dest : Nat
  epoch : Nat
  xfer : Nat
  half : Bool
  e2e : Nat
  data : Bytes
deriving DecidableEq, Repr

/-- Where a unit that waits comes from: a cell of a port's pool, the staging of a core's queue with its request number, the module
itself. -/
inductive UnitSrc where
  | pool (p : Nat)
  | stage (core handle seq : Nat)
  | own
deriving DecidableEq, Repr

/-- A unit that waits for a port or for its consumer, with its segment number when it is end-to-end, and the number of the transfer of
this module it belongs to (0 for a unit in transit). -/
structure TxItem where
  unit : LUnit
  src : UnitSrc
  seg : Nat
  tid : Nat
deriving DecidableEq, Repr

/-- What a transmitted position carried (R351): a NEW unit that may be replayed, or anything else. -/
structure SentPos where
  pos : Nat
  replayable : Bool
  voids : Nat
deriving DecidableEq, Repr

/-- A replay-buffer entry (R352): original position (SEQ in WL1), unit, GSC of its last transmission, REPLAYs sent. -/
structure Hold where
  pos : Nat
  unit : LUnit
  at_ : Nat
  count : Nat
deriving DecidableEq, Repr

/-- An end-to-end segment a port holds as source (R369): its transfer's number, its own number, units and trailer, the GSC of its
trailer, resends. -/
structure Seg where
  tid : Nat
  num : Nat
  cls : Nat
  dest : Nat
  xfer : Nat
  units : List LUnit
  sentAt : Option Nat
  resends : Nat
deriving DecidableEq, Repr

/-- The states of a port (R376), in the order of their codes. -/
inductive PortState where
  | off | training | active | retraining | down
deriving DecidableEq, Repr

/-- An injection under way (R524): kind, class, symbols, transmissions left, spacing, unit times since the last, the stale ACK. -/
structure Inject where
  kind : Nat
  cls : Nat
  nsym : Nat
  left : Nat
  spacing : Nat
  since : Nat
  ack : Nat
deriving DecidableEq, Repr

/-- A margining under way (R525): lane, eye, offsets, end, the channel to be answered, whether an uncorrectable unit has ended it. -/
structure Margin where
  lane : Nat
  eye : Nat
  time : Nat
  volt : Nat
  ends : Nat
  chan : Nat
  aborted : Bool
deriving DecidableEq, Repr

/-- A lane's checker (R522): locked, PAT_ERR. -/
structure Checker where
  locked : Bool
  err : Nat
deriving DecidableEq, Repr

/-- A port's pattern registers and checkers (R520 to R523, R532); `gens` holds the state of each lane's generator, of one for all in
flow-unit mode. -/
structure Pattern where
  pattern : Nat
  tx : Bool
  rx : Bool
  width8 : Bool
  wl1Rate : Bool
  bits : Nat
  lanes : Map Checker
  gens : List Nat
deriving DecidableEq, Repr

/-- A link port: registers (R376), transmitter, receiver, training. Positions are kept whole; `out` counts cells held of the peer by
class, `freedSeen` the peer's FREED, `cells` and `freed` the own pool's. `due` of voids and replays names positions. `nakAt` holds the
GSC of the last NAK of each bad position, `wl1Resends` how often WL1 has sent again from each SEQ. `wire` holds the levels of the last
unit on each lane, `scram` the lanes' scramblers. `replayAt` and `uncorrAt` are the GSC of the last REPLAY or VOID sent and of the last
uncorrectable unit received, which the observation pins show (R519). -/
structure LinkPort where
  mode : Nat
  x8Test : Bool
  e2eClass : Nat
  replayNs : Nat
  nakNs : Nat
  e2eNs : Nat
  downMs : Nat
  state : PortState
  modeNow : Nat
  x8 : Bool
  phase : Nat
  downSeen : Bool
  peerAddr : Nat
  peerPort : Nat
  peerValid : Bool
  miswired : Bool
  delayPs : Nat
  qMax : Nat
  count : Map Nat
  retrains : Nat
  lastCause : Nat
  lastRetrain : Option Nat
  txPos : Nat
  history : List SentPos
  replayBuf : List Hold
  out : Map Nat
  freedSeen : Map Nat
  voidsDue : List Nat
  nakReplays : List Nat
  timerReplays : List Nat
  resend : List LUnit
  txq : List TxItem
  segs : List Seg
  rxPos : Nat
  bad : List Nat
  held : List (Nat × LUnit × Bool)
  naksDue : List Nat
  nakAt : Map Nat
  cells : Map Nat
  freed : Map Nat
  creditTurn : Nat
  badRun : Nat
  seqTx : Nat
  seqRx : Nat
  wl1Next : Option Nat
  wl1Nak : Option Nat
  wl1Resends : Map Nat
  scram : List Nat
  wire : List (List Nat)
  sentUnit : Bytes
  replayAt : Option Nat
  uncorrAt : Option Nat
  phaseAt : Nat
  trainAt : Nat
  frameKey : Bytes
  frameRun : Nat
  peerEq : Bytes
  echo : Nat
  echoAt : Nat
  pat : Pattern
  inj : Option Inject
  margin : Option Margin
deriving DecidableEq, Repr

/-- The bank states of R394, in the order of their codes. -/
inductive BankState where
  | empty | loaded | active | draining | retired
deriving DecidableEq, Repr

/-- A route bank (R389, R395). -/
structure Bank where
  state : BankState
  dir : List Nat
  pod : Map Nat
  oldSeen : Nat
deriving DecidableEq, Repr

/-- A message between modules whose byte layout the spec does not give: launch unit and answer (R403), job stop (R405), step drained
and step clear (R406), step or pause descriptor (R407). -/
inductive FabMsg where
  | launch (at_ : Nat) (image manifest ranks : Bytes)
  | answer (accepted : Bool)
  | jobStop (rank code : Nat)
  | drained (step : Nat)
  | clear (step : Nat)
  | descriptor (b : Bytes)
deriving DecidableEq, Repr

/-- A beacon received and not yet used (R398, R399): port, GSC of its first bit, whether it came as a NEW unit, its payload. -/
structure BeaconRx where
  port : Nat
  at_ : Nat
  fresh : Bool
  data : Bytes
deriving DecidableEq, Repr

/-- The end-to-end units of an id and class held until a trailer comes (R371). -/
structure E2eRx where
  xfer : Nat
  cls : Nat
  held : List TxItem
deriving DecidableEq, Repr

/-- What the module knows of an end-to-end transfer from a source (R371, R387): the next segment expected, the bytes accepted, whether
it is whole, BYTES and digest of its segment 0. -/
structure E2eSeen where
  src : Nat
  xfer : Nat
  cls : Nat
  next : Nat
  got : Nat
  whole : Bool
  first : Bytes
deriving DecidableEq, Repr

/-- A transfer of the module's own of which no unit has been sent: its number, destination, class, id, the port it is bound to (none
when it is routed), its bytes (R368, R393). -/
structure OwnXfer where
  tid : Nat
  dest : Nat
  cls : Nat
  xfer : Nat
  port : Option Nat
  data : Bytes
deriving DecidableEq, Repr

/-- A launch or resume the lead has announced (R403, R404): its count, the channel to be answered, the ranks that accepted. -/
structure Launch where
  at_ : Nat
  chan : Nat
  accepted : List Nat
  answered : Bool
deriving DecidableEq, Repr

/-- The FAB block (R412) and what its rules keep. `ranks` is the rank table by rank; `beaconAt` the GSC at which a beacon was last used; `reports` the lead's
count (step + 1) per rank; `startAt` the count at which this module's regions start; `switch` the units that wait for a consumer of
this module; `rxCount` the bytes received per expected transfer, keyed by (core × 32 + handle) × 16 + entry; `nextTid` numbers this
module's transfers. `slewLeft` is what GSC has still to be slewed by, and `slewPhase` what the slewing has gained so far, in fs;
`slewOnly` forbids a step forward (R399, R401). -/
structure Fabric where
  addr : Nat
  addrValid : Bool
  ranks : Map Nat
  ranksDigest : Bytes
  moduleCount : Nat
  rank : Nat
  lead : Bool
  leadAddr : Nat
  leadRank : Nat
  banks : Map Bank
  active : Nat
  switchAt : Nat
  switchDue : Bool
  offsetPs : Int
  aligned : Bool
  good : Nat
  beaconUs : Nat
  beaconSeq : Nat
  beaconDue : Nat
  beaconAt : Nat
  launchAt : Nat
  launch : Option Launch
  startAt : Option Nat
  fence : Nat
  fenceSelf : Bool
  fenceDrops : Nat
  discards : Nat
  discDest : Nat
  discCause : Nat
  clearStep : Option Nat
  reports : Map Nat
  switch : List TxItem
  beacons : List BeaconRx
  trailers : List LUnit
  acks : List LUnit
  rxCount : Map Nat
  e2eRx : List E2eRx
  e2eSeen : List E2eSeen
  nextTid : Nat
  owns : List OwnXfer
  slewLeft : Int
  slewPhase : Int
  slewOnly : Bool
  sent : List (Nat × FabMsg)
deriving DecidableEq, Repr

def Checker.init : Checker := { locked := false, err := 0 }

def Pattern.init : Pattern :=
  { pattern := 0, tx := false, rx := false, width8 := false, wl1Rate := false, bits := 0, lanes := [], gens := [] }

/-- A port after reset (R376). -/
def LinkPort.init : LinkPort :=
  { mode := 1, x8Test := false, e2eClass := 0, replayNs := 2000, nakNs := 2000, e2eNs := 20000, downMs := 1000
    state := .off, modeNow := 0, x8 := false, phase := 0, downSeen := false, peerAddr := 0, peerPort := 0, peerValid := false
    miswired := false, delayPs := 0, qMax := 0, count := [], retrains := 0, lastCause := 0, lastRetrain := none, txPos := 0
    history := [], replayBuf := [], out := [], freedSeen := [], voidsDue := [], nakReplays := [], timerReplays := [], resend := []
    txq := [], segs := [], rxPos := 0, bad := [], held := [], naksDue := [], nakAt := [], cells := [], freed := [], creditTurn := 0
    badRun := 0, seqTx := 0, seqRx := 0, wl1Next := none, wl1Nak := none, wl1Resends := [], scram := [], wire := [], sentUnit := [], replayAt := none, uncorrAt := none
    phaseAt := 0,    trainAt := 0, frameKey := [], frameRun := 0, peerEq := [], echo := 0, echoAt := 0, pat := .init, inj := none, margin := none }

/-- A bank after reset: empty (R412), DIR_PORT at its default, the port pairs of R378 (R389). -/
def Bank.init : Bank := { state := .empty, dir := List.range 12, pod := [], oldSeen := 0 }

/-- The FAB block after reset (R412). -/
def Fabric.init : Fabric :=
  { addr := 0, addrValid := false, ranks := [], ranksDigest := [], moduleCount := 0, rank := 0, lead := false, leadAddr := 0, leadRank := 0, banks := []
    active := 0, switchAt := 0, switchDue := false, offsetPs := 0, aligned := false, good := 0, beaconUs := 10
    beaconSeq := 0, beaconDue := 0, beaconAt := 0, launchAt := 0, launch := none, startAt := none, fence := 0, fenceSelf := false
    fenceDrops := 0, discards := 0, discDest := 0, discCause := 0, clearStep := none, reports := [],
    switch := [], beacons := [], trailers := [], acks := [], rxCount := [], e2eRx := [], e2eSeen := [], nextTid := 1, owns := []
    slewLeft := 0, slewPhase := 0, slewOnly := false, sent := [] }

end Sys2Proof.Machine
end

