-- ==== Sys2Proof/Machine/PaceState.lean ====
section
/-! DEFINITION. State of the paceline, the gears and the clocks (02_ticks). -/
namespace Sys2Proof.Machine

/-- What an unmet armed wait waits for, as TS_LAST KIND codes it (R56): the constructors in the order of their codes. -/
inductive WaitKind where
  | farRead | farWrite | fabricReceive | hostWrite | stepQueue
deriving DecidableEq, Repr

/-- A hold before a gate tick (R31): the queue and core of the unmet wait, its kind, the GSC at which the hold began. -/
structure GateHold where
  queue : Nat
  core : Nat
  kind : WaitKind
  since : Nat
deriving DecidableEq, Repr

/-- One region: its issued ticks since launch, the tokens it holds per direction (0 west, 1 east, 2 south, 3 north),
its oscillator and its holds (R22 to R43, R49). `skid` is the buffer of each incoming link direction (R26): the source's ticks whose
entries it holds, oldest first; what an entry carries are the flow units and lines that cross in that tick. -/
structure Region where
  issued : Nat
  tickCount : Nat
  elapsed : Bool
  tokens : Map Nat
  gate : Option GateHold
  retuning : Bool
  gear : Nat
  stretch : Nat
  skid : Map (List Nat)
  lastIssue : Nat
deriving DecidableEq, Repr

/-- A gear change in progress (R42, R43). -/
structure GearChange where
  target : Nat
  regionStop : Bool
  started : Nat
deriving DecidableEq, Repr

/-- The PACE block (R56) and what the paceline rules keep beside its registers; `debugStop` is STOP_AT of the debug stop (R526),
`debugNs` the time it has held every region (R527); `holdAt` the GSC up to which a hold has applied to some region (R55); `rail` the
gear whose set point the core rails have (R42, R502). -/
structure Pace where
  gearMode : Bool
  calEn : Bool
  gearCap : Nat
  gearTarget : Nat
  holdReq : Bool
  gearNow : Nat
  clamped : Bool
  refLost : Bool
  calValid : Bool
  capRef : Option Nat
  gearLead : W32
  gearAt : Nat
  snapTickMin : Nat
  snapTickMax : Nat
  snapGsc : Nat
  tsCount : Nat
  tsLast : Option (Nat × Nat × WaitKind)
  tsHeldNs : Nat
  farLimitUs : Nat
  fabLimitMs : Nat
  lostSeen : Bool
  lossMs : Nat
  lostAt : Nat
  calCount : Nat
  calErr : Bool
  calDue : Nat
  calGear : Nat
  trimAt : Map Nat
  stretchMax : Nat
  stretchRegion : Nat
  change : Option GearChange
  debugStop : Option Nat
  debugNs : Nat
  holdAt : Nat
  rail : Nat
deriving DecidableEq, Repr

/-- A region before its first tick: nothing issued, no token held, no hold. -/
def Region.init : Region :=
  { issued := 0, tickCount := 0, elapsed := false, tokens := [], gate := none, retuning := false, gear := 0, stretch := 0, skid := []
    lastIssue := 0 }

/-- The PACE block after reset (R56); the fields R56 gives no reset for start at 0. -/
def Pace.init : Pace :=
  { gearMode := false, calEn := true, gearCap := 15, gearTarget := 0, holdReq := false, gearNow := 0, clamped := false
    refLost := false, calValid := false, capRef := none, gearLead := 0x4E20#32, gearAt := 0
    snapTickMin := 0, snapTickMax := 0, snapGsc := 0, tsCount := 0, tsLast := none, tsHeldNs := 0, farLimitUs := 0x2710
    fabLimitMs := 0x64, lostSeen := false, lossMs := 0, lostAt := 0, calCount := 0, calErr := false, calDue := 0
    calGear := 0, trimAt := [], stretchMax := 0, stretchRegion := 0, change := none, debugStop := none
    debugNs := 0, holdAt := 0, rail := 0 }

end Sys2Proof.Machine
end

