-- ==== Sys2Proof/Machine/PowerState.lean ====
section
/-! DEFINITION. State of the power controller, the rails and the pins (16_power_faults, 17_electrical). -/
namespace Sys2Proof.Machine

/-- The power states of R476 a powered module has, in the order of PWR_STATUS STATE's codes. -/
inductive PowerMode where
  | run | hold | doze | nap | park
deriving DecidableEq, Repr

/-- A brake cause, in the order of the CAUSE bits of PWR_STATUS (R484, R496). -/
inductive BrakeCause where
  | temperature | droop | inputPower | inputVoltage
deriving DecidableEq, Repr

/-- Why a reset is due (R490, R491): a module-fatal fault with its code, or SEC_RESET. -/
inductive ResetKind where
  | moduleFatal (code : W16)
  | secReset
deriving DecidableEq, Repr

/-- Where the 48 V input and the rails stand (R497 to R505): off, precharging and powering up, on, or locked out. -/
inductive Supply where
  | off | on | lockedOut
deriving DecidableEq, Repr

/-- The PWR block (R496) and what its rules keep beside the registers: `thermCap` and `pwrCap` are the caps of the thermal and of
the power rule (R482); `coolMs`, `lowPowerMs` and `limitMs` count ms, `calm` samples of 100 µs in a row. -/
structure Power where
  mode : PowerMode
  exiting : Bool
  exitDone : Nat
  exitPlan : Option Nat
  brake : Bool
  causes : List BrakeCause
  policyCap : Nat
  thermCap : Nat
  pwrCap : Nat
  requested : Nat
  latencyBounded : Bool
  wakeBoundUs : Nat
  stepDue : Nat
  policy : Nat
  cap : Nat
  powerCapW : Nat
  tjMax : Nat
  sensor : Nat
  coolantIn : Nat
  vin : Nat
  pinW : Nat
  residency : Map Nat
  brakes : Nat
  wdtTimeoutMs : Nat
  lastCause : Nat
  kickAt : Nat
  lastResetKind : Nat
  lastResetCode : W16
  resetDue : Option ResetKind
  coolMs : Nat
  lowPowerMs : Nat
  limitMs : Nat
  limitArmed : Bool
  calm : Nat
  thermalOff : Bool
  coldSince : Option Nat
  policyDue : Nat
  sampleDue : Nat
  supply : Supply
  pwrEn : Bool
  perstN : Bool
  modReady : Bool
  straps : Nat
deriving DecidableEq, Repr

/-- The PWR block after reset (R496), rails off and pins low. -/
def Power.init : Power :=
  { mode := .run, exiting := false, exitDone := 0, exitPlan := none, brake := false, causes := [], policyCap := 15, thermCap := 15, pwrCap := 15
    requested := 15, latencyBounded := false, wakeBoundUs := 2000, stepDue := 0, policy := 0, cap := 15, powerCapW := 0
    tjMax := 0, sensor := 0, coolantIn := 0, vin := 0, pinW := 0, residency := [], brakes := 0, wdtTimeoutMs := 1000
    lastCause := 0, kickAt := 0, lastResetKind := 0, lastResetCode := 0#16, resetDue := none, coolMs := 0
    lowPowerMs := 0, limitMs := 0, limitArmed := true, calm := 0, thermalOff := false, coldSince := none
    policyDue := 0, sampleDue := 0, supply := .off, pwrEn := false, perstN := false, modReady := false, straps := 0 }

end Sys2Proof.Machine
end

