-- ==== Sys2Proof/Machine/SecState.lean ====
section
/-! DEFINITION. State of the security block: fuses, flash, vault, SPDM connections (15_security). -/
namespace Sys2Proof.Machine

/-- Where the boot stands (R453, R454, R486, R503): the power-on reset not yet released or the ROM not yet run; recovery; firmware
running; halted for SCRAPPED; the rails held off after a thermal shutdown. -/
inductive BootMode where
  | rom | recovery | running | halted | thermalOff
deriving DecidableEq, Repr

/-- The fuses (R450). The thermometer fields are kept as their counts; `uds` is the unique device secret, empty before BLANK's
write. -/
structure Fuses where
  lc : Nat
  uds : Bytes
  udsKill : Bool
  vendorKeyHash : Map Bytes
  vendorKeyRevoke : Nat
  vendorAuthHash : Bytes
  svn : Nat
  ownerEpoch : Nat
deriving DecidableEq, Repr

/-- The owner block (R465); a key that is not listed is an empty entry. -/
structure OwnerBlock where
  adminKey : Bytes
  imageKeys : Map Bytes
  casKeys : Map Bytes
  mgmtKey : Bytes
  policy : Nat
deriving DecidableEq, Repr

/-- One SPDM connection (R461): version, capabilities and algorithms settled; the transcripts of the request and response bytes that
signatures cover; a response that was not ready, with its request's code and its token. -/
structure Spdm where
  versioned : Bool
  capable : Bool
  negotiated : Bool
  transA : Bytes
  transB : Bytes
  transL : Bytes
  waiting : Option (Nat × Nat × Bytes)
  out : Bytes
deriving DecidableEq, Repr

/-- The security block. Flash: the firmware image, the certificate chain, the sealed identity key, OWNER_ANCHOR (empty for zeros), the
sealed owner block with the OWNER_EPOCH count it was sealed under, the tamper log. Vault: `ik`, `ak` (private numbers), `owner`, `nonce` with
its expiry. `staging` holds the image RECOVERY_WRITE has staged, `udsLocked` tells that the boot ROM has locked UDS. -/
structure Sec where
  fuses : Fuses
  fw : Bytes
  fwInvalid : Bool
  chain : Bytes
  certDone : Bool
  ikSealed : Option Bytes
  anchor : Bytes
  ownerFlash : Option (Nat × Bytes)
  tamperLog : List (Nat × Nat)
  tamperCount : Nat
  tamperLast : Nat
  tamperDue : Option (Nat × Nat)
  boot : BootMode
  udsLocked : Bool
  recCause : Nat
  runM : Bytes
  runSvn : Nat
  runRelease : Nat
  ik : Option Nat
  ak : Option Nat
  owner : Option OwnerBlock
  nonce : Option (Bytes × Nat)
  signs : Nat
  staging : Mem
  spdm : Map Spdm
deriving DecidableEq, Repr

/-- Unblown fuses. -/
def Fuses.init : Fuses :=
  { lc := 0, uds := [], udsKill := false, vendorKeyHash := [], vendorKeyRevoke := 0, vendorAuthHash := [], svn := 0
    ownerEpoch := 0 }

def OwnerBlock.init : OwnerBlock :=
  { adminKey := [], imageKeys := [], casKeys := [], mgmtKey := zeros 48, policy := 0 }

/-- A transport before its first request. -/
def Spdm.init : Spdm :=
  { versioned := false, capable := false, negotiated := false, transA := [], transB := [], transL := [], waiting := none, out := [] }

/-- The security block before the boot ROM has run, fuses unblown and flash empty. -/
def Sec.init : Sec :=
  { fuses := .init, fw := [], fwInvalid := false, chain := [], certDone := false, ikSealed := none, anchor := [], ownerFlash := none
    tamperLog := [], tamperCount := 0, tamperLast := 0, tamperDue := none, boot := .rom, udsLocked := false, recCause := 0, runM := zeros 48
    runSvn := 0, runRelease := 0, ik := none, ak := none, owner := none, nonce := none, signs := 0, staging := []
    spdm := [] }

end Sys2Proof.Machine
end

