-- ==== Sys2Proof/Machine/ServeState.lean ====
section
/-! DEFINITION. State of the serving engine, its rings, and the record blocks (10_serving, 11_replay). -/
namespace Sys2Proof.Machine

/-- A request ring (R311). -/
structure ReqRing where
  base : Nat
  log2 : Nat
  enable : Bool
  error : Bool
  tail : W32
  head : W32
deriving DecidableEq, Repr

/-- A completion entry that waits for its ring, and the request that it ends (R279). -/
structure HeldCpl where
  entry : Bytes
  ends : Option Nat
deriving DecidableEq, Repr

/-- A completion ring (R309, R311): entries pending with the GSC of the oldest, entries held. -/
structure CplRing where
  base : Nat
  log2 : Nat
  enable : Bool
  vector : Nat
  head : W32
  tail : W32
  waiting : Bool
  modCount : Nat
  modTimeUs : Nat
  pend : Nat
  oldest : Nat
  held : List HeldCpl
deriving DecidableEq, Repr

/-- The serving configuration (R276); `adapters` is none for 0xFF. -/
structure ServeCfg where
  serve : Nat
  kv : Nat
  adapters : Option Nat
  kvPerPos : Nat
  vocab : Nat
  windowNs : Nat
deriving DecidableEq, Repr

/-- A customer (R284). -/
structure Customer where
  enabled : Bool
  refill : Nat
  burst : Nat
  balance : Int
  served : Nat
  win : Nat
  maxWaitUs : Nat
  overdraft : Nat
deriving DecidableEq, Repr

/-- The states of an adapter version (R295). -/
inductive VerState where
  | free | loading | current | draining
deriving DecidableEq, Repr

/-- An adapter version (R294, R295): `loaded` tells that its load is complete while stage 3 is awaited. -/
structure Version where
  num : Nat
  state : VerState
  rank : Nat
  base : Nat
  size : Nat
  digest : Bytes
  resDigest : Bytes
  loaded : Bool
deriving DecidableEq, Repr

/-- An adapter slot (R294 to R297): the number of its newest version, whether one was ever installed. -/
structure AdapterSlot where
  last : Nat
  installed : Bool
  retired : Bool
  versions : List Version
deriving DecidableEq, Repr

/-- A request's parameters (R280). -/
structure ReqPar where
  stream : Bool
  ring : Nat
  modelIx : Nat
  customer : Nat
  adapter : Nat
  tag : Nat
  seed : Nat
  promptAddr : Nat
  promptLen : Nat
  maxNew : Nat
  outAddr : Nat
  temp : Nat
  topP : Nat
  topK : Nat
  stops : List Nat
  rep : Nat
  freq : Nat
  pres : Nat
deriving DecidableEq, Repr

/-- The states of a request-table entry that is not FREE (R282). -/
inductive ReqState where
  | fetching | waiting | active | ending
deriving DecidableEq, Repr

/-- What an audit replay keeps beside its request (R330 to R332): the record's digest, RECORD_SEQ, OUT_COUNT, output digest and STOPPED flag,
whether it is a CANCELLED record, the address of the verdict. -/
structure Audit where
  digest : Bytes
  seq : Nat
  outCount : Nat
  outDigest : Bytes
  stopped : Bool
  cancelled : Bool
  verdictAddr : Nat
deriving DecidableEq, Repr

/-- A request-table entry (R282, R283, R286, R290, R298). `tokens` holds prompt and output ids; `built` tells that its completion entry
is built, `gained` that it gained a token at this boundary, `wasActive` that a row of it was admitted. -/
structure Req where
  state : ReqState
  par : ReqPar
  arrival : Nat
  tokOff : Nat
  tokSize : Nat
  kv : Option (Nat × Nat)
  np : Nat
  waitStart : Nat
  gscWaiting : Nat
  tokens : List Nat
  pen : List (Nat × Nat)
  bound : Option (Nat × Nat)
  first : Option Nat
  last : Option Nat
  built : Bool
  gained : Bool
  status : Nat
  stopped : Bool
  late : Bool
  wasActive : Bool
  audit : Option Audit
deriving DecidableEq, Repr

/-- The step in flight (R272, R292): its number, the requests of its sampling rows in row order, the tokens received. -/
structure StepRun where
  seq : Nat
  samples : List Nat
  tokens : List Nat
deriving DecidableEq, Repr

/-- A change that stage 3 applies (R273). -/
inductive Change where
  | customer (c : Nat) (enabled : Bool) (refill burst maxWaitUs overdraft : Nat)
  | retire (slot : Nat)
  | install (slot ver : Nat)
deriving DecidableEq, Repr

/-- What stage 4 has still to write (R273, R306, R308): a PROGRESS entry, a request's completion, an entry that no request took. -/
inductive CplWork where
  | progress (id : Nat)
  | finish (id : Nat)
  | entry (ring : Nat) (e : Bytes)
deriving DecidableEq, Repr

/-- The serving engine. `boundary` tells that a boundary is open, `stage4` that its stage 4 has begun and is not finished, `ended`
the requests that ended, in order. `pauseAt` is the pause awaited (R333), `paused` tells that the pause descriptor is pushed, `halted` that
the save tick has come and signatures are awaited (R334). -/
structure Serve where
  cfg : Option ServeCfg
  rq : Map ReqRing
  cq : Map CplRing
  arrival : Nat
  stepSeq : Nat
  reqs : Map Req
  customers : Map Customer
  adapters : Map AdapterSlot
  fetched : List (Nat × Bytes)
  changes : List Change
  step : Option StepRun
  boundary : Bool
  stage4 : Bool
  work : List CplWork
  fetchStop : Bool
  pauseAt : Option Nat
  paused : Bool
  halted : Bool
  window : Nat
deriving DecidableEq, Repr

/-- A record block (R319): its number, its first record, the GSC of its first record, the LAUNCH_GSC of its job, the steps of its records,
its leaves; `drained` tells that its job was unloaded after all of them were drained. -/
structure Block where
  seq : Nat
  first : Nat
  gsc : Nat
  launch : Nat
  drained : Bool
  firstStep : Nat
  lastStep : Nat
  leaves : List Bytes
deriving DecidableEq, Repr

/-- The record ring and blocks (R315 to R339). `queue` holds the entries that wait for room, seals marked; `marks` the steps that are
not drained yet, each with the pushes that must have completed; `closeDue` a block that closes once a staged one is gone. -/
structure Records where
  base : Nat
  log2 : Nat
  enable : Bool
  vector : Nat
  sealMs : Nat
  head : W32
  tail : W32
  next : Nat
  blockNext : Nat
  opened : Option Block
  closeDue : Bool
  staged : List Block
  queue : List (Bool × Bytes)
  marks : List (Nat × List (Nat × W32))
  drainedTo : Option Nat
  manifest : Bytes
  manifestDigest : Bytes
  savedTick : Nat
  launchGsc : Nat
deriving DecidableEq, Repr

def ReqRing.init : ReqRing := { base := 0, log2 := 4, enable := false, error := false, tail := 0#32, head := 0#32 }

def CplRing.init : CplRing :=
  { base := 0, log2 := 4, enable := false, vector := 0, head := 0#32, tail := 0#32, waiting := false, modCount := 1, modTimeUs := 0
    pend := 0, oldest := 0, held := [] }

def Customer.init : Customer :=
  { enabled := false, refill := 0, burst := 0, balance := 0, served := 0, win := 0, maxWaitUs := 0, overdraft := 0 }

def AdapterSlot.init : AdapterSlot := { last := 0, installed := false, retired := false, versions := [] }

/-- The serving engine after reset (R311) and after JOB_LOAD but for the rings. -/
def Serve.init : Serve :=
  { cfg := none, rq := [], cq := [], arrival := 0, stepSeq := 0, reqs := [], customers := [], adapters := [], fetched := [], changes := []
    step := none, boundary := false, stage4 := false, work := [], fetchStop := false, pauseAt := none, paused := false, halted := false, window := 0 }

/-- The record ring after reset (R339). -/
def Records.init : Records :=
  { base := 0, log2 := 12, enable := false, vector := 0, sealMs := 10, head := 0#32, tail := 0#32, next := 0, blockNext := 0
    opened := none, closeDue := false, staged := [], queue := [], marks := [], drainedTo := none, manifest := [], manifestDigest := []
    savedTick := 0, launchGsc := 0 }

end Sys2Proof.Machine
end

