-- ==== Sys2Proof/Machine/TestState.lean ====
section
/-! DEFINITION. State of the observation pins and the test access port (18_test); patterns, injections and margining stand with the link
ports, the debug stop with the paceline. -/
namespace Sys2Proof.Machine

/-- An observation pin's selection (R519, R532). -/
structure ObsSel where
  signal : Nat
  arg : Nat
  div : Nat
deriving DecidableEq, Repr

/-- The public instructions of R530. -/
inductive JtagInstr where
  | bypass | idcode | samplePreload | extest | extestPulse | extestTrain | clamp | highz
deriving DecidableEq, Repr

/-- The test access port: the instruction in force, what the instruction register last captured, the boundary register's latched
cells, what the last scan shifted out, how many samples were taken (R530, R531). -/
structure Jtag where
  instr : JtagInstr
  captured : Nat
  cells : List Bool
  tdo : List Bool
  samples : Nat
deriving DecidableEq, Repr

/-- The TEST block: the selections in OBS_SEL_i, those the pins show, the GSC at which a new one is shown and the level held until then, and
the access port. -/
structure TestBlk where
  sel : Map ObsSel
  shown : Map ObsSel
  due : Map Nat
  level : Map Bool
  jtag : Jtag
deriving DecidableEq, Repr

/-- A selection after reset (R532). -/
def ObsSel.init : ObsSel := { signal := 0, arg := 0, div := 4 }

/-- The access port in test-logic reset (R530). -/
def Jtag.init : Jtag := { instr := .idcode, captured := 1, cells := [], tdo := [], samples := 0 }

def TestBlk.init : TestBlk := { sel := [], shown := [], due := [], level := [], jtag := .init }

end Sys2Proof.Machine
end

