-- ==== Sys2Proof/Machine/State.lean ====
section
/-! DEFINITION. The machine's state, its faults and refusals, and the state after reset. -/
namespace Sys2Proof.Machine

/-- Why a step stops. Each is raised by a command whose operand names a unit the part does not have; nothing of the block can
send such a command, so the stop is safe: it proves nothing about hardware. -/
inductive Fault where
  /-- A core instruction or core event names an index that is no enabled core (R90). Safe. -/
  | noSuchCore
  /-- A paceline command names a region above 79 (R22). Safe. -/
  | noSuchRegion
  /-- A far-memory command names a controller above 35 or a channel above 15 (R195). Safe. -/
  | noSuchChannel
  /-- A link command names a port above 15 (R10). Safe. -/
  | noSuchPort
  /-- A ring command names a ring above 63 (R277). Safe. -/
  | noSuchRing
  /-- A mailbox command names a channel above 7, or above 9 where management ports count (R423, R445). Safe. -/
  | noSuchMailbox
deriving DecidableEq, Repr

/-- Why a command has no outcome. -/
inductive Refusal where
  /-- The command has no meaning in this model yet; raised by exec's arms only. Safe. -/
  | notModelled (mnemonic : String)
deriving DecidableEq, Repr

/-- The outcome of a command. -/
abbrev Out (σ : Type) := Host.Outcome σ Fault Refusal

/-- What manufacture fixes (R1, R89, R451): ordering code (0 ND9-4608-256, 1 ND9-9216-256, 2 ND9-4608-224), disabled region
columns, serial number and management MAC addresses. -/
structure Part where
  ordering : Nat
  disabledCols : List Nat
  serial : Bytes
  mac0 : Bytes
  mac1 : Bytes
  calibration : Bytes
deriving DecidableEq, Repr

/-- A job-fatal stop under way (R488): where it was detected (a region and its tick in progress, or outside the fabric), whether
the fault is JOB_STOPPED, whether it is SELF_FENCE. -/
structure StopInfo where
  region : Option Nat
  jobStopped : Bool
  selfFence : Bool
deriving DecidableEq, Repr

/-- The whole block. `stopTicks` holds, per region, the last tick it may issue once a job-fatal stop is under way (R488).
`free` counts the free values drawn (the model's own field). `pending` is the queue of waiting commands, oldest first. -/
structure State where
  part : Part
  gsc : Nat
  free : Nat
  pace : Pace
  regions : Map Region
  cores : Map Core
  coreRegs : CoreRegs
  flights : List Flight
  ss : Mem
  ssErr : Map Bool
  ssLines : List SsLine
  ssLost : List SsLine
  far : Far
  queues : Map Queue
  image : Option Image
  job : JobStatus
  stop : Option StopInfo
  stopTicks : Map Nat
  host : HostBlk
  power : Power
  sec : Sec
  cas : Cas
  srv : Serve
  recs : Records
  ports : Map LinkPort
  fab : Fabric
  test : TestBlk
  pending : List Instr
deriving DecidableEq, Repr

/-- The part a model of one module stands for: an ND9-9216-256 with its third and sixth region columns disabled and no manufacturing
data (DESIGN CHOICE, notes/assumptions). -/
def Part.init : Part := { ordering := 1, disabledCols := [2, 5], serial := [], mac0 := [], mac1 := [], calibration := [] }

/-- The block after reset: every block register at its reset value, the rails up and PWR_EN high, the internal power-on reset not yet
released (POWER_ON_RESET has the boot ROM run), no job, no image, memories empty, no command waiting. -/
def State.reset : State :=
  { part := .init, gsc := 0, free := 0, pace := .init, regions := [], cores := [], coreRegs := .init, flights := [], ss := [], ssErr := []
    ssLines := [], ssLost := [], far := .init, queues := [], image := none, job := .init, stop := none, stopTicks := [], host := .init
    power := { Power.init with supply := .on, pwrEn := true }, sec := .init, cas := .init, srv := .init, recs := .init, ports := []
    fab := .init, test := .init, pending := [] }

end Sys2Proof.Machine
end

