-- ==== Sys2Proof/Machine/Ops.lean ====
section
/-! DEFINITION. Shared operations: accessors of the tables, time, events, faults and job states, host memory and interrupts,
command responses. -/
namespace Sys2Proof.Machine

/-! ### Tables -/

def State.core (s : State) (c : Nat) : Core := s.cores.find .init c
def State.setCore (s : State) (c : Nat) (k : Core) : State := { s with cores := s.cores.put c k }
def State.region (s : State) (r : Nat) : Region := s.regions.find .init r
def State.setRegion (s : State) (r : Nat) (x : Region) : State := { s with regions := s.regions.put r x }
/-- The key of a core's queue handle. -/
def qKey (c h : Nat) : Nat := c * 32 + h
def State.queue (s : State) (c h : Nat) : Queue := s.queues.find .init (qKey c h)
def State.setQueue (s : State) (c h : Nat) (q : Queue) : State := { s with queues := s.queues.put (qKey c h) q }
def State.bound (s : State) (c h : Nat) : Bool := s.queues.has (qKey c h)
def State.chan (s : State) (c : Nat) : Channel := s.host.chans.find .init c
def State.setChan (s : State) (c : Nat) (x : Channel) : State :=
  { s with host := { s.host with chans := s.host.chans.put c x } }
def State.source (s : State) (n : Nat) : Source := s.host.evc.sources.find .init n
def State.setSource (s : State) (n : Nat) (x : Source) : State :=
  { s with host := { s.host with evc := { s.host.evc with sources := s.host.evc.sources.put n x } } }
def State.mgmtPort (s : State) (p : Nat) : MgmtPort := s.host.mgmt.find .init p
def State.setMgmtPort (s : State) (p : Nat) (x : MgmtPort) : State :=
  { s with host := { s.host with mgmt := s.host.mgmt.put p x } }

/-! ### The part: the logical grid and the physical regions (R1, R89 to R91) -/

/-- GRID_W: 14 on the 224-core grade, else 16 (R1). -/
def State.gridW (s : State) : Nat := if s.part.ordering = 2 then 14 else 16

/-- CORE_COUNT (R1). -/
def State.coreCount (s : State) : Nat := s.gridW * 16

/-- The grade an image section names (R221). -/
def State.grade (s : State) : Nat := if s.part.ordering = 2 then 224 else 256

/-- Whether a logical core index names an enabled core (R90). -/
def State.hasCore (s : State) (c : Nat) : Bool := c < 256 && c % 16 < s.gridW

/-- The enabled core indices, ascending. -/
def State.coreList (s : State) : List Nat := (List.range 256).filter s.hasCore

/-- The enabled region columns, west to east (R89). -/
def State.enabledCols (s : State) : List Nat := (List.range 10).filter fun x => !s.part.disabledCols.contains x

/-- The physical region of a logical core (R90): the enabled region column of x div 2, the region row of y div 2. -/
def State.regionOf (s : State) (c : Nat) : Nat := c / 32 * 10 + s.enabledCols.getD (c % 16 / 2) 0

/-- The enabled cores of a physical region, ascending. -/
def State.coresOf (s : State) (r : Nat) : List Nat := s.coreList.filter fun c => s.regionOf c = r

/-- The neighbour of a region in direction 0 west, 1 east, 2 south, 3 north; none at a die edge (R22, R23). -/
def neighbour (r dir : Nat) : Option Nat :=
  match dir with
  | 0 => if r % 10 = 0 then none else some (r - 1)
  | 1 => if r % 10 = 9 then none else some (r + 1)
  | 2 => if r < 10 then none else some (r - 10)
  | _ => if 70 ≤ r then none else some (r + 10)

/-- Region distance (02_ticks, Regions). -/
def regionDist (a b : Nat) : Nat :=
  (if a % 10 ≤ b % 10 then b % 10 - a % 10 else a % 10 - b % 10) + (if a / 10 ≤ b / 10 then b / 10 - a / 10 else a / 10 - b / 10)

/-- The tick a core is in: its region's TICK_COUNT (R49, R50). -/
def State.tickOf (s : State) (c : Nat) : Nat := (s.region (s.regionOf c)).tickCount

/-- ACC_MODE of the loaded job (R65). -/
def State.exact (s : State) : Bool :=
  match s.image with
  | some i => bit i.numericMode 0
  | none => false

/-- E4M3_OVF of the loaded job (R65). -/
def State.e4m3Nan (s : State) : Bool :=
  match s.image with
  | some i => bit i.numericMode 1
  | none => false

/-! ### Time -/

/-- The code of a power state (R476). -/
def PowerMode.code : PowerMode → Nat
  | .run => 0 | .hold => 1 | .doze => 2 | .nap => 3 | .park => 4

/-- Whether some region holds before a gate tick (R31, TS_ACTIVE). -/
def State.tsActive (s : State) : Bool := (List.range 80).any fun r => (s.region r).gate.isSome

/-- Whether every region holds under the debug stop (STOPPED, R526). -/
def State.debugStopped (s : State) : Bool :=
  match s.pace.debugStop with
  | none => false
  | some x => (List.range 80).all fun r => x ≤ (s.region r).tickCount

/-- Whether some hold of R23 (c) applies to some region. -/
def State.anyHold (s : State) : Bool :=
  s.pace.holdReq || s.power.mode ≠ .run || s.pace.debugStop.isSome ||
    (List.range 80).any fun r => (s.region r).retuning || (s.region r).gate.isSome

/-- GSC advances by `n` ns: held time and power residency accrue (R37, R496); time under a debug stop is kept apart (R527), and the
time up to which a hold has applied is noted (R55). -/
def State.elapse (s : State) (n : Nat) : State :=
  { s with
    gsc := s.gsc + n
    pace := { s.pace with
      tsHeldNs := if s.tsActive && !s.debugStopped then s.pace.tsHeldNs + n else s.pace.tsHeldNs
      debugNs := if s.debugStopped then s.pace.debugNs + n else s.pace.debugNs
      holdAt := if s.anyHold then s.gsc + n else s.pace.holdAt }
    power := { s.power with
      residency := s.power.residency.put s.power.mode.code (s.power.residency.find 0 s.power.mode.code + n) } }

/-- GSC reaches `t`, or stays where it is when `t` has passed: GSC never steps backward (R48). -/
def State.advanceTo (s : State) (t : Nat) : State := if s.gsc < t then s.elapse (t - s.gsc) else s

/-! ### Events (R432 to R434) -/

/-- The source of code 0xBBNN (R432). -/
def srcOf (code : Nat) : Nat := code / 256 * 64 + code % 256

/-- A pending source becomes eligible when its raises reach MOD_COUNT or the processor waits for events (R434). -/
def Source.settle (x : Source) (gsc : Nat) (idleWait : Bool) : Source :=
  if x.state = .pending && (max 1 x.modCount ≤ x.raises || idleWait) then { x with state := .eligible, since := gsc } else x

/-- One raise of a source (R434): counted in every state; an idle source becomes pending, one in service is marked AGAIN. -/
def Source.raise (x : Source) (i : RaiseInfo) (idleWait : Bool) : Source :=
  let y := { x with raises := satAdd 16 x.raises 1, info := i }
  (match y.state with
   | .idle => { y with state := .pending, since := i.gsc }
   | .inService => { y with again := true }
   | _ => y).settle i.gsc idleWait

/-- Raises source `n`; sources from 896 up are reserved (R432). -/
def State.raiseSource (s : State) (n : Nat) (i : RaiseInfo) : State :=
  if n < 896 then s.setSource n ((s.source n).raise i s.host.evc.idleWait) else s

/-- Raises the event of a fault or event code; codes whose low byte is 0x40 or above raise none (R432). -/
def State.raiseCode (s : State) (code : Nat) (fault : Bool) (a0 a1 : W64) : State :=
  if code % 256 < 64 then s.raiseSource (srcOf code) { fault := fault, gsc := s.gsc, arg0 := a0, arg1 := a1 } else s

/-- Raises an event that is no fault. -/
def State.event (s : State) (code : Nat) (a0 : W64 := 0) (a1 : W64 := 0) : State := s.raiseCode code false a0 a1

/-! ### Leaving a low-power state (R476, R480) -/

/-- The exit latency of a power state in ns (R476). -/
def PowerMode.exitNs : PowerMode → Nat
  | .run => 0 | .hold => 1000 | .doze => 30000 | .nap => 1200000 | .park => 60000000

/-- A port that was ACTIVE retrains after PARK (R476), under the limits of a retrain; no cause of R376 covers it, so neither RETRAINS nor
LAST_CAUSE shows it and no event is raised (DESIGN CHOICE, log entry 192). -/
def LinkPort.parkExit (x : LinkPort) (gsc : Nat) : LinkPort :=
  if x.state = .active then
    { x with state := .retraining, phase := 1, phaseAt := gsc, trainAt := gsc, frameKey := [], frameRun := 0, inj := none, echo := 0, pat := .init
             peerValid := false }
  else x

/-- The module is in RUN: the far memory has left self-refresh, and after PARK the trim words are built again and the links retrain (R476), and
the far memory is to be trained (R196, FAR_TRAINING). -/
def State.toRun (s : State) : State :=
  { s with
    ports := if s.power.mode = .park then s.ports.map fun e => (e.1, e.2.parkExit s.gsc) else s.ports
    pace := if s.power.mode = .park then { s.pace with calValid := true } else s.pace
    far := { s.far with selfRefresh := false, rate := if s.power.mode = .park then 3 else s.far.rate }
    power := { s.power with mode := .run, exiting := false, exitPlan := none } }

/-- An unknown event (R480): the exit starts at once, or goes on, and the action waits until it completes. -/
def State.wake (s : State) : State :=
  if s.power.mode = .run then s
  else if s.power.exiting then (s.advanceTo s.power.exitDone).toRun
  else (s.elapse s.power.mode.exitNs).toRun

/-! ### Job states and fault classes -/

/-- The code of a job state (R421). -/
def JobState.code : JobState → Nat
  | .idle => 0 | .loaded => 1 | .armed => 2 | .running => 3 | .paused => 4 | .faulted => 5 | .fenced => 6

/-- Whether the job is ARMED, RUNNING or PAUSED. -/
def JobState.active : JobState → Bool
  | .armed | .running | .paused => true
  | _ => false

/-- Moves the job to a state; a change raises JOB_STATE with the old and the new code (R421). -/
def State.setJob (s : State) (j : JobState) : State :=
  if s.job.state = j then s
  else
    let old := s.job.state.code
    { s with job := { s.job with state := j } }.event 0x0C11 (BitVec.ofNat 64 (old + 256 * j.code))

/-- The rank of this module in its job; 0 without one. -/
def State.rank (s : State) : Nat := match s.image with | some i => i.rank | none => 0

/-- Whether the loaded job spans several modules. -/
def State.multi (s : State) : Bool := match s.image with | some i => i.moduleCount > 1 | none => false

/-- Records the first job-fatal fault of the job: the earliest by GSC, the lower code at equal GSC (R489). -/
def JobStatus.note (j : JobStatus) (code : Nat) (rank gsc : Nat) : JobStatus :=
  if j.fault = 0#16 || (j.faultGsc = gsc && code < j.fault.toNat) then
    { j with fault := BitVec.ofNat 16 code, faultRank := BitVec.ofNat 32 rank, faultGsc := gsc }
  else j

/-- Where each region stops (R488): with a fault in region `d` after at most its tick in progress plus the region distance, and
otherwise at its next tick boundary. -/
def State.stopLimits (s : State) (region : Option Nat) : Map Nat :=
  (List.range 80).map fun r => (r, match region with
    | some d => (s.region d).tickCount + regionDist d r
    | none => (s.region r).tickCount)

/-- A job-fatal fault (R422, R487 to R489): its event, flagged as a fault; with a job ARMED, RUNNING or PAUSED also JOB_FAULT, the
end of a pending pause, and the stop under way. `region` tells where in the fabric it was detected. -/
def State.jobFatal (s : State) (code : Nat) (region : Option Nat := none) (a0 : W64 := 0) (a1 : W64 := 0)
    (rank : Option Nat := none) (noteCode : Option Nat := none) : State :=
  let s := s.wake.raiseCode code true a0 a1
  if s.job.state.active then
    { s with
      job := { s.job.note (noteCode.getD code) (rank.getD s.rank) s.gsc with pausePending := false }
      stop := match s.stop with
        | some x => some { x with selfFence := x.selfFence || code == 0x0C02 }
        | none => some { region := region, jobStopped := code == 0x0605, selfFence := code == 0x0C02 }
      stopTicks := if s.stop.isSome then s.stopTicks else s.stopLimits region
      pace := { s.pace with debugStop := none } }
  else s

/-- A module-fatal fault (R487, R490): its event, flagged as a fault, and the reset due; the first one due stands. -/
def State.moduleFatal (s : State) (code : Nat) (a0 : W64 := 0) : State :=
  let s := s.raiseCode code true a0 0
  { s with power := { s.power with resetDue := match s.power.resetDue with
      | some r => some r
      | none => some (.moduleFatal (BitVec.ofNat 16 code)) } }

/-- The trace region index of a core (R53). -/
def traceRegion (c : Nat) : Nat := c / 16 / 2 * 8 + c % 16 / 2

/-- A trace with one entry more, in ascending order of tick, then of index; equals stay in the order they came (R53). -/
def traceIns (e : TraceEntry) : List TraceEntry → List TraceEntry
  | [] => [e]
  | x :: xs => if e.tick < x.tick || (e.tick = x.tick && e.index < x.index) then e :: x :: xs else x :: traceIns e xs

/-- CORE_FAULT's capture (R125): the first fault of the job by tick, the lowest core and then the first slot within a tick; the
other faults of that tick are counted. Every fault is an entry of the trace (DESIGN CHOICE, log entry 162: the spec does not say which
events the fabric traces). -/
def CoreRegs.capture (r : CoreRegs) (code core slot tick pc : Nat) : CoreRegs :=
  let r := { r with trace := traceIns { tick := tick, index := traceRegion core, code := code } r.trace }
  let me := { r with
    faultCode := BitVec.ofNat 16 code, faultCore := core, faultSlot := slot, faultValid := true, faultTick := tick
    faultPc := if slot = 6 then 0 else pc }
  if !r.faultValid || tick < r.faultTick then { me with faultMore := 0 }
  else if tick = r.faultTick then
    if core < r.faultCore || (core = r.faultCore && slot < r.faultSlot) then { me with faultMore := satAdd 32 r.faultMore 1 }
    else { r with faultMore := satAdd 32 r.faultMore 1 }
  else r

/-- A fault of the core or the mesh (R124, R125): captured, job-fatal, detected in the core's region; slot 6 is detection outside
issue. A fault found at issue also ends the core's issue. -/
def State.coreFault (s : State) (c slot code : Nat) : State :=
  let k := s.core c
  let s := { s with coreRegs := s.coreRegs.capture code c slot (s.tickOf c) k.pc }
  let s := if slot = 6 then s else s.setCore c { k with stopped := true }
  s.jobFatal code (some (s.regionOf c))

/-! ### Host memory and interrupts (R415) -/

/-- A posted write to host memory. -/
def State.dmaWrite (s : State) (addr : Nat) (b : Bytes) : State :=
  { s with host := { s.host with hostMem := s.host.hostMem.write addr b } }

/-- Sends an MSI-X vector: a message to host memory, or the pending bit while the entry is masked. -/
def State.sendVector (s : State) (v : Nat) : State :=
  let e := s.host.msix.find .init v
  if e.masked then { s with host := { s.host with msix := s.host.msix.put v { e with pend := true } } }
  else
    let s := s.dmaWrite e.addr.toNat (leBytes 4 e.data.toNat)
    { s with host := { s.host with msix := s.host.msix.put v { e with pend := false, sent := e.sent + 1 } } }

/-! ### Frames on the management ports (R444, R445) -/

/-! ### Lumoz commands (R424 to R431) -/

/-- The result codes of R429. -/
inductive Result where
  | ok | busy | range | state | timeout | auth | noSpace | restarted | unknownOpcode | digest
deriving DecidableEq, Repr

def Result.code : Result → Nat
  | .ok => 0 | .busy => 1 | .range => 2 | .state => 3 | .timeout => 4 | .auth => 5 | .noSpace => 6 | .restarted => 7
  | .unknownOpcode => 8 | .digest => 9

/-- What a command answers beside its result: fault code, SECTION, ENTRY and payload (R423). -/
structure Reply where
  result : Result
  fault : Nat := 0
  sect : Nat := 0
  entry : Option Nat := none
  payload : Bytes := []
deriving DecidableEq, Repr

/-- The command that channel `ch` carries. -/
def State.cmdOf (s : State) (ch : Nat) : Option Cmd := (s.chan ch).cmd

end Sys2Proof.Machine
end

