-- ==== Sys2Proof/Machine/Operands.lean ====
section
/-! DEFINITION. Operand forms of the slots: register reads, second operands, results on their way, bank pieces. -/
namespace Sys2Proof.Machine

/-! ### Register reads at issue (R92, R97) -/

/-- s[n]; s0 reads 0. -/
def Core.rs (k : Core) (n : Nat) : W64 := if n = 0 then 0#64 else k.s.find 0#64 n
/-- a[n]. -/
def Core.ra (k : Core) (n : Nat) : BitVec 40 := k.a.find 0#40 n
/-- p[n]; p0 reads 1. -/
def Core.rp (k : Core) (n : Nat) : Bool := if n = 0 then true else k.p.find false n
/-- v[n]. -/
def Core.rv (k : Core) (n : Nat) : List W32 := k.v.find (List.replicate 64 0#32) n
/-- Lane `l` of a vector. -/
def lane (v : List W32) (l : Nat) : W32 := v.getD l 0#32
/-- The vector whose lane `l` is `f l`. -/
def lanes (f : Nat → W32) : List W32 := (List.range 64).map f

/-- Whether an instruction is enabled (R127). -/
def Core.enabled (k : Core) (h : Hdr) : Bool := k.rp h.pred.toNat != h.pn

/-- The ALU's second operand (R130). -/
def Core.src (k : Core) : Src → W64
  | .reg sb => k.rs sb.toNat
  | .imm i => i.signExtend 64

/-- A count field or register, exact (R136, R146). -/
def Core.cnt (k : Core) : Cnt → Nat
  | .imm c => c.toNat
  | .reg sb => (k.rs sb.toNat).toNat

/-- A branch target (R133). -/
def Core.tgt (k : Core) : Tgt → Nat
  | .imm t => t.toNat
  | .reg sb => (k.rs sb.toNat).toNat

/-- The address ALU's second operand (R138). -/
def Core.asrc (k : Core) : ASrc → BitVec 40
  | .reg ac => k.ra ac.toNat
  | .imm i => i.signExtend 40

/-- clear(x, m) (R139). -/
def clearLow (x m : Nat) : Nat := x - x % m

/-- A non-negative exact integer as a number, none for a negative one. -/
def natOf (x : Int) : Option Nat := if 0 ≤ x then some x.toNat else none

/-- n0 and n1 (R137): the pass numbers of the innermost open loop and of the next. -/
def Core.pass (k : Core) (i : Nat) : Nat := match k.loops[i]? with | some l => l.done | none => 0

/-! ### Results (R97, R98) -/

/-- The slots' order of R98. -/
def slotNum : Slot → Nat
  | .ct => 0 | .mx => 1 | .vx => 2 | .ls => 3 | .mv => 4 | .qx => 5

/-- Puts a result on its way; results for s0 and p0 are discarded (R92). -/
def Core.result (k : Core) (r : Reg) (x : RegVal) (due issue slot : Nat) : Core :=
  if r = .s 0 || r = .p 0 then k else { k with wb := k.wb ++ [⟨r, x, due, issue, slot⟩] }

/-- Writes a register now; a register that is written has good parity again. -/
def Core.writeReg (k : Core) (r : Reg) (x : RegVal) : Core :=
  let k := { k with parity := k.parity.filter fun q => q != r }
  match r, x with
  | .s n, .s x => { k with s := k.s.put n x }
  | .a n, .a x => { k with a := k.a.put n x }
  | .p n, .p x => { k with p := k.p.put n x }
  | .v n, .v x => { k with v := k.v.put n x }
  | _, _ => k

/-- Whether result `x` is written before `y` when both are due: an earlier due tick, an earlier issue, then the later slot, so
that the last one written is the one R98 keeps. -/
def Wb.before (x y : Wb) : Bool :=
  x.due < y.due || (x.due = y.due && (x.issue < y.issue || (x.issue = y.issue && y.slot ≤ x.slot)))

/-- Insertion into a list ordered by `le`, before its equals. -/
def insertBy {α : Type} (le : α → α → Bool) (x : α) : List α → List α
  | [] => [x]
  | y :: ys => if le x y then x :: y :: ys else y :: insertBy le x ys

/-- The list ordered by `le`, equals in the order they stood in. -/
def sortBy {α : Type} (le : α → α → Bool) : List α → List α
  | [] => []
  | x :: xs => insertBy le x (sortBy le xs)

/-- The results due by tick `t` become visible (R97, R98). -/
def Core.commitWb (k : Core) (t : Nat) : Core :=
  let due := sortBy Wb.before (k.wb.filter fun w => w.due ≤ t)
  due.foldl (fun k w => k.writeReg w.reg w.val) { k with wb := k.wb.filter fun w => !(w.due ≤ t) }

/-! ### Units (R102) -/

def unitMul : Nat := 0
def unitPipe : Nat := 1
def unitFn : Nat := 2
def unitSelect : Nat := 3
def unitReadout : Nat := 4
def unitGather : Nat := 5

/-- Whether a unit refuses an instruction issued at `t`: its last one issued at `t0` with occupancy `n` and `t0 < t < t0 + n`. -/
def Core.unitBusy (k : Core) (u t : Nat) : Bool :=
  match k.units.find (0, 0) u with
  | (t0, n) => t0 < t && t < t0 + n

def Core.useUnit (k : Core) (u t n : Nat) : Core := { k with units := k.units.put u (t, n) }

/-! ### Pieces (R106) -/

/-- The size of the working store. -/
def wsSize : Nat := 0x200000

/-- Adds an operation with its pieces, given as (bank tick, address, length, bytes written, place in the data). -/
def Core.addOp (k : Core) (kind : OpKind) (issue slot : Nat) (cls : PieceClass)
    (ps : List (Nat × Nat × Nat × Option Bytes × Nat)) : Core :=
  let id := k.nextOp
  { k with
    nextOp := id + 1
    ops := k.ops.put id { kind := kind, issue := issue, slot := slot, left := ps.length, delay := 0, data := [] }
    pieces := k.pieces ++ ps.map fun p =>
      { op := id, tick := p.1, cls := cls, issue := issue, addr := p.2.1, len := p.2.2.1, write := p.2.2.2.1
        off := p.2.2.2.2, defers := 0 } }

/-- The pieces of a read of `n` whole 64 B rows from `a` up. -/
def readRows (tick a n : Nat) : List (Nat × Nat × Nat × Option Bytes × Nat) :=
  (List.range n).map fun i => (tick, a + 64 * i, 64, none, 64 * i)

/-- The pieces of a write of bytes `b` in 64 B rows from `a` up. -/
def writeRows (tick a n : Nat) (b : Bytes) : List (Nat × Nat × Nat × Option Bytes × Nat) :=
  (List.range n).map fun i => (tick, a + 64 * i, 64, some (sub b (64 * i) 64), 64 * i)

/-- A vector register's 256 B image (R92). -/
def lanesBytes (v : List W32) : Bytes := (List.range 64).flatMap fun l => leBytes 4 (lane v l).toNat

/-- The vector of a 256 B image. -/
def bytesLanes (b : Bytes) : List W32 := lanes fun l => BitVec.ofNat 32 (fld b (4 * l) 4)

/-! ### Fault codes of the core and the mesh (R124, R185) -/

def fIllegal : Nat := 0x0101
def fAddress : Nat := 0x0102
def fBadQueue : Nat := 0x0103
def fDelaySlot : Nat := 0x0104
def fLoopNest : Nat := 0x0105
def fPcRange : Nat := 0x0106
def fStructural : Nat := 0x0107
def fRegParity : Nat := 0x0108
def fWsBad : Nat := 0x0109
def fLongOverflow : Nat := 0x0110
def fQueueFull : Nat := 0x0111
def fQueueKind : Nat := 0x0112
def fWaitState : Nat := 0x0113
def fWaitUnarmed : Nat := 0x0114
def fWaitEarly : Nat := 0x0115
def fMeshPhase : Nat := 0x0401
def fMeshUnclaimed : Nat := 0x0402
def fMeshEmpty : Nat := 0x0403
def fMeshLink : Nat := 0x0404
def fLandingEmpty : Nat := 0x0405
def fMeshLate : Nat := 0x0406
def fStagingFull : Nat := 0x0407
def fSsBad : Nat := 0x0201

end Sys2Proof.Machine
end

