-- ==== Sys2Proof/Machine/Flags.lean ====
section
/-! DEFINITION. Conditions that set predicates: CMP (R132) and VCMP (R159). -/
namespace Sys2Proof.Machine

/-- CMP's condition COND on two scalar operands (R132). -/
def cmpCond (cond : Nat) (x b : W64) : Bool :=
  match cond with
  | 0 => x = b
  | 1 => x ≠ b
  | 2 => x.toInt < b.toInt
  | 3 => b.toInt ≤ x.toInt
  | 4 => x.toNat < b.toNat
  | 5 => b.toNat ≤ x.toNat
  | _ => x &&& b ≠ 0#64

/-- A lane compare as less, equal, or unordered, by type T (R85, R158). -/
def laneLt (t : Nat) (a b : W32) : Bool :=
  match t with
  | 0 => flt a b
  | 1 => a.toInt < b.toInt
  | _ => a.toNat < b.toNat

def laneEq (t : Nat) (a b : W32) : Bool := if t = 0 then feq a b else a = b

/-- VCMP's condition COND on two lanes (R159): an ordered comparison with NaN is false, NE with NaN is true. -/
def vcmpCond (t cond : Nat) (a b : W32) : Bool :=
  match cond with
  | 0 => laneEq t a b
  | 1 => !laneEq t a b
  | 2 => laneLt t a b
  | 3 => laneLt t a b || laneEq t a b
  | 4 => laneLt t b a
  | _ => laneLt t b a || laneEq t a b

end Sys2Proof.Machine
end

