-- ==== Sys2Proof/Machine/Issue.lean ====
section
/-! DEFINITION. Issue of one slot instruction: legality, predicate, register parity, the fault it raises or the effect it has
(R97 to R99, R124, R127, R128). -/
namespace Sys2Proof
open Sys2Proof.Machine

/-- The slot of an instruction. -/
def SlotOp.slot : SlotOp → Slot
  | .ct .. => .ct | .mx .. => .mx | .vx .. => .vx | .ls .. => .ls | .mv .. => .mv | .qx .. => .qx

def SlotOp.hdr : SlotOp → Hdr
  | .ct h _ => h | .mx h _ => h | .vx h _ => h | .ls h _ => h | .mv h _ => h | .qx h _ => h

def rS (n : BitVec 5) : Reg := .s n.toNat
def rA (n : BitVec 4) : Reg := .a n.toNat
def rV (n : BitVec 6) : Reg := .v n.toNat

/-- The registers a second operand reads. -/
def Src.reads : Src → List Reg
  | .reg sb => [rS sb]
  | .imm _ => []

def Cnt.reads : Cnt → List Reg
  | .reg sb => [rS sb]
  | .imm _ => []

def ASrc.reads : ASrc → List Reg
  | .reg ac => [rA ac]
  | .imm _ => []

/-- The address registers a memory instruction reads (R139). -/
def MemF.reads {w : Nat} (f : MemF w) : List Reg :=
  rA f.ab :: (if f.am = 0#2 then [] else if f.am = 3#2 then [rA f.as, rA (f.as + 1#4)] else [rA f.as])

/-- Whether an MCFG sets a pair of 4-bit formats (R74). -/
def McfgF.pair4 (f : McfgF) : Bool :=
  match pairClass f.lfmt.toNat f.rfmt.toNat with
  | some .f4 | some .i4 => true
  | _ => false

/-- The registers an instruction names as operands it reads at issue. -/
def SlotOp.operands : SlotOp → List Reg
  | .ct _ o =>
    match o with
    | .li f => if f.hi then [rS f.sd] else []
    | .add f | .sub f | .and f | .or f | .xor f | .shl f | .shr f | .sra f | .mul f | .min f | .max f => rS f.sa :: f.b.reads
    | .cmp f => rS f.sa :: f.b.reads
    | .br f => match f.tgt with | .reg sb => [rS sb] | .imm _ => []
    | .loop f => f.count.reads
    | .nop | .halt | .tickrd _ | .gscrd _ | .param _ => []
  | .mx _ o =>
    match o with
    | .mcfg f => [rA f.al, rA f.ar] ++ (if f.pair4 then [rA f.als, rA f.ars] else [])
    | .mma f => f.k.reads
    | .mmag f => rV f.vs :: f.k.reads
    | .mout f => .acc f.acc.toNat :: (if f.dst then [.a (f.d.toNat % 16)] else [])
    | .mmode f => [rS f.skey, rS f.spos, rS f.ssid, rS f.sdrw]
    | .nop | .mclr _ => []
  | .vx _ o =>
    match o with
    | .vadd f | .vmul f | .vmin f | .vmax f | .vcmp f => [rV f.va, rV f.vb]
    | .vfma f | .vsel f => [rV f.va, rV f.vb, rV f.vc]
    | .vshuf f => if f.mode.toNat ≥ 2 then [rS f.sa] else if f.mode = 1#2 then [rV f.va] else [rV f.va, rV f.vb]
    | .vred f => [rV f.va]
    | .vcvt f | .vqnt f => rV f.va :: (if f.rm = 2#2 then [rS f.sk, rS f.sp, rS f.ss] else [])
    | .vfn f => [rV f.va]
    | .topkInit f | .topkRead f => [rS f.sa]
    | .topkMerge f => [rV f.va, rV f.vb]
    | .vpen f => [rV f.va, rV f.vb, rV f.vc, rS f.sp, rS f.sq]
    | .draw f => [rS f.sk, rS f.sp, rS f.ss]
    | .select f => [rV f.va, rV f.vb, rV f.vc]
    | .nop | .clrsel => []
  | .ls _ o =>
    match o with
    | .vld f => f.reads
    | .vst f => rV f.r :: f.reads
    | .sld f => f.reads
    | .sst f => rS f.r :: f.reads
    | .aadd f | .asub f => rA f.aa :: f.b.reads
    | .aset _ sb => [rS sb]
    | .aget _ ab => [rA ab]
    | .nop | .ali _ _ => []
  | .mv _ o =>
    match o with
    | .ssr f | .ssw f => [rA f.aw, rA f.as]
    | .msend f => [rA f.aw]
    | .mrecv _ a => [rA a]
    | .gath _ va => [rV va]
    | .nop => []
  | .qx _ o =>
    match o with
    | .qpush f => [rS f.sa, rS f.sb]
    | .qarm f => f.n.reads
    | .nop | .qwait _ | .qstat _ => []

/-- The registers an enabled instruction reads at issue: its predicate and its operands (R127, R154). -/
def SlotOp.reads (op : SlotOp) : List Reg := .p op.hdr.pred.toNat :: op.operands

end Sys2Proof

namespace Sys2Proof.Machine

/-- Whether a core still issues bundles (R103, R124). -/
def Core.live (k : Core) : Bool := !k.halted && !k.stopped

/-- An illegal encoding (R128, R156): a value the references name as illegal, a LOOP whose END lies before its body (R136), or an
MMA or MMAG over a format pair that R74 does not list (R143). -/
def slotIllegal (op : SlotOp) (k : Core) (exact : Bool) : Bool :=
  !op.wf exact ||
    match op with
    | .ct _ (.loop f) => f.endAt.toNat ≤ k.pc
    | .mx _ (.mma _) => (pairClass k.feedCfg.lfmt k.feedCfg.rfmt).isNone
    | .mx _ (.mmag _) => (pairClass k.feedCfg.lfmt k.feedCfg.rfmt).isNone
    | _ => false

/-- The fault an instruction raises at issue: ILLEGAL_ENCODING whether or not it is enabled, then, if it is enabled, REG_PARITY on
a register it reads, then the instruction's own check `chk`. An instruction whose predicate reads false raises no other fault, whatever
the predicate's parity (R99). -/
def issueFault (k : Core) (exact : Bool) (op : SlotOp) (chk : Option Nat) : Option Nat :=
  if slotIllegal op k exact then some fIllegal
  else if !k.enabled op.hdr then none
  else if op.reads.any fun r => k.parity.contains r then some fRegParity
  else chk

/-- The issue of one slot instruction in the tick in progress: nothing in a core that issues no bundles, the fault, or, when the
instruction is enabled, its effect. -/
def issueSlot (s : State) (c : Nat) (op : SlotOp) (chk : Option Nat) (act : State) : State :=
  let k := s.core c
  if !k.live then s
  else
    match issueFault k s.exact op chk with
    | some code => s.coreFault c (slotNum op.slot) code
    | none => if k.enabled op.hdr then act else s

/-- A command about an enabled core; another index stops (R90). -/
def onCore (s : State) (c : Nat) (t : State) : Out State := if s.hasCore c then .next t else .fault .noSuchCore

end Sys2Proof.Machine
end

