-- ==== Sys2Proof/Machine/Control.lean ====
section
/-! DEFINITION. The CT slot: scalar arithmetic, compares, branches, hardware loops, counters and parameters (R129 to R137). -/
namespace Sys2Proof.Machine

/-- A scalar result of core `c` visible `lat` ticks after the tick in progress (R104). -/
def putS (s : State) (c : Nat) (sd : BitVec 5) (lat : Nat) (x : W64) : State :=
  s.setCore c ((s.core c).result (.s sd.toNat) (.s x) (s.tickOf c + lat) (s.tickOf c) 0)

/-! ### NOP, LI and the ALU group (R127, R130, R131) -/

def doNop (s : State) : State := s

/-- LI (R131). -/
def liVal (k : Core) (f : LiF) : W64 :=
  if f.hi then (f.imm ++ (k.rs f.sd.toNat).extractLsb' 0 32 : BitVec (32 + 32)) else f.imm.signExtend 64
def doLi (f : LiF) (c : Nat) (s : State) : State := putS s c f.sd 1 (liVal (s.core c) f)

def addVal64 (k : Core) (f : Alu) : W64 := k.rs f.sa.toNat + k.src f.b
def doAdd (f : Alu) (c : Nat) (s : State) : State := putS s c f.sd 1 (addVal64 (s.core c) f)

def subVal (k : Core) (f : Alu) : W64 := k.rs f.sa.toNat - k.src f.b
def doSub (f : Alu) (c : Nat) (s : State) : State := putS s c f.sd 1 (subVal (s.core c) f)

def andVal (k : Core) (f : Alu) : W64 := k.rs f.sa.toNat &&& k.src f.b
def doAnd (f : Alu) (c : Nat) (s : State) : State := putS s c f.sd 1 (andVal (s.core c) f)

def orVal (k : Core) (f : Alu) : W64 := k.rs f.sa.toNat ||| k.src f.b
def doOr (f : Alu) (c : Nat) (s : State) : State := putS s c f.sd 1 (orVal (s.core c) f)

def xorVal (k : Core) (f : Alu) : W64 := k.rs f.sa.toNat ^^^ k.src f.b
def doXor (f : Alu) (c : Nat) (s : State) : State := putS s c f.sd 1 (xorVal (s.core c) f)

/-- A shift amount: the second operand's low 6 bits (R130). -/
def shAmt (k : Core) (f : Alu) : Nat := (k.src f.b).toNat % 64

def shlVal (k : Core) (f : Alu) : W64 := k.rs f.sa.toNat <<< shAmt k f
def doShl (f : Alu) (c : Nat) (s : State) : State := putS s c f.sd 1 (shlVal (s.core c) f)

def shrVal (k : Core) (f : Alu) : W64 := k.rs f.sa.toNat >>> shAmt k f
def doShr (f : Alu) (c : Nat) (s : State) : State := putS s c f.sd 1 (shrVal (s.core c) f)

def sraVal (k : Core) (f : Alu) : W64 := (k.rs f.sa.toNat).sshiftRight (shAmt k f)
def doSra (f : Alu) (c : Nat) (s : State) : State := putS s c f.sd 1 (sraVal (s.core c) f)

def mulVal (k : Core) (f : Alu) : W64 := k.rs f.sa.toNat * k.src f.b
/-- MUL: visible at t + 3, one tick of the scalar multiplier (R104). -/
def doMul (f : Alu) (c : Nat) (s : State) : State :=
  let s := putS s c f.sd 3 (mulVal (s.core c) f)
  s.setCore c ((s.core c).useUnit unitMul (s.tickOf c) 1)
def chkMul (c : Nat) (s : State) : Option Nat :=
  if (s.core c).unitBusy unitMul (s.tickOf c) then some fStructural else none

/-- The lesser or the greater operand, signed or by U unsigned (R130). -/
def minVal (k : Core) (f : Alu) : W64 :=
  let x := k.rs f.sa.toNat; let b := k.src f.b
  if f.u then (if b.toNat < x.toNat then b else x) else (if b.toInt < x.toInt then b else x)
def doMin (f : Alu) (c : Nat) (s : State) : State := putS s c f.sd 1 (minVal (s.core c) f)

def maxVal (k : Core) (f : Alu) : W64 :=
  let x := k.rs f.sa.toNat; let b := k.src f.b
  if f.u then (if x.toNat < b.toNat then b else x) else (if x.toInt < b.toInt then b else x)
def doMax (f : Alu) (c : Nat) (s : State) : State := putS s c f.sd 1 (maxVal (s.core c) f)

/-- CMP (R132). -/
def cmpVal (k : Core) (f : CmpF) : Bool := cmpCond f.cond.toNat (k.rs f.sa.toNat) (k.src f.b)
def doCmp (f : CmpF) (c : Nat) (s : State) : State :=
  let k := s.core c
  s.setCore c (k.result (.p f.pd.toNat) (.p (cmpVal k f)) (s.tickOf c + 1) (s.tickOf c) 0)

/-! ### Branches (R100, R101, R133 to R135) -/

/-- Whether the bundle in progress is the last of an open loop's body. -/
def Core.atLoopEnd (k : Core) : Bool := k.loops.any fun l => l.last = k.pc

/-- The faults of an enabled BR: in a delay bundle, in a body's last bundle, beyond the role's code. -/
def chkBr (f : BrF) (c : Nat) (s : State) : Option Nat :=
  let k := s.core c
  if k.branch.isSome then some fDelaySlot
  else if k.atLoopEnd then some fLoopNest
  else if k.codeLen ≤ k.tgt f.tgt then some fPcRange
  else none

/-- An enabled BR: the link at t + 1, two delay bundles, then the target (R100, R133). -/
def doBr (f : BrF) (c : Nat) (s : State) : State :=
  let k := s.core c
  let s := putS s c f.sl 1 (BitVec.ofNat 64 (k.pc + 3))
  s.setCore c { s.core c with branch := some (k.tgt f.tgt, 2) }

/-- The faults of an enabled LOOP (R100, R101, R134). -/
def chkLoop (f : LoopF) (c : Nat) (s : State) : Option Nat :=
  let k := s.core c
  if k.branch.isSome then some fDelaySlot
  else if k.codeLen ≤ f.endAt.toNat then some fPcRange
  else if k.cnt f.count ≠ 0 && 4 ≤ k.loops.length then some fLoopNest
  else none

/-- LOOP (R136): nothing opens for a count of 0, and the bundle after the body is next; else a loop opens with its first pass. A LOOP in
the last bundle of an open body chooses the next bundle itself: the outer body's end is not applied in that tick and its pass is not
counted (DESIGN CHOICE, log entry 167: R136 names both next bundles). -/
def doLoop (f : LoopF) (c : Nat) (s : State) : State :=
  let k := s.core c
  let n := k.cnt f.count
  s.setCore c
    (if n = 0 then { k with next := some (f.endAt.toNat + 1) }
     else { k with loops := ⟨k.pc + 1, f.endAt.toNat, n - 1, 0⟩ :: k.loops, next := some (k.pc + 1) })

/-- The bundle after one at `pc` that no branch leads away from, with the loops that end there (R136, R137): the innermost loop
runs its next pass or closes, and an outer loop of the same END is then treated likewise. -/
def loopNext (pc : Nat) : List Loop → Nat × List Loop
  | [] => (pc + 1, [])
  | l :: ls =>
    if l.last = pc then
      if 0 < l.left then (l.first, { l with left := l.left - 1, done := l.done + 1 } :: ls) else loopNext pc ls
    else (pc + 1, l :: ls)

/-- LOOP_END: the loop end of the bundle in progress, taken once (R136, R137). -/
def doLoopEnd (c : Nat) (s : State) : State :=
  let k := s.core c
  if k.live && k.next.isNone && k.branch.isNone && (match k.loops with | l :: _ => l.last = k.pc | [] => false) then
    let n := loopNext k.pc k.loops
    s.setCore c { k with next := some n.1, loops := n.2 }
  else s

/-- The open loops a taken branch to `t` leaves open: it closes the outermost body it leaves and every loop inside it (R101). -/
def loopsAfter (t : Nat) (ls : List Loop) : List Loop :=
  (ls.reverse.takeWhile fun l => l.first ≤ t && t ≤ l.last).reverse

/-- The core moves on to the next tick's bundle (R96, R100, R136). -/
def Core.advance (k : Core) : Core :=
  match k.branch with
  | some (t, 0) => { k with pc := t, branch := none, next := none, loops := loopsAfter t k.loops }
  | some (t, n + 1) => { k with pc := k.pc + 1, branch := some (t, n), next := none }
  | none =>
    match k.next with
    | some p => { k with pc := p, next := none }
    | none => { k with pc := (loopNext k.pc k.loops).1, loops := (loopNext k.pc k.loops).2 }

/-- HALT (R103): no further bundle, HALT_COUNT rises. A branch whose delay bundle it stands in never reaches its target (R135), also
not after a resume. -/
def doHalt (c : Nat) (s : State) : State :=
  { s.setCore c { s.core c with halted := true, branch := none } with
    coreRegs := { s.coreRegs with haltCount := min s.coreCount (s.coreRegs.haltCount + 1) } }

/-! ### Counters and parameters (R50, R51, R93) -/

def doTickrd (sd : BitVec 5) (c : Nat) (s : State) : State := putS s c sd 1 (BitVec.ofNat 64 (s.tickOf c))

/-- GSCRD reads the GSC at the issue of the tick in progress (R51). -/
def doGscrd (sd : BitVec 5) (c : Nat) (s : State) : State :=
  putS s c sd 1 (BitVec.ofNat 64 (s.region (s.regionOf c)).lastIssue)

/-- Parameter `n` of core `c` (R93). -/
def paramVal (n c : Nat) (s : State) : Nat :=
  match n with
  | 0 => c
  | 1 => c % 16
  | 2 => c / 16
  | 3 => s.coreCount
  | 4 => s.gridW
  | 5 => 16
  | 6 => match s.image with | some i => i.moduleCount | none => 0
  | 7 => s.rank
  | 8 => match s.image with | some i => i.numericMode | none => 0
  | 9 => match s.image with | some i => i.lookahead | none => 0
  | 10 => match s.image with | some i => i.period | none => 0
  | _ => (s.core c).role

def doParam (f : ParamF) (c : Nat) (s : State) : State := putS s c f.sd 1 (BitVec.ofNat 64 (paramVal f.num.toNat c s))

/-! ### The rows -/

def execNop (c : Nat) (slot : Slot) (h : Hdr) (s : State) : Out State :=
  let op : SlotOp := match slot with
    | .ct => .ct h .nop | .mx => .mx h .nop | .vx => .vx h .nop | .ls => .ls h .nop | .mv => .mv h .nop | .qx => .qx h .nop
  onCore s c (issueSlot s c op none (doNop s))

def execLi (c : Nat) (h : Hdr) (f : LiF) (s : State) : Out State :=
  onCore s c (issueSlot s c (.ct h (.li f)) none (doLi f c s))
def execAdd (c : Nat) (h : Hdr) (f : Alu) (s : State) : Out State :=
  onCore s c (issueSlot s c (.ct h (.add f)) none (doAdd f c s))
def execSub (c : Nat) (h : Hdr) (f : Alu) (s : State) : Out State :=
  onCore s c (issueSlot s c (.ct h (.sub f)) none (doSub f c s))
def execAnd (c : Nat) (h : Hdr) (f : Alu) (s : State) : Out State :=
  onCore s c (issueSlot s c (.ct h (.and f)) none (doAnd f c s))
def execOr (c : Nat) (h : Hdr) (f : Alu) (s : State) : Out State :=
  onCore s c (issueSlot s c (.ct h (.or f)) none (doOr f c s))
def execXor (c : Nat) (h : Hdr) (f : Alu) (s : State) : Out State :=
  onCore s c (issueSlot s c (.ct h (.xor f)) none (doXor f c s))
def execShl (c : Nat) (h : Hdr) (f : Alu) (s : State) : Out State :=
  onCore s c (issueSlot s c (.ct h (.shl f)) none (doShl f c s))
def execShr (c : Nat) (h : Hdr) (f : Alu) (s : State) : Out State :=
  onCore s c (issueSlot s c (.ct h (.shr f)) none (doShr f c s))
def execSra (c : Nat) (h : Hdr) (f : Alu) (s : State) : Out State :=
  onCore s c (issueSlot s c (.ct h (.sra f)) none (doSra f c s))
def execMul (c : Nat) (h : Hdr) (f : Alu) (s : State) : Out State :=
  onCore s c (issueSlot s c (.ct h (.mul f)) (chkMul c s) (doMul f c s))
def execMin (c : Nat) (h : Hdr) (f : Alu) (s : State) : Out State :=
  onCore s c (issueSlot s c (.ct h (.min f)) none (doMin f c s))
def execMax (c : Nat) (h : Hdr) (f : Alu) (s : State) : Out State :=
  onCore s c (issueSlot s c (.ct h (.max f)) none (doMax f c s))
def execCmp (c : Nat) (h : Hdr) (f : CmpF) (s : State) : Out State :=
  onCore s c (issueSlot s c (.ct h (.cmp f)) none (doCmp f c s))
def execBr (c : Nat) (h : Hdr) (f : BrF) (s : State) : Out State :=
  onCore s c (issueSlot s c (.ct h (.br f)) (chkBr f c s) (doBr f c s))
def execLoop (c : Nat) (h : Hdr) (f : LoopF) (s : State) : Out State :=
  onCore s c (issueSlot s c (.ct h (.loop f)) (chkLoop f c s) (doLoop f c s))
def execLoopEnd (c : Nat) (s : State) : Out State := onCore s c (doLoopEnd c s)
def execHalt (c : Nat) (h : Hdr) (s : State) : Out State :=
  onCore s c (issueSlot s c (.ct h .halt) none (doHalt c s))
def execTickrd (c : Nat) (h : Hdr) (sd : BitVec 5) (s : State) : Out State :=
  onCore s c (issueSlot s c (.ct h (.tickrd sd)) none (doTickrd sd c s))
def execGscrd (c : Nat) (h : Hdr) (sd : BitVec 5) (s : State) : Out State :=
  onCore s c (issueSlot s c (.ct h (.gscrd sd)) none (doGscrd sd c s))
def execParam (c : Nat) (h : Hdr) (f : ParamF) (s : State) : Out State :=
  onCore s c (issueSlot s c (.ct h (.param f)) none (doParam f c s))

/-- The check of an enabled CT instruction beyond legality and parity. -/
def ctCheck (c : Nat) (s : State) : CtOp → Option Nat
  | .mul _ => chkMul c s
  | .br f => chkBr f c s
  | .loop f => chkLoop f c s
  | _ => none

/-- The effect of an enabled CT instruction. -/
def ctDo (c : Nat) (s : State) : CtOp → State
  | .nop => doNop s
  | .li f => doLi f c s
  | .add f => doAdd f c s
  | .sub f => doSub f c s
  | .and f => doAnd f c s
  | .or f => doOr f c s
  | .xor f => doXor f c s
  | .shl f => doShl f c s
  | .shr f => doShr f c s
  | .sra f => doSra f c s
  | .mul f => doMul f c s
  | .min f => doMin f c s
  | .max f => doMax f c s
  | .cmp f => doCmp f c s
  | .br f => doBr f c s
  | .loop f => doLoop f c s
  | .halt => doHalt c s
  | .tickrd sd => doTickrd sd c s
  | .gscrd sd => doGscrd sd c s
  | .param f => doParam f c s

end Sys2Proof.Machine
end

