-- ==== Sys2Proof/Machine/LoadStore.lean ====
section
/-! DEFINITION. The LS slot: addresses, loads, stores, address arithmetic (R138 to R141). -/
namespace Sys2Proof.Machine

/-- The base address before rounding (R139). -/
def memBase {w : Nat} (k : Core) (f : MemF w) (unit : Nat) : Int :=
  let b : Int := (k.ra f.ab.toNat).toNat + f.off.toInt * unit
  let as_ : Int := (k.ra f.as.toNat).toNat
  if f.am = 2#2 then b + (k.pass 0 : Int) * as_
  else if f.am = 3#2 then b + (k.pass 0 : Int) * as_ + (k.pass 1 : Int) * ((k.ra (f.as.toNat + 1)).toNat : Int)
  else b

/-- The greatest multiple of `m` that is at most `x`. -/
def clearInt (x : Int) (m : Nat) : Int := x - x % m

/-- The four 64 B lines of a VLD or VST (R139, R140). -/
def vecLines (k : Core) (f : MemF 6) : List Int :=
  let b := memBase k f 64
  if f.am = 1#2 then (List.range 4).map fun i => clearInt (b + (i : Int) * ((k.ra f.as.toNat).toNat : Int)) 64
  else (List.range 4).map fun i => clearInt b 64 + 64 * (i : Int)

/-- The address of an SLD or SST (R139). -/
def sclAddr (k : Core) (f : MemF 5) : Int := clearInt (memBase k f 8) 8

/-- Whether `n` bytes at `x` lie in the working store (R105, R139). -/
def inWs (x : Int) (n : Nat) : Bool := 0 ≤ x && x + n ≤ wsSize

def chkVec (f : MemF 6) (c : Nat) (s : State) : Option Nat :=
  if (vecLines (s.core c) f).all fun x => inWs x 64 then none else some fAddress
def chkScl (f : MemF 5) (c : Nat) (s : State) : Option Nat :=
  if inWs (sclAddr (s.core c) f) 8 then none else some fAddress

/-- VLD (R140): four reads at bank tick t + 1. -/
def doVld (f : MemF 6) (c : Nat) (s : State) : State :=
  let k := s.core c; let t := s.tickOf c
  let xs := vecLines k f
  s.setCore c (k.addOp (.vld f.r.toNat) t 3 .ls
    ((List.range 4).map fun i => (t + 1, (xs.getD i 0).toNat, 64, none, 64 * i)))

/-- VST (R140): four writes at bank tick t + 1. -/
def doVst (f : MemF 6) (c : Nat) (s : State) : State :=
  let k := s.core c; let t := s.tickOf c
  let xs := vecLines k f
  let b := lanesBytes (k.rv f.r.toNat)
  s.setCore c (k.addOp .store t 3 .ls
    ((List.range 4).map fun i => (t + 1, (xs.getD i 0).toNat, 64, some (sub b (64 * i) 64), 64 * i)))

/-- SLD (R141). -/
def doSld (f : MemF 5) (c : Nat) (s : State) : State :=
  let k := s.core c; let t := s.tickOf c
  s.setCore c (k.addOp (.sld f.r.toNat) t 3 .ls [(t + 1, (sclAddr k f).toNat, 8, none, 0)])

/-- SST (R141). -/
def doSst (f : MemF 5) (c : Nat) (s : State) : State :=
  let k := s.core c; let t := s.tickOf c
  s.setCore c (k.addOp .store t 3 .ls [(t + 1, (sclAddr k f).toNat, 8, some (leBytes 8 (k.rs f.r.toNat).toNat), 0)])

/-- An address-register result, visible at t + 1 (R104, R138). -/
def putA (s : State) (c : Nat) (ad : BitVec 4) (x : BitVec 40) : State :=
  s.setCore c ((s.core c).result (.a ad.toNat) (.a x) (s.tickOf c + 1) (s.tickOf c) 3)

def doAadd (f : AAlu) (c : Nat) (s : State) : State :=
  putA s c f.ad ((s.core c).ra f.aa.toNat + (s.core c).asrc f.b)
def doAsub (f : AAlu) (c : Nat) (s : State) : State :=
  putA s c f.ad ((s.core c).ra f.aa.toNat - (s.core c).asrc f.b)
def doAli (ad : BitVec 4) (imm : BitVec 27) (c : Nat) (s : State) : State := putA s c ad (imm.signExtend 40)
def doAset (ad : BitVec 4) (sb : BitVec 5) (c : Nat) (s : State) : State :=
  putA s c ad (((s.core c).rs sb.toNat).setWidth 40)
/-- AGET: the scalar result of the LS slot. -/
def doAget (sd : BitVec 5) (ab : BitVec 4) (c : Nat) (s : State) : State :=
  s.setCore c ((s.core c).result (.s sd.toNat) (.s (((s.core c).ra ab.toNat).setWidth 64)) (s.tickOf c + 1) (s.tickOf c) 3)

def execVld (c : Nat) (h : Hdr) (f : MemF 6) (s : State) : Out State :=
  onCore s c (issueSlot s c (.ls h (.vld f)) (chkVec f c s) (doVld f c s))
def execVst (c : Nat) (h : Hdr) (f : MemF 6) (s : State) : Out State :=
  onCore s c (issueSlot s c (.ls h (.vst f)) (chkVec f c s) (doVst f c s))
def execSld (c : Nat) (h : Hdr) (f : MemF 5) (s : State) : Out State :=
  onCore s c (issueSlot s c (.ls h (.sld f)) (chkScl f c s) (doSld f c s))
def execSst (c : Nat) (h : Hdr) (f : MemF 5) (s : State) : Out State :=
  onCore s c (issueSlot s c (.ls h (.sst f)) (chkScl f c s) (doSst f c s))
def execAadd (c : Nat) (h : Hdr) (f : AAlu) (s : State) : Out State :=
  onCore s c (issueSlot s c (.ls h (.aadd f)) none (doAadd f c s))
def execAsub (c : Nat) (h : Hdr) (f : AAlu) (s : State) : Out State :=
  onCore s c (issueSlot s c (.ls h (.asub f)) none (doAsub f c s))
def execAli (c : Nat) (h : Hdr) (ad : BitVec 4) (imm : BitVec 27) (s : State) : Out State :=
  onCore s c (issueSlot s c (.ls h (.ali ad imm)) none (doAli ad imm c s))
def execAset (c : Nat) (h : Hdr) (ad : BitVec 4) (sb : BitVec 5) (s : State) : Out State :=
  onCore s c (issueSlot s c (.ls h (.aset ad sb)) none (doAset ad sb c s))
def execAget (c : Nat) (h : Hdr) (sd : BitVec 5) (ab : BitVec 4) (s : State) : Out State :=
  onCore s c (issueSlot s c (.ls h (.aget sd ab)) none (doAget sd ab c s))

/-- The check of an enabled LS instruction beyond legality and parity. -/
def lsCheck (c : Nat) (s : State) : LsOp → Option Nat
  | .vld f | .vst f => chkVec f c s
  | .sld f | .sst f => chkScl f c s
  | _ => none

/-- The effect of an enabled LS instruction. -/
def lsDo (c : Nat) (s : State) : LsOp → State
  | .nop => s
  | .vld f => doVld f c s
  | .vst f => doVst f c s
  | .sld f => doSld f c s
  | .sst f => doSst f c s
  | .aadd f => doAadd f c s
  | .asub f => doAsub f c s
  | .ali ad i => doAli ad i c s
  | .aset ad sb => doAset ad sb c s
  | .aget sd ab => doAget sd ab c s

end Sys2Proof.Machine
end

