-- ==== Sys2Proof/Machine/Matrix.lean ====
section
/-! DEFINITION. The MX slot: feed state, MMA and MMAG, accumulators, MOUT, MMODE (R113 to R115, R142 to R152). -/
namespace Sys2Proof

/-- Whether a pair class is a 4-bit one (R74). -/
def PairClass.is4 : PairClass → Bool
  | .f4 | .i4 => true
  | _ => false

/-- Lb (R144). -/
def PairClass.lineBytes : PairClass → Nat
  | .f16 => 128
  | _ => 64

/-- g, the ticks of an MMA's k-group (under R104). -/
def PairClass.g (p : PairClass) (exact : Bool) : Nat :=
  match p with
  | .f16 => if exact then 8 else 2
  | _ => if exact then 2 else 1

end Sys2Proof

namespace Sys2Proof.Machine

/-- clear(u(a[n]), 64). -/
def Core.aLine (k : Core) (n : Nat) : Nat := clearLow (k.ra n).toNat 64

/-- MCFG (R143). ALS and ARS are ignored unless the pair is a 4-bit class; FLS and FRS then keep what they hold (DESIGN CHOICE, log entry
168: nothing but a save image shows them). -/
def doMcfg (f : McfgF) (c : Nat) (s : State) : State :=
  let k := s.core c
  s.setCore c { k with feedCfg :=
    { lfmt := f.lfmt.toNat, rfmt := f.rfmt.toNat, fl := k.aLine f.al.toNat, fr := k.aLine f.ar.toNat
      fls := if f.pair4 then k.aLine f.als.toNat else k.feedCfg.fls, frs := if f.pair4 then k.aLine f.ars.toNat else k.feedCfg.frs
      kc := 0 } }

def FeedCfg.cls (f : FeedCfg) : PairClass := (pairClass f.lfmt f.rfmt).getD .f8

/-- piece_list(j) (R145); `m` is 1 for MMA and 4 for MMAG. -/
def pieceList (f : FeedCfg) (m j : Nat) : List Nat :=
  let kc := f.kc + j
  let lb := f.cls.lineBytes
  let scales := if f.cls.is4 && (j = 0 || kc % 16 = 0) then
      (f.fls + 64 * (kc / 16)) :: (List.range m).map fun i => f.frs + 64 * (m * (kc / 16) + i)
    else []
  scales ++ (List.range (lb / 64)).flatMap fun p =>
    (f.fl + lb * j + 64 * p) :: (List.range m).map fun i => f.fr + lb * (m * j + i) + 64 * p

/-- How many pieces of a k-group's list are scale pieces. -/
def scaleCount (f : FeedCfg) (m j : Nat) : Nat :=
  if f.cls.is4 && (j = 0 || (f.kc + j) % 16 = 0) then 1 + m else 0

/-- Whether every piece of `k` k-groups lies in the working store (R146); addresses rise with the k-group. -/
def feedInWs (f : FeedCfg) (m k : Nat) : Bool :=
  let lb := f.cls.lineBytes
  let last := (f.kc + k - 1) / 16
  f.fl + lb * k ≤ wsSize && f.fr + lb * m * k ≤ wsSize &&
    (!f.cls.is4 || (f.fls + 64 * last + 64 ≤ wsSize && f.frs + 64 * (m * last + m - 1) + 64 ≤ wsSize))

/-- The committed elements of accumulator `a`; an unlisted element is as MCLR leaves it (R94). -/
def Core.accElts (k : Core) (a : Nat) : Map Elt := k.acc.find [] a

/-- Element (i, j) of a table of elements. -/
def eltAt (m : Map Elt) (exact : Bool) (i j : Nat) : Elt := m.find (Elt.clear exact) (64 * i + j)

/-- The working copy of accumulator `a`, if it is open. -/
def Core.workOf (k : Core) (a : Nat) : Option Work :=
  if k.work.has a then some (k.work.find { elts := [], ends := none } a) else none

/-- Whether an MMA or MMAG on accumulator `a` issued at `t` is chained (R114): its copy is open and its chain's occupancy ends
exactly at `t`. -/
def Core.chained (k : Core) (a t : Nat) : Bool := (k.workOf a).isSome && (k.workOf a).bind (·.ends) = some t

/-- The checks of MMA and MMAG (R102, R114, R146, R154): a count of 0 performs nothing; a chain's first instruction reads the committed
accumulator. -/
def chkMatrix (acc m kk : Nat) (c : Nat) (s : State) : Option Nat :=
  let k := s.core c; let t := s.tickOf c
  if kk = 0 then none
  else if (k.workOf acc).isNone && k.parity.contains (.acc acc) then some fRegParity
  else if k.feed.isSome then some fStructural
  else if (k.workOf acc).isSome && !k.chained acc t then some fStructural
  else if !feedInWs k.feedCfg m kk then some fAddress
  else none

/-- MMA and MMAG take the array (R145 to R147): the pointers are latched, the working copy opens or goes on, and the feed state
moves past the instruction's lines. -/
def startFeed (acc : Nat) (sel : Option (List Nat)) (kk : Nat) (c : Nat) (s : State) : State :=
  let k := s.core c
  if kk = 0 then s
  else
    let m := if sel.isSome then 4 else 1
    let cfg := k.feedCfg
    let lb := cfg.cls.lineBytes
    let ticks := cfg.cls.g s.exact * (if sel.isSome then 2 else 1)
    let w := (k.workOf acc).getD { elts := k.accElts acc, ends := none }
    s.setCore c { k with
      feed := some { cfg := cfg, acc := acc, sel := sel, k := kk, ticks := ticks, group := 0, tickIn := 0, todo := []
                     started := false, got := [], lscale := [], rscale := [] }
      work := k.work.put acc { w with ends := none }
      feedCfg := { cfg with fl := cfg.fl + lb * kk, fr := cfg.fr + lb * m * kk, kc := cfg.kc + kk } }

def chkMma (f : MmaF) (c : Nat) (s : State) : Option Nat := chkMatrix f.acc.toNat 1 ((s.core c).cnt f.k) c s
def doMma (f : MmaF) (c : Nat) (s : State) : State := startFeed f.acc.toNat none ((s.core c).cnt f.k) c s

def chkMmag (f : MmagF) (c : Nat) (s : State) : Option Nat := chkMatrix f.acc.toNat 4 ((s.core c).cnt f.k) c s
/-- MMAG latches the selectors of its rows at issue (R115, R147). -/
def doMmag (f : MmagF) (c : Nat) (s : State) : State :=
  let v := (s.core c).rv f.vs.toNat
  startFeed f.acc.toNat (some ((List.range 64).map fun i => (lane v i).toNat % 8)) ((s.core c).cnt f.k) c s

/-! ### The feed (R145) and one k-group -/

/-- The value of element `e` of a line, 4-bit elements by nibble `h` (R144, R61). -/
def feedVal (f : FeedCfg) (fmt : Nat) (line scale : Bytes) (e h : Nat) : Val :=
  match f.cls with
  | .f16 => decodeElem fmt (fld line (2 * e) 2)
  | .f8 | .i8 => decodeElem fmt (line.getD e 0#8).toNat
  | .f4 | .i4 =>
    let b := (line.getD e 0#8).toNat
    blockVal fmt (if h = 0 then b % 16 else b / 16) (scale.getD e 0#8).toNat

/-- The products of one element for a k-group (R74, R75): two for the 4-bit classes. -/
def groupProds (f : FeedCfg) (left lscale right rscale : Bytes) (i j : Nat) : List Val :=
  (List.range (if f.cls.is4 then 2 else 1)).map fun h =>
    prod (feedVal f f.lfmt left lscale i h) (feedVal f f.rfmt right rscale j h)

/-- The elements after one k-group (R76, R77, R115): `rights` has one line for MMA and four for MMAG, a row whose selector is 4 or
more keeps its elements. -/
def groupElts (fd : Feed) (exact : Bool) (elts : Map Elt) (left : Bytes) (rights : List Bytes) : Map Elt :=
  (List.range 4096).map fun e =>
    let i := e / 64; let j := e % 64
    let old := eltAt elts exact i j
    let sel := match fd.sel with | none => 0 | some l => l.getD i 4
    (e, if 4 ≤ sel then old
        else old.step (groupProds fd.cfg left fd.lscale (rights.getD sel []) (fd.rscale.getD sel []) i j))

/-- The piece at place `i` of the k-group's list, as read. -/
def Feed.piece (fd : Feed) (i : Nat) : Bytes := fd.got.foldl (fun b p => if p.1 = i then p.2 else b) []

/-- A k-group whose pieces are all read: its scales, its lines, the new elements; the feed moves to the next k-group. -/
def Feed.finish (fd : Feed) (exact : Bool) (elts : Map Elt) : Feed × Map Elt :=
  let m := if fd.sel.isSome then 4 else 1
  let n0 := scaleCount fd.cfg m fd.group
  let fd := if n0 = 0 then fd
    else { fd with lscale := fd.piece 0, rscale := (List.range m).map fun i => fd.piece (1 + i) }
  let parts := fd.cfg.cls.lineBytes / 64
  let left := (List.range parts).flatMap fun p => fd.piece (n0 + p * (m + 1))
  let rights := (List.range m).map fun i => (List.range parts).flatMap fun p => fd.piece (n0 + p * (m + 1) + 1 + i)
  let elts := groupElts fd exact elts left rights
  ({ fd with group := fd.group + 1, tickIn := 0, todo := [], started := false, got := [] }, elts)

/-- The places of the pieces the feed makes in its current tick (R145). -/
def Feed.places (fd : Feed) : List Nat :=
  let n := (pieceList fd.cfg (if fd.sel.isSome then 4 else 1) fd.group).length
  (List.range n).filter fun x => fd.tickIn * n / fd.ticks ≤ x && x < (fd.tickIn + 1) * n / fd.ticks

/-- The address of place `x` of the current k-group. -/
def Feed.addr (fd : Feed) (x : Nat) : Nat := (pieceList fd.cfg (if fd.sel.isSome then 4 else 1) fd.group).getD x 0

/-- The feed at the start of a bank tick: the places still to be made, deferred ones alone when there are any (R108). -/
def Feed.begin (fd : Feed) : Feed := if fd.started then fd else { fd with todo := fd.places, started := true }

/-- The feed after a bank tick in which every place of its tick has been made: the next tick of the k-group, or the k-group's end. -/
def Feed.next (fd : Feed) (exact : Bool) (elts : Map Elt) : Feed × Map Elt :=
  if fd.todo ≠ [] then (fd, elts)
  else if fd.tickIn + 1 < fd.ticks then ({ fd with tickIn := fd.tickIn + 1, started := false }, elts)
  else fd.finish exact elts

/-! ### Commit and MCLR (R114, R148) -/

/-- The commit of accumulator `a` (R114): the committed value becomes the working copy's. -/
def Core.commitAcc (k : Core) (a : Nat) : Core :=
  match k.workOf a with
  | some w => { k with acc := k.acc.put a w.elts, work := k.work.del a, parity := k.parity.filter fun q => q != .acc a }
  | none => k

/-- Whether accumulator `a` commits by tick `t`: its chain ended, and 6 ticks have passed since (R104). -/
def Core.commitDue (k : Core) (a t : Nat) : Bool :=
  match (k.workOf a).bind (·.ends) with
  | some e => e + 6 ≤ t
  | none => false

/-- ACCUMULATOR_COMMIT: at the end of a chain the committed value becomes the working copy's result. -/
def doCommit (c a : Nat) (s : State) : State :=
  let k := s.core c
  if k.commitDue a (s.tickOf c) then s.setCore c (k.commitAcc a) else s

/-- The accumulators a MASK names. -/
def maskAccs (m : BitVec 4) : List Nat := (List.range 4).filter fun a => m.getLsbD a

def chkMclr (m : BitVec 4) (c : Nat) (s : State) : Option Nat :=
  if (maskAccs m).any fun a => ((s.core c).workOf a).isSome then some fStructural else none

/-- MCLR (R148). -/
def doMclr (m : BitVec 4) (c : Nat) (s : State) : State :=
  let k := s.core c
  s.setCore c { k with
    acc := (maskAccs m).foldl (fun acc a => acc.del a) k.acc
    parity := k.parity.filter fun q => !((maskAccs m).map Reg.acc).contains q }

/-! ### MOUT (R149 to R151) and MMODE (R152) -/

/-- A 64-byte, 128-byte or 256-byte row of plain elements (R151). -/
def rowBytes (fmt : Nat) (xs : List Nat) : Bytes :=
  let n := if fmt = 0 then 4 else if fmt ≤ 2 then 2 else 1
  xs.flatMap fun x => leBytes n x

/-- The converted elements of row `r` of an MOUT (R150). -/
def moutVals (k : Core) (s : State) (f : MoutF) (r : Nat) : List W32 :=
  (List.range 64).map fun j => (eltAt (k.accElts f.acc.toNat) s.exact (f.row0.toNat + r) j).readout

/-- The random words of row `r` (R150). -/
def moutWords (k : Core) (r : Nat) : List Nat :=
  (List.range 64).map fun j => (philox k.mKey (k.mDraw + BitVec.ofNat 32 (16 * r + j / 4)) k.mPos k.mSid (j % 4)).toNat

/-- Row `r` of an MOUT as bytes in the working-store layout of R151. -/
def moutRow (k : Core) (s : State) (f : MoutF) (r : Nat) : Bytes :=
  let fmt := f.fmt.toNat
  if fmt = 8 then (List.range 64).flatMap fun j => (eltAt (k.accElts f.acc.toNat) s.exact (f.row0.toNat + r) j).ls640
  else
    let xs := moutVals k s f r
    let ws := moutWords k r
    let rm := rmOf f.rm.toNat
    if fmt = 6 || fmt = 7 then
      let vs := xs.map val32
      blockRow (quantiseBlock fmt rm (vs.take 32) (ws.take 32)) (quantiseBlock fmt rm (vs.drop 32) (ws.drop 32))
    else if fmt = 0 then rowBytes 0 (xs.map BitVec.toNat)
    else rowBytes fmt (List.zipWith (fun x w => convertTo fmt s.e4m3Nan rm w (val32 x)) xs ws)

/-- The lanes of row `r` in a vector register (R151). -/
def moutLanes (k : Core) (s : State) (f : MoutF) (r : Nat) : List W32 :=
  let fmt := f.fmt.toNat
  let b := moutRow k s f r
  let n := if fmt = 0 then 4 else if fmt ≤ 2 then 2 else 1
  lanes fun j => BitVec.ofNat 32 (fld b (n * j) n)

/-- The bytes of a row (R151). -/
def moutBytes (fmt : Nat) : Nat := if fmt = 0 then 256 else if fmt ≤ 2 then 128 else if fmt = 8 then 5120 else 64

/-- EA_r (R151). -/
def moutAddr (k : Core) (f : MoutF) (r : Nat) : Nat := k.aLine f.d.toNat + r * 64 * 2 ^ f.pitch.toNat

/-- The checks of MOUT (R149 to R151). -/
def chkMout (f : MoutF) (c : Nat) (s : State) : Option Nat :=
  let k := s.core c
  if k.unitBusy unitReadout (s.tickOf c) then some fStructural
  else if f.fmt = 8#4 && (List.range (64 * f.rows)).any fun e =>
      (eltAt (k.accElts f.acc.toNat) s.exact (f.row0.toNat + e / 64) (e % 64)).overflows then some fLongOverflow
  else if f.dst && (List.range f.rows).any fun r => wsSize < moutAddr k f r + moutBytes f.fmt.toNat then some fAddress
  else none

/-- The pieces of an MOUT to the working store (R104, R151): one write per 64 B of row `r` at bank tick t + 4 + r; LS640 rows take
20 ticks of 4 pieces each. A piece's place rises with the row, so that of pieces at one address the later row's is made last. -/
def moutPieces (k : Core) (s : State) (f : MoutF) (t : Nat) : List (Nat × Nat × Nat × Option Bytes × Nat) :=
  (List.range f.rows).flatMap fun r =>
    let b := moutRow k s f r
    let a := moutAddr k f r
    (List.range (moutBytes f.fmt.toNat / 64)).map fun i =>
      ((if f.fmt = 8#4 then t + 4 + 20 * r + i / 4 else t + 4 + r), a + 64 * i, 64, some (sub b (64 * i) 64),
       moutBytes f.fmt.toNat * r + 64 * i)

/-- MOUT (R149 to R151): n rows, or 20 n ticks for LS640, on the readout port; DRAW advances under stochastic rounding. -/
def doMout (f : MoutF) (c : Nat) (s : State) : State :=
  let k := s.core c; let t := s.tickOf c
  let n := f.rows
  let k1 := k.useUnit unitReadout t (if f.fmt = 8#4 then 20 * n else n)
  let k2 := if f.rm = 2#2 then { k1 with mDraw := k1.mDraw + BitVec.ofNat 32 (16 * n) } else k1
  s.setCore c
    (if f.dst then k2.addOp .store t 1 .mout (moutPieces k s f t)
     else (List.range n).foldl
       (fun q r => q.result (.v (f.d.toNat + r)) (.v (moutLanes k s f r)) (t + 4 + r) t 1) k2)

/-- MMODE (R152). -/
def doMmode (f : MmodeF) (c : Nat) (s : State) : State :=
  let k := s.core c
  s.setCore c { k with
    mKey := k.rs f.skey.toNat, mPos := (k.rs f.spos.toNat).setWidth 32, mSid := k.rs f.ssid.toNat
    mDraw := (k.rs f.sdrw.toNat).setWidth 32 }

def execMcfg (c : Nat) (h : Hdr) (f : McfgF) (s : State) : Out State :=
  onCore s c (issueSlot s c (.mx h (.mcfg f)) none (doMcfg f c s))
def execMma (c : Nat) (h : Hdr) (f : MmaF) (s : State) : Out State :=
  onCore s c (issueSlot s c (.mx h (.mma f)) (chkMma f c s) (doMma f c s))
def execMmag (c : Nat) (h : Hdr) (f : MmagF) (s : State) : Out State :=
  onCore s c (issueSlot s c (.mx h (.mmag f)) (chkMmag f c s) (doMmag f c s))
def execAccumulatorCommit (c a : Nat) (s : State) : Out State := onCore s c (doCommit c a s)
def execMclr (c : Nat) (h : Hdr) (m : BitVec 4) (s : State) : Out State :=
  onCore s c (issueSlot s c (.mx h (.mclr m)) (chkMclr m c s) (doMclr m c s))
def execMout (c : Nat) (h : Hdr) (f : MoutF) (s : State) : Out State :=
  onCore s c (issueSlot s c (.mx h (.mout f)) (chkMout f c s) (doMout f c s))
def execMmode (c : Nat) (h : Hdr) (f : MmodeF) (s : State) : Out State :=
  onCore s c (issueSlot s c (.mx h (.mmode f)) none (doMmode f c s))

/-- The check of an enabled MX instruction beyond legality and parity. -/
def mxCheck (c : Nat) (s : State) : MxOp → Option Nat
  | .mma f => chkMma f c s
  | .mmag f => chkMmag f c s
  | .mclr m => chkMclr m c s
  | .mout f => chkMout f c s
  | _ => none

/-- The effect of an enabled MX instruction. -/
def mxDo (c : Nat) (s : State) : MxOp → State
  | .nop => s
  | .mcfg f => doMcfg f c s
  | .mma f => doMma f c s
  | .mmag f => doMmag f c s
  | .mclr m => doMclr m c s
  | .mout f => doMout f c s
  | .mmode f => doMmode f c s

end Sys2Proof.Machine
end

