-- ==== Sys2Proof/Machine/Mesh.lean ====
section
/-! DEFINITION. Paths over the mesh: hops, spacings, delays, arrival ports (R91, R117 to R123, R229, R231). -/
namespace Sys2Proof.Machine

/-- One hop: the router it leaves, the direction (0 west, 1 east, 2 south, 3 north), its lane, its spacing σ, and whether it is the
edge lane into (or, on a landing, out of) an endpoint. -/
structure Hop where
  x : Nat
  y : Nat
  dir : Nat
  lane : Bool
  spacing : Nat
  edge : Bool
deriving DecidableEq, Repr

/-- The crossing weight between columns `x` and `x + 1` (R91). -/
def weightX (x : Nat) : Nat := if x / 2 = (x + 1) / 2 then 0 else 2
/-- The crossing weight between rows `y` and `y + 1` (R91). -/
def weightY (y : Nat) : Nat := if y / 2 = (y + 1) / 2 then 0 else 1

/-- `n` hops east or west from column `x` in row `y`; `i` counts the east–west hops for EWLANES. -/
def hopsX (y ew : Nat) (east : Bool) : Nat → Nat → Nat → List Hop
  | 0, _, _ => []
  | n + 1, x, i =>
    let w := if east then weightX x else weightX (x - 1)
    ⟨x, y, if east then 1 else 0, bit ew i, 1 + 2 * w, false⟩ :: hopsX y ew east n (if east then x + 1 else x - 1) (i + 1)

/-- `n` hops north or south from row `y` in column `x`. -/
def hopsY (x : Nat) (north : Bool) : Nat → Nat → List Hop
  | 0, _ => []
  | n + 1, y =>
    let w := if north then weightY y else weightY (y - 1)
    ⟨x, y, if north then 3 else 2, false, 1 + 2 * w, false⟩ :: hopsY x north n (if north then y + 1 else y - 1)

/-- |a − b|. -/
def dist (a b : Nat) : Nat := if a ≤ b then b - a else a - b

/-- The hops from core `c` to core `d` (R118): x first or y first. -/
def coreHops (c d ew : Nat) (yFirst : Bool) : List Hop :=
  let x0 := c % 16; let y0 := c / 16; let x1 := d % 16; let y1 := d / 16
  if yFirst then hopsY x0 (y0 < y1) (dist y0 y1) y0 ++ hopsX y1 ew (x0 < x1) (dist x0 x1) x0 0
  else hopsX y0 ew (x0 < x1) (dist x0 x1) x0 0 ++ hopsY x1 (y0 < y1) (dist y0 y1) y0

/-- The edge of an endpoint as a direction (R123, R229): controllers 0 to 17 west, 18 to 35 east, link ports north, the rest south. -/
def epEdge (e : Nat) : Nat := if e < 18 then 0 else if e < 36 then 1 else if e < 52 then 3 else 2

/-- The edge core a core reaches in direction `dir` on a grid of width `w` (R118). -/
def edgeCore (w c dir : Nat) : Nat :=
  match dir with
  | 0 => c / 16 * 16
  | 1 => c / 16 * 16 + (w - 1)
  | 2 => c % 16
  | _ => 240 + c % 16

/-- The edge lane of an edge (R123): spacing 4 west and east, 2 north and south. -/
def edgeHop (w c dir : Nat) (lane : Bool) : Hop :=
  let e := edgeCore w c dir
  ⟨e % 16, e / 16, dir, lane, if dir < 2 then 4 else 2, true⟩

/-- The hops of a route from core `c` (R118, R119, R123). -/
def Route.hops (r : Route) (w c : Nat) : List Hop :=
  if r.ep then
    let dir := epEdge r.dest
    coreHops c (edgeCore w c dir) r.ewLanes false ++ [edgeHop w c dir r.edgeLane]
  else coreHops c r.dest r.ewLanes r.yFirst

/-- The cores whose routers a unit of the route passes, its source and a destination core among them (R118, R122). -/
def Route.path (r : Route) (w c : Nat) : List Nat :=
  ((r.hops w c).map fun h => h.y * 16 + h.x) ++ (if r.ep then [] else [r.dest])

/-- The cores whose routers a landing passes from the edge `dir` to core `c`: R118's path in reverse. -/
def landPath (w dir c : Nat) : List Nat :=
  edgeCore w c dir :: ((coreHops c (edgeCore w c dir) 0 false).map fun h => h.y * 16 + h.x).reverse

/-- The route delay D (R119). -/
def delayOf (hs : List Hop) : Nat := hs.foldl (fun t h => t + h.spacing) 0

/-- The port at which a unit arrives by its last hop (R174): a unit that travels east comes in at the west side. -/
def arrivalPort (hs : List Hop) : Nat :=
  match hs.getLast? with
  | none => 0
  | some h =>
    match h.dir with
    | 0 => if h.lane then 3 else 2
    | 1 => if h.lane then 5 else 4
    | 2 => 0
    | _ => 1

/-- The reverse of a hop between two cores, as the mirror route uses it (R173): the same link the other way, the same lane. -/
def Hop.mirror (h : Hop) : Hop :=
  match h.dir with
  | 0 => { h with x := h.x - 1, dir := 1 }
  | 1 => { h with x := h.x + 1, dir := 0 }
  | 2 => { h with y := h.y - 1, dir := 3 }
  | _ => { h with y := h.y + 1, dir := 2 }

/-- The route that number `rt` names in core `c`, if the image loaded one (R118). -/
def State.route (s : State) (c rt : Nat) : Option Route :=
  match s.image with
  | none => none
  | some i => if i.routes.has (c * 256 + rt) then
      some (i.routes.find { ep := false, yFirst := false, edgeLane := false, mirror := false, dest := 0, queue := 0
                            phase := 0, ewLanes := 0 } (c * 256 + rt)) else none

/-- P of the loaded image; 1 without one. -/
def State.period (s : State) : Nat := match s.image with | some i => max 1 i.period | none => 1

/-- R118's check at issue: the route is not empty and starts on its phase. -/
def State.routeOk (s : State) (c rt : Nat) : Bool :=
  match s.route c rt with
  | some r => (s.tickOf c + 2) % s.period = r.phase
  | none => false

end Sys2Proof.Machine
end

