-- ==== Sys2Proof/Machine/Mover.lean ====
section
/-! DEFINITION. The MV slot: stacked-store movers, mesh sends and receives, GATH (R170 to R176). -/
namespace Sys2Proof.Machine

/-- The bytes of a slice (R171). -/
def sliceSize : Nat := 0x6000000

/-- The linear address of offset `o` of slice `c` (R419). -/
def ssAddr (c o : Nat) : Nat := c * sliceSize + o

/-- Whether the ranges cover `[p, e)`, each byte in at least one of them (R235). -/
def covered (rs : List StackRange) (p e : Nat) : Nat → Bool
  | 0 => e ≤ p
  | n + 1 =>
    e ≤ p ||
      match rs.find? fun r => r.offLo ≤ p && p < r.offHi with
      | some r => covered rs r.offHi e n
      | none => false

/-- Whether core `c` may read or write `n` bytes at offset `o` of a slice (R171, R235). -/
def State.stackOk (s : State) (c slice o n : Nat) (write : Bool) : Bool :=
  s.hasCore slice &&
    match s.image with
    | none => false
    | some i =>
      let rs := i.stack.filter fun r =>
        (r.core = 255 || r.core = c) && r.sliceLo ≤ slice && slice ≤ r.sliceHi && !(write && r.ro)
      covered rs o (o + n) rs.length

/-- The slice and offset of a stacked address; none when bits [39:35] are not 0 (R171). -/
def stackAddr (a : BitVec 40) : Option (Nat × Nat) :=
  if a.toNat / 2 ^ 35 = 0 then some (a.toNat / 2 ^ 27, a.toNat % 2 ^ 27) else none

/-- clear(offset, 128) of a stacked offset and clear(u(a), 128) of a working-store address. -/
def line128 (x : Nat) : Nat := clearLow x 128

/-- The checks of SSR and SSW (R118, R171 to R173): an empty route, then the addresses, then the route's phase. -/
def chkSs (f : SsF) (write : Bool) (c : Nat) (s : State) : Option Nat :=
  let k := s.core c
  let ws := line128 (k.ra f.aw.toNat).toNat
  if f.rem && (s.route c f.rt.toNat).isNone then some fMeshPhase
  else
    match stackAddr (k.ra f.as.toNat) with
    | none => some fAddress
    | some (slice, off) =>
      let n := 128 * f.nl.toNat
      if !s.stackOk c slice (line128 off) n write || wsSize < ws + n then some fAddress
      else if !f.rem then (if slice = c then none else some fAddress)
      else
        match s.route c f.rt.toNat with
        | none => some fMeshPhase
        | some r =>
          if slice = c || r.ep || r.dest ≠ slice then some fAddress
          else if s.routeOk c f.rt.toNat then none else some fMeshPhase

/-- h + 2c of the route an access names (R119). -/
def State.routeDelay (s : State) (c rt : Nat) : Nat :=
  match s.route c rt with
  | some r => delayOf (r.hops s.gridW c)
  | none => 0

/-- A stacked line of an access of core `c`. -/
def ssLineOf (slice tick rank t c op off : Nat) (write : Option Bytes) (i : Nat) : SsLine :=
  { slice := slice, tick := tick, rank := rank, issue := t, core := c, op := op, off := off, write := write, line := i, defers := 0 }

/-- Adds an operation that waits for stacked lines. -/
def Core.addLineOp (k : Core) (kind : OpKind) (issue n : Nat) : Core :=
  { k with nextOp := k.nextOp + 1
           ops := k.ops.put k.nextOp { kind := kind, issue := issue, slot := 4, left := n, delay := 0, data := [] } }

/-- SSR (R172, R173): own lines at stacked bank tick t + 4; a remote line at t + 4 + h + 2c, its data back on the mirror. -/
def doSsr (f : SsF) (c : Nat) (s : State) : State :=
  let k := s.core c; let t := s.tickOf c
  let ws := line128 (k.ra f.aw.toNat).toNat
  match stackAddr (k.ra f.as.toNat) with
  | none => s
  | some (slice, off) =>
    let o := line128 off
    if f.rem then
      let d := s.routeDelay c f.rt.toNat
      { s.setCore c (k.addLineOp (.ssrRemote ws) t 1) with
        ssLines := s.ssLines ++ [ssLineOf slice (t + 4 + d) 1 t c k.nextOp o none 0] }
    else
      { s.setCore c (k.addLineOp (.ssrOwn ws f.nl.toNat) t f.nl.toNat) with
        ssLines := s.ssLines ++ (List.range f.nl.toNat).map fun i => ssLineOf c (t + 4) 2 t c k.nextOp (o + 128 * i) none i }

/-- SSW (R172, R173): the working-store reads at t + 1; the lines follow when they are made. -/
def doSsw (f : SsF) (c : Nat) (s : State) : State :=
  let k := s.core c; let t := s.tickOf c
  let ws := line128 (k.ra f.aw.toNat).toNat
  match stackAddr (k.ra f.as.toNat) with
  | none => s
  | some (slice, off) =>
    let o := line128 off
    s.setCore c (k.addOp
      (if f.rem then .sswRemote slice o (t + 4 + s.routeDelay c f.rt.toNat) else .sswOwn o f.nl.toNat)
      t 4 .outbound (readRows (t + 1) ws (2 * f.nl.toNat)))

/-- The address of an MSEND (R174). -/
def msendAddr (k : Core) (f : MsendF) : Int :=
  let x : Int := (k.ra f.aw.toNat).toNat + f.off.toInt * 128
  x - x % 128

def chkMsend (f : MsendF) (c : Nat) (s : State) : Option Nat :=
  let a := msendAddr (s.core c) f
  if !s.routeOk c f.rt.toNat then some fMeshPhase
  else if 0 ≤ a && a + 128 ≤ wsSize then none else some fAddress

/-- MSEND (R174): two reads at t + 1; the unit is sent when both are made. -/
def doMsend (f : MsendF) (c : Nat) (s : State) : State :=
  let k := s.core c; let t := s.tickOf c
  s.setCore c (k.addOp (.msend f.rt.toNat) t 4 .outbound (readRows (t + 1) (msendAddr k f).toNat 2))

/-- The unit that arrives at a port in tick `t` (R120). -/
def Core.unitAt (k : Core) (port t : Nat) : Option Bytes :=
  if k.ports.has port then (match k.ports.find (0, []) port with | (d, b) => if d = t then some b else none) else none

def chkMrecv (port : BitVec 3) (aw : BitVec 4) (c : Nat) (s : State) : Option Nat :=
  let k := s.core c
  if (k.unitAt port.toNat (s.tickOf c)).isNone then some fMeshEmpty
  else if wsSize < line128 (k.ra aw.toNat).toNat + 128 then some fAddress else none

/-- MRECV (R120, R174): takes the unit and writes it as two pieces at t + 1. -/
def doMrecv (port : BitVec 3) (aw : BitVec 4) (c : Nat) (s : State) : State :=
  let k := s.core c; let t := s.tickOf c
  match k.unitAt port.toNat t with
  | none => s
  | some b =>
    s.setCore c ({ k with ports := k.ports.del port.toNat }.addOp .store t 4 .inbound
      (writeRows (t + 1) (line128 (k.ra aw.toNat).toNat) 2 (padTo 128 b)))

/-- Whether a lane of a GATH names an element it may read, or none (R176). -/
def gathOk (s : State) (c : Nat) (x : W32) : Bool :=
  x = 0xFFFFFFFF#32 || (x.toNat % 4 = 0 && x.toNat < 2 ^ 27 && s.stackOk c c x.toNat 4 false)

def chkGath (va : BitVec 6) (c : Nat) (s : State) : Option Nat :=
  let k := s.core c
  if k.unitBusy unitGather (s.tickOf c) then some fStructural
  else if (List.range 64).all fun l => gathOk s c (lane (k.rv va.toNat) l) then none else some fAddress

/-- GATH (R112, R176): the gather path for 64 ticks, one element a tick from t + 4 on. -/
def doGath (vd va : BitVec 6) (c : Nat) (s : State) : State :=
  let k := s.core c; let t := s.tickOf c
  s.setCore c { k.useUnit unitGather t 64 with
    gather := k.gather ++ [{ vd := vd.toNat, addrs := k.rv va.toNat, issue := t, got := [] }] }

def execSsr (c : Nat) (h : Hdr) (f : SsF) (s : State) : Out State :=
  onCore s c (issueSlot s c (.mv h (.ssr f)) (chkSs f false c s) (doSsr f c s))
def execSsw (c : Nat) (h : Hdr) (f : SsF) (s : State) : Out State :=
  onCore s c (issueSlot s c (.mv h (.ssw f)) (chkSs f true c s) (doSsw f c s))
def execMsend (c : Nat) (h : Hdr) (f : MsendF) (s : State) : Out State :=
  onCore s c (issueSlot s c (.mv h (.msend f)) (chkMsend f c s) (doMsend f c s))
def execMrecv (c : Nat) (h : Hdr) (port : BitVec 3) (aw : BitVec 4) (s : State) : Out State :=
  onCore s c (issueSlot s c (.mv h (.mrecv port aw)) (chkMrecv port aw c s) (doMrecv port aw c s))
def execGath (c : Nat) (h : Hdr) (vd va : BitVec 6) (s : State) : Out State :=
  onCore s c (issueSlot s c (.mv h (.gath vd va)) (chkGath va c s) (doGath vd va c s))

/-- The check of an enabled MV instruction beyond legality and parity. -/
def mvCheck (c : Nat) (s : State) : MvOp → Option Nat
  | .nop => none
  | .ssr f => chkSs f false c s
  | .ssw f => chkSs f true c s
  | .msend f => chkMsend f c s
  | .mrecv p a => chkMrecv p a c s
  | .gath _ va => chkGath va c s

/-- The effect of an enabled MV instruction. -/
def mvDo (c : Nat) (s : State) : MvOp → State
  | .nop => s
  | .ssr f => doSsr f c s
  | .ssw f => doSsw f c s
  | .msend f => doMsend f c s
  | .mrecv p a => doMrecv p a c s
  | .gath d a => doGath d a c s

end Sys2Proof.Machine
end

