-- ==== Sys2Proof/Machine/Queue.lean ====
section
/-! DEFINITION. The QX slot: pushes, armed waits, queue state (R177 to R183). -/
namespace Sys2Proof.Machine

/-- The depth of a queue (R215, R388). -/
def QKind.depth : QKind → Nat
  | .farRead | .farWrite => 16
  | .hostWrite => 8
  | .fabricSend => 32
  | .fabricReceive => 0
  | .step => 2

/-- Whether a kind takes pushes (R178, R179). -/
def QKind.pushes : QKind → Bool
  | .farRead | .farWrite | .fabricSend | .hostWrite => true
  | .fabricReceive | .step => false

/-- TS_LAST KIND (R178). -/
def QKind.waitKind : QKind → WaitKind
  | .farRead => .farRead
  | .farWrite => .farWrite
  | .fabricSend | .fabricReceive => .fabricReceive
  | .hostWrite => .hostWrite
  | .step => .stepQueue

/-- PUSHED − GATED modulo 2³². -/
def Queue.inUse (q : Queue) : Nat := (q.pushed - q.gated).toNat

/-- The TYPE 1 entries of a queue: the transfers a fabric-receive queue expects, in order. -/
def Queue.expects (q : Queue) : List RangeEnt := q.ranges.filter fun e => e.type = 1

/-- Whether a far request lies inside a far range bound to the queue (R179, R207, R233). -/
def Queue.farIn (q : Queue) (s : State) (addr len : Nat) : Bool :=
  let r := addr / 2 ^ 44; let o := addr % 2 ^ 44
  addr < 2 ^ 48 && addr % 64 = 0 && (s.far.regions.find .init r).valid &&
    o + len ≤ (s.far.regions.find .init r).size * 65536 &&
    q.ranges.any fun e => e.type = 0 && e.region = r && e.offset ≤ o && o + len ≤ e.offset + e.length

/-- Whether a host-write request lies inside a host-window span of the queue (R179, R233). -/
def Queue.hostIn (q : Queue) (o len : Nat) : Bool :=
  q.ranges.any fun e => e.type = 2 && e.offset ≤ o && o + len ≤ e.offset + e.length

/-- Check 4 of R179, with R382's for transfer ids. -/
def Queue.reqOk (q : Queue) (s : State) (a : W64) (len : Nat) : Bool :=
  len % 128 = 0 && 128 ≤ len && len ≤ 2 ^ 20 &&
    match q.kind with
    | .farRead | .farWrite => q.farIn s a.toNat len
    | .fabricSend => (match s.image with | some i => a.toNat % 2 ^ 18 < i.moduleCount && a.toNat / 2 ^ 32 % 65536 < 0xFF00 | none => false)
    | .hostWrite => q.hostIn a.toNat len
    | .fabricReceive | .step => false

/-- The checks of QPUSH in their order (R179). -/
def chkQpush (f : QpushF) (c : Nat) (s : State) : Option Nat :=
  let k := s.core c
  let h := f.q.toNat
  let q := s.queue c h
  if !s.bound c h then some fBadQueue
  else if !q.kind.pushes then some fQueueKind
  else if q.kind.depth ≤ q.inUse then some fQueueFull
  else if q.reqOk s (k.rs f.sa.toNat) ((k.rs f.sb.toNat).toNat % 2 ^ 32) then none else some fAddress

/-- QPUSH (R179): the request enters, PUSHED rises by 1; a stopping job's endpoints accept none (R488). -/
def doQpush (f : QpushF) (c : Nat) (s : State) : State :=
  let k := s.core c
  let h := f.q.toNat
  let q := s.queue c h
  let r : QReq := { seq := q.done + q.reqs.length + 1, addr := k.rs f.sa.toNat, len := (k.rs f.sb.toNat).toNat % 2 ^ 32
                    accepted := [], left := 0, data := [], got := 0, sent := 0
                    mode := none, tid := 0 }
  s.setQueue c h { q with
    pushed := q.pushed + 1#32
    reqs := if s.stop.isSome then q.reqs else q.reqs ++ [r] }

/-- N of a QARM (R181). -/
def qarmN (k : Core) (f : QarmF) : W32 :=
  match f.n with
  | .imm n => n.setWidth 32
  | .reg sn => (k.rs sn.toNat).setWidth 32

/-- The checks of QARM in their order (R181). -/
def chkQarm (f : QarmF) (c : Nat) (s : State) : Option Nat :=
  let k := s.core c
  let h := f.q.toNat
  let q := s.queue c h
  if !s.bound c h then some fBadQueue
  else if k.waits.has f.w.toNat then some fWaitState
  else if q.kind.pushes && (q.pushed - q.at_).toNat < (qarmN k f).toNat then some fWaitState
  else none

/-- QARM (R181): the target is AT + N, and AT takes it; the gate falls 9 ticks later. -/
def doQarm (f : QarmF) (c : Nat) (s : State) : State :=
  let k := s.core c
  let h := f.q.toNat
  let q := s.queue c h
  let target := q.at_ + qarmN k f
  (s.setQueue c h { q with at_ := target }).setCore c { k with
    waits := k.waits.put f.w.toNat { queue := h, target := target, armTick := s.tickOf c, passed := false } }

/-- L of the loaded image (R29). -/
def State.lookahead (s : State) : Nat := match s.image with | some i => i.lookahead | none => 0

/-- The checks of QWAIT (R182). -/
def chkQwait (w : BitVec 3) (c : Nat) (s : State) : Option Nat :=
  let k := s.core c
  if !k.waits.has w.toNat then some fWaitUnarmed
  else if s.tickOf c < (k.waits.find { queue := 0, target := 0#32, armTick := 0, passed := false } w.toNat).armTick + s.lookahead then
    some fWaitEarly
  else none

/-- QWAIT (R182): the slot is free. -/
def doQwait (w : BitVec 3) (c : Nat) (s : State) : State :=
  s.setCore c { s.core c with waits := (s.core c).waits.del w.toNat }

def chkQstat (f : QstatF) (c : Nat) (s : State) : Option Nat := if s.bound c f.q.toNat then none else some fBadQueue

/-- The value QSTAT returns (R183). -/
def qstatVal (f : QstatF) (q : Queue) : W64 :=
  match f.sel.toNat with
  | 0 => q.gated.setWidth 64
  | 1 => q.at_.setWidth 64
  | 2 => q.pushed.setWidth 64
  | _ => if q.kind.pushes then BitVec.ofNat 64 (q.kind.depth - q.inUse) else 0#64

/-- QSTAT (R183): visible at t + 2. -/
def doQstat (f : QstatF) (c : Nat) (s : State) : State :=
  let t := s.tickOf c
  s.setCore c ((s.core c).result (.s f.sd.toNat) (.s (qstatVal f (s.queue c f.q.toNat))) (t + 2) t 5)

def execQpush (c : Nat) (h : Hdr) (f : QpushF) (s : State) : Out State :=
  onCore s c (issueSlot s c (.qx h (.qpush f)) (chkQpush f c s) (doQpush f c s))
def execQarm (c : Nat) (h : Hdr) (f : QarmF) (s : State) : Out State :=
  onCore s c (issueSlot s c (.qx h (.qarm f)) (chkQarm f c s) (doQarm f c s))
def execQwait (c : Nat) (h : Hdr) (w : BitVec 3) (s : State) : Out State :=
  onCore s c (issueSlot s c (.qx h (.qwait w)) (chkQwait w c s) (doQwait w c s))
def execQstat (c : Nat) (h : Hdr) (f : QstatF) (s : State) : Out State :=
  onCore s c (issueSlot s c (.qx h (.qstat f)) (chkQstat f c s) (doQstat f c s))

/-- The check of an enabled QX instruction beyond legality and parity. -/
def qxCheck (c : Nat) (s : State) : QxOp → Option Nat
  | .nop => none
  | .qpush f => chkQpush f c s
  | .qarm f => chkQarm f c s
  | .qwait w => chkQwait w c s
  | .qstat f => chkQstat f c s

/-- The effect of an enabled QX instruction. -/
def qxDo (c : Nat) (s : State) : QxOp → State
  | .nop => s
  | .qpush f => doQpush f c s
  | .qarm f => doQarm f c s
  | .qwait w => doQwait w c s
  | .qstat f => doQstat f c s

end Sys2Proof.Machine
end

