-- ==== Sys2Proof/Machine/Functions.lean ====
section
/-! DEFINITION. The correctly rounded functions of VFN (R88), computed in fixed point far beyond FP32 and rounded once. -/
namespace Sys2Proof.Machine

/-- Fixed point: an integer `n` stands for `n * 2^-fxBits`. -/
def fxBits : Nat := 420

/-- π in units of 2⁻⁸⁰⁰, rounded down. -/
def piFx : Int :=
    (((0x3243F6A88) * 2 ^ 256 +
    0x85A308D313198A2E03707344A4093822299F31D0082EFA98EC4E6C89452821E6) * 2 ^ 256 +
    0x38D01377BE5466CF34E90C6CC0AC29B7C97C50DD3F84D5B5B54709179216D5D9) * 2 ^ 256 +
    0x8979FB1BD1310BA698DFB5AC2FFD72DBD01ADFB7B8E1AFED6A267E96BA7C9045

/-- ln 2 in units of 2⁻⁴²⁰, rounded down. -/
def ln2Fx : Int :=
    (0xB17217F7D1CF79ABC9E3B39803F2F6AF40F343267) * 2 ^ 256 +
    0x298B62D8A0D175B8BAAFA2BE7B876206DEBAC98559552FB4AFA1B10ED2EAE35C

/-- The fixed-point product, rounded down. -/
def fxMul (a b : Int) : Int := a * b / (2 ^ fxBits : Nat)

/-- A rational in fixed point, rounded down. -/
def toFx (x : Rat) : Int := (x * ((2 ^ fxBits : Nat) : Rat)).floor

/-- A fixed-point number as a rational. -/
def ofFx (n : Int) : Rat := (n : Rat) / ((2 ^ fxBits : Nat) : Rat)

/-- `n` terms of the exponential series from the term `t` on, whose successor is `t * r / k`. -/
def expTail (r : Int) : Nat → Int → Nat → Int
  | 0, _, _ => 0
  | n + 1, t, k => t + expTail r n (fxMul t r / (k : Int)) (k + 1)

/-- `exp r - 1` for a small fixed-point `r`. -/
def expm1Fx (r : Int) : Int := expTail r 110 r 2

/-- `n` terms of the alternating series of sine and cosine from the term `t` on. -/
def trigTail (r2 : Int) : Nat → Int → Nat → Int
  | 0, _, _ => 0
  | n + 1, t, k => t + trigTail r2 n (-(fxMul t r2 / ((k * (k + 1) : Nat) : Int))) (k + 2)

def sinFx (r : Int) : Int := trigTail (fxMul r r) 60 r 2
def cosFx (r : Int) : Int := trigTail (fxMul r r) 60 (2 ^ fxBits : Nat) 1

/-- `n` terms of `z + z^3/3 + z^5/5 + …` from the power `p = z^k` on. -/
def atanhTail (z2 : Int) : Nat → Int → Nat → Int
  | 0, _, _ => 0
  | n + 1, p, k => p / (k : Int) + atanhTail z2 n (fxMul p z2) (k + 2)

/-- The natural logarithm of a rational `m` in [1, 2). -/
def lnFx (m : Rat) : Int :=
  let z := toFx ((m - 1) / (m + 1))
  2 * atanhTail (fxMul z z) 140 z 1

/-- The integer square root, one result bit a step from bit `k - 1` down. -/
def isqrtLoop (n : Nat) : Nat → Nat → Nat
  | 0, r => r
  | k + 1, r =>
    let t := r + 2 ^ k
    isqrtLoop n k (if t * t ≤ n then t else r)

/-- 2^x for a finite x, to a relative error far below FP32's. -/
def exp2Val (x : Rat) : Rat :=
  if 200 ≤ x then pow2 200
  else if x ≤ -200 then pow2 (-200)
  else
    let n := x.floor
    let f := x - (n : Rat)
    if f = 0 then pow2 n else pow2 n * ofFx ((2 ^ fxBits : Nat) + expm1Fx (fxMul (toFx f) ln2Fx))

/-- log2 x for x > 0. -/
def log2Val (x : Rat) : Rat :=
  let e := ilog2 x
  let m := x / pow2 e
  if m = 1 then (e : Rat) else (e : Rat) + ((lnFx m : Int) : Rat) / ((ln2Fx : Int) : Rat)

/-- 1/√x for x > 0: exact when that is a multiple of 2⁻⁵⁰⁰, else a value strictly between two such multiples. -/
def rsqrtVal (x : Rat) : Rat :=
  let n := (((2 ^ 1000 : Nat) : Rat) / x).floor.toNat
  let r := isqrtLoop n 600 0
  if ((r * r : Nat) : Rat) * x = ((2 ^ 1000 : Nat) : Rat) then (r : Rat) * pow2 (-500)
  else ((2 * r + 1 : Nat) : Rat) * pow2 (-501)

/-- tanh x for x > 0. -/
def tanhVal (x : Rat) : Rat :=
  if 32 ≤ x then 1 - pow2 (-80)
  else
    let n := (2 * x).floor.toNat
    let base := ofFx ((2 ^ fxBits : Nat) + expm1Fx (2 ^ fxBits : Nat))
    let e := if n = 0 then ofFx (expm1Fx (toFx (2 * x)))
      else base ^ n * ofFx ((2 ^ fxBits : Nat) + expm1Fx (toFx (2 * x - (n : Rat)))) - 1
    e / (e + 2)

/-- The quadrant of x and the fixed-point remainder of x by π/2, for x ≥ 0. -/
def quadrant (x : Rat) : Nat × Int :=
  let half : Rat := ((piFx : Int) : Rat) * pow2 (-801)
  let k := (x / half + 1 / 2).floor
  ((k % 4).toNat, toFx (x - (k : Rat) * half))

def sinVal (x : Rat) : Rat :=
  let q := quadrant x
  ofFx (match q.1 with | 0 => sinFx q.2 | 1 => cosFx q.2 | 2 => -sinFx q.2 | _ => -cosFx q.2)

def cosVal (x : Rat) : Rat :=
  let q := quadrant x
  ofFx (match q.1 with | 0 => cosFx q.2 | 1 => -sinFx q.2 | 2 => -cosFx q.2 | _ => sinFx q.2)

def posInf32 : W32 := 0x7F800000#32
def negInf32 : W32 := 0xFF800000#32
def negZero32 : W32 := 0x80000000#32

/-- Below 2⁻⁶⁰ sine and tangent differ from their argument by far less than half a unit in its last place. -/
def nearArg (x : Rat) (y : Rat) : Rat := if x < pow2 (-60) then x else y

/-- exp2 (R88). -/
def fnExp2 : Val → W32
  | .nan => nan32
  | .inf true => 0#32
  | .inf false => posInf32
  | .fin s x => rne32 (exp2Val (if s then -x else x))

/-- log2 (R88). -/
def fnLog2 : Val → W32
  | .nan => nan32
  | .inf true => nan32
  | .inf false => posInf32
  | .fin s x => if x = 0 then negInf32 else if s then nan32 else rne32 (log2Val x)

/-- reciprocal (R88). -/
def fnRecip : Val → W32
  | .nan => nan32
  | .inf s => if s then negZero32 else 0#32
  | .fin s x => if x = 0 then (if s then negInf32 else posInf32) else enc32 (.fin s (1 / x))

/-- reciprocal square root (R88). -/
def fnRsqrt : Val → W32
  | .nan => nan32
  | .inf true => nan32
  | .inf false => 0#32
  | .fin s x => if x = 0 then (if s then negInf32 else posInf32) else if s then nan32 else rne32 (rsqrtVal x)

/-- tanh (R88). -/
def fnTanh : Val → W32
  | .nan => nan32
  | .inf s => if s then 0xBF800000#32 else 0x3F800000#32
  | .fin s x => enc32 (.fin s (if x = 0 then 0 else nearArg x (tanhVal x)))

/-- sin (R88). -/
def fnSin : Val → W32
  | .nan => nan32
  | .inf _ => nan32
  | .fin s x =>
    if x = 0 then enc32 (.fin s 0)
    else
      let y := nearArg x (sinVal x)
      enc32 (.fin (if y < 0 then !s else s) (if y < 0 then -y else y))

/-- cos (R88). -/
def fnCos : Val → W32
  | .nan => nan32
  | .inf _ => nan32
  | .fin _ x => if x = 0 then 0x3F800000#32 else rne32 (if x < pow2 (-60) then 1 else cosVal x)

/-- Function FN of VFN (R164). -/
def vfnLane (fn : Nat) (x : W32) : W32 :=
  match fn with
  | 0 => fnExp2 (val32 x)
  | 1 => fnLog2 (val32 x)
  | 2 => fnRecip (val32 x)
  | 3 => fnRsqrt (val32 x)
  | 4 => fnTanh (val32 x)
  | 5 => fnSin (val32 x)
  | _ => fnCos (val32 x)

end Sys2Proof.Machine
end

