-- ==== Sys2Proof/Machine/Vector.lean ====
section
/-! DEFINITION. The VX slot's lane instructions, conversions and functions (R157 to R164). -/
namespace Sys2Proof.Machine

/-- A vector result of core `c` visible `lat` ticks after issue, on unit `u` for `occ` ticks (R104). -/
def putV (s : State) (c : Nat) (vd : Nat) (lat u occ : Nat) (x : List W32) : State :=
  let t := s.tickOf c
  s.setCore c (((s.core c).result (.v vd) (.v x) (t + lat) t 2).useUnit u t occ)

/-- STRUCTURAL on a busy unit (R102, R185). -/
def chkUnit (u c : Nat) (s : State) : Option Nat :=
  if (s.core c).unitBusy u (s.tickOf c) then some fStructural else none

/-- A lane-by-lane result of two or three operands. -/
def laneMap (k : Core) (f : LaneF) (g : W32 → W32 → W32 → W32) : List W32 :=
  lanes fun l => g (lane (k.rv f.va.toNat) l) (lane (k.rv f.vb.toNat) l) (lane (k.rv f.vc.toNat) l)

def vaddLane (t : Nat) (a b : W32) : W32 := if t = 0 then fadd a b else a + b
def vmulLane (t : Nat) (a b : W32) : W32 := if t = 0 then fmul a b else a * b
def vfmaLane (t : Nat) (a b c : W32) : W32 := if t = 0 then ffma a b c else a * b + c
def vminLane (t : Nat) (a b : W32) : W32 :=
  match t with
  | 0 => fmin a b
  | 1 => if b.toInt < a.toInt then b else a
  | _ => if b.toNat < a.toNat then b else a
def vmaxLane (t : Nat) (a b : W32) : W32 :=
  match t with
  | 0 => fmax a b
  | 1 => if a.toInt < b.toInt then b else a
  | _ => if a.toNat < b.toNat then b else a

def doVadd (f : LaneF) (c : Nat) (s : State) : State :=
  putV s c f.vd.toNat 4 unitPipe 1 (laneMap (s.core c) f fun a b _ => vaddLane f.t.toNat a b)
def doVmul (f : LaneF) (c : Nat) (s : State) : State :=
  putV s c f.vd.toNat 4 unitPipe 1 (laneMap (s.core c) f fun a b _ => vmulLane f.t.toNat a b)
def doVfma (f : LaneF) (c : Nat) (s : State) : State :=
  putV s c f.vd.toNat 4 unitPipe 1 (laneMap (s.core c) f fun a b d => vfmaLane f.t.toNat a b d)
def doVmin (f : LaneF) (c : Nat) (s : State) : State :=
  putV s c f.vd.toNat 2 unitPipe 1 (laneMap (s.core c) f fun a b _ => vminLane f.t.toNat a b)
def doVmax (f : LaneF) (c : Nat) (s : State) : State :=
  putV s c f.vd.toNat 2 unitPipe 1 (laneMap (s.core c) f fun a b _ => vmaxLane f.t.toNat a b)

/-- The lane conditions of a VCMP (R159). -/
def vcmpAt (k : Core) (f : LaneF) (l : Nat) : Bool :=
  vcmpCond f.t.toNat f.cond.toNat (lane (k.rv f.va.toNat) l) (lane (k.rv f.vb.toNat) l)

/-- VCMP (R159): lane masks, and p[PD] from t + 2 when PD is not 0. -/
def doVcmp (f : LaneF) (c : Nat) (s : State) : State :=
  let k := s.core c; let t := s.tickOf c
  let s1 := putV s c f.vd.toNat 2 unitPipe 1 (lanes fun l => if vcmpAt k f l then 0xFFFFFFFF#32 else 0#32)
  s1.setCore c ((s1.core c).result (.p f.pd.toNat) (.p ((List.range 64).any (vcmpAt k f))) (t + 2) t 2)

def doVsel (f : LaneF) (c : Nat) (s : State) : State :=
  putV s c f.vd.toNat 2 unitPipe 1 (laneMap (s.core c) f fun a b d => if d.getLsbD 0 then a else b)

/-- VSHUF (R160). -/
def shufLane (k : Core) (f : ShufF) (l : Nat) : W32 :=
  match f.mode.toNat with
  | 0 => lane (k.rv f.va.toNat) ((lane (k.rv f.vb.toNat) l).toNat % 64)
  | 1 => lane (k.rv f.va.toNat) f.ln.toNat
  | 2 => (k.rs f.sa.toNat).setWidth 32
  | _ => (k.rs f.sa.toNat).setWidth 32 + BitVec.ofNat 32 l
def doVshuf (f : ShufF) (c : Nat) (s : State) : State :=
  putV s c f.vd.toNat 3 unitPipe 1 (lanes (shufLane (s.core c) f))

/-- The node operation of VRED (R86, R161). -/
def redOp (rop t : Nat) (a b : W32) : W32 :=
  match rop with
  | 0 => vaddLane t a b
  | 1 => vminLane t a b
  | _ => vmaxLane t a b
def doVred (f : RedF) (c : Nat) (s : State) : State :=
  let x := vred (redOp f.rop.toNat f.t.toNat) ((s.core c).rv f.va.toNat)
  putV s c f.vd.toNat 12 unitPipe 1 (lanes fun _ => x)

/-- The random word of lane `l` of a VCVT or VQNT (R162). -/
def cvtWord (k : Core) (f : CvtF) (l : Nat) : W32 :=
  laneWord (k.rs f.sk.toNat) ((k.rs f.sp.toNat).extractLsb' 32 32) ((k.rs f.sp.toNat).setWidth 32) (k.rs f.ss.toNat) l

/-- The source value of lane `l` (R162): a 4-bit block format is read in the row layout of R151. -/
def cvtSrc (k : Core) (f : CvtF) (l : Nat) : Val :=
  let sf := f.sf.toNat
  if sf = 6 || sf = 7 then blockRowElem sf ((lanesBytes (k.rv f.va.toNat)).take 64) l
  else decodeElem sf (lane (k.rv f.va.toNat) l).toNat

/-- VCVT (R162). -/
def doVcvt (f : CvtF) (c : Nat) (s : State) : State :=
  let k := s.core c
  putV s c f.vd.toNat 4 unitPipe 1
    (lanes fun l => BitVec.ofNat 32 (convertTo f.df.toNat s.e4m3Nan (rmOf f.rm.toNat) (cvtWord k f l).toNat (cvtSrc k f l)))

/-- VQNT (R163): two blocks in bytes 0 to 63, zeros above; the vector pipe for 2 ticks. -/
def vqntRow (k : Core) (f : CvtF) : Bytes :=
  let vs := (List.range 64).map fun l => val32 (lane (k.rv f.va.toNat) l)
  let ws := (List.range 64).map fun l => (cvtWord k f l).toNat
  let q (a b : List Val) (u v : List Nat) : Bytes :=
    blockRow (quantiseBlock f.sf.toNat (rmOf f.rm.toNat) a u) (quantiseBlock f.sf.toNat (rmOf f.rm.toNat) b v)
  q (vs.take 32) (vs.drop 32) (ws.take 32) (ws.drop 32)
def doVqnt (f : CvtF) (c : Nat) (s : State) : State :=
  putV s c f.vd.toNat 6 unitPipe 2 (bytesLanes (padTo 256 (vqntRow (s.core c) f)))

/-- VFN (R164). -/
def doVfn (f : FnF) (c : Nat) (s : State) : State :=
  let k := s.core c
  putV s c f.vd.toNat 12 unitFn 4 (lanes fun l => vfnLane f.fn.toNat (lane (k.rv f.va.toNat) l))

def execVadd (c : Nat) (h : Hdr) (f : LaneF) (s : State) : Out State :=
  onCore s c (issueSlot s c (.vx h (.vadd f)) (chkUnit unitPipe c s) (doVadd f c s))
def execVmul (c : Nat) (h : Hdr) (f : LaneF) (s : State) : Out State :=
  onCore s c (issueSlot s c (.vx h (.vmul f)) (chkUnit unitPipe c s) (doVmul f c s))
def execVfma (c : Nat) (h : Hdr) (f : LaneF) (s : State) : Out State :=
  onCore s c (issueSlot s c (.vx h (.vfma f)) (chkUnit unitPipe c s) (doVfma f c s))
def execVmin (c : Nat) (h : Hdr) (f : LaneF) (s : State) : Out State :=
  onCore s c (issueSlot s c (.vx h (.vmin f)) (chkUnit unitPipe c s) (doVmin f c s))
def execVmax (c : Nat) (h : Hdr) (f : LaneF) (s : State) : Out State :=
  onCore s c (issueSlot s c (.vx h (.vmax f)) (chkUnit unitPipe c s) (doVmax f c s))
def execVcmp (c : Nat) (h : Hdr) (f : LaneF) (s : State) : Out State :=
  onCore s c (issueSlot s c (.vx h (.vcmp f)) (chkUnit unitPipe c s) (doVcmp f c s))
def execVsel (c : Nat) (h : Hdr) (f : LaneF) (s : State) : Out State :=
  onCore s c (issueSlot s c (.vx h (.vsel f)) (chkUnit unitPipe c s) (doVsel f c s))
def execVshuf (c : Nat) (h : Hdr) (f : ShufF) (s : State) : Out State :=
  onCore s c (issueSlot s c (.vx h (.vshuf f)) (chkUnit unitPipe c s) (doVshuf f c s))
def execVred (c : Nat) (h : Hdr) (f : RedF) (s : State) : Out State :=
  onCore s c (issueSlot s c (.vx h (.vred f)) (chkUnit unitPipe c s) (doVred f c s))
def execVcvt (c : Nat) (h : Hdr) (f : CvtF) (s : State) : Out State :=
  onCore s c (issueSlot s c (.vx h (.vcvt f)) (chkUnit unitPipe c s) (doVcvt f c s))
def execVqnt (c : Nat) (h : Hdr) (f : CvtF) (s : State) : Out State :=
  onCore s c (issueSlot s c (.vx h (.vqnt f)) (chkUnit unitPipe c s) (doVqnt f c s))
def execVfn (c : Nat) (h : Hdr) (f : FnF) (s : State) : Out State :=
  onCore s c (issueSlot s c (.vx h (.vfn f)) (chkUnit unitFn c s) (doVfn f c s))

end Sys2Proof.Machine
end

