-- ==== Sys2Proof/Machine/Select.lean ====
section
/-! DEFINITION. The select engine: VTOPK, VPEN and VDRAW (R165 to R169), and the VX slot as a whole. -/
namespace Sys2Proof.Machine

/-- The canonical form of a value the engine stores (R166). -/
def canon32 (x : W32) : W32 := if (val32 x).isNan then nan32 else x

/-- The candidate order (R166): the greater key first, equal keys by the lower id. -/
def candBefore (a b : W32 × W32) : Bool :=
  ordKey b.1 < ordKey a.1 || (ordKey a.1 = ordKey b.1 && a.2.toNat ≤ b.2.toNat)

/-- Updates the select engine of a core. -/
def setSel (s : State) (c : Nat) (x : Select) : State := s.setCore c { s.core c with sel := x }

/-- Occupies the select engine for `occ` ticks. -/
def useSel (s : State) (c occ : Nat) : State := s.setCore c ((s.core c).useUnit unitSelect (s.tickOf c) occ)

/-- VTOPK INIT (R167). -/
def doTopkInit (f : TopkF) (c : Nat) (s : State) : State :=
  let k := s.core c
  let x := k.rs f.sa.toNat
  let cap := x.toNat % 65536
  useSel (setSel s c { k.sel with
    kcap := min 1024 (max 1 cap), wb := x.extractLsb' 32 32, list := [], seen := [], sel := false }) c 8

/-- Whether a lane is left out of a merge (R166, R167). -/
def mergeSkips (e : Select) (skip : Bool) (id : W32) : Bool :=
  id = 0xFFFFFFFF#32 ||
    (skip && e.wb.toNat ≤ id.toNat && id.toNat < e.wb.toNat + 4096 && e.seen.contains (id.toNat - e.wb.toNat))

/-- VTOPK MERGE (R166, R167): the first KCAP entries of the list and the lanes together. -/
def mergeList (e : Select) (skip : Bool) (vals ids : List W32) : List (W32 × W32) :=
  let new := ((List.range 64).map fun l => (canon32 (lane vals l), lane ids l)).filter fun p => !mergeSkips e skip p.2
  (sortBy candBefore (e.list ++ new)).take e.kcap
def doTopkMerge (f : TopkF) (c : Nat) (s : State) : State :=
  let k := s.core c
  useSel (setSel s c { k.sel with
    list := mergeList k.sel f.skip (k.rv f.va.toNat) (k.rv f.vb.toNat) }) c 8

/-- VTOPK READ (R167): 64 entries from IX on into two registers, visible from t + 16. -/
def doTopkRead (f : TopkF) (c : Nat) (s : State) : State :=
  let k := s.core c; let t := s.tickOf c
  let ix := (k.rs f.sa.toNat).toNat
  let vals := lanes fun l => match k.sel.list[ix + l]? with | some p => p.1 | none => 0xFF800000#32
  let ids := lanes fun l => match k.sel.list[ix + l]? with | some p => p.2 | none => 0xFFFFFFFF#32
  let k := (k.result (.v f.vd.toNat) (.v vals) (t + 16) t 2).result (.v (f.vd.toNat + 1)) (.v ids) (t + 16) t 2
  useSel (s.setCore c k) c 8

/-- Whether a lane of a VPEN is active (R168). -/
def penActive (e : Select) (id cnt : W32) : Bool :=
  id ≠ 0xFFFFFFFF#32 && 1 ≤ cnt.toNat && e.wb.toNat ≤ id.toNat && id.toNat < e.wb.toNat + 4096

/-- y1 of a VPEN lane (R168): quotient for a positive logit, product otherwise, NaN for a bad ρ. -/
def penRep (x rho : W32) : W32 :=
  match val32 x, val32 rho with
  | .nan, _ => nan32
  | _, .nan => nan32
  | _, .inf _ => nan32
  | v, .fin neg r =>
    if neg || r = 0 then nan32
    else
      match v with
      | .inf false => posInf32
      | .fin false a => if a = 0 then fmul x rho else rne32 (a / r)
      | _ => fmul x rho

/-- The exact difference `y - w` rounded once, with NaN and infinities as R84 has them. -/
def subVal32 (y : W32) (w : Val) : W32 :=
  match w with
  | .nan => nan32
  | .inf n => addVal (val32 y) (.inf (!n))
  | .fin n a => addVal (val32 y) (.fin (!n) a)

/-- cnt × α + β, exact (R168). -/
def penWeight (cnt alpha beta : W32) : Val :=
  let p := prod (ofInt cnt.toNat) (val32 alpha)
  match p, val32 beta with
  | .nan, _ => .nan
  | _, .nan => .nan
  | .inf a, .inf b => if a = b then .inf a else .nan
  | .inf a, _ => .inf a
  | _, .inf b => .inf b
  | x, y => let z := x.rat + y.rat; .fin (z < 0) (if z < 0 then -z else z)

/-- One lane of a VPEN (R168). -/
def penLane (e : Select) (x id cnt rho alpha beta : W32) : W32 :=
  if !penActive e id cnt then x
  else
    let y := penRep x rho
    match penWeight cnt alpha beta with
    | .fin n a => if a = 0 then y else subVal32 y (.fin n a)
    | w => subVal32 y w

/-- VPEN (R168): penalised logits, and the listed ids marked seen. -/
def doVpen (f : PenF) (c : Nat) (s : State) : State :=
  let k := s.core c; let t := s.tickOf c
  let x := k.rv f.va.toNat; let ids := k.rv f.vb.toNat; let cn := k.rv f.vc.toNat
  let rho := (k.rs f.sp.toNat).setWidth 32
  let alpha := (k.rs f.sp.toNat).extractLsb' 32 32
  let beta := (k.rs f.sq.toNat).setWidth 32
  let out := lanes fun l => penLane k.sel (lane x l) (lane ids l) (lane cn l) rho alpha beta
  let marks := ((List.range 64).filter fun l => penActive k.sel (lane ids l) (lane cn l)).map fun l =>
    (lane ids l).toNat - k.sel.wb.toNat
  let seen := marks.foldl (fun m x => if m.contains x then m else insertBy (fun a b => a ≤ b) x m) k.sel.seen
  let k := (k.result (.v f.vd.toNat) (.v out) (t + 12) t 2).useUnit unitSelect t 4
  s.setCore c { k with sel := { k.sel with seen := seen } }

/-- VDRAW DRAW (R169). -/
def doDraw (f : DrawF) (c : Nat) (s : State) : State :=
  let k := s.core c
  let sp := k.rs f.sp.toNat
  putV s c f.vd.toNat 14 unitSelect 2
    (lanes fun l => uniform24 (laneWord (k.rs f.sk.toNat) (sp.extractLsb' 32 32) (sp.setWidth 32) (k.rs f.ss.toNat) l))

/-- The first lane of a SELECT whose weight exceeds the threshold (R169). -/
def selectLane (w ids : List W32) (thr : W32) : Option Nat :=
  (List.range 64).find? fun l => lane ids l ≠ 0xFFFFFFFF#32 && flt thr (lane w l)

/-- VDRAW SELECT (R169). -/
def doSelect (f : SelF) (c : Nat) (s : State) : State :=
  let k := s.core c
  let w := k.rv f.va.toNat; let ids := k.rv f.vb.toNat
  let e := k.sel
  let e := if e.sel then e
    else match selectLane w ids (lane (k.rv f.vc.toNat) 0) with
      | some l => { e with sel := true, selId := lane ids l, selIx := l }
      | none => e
  let out := lanes fun l =>
    match l with
    | 0 => if e.sel then e.selId else 0xFFFFFFFF#32
    | 1 => if e.sel then 1#32 else 0#32
    | 2 => if e.sel then BitVec.ofNat 32 e.selIx else 0#32
    | _ => 0#32
  putV (setSel s c e) c f.vd.toNat 14 unitSelect 2 out

/-- VDRAW CLRSEL (R169). -/
def doClrsel (c : Nat) (s : State) : State := useSel (setSel s c { (s.core c).sel with sel := false }) c 2

def execVtopkInit (c : Nat) (h : Hdr) (f : TopkF) (s : State) : Out State :=
  onCore s c (issueSlot s c (.vx h (.topkInit f)) (chkUnit unitSelect c s) (doTopkInit f c s))
def execVtopkMerge (c : Nat) (h : Hdr) (f : TopkF) (s : State) : Out State :=
  onCore s c (issueSlot s c (.vx h (.topkMerge f)) (chkUnit unitSelect c s) (doTopkMerge f c s))
def execVtopkRead (c : Nat) (h : Hdr) (f : TopkF) (s : State) : Out State :=
  onCore s c (issueSlot s c (.vx h (.topkRead f)) (chkUnit unitSelect c s) (doTopkRead f c s))
def execVpen (c : Nat) (h : Hdr) (f : PenF) (s : State) : Out State :=
  onCore s c (issueSlot s c (.vx h (.vpen f)) (chkUnit unitSelect c s) (doVpen f c s))
def execVdrawDraw (c : Nat) (h : Hdr) (f : DrawF) (s : State) : Out State :=
  onCore s c (issueSlot s c (.vx h (.draw f)) (chkUnit unitSelect c s) (doDraw f c s))
def execVdrawSelect (c : Nat) (h : Hdr) (f : SelF) (s : State) : Out State :=
  onCore s c (issueSlot s c (.vx h (.select f)) (chkUnit unitSelect c s) (doSelect f c s))
def execVdrawClrsel (c : Nat) (h : Hdr) (s : State) : Out State :=
  onCore s c (issueSlot s c (.vx h .clrsel) (chkUnit unitSelect c s) (doClrsel c s))

/-- The check of an enabled VX instruction beyond legality and parity (R102). -/
def vxCheck (c : Nat) (s : State) : VxOp → Option Nat
  | .nop => none
  | .vfn _ => chkUnit unitFn c s
  | .topkInit _ | .topkMerge _ | .topkRead _ | .vpen _ | .draw _ | .select _ | .clrsel => chkUnit unitSelect c s
  | _ => chkUnit unitPipe c s

/-- The effect of an enabled VX instruction. -/
def vxDo (c : Nat) (s : State) : VxOp → State
  | .nop => s
  | .vadd f => doVadd f c s
  | .vmul f => doVmul f c s
  | .vfma f => doVfma f c s
  | .vmin f => doVmin f c s
  | .vmax f => doVmax f c s
  | .vcmp f => doVcmp f c s
  | .vsel f => doVsel f c s
  | .vshuf f => doVshuf f c s
  | .vred f => doVred f c s
  | .vcvt f => doVcvt f c s
  | .vqnt f => doVqnt f c s
  | .vfn f => doVfn f c s
  | .topkInit f => doTopkInit f c s
  | .topkMerge f => doTopkMerge f c s
  | .topkRead f => doTopkRead f c s
  | .vpen f => doVpen f c s
  | .draw f => doDraw f c s
  | .select f => doSelect f c s
  | .clrsel => doClrsel c s

end Sys2Proof.Machine
end

