-- ==== Sys2Proof/Machine/Bundle.lean ====
section
/-! DEFINITION. One tick of the cores of a region: banks, stacked lines, gathers, landings, arrivals, results and the issue of the
bundle at pc (R95 to R125, R188 to R193, R230). -/
namespace Sys2Proof.Machine

/-- Lexicographic order of number lists. -/
def lexLe : List Nat → List Nat → Bool
  | [], _ => true
  | _ :: _, [] => false
  | a :: as, b :: bs => a < b || (a == b && lexLe as bs)

/-! ### Working-store banks (R105 to R110) -/

/-- The place of a class in R107's order; MOUT writes rank below feed pieces. -/
def PieceClass.rank : PieceClass → Nat
  | .feed => 0 | .mout => 1 | .ls => 2 | .inbound => 3 | .outbound => 4 | .landing => 5

/-- R107's order: class, deferred first, the older instruction, the lower address. -/
def Piece.key (p : Piece) : List Nat := [p.cls.rank, if p.defers = 0 then 1 else 0, p.issue, p.op, p.addr, p.off]

/-- The bank of an offset (R105). -/
def bankOf (a : Nat) : Nat := a / 64 % 32
/-- The pieces a bank performs in a tick (R106). -/
def bankCap (b : Nat) : Nat := if b < 2 then 2 else 1

/-- Takes the accesses in order while their bank has room: those performed, those not, and the room used per bank. -/
def serve {α : Type} (bank : α → Nat) : List α → Map Nat → List α × List α × Map Nat
  | [], u => ([], [], u)
  | x :: xs, u =>
    if u.find 0 (bank x) < bankCap (bank x) then
      let r := serve bank xs (u.put (bank x) (u.find 0 (bank x) + 1))
      (x :: r.1, r.2.1, r.2.2)
    else
      let r := serve bank xs u
      (r.1, x :: r.2.1, r.2.2)

/-- The errors that a read of `n` bytes at `a` finds: corrections, and whether one is multi-bit (R110, R193). -/
def errsIn (m : Map Bool) (a n : Nat) : Nat × Bool :=
  let e := m.filter fun x => x.1 * 8 < a + n && a < x.1 * 8 + 8
  ((e.filter fun x => !x.2).length, e.any fun x => x.2)

/-- The errors left once a write of `n` bytes at `a` has replaced its words. -/
def errsAfter (m : Map Bool) (a n : Nat) : Map Bool := m.filter fun x => !(x.1 * 8 < a + n && a < x.1 * 8 + 8)

/-- Operation `id` of a core. -/
def Core.opAt (k : Core) (id : Nat) : Option Op := (k.ops.find? fun x => x.1 = id).map fun x => x.2

/-- The feed's bank tick (R108, R113, R145): the room it takes, and the addresses it reads. -/
def Core.feedTick (k : Core) (exact : Bool) (t : Nat) : Core × Map Nat × List Nat :=
  match k.feed with
  | none => (k, [], [])
  | some fd0 =>
    let fd := fd0.begin
    let r := serve (fun x => bankOf (fd.addr x)) (sortBy (fun a b => lexLe [fd.addr a, a] [fd.addr b, b]) fd.todo) []
    let fd := { fd with todo := r.2.1, got := fd.got ++ r.1.map fun x => (x, k.ws.read (fd.addr x) 64) }
    let w := (k.workOf fd.acc).getD { elts := [], ends := none }
    let n := fd.next exact w.elts
    (if n.1.group = n.1.k then
       { k with feed := none, work := k.work.put fd.acc { elts := n.2, ends := some t } }
     else { k with feed := some n.1, work := k.work.put fd.acc { w with elts := n.2 } },
     r.2.2, r.1.map fd.addr)

/-- Performs a piece; reads take `ws0`, the store before this tick's writes (R106, R109). -/
def Core.perform (ws0 : Mem) (k : Core) (p : Piece) : Core :=
  match k.opAt p.op with
  | none => k
  | some o =>
    let o := { o with left := o.left - 1, delay := max o.delay p.defers }
    match p.write with
    | none => { k with ops := k.ops.put p.op { o with data := o.data.write p.off (ws0.read p.addr p.len) } }
    | some b => { k with ws := k.ws.write p.addr b, wsErr := errsAfter k.wsErr p.addr p.len, ops := k.ops.put p.op o }

/-- Whether a piece's unit cannot wait (R175). -/
def Core.mustMeet (k : Core) (p : Piece) : Bool :=
  p.cls = .landing ||
    match k.opAt p.op with
    | some o => (match o.kind with | .msend _ => true | .sswRemote .. => true | _ => false)
    | none => false

/-- A mesh or store fault in core `c` found outside issue, at tick `t` (R124, R125). -/
def State.lateFault (s : State) (c code t : Nat) : State :=
  { s with coreRegs := s.coreRegs.capture code c 6 t 0 }.jobFatal code (some (s.regionOf c))

/-- The store reads of core `c` at the addresses `xs`: corrections are counted, a multi-bit error is a fault (R110). The reads of one
tick raise one fault, however many of them find a multi-bit error (DESIGN CHOICE, log entry 166: R125 counts faults, and the spec does
not say what one fault is). -/
def State.wsReads (s : State) (c t : Nat) (xs : List (Nat × Nat)) : State :=
  let e := (s.core c).wsErr
  let n := xs.foldl (fun n x => n + (errsIn e x.1 x.2).1) 0
  let s := { s with coreRegs := { s.coreRegs with wsCorr := satAdd 32 s.coreRegs.wsCorr n } }
  if xs.any fun x => (errsIn e x.1 x.2).2 then s.lateFault c fWsBad t else s

/-- Sends a flow unit (R119, R120, R174). -/
def State.sendUnit (s : State) (c rt issue : Nat) (b : Bytes) : State :=
  match s.route c rt with
  | none => s
  | some r =>
    let hs := r.hops s.gridW c
    let d : FlightDest := if r.ep then .stage c r.queue else .port r.dest (arrivalPort hs)
    { s with flights := s.flights ++ [{ dest := d, data := b, due := issue + 2 + delayOf hs, src := c, path := r.path s.gridW c }] }

/-- What an operation of core `c` does once its last piece is made (R104, R172 to R174). -/
def State.finishOp (s : State) (c : Nat) (o : Op) : State :=
  match o.kind with
  | .vld vd => s.setCore c ((s.core c).result (.v vd) (.v (bytesLanes (o.data.read 0 256))) (o.issue + 3 + o.delay) o.issue o.slot)
  | .sld sd =>
    s.setCore c ((s.core c).result (.s sd) (.s (BitVec.ofNat 64 (leNat (o.data.read 0 8)))) (o.issue + 3 + o.delay) o.issue o.slot)
  | .msend rt => s.sendUnit c rt o.issue (o.data.read 0 128)
  | .sswOwn off n =>
    { s with ssLines := s.ssLines ++ (List.range n).map fun i =>
        ssLineOf c (o.issue + 4 + o.delay) 3 o.issue c 0 (off + 128 * i) (some (o.data.read (128 * i) 128)) i }
  | .sswRemote slice off due =>
    { s with ssLines := s.ssLines ++ [ssLineOf slice due 1 o.issue c 0 off (some (o.data.read 0 128)) 0] }
  | .store | .landing | .ssrOwn _ _ | .ssrRemote _ => s

/-- The bank tick `t` of core `c` (R106 to R110, R175). Two write pieces that a dual-port bank performs on one row in one tick are made in
R107's order, so that the later one holds (DESIGN CHOICE, log entry 165: the spec does not say which bytes stay). -/
def State.bankTick (s : State) (c t : Nat) : State :=
  let f := (s.core c).feedTick s.exact t
  let k := f.1
  let r := serve (fun p : Piece => bankOf p.addr) (sortBy (fun a b => lexLe a.key b.key) (k.pieces.filter fun p => p.tick ≤ t)) f.2.1
  let late := (r.2.1.filter k.mustMeet).map fun p => p.op
  let now := r.1.filter fun p => !late.contains p.op
  let lost := r.2.1.filter fun p => !late.contains p.op
  let s := s.wsReads c t (f.2.2.map (fun a => (a, 64)) ++ (now.filter fun p => p.write.isNone).map fun p => (p.addr, p.len))
  let k := now.foldl (Core.perform k.ws)
    { k with pieces := k.pieces.filter (fun p => t < p.tick && !late.contains p.op)
             lost := k.lost ++ lost.map fun p => { p with defers := p.defers + 1 }
             ops := k.ops.filter fun x => !late.contains x.1 }
  let done := k.ops.filter fun x => x.2.left = 0
  let s := s.setCore c { k with ops := k.ops.filter fun x => x.2.left ≠ 0 }
  let s := done.foldl (fun s x => s.finishOp c x.2) s
  late.eraseDups.foldl (fun s _ => s.lateFault c fMeshLate t) s

/-- The deferred pieces of a core are retried at tick `t` (R107). -/
def Core.requeue (k : Core) (t : Nat) : Core :=
  { k with pieces := k.pieces ++ k.lost.map (fun p => { p with tick := t }), lost := [] }

/-- PIECE_DEFERRAL: the pieces core `c` deferred are retried at the next tick, in R107's order. -/
def execPieceDeferral (c : Nat) (s : State) : Out State :=
  onCore s c (s.setCore c ((s.core c).requeue (s.tickOf c + 1)))

/-! ### Stacked store (R188 to R193) -/

def SsLine.key (l : SsLine) : List Nat := [l.rank, if l.defers = 0 then 1 else 0, l.issue, l.core, l.off, l.line]

/-- The bank of a slice's offset (R188). -/
def ssBank (off : Nat) : Nat := off / 128 % 48

/-- R189's limits, lines in R190's order: banks taken, read lines and write lines so far. -/
def serveLines : List SsLine → List Nat → Nat → Nat → List SsLine × List SsLine
  | [], _, _, _ => ([], [])
  | l :: ls, banks, rd, wr =>
    let isWrite := l.write.isSome
    if banks.contains (ssBank l.off) || (isWrite && 3 ≤ wr) || (!isWrite && 6 ≤ rd) then
      let r := serveLines ls banks rd wr
      (r.1, l :: r.2)
    else
      let r := serveLines ls (ssBank l.off :: banks) (if isWrite then rd else rd + 1) (if isWrite then wr + 1 else wr)
      (l :: r.1, r.2)

/-- A stacked read of core or slice `c`: corrections counted in SS_CORR, a multi-bit error is a fault in the slice's core (R193). -/
def State.ssRead (s : State) (slice a n t : Nat) : State :=
  let e := errsIn s.ssErr a n
  let s := { s with far := { s.far with ssCorr := satAdd 32 s.far.ssCorr e.1 } }
  if e.2 then s.lateFault slice fSsBad t else s

/-- A read line performed: its data joins its operation; the last line of an access puts the working-store writes on their way
(R172, R173). -/
def State.lineRead (s : State) (l : SsLine) (b : Bytes) : State :=
  let k := s.core l.core
  match k.opAt l.op with
  | none => s
  | some o =>
    let o := { o with left := o.left - 1, delay := max o.delay l.defers, data := o.data.write (128 * l.line) b }
    if o.left ≠ 0 then s.setCore l.core { k with ops := k.ops.put l.op o }
    else
      let k := { k with ops := k.ops.del l.op }
      match o.kind with
      | .ssrOwn ws n =>
        s.setCore l.core (k.addOp .store o.issue 4 .inbound (writeRows (o.issue + 13 + o.delay) ws (2 * n) (o.data.read 0 (128 * n))))
      | .ssrRemote ws =>
        s.setCore l.core (k.addOp .store o.issue 4 .inbound
          (writeRows (o.issue + 13 + 2 * (l.tick - (o.issue + 4))) ws 2 (o.data.read 0 128)))
      | _ => s.setCore l.core k

/-- A line performed at tick `t`. -/
def State.lineDo (ss0 : Mem) (t : Nat) (s : State) (l : SsLine) : State :=
  let a := ssAddr l.slice l.off
  match l.write with
  | some b =>
    { s with ss := s.ss.write a (padTo 128 b), ssErr := errsAfter s.ssErr a 128
             far := { s.far with ssLive := { s.far.ssLive with wr := satAdd 64 s.far.ssLive.wr 1 } } }
  | none =>
    let s := s.ssRead l.slice a 128 t
    let s := { s with far := { s.far with ssLive := { s.far.ssLive with rd := satAdd 64 s.far.ssLive.rd 1 } } }
    s.lineRead l (ss0.read a 128)

/-- The stacked bank tick `t` of slice `c` (R189 to R193): rank-1 lines that cannot be performed are late (R191). -/
def State.sliceTick (s : State) (c t : Nat) : State :=
  let mine := s.ssLines.filter fun l => l.slice = c && l.tick ≤ t
  let r := serveLines (sortBy (fun a b => lexLe a.key b.key) mine) [] 0 0
  let late := r.2.filter fun l => l.rank = 1
  let lost := (r.2.filter fun l => l.rank ≠ 1).map fun l => { l with defers := l.defers + 1 }
  let ss0 := s.ss
  let s := { s with
    ssLines := s.ssLines.filter fun l => !(l.slice = c && l.tick ≤ t)
    ssLost := s.ssLost ++ lost
    far := { s.far with ssLive := { s.far.ssLive with defer := satAdd 64 s.far.ssLive.defer r.2.length } } }
  let s := r.1.foldl (State.lineDo ss0 t) s
  late.foldl (fun s _ => s.lateFault c fMeshLate t) s

/-- The deferred lines of slice `c` are retried at tick `t` (R190). -/
def State.requeueLines (s : State) (c t : Nat) : State :=
  { s with
    ssLines := s.ssLines ++ (s.ssLost.filter fun l => l.slice = c).map fun l => { l with tick := t }
    ssLost := s.ssLost.filter fun l => l.slice ≠ c }

/-- LINE_DEFERRAL: the lines slice `c` deferred are retried at the next tick, in R190's order. -/
def execLineDeferral (c : Nat) (s : State) : Out State := onCore s c (s.requeueLines c (s.tickOf c + 1))

/-- One gather element at tick `t` (R112, R176). -/
def State.gatherOne (s : State) (c t : Nat) (g : Gather) : State × Gather :=
  let l := g.got.length
  if t < g.issue + 4 + l || 64 ≤ l then (s, g)
  else
    let x := lane g.addrs l
    if x = 0xFFFFFFFF#32 then (s, { g with got := g.got ++ [0#32] })
    else
      let a := ssAddr c x.toNat
      (s.ssRead c a 4 t, { g with got := g.got ++ [BitVec.ofNat 32 (leNat (s.ss.read a 4))] })

/-- The gather path of core `c` at tick `t`; a whole GATH's result is visible at its issue tick + 78. -/
def State.gatherTick (s : State) (c t : Nat) : State :=
  let r := (s.core c).gather.foldl (fun (p : State × List Gather) g =>
    let q := p.1.gatherOne c t g
    (q.1, p.2 ++ [q.2])) (s, [])
  let k := r.1.core c
  let k := (r.2.filter fun g => g.got.length = 64).foldl (fun k g => k.result (.v g.vd) (.v g.got) (g.issue + 78) g.issue 4) k
  r.1.setCore c { k with gather := r.2.filter fun g => g.got.length ≠ 64 }

/-! ### Landings (R230) -/

/-- Whether the data of request `n` is covered by a gate that has passed. -/
def Queue.covers (q : Queue) (n : Nat) : Bool := (q.gated - BitVec.ofNat 32 n).toNat < 2 ^ 31

/-- The next 128 B of a queue's landing data that a gate has covered, in push order, with the queue that is left. -/
def Queue.take (q : Queue) : Option (Bytes × Queue) :=
  match q.land with
  | (n, b) :: rest =>
    if q.covers n then some (b.take 128, { q with land := if b.length ≤ 128 then rest else (n, b.drop 128) :: rest }) else none
  | [] => none

/-- Landing entry `i` at tick `t` of its core: once a tick, on its phase (R230). -/
def State.landOne (s : State) (i t : Nat) : State :=
  match s.image with
  | none => s
  | some im =>
    match im.landings[i]? with
    | none => s
    | some e =>
      if t % s.period ≠ e.phase || e.doneTick = t + 1 then s
      else
        match (s.queue e.core e.queue).take with
        | none =>
          let s := { s with image := some { im with landings := modAt im.landings i fun e => { e with doneTick := t + 1 } } }
          if e.required then s.lateFault e.core fLandingEmpty t else s
        | some (b, q) =>
          let s := s.setQueue e.core e.queue q
          let s := { s with image := some { im with landings := modAt im.landings i fun e =>
            { e with doneTick := t + 1, cursor := (e.cursor + 1) % max 1 e.ringUnits } } }
          s.setCore e.core ((s.core e.core).addOp .landing t 6 .landing (writeRows t (e.ringBase + 128 * e.cursor) 2 (padTo 128 b)))

/-- The landings of core `c` at tick `t`. -/
def State.landAll (s : State) (c t : Nat) : State :=
  match s.image with
  | none => s
  | some im => (List.range im.landings.length).foldl (fun s i =>
      match im.landings[i]? with
      | some e => if e.core = c then s.landOne i t else s
      | none => s) s

/-- LANDING_TRANSFER: landing entry `i` lands at its core's next tick. -/
def execLandingTransfer (i : Nat) (s : State) : Out State :=
  match s.image with
  | none => .next s
  | some im =>
    match im.landings[i]? with
    | none => .next s
    | some e => if s.job.state = .running then .next (s.landOne i (s.tickOf e.core + 1)) else .next s

/-! ### Arrivals (R120, R122) -/

/-- Whether a flight comes to a port of core `c` to be taken by tick `t`. -/
def Flight.dueAt (f : Flight) (c t : Nat) : Bool :=
  match f.dest with
  | .port d _ => d = c && f.due ≤ t
  | .stage _ _ => false

/-- The units that core `c` must take in tick `t` stand at their ports. -/
def State.arrive (s : State) (c t : Nat) : State :=
  let k := (s.flights.filter fun f => f.dueAt c t).foldl (fun k f =>
    match f.dest with
    | .port _ p => { k with ports := k.ports.put p (f.due, f.data) }
    | .stage _ _ => k) (s.core c)
  { s.setCore c k with flights := s.flights.filter fun f => !f.dueAt c t }

/-- A parity error at core `c`'s router (R122): unit `n` of those in flight, or, counted on from them, the unit of a landing entry. A
unit that does not pass that router is not concerned. The unit is lost: the mesh never retries one. -/
def State.badUnitAt (s : State) (c n : Nat) : State :=
  match s.flights[n]? with
  | some f =>
    if f.path.contains c then { s with flights := s.flights.eraseIdx n }.lateFault c fMeshLink (s.tickOf c) else s
  | none =>
    match s.image with
    | none => s
    | some im =>
      match im.landings[n - s.flights.length]? with
      | none => s
      | some e =>
        if !(landPath s.gridW (epEdge (s.queue e.core e.queue).endpoint) e.core).contains c then s
        else
          match (s.queue e.core e.queue).take with
          | none => s
          | some (_, q) => (s.setQueue e.core e.queue q).lateFault c fMeshLink (s.tickOf c)

/-- MESH_UNIT_ARRIVAL: the units that core `c` must take in the next tick reach its router; `bad` names one that fails its parity check
there. -/
def execMeshUnitArrival (c : Nat) (bad : Option Nat) (s : State) : Out State :=
  onCore s c ((match bad with | some n => s.badUnitAt c n | none => s).arrive c (s.tickOf c + 1))

/-- The units of earlier ticks that no MRECV took (R120). -/
def State.unclaimed (s : State) (c t : Nat) : State :=
  let k := s.core c
  let old := k.ports.filter fun x => x.2.1 < t
  let s := s.setCore c { k with ports := k.ports.filter fun x => !(x.2.1 < t) }
  old.foldl (fun s x => s.lateFault c fMeshUnclaimed x.2.1) s

/-! ### Issue of a bundle (R95 to R101, R124) -/

/-- The instruction's own check. -/
def slotCheck (c : Nat) (s : State) : SlotOp → Option Nat
  | .ct _ o => ctCheck c s o
  | .mx _ o => mxCheck c s o
  | .vx _ o => vxCheck c s o
  | .ls _ o => lsCheck c s o
  | .mv _ o => mvCheck c s o
  | .qx _ o => qxCheck c s o

/-- The effect of an enabled instruction. -/
def slotDo (c : Nat) (s : State) : SlotOp → State
  | .ct _ o => ctDo c s o
  | .mx _ o => mxDo c s o
  | .vx _ o => vxDo c s o
  | .ls _ o => lsDo c s o
  | .mv _ o => mvDo c s o
  | .qx _ o => qxDo c s o

/-- The bundle that issues after the one in progress, whose CT slot holds `ct`; none after an enabled HALT (R100, R135, R136). -/
def Core.following (k : Core) (ct : Option SlotOp) : Option Nat :=
  match ct with
  | some (.ct h .halt) => if k.enabled h then none else some (k.advance).pc
  | some (.ct h (.loop f)) =>
    if k.enabled h && k.branch.isNone then some (if k.cnt f.count = 0 then f.endAt.toNat + 1 else k.pc + 1) else some (k.advance).pc
  | some (.ct h (.br _)) => some (if k.enabled h && k.branch.isNone then k.pc + 1 else (k.advance).pc)
  | _ => some (k.advance).pc

/-- The fault of a bundle's place in the code: it or the bundle in sequence after it lies beyond the role's code (R134), or it ends a
loop body in a delay bundle (R101). -/
def Core.sequenceFault (k : Core) (ct : Option SlotOp) : Option Nat :=
  if k.codeLen ≤ k.pc then some fPcRange
  else if k.branch.isSome && k.atLoopEnd then some fLoopNest
  else if (k.following ct).any fun p => k.codeLen ≤ p then some fPcRange
  else none

/-- The faults of a bundle: (slot, code), in the order of R98. A slot that decodes to nothing is illegal (R95). The bundle's place in the
code counts as a fault of the CT slot, where that slot raises no other. -/
def bundleFaults (s : State) (c : Nat) (ops : List (Option SlotOp)) : List (Nat × Nat) :=
  let k := s.core c
  ops.zipIdx.filterMap fun (o, i) =>
    let own := match o with
      | none => some fIllegal
      | some op => issueFault k s.exact op (slotCheck c s op)
    (own.or (if i = 0 then k.sequenceFault o else none)).map fun code => (i, code)

/-- The issue of the bundle at pc: its faults suppress every slot, else each enabled slot acts, the CT slot last. -/
def State.issueBundle (s : State) (c : Nat) : State :=
  let k := s.core c
  if !k.live then s
  else
    let ops := decodeBundle (k.code.find 0 k.pc)
    match bundleFaults s c ops with
    | [] => (ops.drop 1 ++ ops.take 1).foldl (fun s o =>
        match o with
        | some op => if k.enabled op.hdr then slotDo c s op else s
        | none => s) s
    | fs => fs.foldl (fun s f => s.coreFault c f.1 f.2) s

/-! ### One tick of one core -/

/-- Whether core `c` has halted and nothing of it is in flight in the tick domain (R103, R334); a unit at one of its ports is still to be
taken, or to be found unclaimed in the next tick (R120). -/
def State.quietCore (s : State) (c : Nat) : Bool :=
  let k := s.core c
  k.halted && k.ports = [] && k.wb = [] && k.pieces = [] && k.lost = [] && k.ops = [] && k.gather = [] && k.feed.isNone &&
    (k.work.all fun w => w.2.ends.isNone) && !(s.flights.any fun f => f.src = c) &&
    !((s.ssLines ++ s.ssLost).any fun l => l.slice = c || l.core = c)

/-- Tick `t` of a core that has something left to do. -/
def State.noteBusy (s : State) (c t : Nat) : State := if s.quietCore c then s else s.setCore c { s.core c with busyTo := t }

/-- Core `c` at the start of tick `t`, before any bank access of the tick: late arrivals, deferred accesses retried, landings of
the tick, results and commits that become visible. -/
def State.coreStart (s : State) (c t : Nat) : State :=
  let s := s.unclaimed c t
  let s := (s.setCore c ((s.core c).requeue t)).requeueLines c t
  let s := ((s.landAll c t).arrive c t).noteBusy c t
  let k := (s.core c).commitWb t
  s.setCore c ((List.range 4).foldl (fun k a => if k.commitDue a t then k.commitAcc a else k) k)

/-- The stores of core `c` at tick `t`. -/
def State.coreStores (s : State) (c t : Nat) : State := ((s.gatherTick c t).sliceTick c t).bankTick c t

/-- Core `c` moves to its next bundle, unless this is its first tick, and issues it. -/
def State.coreIssue (s : State) (c : Nat) (first : Bool) : State :=
  let k := s.core c
  let s := if first || !k.live then s else s.setCore c k.advance
  s.issueBundle c

/-- One tick `t` of core `c`. -/
def State.coreTick (s : State) (c t : Nat) (first : Bool) : State := ((s.coreStart c t).coreStores c t).coreIssue c first

end Sys2Proof.Machine
end

