-- ==== Sys2Proof/Machine/Pace.lean ====
section
/-! DEFINITION. The paceline, gates and track-stands, gears, the brake and the reference (R22 to R56, R484). -/
namespace Sys2Proof.Machine

/-- A command about a region; a number above 79 stops (R22). -/
def onRegion (r : Nat) (t : State) (_s : State) : Out State := if r < 80 then .next t else .fault .noSuchRegion

/-! ### Gears (R41 to R45) -/

/-- The effective cap (R41): the least of GEAR_CAP, the cap held by reference loss, and the policy cap. -/
def State.effCap (s : State) : Nat := min s.pace.gearCap (min (s.pace.capRef.getD 15) s.power.policyCap)

/-- Changes every region. -/
def State.mapRegions (s : State) (f : Region → Region) : State :=
  (List.range 80).foldl (fun s r => s.setRegion r (f (s.region r))) s

/-- Starts a gear change (R41 to R44): none while one is in progress or the brake is in force. A target above the effective cap goes
to the cap and sets CLAMPED. For an increase the core rails take the new set point first (R42). GEAR_TARGET shows the target of every
change, also of one that the policy or a cap starts (DESIGN CHOICE, log entry 160: the spec does not say). -/
def State.startGear (s : State) (target : Nat) : State :=
  if s.pace.change.isSome || s.power.brake then s
  else
    let g := min target s.effCap
    let p := { s.pace with
      gearTarget := target, clamped := s.pace.clamped || s.effCap < target
      gearAt := if s.pace.gearMode then s.pace.gearAt else s.gsc + max 5000 s.pace.gearLead.toNat
      rail := max s.pace.rail g
      change := some { target := g, regionStop := s.pace.gearMode, started := s.gsc } }
    let s := { s with pace := p }
    if p.gearMode then s.mapRegions fun x => { x with retuning := true } else s

/-- Whenever min(requested gear, effective cap) differs from the gear in force, a change to it starts (R482). -/
def State.followGear (s : State) : State :=
  let g := min s.power.requested s.effCap
  if g = s.pace.gearNow || !s.pace.calValid then s else s.startGear g

/-- A gear change that has ended; after a decrease the core rails take the lower set point (R42). -/
def State.endGear (s : State) (g : Nat) : State :=
  { s with pace := { s.pace with gearNow := g, rail := g, change := none } }.followGear

/-- GEAR_SWITCH_COUNT: GSC reaches the switch count, and every region takes the new gear for its next period (R42). -/
def execGearSwitchCount (s : State) : Out State :=
  match s.pace.change with
  | some c =>
    if c.regionStop then .next s
    else
      let s := s.advanceTo s.pace.gearAt
      .next ((s.mapRegions fun x => { x with gear := c.target }).endGear c.target)
  | none => .next s

/-- REGION_RETUNE_DONE: a region has relocked its oscillator; the change ends with the last region (R43). -/
def execRegionRetuneDone (r : Nat) (s : State) : Out State :=
  onRegion r
    (match s.pace.change with
     | some c =>
       if c.regionStop && (s.region r).retuning then
         let s := s.setRegion r { s.region r with retuning := false, gear := c.target }
         if (List.range 80).any fun i => (s.region i).retuning then s else s.endGear c.target
       else s
     | none => s) s

/-- RETUNE_TIMEOUT: region `r` has retuned for more than 2 µs (R43), counted from the request (DESIGN CHOICE, log entry 161: the spec
does not say whether the limit runs from the request or from the end of the region's own period). -/
def execRetuneTimeout (r : Nat) (s : State) : Out State :=
  onRegion r
    (match s.pace.change with
     | some c =>
       if c.regionStop && (s.region r).retuning then (s.advanceTo (c.started + 2001)).jobFatal 0x0D06 (some r) else s
     | none => s) s

/-- The bit of a cause in PWR_STATUS CAUSE (R496). -/
def BrakeCause.bit : BrakeCause → Nat
  | .temperature => 1 | .droop => 2 | .inputPower => 4 | .inputVoltage => 8

/-- CAUSE of PWR_STATUS. -/
def Power.causeBits (p : Power) : Nat := p.causes.foldl (fun n c => n + c.bit) 0

/-- The brake (R45, R484): it cancels a gear change and moves every region to gear 0; a further cause only adds its bit. -/
def State.applyBrake (s : State) (c : BrakeCause) : State :=
  if s.power.brake then
    { s with power := { s.power with
      causes := if s.power.causes.contains c then s.power.causes else s.power.causes ++ [c], calm := 0 } }
  else
    let s := { s with
      power := { s.power with brake := true, causes := [c], brakes := satAdd 16 s.power.brakes 1, calm := 0 }
      pace := { s.pace with change := none, gearNow := 0, rail := 0 } }
    let s := s.mapRegions fun x => { x with gear := 0, retuning := false }
    s.event 0x0A01 (BitVec.ofNat 64 s.power.causeBits)

/-- The current period of region `r` is lengthened by `permil` tenths of a percent, and STRETCH_STAT keeps the largest (R27, R56). -/
def State.stretchPeriod (s : State) (r permil : Nat) : State :=
  let s := s.setRegion r { s.region r with stretch := permil }
  if s.pace.stretchMax < permil then { s with pace := { s.pace with stretchMax := permil, stretchRegion := r } } else s

/-- SUPPLY_DROOP: region `r` needs a stretch of `permil` tenths of a percent; it gets up to 20 %, and a droop that needs more applies
the brake (R27). -/
def execSupplyDroop (r permil : Nat) (s : State) : Out State :=
  onRegion r (if 200 < permil then (s.stretchPeriod r 200).applyBrake .droop else s.stretchPeriod r permil) s

/-! ### Gates (R29 to R37) -/

/-- Whether the wait's completion is visible (R181). -/
def State.waitMet (s : State) (c : Nat) (w : Wait) : Bool := ((s.queue c w.queue).cc - w.target).toNat < 2 ^ 31

/-- The waits of region `r` whose gate tick is `t`: core, wait slot, wait (R31). -/
def State.gateWaits (s : State) (r t : Nat) : List (Nat × Nat × Wait) :=
  (s.coresOf r).flatMap fun c => ((s.core c).waits.filter fun w => w.2.armTick + 9 = t && !w.2.passed).map fun w => (c, w.1, w.2)

/-- Those whose completion is not visible. -/
def State.unmet (s : State) (r t : Nat) : List (Nat × Nat × Wait) := (s.gateWaits r t).filter fun w => !s.waitMet w.1 w.2.2

/-- A gate passes: GATED takes the target (R181). -/
def State.passGate (s : State) (w : Nat × Nat × Wait) : State :=
  let c := w.1
  let k := s.core c
  let s := s.setCore c { k with waits := k.waits.put w.2.1 { w.2.2 with passed := true } }
  let q := s.queue c w.2.2.queue
  s.setQueue c w.2.2.queue { q with
    gated := if (w.2.2.target - q.gated).toNat < 2 ^ 31 then w.2.2.target else q.gated }

/-- A track-stand begins in region `r` (R31, R37): every unmet gate is counted, TS_LAST takes the last of them. -/
def State.beginHold (s : State) (r : Nat) (ws : List (Nat × Nat × Wait)) : State :=
  match ws.getLast? with
  | none => s
  | some w =>
    let kind := (s.queue w.1 w.2.2.queue).kind.waitKind
    let s := s.setRegion r { s.region r with
      gate := some { queue := w.2.2.queue, core := w.1, kind := kind, since := s.gsc } }
    { s with pace := { s.pace with
      tsCount := satAdd 32 s.pace.tsCount ws.length, tsLast := some (w.2.2.queue, w.1, kind) } }

/-! ### Tick issue (R23) -/

/-- R23 (b): a token of the tick in progress has arrived from every neighbour. -/
def Region.hasTokens (x : Region) (r : Nat) : Bool :=
  (List.range 4).all fun d => (neighbour r d).isNone || x.issued ≤ x.tokens.find 0 d

/-- Whether region `r` may issue tick `t` at all: the job runs, or a stop under way still allows the tick (R488). -/
def State.mayIssue (s : State) (r t : Nat) : Bool :=
  if s.stopTicks.has r then t ≤ s.stopTicks.find 0 r else s.job.state = .running

/-- The holds of R23 (c) other than a gate. -/
def State.otherHold (s : State) (r t : Nat) : Bool :=
  s.pace.holdReq || (s.region r).retuning || s.power.mode ≠ .run ||
    (match s.pace.debugStop with | some x => x < t | none => false)

/-- The skid buffers of R26 at the issue of tick `t` of region `r`: the entries of ticks up to t − 2 are read and freed, and each
neighbour's buffer from `r` takes the entry of tick t. Directions are paired as 0 west, 1 east, 2 south, 3 north. -/
def State.skidTick (s : State) (r t : Nat) : State :=
  let x := s.region r
  let s := s.setRegion r { x with skid := x.skid.map fun e => (e.1, e.2.filter fun m => t < m + 2) }
  (List.range 4).foldl (fun s d =>
    match neighbour r d with
    | none => s
    | some n =>
      let back := if d % 2 = 0 then d + 1 else d - 1
      let y := s.region n
      s.setRegion n { y with skid := y.skid.put back (y.skid.find [] back ++ [t]) }) s

/-- Region `r` issues tick `t`: the cores' stores perform the tick's accesses, gates pass, and every core issues its bundle. -/
def State.regionTick (s : State) (r t : Nat) (first : Bool) : State :=
  let cs := s.coresOf r
  let s := s.skidTick r t
  let x := s.region r
  let s := s.setRegion r { x with
    issued := x.issued + 1, tickCount := t, elapsed := false, gate := none, stretch := 0, lastIssue := s.gsc }
  let s := cs.foldl (fun s c => s.coreStart c t) s
  let s := (s.gateWaits r t).foldl State.passGate s
  let s := cs.foldl (fun s c => s.coreStores c t) s
  cs.foldl (fun s c => s.coreIssue c first) s

/-- TICK_ISSUE's effect: the gates of the next tick are checked once R23 (a) and (b) hold; an unmet one holds the region (R31). -/
def State.tickIssue (s : State) (r : Nat) : State :=
  let x := s.region r
  let t := x.tickCount + 1
  if x.issued = 0 || !x.elapsed || !x.hasTokens r || !s.mayIssue r t || x.gate.isSome then s
  else
    match s.unmet r t with
    | [] => if s.otherHold r t then s else s.regionTick r t false
    | ws => s.beginHold r ws

/-- TICK_ISSUE: region `r` issues its next tick when R23 allows it. -/
def execTickIssue (r : Nat) (s : State) : Out State := onRegion r (s.tickIssue r) s

/-- TICK_TOKEN: the token of a tick the neighbour in direction `dir` has issued arrives (R24); a parity error is TOKEN_ERROR. -/
def State.tickToken (s : State) (r dir : Nat) (parityOk : Bool) : State :=
  match neighbour r dir with
  | none => s
  | some n =>
    let x := s.region r
    if (s.region n).issued ≤ x.tokens.find 0 dir then s
    else if parityOk then s.setRegion r { x with tokens := x.tokens.put dir (x.tokens.find 0 dir + 1) }
    else s.jobFatal 0x0D05 (some r)

def execTickToken (r dir : Nat) (parityOk : Bool) (s : State) : Out State := onRegion r (s.tickToken r (dir % 4) parityOk) s

/-- PERIOD_ELAPSED: the period of the tick in progress, stretched as it was, has run out (R23 (a), R27). -/
def execPeriodElapsed (r : Nat) (s : State) : Out State :=
  onRegion r (if (s.region r).issued = 0 then s else s.setRegion r { s.region r with elapsed := true }) s

/-- GATE_RELEASE's effect: once every completion is visible the region's gate tick issues (R31, R34), unless another hold applies. -/
def State.gateRelease (s : State) (r : Nat) : State :=
  let x := s.region r
  let t := x.tickCount + 1
  if x.gate.isNone || s.unmet r t ≠ [] then s
  else if s.otherHold r t || !s.mayIssue r t then s.setRegion r { x with gate := none }
  else s.regionTick r t false

/-- GATE_RELEASE: the held region `r` issues its gate tick. -/
def execGateRelease (r : Nat) (s : State) : Out State := onRegion r (s.gateRelease r) s

/-- Every region's first tick of a launch or a resume, with TICK_COUNT `t` (R49). -/
def State.firstTicks (s : State) (t : Nat) : State :=
  let s := (List.range 80).foldl (fun s r =>
    s.setRegion r { s.region r with issued := 0, tokens := [], elapsed := false, gate := none, stretch := 0, skid := [] }) s
  (List.range 80).foldl (fun s r => s.regionTick r t true) s

/-! ### Faults of the paceline (R36, R55) -/

/-- PACE_STALL: region `r` has issued no tick for 100 µs while no hold applied to any region (R55). -/
def execPaceStall (r : Nat) (s : State) : Out State :=
  onRegion r
    (if s.job.state = .running && (s.region r).issued ≠ 0 && !s.anyHold then
       (s.advanceTo (max (s.region r).lastIssue s.pace.holdAt + 100000)).jobFatal 0x0D01 (some r)
     else s) s

/-- FAR_LIMIT_US in ns; 0 acts as 1. -/
def Pace.farLimitNs (p : Pace) : Nat := max 1 p.farLimitUs * 1000
/-- FAB_LIMIT_MS in ns; 0 acts as 1. -/
def Pace.fabLimitNs (p : Pace) : Nat := max 1 p.fabLimitMs * 1000000

/-- Whether the hold of region `r` is for a wait of one of `kinds` that is still unmet. -/
def State.heldFor (s : State) (r : Nat) (kinds : List WaitKind) : Bool :=
  (s.unmet r ((s.region r).tickCount + 1)).any fun w => kinds.contains (s.queue w.1 w.2.2.queue).kind.waitKind

/-- TS_TIMEOUT_FAR: region `r` has held on a far-memory wait for longer than FAR_LIMIT_US (R36). -/
def execTsTimeoutFar (r : Nat) (s : State) : Out State :=
  onRegion r
    (match (s.region r).gate with
     | some g =>
       if s.heldFor r [.farRead, .farWrite] && !s.debugStopped then
         (s.advanceTo (g.since + s.pace.farLimitNs + 1)).jobFatal 0x0D03 (some r)
       else s
     | none => s) s

/-- TS_TIMEOUT_FABRIC: region `r` has held on a fabric wait for longer than FAB_LIMIT_MS (R36). -/
def execTsTimeoutFabric (r : Nat) (s : State) : Out State :=
  onRegion r
    (match (s.region r).gate with
     | some g =>
       if s.heldFor r [.fabricReceive] && !s.debugStopped then
         (s.advanceTo (g.since + s.pace.fabLimitNs + 1)).jobFatal 0x0D04 (some r) else s
     | none => s) s

/-! ### Calibration and the reference (R39, R40, R46 to R48) -/

/-- CALIBRATION: every 1 ms one gear's stored trim word is refreshed; `outside` tells whether a region measured outside ±5 %. -/
def execCalibration (outside : Bool) (s : State) : Out State :=
  if !s.pace.calEn || !s.pace.calValid || s.pace.refLost || s.power.mode = .park then .next s
  else
    let s := s.advanceTo s.pace.calDue
    .next { s with pace := { s.pace with
      calCount := (s.pace.calCount + 1) % 65536, calErr := s.pace.calErr || outside
      trimAt := s.pace.trimAt.put s.pace.calGear s.gsc, calGear := (s.pace.calGear + 1) % 16, calDue := s.gsc + 1000000 } }

/-- TRIM_BUILD: the trim words of all 16 gears are built and CAL_VALID is set (R40). -/
def execTrimBuild (s : State) : Out State :=
  if s.pace.calValid || s.pace.refLost || s.power.mode = .park then .next s
  else .next ({ s with pace := { s.pace with
    calValid := true, trimAt := (List.range 16).map fun g => (g, s.gsc), calDue := s.gsc + 1000000 } }.followGear)

/-- REF_LOSS_EVENT: the reference is declared lost; the cap is held at the gear in force (R46). -/
def execRefLossEvent (s : State) : Out State :=
  if s.pace.refLost then .next s
  else
    .next ({ s with
      fab := { s.fab with slewOnly := true }
      pace := { s.pace with
        refLost := true, lostSeen := true, capRef := some s.pace.gearNow, lostAt := s.gsc, lossMs := 0 } }.event 0x0D10)

/-- LOSS_MS (R56): the length of the current or the most recent loss. -/
def State.lossMs (s : State) : Nat :=
  if s.pace.refLost then min 65535 ((s.gsc - s.pace.lostAt) / 1000000) else s.pace.lossMs

/-- REF_LOSS: the loss has lasted longer than 10 ms; job-fatal during a job on more than one module (R47). -/
def execRefLoss (s : State) : Out State :=
  if !s.pace.refLost then .next s
  else
    let s := s.advanceTo (s.pace.lostAt + 10000001)
    .next (if s.multi && s.job.state = .running then s.jobFatal 0x0D02 else s)

/-- REF_RESTORED: calibration resumes, the cap lifts, GSC goes on from its free-running value (R48). -/
def execRefRestored (s : State) : Out State :=
  if !s.pace.refLost then .next s
  else
    let n := s.lossMs
    .next (({ s with pace := { s.pace with
      refLost := false, capRef := none, lossMs := n, calDue := s.gsc + 1000000 } }.event 0x0D11).followGear)

/-! ### The registers of R56 that other fields give -/

/-- TICK_COUNT's least and greatest value over all regions. -/
def State.tickMin (s : State) : Nat := (List.range 80).foldl (fun m r => min m (s.region r).tickCount) (s.region 0).tickCount
def State.tickMax (s : State) : Nat := (List.range 80).foldl (fun m r => max m (s.region r).tickCount) 0

/-- AGE_MAX_MS: the age of the oldest stored trim word. -/
def State.trimAge (s : State) : Nat :=
  min 255 (s.pace.trimAt.foldl (fun m x => max m ((s.gsc - x.2) / 1000000)) 0)

/-- PACE_CTRL as read: SNAP and GEAR_GO read 0. -/
def State.paceCtrl (s : State) : Nat :=
  bitAt 1 s.pace.gearMode + bitAt 2 s.pace.calEn + s.pace.gearCap % 16 * 16 + s.pace.gearTarget % 16 * 256 + bitAt 13 s.pace.holdReq

/-- Whether a region waits for a neighbour that has not issued the tick whose token it needs (R23 (b)); a token in flight stops nothing. -/
def State.behindNeighbour (s : State) (r : Nat) : Bool :=
  (List.range 4).any fun d => match neighbour r d with | some n => (s.region n).issued < (s.region r).issued | none => false

/-- Whether every region has issued ticks and stopped (HELD): a hold keeps it from its next tick, or a neighbour that is kept. -/
def State.allHeld (s : State) : Bool :=
  (List.range 80).all fun r =>
    let x := s.region r
    x.issued ≠ 0 && (x.gate.isSome || s.otherHold r (x.tickCount + 1) || !s.mayIssue r (x.tickCount + 1) || s.behindNeighbour r)

/-- PACE_STATUS. -/
def State.paceStatus (s : State) : Nat :=
  s.pace.gearNow % 16 + bitAt 4 s.pace.change.isSome + bitAt 5 s.pace.clamped + bitAt 6 s.tsActive + bitAt 7 s.allHeld +
    bitAt 8 s.pace.refLost + bitAt 9 s.pace.calValid + bitAt 10 s.power.brake + bitAt 11 s.pace.capRef.isSome

/-- The code of a wait kind (R56). -/
def WaitKind.code : WaitKind → Nat
  | .farRead => 0 | .farWrite => 1 | .fabricReceive => 2 | .hostWrite => 3 | .stepQueue => 4

/-- TS_LAST. -/
def Pace.tsLastBits (p : Pace) : Nat :=
  match p.tsLast with
  | none => 0
  | some (q, c, k) => q % 32 + c % 256 * 32 + k.code * 8192

end Sys2Proof.Machine
end

