-- ==== Sys2Proof/Machine/Memory.lean ====
section
/-! DEFINITION. The far memory: regions, controllers, channels (R195 to R218). -/
namespace Sys2Proof.Machine

/-! ### Far addresses (R207 to R209) -/

/-- Where far_map puts a byte: controller, channel, block, slot of the block, byte of the granule. -/
structure FarLoc where
  ctrl : Nat
  chan : Nat
  blk : Nat
  slot : Nat
  b : Nat
deriving DecidableEq, Repr

/-- far_map (R209). -/
def FarRegion.map (r : FarRegion) (off : Nat) : FarLoc :=
  let g := off / 64
  let n := max 1 (r.ctrlCount * 16)
  let u := if r.unit then 15 else 1
  let ck := g / u
  let ch := ck % n
  let lg := ck / n * u + g % u
  { ctrl := r.ctrlFirst + ch % max 1 r.ctrlCount, chan := ch / max 1 r.ctrlCount, blk := r.localBase + lg / 15, slot := lg % 15
    b := off % 64 }

/-- The place of a byte in the model's far memory. -/
def FarLoc.key (l : FarLoc) : Nat := (((l.ctrl * 16 + l.chan) * 2 ^ 25 + l.blk) * 15 + l.slot) * 64 + l.b

/-- The blocks a region of `size` units of 64 KiB reserves on every channel of its set (R209). -/
def FarRegion.blocks (r : FarRegion) : Nat := (r.size * 1024 + 15 * (r.ctrlCount * 16) - 1) / (15 * max 1 (r.ctrlCount * 16))

/-- The blocks of a channel (R195): 8 GiB raw, or 16 GiB on ND9-9216-256, in blocks of 1 KiB. -/
def State.chanBlocks (s : State) : Nat := if s.part.ordering = 1 then 2 ^ 24 else 2 ^ 23

def State.farRegion (s : State) (r : Nat) : FarRegion := s.far.regions.find .init r

/-- Reads `n` bytes of a far region. -/
def State.farGet (s : State) (r off n : Nat) : Bytes :=
  (List.range n).map fun i => s.far.mem.get ((s.farRegion r).map (off + i)).key

/-- Whether a byte of a far region lies in the serving engine's request records, whose contents no rule defines for programs (R283). -/
def State.inRecords (s : State) (r off : Nat) : Bool := match s.srv.cfg with | some c => r = c.serve && off < 16 * 2 ^ 20 | none => false

/-- What a program or the host reads of a far region: free bytes where the request records stand, counted from `k` (log entry 184). -/
def State.farSeen (s : State) (k r off n : Nat) : Bytes :=
  (List.range n).map fun i =>
    if s.inRecords r (off + i) then Config.freeByte (s.free + k + i) else s.far.mem.get ((s.farRegion r).map (off + i)).key

/-- Writes bytes of a far region. -/
def State.farPut (s : State) (r off : Nat) (b : Bytes) : State :=
  let m := b.zipIdx.foldl (fun m x => m.set ((s.farRegion r).map (off + x.2)).key x.1) s.far.mem
  { s with far := { s.far with mem := m } }

/-- The same by the layout `r` of a resident copy or another area that no job region names. -/
def State.farPutAt (s : State) (r : FarRegion) (off : Nat) (b : Bytes) : State :=
  let m := b.zipIdx.foldl (fun m x => m.set (r.map (off + x.2)).key x.1) s.far.mem
  { s with far := { s.far with mem := m } }

def State.farGetAt (s : State) (r : FarRegion) (off n : Nat) : Bytes :=
  (List.range n).map fun i => s.far.mem.get (r.map (off + i)).key

/-- A far-memory controller, and a channel of one. -/
def State.ctrl (s : State) (c : Nat) : FarCtrl := s.far.ctrls.find .init c
def State.setCtrl (s : State) (c : Nat) (x : FarCtrl) : State := { s with far := { s.far with ctrls := s.far.ctrls.put c x } }
def State.farChan (s : State) (c k : Nat) : FarChan := s.far.chans.find .init (c * 16 + k)
def State.setFarChan (s : State) (c k : Nat) (x : FarChan) : State :=
  { s with far := { s.far with chans := s.far.chans.put (c * 16 + k) x } }

/-! ### Background requests (R201, R202) -/

/-- An accepted request reaches the blocks of the places `gs`: a scrub write-back that waits for one of them is discarded (R205). -/
def State.dropFixes (s : State) (gs : List FarLoc) : State :=
  gs.foldl (fun s g =>
    let x := s.farChan g.ctrl g.chan
    if x.fixes.contains g.blk then s.setFarChan g.ctrl g.chan { x with fixes := x.fixes.filter fun b => b ≠ g.blk } else s) s

/-- A background access of `n` bytes at `off` of layout `r` joins the controllers it reaches (R201). -/
def State.background (s : State) (src : BgSrc) (r : FarRegion) (off n : Nat) (write : Bool) : State :=
  let gs := (List.range ((off % 64 + n + 63) / 64)).map fun i => r.map (off + 64 * i)
  ((List.range 36).filter fun c => gs.any fun g => g.ctrl = c).foldl (fun s c =>
    let x := s.ctrl c
    let mine := gs.filter fun g => g.ctrl = c
    s.setCtrl c { x with bg := x.bg ++ [{
      src := src, at_ := s.gsc, urgent := false, begun := false, write := write
      grans := mine.map fun g =>
        { chan := g.chan, blk := g.blk, whole := write && (mine.filter fun y => y.chan = g.chan && y.blk = g.blk).length = 15 } }] })
    (s.dropFixes gs)

/-- The request a controller serves (R202): the oldest urgent one, else the one in progress, else the oldest. -/
def pickBg (l : List BgReq) : Option Nat :=
  let i := l.zipIdx
  match i.find? fun x => x.1.urgent with
  | some x => some x.2
  | none =>
    match i.find? fun x => x.1.begun with
    | some x => some x.2
    | none => if l = [] then none else some 0

/-- BACKGROUND_URGENT: the requests of controller `c` held unserved for more than 50 ms become urgent (R202). -/
def execBackgroundUrgent (c : Nat) (s : State) : Out State :=
  if 36 ≤ c then .fault .noSuchChannel
  else
    match (s.ctrl c).bg.find? fun b => !b.urgent && !b.begun with
    | none => .next s
    | some b =>
      let s := s.advanceTo (b.at_ + 50000001)
      let x := s.ctrl c
      let late := fun (b : BgReq) => !b.urgent && !b.begun && b.at_ + 50000000 < s.gsc
      .next (s.setCtrl c { x with
        urgent := satAdd 32 x.urgent (x.bg.filter late).length
        bg := x.bg.map fun b => if late b then { b with urgent := true } else b })

/-! ### Requests (R211, R213) -/

/-- The granules of a request that lie on controller `c`: place in the request and location. -/
def FarRegion.grans (r : FarRegion) (off len c : Nat) : List (Nat × FarLoc) :=
  (List.range (len / 64)).filterMap fun i => if (r.map (off + 64 * i)).ctrl = c then some (i, r.map (off + 64 * i)) else none

/-- A request's region and offset (R207). -/
def QReq.region (r : QReq) : Nat := r.addr.toNat / 2 ^ 44 % 16
def QReq.off (r : QReq) : Nat := r.addr.toNat % 2 ^ 44

/-- Staged bytes are given to the requests in push order (R180). -/
def giveStaged : List QReq → Bytes → List QReq × Bytes
  | [], b => ([], b)
  | r :: rs, b =>
    let n := min (r.len - r.got) b.length
    let r' := { r with data := r.data.write r.got (b.take n), got := r.got + n }
    if r'.got < r'.len then (r' :: rs, b.drop n)
    else
      let x := giveStaged rs (b.drop n)
      (r' :: x.1, x.2)

def Queue.give (q : Queue) : Queue :=
  let x := giveStaged q.reqs q.stage
  { q with reqs := x.1, stage := x.2 }

/-- Whether a controller holds granules of a request (R213). -/
def State.ctrlHolds (s : State) (ctrl core handle seq : Nat) : Bool :=
  (List.range 16).any fun k => (s.farChan ctrl k).prog.any fun g => g.core = core && g.handle = handle && g.seq = seq

/-- The first byte of request `r` that overlaps, on controller `ctrl`, a request held there for another queue, at least one of the
two a write (R213). -/
def State.hazard (s : State) (ctrl core handle : Nat) (r : QReq) (write : Bool) : Option Nat :=
  let mine := (s.farRegion r.region).grans r.off r.len ctrl
  (mine.find? fun g =>
    let o := r.off + 64 * g.1
    s.queues.any fun e =>
      e.1 ≠ qKey core handle && (e.2.kind = .farRead || e.2.kind = .farWrite) && (write || e.2.kind = .farWrite) &&
        e.2.reqs.any fun x => x.region = r.region && x.off ≤ o && o < x.off + x.len && x.accepted.contains ctrl &&
          s.ctrlHolds ctrl (e.1 / 32) (e.1 % 32) x.seq).map fun g => r.off + 64 * g.1

/-- The controller accepts the request: a write's bytes take effect, a read takes the bytes as they stand, the granules wait for
their slots (R211). -/
def State.acceptFar (s : State) (ctrl core handle : Nat) (r : QReq) (write : Bool) : State :=
  let R := s.farRegion r.region
  let gs := R.grans r.off r.len ctrl
  let s := s.dropFixes (gs.map fun g => g.2)
  let s := if write then gs.foldl (fun s g => s.farPut r.region (r.off + 64 * g.1) (r.data.read (64 * g.1) 64)) s else s
  let q := s.queue core handle
  let data := if write then r.data
    else gs.foldl (fun m g => m.write (64 * g.1) (s.farSeen (64 * g.1) r.region (r.off + 64 * g.1) 64)) r.data
  let r' := { r with accepted := r.accepted ++ [ctrl], left := r.left + gs.length, data := data }
  let s := s.setQueue core handle { q with reqs := q.reqs.map fun x => if x.seq = r.seq then r' else x }
  let s := if write then s else { s with free := s.free + r.len }
  gs.foldl (fun s g =>
    let ch := s.farChan ctrl g.2.chan
    let whole := write && (gs.filter fun y => y.2.chan = g.2.chan && y.2.blk = g.2.blk).length = 15
    s.setFarChan ctrl g.2.chan { ch with
      prog := ch.prog ++ [{ core := core, handle := handle, seq := r.seq, blk := g.2.blk, write := write, whole := whole }] }) s

/-- FAR_REQUEST's effect: controller `ctrl` accepts the oldest request of a queue that has granules on it and that it has not yet
accepted; a write only once all its bytes have come. A capture that is already VALID stays when a second hazard is raised (DESIGN CHOICE,
log entry 169: the spec does not say which of two is kept). -/
def State.farRequest (s : State) (core handle ctrl : Nat) : State :=
  let q0 := s.queue core handle
  if !(q0.kind = .farRead || q0.kind = .farWrite) || s.stop.isSome || s.far.selfRefresh || s.far.rate = 3 then s
  else
    let write := q0.kind = .farWrite
    let q := if write then q0.give else q0
    let s := s.setQueue core handle q
    match q.reqs.find? fun r => !r.accepted.contains ctrl && ((s.farRegion r.region).grans r.off r.len ctrl) ≠ [] with
    | none => s
    | some r =>
      if write && r.got < r.len then s
      else
        let hz := s.hazard ctrl core handle r write
        let s := s.acceptFar ctrl core handle r write
        match hz with
        | none => s
        | some o =>
          let s := if s.far.hazValid then s
            else { s with far := { s.far with
              hazCtrl := ctrl, hazQueue := handle, hazCore := core, hazValid := true, hazAddr := r.region * 2 ^ 44 + o } }
          s.jobFatal 0x0302

/-- FAR_REQUEST: controller `ctrl` accepts a request of queue `handle` of core `core`. -/
def execFarRequest (core handle ctrl : Nat) (s : State) : Out State :=
  if 36 ≤ ctrl then .fault .noSuchChannel
  else onCore s core (if s.bound core handle then s.farRequest core handle ctrl else s)

/-- The controllers that a request reaches. -/
def State.reqCtrls (s : State) (r : QReq) : List Nat :=
  (List.range 36).filter fun c => ((s.farRegion r.region).grans r.off r.len c) ≠ []

/-- Whether every controller has accepted a far request. -/
def State.allAccepted (s : State) (r : QReq) : Bool := (s.reqCtrls r).all fun c => r.accepted.contains c

/-! ### Temperature and training (R196 to R198) -/

/-- The hottest case of all controllers. -/
def State.caseHottest (s : State) : Nat := (List.range 36).foldl (fun m c => max m (s.ctrl c).tempCase) 0

/-- What a hottest case of `m` °C does: HOT above 95 °C, FAR_OVERTEMP above 100 °C (R198). -/
def State.caseTemps (s : State) (m : Nat) : State :=
  let t := { s with far := { s.far with caseMax := m, hot := 95 < m } }
  let t := if 95 < m && !s.far.hot then t.event 0x0311 (BitVec.ofNat 64 m) else t
  if 100 < m then t.jobFatal 0x0304 else t

/-- MR4_POLL: every 4 ms; `readings` gives each controller's hottest case temperature and highest rate code. -/
def execMr4Poll (readings : List (Nat × Nat)) (s : State) : Out State :=
  if s.far.rate = 3 || s.far.selfRefresh then .next s
  else
    let s := s.advanceTo s.far.mr4Due
    let s := { s with far := { s.far with mr4Due := s.gsc + 4000000 } }
    let s := ((readings.take 36).zipIdx).foldl (fun s x =>
      s.setCtrl x.2 { s.ctrl x.2 with tempCase := min 255 x.1.1, rateCode := x.1.2 % 32 }) s
    .next (s.caseTemps s.caseHottest)

/-- The settings of R197 that training puts into the devices' mode registers. -/
structure FarSettings where
  wckPerCk : Nat
  bankGroups : Nat
  banksPerGroup : Nat
  burstLength : Nat
  linkEcc : Bool
  onDieEcc : Bool
  busInversion : Bool
  dataCopyWriteX : Bool
  perBankRefresh : Bool
  mr4PeriodNs : Nat
  backgroundZq : Bool
  oscillatorPeriodNs : Nat
  voltageScaling : Bool
  partialArray : Bool
  packageGiB : Nat
  channelsPerPackage : Nat
deriving DecidableEq, Repr

/-- R197's table for this part. -/
def State.farSettings (s : State) : FarSettings :=
  { wckPerCk := 4, bankGroups := 4, banksPerGroup := 4, burstLength := 32, linkEcc := true, onDieEcc := true, busInversion := false
    dataCopyWriteX := false, perBankRefresh := true, mr4PeriodNs := 4000000, backgroundZq := true, oscillatorPeriodNs := 1000000
    voltageScaling := false, partialArray := false, packageGiB := if s.part.ordering = 1 then 64 else 32, channelsPerPackage := 4 }

/-- Every channel is trained at rate `rate` (R196); a change of the rate raises an event. -/
def State.trained (s : State) (rate : Nat) (degraded : Bool) : State :=
  let old := s.far.lastRate
  let s := { s with far := { s.far with
    rate := rate, lastRate := rate, degraded := degraded, mr4Due := s.gsc + s.farSettings.mr4PeriodNs
    chans := s.far.chans.map fun x => (x.1, { x.2 with oscDue := s.gsc + s.farSettings.oscillatorPeriodNs }) } }
  if rate = old then s else s.event 0x0310 (BitVec.ofNat 64 rate)

/-- FAR_TRAINING: `failHi` says that a channel failed three times in a row at 10,667 MT/s, `failLo` that one failed at 8,533 MT/s. While
a job is ARMED or RUNNING a channel that fails retraining at either rate is FAR_CHANNEL_DOWN (R218), and a channel that does not is
trained again at the rate in force, or at 10,667 MT/s after PARK. -/
def execFarTraining (failHi failLo : Bool) (s : State) : Out State :=
  if s.job.state = .armed || s.job.state = .running then
    .next (if failHi || failLo then s.jobFatal 0x0303 else if s.far.rate = 3 then s.trained 0 false else s)
  else .next (s.trained (if failHi then 1 else 0) (failHi && failLo))

/-! ### Check granules at rest -/

/-- The changed check granules of channel number `n`, held or displaced, that background traffic changed (`bg`) or program traffic. -/
def State.changedChecks (s : State) (n : Nat) (bg : Bool) : Nat :=
  let x := s.far.chans.find .init n
  ((x.held ++ x.owed).filter fun h => h.changed && h.bg == bg).length

/-- Changed check granules are written back, as before self-refresh, at a save and at the end of a job (R206); each takes a slot that its
controller counts. -/
def State.flushChecks (s : State) : State :=
  let live := fun (c : Nat) (x : FarCount) =>
    { x with check := satAdd 64 x.check ((List.range 16).foldl (fun n k => n + s.changedChecks (c * 16 + k) false) 0)
             bg := satAdd 64 x.bg ((List.range 16).foldl (fun n k => n + s.changedChecks (c * 16 + k) true) 0) }
  { s with far := { s.far with
    chans := s.far.chans.map fun x => (x.1, { x.2 with owed := [], held := x.2.held.map fun h => { h with changed := false } })
    ctrls := s.far.ctrls.map fun x => (x.1, { x.2 with live := live x.1 x.2.live }) } }

/-! ### Snapshot and launch (R217) -/

/-- SNAP in MEM_CTRL. -/
def State.snapMem (s : State) : State :=
  { s with far := { s.far with
      ssSnap := { s.far.ssLive with tick := s.tickMin, slots := s.far.chans.foldl (fun m x => max m x.2.elapsed) 0 }
      ctrls := s.far.ctrls.map fun x => (x.1, { x.2 with snap := x.2.live }) } }

/-- The counters that launch clears (R217). It clears the capture of a hazard too (DESIGN CHOICE, log entry 170: the spec says so of the
counters only). -/
def State.clearMem (s : State) : State :=
  { s with far := { s.far with
      ssLive := .init, ssSnap := .init, ssCorr := 0, ssHostRefused := 0, hazCtrl := 0, hazQueue := 0, hazCore := 0
      hazValid := false, hazAddr := 0
      chans := s.far.chans.map fun x => (x.1, { x.2 with elapsed := 0 })
      ctrls := s.far.ctrls.map fun x => (x.1, { x.2 with live := .init, snap := .init, urgent := 0, corr := 0, retry := 0 }) } }

end Sys2Proof.Machine
end

