-- ==== Sys2Proof/Machine/Command.lean ====
section
/-! DEFINITION. Lumoz commands: mailboxes, acceptance, the checks of R425, responses, host data, scatter lists (R423 to R430). -/
namespace Sys2Proof.Machine

/-! ### Host memory as DMA reads find it (R417, R430) -/

/-- The byte at a host address. -/
def HostView.byte (v : HostView) (a : Nat) : Byte :=
  match v.segs.find? fun g => g.1 ≤ a && a < g.1 + g.2.length with
  | some g => g.2.getD (a - g.1) 0#8
  | none => 0#8

/-- A DMA read of `n` bytes at `a`; none when it fails. -/
def HostView.read (v : HostView) (a n : Nat) : Option Bytes :=
  if v.bad.any fun b => b.1 < a + n && a < b.1 + b.2 then none
  else
    match v.segs.find? fun g => g.1 ≤ a && a + n ≤ g.1 + g.2.length with
    | some g => some (sub g.2 (a - g.1) n)
    | none => some ((List.range n).map fun i => v.byte (a + i))

/-- The entries (address, length) of a scatter list of `n` entries at `a` (R430). -/
def HostView.scatter (v : HostView) (a n : Nat) : Option (List (Nat × Nat)) :=
  (v.read a (16 * n)).map fun b => (List.range n).map fun i => (fld b (16 * i) 8, fld b (16 * i + 8) 4)

/-- Whether a scatter list's entries are well formed (R430). -/
def HostView.scatterOk (v : HostView) (a n : Nat) : Bool :=
  match v.read a (16 * n) with
  | some b => (List.range n).all fun i => fld b (16 * i + 8) 4 ≠ 0 && fld b (16 * i + 12) 4 = 0
  | none => true

/-- The address and count of a scatter list as a command gives them (R430). -/
def sgOk (addr count : Nat) : Bool := addr % 16 = 0 && 1 ≤ count && count ≤ 65536

/-- The bytes a scatter list names, in order. -/
def HostView.gather (v : HostView) (l : List (Nat × Nat)) : Option Bytes :=
  l.foldr (fun e r => match v.read e.1 e.2, r with
    | some a, some b => some (a ++ b)
    | _, _ => none) (some [])

/-- Bytes `[o, o + n)` of what a scatter list names. -/
def HostView.part (v : HostView) : List (Nat × Nat) → Nat → Nat → Option Bytes
  | [], _, _ => some []
  | e :: es, o, n =>
    if e.2 ≤ o then HostView.part v es (o - e.2) n
    else
      let k := min n (e.2 - o)
      match v.read (e.1 + o) k, HostView.part v es 0 (n - k) with
      | some a, some b => some (a ++ b)
      | _, _ => none

/-- Writes bytes to the places a scatter list names, in order. -/
def State.scatterWrite (s : State) : List (Nat × Nat) → Bytes → State
  | [], _ => s
  | e :: es, b => State.scatterWrite (s.dmaWrite e.1 (b.take e.2)) es (b.drop e.2)

/-! ### Management frames (R444, R445) -/

/-- The management key (R465); zeros without an owner. -/
def State.mgmtKey (s : State) : Bytes := match s.sec.owner with | some o => o.mgmtKey | none => zeros 48

/-- The bytes 0x4E, 0x44, 0x4D, 0x50. -/
def mgmtMagic : Bytes := [0x4E#8, 0x44#8, 0x4D#8, 0x50#8]

/-- A frame's bytes before its MAC. -/
def frameHead (typ port : Nat) (serial : Bytes) (seq : Nat) (body : Bytes) : Bytes :=
  mgmtMagic ++ leBytes 1 typ ++ leBytes 1 port ++ leBytes 2 body.length ++ padTo 16 serial ++ leBytes 8 seq ++ body

/-- Sends a frame on a management port under its own next SEQ; in recovery the MAC field is zeros (R454). -/
def State.sendFrame (s : State) (port typ : Nat) (body : Bytes) : State :=
  let p := s.mgmtPort port
  let h := frameHead typ port s.part.serial (p.ownSeq + 1) body
  let mac := if s.sec.boot = .recovery then zeros 48 else hmac384 s.mgmtKey h
  s.setMgmtPort port { p with ownSeq := p.ownSeq + 1, tx := p.tx ++ [h ++ mac] }

/-! ### Opcodes (R431, R473, R529) -/

/-- Whether an opcode is defined. -/
def opDefined (op : Nat) : Bool :=
  op = 0x0001 || (0x0101 ≤ op && op ≤ 0x010B) || (0x0201 ≤ op && op ≤ 0x0204) || (0x0301 ≤ op && op ≤ 0x0307) ||
    (0x0401 ≤ op && op ≤ 0x0406) || (0x0501 ≤ op && op ≤ 0x0507) || (0x0601 ≤ op && op ≤ 0x0602) ||
    (0x0701 ≤ op && op ≤ 0x0711) || (0x0801 ≤ op && op ≤ 0x0808)

/-- The opcodes recovery accepts (R454); SEC_LC_ADVANCE from BLANK only. -/
def recoveryAllows (op lc : Nat) : Bool :=
  op = 0x0001 || op = 0x0701 || (op = 0x070A && lc = 0) || op = 0x0710 || op = 0x0711

/-- The commands that execute one at a time (R426). -/
def opExclusive (op : Nat) : Bool := 0x0101 ≤ op && op ≤ 0x010B

/-! ### Responses (R423, R424) -/

/-- The 32 B header of a response. SECTION is one byte: of a section index of 256 or more it holds the low byte (DESIGN CHOICE, log entry
178: the spec allows 512 sections). -/
def Response.header (r : Response) : Bytes :=
  leBytes 2 r.opcode ++ leBytes 2 r.payload.length ++ leBytes 4 r.seq.toNat ++ leBytes 8 r.tag.toNat ++ leBytes 2 r.result.toNat ++
    leBytes 2 r.fault.toNat ++ leBytes 1 r.sect ++ zeros 3 ++ leBytes 4 r.entry.toNat ++ zeros 4

/-- The commands whose failure puts a block or tensor number into ENTRY, or 0xFFFF_FFFF where none applies (R423). -/
def opEntry (op : Nat) : Bool := op = 0x0301 || op = 0x0302 || op = 0x0203

/-- ENTRY of a response. -/
def Reply.entryOf (r : Reply) (op : Nat) : Nat := r.entry.getD (if opEntry op && r.result ≠ .ok then 0xFFFFFFFF else 0)

/-- A channel's response: BUSY falls and DONE rises; a mailbox channel sends its vector, a management channel a RESPONSE frame. -/
def State.respond (s : State) (ch : Nat) (r : Reply) : State :=
  let x := s.chan ch
  match x.cmd with
  | none => s
  | some c =>
    let resp : Response :=
      { opcode := c.opcode, seq := c.seq, tag := c.tag, result := BitVec.ofNat 16 r.result.code, fault := BitVec.ofNat 16 r.fault
        sect := r.sect, entry := BitVec.ofNat 32 (r.entryOf c.opcode), payload := r.payload }
    let s := s.setChan ch { x with busy := false, done := true, cmd := none, resp := some resp }
    if 8 ≤ ch then s.sendFrame (ch - 8) 4 (resp.header ++ resp.payload)
    else if x.vecEn then s.sendVector x.vector else s

/-- A result alone. -/
def Reply.of (r : Result) : Reply := { result := r }
/-- OK with a payload. -/
def Reply.ok (b : Bytes := []) : Reply := { result := .ok, payload := b }
/-- A result with a fault code. -/
def Reply.bad (r : Result) (fault : Nat) : Reply := { result := r, fault := fault }

/-- Whether the host interface answers nothing: in a halted module only the status mirror and SMBus answer (R453), and after a thermal
shutdown only the always-on blocks are powered (R486). -/
def State.deaf (s : State) : Bool := s.sec.boot = .halted || s.sec.boot = .thermalOff

/-- What a host access does, unless nothing answers it. -/
def State.heard (s : State) (t : Out State) : Out State := if s.deaf then .next s else t

/-- Whether firmware, or the boot ROM in recovery, answers commands on channel `ch` (R453, R454). -/
def State.answers (s : State) (ch : Nat) : Bool :=
  match s.sec.boot with
  | .running => true
  | .recovery => ch = 0 || ch = 8
  | _ => false

/-- Commands at the front of the order whose opcode is not defined are answered (R425). -/
def State.answerUnknown : Nat → State → State
  | 0, s => s
  | n + 1, s =>
    match s.host.order with
    | [] => s
    | ch :: rest =>
      match s.cmdOf ch with
      | none => State.answerUnknown n { s with host := { s.host with order := rest } }
      | some c =>
        if opDefined c.opcode || !s.answers ch then s
        else
          let s := { s with host := { s.host with order := rest } }
          State.answerUnknown n (s.respond ch (.of (if s.sec.boot = .recovery then .state else .unknownOpcode)))

/-- Whether another command of R426's range is executing. -/
def State.exclusiveBusy (s : State) (ch : Nat) : Bool :=
  s.host.chans.any fun x => x.1 ≠ ch && match x.2.cmd with | some c => c.executing && opExclusive c.opcode | none => false

/-- What a command's rules answer: done with a reply, or going on. -/
inductive Verdict where
  | done (s : State) (r : Reply)
  | goOn (s : State)

/-- How a command is checked and run: its opcode, the LENGTHs allowed, the layout and ranges of its payload, the state it needs,
whether it needs the fabric, the stores, the far memory or the links (R480), and its rules. -/
structure CmdSpec where
  op : Nat
  len : Nat → Bool
  fields : Bytes → Bool
  allowed : State → Bool
  wakes : Bool
  act : State → Nat → Bytes → Verdict

/-- The checks of R425 in order, with recovery's (R454) and R426's. -/
def CmdSpec.check (p : CmdSpec) (s : State) (ch : Nat) (c : Cmd) : Option Result :=
  if s.sec.boot = .recovery && !recoveryAllows p.op s.sec.fuses.lc then some .state
  else if !p.len c.length then some .range
  else if c.reserved ≠ 0 || !p.fields c.payload then some .range
  else if !p.allowed s then some .state
  else if opExclusive p.op && s.exclusiveBusy ch then some .busy
  else none

/-- Executes the command that channel `ch` carries, when it is this one and it is the next to be accepted (R425). -/
def CmdSpec.run (p : CmdSpec) (s : State) (ch : Nat) : State :=
  match s.cmdOf ch with
  | none => s
  | some c =>
    if c.opcode ≠ p.op || c.executing || s.host.order.head? ≠ some ch || !s.answers ch then s
    else
      let s := { s with host := { s.host with order := s.host.order.drop 1 } }
      let s :=
        match p.check s ch c with
        | some r => s.respond ch (.of r)
        | none =>
          let s := if p.wakes then s.wake else s
          let s := s.setChan ch { s.chan ch with cmd := some { c with executing := true } }
          match p.act s ch c.payload with
          | .done s r => s.respond ch r
          | .goOn s => s
      s.answerUnknown 10

/-- A command row: a channel above 9 stops. -/
def CmdSpec.row (p : CmdSpec) (ch : Nat) (s : State) : Out State :=
  if 10 ≤ ch then .fault .noSuchMailbox else .next (p.run s ch)

/-- A state list. -/
def jobIn (l : List JobState) (s : State) : Bool := l.contains s.job.state
def anyState (_ : State) : Bool := true

/-! ### Submission (R424) -/

/-- The command that stands in a channel's buffer. -/
def Channel.latch (x : Channel) (seq : W32) (gsc : Nat) : Cmd :=
  let n := leNat (x.buf.read 2 2)
  { opcode := leNat (x.buf.read 0 2), length := n, reserved := leNat (x.buf.read 4 4), tag := BitVec.ofNat 64 (leNat (x.buf.read 8 8))
    payload := x.buf.read 16 (min n 4064), seq := seq, doorbellGsc := gsc, executing := false }

/-- A command on a channel: BUSY rises, DONE falls, the channel's source is raised, the command waits its turn; on a channel that is not
answered it takes none (R454). -/
def State.submit (s : State) (ch : Nat) (c : Cmd) : State :=
  let s := s.setChan ch { s.chan ch with busy := true, done := false, cmd := some c }
  let s := if s.answers ch then { s with host := { s.host with order := s.host.order ++ [ch] } } else s
  (s.raiseSource ch { fault := false, gsc := s.gsc, arg0 := 0, arg1 := 0 }).answerUnknown 10

/-- MB_DOORBELL: submits the command in the buffer of mailbox channel `ch`; while BUSY it only sets OVERRUN. -/
def execMbDoorbell (ch : Nat) (seq : W32) (s : State) : Out State :=
  if 8 ≤ ch then .fault .noSuchMailbox
  else
    let x := s.chan ch
    s.heard (.next (if x.busy then s.setChan ch { x with overrun := true } else s.submit ch (x.latch seq s.gsc)))

end Sys2Proof.Machine
end

