-- ==== Sys2Proof/Machine/LinkCodec.lean ====
section
/-! DEFINITION. What one flow unit looks like on the wire: RS(144,136), CRC-32C, header, lanes, scrambler, training frames
(R342 to R346, R363). -/
namespace Sys2Proof.Machine

/-! ### GF(2⁸) with x⁸ + x⁴ + x³ + x² + 1 (R344) -/

abbrev Gf := BitVec 8

/-- Times α. -/
def gfX (a : Gf) : Gf := (a <<< 1) ^^^ (if a.getLsbD 7 then 0x1D#8 else 0#8)

def gfMulN : Nat → Gf → Gf → Gf
  | 0, _, _ => 0#8
  | n + 1, a, b => (if b.getLsbD 0 then a else 0#8) ^^^ gfMulN n (gfX a) (b >>> 1)

def gfMul (a b : Gf) : Gf := gfMulN 8 a b

def gfPow (a : Gf) : Nat → Gf
  | 0 => 1#8
  | n + 1 => gfMul a (gfPow a n)

/-- The inverse, a²⁵⁴. -/
def gfInv (a : Gf) : Gf := gfPow a 254

/-- αⁿ. -/
def gfAlpha (n : Nat) : Gf := gfPow 2#8 (n % 255)

/-- A polynomial, lowest coefficient first, at x. -/
def gfEval (p : List Gf) (x : Gf) : Gf := p.foldr (fun c r => c ^^^ gfMul x r) 0#8

def gfAdd (a b : List Gf) : List Gf := (List.range (max a.length b.length)).map fun i => a.getD i 0#8 ^^^ b.getD i 0#8
def gfScale (c : Gf) (a : List Gf) : List Gf := a.map (gfMul c)
def gfProd (a b : List Gf) : List Gf :=
  (a.zipIdx).foldl (fun r x => gfAdd r (List.replicate x.2 0#8 ++ gfScale x.1 b)) []

/-! ### RS(144,136) (R344) -/

/-- g(x), lowest coefficient first. -/
def rsGen : List Gf := (List.range 8).foldl (fun g i => gfProd g [gfAlpha i, 1#8]) [1#8]

/-- The 8 parity symbols p_0 to p_7 of a codeword's data d_0 to d_135. -/
def rsParity (d : List Gf) : List Gf :=
  let g := (rsGen.take 8).reverse
  d.foldl (fun par x =>
    let f := x ^^^ par.getD 0 0#8
    gfAdd (par.drop 1 ++ [0#8]) (gfScale f g)) (List.replicate 8 0#8)

/-- The syndromes of a received codeword r_0 to r_143. -/
def rsSyndromes (r : List Gf) : List Gf := (List.range 8).map fun i => gfEval r.reverse (gfAlpha i)

/-- What the search for an error locator holds: locator, the one before, its length, shift, last discrepancy. -/
structure RsBm where
  c : List Gf
  b : List Gf
  len : Nat
  m : Nat
  d : Gf

def rsBmStep (s : List Gf) (x : RsBm) (n : Nat) : RsBm :=
  let d := (List.range (x.len + 1)).foldl (fun a i => a ^^^ gfMul (x.c.getD i 0#8) (if i ≤ n then s.getD (n - i) 0#8 else 0#8)) 0#8
  if d = 0#8 then { x with m := x.m + 1 }
  else
    let c := gfAdd x.c (List.replicate x.m 0#8 ++ gfScale (gfMul d (gfInv x.d)) x.b)
    if 2 * x.len ≤ n then { c := c, b := x.c, len := n + 1 - x.len, m := 1, d := d } else { x with c := c, m := x.m + 1 }

/-- Corrects up to 4 symbol errors of a codeword: its symbols and how many were wrong; none when more are. -/
def rsCorrect (r : List Gf) : Option (List Gf × Nat) :=
  let s := rsSyndromes r
  if s.all fun x => x == 0#8 then some (r, 0)
  else
    let bm := (List.range 8).foldl (rsBmStep s) { c := [1#8], b := [1#8], len := 0, m := 1, d := 1#8 }
    let om := (gfProd s bm.c).take 8
    let dl := (List.range 8).map fun i => if i % 2 = 0 then bm.c.getD (i + 1) 0#8 else 0#8
    let bad := (List.range 144).filter fun j => gfEval bm.c (gfAlpha (255 - (143 - j) % 255)) = 0#8
    let fixed := bad.foldl (fun r j =>
      let x := gfAlpha (143 - j); let y := gfInv x
      r.set j (r.getD j 0#8 ^^^ gfMul x (gfMul (gfEval om y) (gfInv (gfEval dl y))))) r
    if 4 < bm.len || bad.length ≠ bm.len || (rsSyndromes fixed).any (fun x => x != 0#8) then none else some (fixed, bm.len)

/-- Every second byte from byte `w`. -/
def evens (w : Nat) (b : Bytes) : Bytes := (List.range ((b.length + 1 - w) / 2)).map fun i => b.getD (2 * i + w) 0#8

/-- The two strings byte by byte in turn. -/
def interleave : Bytes → Bytes → Bytes
  | a :: as, b :: bs => a :: b :: interleave as bs
  | l, [] => l
  | [], l => l

/-- 272 data bytes with their 16 bytes of parity. -/
def rsEncode (d : Bytes) : Bytes := d ++ interleave (rsParity (evens 0 d)) (rsParity (evens 1 d))

/-- The 272 data bytes of a received unit and the symbols corrected; none when uncorrectable. -/
def rsDecode (u : Bytes) : Option (Bytes × Nat) :=
  match rsCorrect (evens 0 u), rsCorrect (evens 1 u) with
  | some (a, m), some (b, n) => some ((interleave a b).take 272, m + n)
  | _, _ => none

/-! ### The header (R346) -/

/-- A flow unit's header fields and payload. -/
structure UnitHdr where
  kind : Nat
  cls : Nat
  ack : Nat
  sbk : Bool
  sbv : Nat
  rseq : Nat
  dest : Nat
  epoch : Nat
  xfer : Nat
  half : Bool
  e2e : Nat
deriving DecidableEq, Repr

def UnitHdr.word (h : UnitHdr) : Nat :=
  h.kind % 4 + h.cls % 4 * 2 ^ 2 + h.ack % 65536 * 2 ^ 4 + bitAt 20 h.sbk + h.sbv % 65536 * 2 ^ 21 + h.rseq % 65536 * 2 ^ 37 +
    h.dest % 2 ^ 18 * 2 ^ 53 + h.epoch % 2 * 2 ^ 71 + h.xfer % 65536 * 2 ^ 72 + bitAt 88 h.half + h.e2e % 4 * 2 ^ 89

def unitHdrOf (w : Nat) : UnitHdr :=
  { kind := bits w 1 0, cls := bits w 3 2, ack := bits w 19 4, sbk := bit w 20, sbv := bits w 36 21, rseq := bits w 52 37
    dest := bits w 70 53, epoch := bits w 71 71, xfer := bits w 87 72, half := bit w 88, e2e := bits w 90 89 }

/-- The 268 bytes before the CRC. -/
def unitBody (h : UnitHdr) (payload : Bytes) : Bytes := leBytes 12 h.word ++ padTo 256 payload

/-- The CRC of a WL2 unit at a position (R345). -/
def unitCrc (pos : Nat) (body : Bytes) : Nat := (crc32c (leBytes 4 pos ++ body)).toNat

/-- The 288 bytes of a unit at its position, with bits of the CRC inverted before encoding (R524). -/
def unitBytes (pos crcXor : Nat) (h : UnitHdr) (payload : Bytes) : Bytes :=
  let b := unitBody h payload
  rsEncode (b ++ leBytes 4 (unitCrc pos b ^^^ crcXor))

/-- A received unit at its position: header, payload, symbols corrected; none when uncorrectable (R344, R345). -/
def unitParse (pos : Nat) (u : Bytes) : Option (UnitHdr × Bytes × Nat) :=
  match rsDecode u with
  | none => none
  | some (d, n) =>
    if fld d 268 4 = unitCrc pos (d.take 268) then some (unitHdrOf (fld d 0 12), sub d 12 256, n) else none

/-- A WL1 packet's 272 bytes, its SEQ in bits [52:37] (R366). -/
def packetBytes (h : UnitHdr) (payload : Bytes) : Bytes :=
  let b := unitBody h payload
  b ++ leBytes 4 (crc32c b).toNat

def packetParse (u : Bytes) : Option (UnitHdr × Bytes) :=
  if fld u 268 4 = (crc32c (u.take 268)).toNat then some (unitHdrOf (fld u 0 12), sub u 12 256) else none

/-! ### Lanes and the scrambler (R342) -/

/-- The scrambler's state at the first unit after training. -/
def scramInit (l : Nat) : Nat := 0x100 + l

/-- One bit of the scrambler x³¹ + x²⁸ + 1: the bit and the next state. -/
def scramStep (s : Nat) : Bool × Nat := (bit s 30, s % 2 ^ 30 * 2 + bitAt 0 (bit s 30 != bit s 27))

/-- `n` bits. -/
def scramBits : Nat → Nat → List Bool × Nat
  | 0, s => ([], s)
  | n + 1, s => let x := scramStep s; let r := scramBits n x.2; (x.1 :: r.1, r.2)

/-- The bits of a byte, [0] first. -/
def lsbBits (b : Byte) : List Bool := (List.range 8).map fun i => b.getLsbD i

/-- The Gray code of R342. -/
def grayLevels : List Bool → List Nat
  | a :: b :: r => (match b, a with | false, false => 0 | false, true => 1 | true, true => 2 | true, false => 3) :: grayLevels r
  | _ => []

/-- The bytes of lane `l` of `w` lanes: 18 of a unit on 16. -/
def laneBytes (w : Nat) (u : Bytes) (l : Nat) : Bytes :=
  ((List.range u.length).filter fun i => i / 2 % w = l).map fun i => u.getD i 0#8

/-- What lane `l` of `w` sends for a training frame, unscrambled (R363). -/
def lanePlain (w : Nat) (u : Bytes) (l : Nat) : List Nat := grayLevels ((laneBytes w u l).flatMap lsbBits)

/-- What lane `l` of `w` sends for a unit from scrambler state `s`: its levels and the next state. R342 gives the lanes of a port at x16;
on the 8 lanes of one at x8 the bytes go round likewise (DESIGN CHOICE, log entry 173). -/
def laneSend (w : Nat) (u : Bytes) (l s : Nat) : List Nat × Nat :=
  let b := (laneBytes w u l).flatMap lsbBits
  let k := scramBits b.length s
  (grayLevels ((b.zip k.1).map fun x => x.1 != x.2), k.2)

/-! ### Test patterns (R520) -/

/-- A pattern's degree, the taps of its polynomial, and whether its output is inverted. -/
def prbsShape (pattern : Nat) : Nat × List Nat × Bool :=
  match pattern with
  | 1 => (7, [7, 6], false)
  | 2 => (9, [9, 5], false)
  | 3 => (13, [13, 12, 2, 1], false)
  | 4 => (15, [15, 14], true)
  | 5 => (23, [23, 18], true)
  | _ => (31, [31, 28], true)

/-- One bit of a pattern: the bit and the next state. -/
def prbsStep (pattern s : Nat) : Bool × Nat :=
  let x := prbsShape pattern
  (bit s (x.1 - 1) != x.2.2, s % 2 ^ (x.1 - 1) * 2 + bitAt 0 (x.2.1.foldl (fun b t => b != bit s (t - 1)) false))

/-- `n` bits of a pattern. -/
def prbsBits (pattern : Nat) : Nat → Nat → List Bool × Nat
  | 0, s => ([], s)
  | n + 1, s => let x := prbsStep pattern s; let r := prbsBits pattern n x.2; (x.1 :: r.1, r.2)

/-- Lane `l`'s generator at its start: all ones, shifted by `l` steps. -/
def prbsInit (pattern l : Nat) : Nat := (prbsBits pattern l (2 ^ (prbsShape pattern).1 - 1)).2

/-- The byte of eight bits, [0] first. -/
def bitsByte (l : List Bool) : Byte := BitVec.ofNat 8 ((l.zipIdx.map fun x => bitAt x.2 x.1).sum)

/-- `n` bytes of a pattern. -/
def prbsBytes (pattern : Nat) : Nat → Nat → Bytes × Nat
  | 0, s => ([], s)
  | n + 1, s => let x := prbsBits pattern 8 s; let r := prbsBytes pattern n x.2; (bitsByte x.1 :: r.1, r.2)

/-- One unit time of a PRBS pattern on `n` lanes: the levels of each lane and the generators' next states. -/
def prbsLanes (pattern n : Nat) (gens : List Nat) : List (List Nat) × List Nat :=
  let l := (List.range n).map fun i => prbsBits pattern 144 (gens.getD i (prbsInit pattern i))
  (l.map fun x => grayLevels x.1, l.map fun x => x.2)

/-! ### Training frames (R363) -/

/-- The bytes of a training frame from its fields: bytes 4 to 83. -/
def frameBytes (fields : Bytes) : Bytes :=
  let b := padTo 268 ([0x57#8, 0x4C#8, 0x54#8, 0x53#8] ++ fields)
  rsEncode (b ++ leBytes 4 (crc32c b).toNat)

/-- A received frame's 268 bytes; none when it does not decode or fails its CRC. -/
def frameParse (u : Bytes) : Option Bytes :=
  match rsDecode u with
  | none => none
  | some (d, _) =>
    if fld d 268 4 = (crc32c (d.take 268)).toNat && sub d 0 4 = [0x57#8, 0x4C#8, 0x54#8, 0x53#8] then some (d.take 268) else none

end Sys2Proof.Machine
end

