-- ==== Sys2Proof/Machine/Route.lean ====
section
/-! DEFINITION. Routes, the port switch, transfers of the module's own and delivery to this module (R377 to R397, R346, R368 to
R371, R381 to R387). -/
namespace Sys2Proof.Machine

def State.port (s : State) (p : Nat) : LinkPort := s.ports.find .init p
def State.setPort (s : State) (p : Nat) (x : LinkPort) : State := { s with ports := s.ports.put p x }
def State.withFab (s : State) (f : Fabric) : State := { s with fab := f }
def State.bank (s : State) (b : Nat) : Bank := s.fab.banks.find .init b
def State.setBank (s : State) (b : Nat) (x : Bank) : State := { s with fab := { s.fab with banks := s.fab.banks.put b x } }

/-- Counters of a port (R376), numbered: 0 to 3 TX_UNITS, 4 to 7 RX_UNITS, then REPLAYS, VOIDS, NAKS, DUPS, FEC_SYMBOLS, UNCORR,
CREDIT_STALL, STALL, E2E_RESENDS. -/
inductive PortCount where
  | tx (c : Nat) | rx (c : Nat) | replays | voids | naks | dups | fec | uncorr | creditStall | stall | resends
deriving DecidableEq, Repr

def PortCount.ix : PortCount → Nat
  | .tx c => c | .rx c => 4 + c | .replays => 8 | .voids => 9 | .naks => 10 | .dups => 11 | .fec => 12 | .uncorr => 13
  | .creditStall => 14 | .stall => 15 | .resends => 16

/-- A counter rises and saturates. -/
def LinkPort.tally (x : LinkPort) (c : PortCount) (n : Nat := 1) : LinkPort :=
  { x with count := x.count.put c.ix (satAdd (if c.ix = 16 then 32 else 64) (x.count.find 0 c.ix) n) }

/-! ### Pools (R355) -/

/-- A class's reserved cells. -/
def poolMin (c : Nat) : Nat := if c = 0 then 128 else 32

/-- The cells of the shared part that counts by class use. -/
def sharedUse (m : Map Nat) : Nat := (List.range 4).foldl (fun n k => n + (m.find 0 k - poolMin k)) 0

/-- Whether one more cell of a class fits the counts (R355, R356). -/
def cellFits (m : Map Nat) (c : Nat) : Bool := m.find 0 c < poolMin c || sharedUse m < 800

/-- Units in a pool. -/
def LinkPort.depth (x : LinkPort) : Nat := (List.range 4).foldl (fun n k => n + x.cells.find 0 k) 0

/-- A unit of class `c` takes a cell. -/
def LinkPort.alloc (x : LinkPort) (c : Nat) : LinkPort :=
  let y := { x with cells := x.cells.put c (x.cells.find 0 c + 1) }
  { y with qMax := max y.qMax y.depth }

/-- A unit of class `c` leaves the pool. -/
def LinkPort.release (x : LinkPort) (c : Nat) : LinkPort :=
  { x with cells := x.cells.put c (x.cells.find 0 c - 1), freed := x.freed.put c (x.freed.find 0 c + 1) }

/-- Bytes of a unit's payload that belong to its transfer. -/
def LUnit.size (u : LUnit) : Nat := if u.half then 128 else 256
def LUnit.bytes (u : LUnit) : Bytes := u.data.take u.size

/-- A waiting unit has left the place it came from: its cell is freed, or its bytes are passed on from staging (R533). -/
def State.leave (s : State) (src : UnitSrc) (u : LUnit) : State :=
  match src with
  | .pool p => s.setPort p ((s.port p).release u.cls)
  | .stage c h n =>
    let q := s.queue c h
    s.setQueue c h { q with reqs := q.reqs.map fun r => if r.seq = n then { r with sent := r.sent + u.size } else r }
  | .own => s

/-! ### The route function (R389 to R392) -/

/-- The egress of a unit. -/
inductive Egress where
  | deliver | discard | port (p : Nat)
deriving DecidableEq, Repr

/-- A coordinate (0 x, 1 y, 2 z) of a fabric address. -/
def coord (a d : Nat) : Nat := a % 64 / 4 ^ d % 4

/-- The distance from `a` to `b` along a coordinate, going in the + direction. -/
def ringDelta (a b d : Nat) : Nat := (coord b d + 4 - coord a d) % 4

/-- route() of a module at `own` (R390). -/
def Bank.route (b : Bank) (own dest xfer : Nat) : Egress :=
  if dest = own then .deliver
  else if dest / 64 ≠ own / 64 then
    let p := b.pod.find 0x1F (dest / 64)
    if p = 0x1F then .discard else .port p
  else
    match (List.range 3).find? fun d => ringDelta own dest d ≠ 0 with
    | none => .deliver
    | some d => .port (b.dir.getD (4 * d + (if ringDelta own dest d = 3 then 2 else 0) + xfer % 2) 0)

/-- Whether port `p` is ACTIVE and correctly wired. -/
def State.goodPort (s : State) (p : Nat) : Bool := (s.port p).state = .active && !(s.port p).miswired

/-- The route of a MAINT unit (R392). -/
def State.maintRoute (s : State) (dest epoch : Nat) : Egress :=
  let own := s.fab.addr
  if dest = own then (if s.fab.addrValid then .deliver else .discard)
  else if dest / 64 ≠ own / 64 then
    let p := (s.bank epoch).pod.find 0x1F (dest / 64)
    if p = 0x1F then .discard else .port p
  else
    let ok := (List.range 12).filter fun p =>
      let d := p / 4
      let δ := ringDelta own dest d
      s.goodPort p && (if p % 4 < 2 then δ = 1 || δ = 2 else δ = 3 || δ = 2)
    match ok with
    | p :: _ => .port p
    | [] => .discard

/-- The egress of a unit by class, destination, id and epoch. -/
def State.egress (s : State) (cls dest xfer epoch : Nat) : Egress :=
  if cls = 3 then s.maintRoute dest epoch else (s.bank epoch).route s.fab.addr dest xfer

def State.fenced (s : State) (p : Nat) : Bool := bit s.fab.fence p

/-- A unit is discarded (R391, R382, R386, R395): counted, and for a transit unit the event. -/
def State.discardUnit (s : State) (dest cause : Nat) (transit : Bool) : State :=
  let s := { s with fab := { s.fab with discards := satAdd 64 s.fab.discards 1, discDest := dest, discCause := cause } }
  if transit then s.event 0x0607 else s

/-! ### Delivery to this module (R385, R386) -/

/-- The fabric-receive entry that carries a transfer id: core, handle, index of the entry, LENGTH, number of entries. -/
def State.expected (s : State) (xfer : Nat) : Option (Nat × Nat × Nat × Nat × Nat) :=
  (s.queues.filterMap fun e =>
    if e.2.kind = .fabricReceive then
      let l := e.2.expects
      (l.zipIdx.find? fun x => x.1.aux / 2 ^ 32 % 65536 = xfer).map fun x => (e.1 / 32, e.1 % 32, x.2, x.1.length, l.length)
    else none).head?

/-- Puts bytes into the landing data of request `n`, in request order. -/
def landPut : List (Nat × Bytes) → Nat → Bytes → List (Nat × Bytes)
  | [], n, b => [(n, b)]
  | (m, x) :: r, n, b => if m = n then (m, x ++ b) :: r else if n < m then (n, b) :: (m, x) :: r else (m, x) :: landPut r n b

/-- Bytes in a queue's landing area. -/
def Queue.landed (q : Queue) : Nat := q.land.foldl (fun n x => n + x.2.length) 0

/-- Appends bytes of an expected transfer to its queue's landing area (R385), where there is room; those beyond the entry's LENGTH begin
the next instance. -/
def State.landFabric (s : State) (xfer : Nat) (b : Bytes) : Option State :=
  match s.expected xfer with
  | none => none
  | some (c, h, e, len, n) =>
    let q := s.queue c h
    if q.landSize < q.landed + b.length then none
    else
      let key := qKey c h * 16 + e
      let got := s.fab.rxCount.find 0 key
      let k := got / max 1 len
      let here := min b.length ((k + 1) * len - got)
      let l := landPut q.land (k * n + e + 1) (b.take here)
      let s := s.setQueue c h { q with land := if here < b.length then landPut l ((k + 1) * n + e + 1) (b.drop here) else l }
      some { s with fab := { s.fab with rxCount := s.fab.rxCount.put key (got + b.length) } }

/-- The units that wait for a landing area are delivered as far as there is room, in order for each queue. -/
def State.switchPump (s : State) : State :=
  let r := s.fab.switch.foldl (fun (p : State × List TxItem × List Nat) it =>
    let k := match p.1.expected it.unit.xfer with | some (c, h, _, _, _) => qKey c h | none => 0
    if p.2.2.contains k then (p.1, p.2.1 ++ [it], p.2.2)
    else
      match p.1.landFabric it.unit.xfer it.unit.bytes with
      | some t => (t.leave it.src it.unit, p.2.1, p.2.2)
      | none => (p.1, p.2.1 ++ [it], k :: p.2.2)) (s, [], [])
  { r.1 with fab := { r.1.fab with switch := r.2.1 } }

/-- The end-to-end units of an id and class that are being collected (R371). -/
def State.e2eRxOf (s : State) (xfer cls : Nat) : E2eRx :=
  (s.fab.e2eRx.find? fun e => e.xfer = xfer && e.cls = cls).getD { xfer := xfer, cls := cls, held := [] }

def State.setE2eRx (s : State) (e : E2eRx) : State :=
  { s with fab := { s.fab with e2eRx := e :: s.fab.e2eRx.filter fun x => !(x.xfer = e.xfer && x.cls = e.cls) } }

/-- The end-to-end transfer of a source, id and class (R371, R387). -/
def State.e2eSeenOf (s : State) (src xfer cls : Nat) : E2eSeen :=
  (s.fab.e2eSeen.find? fun e => e.src = src && e.xfer = xfer && e.cls = cls).getD
    { src := src, xfer := xfer, cls := cls, next := 0, got := 0, whole := false, first := [] }

def State.setE2eSeen (s : State) (e : E2eSeen) : State :=
  { s with fab := { s.fab with
    e2eSeen := e :: s.fab.e2eSeen.filter fun x => !(x.src = e.src && x.xfer = e.xfer && x.cls = e.cls) } }

/-- A unit for this module, its cell still taken: it goes to its consumer or waits for it, an end-to-end data unit until its segment is
accepted. `fresh` tells that it came as a NEW unit; one for a landing buffer ends a low-power state (R480). -/
def State.consume (s : State) (p : Nat) (u : LUnit) (fresh : Bool) : State :=
  let src := UnitSrc.pool p
  let s := if (s.expected u.xfer).isSome then s.wake else s
  if u.e2e = 3 then (s.withFab { s.fab with acks := s.fab.acks ++ [u] }).leave src u
  else if u.xfer < 0xFF00 && (s.expected u.xfer).isNone then
    let s := s.leave src u
    if s.job.state.active then s.jobFatal 0x0602 else s.discardUnit u.dest 4 false
  else if u.e2e = 2 then (s.withFab { s.fab with trailers := s.fab.trailers ++ [u] }).leave src u
  else if u.e2e = 1 then
    let e := s.e2eRxOf u.xfer u.cls
    s.setE2eRx { e with held := e.held ++ [{ unit := u, src := src, seg := 0, tid := 0 }] }
  else if u.xfer < 0xFF00 then
    (s.withFab { s.fab with switch := s.fab.switch ++ [{ unit := u, src := src, seg := 0, tid := 0 }] }).switchPump
  else if u.xfer = 0xFFFE then
    (s.withFab { s.fab with beacons := s.fab.beacons ++ [{ port := p, at_ := s.gsc, fresh := fresh, data := u.data }] }).leave src u
  else s.leave src u

/-- Bank bookkeeping of an arriving unit's epoch (R394, R395). -/
def State.seeEpoch (s : State) (b : Nat) : State :=
  let k := s.bank b
  match k.state with
  | .draining => s.setBank b { k with oldSeen := satAdd 64 k.oldSeen 1 }
  | .retired => s.setBank b { k with oldSeen := satAdd 64 k.oldSeen 1, state := .draining }
  | _ => s

/-- Whether port `p` carries MAINT units alone: it is trained at x8 or miswired, or the module has no address (R341, R377, R379). -/
def State.maintOnly (s : State) (p : Nat) : Bool := !s.fab.addrValid || (s.port p).x8 || (s.port p).miswired

/-- A unit leaves port `p`'s receiver in order (R349): to this module, to another port, or discarded. A unit that its port may not carry
is discarded as one without a route (DESIGN CHOICE, log entry 174). -/
def State.deliver (s : State) (p : Nat) (u : LUnit) (fresh : Bool) : State :=
  let src := UnitSrc.pool p
  let s := s.seeEpoch u.epoch
  if s.fenced p && u.cls ≠ 3 then
    { s with fab := { s.fab with fenceDrops := satAdd 64 s.fab.fenceDrops 1 } }.leave src u
  else if s.maintOnly p && u.cls ≠ 3 then (s.leave src u).discardUnit u.dest 0 true
  else if 0xFF00 ≤ u.xfer && u.xfer ≤ 0xFFF7 then (s.leave src u).discardUnit u.dest 3 false
  else if (s.bank u.epoch).state = .empty then (s.leave src u).discardUnit u.dest 2 true
  else
    match s.egress u.cls u.dest u.xfer u.epoch with
    | .port q =>
      if s.fenced q && u.cls ≠ 3 then (s.leave src u).discardUnit u.dest 1 true
      else s.setPort q { s.port q with txq := (s.port q).txq ++ [{ unit := u, src := src, seg := 0, tid := 0 }] }
    | .discard => (s.leave src u).discardUnit u.dest 0 true
    | .deliver => s.consume p u fresh

/-! ### Transfers of this module (R346, R368 to R370, R383) -/

/-- Whether a class is sent end-to-end on a port (R368). -/
def LinkPort.e2eOn (x : LinkPort) (cls : Nat) : Bool := cls = 3 || bit x.e2eClass cls

/-- Whether a transfer of the module's own is: cassette manifests and blocks (R263) and beacons (R397) are hop-reliable. -/
def LinkPort.ownE2e (x : LinkPort) (cls : Nat) : Bool := cls = 3 || (cls = 2 && x.e2eOn 2)

/-- The trailer of a segment (R370). -/
def trailerBytes (src xfer seg : Nat) (payload : Bytes) : Bytes :=
  padTo 256 ([0x57#8, 0x4C#8, 0x45#8, 0x54#8] ++ leBytes 4 src ++ leBytes 2 xfer ++ leBytes 2 seg ++ leBytes 4 payload.length ++
    sha384 payload)

/-- The units of a byte string (R346). -/
def cutUnits (cls dest epoch xfer e2e : Nat) (b : Bytes) : List LUnit :=
  (List.range ((b.length + 255) / 256)).map fun i =>
    let x := sub b (256 * i) 256
    { cls := cls, dest := dest, epoch := epoch, xfer := xfer, half := x.length = 128, e2e := e2e, data := padTo 256 x }

/-- A whole transfer of the module's own as items for a port: its units and, end-to-end, each segment's trailer. -/
def ownItems (own cls dest epoch xfer tid : Nat) (e2e : Bool) (b : Bytes) : List TxItem :=
  if e2e then
    (List.range ((b.length + 65535) / 65536)).flatMap fun n =>
      let x := sub b (65536 * n) 65536
      ((cutUnits cls dest epoch xfer 1 x) ++ cutUnits cls dest epoch xfer 2 (trailerBytes own xfer n x)).map fun u =>
        { unit := u, src := .own, seg := n, tid := tid }
  else (cutUnits cls dest epoch xfer 0 b).map fun u => { unit := u, src := .own, seg := 0, tid := tid }

/-- Puts a transfer of the module's own on port `p` for address `dest`; `bound` tells that it is not routed. Until its first unit is sent
its mode and its epoch may still change (R368, R393). -/
def State.putOwn (s : State) (p dest cls xfer : Nat) (bound : Bool) (b : Bytes) : State :=
  let f := s.fab; let x := s.port p
  (s.withFab { f with
    nextTid := f.nextTid + 1
    owns := f.owns ++ [{ tid := f.nextTid, dest := dest, cls := cls, xfer := xfer, port := if bound then some p else none, data := b }] }).setPort
      p { x with txq := x.txq ++ ownItems f.addr cls dest f.active xfer f.nextTid (x.ownE2e cls) b }

/-- The port by which a unit of this module leaves, or the cause of its discard (R391, R395); none when it is for the module itself. -/
def State.ownPort (s : State) (cls dest xfer epoch : Nat) : Option (Sum Nat Nat) :=
  match s.egress cls dest xfer epoch with
  | .deliver => none
  | .discard => some (.inr 0)
  | .port p =>
    some (if cls = 3 then .inl p else if (s.bank epoch).state = .empty then .inr 2 else if s.fenced p then .inr 1 else .inl p)

/-- A unit of this module finds no way out (R391, R411): ROUTE_UNREACHABLE for what the job itself sends, else a counted discard. -/
def State.unreachable (s : State) (dest xfer cause : Nat) : State :=
  if s.job.state.active && (xfer < 0xFF00 || xfer = 0xFFFF || xfer = 0xFFFC) then s.jobFatal 0x0601 else s.discardUnit dest cause false

/-- A MAINT transfer without a port is discarded, its segments held for the end-to-end resend (R372, R392): at port 0, since none leads
to its destination (DESIGN CHOICE, log entry 175). -/
def State.holdLost (s : State) (dest xfer cause : Nat) (b : Bytes) : State :=
  let f := s.fab; let x := s.port 0
  let segs := (List.range ((b.length + 65535) / 65536)).map fun n =>
    let y := sub b (65536 * n) 65536
    { tid := f.nextTid, num := n, cls := 3, dest := dest, xfer := xfer, sentAt := some s.gsc, resends := 0
      units := cutUnits 3 dest f.active xfer 1 y ++ cutUnits 3 dest f.active xfer 2 (trailerBytes f.addr xfer n y) : Seg }
  ((s.withFab { f with nextTid := f.nextTid + 1 }).setPort 0 { x with segs := x.segs ++ segs }).discardUnit dest cause false

/-- Sends a transfer of the module's own toward a fabric address. -/
def State.sendOwn (s : State) (dest cls xfer : Nat) (b : Bytes) : State :=
  match s.ownPort cls dest xfer s.fab.active with
  | none => s
  | some (.inl p) => s.putOwn p dest cls xfer false b
  | some (.inr cause) => if cls = 3 then s.holdLost dest xfer cause b else s.unreachable dest xfer cause

/-- `n` bytes whose content no rule gives. -/
def State.freeBytes (s : State) (n : Nat) : Bytes × State :=
  ((List.range n).map fun i => Config.freeByte (s.free + i), { s with free := s.free + n })

/-- Sends a message whose layout no rule gives to a rank: one unit of free bytes carries it. -/
def State.sendMsg (s : State) (rank cls xfer : Nat) (m : FabMsg) : State :=
  let b := match m with | .descriptor d => (d, s) | _ => s.freeBytes 256
  { b.2 with fab := { b.2.fab with sent := b.2.fab.sent ++ [(rank, m)] } }.sendOwn (s.fab.ranks.find 0 rank) cls xfer b.1

/-- The other ranks of the job. -/
def State.otherRanks (s : State) : List Nat := (List.range s.fab.moduleCount).filter fun r => r ≠ s.fab.rank

/-! ### Fabric sends (R178, R381, R383, R393) -/

/-- What has come for a request but is not cut yet. -/
def QReq.uncut (r : QReq) (avail : Nat) : Nat := min (r.len - r.got) avail

/-- The bytes of a request that have come and are not yet passed on (R533): to a port or the port switch, to the controllers that have
accepted it, or in the posted writes of its completion. -/
def State.unpassed (s : State) (k : QKind) (r : QReq) : Nat :=
  match k with
  | .fabricSend => r.got - r.sent
  | .farWrite => r.got - 64 * r.accepted.foldl (fun n c => n + ((s.farRegion r.region).grans r.off r.len c).length) 0
  | _ => r.got

/-- The bytes that a queue's staging area holds (R533). -/
def State.occupied (s : State) (q : Queue) : Nat := q.stage.length + q.reqs.foldl (fun n r => n + s.unpassed q.kind r) 0

/-- The mode of a fabric send whose next unit is cut: egress, epoch, end-to-end (R368, R393); none when it is unreachable (R391). -/
def State.sendMode (s : State) (r : QReq) : Option (Nat × Nat × Bool) :=
  let dest := s.fab.ranks.find 0 (r.addr.toNat % 2 ^ 18)
  match r.mode with
  | some m => if m.1 < 16 && s.fenced m.1 then none else some m
  | none =>
    match s.ownPort 0 dest (r.addr.toNat / 2 ^ 32) s.fab.active with
    | none => some (16, s.fab.active, false)
    | some (.inl p) => some (p, s.fab.active, (s.port p).e2eOn 0)
    | some (.inr _) => none

/-- Cuts the next unit of a fabric send from the staging area (R383): to its port, or to the port switch for the module's own rank
(R381). None when no unit is whole. -/
def State.cutOne (s : State) (c h : Nat) : Option State :=
  let q := s.queue c h
  match q.reqs.find? fun r => r.got < r.len with
  | none => none
  | some r =>
    let n := min 256 (r.len - r.got)
    if q.stage.length < n then none
    else
      match s.sendMode r with
      | none => some (s.jobFatal 0x0601)
      | some (p, ep, e2e) =>
        let b := q.stage.take n
        let xfer := r.addr.toNat / 2 ^ 32 % 65536
        let dest := s.fab.ranks.find 0 (r.addr.toNat % 2 ^ 18)
        let num := r.got / 65536
        let acc := if r.got % 65536 = 0 then b else r.data.read 0 (r.got % 65536) ++ b
        let endSeg := acc.length = 65536 || r.got + n = r.len
        let tid := if r.tid = 0 then s.fab.nextTid else r.tid
        let u : LUnit := { cls := 0, dest := dest, epoch := ep, xfer := xfer, half := n = 128, e2e := if e2e then 1 else 0, data := padTo 256 b }
        let items := { unit := u, src := UnitSrc.stage c h r.seq, seg := num, tid := tid } ::
          (if e2e && endSeg then (cutUnits 0 dest ep xfer 2 (trailerBytes s.fab.addr xfer num acc)).map fun t =>
            { unit := t, src := .own, seg := num, tid := tid } else [])
        let r' := { r with got := r.got + n, mode := some (p, ep, e2e), data := if e2e then Mem.write [] 0 acc else [], tid := tid }
        let s := s.withFab { s.fab with nextTid := if r.tid = 0 then tid + 1 else s.fab.nextTid }
        let s := s.setQueue c h { q with stage := q.stage.drop n, reqs := q.reqs.map fun x => if x.seq = r.seq then r' else x }
        some (if p = 16 && (s.expected xfer).isNone then s.jobFatal 0x0602
          else if p = 16 then (s.withFab { s.fab with switch := s.fab.switch ++ items }).switchPump
          else s.setPort p { s.port p with txq := (s.port p).txq ++ items })

/-- Cuts every whole unit, at most `n`. -/
def State.cutAll : Nat → Nat → Nat → State → State
  | 0, _, _, s => s
  | n + 1, c, h, s =>
    if s.stop.isSome || !s.job.state.active then s
    else
      match s.cutOne c h with
      | some t => State.cutAll n c h t
      | none => s

/-- Cuts what the fabric sends of a job have staged. -/
def State.cutSends (s : State) : State :=
  s.queues.foldl (fun s e => if e.2.kind = .fabricSend then State.cutAll 4096 (e.1 / 32) (e.1 % 32) s else s) s

/-! ### Modes and epochs that change before a first unit is sent (R368, R391, R393) -/

/-- The items of transfer `tid` leave every port. -/
def State.dropItems (s : State) (tid : Nat) : State :=
  { s with ports := s.ports.map fun e => (e.1, { e.2 with txq := e.2.txq.filter fun i => i.tid ≠ tid }) }

/-- Whether request `r` is cut for a port and no unit of it has left staging. -/
def QReq.unsent (r : QReq) : Bool := r.sent = 0 && r.mode.any fun m => m.1 < 16

/-- The fabric sends of a queue that are cut but not sent are whole in the staging area again. -/
def State.uncut (s : State) (c h : Nat) : State :=
  let q := s.queue c h
  let back := q.reqs.filter QReq.unsent
  let b := back.flatMap fun r =>
    ((s.port (r.mode.getD (0, 0, false)).1).txq.filter fun i => i.tid = r.tid && i.src ≠ .own).flatMap fun i => i.unit.bytes
  (back.foldl (fun s r => s.dropItems r.tid) s).setQueue c h { q with
    stage := b ++ q.stage
    reqs := q.reqs.map fun r => if r.unsent then { r with got := 0, mode := none, data := [], tid := 0 } else r }

/-- Every transfer of which no unit has been sent is routed and cut again: its mode and epoch are those of the moment its first unit is
sent. -/
def State.recut (s : State) : State :=
  let own := s.fab.owns
  let s := own.foldl (fun s o => s.dropItems o.tid) (s.withFab { s.fab with owns := [] })
  let s := own.foldl (fun s o =>
    match o.port with
    | some p => s.putOwn p o.dest o.cls o.xfer true o.data
    | none => s.sendOwn o.dest o.cls o.xfer o.data) s
  (s.queues.foldl (fun s e => if e.2.kind = .fabricSend then s.uncut (e.1 / 32) (e.1 % 32) else s) s).cutSends

/-- Whether an item is a unit of this module that a fence keeps from leaving. -/
def TxItem.caught (i : TxItem) : Bool := i.unit.cls ≠ 3 && match i.src with | .pool _ => false | _ => true

/-- FENCE has changed: transfers not begun are routed anew, and units of this module that wait for a fenced port are unreachable
(R391). -/
def State.fenceSources (s : State) : State :=
  let s := s.recut
  ((List.range 16).filter s.fenced).foldl (fun s p =>
    let x := s.port p
    (x.txq.filter TxItem.caught).foldl (fun s i => s.unreachable i.unit.dest i.unit.xfer 1)
      (s.setPort p { x with txq := x.txq.filter fun i => !i.caught })) s

/-! ### Endpoint staging (R180, R533) -/

/-- ENDPOINT_UNIT's effect: the oldest unit on its way to the staging area that has reached its endpoint enters it. A stopping job's
endpoints take nothing (R488). -/
def State.endpointUnit (s : State) (core handle : Nat) : State :=
  let q := s.queue core handle
  let edge := edgeCore s.gridW core (epEdge q.endpoint)
  match s.flights.find? fun f => f.dest = .stage core handle && f.due ≤ s.tickOf edge with
  | none => s
  | some f =>
    let s := { s with flights := s.flights.erase f }
    if s.stop.isSome then s
    else if q.stageSize < s.occupied q + 128 then s.lateFault f.src fStagingFull (s.tickOf edge)
    else (s.setQueue core handle { q with stage := q.stage ++ padTo 128 f.data }).cutSends

/-- ENDPOINT_UNIT: a unit of core `core` reaches the staging area of its queue `handle`. -/
def execEndpointUnit (core handle : Nat) (s : State) : Out State := onCore s core (s.endpointUnit core handle)

end Sys2Proof.Machine
end

