-- ==== Sys2Proof/Machine/Link.lean ====
section
/-! DEFINITION. The link ports: unit times, reception, replay, retraining, training, WL1, end-to-end segments (R340 to R376, R524). -/
namespace Sys2Proof.Machine

/-- A command on a port: a port above 15 stops. -/
def onPort (p : Nat) (s : State) : Out State := if 16 ≤ p then .fault .noSuchPort else .next s

/-! ### Positions (R347 to R353) -/

/-- The position a 16-bit field names, read against the newest position `r` (R353): none when it lies too far behind. -/
def nearPos (r v : Nat) : Option Nat :=
  let back := (r + 65536 - v % 65536) % 65536
  if back < 32768 && back ≤ r then some (r - back) else none

/-- The ack point (R349). -/
def LinkPort.ackPt (x : LinkPort) : Nat := x.bad.foldl min x.rxPos

/-! ### Retrain and down (R359 to R361) -/

/-- A port goes DOWN (R361). -/
def State.portDown (s : State) (p : Nat) : State :=
  let x := s.port p
  let s := s.setPort p { x with state := .down, downSeen := true, modeNow := 0, phase := 0, peerValid := false, inj := none }
  if s.job.state.active then s.jobFatal 0x0501 else s

/-- Starts a retrain for a cause (R359, R376); one that follows an earlier one too soon takes the port DOWN (R361). -/
def State.retrain (s : State) (p cause : Nat) : State :=
  let x := s.port p
  if x.state ≠ .active then s
  else if cause ≠ 3 && x.lastRetrain.any (fun t => s.gsc ≤ t + max 1 x.downMs * 1000000) then s.portDown p
  else
    let s := s.setPort p { x with
      state := .retraining, phase := 1, phaseAt := s.gsc, trainAt := s.gsc, frameKey := [], frameRun := 0, inj := none, echo := 0, pat := .init
      peerValid := false
      retrains := satAdd 16 x.retrains 1, lastCause := cause, lastRetrain := if cause = 3 then x.lastRetrain else some s.gsc }
    s.event 0x0504 (BitVec.ofNat 64 cause)

/-- LINK_PROTOCOL: the event, and a retrain (R353, R356). -/
def State.linkProtocol (s : State) (p : Nat) : State := (s.event 0x0503).retrain p 1

/-! ### Transmission (R351, R352, R356 to R358, R369, R409) -/

/-- Whether a NEW unit's class may leave the port: fenced, x8 and miswired ports, and all of a module without an address, carry MAINT
alone (R341, R377, R379, R409). -/
def State.mayLeave (s : State) (p cls : Nat) : Bool := cls = 3 || !(s.fenced p || s.maintOnly p)

/-- Entries of the replay buffer in use, end-to-end segments among them (R358, R369). -/
def LinkPort.bufUsed (x : LinkPort) : Nat :=
  x.replayBuf.length + x.resend.length + x.segs.foldl (fun n g => n + g.units.length) 0

/-- The segment an end-to-end item of this module belongs to. -/
def LinkPort.segOf (x : LinkPort) (it : TxItem) : Option Seg := x.segs.find? fun g => g.tid = it.tid && g.num = it.seg

/-- Whether an item is one the module itself sends end-to-end and must hold. -/
def TxItem.held (it : TxItem) : Bool := match it.src with | .pool _ => false | _ => it.unit.e2e = 1 || it.unit.e2e = 2

/-- Whether the port has room to hold what it sends (R358, R369). -/
def LinkPort.roomFor (x : LinkPort) (it : TxItem) : Bool :=
  if it.held then
    x.bufUsed < 1024 &&
      ((x.segOf it).isSome || (x.segs.length < 3 && !x.segs.any fun g => g.tid = it.tid && g.num + 3 ≤ it.seg))
  else it.unit.e2e ≠ 0 || x.bufUsed < 1024

/-- The classes in R358's order. -/
def classOrder : List Nat := [1, 2, 3, 0]

/-- The first unit that a retrain has left to be sent again and that may leave the port (R360). -/
def State.firstResend (s : State) (p : Nat) : Option LUnit := (s.port p).resend.find? fun u => s.mayLeave p u.cls

/-- The NEW unit a port sends next, and whether it is one that a retrain sends again: those first, then by class, with credit and
room. -/
def State.nextNew (s : State) (p : Nat) : Option (TxItem × Bool) :=
  let x := s.port p
  match s.firstResend p with
  | some u => if cellFits x.out u.cls then some ({ unit := u, src := .own, seg := 0, tid := 0 }, true) else none
  | none =>
    classOrder.findSome? fun c =>
      match x.txq.find? fun it => it.unit.cls = c with
      | some it => if s.mayLeave p c && cellFits x.out c && x.roomFor it then some (it, false) else none
      | none => none

/-- Whether some class has a NEW unit ready that lacks credit, or that lacks room. -/
def State.lacks (s : State) (p : Nat) (credit : Bool) : Bool :=
  let x := s.port p
  (credit && (s.firstResend p).any fun u => !cellFits x.out u.cls) ||
    classOrder.any fun c =>
      match x.txq.find? fun it => it.unit.cls = c with
      | some it => s.mayLeave p c && (if credit then !cellFits x.out c else cellFits x.out c && !x.roomFor it)
      | none => false

/-- The SBV of the next header (R350, R357): a NAK, or a class's FREED. -/
def LinkPort.takeSbv (x : LinkPort) (gsc : Nat) : LinkPort × Bool × Nat :=
  match x.naksDue with
  | n :: r => ({ x.tally .naks with naksDue := r, nakAt := x.nakAt.put n gsc }, true, n % 65536)
  | [] =>
    let c := x.creditTurn % 4
    ({ x with creditTurn := (c + 1) % 4 }, false, c + x.freed.find 0 c % 1024 * 4)

/-- The ACK of the next header, held back by a STALE_ACK injection (R524). -/
def LinkPort.ackOut (x : LinkPort) : Nat :=
  let a := if x.modeNow = 2 then x.seqRx else x.ackPt
  match x.inj with
  | some j => if j.kind = 3 then j.ack else a
  | none => a

/-- What an injection does to the unit now sent (R524): none for an undamaged one, else the kind and NSYM. -/
def Inject.step (j : Inject) (isNew : Bool) (cls : Nat) : Option Inject × Option (Nat × Nat) :=
  let j' := { j with since := j.since + 1 }
  if j.kind = 3 then (if j.left ≤ 1 then none else some { j' with left := j.left - 1 }, none)
  else if isNew && (j.cls = 4 || j.cls = cls) && j.spacing ≤ j'.since then
    (if j.left ≤ 1 then none else some { j' with left := j.left - 1, since := 0 }, some (j.kind, j.nsym))
  else (some j', none)

/-- The bytes of a unit, damaged as an injection has it. -/
def damage (k : Option (Nat × Nat)) (pos : Nat) (h : UnitHdr) (b : Bytes) : Bytes :=
  match k with
  | some (2, _) => unitBytes pos 1 h b
  | some (0, n) => (List.range n).foldl (fun u i => u.set (2 * i) (~~~ (u.getD (2 * i) 0#8))) (unitBytes pos 0 h b)
  | _ => unitBytes pos 0 h b

/-- The lanes in use: 8 of a port trained at x8 (R341). -/
def LinkPort.lanesUp (x : LinkPort) : Nat := if x.x8 then 8 else 16

/-- A WL2 unit goes out at the next position: link fields, injection, bytes and levels. -/
def State.putUnit (s : State) (p kind rseq : Nat) (u : LUnit) : State :=
  let x := s.port p
  let (y, sbk, sbv) := x.takeSbv s.gsc
  let h : UnitHdr := { kind := kind, cls := u.cls, ack := y.ackOut % 65536, sbk := sbk, sbv := sbv, rseq := rseq % 65536, dest := u.dest
                       epoch := u.epoch, xfer := u.xfer, half := u.half, e2e := u.e2e }
  let j := match y.inj with | some j => j.step (kind = 0) u.cls | none => (none, none)
  let b := damage j.2 y.txPos h u.data
  let w := y.lanesUp
  let l := (List.range w).map fun i => laneSend w b i (y.scram.getD i 0)
  let dropped := j.2.any fun d => d.1 = 1
  s.setPort p { y with
    txPos := y.txPos + 1, inj := j.1, sentUnit := if dropped then [] else b
    replayAt := if kind = 1 || kind = 3 then some s.gsc else y.replayAt
    wire := if dropped then l.map fun x => x.1.map fun _ => 0 else l.map fun x => x.1
    scram := l.map fun x => x.2 }

/-- No payload. -/
def LUnit.none : LUnit := { cls := 0, dest := 0, epoch := 0, xfer := 0, half := false, e2e := 0, data := [] }

/-- An item the port must hold joins its segment, unless it is of a segment sent again; a trailer starts the segment's timer. -/
def LinkPort.holdSeg (x : LinkPort) (it : TxItem) (gsc : Nat) : LinkPort :=
  if !it.held then x
  else
    let g := (x.segOf it).getD { tid := it.tid, num := it.seg, cls := it.unit.cls, dest := it.unit.dest, xfer := it.unit.xfer, units := []
                                 sentAt := .none, resends := 0 }
    let g' := { g with units := if g.resends = 0 then g.units ++ [it.unit] else g.units
                       sentAt := if it.unit.e2e = 2 then some gsc else .none }
    { x with segs := x.segs.filter (fun y => y ≠ g) ++ [g'] }

/-- A NEW unit leaves (R352, R356): its debit, its entry, the place it came from; the mode of its transfer is fixed from now on (R368).
An end-to-end unit is not kept, in WL1 as in WL2. -/
def State.sendNew (s : State) (p : Nat) (it : TxItem) (again : Bool) : State :=
  let x := s.port p
  let c := it.unit.cls
  let key := if x.modeNow = 2 then x.seqTx else x.txPos
  let keep := it.unit.e2e = 0
  let y : LinkPort := { x.tally (.tx c) with
    out := x.out.put c (x.out.find 0 c + 1)
    history := if x.modeNow = 2 then [] else x.history ++ [{ pos := x.txPos, replayable := it.unit.e2e = 0, voids := 0 }]
    replayBuf := if keep then x.replayBuf ++ [{ pos := key, unit := it.unit, at_ := s.gsc, count := 0 }] else x.replayBuf
    seqTx := if x.modeNow = 2 then (x.seqTx + 1) % 65536 else x.seqTx }
  if again then s.setPort p { y with resend := y.resend.erase it.unit }
  else
    let s := (s.setPort p ({ y with txq := y.txq.erase it }.holdSeg it s.gsc)).leave it.src it.unit
    s.withFab { s.fab with owns := s.fab.owns.filter fun o => o.tid ≠ it.tid }

/-- A position that carries no NEW unit. -/
def LinkPort.plain (x : LinkPort) : LinkPort := { x with history := x.history ++ [{ pos := x.txPos, replayable := false, voids := 0 }] }

/-- A REPLAY of the entry at `pos` (R351, R352); a ninth retrains the port (R359). -/
def State.sendReplay (s : State) (p pos : Nat) : State :=
  let x := s.port p
  let x := { x with nakReplays := x.nakReplays.erase pos, timerReplays := x.timerReplays.erase pos }
  match x.replayBuf.find? fun h => h.pos = pos with
  | none => (s.setPort p x.plain).putUnit p 2 0 .none
  | some h =>
    if 8 ≤ h.count then (s.setPort p x).retrain p 0
    else
      let x : LinkPort := { x.tally .replays with
        replayBuf := x.replayBuf.map fun y => if y.pos = pos then { y with at_ := s.gsc, count := y.count + 1 } else y }
      (s.setPort p x.plain).putUnit p 1 pos h.unit

/-- A VOID naming `pos` (R351); a ninth retrains the port (R359). -/
def State.sendVoid (s : State) (p pos : Nat) : State :=
  let x := s.port p
  let x := { x with voidsDue := x.voidsDue.erase pos }
  if x.history.any fun h => h.pos = pos && 8 ≤ h.voids then (s.setPort p x).retrain p 0
  else
    let x : LinkPort := { x.tally .voids with history := x.history.map fun h => if h.pos = pos then { h with voids := h.voids + 1 } else h }
    (s.setPort p x.plain).putUnit p 3 pos .none

/-- One unit time of an ACTIVE WL2 port (R358). -/
def State.wl2Time (s : State) (p : Nat) : State :=
  let x := s.port p
  match x.voidsDue, x.nakReplays ++ x.timerReplays, s.nextNew p with
  | v :: _, _, _ => s.sendVoid p v
  | [], r :: _, _ => s.sendReplay p r
  | [], [], some (it, again) => (s.sendNew p it again).putUnit p 0 0 it.unit
  | [], [], none => (s.setPort p x.plain).putUnit p 2 0 .none

/-- A WL1 packet goes out (R366). -/
def State.putPacket (s : State) (p kind seq : Nat) (u : LUnit) : State :=
  let (y, sbk, sbv) := (s.port p).takeSbv s.gsc
  let h : UnitHdr := { kind := kind, cls := u.cls, ack := y.ackOut % 65536, sbk := sbk, sbv := sbv, rseq := seq, dest := u.dest
                       epoch := u.epoch, xfer := u.xfer, half := u.half, e2e := u.e2e }
  s.setPort p { y with sentUnit := packetBytes h u.data, wire := [] }

/-- The entries from `seq` on, in the order they were sent. -/
def LinkPort.from (x : LinkPort) (seq : Nat) : List Hold := x.replayBuf.filter fun h => (h.pos + 65536 - seq) % 65536 < 32768

/-- One packet time of an ACTIVE WL1 port: a resend under way, a NEW packet, or an IDLE (R366, R367). -/
def State.wl1Time (s : State) (p : Nat) : State :=
  let x := s.port p
  match x.wl1Next.bind (fun n => (x.from n).head?) with
  | some h =>
    let x : LinkPort := { x.tally .replays with
      wl1Next := some ((h.pos + 1) % 65536)
      replayBuf := x.replayBuf.map fun y => if y.pos = h.pos then { y with at_ := s.gsc, count := y.count + 1 } else y }
    (s.setPort p x).putPacket p 0 h.pos h.unit
  | none =>
    let s := s.setPort p { x with wl1Next := none }
    match s.nextNew p with
    | some (it, again) => (s.sendNew p it again).putPacket p 0 x.seqTx it.unit
    | none => s.putPacket p 2 0 .none

/-- Sending again begins at SEQ `seq`; a ninth time from one SEQ retrains the port (R367). -/
def State.wl1Resend (s : State) (p seq : Nat) : State :=
  let x := s.port p
  let n := x.wl1Resends.find 0 seq
  if 8 ≤ n then s.retrain p 0 else s.setPort p { x with wl1Next := some seq, wl1Resends := x.wl1Resends.put seq (n + 1) }

/-- The training frame a port sends (R363); the equaliser settings it asks for are free. -/
def State.trainFrame (s : State) (p : Nat) : Bytes × State :=
  let x := s.port p
  let (eq, s) := s.freeBytes 32
  let re := x.state = .retraining
  (frameBytes (leBytes 1 x.phase ++ leBytes 1 (match x.mode with | 2 => 1 | 3 => 2 | _ => 3) ++ leBytes 1 p ++
    leBytes 1 (if x.x8Test then 1 else 0) ++ leBytes 4 s.fab.addr ++ zeros 4 ++ eq ++ leBytes 8 s.gsc ++ leBytes 8 x.echo ++
    leBytes 8 (if x.echo = 0 then 0 else s.gsc - x.echoAt) ++ leBytes 4 (if re then (if x.modeNow = 2 then x.seqRx else x.ackPt) else 0) ++
    (if re then (List.range 4).flatMap fun c => leBytes 2 (x.cells.find 0 c) else zeros 8)), s)

/-- A port in DETECT sends PRBS31 on its lanes (R362, R520). -/
def State.detectTime (s : State) (p : Nat) : State :=
  let x := s.port p
  let r := prbsLanes 6 (if x.x8Test then 8 else 16) x.pat.gens
  s.setPort p { x with wire := r.1, sentUnit := [], pat := { x.pat with gens := r.2 } }

/-- The IDLE unit of flow-unit mode at position `pos`: every link and route field 0, a payload of the stream (R521). -/
def flowUnit (pos g : Nat) : Bytes × Nat :=
  let b := prbsBytes 6 256 g
  let h : UnitHdr := { kind := 2, cls := 0, ack := 0, sbk := false, sbv := 0, rseq := 0, dest := 0, epoch := 0, xfer := 0, half := false
                       e2e := 0 }
  (unitBytes pos 0 h b.1, b.2)

/-- One unit time of a pattern generator (R520, R521). -/
def State.patternTime (s : State) (p : Nat) : State :=
  let x := s.port p
  let n := if x.pat.width8 then 8 else 16
  if x.pat.pattern = 7 then
    let u := flowUnit x.txPos (x.pat.gens.headD (prbsInit 6 0))
    let l := (List.range n).map fun i => laneSend n u.1 i (x.scram.getD i (scramInit i))
    s.setPort p { x with
      txPos := x.txPos + 1, sentUnit := u.1, wire := l.map fun y => y.1, scram := l.map fun y => y.2, pat := { x.pat with gens := [u.2] } }
  else
    let r := prbsLanes x.pat.pattern n x.pat.gens
    s.setPort p { x with wire := r.1, sentUnit := [], pat := { x.pat with gens := r.2 } }

/-- UNIT_TIME: one unit time of port `p`'s transmitter. -/
def execUnitTime (p : Nat) (s : State) : Out State :=
  if 16 ≤ p then .fault .noSuchPort
  else
    let s := s.cutSends
    let x := s.port p
    match x.state with
    | .active =>
      let x := if s.lacks p true then x.tally .creditStall else x
      let x := if s.lacks p false then x.tally .stall else x
      let s := s.setPort p x
      .next (if x.modeNow = 2 then s.wl1Time p else s.wl2Time p)
    | .training | .retraining =>
      let x := if x.state = .retraining && x.txq ≠ [] then x.tally .stall else x
      let s := s.setPort p x
      if x.phase < 2 then .next (s.detectTime p)
      else
        let f := s.trainFrame p
        let w := if x.x8Test then 8 else 16
        .next (f.2.setPort p { f.2.port p with sentUnit := f.1, wire := (List.range w).map (lanePlain w f.1) })
    | _ => .next (if x.pat.pattern ≠ 0 && x.pat.tx then s.patternTime p else s)

/-! ### Reception (R348 to R354, R357) -/

/-- Whether the unit at `pos` is still to be resolved. -/
def LinkPort.isBad (x : LinkPort) (pos : Nat) : Bool := x.bad.contains pos

/-- ACK, credit and NAK of a good header (R350 to R353, R357); none for a field that names nothing the port knows. -/
def LinkPort.linkFields (x : LinkPort) (h : UnitHdr) : Option LinkPort :=
  match nearPos x.txPos h.ack with
  | none => none
  | some a =>
    let x := { x with
      history := x.history.filter fun y => a ≤ y.pos
      replayBuf := x.replayBuf.filter fun y => a ≤ y.pos
      voidsDue := x.voidsDue.filter fun n => a ≤ n
      nakReplays := x.nakReplays.filter fun n => a ≤ n
      timerReplays := x.timerReplays.filter fun n => a ≤ n }
    if !h.sbk then
      let c := h.sbv % 4
      let n := (h.sbv / 4 % 1024 + 1024 - x.freedSeen.find 0 c % 1024) % 1024
      some { x with freedSeen := x.freedSeen.put c (x.freedSeen.find 0 c + n), out := x.out.put c (x.out.find 0 c - n) }
    else
      match nearPos x.txPos h.sbv with
      | none => none
      | some n =>
        match x.history.find? fun y => y.pos = n with
        | none => none
        | some y =>
          some (if y.replayable then { x with nakReplays := x.nakReplays.filter (fun m => m ≠ n) ++ [n] }
            else { x with voidsDue := x.voidsDue.filter (fun m => m ≠ n) ++ [n] })

/-- Delivers what the ack point has passed, in ascending position (R349). -/
def State.release (s : State) (p : Nat) : State :=
  let x := s.port p
  let a := x.ackPt
  let out := sortBy (fun u v => u.1 ≤ v.1) (x.held.filter fun u => u.1 < a)
  let s := s.setPort p { x with held := x.held.filter fun u => a ≤ u.1 }
  out.foldl (fun s u => s.deliver p u.2.1 u.2.2) s

/-- The route fields of a received unit. -/
def UnitHdr.unit (h : UnitHdr) (b : Bytes) : LUnit :=
  { cls := h.cls, dest := h.dest, epoch := h.epoch, xfer := h.xfer, half := h.half, e2e := h.e2e, data := b }

/-- A good unit takes a cell and is held for delivery at `pos`; none when no cell is left (R356). -/
def LinkPort.accept (x : LinkPort) (pos : Nat) (u : LUnit) (fresh : Bool) : Option LinkPort :=
  if cellFits x.cells u.cls then some { (x.alloc u.cls).tally (.rx u.cls) with held := x.held ++ [(pos, u, fresh)] } else none

/-- What the receiver does with a good unit at position `q` (R348); none for a breach of R353 or R356. -/
def LinkPort.resolve (x : LinkPort) (q : Nat) (h : UnitHdr) (b : Bytes) : Option LinkPort :=
  match h.kind with
  | 0 => x.accept q (h.unit b) true
  | 1 =>
    match nearPos (q - 1) h.rseq with
    | none => none
    | some n =>
      if x.isBad n then { x with bad := x.bad.erase n, naksDue := x.naksDue.erase n }.accept n (h.unit b) false
      else some (x.tally .dups)
  | 2 => some x
  | _ =>
    match nearPos (q - 1) h.rseq with
    | none => none
    | some n => some { x with bad := x.bad.erase n, naksDue := x.naksDue.erase n }

/-- An uncorrectable unit ends a margining (R525). -/
def Margin.abort (m : Margin) : Margin := { m with aborted := true }

/-- What flow-unit mode's checker counts of a received unit: FEC_SYMBOLS or UNCORR, as for live traffic (R521). -/
def LinkPort.flowCheck (x : LinkPort) (u : Bytes) : LinkPort :=
  if x.state = .off && x.pat.pattern = 7 && x.pat.rx then
    match unitParse x.rxPos u with
    | some (_, _, n) => { x.tally .fec n with rxPos := x.rxPos + 1 }
    | none => { x.tally .uncorr with rxPos := x.rxPos + 1, margin := x.margin.map Margin.abort }
  else x

/-- In PARK any unit or training frame starts the exit (R480). -/
def State.parkWake (s : State) : State := if s.power.mode = .park then s.wake else s

/-- An uncorrectable unit at the next position (R348, R350, R359). -/
def State.badUnit (s : State) (p : Nat) : State :=
  let x := s.port p
  let q := x.rxPos
  let x := { x.tally .uncorr with uncorrAt := some s.gsc, margin := x.margin.map Margin.abort, rxPos := q + 1, bad := x.bad ++ [q], naksDue := x.naksDue ++ [q], badRun := x.badRun + 1 }
  let s := s.setPort p x
  if 64 ≤ x.badRun then s.retrain p 2
  else if 16384 < q - x.ackPt then s.linkProtocol p
  else s

/-- A good unit at the next position. -/
def State.goodUnit (s : State) (p : Nat) (h : UnitHdr) (b : Bytes) (fec : Nat) : State :=
  let x := s.port p
  let q := x.rxPos
  let x := { x.tally .fec fec with rxPos := q + 1, badRun := 0 }
  match (x.resolve q h b).bind fun y => y.linkFields h with
  | none => (s.setPort p x).linkProtocol p
  | some y =>
    let s := (s.setPort p y).release p
    if 16384 < q - y.ackPt then s.linkProtocol p else s

/-- Reception of a WL2 unit of KIND `kind`; bytes that are no such unit at this position change nothing. A pool cell that fails its
parity is LINK_POOL_ERROR (R375). -/
def receiveKind (kind p : Nat) (u : Bytes) (parityOk : Bool) (s : State) : Out State :=
  if 16 ≤ p then .fault .noSuchPort
  else
    let s := s.parkWake
    let x := s.port p
    if x.state ≠ .active || x.modeNow ≠ 1 then .next (if kind = 2 then s.setPort p (x.flowCheck u) else s)
    else
      match unitParse x.rxPos u with
      | none => .next s
      | some (h, b, n) =>
        if h.kind ≠ kind then .next s
        else
          let s := s.goodUnit p h b n
          .next (if parityOk then s else s.jobFatal 0x0506)

def execNewUnit (p : Nat) (u : Bytes) (parityOk : Bool) (s : State) : Out State := receiveKind 0 p u parityOk s
def execReplayUnit (p : Nat) (u : Bytes) (s : State) : Out State := receiveKind 1 p u true s
def execIdleUnit (p : Nat) (u : Bytes) (s : State) : Out State := receiveKind 2 p u true s
def execVoidUnit (p : Nat) (u : Bytes) (s : State) : Out State := receiveKind 3 p u true s

/-- UNCORRECTABLE_UNIT: a received unit that fails RS or its CRC (R344, R345, R348); a margining ends at once (R525). -/
def execUncorrectableUnit (p : Nat) (u : Bytes) (s : State) : Out State :=
  if 16 ≤ p then .fault .noSuchPort
  else
    let x := s.port p
    if (unitParse x.rxPos u).isSome then .next s
    else if x.state ≠ .active || x.modeNow ≠ 1 then .next (s.setPort p (x.flowCheck u))
    else .next (s.badUnit p)

/-! ### Timers (R350, R352, R376) -/

/-- A timer field as it acts. -/
def timerNs (n : Nat) : Nat := max 200 (min 2000 n)

/-- REPLAY_TIMER: the oldest held unit of port `p` reaches REPLAY_NS (R352); in WL1 everything from it is sent again. -/
def execReplayTimer (p : Nat) (parityOk : Bool) (s : State) : Out State :=
  if 16 ≤ p then .fault .noSuchPort
  else
    let x := s.port p
    let due := x.replayBuf.filter fun h => !(x.timerReplays ++ x.nakReplays).contains h.pos
    match (sortBy (fun (a b : Hold) => a.at_ ≤ b.at_) due).head? with
    | none => .next s
    | some h =>
      if x.state ≠ .active then .next s
      else
        let s := s.advanceTo (h.at_ + timerNs x.replayNs)
        if !parityOk then .next (s.jobFatal 0x0506)
        else if x.modeNow = 2 then .next (s.wl1Resend p h.pos)
        else .next (s.setPort p { x with timerReplays := x.timerReplays ++ [h.pos] })

/-- NAK_REPEAT: NAK_NS after the last NAK of the ack point's position (R350). -/
def execNakRepeat (p : Nat) (s : State) : Out State :=
  if 16 ≤ p then .fault .noSuchPort
  else
    let x := s.port p
    if x.state ≠ .active then .next s
    else if x.modeNow = 2 then
      match x.wl1Nak with
      | none => .next s
      | some t =>
        let s := s.advanceTo (t + timerNs x.replayNs)
        .next (s.setPort p { x with naksDue := [x.seqRx], wl1Nak := some s.gsc })
    else if x.bad = [] || x.naksDue.contains x.ackPt then .next s
    else
      let s := s.advanceTo (x.nakAt.find 0 x.ackPt + timerNs x.nakNs)
      .next (s.setPort p { x with naksDue := x.ackPt :: x.naksDue })

/-! ### WL1 (R366, R367) -/

/-- ACK and credit of a WL1 packet. -/
def LinkPort.wl1Fields (x : LinkPort) (h : UnitHdr) : LinkPort :=
  let x := { x with
    replayBuf := x.from h.ack, wl1Resends := x.wl1Resends.filter fun e => (e.1 + 65536 - h.ack) % 65536 < 32768 }
  if h.sbk then x
  else
    let c := h.sbv % 4
    let n := (h.sbv / 4 % 1024 + 1024 - x.freedSeen.find 0 c % 1024) % 1024
    { x with freedSeen := x.freedSeen.put c (x.freedSeen.find 0 c + n), out := x.out.put c (x.out.find 0 c - n) }

/-- A NAK of the SEQ expected, at most once per REPLAY_NS. -/
def LinkPort.wl1Ask (x : LinkPort) (gsc : Nat) : LinkPort :=
  if x.wl1Nak.any fun t => gsc < t + timerNs x.replayNs then x else { x with naksDue := [x.seqRx], wl1Nak := some gsc }

/-- What a WL1 receiver does with a packet of SEQ `h.rseq` (R367). -/
def State.wl1Take (s : State) (p : Nat) (h : UnitHdr) (d : Bytes) : State :=
  let x := s.port p
  let ahead := (h.rseq + 65536 - x.seqRx) % 65536
  if h.kind ≠ 0 then s
  else if ahead = 0 then
    match x.accept 0 (h.unit d) true with
    | none => s.linkProtocol p
    | some y => (s.setPort p { y with held := x.held, seqRx := (x.seqRx + 1) % 65536, wl1Nak := none }).deliver p (h.unit d) true
  else if ahead < 32768 then s.setPort p (x.wl1Ask s.gsc)
  else s.setPort p (x.tally .dups)

/-- WL1_PACKET: a packet arrives at port `p`; `fec` gives the symbols its codewords had corrected, none when one does not decode. A NAK
of the peer takes effect after the packet. -/
def execWl1Packet (p : Nat) (b : Bytes) (fec : Option Nat) (s : State) : Out State :=
  if 16 ≤ p then .fault .noSuchPort
  else
    let s := s.parkWake
    let x := s.port p
    if x.state ≠ .active || x.modeNow ≠ 2 then .next s
    else
      let x := x.tally .fec (fec.getD 0)
      match fec.bind fun _ => packetParse b with
      | none =>
        let x := ({ x.tally .uncorr with margin := x.margin.map Margin.abort, badRun := x.badRun + 1 }).wl1Ask s.gsc
        let s := s.setPort p x
        .next (if 64 ≤ x.badRun then s.retrain p 2 else s)
      | some (h, d) =>
        let s := (s.setPort p { x.wl1Fields h with badRun := 0 }).wl1Take p h d
        .next (if h.sbk && (s.port p).state = .active then s.wl1Resend p h.sbv else s)

/-! ### Training (R360, R362 to R365, R379) -/

/-- The limit of a phase in ns (R362). -/
def phaseLimit (re : Bool) (phase : Nat) : Nat :=
  match phase, re with
  | 1, false => 20000000 | 2, false => 60000000 | 3, false => 1000000 | _, false => 1000000
  | 1, true => 40000 | 2, true => 100000 | 3, true => 20000 | _, true => 30000

/-- The held units of a port are discarded and their cells freed. -/
def LinkPort.dropHeld (x : LinkPort) : LinkPort :=
  { x.held.foldl (fun x u => { x with cells := x.cells.put u.2.1.cls (x.cells.find 0 u.2.1.cls - 1) }) x with held := [] }

/-- Training starts anew, as MODE written has it (R376); MODE 0 turns the port off. -/
def State.startTraining (s : State) (p : Nat) : State :=
  let x := (s.port p).dropHeld
  s.setPort p { x with
    state := if x.mode = 0 then .off else .training, modeNow := 0, phase := if x.mode = 0 then 0 else 1, phaseAt := s.gsc
    trainAt := s.gsc, frameKey := [], frameRun := 0, peerValid := false, inj := none, echo := 0, history := [], replayBuf := []
    resend := [], out := [], freedSeen := [], voidsDue := [], nakReplays := [], timerReplays := [], bad := [], naksDue := []
    segs := [], pat := .init }

/-- The next phase of a training under way; a retrain discards the held units, all at or above the ack point, before it reports its
cells in phase 4 (R360). -/
def State.nextPhase (s : State) (p : Nat) : State :=
  let x := s.port p
  let x := if x.phase = 3 && x.state = .retraining then x.dropHeld else x
  s.setPort p { x with phase := x.phase + 1, phaseAt := s.gsc, frameRun := 0, frameKey := [] }

/-- Where a port's peer must be (R378, R379). -/
def State.wiredRight (s : State) (p peer peerPort : Nat) : Bool :=
  let own := s.fab.addr
  if 12 ≤ p then peer / 64 ≠ own / 64
  else
    peer / 64 = own / 64 && peerPort = (if p % 4 < 2 then p + 2 else p - 2) &&
      (List.range 3).all fun d => ringDelta own peer d = (if d = p / 4 then (if p % 4 < 2 then 1 else 3) else 0)

/-- The exchange of a retrain (R360): held units at or above the ack point are discarded, acknowledged entries released, the others
sent again, with what an earlier retrain still has to send again behind them. -/
def LinkPort.exchange (x : LinkPort) (peerAck : Nat) (cells : Nat → Nat) : LinkPort :=
  let x := x.dropHeld
  let left := x.replayBuf.filter fun h =>
    if x.modeNow = 2 then (h.pos + 65536 - peerAck % 65536) % 65536 < 32768 else (h.pos + 2 ^ 32 - peerAck) % 2 ^ 32 < 2 ^ 31
  { x with
    bad := [], naksDue := [], resend := (left.map fun h => h.unit) ++ x.resend, replayBuf := []
    out := (List.range 4).foldl (fun m c => m.put c (cells c)) [], freedSeen := [], freed := [], history := []
    voidsDue := [], nakReplays := [], timerReplays := [] }

/-- Phase 5 (R362): positions and WL1 numbers start at 0, the scramblers are loaded. -/
def LinkPort.start (x : LinkPort) : LinkPort :=
  { x with
    state := .active, phase := 5, txPos := 0, rxPos := 0, seqTx := 0, seqRx := 0, wl1Next := none, wl1Nak := none, wl1Resends := [], nakAt := [], badRun := 0
    creditTurn := 0, scram := (List.range 16).map scramInit, freed := [], freedSeen := [] }

/-- The mode both ends choose (R365): 1 WL2, 2 WL1, 0 none. -/
def LinkPort.choose (x : LinkPort) (offer : Nat) : Nat :=
  if bit offer 0 && x.mode ≠ 3 then 1 else if bit offer 1 && x.mode ≠ 2 then 2 else 0

/-- Training fails: the port goes DOWN (R361). -/
def State.trainFail (s : State) (p : Nat) : State := s.portDown p

/-- An accepted frame of phase 4 ends the exchange: mode, peer, delay, wiring, and the port is ACTIVE (R360, R364, R365, R379). -/
def State.endExchange (s : State) (p : Nat) (f : Bytes) : State :=
  let x := s.port p
  let mode := x.choose (fld f 5 1)
  let echo := fld f 56 8
  if mode = 0 then s.trainFail p
  else if echo = 0 then s
  else
    let peer := fld f 8 4 % 2 ^ 18; let pp := fld f 6 1
    let bad := s.fab.addrValid && !s.wiredRight p peer pp
    let x := if x.state = .retraining then x.exchange (fld f 72 4) (fun c => fld f (76 + 2 * c) 2) else x
    let x := { x.start with
      modeNow := mode, x8 := x.x8Test && fld f 7 1 = 1, peerAddr := peer, peerPort := pp, peerValid := true, miswired := bad
      delayPs := (s.gsc - echo - fld f 64 8) * 1000 / 2 }
    let s := (s.setPort p x).event 0x0505
    if bad then s.event 0x0606 else s

/-- TRAINING_FRAME: a frame arrives at port `p`; `lanesOk` tells that the lanes are in order. A phase ends when this end has accepted
frames of it and the peer shows, by its own phase or by T_ECHO, that it has accepted frames that this end sent in it (R362). -/
def execTrainingFrame (p : Nat) (u : Bytes) (lanesOk : Bool) (s : State) : Out State :=
  if 16 ≤ p then .fault .noSuchPort
  else
    let s := s.parkWake
    let x := s.port p
    if !(x.state = .training || x.state = .retraining) || x.phase < 2 then .next s
    else
      match frameParse u with
      | none => .next (s.setPort p { x with frameRun := 0, frameKey := [] })
      | some f =>
        let key := sub f 4 44
        let run := if key = x.frameKey then x.frameRun + 1 else 1
        let s := s.setPort p { x with frameKey := key, frameRun := run }
        if run < 8 then .next s
        else
          let s := s.setPort p { s.port p with peerEq := sub f 16 32, echo := fld f 48 8, echoAt := s.gsc }
          let ph := fld f 4 1
          let peerHas := x.phase < ph || (fld f 56 8 ≠ 0 && x.phaseAt ≤ fld f 56 8)
          if ph < x.phase || !peerHas then .next s
          else if x.phase = 4 then .next (s.endExchange p f)
          else if x.phase = 3 && !lanesOk then .next (s.trainFail p)
          else .next (s.nextPhase p)

/-- TRAINING_TIMEOUT: a phase of port `p` exceeds its limit, or a retrain 200 µs (R361, R362). -/
def execTrainingTimeout (p : Nat) (s : State) : Out State :=
  if 16 ≤ p then .fault .noSuchPort
  else
    let x := s.port p
    let re := x.state = .retraining
    if !(x.state = .training || re) then .next s
    else
      let due := x.phaseAt + phaseLimit re x.phase
      .next ((s.advanceTo (if re then min due (x.trainAt + 200000) else due)).trainFail p)

/-! ### End-to-end segments (R370 to R372) -/

/-- How a trailer is answered (R371, R387): RESULT, and whether its segment is accepted now. -/
def E2eSeen.judge (e : E2eSeen) (u : LUnit) (held : Bytes) : Nat × Bool :=
  let seg := fld u.data 10 2
  if e.next < seg then (2, false) else if seg < e.next then (0, false) else if held.length ≠ fld u.data 12 4 then (2, false)
  else if sha384 held = sub u.data 16 48 then (0, true) else (1, false)

/-- The transfer a trailer is of. After a whole transfer a segment 0 begins the next one; one with the same bytes may as well be sent
again after a lost acknowledgement, which the spec does not tell apart: which it is, is a free value (log entry 176). -/
def State.trailerOf (s : State) (src : Nat) (u : LUnit) : E2eSeen × State :=
  let e := s.e2eSeenOf src (fld u.data 8 2) u.cls
  let new : E2eSeen := { e with next := 0, got := 0, whole := false, first := [] }
  if !(e.whole && fld u.data 10 2 = 0) then (e, s)
  else if e.first ≠ sub u.data 12 52 then (new, s)
  else
    let x := s.freeBytes 1
    (if bit (leNat x.1) 0 then e else new, x.2)

/-- The transfer after its next segment, of `n` bytes, is accepted: whole at the entry's LENGTH, or for an id of the module at a segment
that is not full (R369, R385). -/
def State.segAccepted (s : State) (e : E2eSeen) (u : LUnit) (n : Nat) : E2eSeen :=
  { e with
    next := e.next + 1, got := e.got + n, first := if e.next = 0 then sub u.data 12 52 else e.first
    whole := match s.expected e.xfer with | some (_, _, _, len, _) => len ≤ e.got + n | none => n < 65536 }

/-- Sends the acknowledgement of a segment (R370). -/
def State.ackSegment (s : State) (u : LUnit) (src res : Nat) : State :=
  let xfer := fld u.data 8 2
  let cls := if u.cls = 3 then 3 else 2
  let b := padTo 256 ([0x57#8, 0x4C#8, 0x45#8, 0x41#8] ++ leBytes 4 s.fab.addr ++ leBytes 2 xfer ++ leBytes 2 (fld u.data 10 2) ++ leBytes 4 res)
  match s.ownPort cls src xfer s.fab.active with
  | some (.inl q) => s.setPort q { s.port q with txq := (s.port q).txq ++
      (cutUnits cls src s.fab.active xfer 3 b).map fun v => { unit := v, src := .own, seg := 0, tid := 0 } }
  | some (.inr cause) => if cls = 3 then s.discardUnit src cause false else s.unreachable src xfer cause
  | none => s

/-- E2E_TRAILER: the oldest trailer that waits is checked, its segment accepted or not, and the acknowledgement returned. The units of
an accepted segment go to their landing area, their cells still taken; all others free them. -/
def State.takeTrailer (s : State) : State :=
  match s.fab.trailers with
  | [] => s
  | u :: rest =>
    let s := s.withFab { s.fab with trailers := rest }
    let src := fld u.data 4 4 % 2 ^ 18; let xfer := fld u.data 8 2
    if sub u.data 0 4 ≠ [0x57#8, 0x4C#8, 0x45#8, 0x54#8] then s
    else
      let held := (s.e2eRxOf xfer u.cls).held
      let b := held.flatMap fun i => i.unit.bytes
      let s := s.setE2eRx { xfer := xfer, cls := u.cls, held := [] }
      let t := s.trailerOf src u
      let r := t.1.judge u b
      let s := if r.2 then t.2.setE2eSeen (t.2.segAccepted t.1 u b.length) else t.2
      let s := if r.2 && xfer < 0xFF00 then (s.withFab { s.fab with switch := s.fab.switch ++ held }).switchPump
        else held.foldl (fun s i => s.leave i.src i.unit) s
      s.ackSegment u src r.1

def execE2eTrailer (s : State) : Out State := .next s.takeTrailer

/-- A segment is sent again, or after four resends fails (R372): job-fatal but for MAINT. A MAINT segment takes the port that leads to
its destination now; without one it is discarded once more, and held (R392). -/
def State.resendSeg (s : State) (p : Nat) (g : Seg) : State :=
  let x := s.port p
  let rest := x.segs.filter fun y => y ≠ g
  if 4 ≤ g.resends then
    let s := s.setPort p { x with segs := rest }
    if g.cls = 3 then s.event 0x0502 (BitVec.ofNat 64 g.cls) else s.jobFatal 0x0502 none (BitVec.ofNat 64 g.cls)
  else
    let s := s.setPort p { x.tally .resends with segs := rest }
    let again := fun (q : Nat) (s : State) => s.setPort q { s.port q with
      segs := (s.port q).segs ++ [{ g with resends := g.resends + 1, sentAt := none }]
      txq := (s.port q).txq ++ g.units.map fun u => { unit := u, src := .own, seg := g.num, tid := g.tid } }
    if g.cls ≠ 3 then again p s
    else
      match s.maintRoute g.dest s.fab.active with
      | .port q => again q s
      | _ => (s.setPort p { s.port p with
          segs := rest ++ [{ g with resends := g.resends + 1, sentAt := some s.gsc }] }).discardUnit g.dest 0 false

/-- E2E_ACKNOWLEDGEMENT: the oldest acknowledgement that waits releases its segment or has it sent again. -/
def State.takeAck (s : State) : State :=
  match s.fab.acks with
  | [] => s
  | u :: rest =>
    let s := s.withFab { s.fab with acks := rest }
    let src := fld u.data 4 4 % 2 ^ 18; let xfer := fld u.data 8 2; let seg := fld u.data 10 2
    if sub u.data 0 4 ≠ [0x57#8, 0x4C#8, 0x45#8, 0x41#8] then s
    else
      match (List.range 16).findSome? fun p =>
          ((s.port p).segs.find? fun g => g.dest = src && g.xfer = xfer && g.num = seg && g.sentAt.isSome).map fun g => (p, g) with
      | none => s
      | some (p, g) =>
        if fld u.data 12 4 = 0 then s.setPort p { s.port p with segs := (s.port p).segs.filter fun y => y ≠ g } else s.resendSeg p g

def execE2eAcknowledgement (s : State) : Out State := .next s.takeAck

/-- E2E_TIMEOUT: E2E_NS passes after the trailer of port `p`'s oldest unacknowledged segment. -/
def execE2eTimeout (p : Nat) (s : State) : Out State :=
  if 16 ≤ p then .fault .noSuchPort
  else
    let x := s.port p
    match x.segs.find? fun g => g.sentAt.isSome with
    | none => .next s
    | some g => .next ((s.advanceTo (g.sentAt.getD 0 + max 5000 x.e2eNs)).resendSeg p g)

/-! ### LINK_CFG (R376, R431) -/

/-- What LINK_CFG applies to one port. -/
def State.linkCfg (s : State) (b : Bytes) (p : Nat) : State :=
  let ap := fld b 2 2
  let x := s.port p
  let x := { x with
    e2eClass := if bit ap 1 then fld b 5 1 else x.e2eClass
    x8Test := if bit ap 2 then fld b 6 1 = 1 else x.x8Test
    replayNs := if bit ap 4 then fld b 8 2 else x.replayNs
    nakNs := if bit ap 5 then fld b 10 2 else x.nakNs
    e2eNs := if bit ap 6 then fld b 12 4 else x.e2eNs
    downMs := if bit ap 7 then fld b 16 2 else x.downMs
    mode := if bit ap 0 then fld b 4 1 else x.mode }
  let s := s.setPort p x
  let s := if bit ap 0 then s.startTraining p else s
  if bit ap 3 && fld b 7 1 = 1 then s.retrain p 3 else s

end Sys2Proof.Machine
end

