-- ==== Sys2Proof/Machine/Fabric.lean ====
section
/-! DEFINITION. Queue completions, steps drained and cleared, beacons, launch answers, route banks and fences (R178, R321, R380 to
R412). -/
namespace Sys2Proof.Machine

/-! ### Steps drained (R321, R406) -/

/-- The pushes that must have completed before the step now ended is drained. -/
def State.pushMark (s : State) : List (Nat × W32) :=
  s.queues.filterMap fun e => if e.2.kind = .fabricReceive || e.2.kind = .step then none else some (e.1, e.2.pushed)

/-- Whether the pushes of a mark have completed. -/
def State.markDone (s : State) (m : List (Nat × W32)) : Bool :=
  m.all fun x => ((s.queues.find .init x.1).cc - x.2).toNat < 2 ^ 31

/-- A rank's count reaches the lead: the least over all ranks is cleared everywhere (R406). -/
def State.reportAt (s : State) (rank n : Nat) : State :=
  let s := s.withFab { s.fab with reports := s.fab.reports.put rank (max (s.fab.reports.find 0 rank) (n + 1)) }
  let low := (List.range s.fab.moduleCount).foldl (fun m r => min m (s.fab.reports.find 0 r)) (n + 1)
  if low = 0 || s.fab.clearStep.any (fun c => low ≤ c + 1) then s
  else s.otherRanks.foldl (fun s r => s.sendMsg r 2 0xFFFC (.clear (low - 1))) (s.withFab { s.fab with clearStep := some (low - 1) })

/-- Steps whose conditions (a) and (b) hold are noted; a multi-module job reports the highest (R321, R406). Nothing is reported after
a job-fatal fault. -/
def State.noteDrained (s : State) : State :=
  let l := (s.recs.marks.takeWhile fun m => s.markDone m.2)
  match l.getLast? with
  | none => s
  | some m =>
    let s := { s with recs := { s.recs with marks := s.recs.marks.drop l.length, drainedTo := some m.1 } }
    if !s.multi || s.stop.isSome then s
    else if s.fab.lead then s.reportAt s.fab.rank m.1
    else s.sendMsg s.fab.leadRank 2 0xFFFC (.drained m.1)

/-- Whether step `n` is drained on this module, condition (c) of R321 among the rest. -/
def State.stepDrained (s : State) (n : Nat) : Bool :=
  s.stop.isNone && s.recs.drainedTo.any (fun d => n ≤ d) && (!s.multi || s.fab.clearStep.any fun d => n ≤ d)

/-- STEP_DRAINED: rank `rank`'s report that step `n` is drained there reaches the lead. -/
def execStepDrained (rank n : Nat) (s : State) : Out State :=
  if s.multi && s.fab.lead && s.job.state.active && s.stop.isNone && rank < s.fab.moduleCount then .next (s.reportAt rank n) else .next s

/-- STEP_CLEAR: step clear for `n` arrives from the lead. -/
def execStepClear (n : Nat) (s : State) : Out State :=
  if s.multi && !s.fab.lead && s.job.state.active then
    .next (s.withFab { s.fab with clearStep := some (match s.fab.clearStep with | some c => max c n | none => n) })
  else .next s

/-! ### Queue completions (R178, R385) -/

/-- The oldest request of a queue is complete: CC rises, its landing data stands in the landing buffer. -/
def State.complete (s : State) (c h : Nat) (land : Option (Nat × Bytes)) : State :=
  let q := s.queue c h
  s.setQueue c h { q with
    cc := q.cc + 1#32
    done := q.done + 1
    reqs := if q.kind.pushes then q.reqs.drop 1 else q.reqs
    land := match land with | some (n, b) => landPut q.land n b | none => q.land }

/-- A host write goes out as posted writes into its host window (R178, R233). -/
def State.hostWrite (s : State) (q : Queue) (r : QReq) : State :=
  let w := match q.expects, q.ranges.find? fun e => e.type = 2 && e.offset ≤ r.addr.toNat && r.addr.toNat + r.len ≤ e.offset + e.length with
    | _, some e => e.aux % 256
    | _, none => 0
  { s with host := { s.host with hostWin := s.host.hostWin.write (w * 2 ^ 64 + r.addr.toNat) (r.data.read 0 r.len) } }

/-- Whether the entry whose turn it is in a fabric-receive queue has become whole (R385). -/
def State.entryWhole (s : State) (c h : Nat) : Bool :=
  let q := s.queue c h
  let l := q.expects
  if l = [] then false
  else
    let n := q.done
    let e := n % l.length
    match l[e]? with
    | none => false
    | some x => (n / l.length + 1) * x.length ≤ s.fab.rxCount.find 0 (qKey c h * 16 + e)

/-- QUEUE_COMPLETION's effect on the oldest uncompleted request, transfer or descriptor of a queue. -/
def State.queueCompletion (s : State) (c h : Nat) : State :=
  let s := s.switchPump.cutSends
  let q := (s.queue c h)
  match q.kind, q.reqs with
  | .farRead, r :: _ =>
    if s.allAccepted r && r.left = 0 && q.landed + r.len ≤ q.landSize then s.complete c h (some (r.seq, r.data.read 0 r.len)) else s
  | .farWrite, r :: _ => if r.got = r.len && s.allAccepted r then s.complete c h none else s
  | .fabricSend, r :: _ => if r.sent = r.len then s.complete c h none else s
  | .hostWrite, _ =>
    let q := q.give
    let s := s.setQueue c h q
    (match q.reqs with
     | r :: _ => if r.got = r.len then (s.hostWrite q r).complete c h none else s
     | [] => s)
  | .fabricReceive, _ => if s.entryWhole c h then s.complete c h none else s
  | .step, _ => if q.land.any fun x => x.1 = q.done + 1 then s.complete c h none else s
  | _, [] => s

/-- QUEUE_COMPLETION: the oldest uncompleted item of queue `h` of core `c` completes, where its condition holds (R178). -/
def execQueueCompletion (c h : Nat) (s : State) : Out State :=
  onCore s c (if s.bound c h then (s.queueCompletion c h).noteDrained else s)

/-- A descriptor reaches the landing area of q31 of every core that binds it (R178, R291, R333). -/
def State.pushDescriptor (s : State) (b : Bytes) : State :=
  s.queues.foldl (fun s e =>
    if e.2.kind = .step then
      let c := e.1 / 32; let h := e.1 % 32
      let q := s.queue c h
      let n := (q.land.filter fun x => q.done < x.1).length
      s.setQueue c h { q with land := landPut q.land (q.done + n + 1) b }
    else s) s

/-! ### Beacons (R398 to R401) -/

/-- BEACON_US in ns; 0 acts as 1. -/
def Fabric.beaconNs (f : Fabric) : Nat := max 1 f.beaconUs * 1000

/-- The parent port: toward the lead with XFER[0] = 0 in the active bank (R398); none on the lead and outside a job. -/
def State.parentPort (s : State) : Option Nat :=
  if s.fab.lead || s.image.isNone then none
  else match (s.bank s.fab.active).route s.fab.addr s.fab.leadAddr 0 with | .port p => some p | _ => none

/-- The child ports that are up, of those whose peer's parent port leads into them (R398). Which ones those are, only the peers' route
tables tell, so it is a free value (log entry 98); the parent port is none of them. -/
def State.childPorts (s : State) : List Nat :=
  (List.range 16).filter fun p => s.goodPort p && s.image.isSome && s.parentPort ≠ some p && Config.leadsHere s.gsc p

/-- A beacon's payload (R398). -/
def beaconBytes (lead seq t acc : Nat) : Bytes :=
  padTo 256 ([0x57#8, 0x4C#8, 0x47#8, 0x42#8] ++ leBytes 4 lead ++ leBytes 8 seq ++ leBytes 8 t ++ leBytes 8 acc)

/-- Puts a beacon on a port, as a SYNC unit for the module at its other end. -/
def State.putBeacon (s : State) (p : Nat) (b : Bytes) : State := s.putOwn p (s.port p).peerAddr 1 0xFFFE true b

/-- BEACON_PERIOD: the lead of the loaded job sends a beacon on each child port. -/
def execBeaconPeriod (s : State) : Out State :=
  if !s.fab.lead || s.image.isNone || s.fab.moduleCount ≤ 1 then .next s
  else
    let kids := s.childPorts
    let s := s.advanceTo s.fab.beaconDue
    let b := beaconBytes s.fab.addr s.fab.beaconSeq s.gsc 0
    let s := kids.foldl (fun s p => s.putBeacon p b) s
    .next (s.withFab { s.fab with beaconSeq := s.fab.beaconSeq + 1, beaconDue := s.gsc + s.fab.beaconNs })

/-- Uses a beacon: offset, alignment, the slew that drives the offset toward 0, a step forward outside a job unless a reference loss
forbids it, the copies for the children (R399 to R401). -/
def State.useBeacon (s : State) (r : BeaconRx) : State :=
  let kids := s.childPorts
  let d := (s.port r.port).delayPs
  let off : Int := (r.at_ : Int) * 1000 - (fld r.data 16 8 : Int) * 1000 - (fld r.data 24 8 : Int) - (d : Int)
  let near := -3000 ≤ off && off ≤ 3000
  let good := if near then min 8 (s.fab.good + 1) else 0
  let acc := fld r.data 24 8 + d + (s.gsc - r.at_) * 1000
  let step := off < -1000000 && !s.job.state.active && !s.fab.slewOnly
  let s := s.withFab { s.fab with
    offsetPs := off, good := good, aligned := good = 8, beaconAt := s.gsc, slewLeft := if step then 0 else -1000 * off
    slewOnly := s.fab.slewOnly && good ≠ 8 }
  let s := if step then s.elapse ((-off).toNat / 1000) else s
  kids.foldl (fun s p => s.putBeacon p (beaconBytes (fld r.data 4 4) (fld r.data 8 8) (fld r.data 16 8) acc)) s

/-- BEACON: the oldest beacon received is used if it came as a NEW unit on the parent port and names this job's lead. -/
def execBeacon (s : State) : Out State :=
  match s.fab.beacons with
  | [] => .next s
  | r :: rest =>
    let s := s.withFab { s.fab with beacons := rest }
    if r.fresh && s.parentPort = some r.port && sub r.data 0 4 = [0x57#8, 0x4C#8, 0x47#8, 0x42#8] && fld r.data 4 4 = s.fab.leadAddr then
      .next (s.useBeacon r)
    else .next s

/-- Beacon periods since a beacon was last used (GSC_SYNC MISSED). -/
def State.missed (s : State) : Nat := if s.fab.lead || s.image.isNone then 0 else min 65535 ((s.gsc - s.fab.beaconAt) / s.fab.beaconNs)

/-- GSC_UNSYNC: 100 beacon periods without a usable beacon during a multi-module job (R401). -/
def execGscUnsync (s : State) : Out State :=
  if s.multi && s.job.state.active && !s.fab.lead then .next ((s.advanceTo (s.fab.beaconAt + 100 * s.fab.beaconNs)).jobFatal 0x0603)
  else .next s

/-- ALIGNED (R400): the lead is, from the load of its job to its unload. -/
def State.alignedNow (s : State) : Bool := if s.image.isSome && s.fab.lead then true else s.fab.aligned

/-! ### Launch answers and job stop (R403 to R405) -/

/-- Whether the job waits for a launch or resume count. -/
def State.startable (s : State) : Bool := s.job.state = .armed || (s.job.state = .paused && !s.job.ended)

/-- LAUNCH_UNIT: the lead's launch unit arrives at another rank, which accepts it or refuses (R403). -/
def execLaunchUnit (at_ : Nat) (image manifest ranks : Bytes) (s : State) : Out State :=
  if !s.multi || s.fab.lead then .next s
  else
    let s := s.wake
    let ok := s.startable && s.alignedNow && s.image.any (fun i => i.digest = image) && s.recs.manifestDigest = manifest &&
      s.fab.ranksDigest = ranks && s.gsc + 10000 ≤ at_
    let s := s.sendMsg s.fab.leadRank 3 0xFFFD (.answer ok)
    .next (if ok then s.withFab { s.fab with startAt := some at_, launchAt := at_ } else s)

/-- The launch has failed (R404): the fault, and the launching command's answer. -/
def State.launchFail (s : State) : State :=
  match s.fab.launch with
  | none => s
  | some l =>
    let s := s.withFab { s.fab with launch := none }
    let s := if l.answered then s else s.respond l.chan (.bad .state 0x0604)
    s.jobFatal 0x0604

/-- LAUNCH_ACK: a rank's answer reaches the lead; when every rank has accepted, the launching command is answered (R431). -/
def execLaunchAck (rank : Nat) (accepted : Bool) (s : State) : Out State :=
  match s.fab.launch with
  | none => .next s
  | some l =>
    if !accepted then .next s.launchFail
    else if !(s.otherRanks.contains rank) then .next s
    else
      let acc := if l.accepted.contains rank then l.accepted else rank :: l.accepted
      let all := s.otherRanks.all fun r => acc.contains r
      let s := s.withFab { s.fab with launch := some { l with accepted := acc, answered := l.answered || all } }
      .next (if all && !l.answered then s.respond l.chan (.ok (leBytes 8 l.at_)) else s)

/-- LAUNCH_FAILED: L − 5 µs comes and a rank's acceptance is missing (R404). -/
def execLaunchFailed (s : State) : Out State :=
  match s.fab.launch with
  | none => .next s
  | some l =>
    if s.otherRanks.all fun r => l.accepted.contains r then .next s
    else .next (s.advanceTo (l.at_ - 5000)).launchFail

/-- JOB_STOP_UNIT: a job-stop unit with the origin's rank and fault code (R405, R489). -/
def execJobStopUnit (rank code : Nat) (s : State) : Out State :=
  if s.multi && s.job.state.active && s.stop.isNone then
    .next (s.jobFatal 0x0605 none (BitVec.ofNat 64 code) (BitVec.ofNat 64 rank) (some rank) (some code))
  else .next s

/-! ### Route banks (R389, R394, R395) -/

/-- The units of bank `b`'s epoch that the module holds, those of an end-to-end segment that is being collected among them (R395). -/
def State.drain (s : State) (b : Nat) : Nat :=
  let n := fun (l : List LUnit) => (l.filter fun u => u.epoch = b).length
  s.ports.foldl (fun t e => t + n (e.2.replayBuf.map fun h => h.unit) + n e.2.resend + n (e.2.txq.map fun i => i.unit) +
    n (e.2.held.map fun h => h.2.1) + e.2.segs.foldl (fun t g => t + n g.units) 0) 0 +
    n (s.fab.switch.map fun i => i.unit) + n s.fab.trailers + n s.fab.acks + n (s.fab.e2eRx.flatMap fun e => e.held.map fun i => i.unit)

/-- EPOCH_SWITCH: GSC reaches S; the LOADED bank becomes ACTIVE, the other DRAINING. -/
def execEpochSwitch (s : State) : Out State :=
  if !s.fab.switchDue then .next s
  else
    let s := s.advanceTo s.fab.switchAt
    let a := s.fab.active; let b := 1 - a
    let s := s.setBank b { s.bank b with state := .active }
    let s := if (s.bank a).state = .active then s.setBank a { s.bank a with state := .draining, oldSeen := 0 } else s
    .next ((s.withFab { s.fab with active := b, switchDue := false }).recut.event 0x0608)

/-- BANK_DRAINED: a DRAINING bank's drain counter is 0. -/
def execBankDrained (b : Nat) (s : State) : Out State :=
  let k := s.bank (b % 2)
  if k.state = .draining && s.drain (b % 2) = 0 then .next ((s.setBank (b % 2) { k with state := .retired }).event 0x0609) else .next s

def portOk (p : Nat) : Bool := p ≤ 15 || p = 0x1F

/-- ROUTE_LOAD (R389, R394, R431). -/
def routeLoad : CmdSpec where
  op := 0x0502
  len := fun n => 20 ≤ n && n ≤ 2068
  fields := fun b => fld b 0 1 ≤ 1 && fld b 1 1 ≤ 1 && fld b 4 2 ≤ 2048 && zeroAt b 6 2 && b.length = 20 + fld b 4 2
  allowed := anyState
  wakes := true
  act := fun s _ b =>
    let k := fld b 0 1; let first := bit (fld b 1 1) 0; let pod := fld b 2 2; let n := fld b 4 2
    let bank := s.bank k
    if bank.state = .active || bank.state = .draining then .done s (.of .state)
    else if 4096 < pod + n || !((sub b 20 n).all fun x => portOk x.toNat) || (first && !((sub b 8 12).all fun x => portOk x.toNat)) then
      .done s (.of .range)
    else if !first && bank.state ≠ .loaded then .done s (.of .state)
    else
      let base : Bank := if first then { bank with dir := (sub b 8 12).map (·.toNat), pod := [] } else bank
      let pods := (List.range n).foldl (fun m i => m.put (pod + i) (fld b (20 + i) 1)) base.pod
      .done (s.setBank k { base with pod := pods, state := .loaded }) .ok

/-- ROUTE_SWITCH (R394). -/
def routeSwitch : CmdSpec where
  op := 0x0503
  len := (· = 8)
  fields := fun _ => true
  allowed := anyState
  wakes := true
  act := fun s _ b =>
    let at_ := fld b 0 8
    if (s.bank (1 - s.fab.active)).state ≠ .loaded || at_ < s.gsc + 100000 then .done s (.of .state)
    else .done (s.withFab { s.fab with switchAt := at_, switchDue := true }) .ok

def BankState.code : BankState → Nat
  | .empty => 0 | .loaded => 1 | .active => 2 | .draining => 3 | .retired => 4

/-- ROUTE_READ (R431). -/
def routeRead : CmdSpec where
  op := 0x0504
  len := (· = 6)
  fields := fun b => fld b 0 1 ≤ 1 && zeroAt b 1 1 && 1 ≤ fld b 4 2 && fld b 4 2 ≤ 2048 && fld b 2 2 + fld b 4 2 ≤ 4096
  allowed := anyState
  wakes := false
  act := fun s _ b =>
    let k := s.bank (fld b 0 1)
    .done s (.ok (leBytes 1 k.state.code ++ zeros 7 ++ (List.range 12).flatMap (fun i => leBytes 1 (k.dir.getD i 0)) ++
      (List.range (fld b 4 2)).flatMap fun i => leBytes 1 (k.pod.find 0x1F (fld b 2 2 + i))))

/-- A rank-table entry's four bytes (R380). -/
def State.rankEntry (s : State) (r : Nat) : Bytes := leBytes 4 (if s.fab.ranks.has r then s.fab.ranks.find 0 r + 2 ^ 31 else 0)

/-- RANK_READ (R431). -/
def rankRead : CmdSpec where
  op := 0x0505
  len := (· = 8)
  fields := fun b => 1 ≤ fld b 4 4 && fld b 4 4 ≤ 1016 && fld b 0 4 + fld b 4 4 ≤ 262144
  allowed := fun s => s.job.state ≠ .idle
  wakes := false
  act := fun s _ b => .done s (.ok ((List.range (fld b 4 4)).flatMap fun i => s.rankEntry (fld b 0 4 + i)))

/-- FENCE (R409, R431): SET after CLEAR. -/
def fenceCmd : CmdSpec where
  op := 0x0506
  len := (· = 4)
  fields := fun _ => true
  allowed := anyState
  wakes := true
  act := fun s _ b =>
    let f := (List.range 16).foldl (fun n i =>
      n + bitAt i ((bit s.fab.fence i && !bit (fld b 0 2) i) || bit (fld b 2 2) i)) 0
    .done (s.withFab { s.fab with fence := f }).fenceSources (.ok (leBytes 2 f))

/-- SYNC_CFG (R431). -/
def syncCfg : CmdSpec where
  op := 0x0507
  len := (· = 2)
  fields := fun _ => true
  allowed := anyState
  wakes := true
  act := fun s _ b => .done (s.withFab { s.fab with beaconUs := fld b 0 2 }) .ok

/-- FAB_ADDR_SET (R377, R431): by a management port only. -/
def fabAddrSet : CmdSpec where
  op := 0x0602
  len := (· = 4)
  fields := fun b => fld b 0 4 < 2 ^ 18
  allowed := jobIn [.idle]
  wakes := true
  act := fun s ch b =>
    if ch < 8 then .done s (.of .auth) else .done (s.withFab { s.fab with addr := fld b 0 4, addrValid := true }) .ok

/-- LINK_CFG (R376, R431). -/
def linkCfgCmd : CmdSpec where
  op := 0x0501
  len := (· = 18)
  fields := fun b => fld b 2 2 < 256 && fld b 4 1 ≤ 3 && fld b 5 1 ≤ 7 && fld b 6 1 ≤ 1 && fld b 7 1 ≤ 1
  allowed := anyState
  wakes := true
  act := fun s _ b =>
    if bit (fld b 2 2) 2 && fld b 6 1 = 1 && s.job.state.active then .done s (.of .state)
    else .done ((List.range 16).foldl (fun s p => if bit (fld b 0 2) p then s.linkCfg b p else s) s).recut .ok

def execRouteLoad (ch : Nat) (s : State) : Out State := routeLoad.row ch s
def execRouteSwitch (ch : Nat) (s : State) : Out State := routeSwitch.row ch s
def execRouteRead (ch : Nat) (s : State) : Out State := routeRead.row ch s
def execRankRead (ch : Nat) (s : State) : Out State := rankRead.row ch s
def execFence (ch : Nat) (s : State) : Out State := fenceCmd.row ch s
def execSyncCfg (ch : Nat) (s : State) : Out State := syncCfg.row ch s
def execFabAddrSet (ch : Nat) (s : State) : Out State := fabAddrSet.row ch s
def execLinkCfg (ch : Nat) (s : State) : Out State := linkCfgCmd.row ch s

end Sys2Proof.Machine
end

