-- ==== Sys2Proof/Machine/Cassette.lean ====
section
/-! DEFINITION. The resident-model table, cassette loads and broadcasts (R255 to R270). -/
namespace Sys2Proof.Machine

def State.rmSlot (s : State) (i : Nat) : RmSlot := s.cas.slots.find .init i
def State.withCas (s : State) (c : Cas) : State := { s with cas := c }
def State.setRmSlot (s : State) (i : Nat) (x : RmSlot) : State := s.withCas { s.cas with slots := s.cas.slots.put i x }

/-- Whether slot transitions take effect at once (R257): no job with a serving configuration is RUNNING, or a boundary is open. -/
def State.casNow (s : State) : Bool := !(s.job.state = .running && s.srv.cfg.isSome) || s.srv.boundary

/-! ### Slots and space (R257 to R261) -/

/-- The far layout of a copy (R254). -/
def copyRegion (base size : Nat) : FarRegion :=
  { ctrlFirst := 0, ctrlCount := 36, unit := false, ro := true, host := false, valid := true, localBase := base, size := size / 65536 }

/-- The blocks in use on some channel: copies, and the regions of the loaded job. -/
def State.usedBlocks (s : State) : List (Nat × Nat) :=
  (s.cas.slots.filterMap fun e => if e.2.placed then some (e.2.base, (copyRegion 0 e.2.size).blocks) else none) ++
    s.far.regions.filterMap fun e => if e.2.valid then some (e.2.localBase, e.2.blocks) else none

/-- The lowest place for `n` among `used` ranges in `[lo, hi)`. -/
def lowestFit (used : List (Nat × Nat)) (lo hi n : Nat) : Option Nat :=
  ((sortBy (fun (a b : Nat) => a ≤ b) (lo :: (used.map fun u => u.1 + u.2).filter fun x => lo ≤ x)).find? fun b =>
    b + n ≤ hi && !used.any fun u => u.1 < b + n && b < u.1 + u.2)

/-- Whether a slot is pinned (R259). -/
def RmSlot.pinned (x : RmSlot) : Bool := 0 < x.pins || 0 < x.jobs

/-- The unpinned RESIDENT slots by LAST_USE, then number (R260). -/
def State.evictOrder (s : State) : List Nat :=
  (sortBy (fun (a b : Nat × RmSlot) => a.2.lastUse < b.2.lastUse || (a.2.lastUse = b.2.lastUse && a.1 ≤ b.1))
    (s.cas.slots.filter fun e => e.2.state = .resident && !e.2.pinned)).map fun e => e.1

/-- A slot returns to EMPTY (R257). -/
def State.emptySlot (s : State) (i : Nat) : State := s.withCas { s.cas with slots := s.cas.slots.del i }

/-- Finds a place for a copy of `size` bytes, evicting the shortest prefix of the eviction order that makes room (R260). -/
def State.makeRoom (s : State) (size : Nat) : Option (State × Nat) :=
  let n := (copyRegion 0 size).blocks
  let o := s.evictOrder
  (List.range (o.length + 1)).findSome? fun k =>
    let t := (o.take k).foldl (fun s i => s.emptySlot i) s
    (lowestFit t.usedBlocks 0 t.chanBlocks n).map fun b => (t, b)

/-- The lowest EMPTY slot. -/
def State.freeSlot (s : State) : Option Nat := (List.range 256).find? fun i => (s.rmSlot i).state = .empty

/-- A slot for a load, evicting the first unpinned RESIDENT one when none is EMPTY (R260). -/
def State.takeSlot (s : State) : Option (State × Nat) :=
  match s.freeSlot with
  | some i => some (s, i)
  | none => match s.evictOrder with | i :: _ => some (s.emptySlot i, i) | [] => none

/-! ### Loads -/

/-- The load of a digest, one that only shares its window among them. -/
def State.loadOf (s : State) (digest : Bytes) : Option CasLoad := s.cas.loads.find? fun l => l.digest = digest && l.adapter.isNone

/-- Whether a load is one of a resident-model slot that is LOADING (R261). -/
def CasLoad.loading (l : CasLoad) : Bool := l.adapter.isNone && l.phase ≠ .sharing

def State.putLoad (s : State) (l : CasLoad) : State :=
  s.withCas { s.cas with loads := s.cas.loads.map fun x => if x.digest = l.digest && x.adapter = l.adapter then l else x }
def State.dropLoad (s : State) (l : CasLoad) : State :=
  s.withCas { s.cas with loads := s.cas.loads.filter fun x => !(x.digest = l.digest && x.adapter = l.adapter) }

/-- Whether a range still serves children: one lacks blocks, or blocks are kept for a lost one (R266, R267). -/
def CasRange.serving (r : CasRange) : Bool := r.retain.isSome || r.children.any fun c => c.acked ≤ r.last

/-- A load after a change of a range: one that only shares its window ends with the last range that serves children. -/
def State.keepLoad (s : State) (l : CasLoad) : State :=
  if l.phase = .sharing && !l.ranges.any CasRange.serving then s.dropLoad l else s.putLoad l

/-- The result of a result code (R429). -/
def Result.ofCode : Nat → Result
  | 0 => .ok | 1 => .busy | 2 => .range | 3 => .state | 4 => .timeout | 5 => .auth | 6 => .noSpace | 7 => .restarted
  | 8 => .unknownOpcode | _ => .digest

/-- R270's result of a fault code. -/
def casResultOf (code : Nat) : Result :=
  match code with
  | 0x0801 => .range | 0x0802 => .digest | 0x0803 => .auth | 0x0804 => .digest | 0x0805 => .range | 0x0806 => .range
  | _ => .state

/-- A failure is recorded (R270, R271). -/
def State.casFault (s : State) (slot code index : Nat) : State :=
  s.withCas { s.cas with
    faultCode := BitVec.ofNat 16 code, faultSlot := slot % 256, faultValid := true, faultIndex := BitVec.ofNat 32 index }

/-- A load that has come to its end, well or not, takes its effect on its slot and is answered; its window goes on while it serves
children. -/
def State.endLoad (s : State) (l : CasLoad) : State :=
  match l.failed with
  | some (r, f, i) =>
    let s := (s.dropLoad l).emptySlot l.slot
    (match l.chan with
     | some ch => s.respond ch { result := Result.ofCode r, fault := f, entry := some i }
     | none => s)
  | none =>
    let s := s.keepLoad { l with phase := .sharing, chan := none }
    let s := s.setRmSlot l.slot { s.rmSlot l.slot with state := .resident, resDigest := l.resDigest, lastUse := s.cas.useSeq }
    (match l.chan with
     | some ch => s.respond ch (.ok (leBytes 1 l.slot ++ zeros 7 ++ l.resDigest))
     | none => s)

/-- A load fails: a cassette failure recorded now, its slot and answer as R257 has them. -/
def State.failLoad (s : State) (l : CasLoad) (r : Result) (code index : Nat) : State :=
  let s := if code / 256 = 8 then s.casFault l.slot code index else s
  let l := { l with phase := .failed, failed := some (r.code, code, index) }
  if s.casNow then s.endLoad l else s.putLoad l

/-- The body, once every block is verified. -/
def CasLoad.body (l : CasLoad) (m : Manifest) : Option Bytes :=
  if (List.range m.blocks).all fun b => l.blocks.has b then some ((List.range m.blocks).flatMap fun b => l.blocks.find [] b) else none

/-- The engines write the copy once its place is known and every block is verified (R251 to R256). -/
def State.writeCopy (s : State) (l : CasLoad) : State :=
  match l.manifest with
  | none => s.putLoad l
  | some m =>
    match l.body m with
    | none => s.putLoad l
    | some body =>
      match residentCopy m body s.coreCount with
      | .inr f => (s.putLoad l).failLoad l .range f.code f.index
      | .inl c =>
        let r := copyRegion (s.rmSlot l.slot).base m.resSize
        let s := (s.farPutAt r 0 c).background (.copy l.slot) r 0 c.length true
        let s := s.withCas { s.cas with bytesOut := s.cas.bytesOut + c.length }
        s.putLoad { l with phase := .written }

/-- The far blocks of a verified load are allocated, at once or at the next boundary (R260). -/
def State.placeLoad (s : State) (l : CasLoad) : State :=
  match l.manifest with
  | none => s.putLoad l
  | some m =>
    match lowestFit s.usedBlocks 0 s.chanBlocks (copyRegion 0 m.resSize).blocks with
    | some b =>
      let s := s.setRmSlot l.slot { s.rmSlot l.slot with placed := true, base := b, size := m.resSize }
      s.writeCopy { l with phase := .receiving }
    | none =>
      if !s.casNow then s.putLoad { l with phase := .needSpace }
      else
        match s.makeRoom m.resSize with
        | none => (s.putLoad l).failLoad l .noSpace 0 casNone
        | some (s, b) =>
          let s := s.setRmSlot l.slot { s.rmSlot l.slot with placed := true, base := b, size := m.resSize }
          s.writeCopy { l with phase := .receiving }

/-- A failed DMA read of a command's data (R417). -/
def State.dmaFailed (s : State) : State := s.event 0x0C05

/-- A load takes its slot, LOADING from now on; then what reading its cassette gave takes effect: its failure, or its place. -/
def State.startLoad (s : State) (l : CasLoad) : State :=
  match s.takeSlot with
  | none => (s.putLoad l).failLoad { l with slot := 256 } .noSpace 0 casNone
  | some (s, i) =>
    let s := s.setRmSlot i { RmSlot.init with state := .loading, digest := l.digest }
    let l := { l with slot := i, phase := .receiving }
    match l.failed with
    | some (r, code, ix) => ((if code = 0x0C05 then s.dmaFailed else s).putLoad l).failLoad l (Result.ofCode r) code ix
    | none => s.placeLoad l

/-- What waited for a step boundary, after its admissions, or for the job to leave RUNNING (R257, R260). -/
def State.casBoundary (s : State) : State :=
  let s := s.cas.unloads.foldl (fun s u =>
    let x := s.rmSlot u.1
    if x.state = .resident && !x.pinned then (s.emptySlot u.1).respond u.2 .ok else s.respond u.2 (.of .state))
    (s.withCas { s.cas with unloads := [] })
  s.cas.loads.foldl (fun t l =>
    match l.phase with
    | .needSlot => t.startLoad l
    | .needSpace => t.placeLoad l
    | .ready | .failed => t.endLoad l
    | _ => t) s

/-! ### Reading a cassette over PCIe (R262) -/

/-- Whether the owner's policy demands a cassette signature (R468). -/
def State.casSigDemanded (s : State) : Bool := match s.sec.owner with | some o => bit o.policy 1 | none => false

/-- The registered cassette-signing keys (R465). -/
def State.casKeys (s : State) : Map Bytes := match s.sec.owner with | some o => o.casKeys | none => []

/-- What reading a manifest gives: the manifest, a failure of R270, or a failed DMA read. -/
inductive ManRead where
  | ok (m : Manifest)
  | bad (f : CasFail)
  | dma
deriving DecidableEq, Repr

/-- The total of a scatter list. -/
def scatterLen (l : List (Nat × Nat)) : Nat := l.foldl (fun n e => n + e.2) 0

/-- Reads and checks a manifest under the policy and keys in force (R467); `need` gives the body bytes the list must also name. -/
def State.readManifest (s : State) (v : HostView) (l : List (Nat × Nat)) (digest : Bytes) (need : Nat → Nat) : ManRead :=
  if scatterLen l < 256 then .bad ⟨0x0801, casNone⟩
  else
    match v.part l 0 256 with
    | none => .dma
    | some h =>
      if !casHeaderOk h then .bad ⟨0x0801, casNone⟩
      else if scatterLen l < fld h 8 8 + need (fld h 0x10 8) then .bad ⟨0x0801, casNone⟩
      else
        match v.part l 0 (fld h 8 8) with
        | none => .dma
        | some m =>
          match checkManifest m digest s.casSigDemanded s.casKeys with
          | .inr f => .bad f
          | .inl m => .ok m

/-- Reads blocks `b` on, `n` of them, the first at offset `off` of the list; a block that fails its digest is read once more, from what
host memory holds then. -/
def readBlocks (m : Manifest) (v v2 : HostView) (l : List (Nat × Nat)) : Nat → Nat → Nat → Map Bytes → Sum (Map Bytes) (Option Nat)
  | 0, _, _, acc => .inl acc
  | n + 1, b, off, acc =>
    let k := m.blockLen b
    let good := fun (x : Bytes) => sha384 x = m.digests.getD b []
    match v.part l off k with
    | none => .inr none
    | some x =>
      if good x then readBlocks m v v2 l n (b + 1) (off + k) (acc.put b x)
      else
        match v2.part l off k with
        | none => .inr none
        | some y => if good y then readBlocks m v v2 l n (b + 1) (off + k) (acc.put b y) else .inr (some b)

/-! ### CAS_LOAD -/

/-- A load of a digest that is resident or loading, or one too many (R258, R261). -/
def State.casKnown (s : State) (digest : Bytes) : Option Reply :=
  match (s.cas.slots.find? fun e => e.2.digest = digest && e.2.state = .resident) with
  | some e => some (.ok (leBytes 1 e.1 ++ zeros 7 ++ e.2.resDigest))
  | none =>
    if (s.loadOf digest).any CasLoad.loading then some (.of .busy)
    else if 4 ≤ (s.cas.loads.filter CasLoad.loading).length then some (.of .busy)
    else if s.freeSlot.isNone && s.evictOrder = [] then some (.of .noSpace)
    else none

/-- A load that has just been accepted; the owner's policy and keys are those of now (R467). -/
def State.newLoad (s : State) (digest : Bytes) (ch : Nat) : CasLoad :=
  { digest := digest, chan := some ch, adapter := none, slot := 256, phase := .needSlot, manifest := none, blocks := [], host := []
    sigDemanded := s.casSigDemanded, keys := s.casKeys, bad := [], ranges := [], started := s.gsc, resDigest := [], failed := none }

/-- A load whose cassette cannot be read. -/
def CasLoad.unread (l : CasLoad) (f : CasFail) : CasLoad := { l with failed := some ((casResultOf f.code).code, f.code, f.index) }

/-- The failure that a failed DMA read gives (R417). -/
def dmaFail : CasFail := ⟨0x0C05, casNone⟩

/-- A new load takes a slot now, or waits for the boundary at which one is evicted for it (R260). -/
def State.admitLoad (s : State) (l : CasLoad) : State :=
  let s := s.withCas { s.cas with loads := (s.cas.loads.filter fun x => !(x.digest = l.digest && x.phase = .sharing)) ++ [l] }
  if s.freeSlot.isSome || s.casNow then s.startLoad l else s

/-- The limit TIMEOUT_S of a command (R431). -/
def timeoutOk (n : Nat) : Bool := n ≤ 3600

/-- What a load reads over PCIe: manifest, then every block (R262). -/
def State.readCassette (s : State) (v v2 : HostView) (addr count : Nat) (l : CasLoad) : CasLoad :=
  match v.scatter addr count with
  | none => l.unread dmaFail
  | some sg =>
    match s.readManifest v sg l.digest id with
    | .dma => l.unread dmaFail
    | .bad f => l.unread f
    | .ok m =>
      match readBlocks m v v2 sg m.blocks 0 m.bytes.length [] with
      | .inr none => l.unread dmaFail
      | .inr (some n) => l.unread ⟨0x0804, n⟩
      | .inl bs => { l with manifest := some m, blocks := bs }

def casLoad (v v2 : HostView) : CmdSpec where
  op := 0x0301
  len := (· = 64)
  fields := fun b => sgOk (fld b 48 8) (fld b 56 4) && timeoutOk (fld b 60 4) && v.scatterOk (fld b 48 8) (fld b 56 4)
  allowed := anyState
  wakes := true
  act := fun s ch b =>
    let digest := b.take 48
    match s.casKnown digest with
    | some r => .done s r
    | none => .goOn (s.admitLoad (s.readCassette v v2 (fld b 48 8) (fld b 56 4) (s.newLoad digest ch)))

/-- CAS_LOAD on channel `ch`; `v` is what DMA reads find, `v2` what a second reading of a block finds. -/
def execCasLoad (ch : Nat) (v v2 : HostView) (s : State) : Out State := (casLoad v v2).row ch s

/-! ### Broadcasts (R263 to R268) -/

/-- Sends a cassette message on a port: manifests and blocks in class DATA, acknowledgements and requests in class CONTROL (R263, R382). A
head of free bytes stands for the layout that the spec does not give (log entry 18). -/
def State.casSend (s : State) (p : Nat) (m : CasMsg) (b : Bytes) : State :=
  let s := s.withCas { s.cas with sent := s.cas.sent ++ [(p, m)] }
  let h := s.freeBytes 256
  let data := match m with | .manifest _ _ | .block _ _ => true | _ => false
  h.2.putOwn p (h.2.port p).peerAddr (if data then 0 else 2) (if data then 0xFFFA else 0xFFF9) true
    (h.1 ++ padTo ((b.length + 127) / 128 * 128) b)

/-- The forward window of the range numbered `i` of a load (R266): 128 MiB, 128 blocks. Where it lies is not stated; its traffic goes to
the top of every channel (DESIGN CHOICE, log entry 177). -/
def State.window (s : State) (l : CasLoad) (i : Nat) : FarRegion :=
  copyRegion (s.chanBlocks - 243 * (64 * (l.slot % 4) + i + 1)) (2 ^ 27)

/-- The number of a range in its load. -/
def CasLoad.rangeIx (l : CasLoad) (r : CasRange) : Nat := l.ranges.findIdx fun x => x.first = r.first

/-- The window of a range is read or written at block `n`. -/
def State.windowAt (s : State) (l : CasLoad) (r : CasRange) (n len : Nat) (write : Bool) : State :=
  s.background (.copy l.slot) (s.window l (l.rangeIx r)) (1048576 * (n % 128)) len write

/-- The least acknowledgement plus 1 among the children; past the end without children (R266). -/
def CasRange.childMin (r : CasRange) : Nat := r.children.foldl (fun m c => min m c.acked) (r.last + 1)

/-- Whether a range takes block `n` now (R266, R267). -/
def CasRange.takes (r : CasRange) (n : Nat) : Bool :=
  !r.stopped && n + 1 ≤ r.childMin + 64 && (match r.retain with | some (low, _) => n < low + 128 | none => true)

/-- Whether the window of a range still holds block `n`: verified, and not overwritten by the one 128 after it (R266, R269). -/
def CasLoad.holds (l : CasLoad) (r : CasRange) (n : Nat) : Bool :=
  l.phase ≠ .failed && r.first ≤ n && n ≤ r.last && l.blocks.has n && (r.last < n + 128 || !l.blocks.has (n + 128))

/-- The blocks a child may now be sent, ascending: verified, from its start, up to 64 past its acknowledgement. -/
def CasRange.due (r : CasRange) (c : CasChild) : List Nat :=
  (List.range (min r.ackNext (c.acked + 64) - c.next)).map fun i => c.next + i

/-- A child after blocks have been sent to it: the time it has to acknowledge runs from when blocks first stand out (R267). -/
def CasChild.sent (c : CasChild) (n gsc : Nat) : CasChild :=
  { c with manifest := true, next := c.next + n, since := if c.next ≤ c.acked && 0 < n then gsc else c.since }

/-- Forwards manifest and blocks to the children in ascending port (R263, R266). -/
def State.forward (s : State) (l : CasLoad) (r : CasRange) : State × CasRange :=
  let kids := sortBy (fun (a b : CasChild) => a.port ≤ b.port) r.children
  let out := kids.foldl (fun (p : State × List CasChild) c =>
    let s := if c.manifest then p.1
      else p.1.casSend c.port (.manifest l.digest r.first) (match l.manifest with | some m => m.bytes | none => [])
    let d := r.due c
    let s := d.foldl (fun s n =>
      (s.windowAt l r n (l.blocks.find [] n).length false).casSend c.port (.block l.digest n) (l.blocks.find [] n)) s
    (s, p.2 ++ [c.sent d.length s.gsc])) (s, [])
  (out.1, { r with children := out.2 })

/-- The acknowledgement point of a range moves over the blocks that are verified (R265). -/
def CasRange.advance (blocks : Map Bytes) : Nat → CasRange → CasRange
  | 0, r => r
  | n + 1, r => if r.ackNext ≤ r.last && blocks.has r.ackNext then CasRange.advance blocks n { r with ackNext := r.ackNext + 1 } else r

/-- Acknowledges to the parent, once some block is verified. -/
def State.ackRange (s : State) (digest : Bytes) (r : CasRange) : State × CasRange :=
  match r.parent with
  | some p =>
    if r.parentLost || r.ackNext ≤ r.first then (s, r)
    else (s.casSend p (.ack digest r.first r.ackNext) [], { r with lastAck := s.gsc })
  | none => (s, r)

/-- A root range takes its blocks from its host's memory in order, as far as its window lets it (R262, R266). -/
def State.feedRoot (r : CasRange) : Nat → Nat → State × CasLoad → State × CasLoad
  | 0, _, x => x
  | k + 1, n, x =>
    if r.takes n && x.2.host.has n then
      let b := x.2.host.find [] n
      State.feedRoot r k (n + 1) (x.1.windowAt x.2 r n b.length true, { x.2 with blocks := x.2.blocks.put n b, host := x.2.host.del n })
    else x

def CasLoad.setRange (l : CasLoad) (r : CasRange) : CasLoad := { l with ranges := l.ranges.map fun x => if x.first = r.first then r else x }

/-- A range after a change of what is verified or acknowledged: a root reads on, a range whose acknowledgement point has moved
acknowledges, and the children are served. -/
def State.pumpRange (s : State) (l : CasLoad) (r : CasRange) : State × CasLoad :=
  let f := if r.parent.isNone then State.feedRoot r (r.last + 1 - r.ackNext) r.ackNext (s, l) else (s, l)
  let r' := CasRange.advance f.2.blocks (r.last + 1) r
  let x := if r.ackNext < r'.ackNext then f.1.ackRange l.digest r' else (f.1, r')
  let y := if l.manifest.isSome && l.phase ≠ .failed then x.1.forward f.2 x.2 else x
  (y.1, f.2.setRange y.2)

/-- The load and range that a digest and a first block name. -/
def State.rangeAt (s : State) (digest : Bytes) (first : Nat) : Option (CasLoad × CasRange) :=
  match s.loadOf digest with
  | none => none
  | some l => (l.ranges.find? fun r => r.first = first).map fun r => (l, r)

/-- A range from CAS_BCAST's entry at `o`. -/
def bcastRange (b : Bytes) (o gsc : Nat) : CasRange :=
  let first := fld b o 4
  { first := first, last := fld b (o + 4) 4, parent := if fld b (o + 8) 1 = 0x10 then none else some (fld b (o + 8) 1)
    children := ((List.range 16).filter fun p => bit (fld b (o + 10) 2) p).map fun p =>
      { port := p, start := first, acked := first, next := first, since := gsc, manifest := false }
    ackNext := first, retain := none, lastRx := gsc, lastAck := gsc, parentLost := false, stopped := false }

/-- The layout of CAS_BCAST's range entry at `o`. -/
def bcastEntryOk (v : HostView) (b : Bytes) (o : Nat) : Bool :=
  let root := fld b (o + 8) 1 = 0x10
  fld b o 4 ≤ fld b (o + 4) 4 && fld b (o + 8) 1 ≤ 0x10 && zeroAt b (o + 9) 1 &&
    (if root then sgOk (fld b (o + 16) 8) (fld b (o + 12) 4) && v.scatterOk (fld b (o + 16) 8) (fld b (o + 12) 4) else true)

/-- A root range's manifest and blocks in the host's memory are read (R262). -/
def State.readRoot (s : State) (v v2 : HostView) (digest b : Bytes) (o : Nat) : Sum (Manifest × Map Bytes) CasFail :=
  match v.scatter (fld b (o + 16) 8) (fld b (o + 12) 4) with
  | none => .inr dmaFail
  | some l =>
    let first := fld b o 4; let last := fld b (o + 4) 4
    let need := fun body => min body (1048576 * (last + 1)) - 1048576 * first
    match s.readManifest v l digest need with
    | .dma => .inr dmaFail
    | .bad f => .inr f
    | .ok m =>
      if m.blocks ≤ last then .inr ⟨0x0801, casNone⟩
      else
        match readBlocks m v v2 l (last + 1 - first) first m.bytes.length [] with
        | .inr none => .inr dmaFail
        | .inr (some n) => .inr ⟨0x0804, n⟩
        | .inl bs => .inl (m, bs)

/-- A broadcast's load with its root ranges read; their blocks wait in the host's memory. -/
def State.readRoots (s : State) (v v2 : HostView) (b : Bytes) : List Nat → CasLoad → CasLoad
  | [], l => l
  | i :: is, l =>
    let o := 56 + 24 * i
    if fld b (o + 8) 1 ≠ 0x10 then State.readRoots s v v2 b is l
    else
      match s.readRoot v v2 l.digest b o with
      | .inr f => l.unread f
      | .inl (m, bs) =>
        State.readRoots s v v2 b is { l with manifest := some m, host := bs.foldl (fun a e => a.put e.1 e.2) l.host }

/-- Every range of a load after a change, then the copy once every block is verified. -/
def State.pumpLoad (s : State) (l : CasLoad) : State :=
  let x := l.ranges.foldl (fun (p : State × CasLoad) r => p.1.pumpRange p.2 r) (s, l)
  if x.2.phase = .receiving then x.1.writeCopy x.2 else x.1.keepLoad x.2

/-- The same for the load of a digest that has not failed. -/
def State.pumpDigest (s : State) (digest : Bytes) : State :=
  match s.loadOf digest with
  | some l => if l.phase = .failed then s else s.pumpLoad l
  | none => s

def casBcast (v v2 : HostView) : CmdSpec where
  op := 0x0302
  len := fun n => 80 ≤ n && n ≤ 1592
  fields := fun b =>
    let n := fld b 48 2
    1 ≤ n && n ≤ 64 && zeroAt b 50 2 && timeoutOk (fld b 52 4) && b.length = 56 + 24 * n &&
      (List.range n).all fun i => bcastEntryOk v b (56 + 24 * i)
  allowed := anyState
  wakes := true
  act := fun s ch b =>
    let digest := b.take 48
    match s.casKnown digest with
    | some r => .done s r
    | none =>
      let n := fld b 48 2
      let l := { s.newLoad digest ch with ranges := (List.range n).map fun i => bcastRange b (56 + 24 * i) s.gsc }
      .goOn ((s.admitLoad (s.readRoots v v2 b (List.range n) l)).pumpDigest digest)

def execCasBcast (ch : Nat) (v v2 : HostView) (s : State) : Out State := (casBcast v v2).row ch s

/-- CASSETTE_MANIFEST: a manifest of a broadcast arrives on port `p` for the range that starts at `first` (R263). -/
def execCassetteManifest (p : Nat) (digest : Bytes) (first : Nat) (m : Bytes) (s : State) : Out State :=
  match s.rangeAt digest first with
  | none => .next s
  | some (l, r) =>
    if r.parent ≠ some p || l.phase = .failed then .next s
    else
      let l := l.setRange { r with lastRx := s.gsc }
      if l.manifest.isSome then .next (s.putLoad l)
      else
        match (if m.length < 256 then .inr ⟨0x0801, casNone⟩ else checkManifest m digest l.sigDemanded l.keys) with
        | .inr f => .next ((s.putLoad l).failLoad l (casResultOf f.code) f.code f.index)
        | .inl m =>
          let l := { l with manifest := some m }
          let s := if l.phase = .needSlot then s.putLoad l else s.placeLoad l
          .next (s.pumpDigest digest)

/-- CASSETTE_BLOCK: block `n` arrives on port `p` (R264 to R266); one that is held already, or lies beyond the window, still shows that
the parent sends (R268). -/
def execCassetteBlock (p : Nat) (digest : Bytes) (n : Nat) (b : Bytes) (s : State) : Out State :=
  match s.loadOf digest with
  | none => .next s
  | some l =>
    match l.manifest, l.ranges.find? fun r => r.first ≤ n && n ≤ r.last && r.parent = some p with
    | some m, some r =>
      if l.phase = .failed then .next s
      else
        let r := { r with lastRx := s.gsc }
        let l := l.setRange r
        if l.blocks.has n || !r.takes n then .next (s.putLoad l)
        else if sha384 b = m.digests.getD n [] && b.length = m.blockLen n then
          .next ((s.windowAt l r n b.length true).pumpLoad { l with blocks := l.blocks.put n b })
        else
          let k := l.bad.find 0 n + 1
          let l := { l with bad := l.bad.put n k }
          if 3 ≤ k then .next ((s.putLoad l).failLoad l .digest 0x0804 n) else .next ((s.putLoad l).casSend p (.again digest n) [])
    | _, _ => .next s

/-- CASSETTE_ACK: a child's acknowledgement that it has verified every block below `next` (R265, R266). -/
def execCassetteAck (p : Nat) (digest : Bytes) (first next : Nat) (s : State) : Out State :=
  match s.rangeAt digest first with
  | none => .next s
  | some (l, r) =>
    let kids := r.children.map fun c =>
      if c.port = p && c.acked < next then { c with acked := min next (r.last + 1), next := max c.next next, since := s.gsc } else c
    let l := l.setRange { r with children := kids }
    .next (if l.phase = .failed then s.putLoad l else s.pumpLoad l)

/-- CASSETTE_ACK_REPEAT: 10 ms after the last acknowledgement of an incomplete range (R265). -/
def execCassetteAckRepeat (digest : Bytes) (first : Nat) (s : State) : Out State :=
  match s.rangeAt digest first with
  | none => .next s
  | some (l, r) =>
    if r.parent.isNone || r.last < r.ackNext || l.phase = .failed then .next s
    else
      let s := s.advanceTo (r.lastAck + 10000000)
      let x := s.ackRange digest r
      .next (x.1.putLoad (l.setRange x.2))

/-- BCAST_TIMEOUT and RETAIN_MS in ns (R267). -/
def bcastTimeout : Nat := 100000000
def retainNs : Nat := 10000000000

/-- Whether a port's link is down. -/
def State.linkDown (s : State) (p : Nat) : Bool := (s.port p).state = .down || (s.port p).state = .off

/-- CHILD_BCAST_TIMEOUT: child `p` of a range is declared lost: its link is down, or its acknowledgement stalls while blocks stand out
(R267). -/
def execChildBcastTimeout (digest : Bytes) (first p : Nat) (s : State) : Out State :=
  match s.rangeAt digest first with
  | none => .next s
  | some (l, r) =>
    match r.children.find? fun c => c.port = p with
    | none => .next s
    | some c =>
      if !s.linkDown p && c.next ≤ c.acked then .next s
      else
        let s := if s.linkDown p then s else s.advanceTo (c.since + bcastTimeout)
        let low := c.acked - 64
        let low := match r.retain with | some (x, _) => min x low | none => low
        let r := { r with children := r.children.filter fun x => x.port ≠ p, retain := some (low, s.gsc + retainNs) }
        let s := (s.casFault l.slot 0x0808 casNone).event 0x0808 (BitVec.ofNat 64 p) (BitVec.ofNat 64 (c.acked - 1))
        .next (s.putLoad (l.setRange r))

/-- PARENT_BCAST_TIMEOUT: the parent of an incomplete range is lost: its link is down, or nothing has come (R268). -/
def execParentBcastTimeout (digest : Bytes) (first : Nat) (s : State) : Out State :=
  match s.rangeAt digest first with
  | none => .next s
  | some (l, r) =>
    match r.parent with
    | none => .next s
    | some p =>
      if r.parentLost || r.last < r.ackNext || l.phase = .failed then .next s
      else
        let s := if s.linkDown p then s else s.advanceTo (r.lastRx + bcastTimeout)
        let s := (s.casFault l.slot 0x0809 casNone).event 0x0809 (BitVec.ofNat 64 (r.ackNext - 1))
        .next (s.putLoad (l.setRange { r with parentLost := true }))

/-- RETAIN_EXPIRY: RETAIN_MS passes and the blocks kept for a lost child are released (R267). -/
def execRetainExpiry (digest : Bytes) (first : Nat) (s : State) : Out State :=
  match s.rangeAt digest first with
  | none => .next s
  | some (l, r) =>
    match r.retain with
    | none => .next s
    | some (_, t) => .next (((s.advanceTo t).putLoad (l.setRange { r with retain := none })).pumpDigest digest)

/-- RESIDENT_READBACK: the read-back of the written copy in slot `i` completes, `ok` when it found no uncorrectable error (R255). -/
def execResidentReadback (i : Nat) (ok : Bool) (s : State) : Out State :=
  match s.cas.loads.find? fun l => l.slot = i && l.phase = .written && l.adapter.isNone with
  | none => .next s
  | some l =>
    if !ok then .next (s.failLoad l .state 0x0807 casNone)
    else
      let x := s.rmSlot i
      let r := copyRegion x.base x.size
      let l := { l with phase := .ready, resDigest := residentDigest (s.farGetAt r 0 x.size) }
      let s := (s.background (.copy i) r 0 x.size false).putLoad l
      .next (if s.casNow then s.endLoad l else s)

/-! ### The short commands (R269, R431) -/

/-- A command on a broadcast range: RANGE when there is none. -/
def onRange (s : State) (b : Bytes) (f : CasLoad → CasRange → Verdict) : Verdict :=
  match s.rangeAt (b.take 48) (fld b 48 4) with
  | none => .done s (.of .range)
  | some (l, r) => f l r

def casChild : CmdSpec where
  op := 0x0303
  len := (· = 60)
  fields := fun b => fld b 52 1 ≤ 15 && zeroAt b 53 3
  allowed := anyState
  wakes := true
  act := fun s _ b => onRange s b fun l r =>
    let n := fld b 56 4
    if !l.holds r n then .done s (.of .range)
    else
      let c : CasChild := { port := fld b 52 1, start := n, acked := n, next := n, since := s.gsc, manifest := false }
      .done (s.pumpLoad (l.setRange { r with children := (r.children.filter fun x => x.port ≠ c.port) ++ [c] })) .ok

def casParent : CmdSpec where
  op := 0x0304
  len := (· = 53)
  fields := fun b => fld b 52 1 ≤ 15
  allowed := anyState
  wakes := true
  act := fun s _ b => onRange s b fun l r =>
    .done (s.putLoad (l.setRange { r with parent := some (fld b 52 1), parentLost := false, lastRx := s.gsc })) .ok

def casRelease : CmdSpec where
  op := 0x0305
  len := (· = 52)
  fields := fun _ => true
  allowed := anyState
  wakes := true
  act := fun s _ b => onRange s b fun l r =>
    .done ((s.putLoad (l.setRange { r with retain := none })).pumpDigest l.digest) .ok

def casAbort : CmdSpec where
  op := 0x0306
  len := (· = 48)
  fields := fun _ => true
  allowed := anyState
  wakes := true
  act := fun s _ b =>
    match s.loadOf b with
    | none => .done s (.of .range)
    | some l => if !l.loading then .done s (.of .range) else .done (s.failLoad l .state 0x080A casNone) .ok

def casUnload : CmdSpec where
  op := 0x0307
  len := (· = 1)
  fields := fun _ => true
  allowed := anyState
  wakes := true
  act := fun s ch b =>
    let i := fld b 0 1
    let x := s.rmSlot i
    if x.state ≠ .resident || x.pinned then .done s (.of .state)
    else if s.casNow then .done (s.emptySlot i) .ok
    else .goOn (s.withCas { s.cas with unloads := s.cas.unloads ++ [(i, ch)] })

def execCasChild (ch : Nat) (s : State) : Out State := casChild.row ch s
def execCasParent (ch : Nat) (s : State) : Out State := casParent.row ch s
def execCasRelease (ch : Nat) (s : State) : Out State := casRelease.row ch s
def execCasAbort (ch : Nat) (s : State) : Out State := casAbort.row ch s
def execCasUnload (ch : Nat) (s : State) : Out State := casUnload.row ch s

end Sys2Proof.Machine
end

