-- ==== Sys2Proof/Machine/Records.lean ====
section
/-! DEFINITION. The record ring, record blocks and seals, and the completion rings (R277 to R279, R309, R311, R315 to R329, R338, R339). -/
namespace Sys2Proof.Machine

def State.withSrv (s : State) (x : Serve) : State := { s with srv := x }
def State.withRecs (s : State) (x : Records) : State := { s with recs := x }
def State.cpl (s : State) (r : Nat) : CplRing := s.srv.cq.find .init r
def State.setCpl (s : State) (r : Nat) (x : CplRing) : State := s.withSrv { s.srv with cq := s.srv.cq.put r x }
def State.reqRing (s : State) (r : Nat) : ReqRing := s.srv.rq.find .init r
def State.setReqRing (s : State) (r : Nat) (x : ReqRing) : State := s.withSrv { s.srv with rq := s.srv.rq.put r x }
def State.req (s : State) (id : Nat) : Option Req := if s.srv.reqs.has id then (s.srv.reqs.find? fun e => e.1 = id).map fun e => e.2 else none
def State.setReq (s : State) (id : Nat) (q : Req) : State := s.withSrv { s.srv with reqs := s.srv.reqs.put id q }

/-- A ring's size: 2^LOG2_SIZE from 4 to 16, other values act as `d` (R311, R339). -/
def ringSize (log2 d : Nat) : Nat := if 4 ≤ log2 && log2 ≤ 16 then 2 ^ log2 else 2 ^ d

/-! ### Signatures by the attestation key (R323, R324, R332, R458) -/

/-- The attestation key's private number. -/
def State.akOf (s : State) : Nat := s.sec.ak.getD 0

/-- KEY_ID (R323). -/
def State.keyId (s : State) : Bytes := sha384 (ecPublic s.akOf)

/-- Signs SHA-384 of a byte string with the attestation key. -/
def State.sign (s : State) (b : Bytes) : (Bytes × Bytes) × State :=
  (ecdsaSign s.akOf (Config.signNonce s.free) (sha384 b), { s with free := s.free + 1, sec := { s.sec with signs := s.sec.signs + 1 } })

/-! ### The record ring (R328) -/

/-- Whether the record ring takes an entry now. -/
def Records.room (x : Records) : Bool := x.enable && (x.tail - x.head).toNat < ringSize x.log2 12

/-- Writes an entry at REC_TAIL; after a seal the interrupt on VECTOR. -/
def State.recWrite (s : State) (isSeal : Bool) (e : Bytes) : State :=
  let x := s.recs
  let s := s.dmaWrite (x.base + 512 * (x.tail.toNat % ringSize x.log2 12)) e
  let s := s.withRecs { x with tail := x.tail + 1#32 }
  if isSeal then s.sendVector x.vector else s

/-- Writes what waits for room, in order. -/
def State.recDrain : Nat → State → State
  | 0, s => s
  | n + 1, s =>
    match s.recs.queue with
    | [] => s
    | e :: rest => if s.recs.room then State.recDrain n ((s.withRecs { s.recs with queue := rest }).recWrite e.1 e.2) else s

/-- An entry for the record ring. -/
def State.recPush (s : State) (isSeal : Bool) (e : Bytes) : State :=
  (s.withRecs { s.recs with queue := s.recs.queue ++ [(isSeal, e)] }).recDrain (s.recs.queue.length + 1)

/-! ### Blocks (R319 to R323) -/

/-- SEAL_MS in ns (R339). -/
def Records.sealNs (x : Records) : Nat := (if x.sealMs = 0 then 10 else min 1000 x.sealMs) * 1000000

/-- The open block closes, or is due to close while four are staged (R322). -/
def State.closeBlock (s : State) : State :=
  match s.recs.opened with
  | none => s.withRecs { s.recs with closeDue := false }
  | some b =>
    if 4 ≤ s.recs.staged.length then s.withRecs { s.recs with closeDue := true }
    else s.withRecs { s.recs with
      opened := none, closeDue := false, staged := s.recs.staged ++ [b], blockNext := s.recs.blockNext + 1 }

/-- A record enters the open block, or opens one (R319, R320). -/
def Records.enter (x : Records) (rec_ : Bytes) (gsc first last : Nat) : Records :=
  let leaf := sha384 (0#8 :: rec_)
  let b := match x.opened with
    | some b => { b with firstStep := min b.firstStep first, lastStep := max b.lastStep last, leaves := b.leaves ++ [leaf] }
    | none => { seq := x.blockNext, first := x.next, gsc := gsc, launch := x.launchGsc, drained := false, firstStep := first, lastStep := last, leaves := [leaf] }
  { x with opened := some b, next := x.next + 1 }

/-- A record is written and enters the open block; the 4,096th closes it. -/
def State.addRecord (s : State) (rec_ : Bytes) (first last : Nat) : State :=
  let s := s.recPush false rec_
  let s := s.withRecs (s.recs.enter rec_ s.gsc first last)
  if s.recs.opened.any fun b => 4096 ≤ b.leaves.length then s.closeBlock else s

/-- Whether a record can be written now: stage 4 is held otherwise (R322, R328). -/
def State.canRecord (s : State) : Bool := s.recs.queue = [] && s.recs.room && !s.recs.closeDue

/-- Bytes 0 to 255 of a seal (R323). -/
def State.sealHead (s : State) (b : Block) (void : Option Nat) : Bytes :=
  [0x4E#8, 0x44#8, 0x52#8, 0x42#8] ++ leBytes 2 1 ++ leBytes 2 (if void.isSome then 2 else 1) ++ leBytes 8 b.seq ++
    leBytes 8 b.first ++ leBytes 2 b.leaves.length ++ zeros 6 ++ leBytes 8 b.firstStep ++ leBytes 8 b.lastStep ++
    leBytes 8 b.launch ++ leBytes 8 s.gsc ++ (if void.isSome then zeros 48 else merkleRoot b.leaves) ++
    (if void.isSome then zeros 48 else s.keyId) ++ leBytes 2 (void.getD 0) ++ zeros 94

/-- Signs a block and writes its seal. -/
def State.sealBlock (s : State) (b : Block) : State :=
  let h := s.sealHead b none
  let x := s.sign h
  (x.2.recPush true (h ++ x.1.1 ++ x.1.2 ++ zeros 160)).event 0x0705 (BitVec.ofNat 64 b.seq)

/-- Voids a block and writes its seal (R325). -/
def State.voidBlock (s : State) (code : Nat) (b : Block) : State :=
  (s.recPush true (s.sealHead b (some code) ++ zeros 256)).event 0x0706 (BitVec.ofNat 64 b.seq)

/-- Voids the open block and every staged one, in BLOCK_SEQ order (R325). -/
def State.voidBlocks (s : State) (code : Nat) : State :=
  let bs := s.recs.staged ++ s.recs.opened.toList
  let s := s.withRecs { s.recs with
    staged := [], opened := none, closeDue := false, marks := []
    blockNext := s.recs.blockNext + s.recs.opened.toList.length }
  bs.foldl (fun s b => s.voidBlock code b) s

/-! ### Completion rings (R279, R309) -/

/-- Sends a ring's interrupt; the pending count and WAITING clear. -/
def State.cplSend (s : State) (r : Nat) : State :=
  let x := s.cpl r
  (s.setCpl r { x with pend := 0, waiting := false }).sendVector x.vector

/-- The refs of an adapter version: requests ACTIVE or ENDING that are bound to it (R296). -/
def State.verRefs (s : State) (slot ver : Nat) : Nat :=
  (s.srv.reqs.filter fun e => e.2.bound = some (slot, ver) && (e.2.state = .active || e.2.state = .ending)).length

def State.adapter (s : State) (i : Nat) : AdapterSlot := s.srv.adapters.find .init i
def State.setAdapter (s : State) (i : Nat) (x : AdapterSlot) : State := s.withSrv { s.srv with adapters := s.srv.adapters.put i x }

/-- DRAINING versions with no request left become FREE (R295, R296). -/
def State.freeVersions (s : State) (slot : Nat) : State :=
  let a := s.adapter slot
  s.setAdapter slot { a with versions := a.versions.filter fun v => !(v.state = .draining && s.verRefs slot v.num = 0) }

/-- The resident-model slot behind a region of the job. -/
def State.modelSlot (s : State) (region : Nat) : Option Nat :=
  match s.image with
  | none => none
  | some i => (i.decls.find? fun d => d.region = region && d.content = 2).map fun d => d.slot

/-- PINS of a model's slot changes (R259). -/
def State.pin (s : State) (region : Nat) (up : Bool) : State :=
  match s.modelSlot region with
  | none => s
  | some i => let x := s.rmSlot i; s.setRmSlot i { x with pins := if up then x.pins + 1 else x.pins - 1 }

/-- A request's completion entry is written: its table entry, extents and references are free (R282, R283, R290, R296). -/
def State.freeReq (s : State) (id : Nat) : State :=
  match s.req id with
  | none => s
  | some q =>
    let s := s.withSrv { s.srv with reqs := s.srv.reqs.del id }
    let s := if q.wasActive then s.pin q.par.modelIx false else s
    match q.bound with | some b => s.freeVersions b.1 | none => s

/-- One entry goes out at CQ_TAIL with its PHASE bit; the interrupt as R309 has it. -/
def State.cplWrite (s : State) (r : Nat) (h : HeldCpl) : State :=
  let x := s.cpl r
  let n := ringSize x.log2 4
  let e := modAt h.entry 11 fun b => b ||| BitVec.ofNat 8 (bitAt 7 (x.tail.toNat / n % 2 = 0))
  let s := s.dmaWrite (x.base + 64 * (x.tail.toNat % n)) e
  let s := s.setCpl r { x with tail := x.tail + 1#32, pend := x.pend + 1, oldest := if x.pend = 0 then s.gsc else x.oldest }
  let s := match h.ends with | some id => s.freeReq id | none => s
  if max 1 x.modCount ≤ x.pend + 1 || x.waiting then s.cplSend r else s

/-- Writes a ring's held entries while it is enabled and has room. -/
def State.cplDrain (r : Nat) : Nat → State → State
  | 0, s => s
  | n + 1, s =>
    let x := s.cpl r
    match x.held with
    | [] => s
    | h :: rest =>
      if x.enable && (x.tail - x.head).toNat < ringSize x.log2 4 then
        State.cplDrain r n ((s.setCpl r { x with held := rest }).cplWrite r h)
      else s

/-- An entry for a completion ring. -/
def State.cplPush (s : State) (r : Nat) (e : Bytes) (ends : Option Nat) : State :=
  let x := s.cpl r
  (s.setCpl r { x with held := x.held ++ [{ entry := e, ends := ends }] }).cplDrain r (x.held.length + 1)

/-- Whether every completion entry is written. -/
def State.cplClear (s : State) : Bool := s.srv.cq.all fun e => e.2.held = []

/-- A held entry of request `id` with CANCEL_LATE set. -/
def HeldCpl.late (id : Nat) (h : HeldCpl) : HeldCpl :=
  if h.ends = some id then { h with entry := modAt h.entry 10 fun b => b ||| 1#8 } else h

/-- A CANCEL for a request whose entry is held sets CANCEL_LATE in it (R304). -/
def State.cplLate (s : State) (id : Nat) : State :=
  s.withSrv { s.srv with cq := s.srv.cq.map fun e => (e.1, { e.2 with held := e.2.held.map (HeldCpl.late id) }) }

end Sys2Proof.Machine
end

