-- ==== Sys2Proof/Machine/Serving.lean ====
section
/-! DEFINITION. The serving engine: requests, completions, boundaries and their stages, step descriptors (R272 to R310, R317, R318,
R331 to R334, R407, R534). -/
namespace Sys2Proof.Machine

/-! ### Regions and extents (R283, R290) -/

/-- 64-bit all ones, for a field that has no value. -/
def ones64 : Nat := 2 ^ 64 - 1

/-- n rounded up to a multiple of 64. -/
def up64 (n : Nat) : Nat := (n + 63) / 64 * 64

/-- The serving configuration; zeros without one. -/
def State.serveCfg (s : State) : ServeCfg :=
  s.srv.cfg.getD { serve := 0, kv := 0, adapters := none, kvPerPos := 0, vocab := 0, windowNs := 1000000 }

/-- A far region's size in bytes. -/
def State.regionBytes (s : State) (r : Nat) : Nat := (s.farRegion r).size * 65536

/-- PEN_CAP of a request (R283). -/
def ReqPar.cap (p : ReqPar) (vocab : Nat) : Nat := up64 (min (p.promptLen + p.maxNew) vocab)
/-- The offset of PEN_ID in a token extent, and the extent's size. -/
def ReqPar.penOff (p : ReqPar) : Nat := up64 (4 * (p.promptLen + p.maxNew))
def ReqPar.extent (p : ReqPar) (vocab : Nat) : Nat := up64k (p.penOff + 8 * p.cap vocab)
/-- The size of a KV extent (R290). -/
def ReqPar.kvSize (p : ReqPar) (perPos : Nat) : Nat := up64k (perPos * (p.promptLen + p.maxNew - 1))

/-- A far-memory write of the engine. -/
def State.engineWrite (s : State) (region off : Nat) (b : Bytes) : State :=
  (s.farPut region off b).background .serve (s.farRegion region) off b.length true

/-- The output ids produced so far. -/
def Req.out (q : Req) : List Nat := q.tokens.drop q.par.promptLen

def idBytes (l : List Nat) : Bytes := l.flatMap fun t => leBytes 4 t

/-- The output digest (R306). -/
def Req.outDigest (q : Req) : Bytes := sha384 (idBytes q.out)

/-! ### Penalty lists (R298, R299) -/

/-- Whether a request has a penalty list. -/
def ReqPar.penalised (p : ReqPar) : Bool := !(p.rep = 0x3F800000 && p.freq % 2 ^ 31 = 0 && p.pres % 2 ^ 31 = 0)

/-- One more occurrence of a token. -/
def penAdd : List (Nat × Nat) → Nat → List (Nat × Nat)
  | [], t => [(t, 1)]
  | (i, n) :: l, t => if i = t then (i, min (n + 1) (2 ^ 32 - 1)) :: l else (i, n) :: penAdd l t

/-- The arrays PEN_ID and PEN_CNT. -/
def Req.penArrays (q : Req) (vocab : Nat) : Bytes × Bytes :=
  let k := q.par.cap vocab - q.pen.length
  (idBytes (q.pen.map fun e => e.1) ++ List.replicate (4 * k) 0xFF#8, idBytes (q.pen.map fun e => e.2) ++ zeros (4 * k))

/-- Writes a request's penalty arrays. -/
def State.writePen (s : State) (q : Req) : State :=
  let v := s.serveCfg.vocab
  let a := q.penArrays v
  let o := q.tokOff + q.par.penOff
  (s.engineWrite s.serveCfg.serve o a.1).engineWrite s.serveCfg.serve (o + 4 * q.par.cap v) a.2

/-! ### Requests (R280 to R282) -/

/-- The parameters of a request entry. -/
def reqPar (b : Bytes) : ReqPar :=
  { stream := bit (fld b 1 1) 0, ring := fld b 2 1, modelIx := fld b 3 1, customer := fld b 4 2, adapter := fld b 6 2, tag := fld b 8 8
    seed := fld b 16 8, promptAddr := fld b 24 8, promptLen := fld b 32 4, maxNew := fld b 36 4, outAddr := fld b 40 8
    temp := fld b 48 4, topP := fld b 52 4, topK := fld b 56 2, stops := (List.range (fld b 58 1)).map fun i => fld b (76 + 4 * i) 4
    rep := fld b 64 4, freq := fld b 68 4, pres := fld b 72 4 }

def finite32 (x : Nat) : Bool := x / 2 ^ 23 % 256 ≠ 255
def positive32 (x : Nat) : Bool := 0 < x && x < 0x7F800000

/-- The field ranges of R280. -/
def ReqPar.ok (p : ReqPar) (vocab : Nat) : Bool :=
  p.ring < 64 && p.customer < 4096 && (p.adapter < 16384 || p.adapter = 0xFFFF) && p.promptAddr % 64 = 0 &&
    1 ≤ p.promptLen && p.promptLen ≤ 16777215 && 1 ≤ p.maxNew && p.maxNew ≤ 16777216 - p.promptLen && p.outAddr % 64 = 0 &&
    (p.temp = 0 || positive32 p.temp) && positive32 p.topP && p.topP ≤ 0x3F800000 && 1 ≤ p.topK && p.topK ≤ 1024 &&
    p.stops.length ≤ 4 && p.stops.all (fun t => t < vocab) && positive32 p.rep && finite32 p.freq && finite32 p.pres

/-- Condition 1 of R281 of a SUBMIT. -/
def submitOk (b : Bytes) (vocab : Nat) : Bool :=
  let n := fld b 58 1
  fld b 0 1 = 1 && fld b 1 1 ≤ 1 && zeroAt b 59 5 && n ≤ 4 && zeroAt b (76 + 4 * n) (16 - 4 * n) && zeroAt b 92 36 && (reqPar b).ok vocab

/-- The layout of a CANCEL (R280). -/
def cancelOk (b : Bytes) : Bool :=
  zeroAt b 1 1 && fld b 2 1 < 64 && zeroAt b 3 1 && fld b 4 2 < 4096 && zeroAt b 6 2 && zeroAt b 16 112

/-- The STATUS values (R307). -/
def stDone : Nat := 0x0000
def stCancelled : Nat := 0x0001
def stBadDesc : Nat := 0x0002
def stTooLong : Nat := 0x0003
def stCustomerOff : Nat := 0x0004
def stAdapterUnknown : Nat := 0x0005
def stAdapterRetired : Nat := 0x0006
def stModelInvalid : Nat := 0x0007
def stDupTag : Nat := 0x0008
def stTableFull : Nat := 0x0009
def stNoSpace : Nat := 0x000A
def stHostError : Nat := 0x000B
def stJobFault : Nat := 0x000C
def stCancelUnknown : Nat := 0x000D
def stProgress : Nat := 0x0010

/-- A completion entry (R306); PHASE is set when it is written. -/
def cplEntry (tag status flags customer outCount id recSeq first last : Nat) (digest : Bytes) : Bytes :=
  leBytes 8 tag ++ leBytes 2 status ++ leBytes 2 flags ++ leBytes 2 customer ++ zeros 2 ++ leBytes 4 outCount ++ leBytes 4 id ++
    leBytes 8 recSeq ++ leBytes 8 first ++ leBytes 8 last ++ digest.take 16

/-- A request's entry. -/
def Req.entry (q : Req) (id status flags recSeq : Nat) : Bytes :=
  cplEntry q.par.tag status flags q.par.customer q.out.length id recSeq (q.first.getD ones64) (q.last.getD ones64) q.outDigest

/-- The entry of a SUBMIT or CANCEL that took no table entry. -/
def plainEntry (b : Bytes) (status : Nat) : Bytes :=
  cplEntry (fld b 8 8) status 0 (fld b 4 2) 0 (2 ^ 32 - 1) ones64 ones64 ones64 (sha384 [])

/-- Adds to what stage 4 has to write. -/
def State.addWork (s : State) (w : CplWork) : State := s.withSrv { s.srv with work := s.srv.work ++ [w] }

/-- A SUBMIT or CANCEL completes without a table entry. -/
def State.failEntry (s : State) (b : Bytes) (status : Nat) : State :=
  s.addWork (.entry (if fld b 2 1 < 64 then fld b 2 1 else 0) (plainEntry b status))

/-- A request ends with a status; its completion is written in stage 4. -/
def State.endReq (s : State) (id : Nat) (q : Req) (status : Nat) : State :=
  (s.setReq id { q with state := .ending, status := status }).addWork (.finish id)

/-- The lowest number that a table does not list. -/
def lowestFree {α : Type} : Map α → Nat → Nat
  | [], n => n
  | (k, _) :: m, n => if k = n then lowestFree m (n + 1) else if n < k then n else lowestFree m n

/-- The greatest POS_MAX of the step menu. -/
def State.maxPos (s : State) : Nat := match s.image with | some i => i.steps.foldl (fun n x => max n x.posMax) 0 | none => 0

/-- A place for a token extent (R283). -/
def State.tokFit (s : State) (size : Nat) : Option Nat :=
  lowestFit (s.srv.reqs.map fun e => (e.2.tokOff, e.2.tokSize)) (16 * 2 ^ 20) (s.regionBytes s.serveCfg.serve) size

/-- A new request in FETCHING (R282). -/
def newReq (p : ReqPar) (arrival tokOff tokSize : Nat) (a : Option Audit) : Req :=
  { state := .fetching, par := p, arrival := arrival, tokOff := tokOff, tokSize := tokSize, kv := none, np := 0, waitStart := 0
    gscWaiting := 0, tokens := [], pen := [], bound := none, first := none, last := none, built := false, gained := false, status := 0
    stopped := false, late := false, wasActive := false, audit := a }

/-- Conditions 2 to 6 of R281: the status of the first that fails. -/
def State.submitStatus (s : State) (p : ReqPar) : Option Nat :=
  if s.maxPos < p.promptLen + p.maxNew - 1 then some stTooLong
  else if !(s.srv.customers.find .init p.customer).enabled then some stCustomerOff
  else if (s.modelSlot p.modelIx).isNone then some stModelInvalid
  else if p.adapter ≠ 0xFFFF && !(s.adapter p.adapter).installed then some stAdapterUnknown
  else if p.adapter ≠ 0xFFFF && (s.adapter p.adapter).retired then some stAdapterRetired
  else if s.srv.reqs.any fun e => e.2.audit.isNone && e.2.par.customer = p.customer && e.2.par.tag = p.tag then some stDupTag
  else none

/-- A SUBMIT is applied (R281). -/
def State.submitReq (s : State) (arrival : Nat) (b : Bytes) : State :=
  let v := s.serveCfg.vocab
  if !submitOk b v then s.failEntry b stBadDesc
  else
    let p := reqPar b
    match s.submitStatus p with
    | some st => s.failEntry b st
    | none =>
      let id := lowestFree s.srv.reqs 0
      if 65536 ≤ id then s.failEntry b stTableFull
      else
        match s.tokFit (p.extent v) with
        | none => s.failEntry b stNoSpace
        | some o => s.setReq id (newReq p arrival o (p.extent v) none)

/-- A CANCEL is applied (R304). -/
def State.cancelReq (s : State) (b : Bytes) : State :=
  if !cancelOk b then s.failEntry b stBadDesc
  else
    match s.srv.reqs.find? fun e => e.2.audit.isNone && e.2.par.customer = fld b 4 2 && e.2.par.tag = fld b 8 8 with
    | none => s.failEntry b stCancelUnknown
    | some (id, q) =>
      if q.state = .ending then (s.setReq id { q with late := true }).cplLate id
      else s.endReq id q stCancelled

/-- Stage 2: every entry fetched before it and not yet applied, in arrival order. -/
def State.stage2 (s : State) : State :=
  s.srv.fetched.foldl (fun s e => if fld e.2 0 1 = 2 then s.cancelReq e.2 else s.submitReq e.1 e.2)
    (s.withSrv { s.srv with fetched := [] })

/-! ### Stage 1: tokens (R298, R303, R308, R331) -/

/-- Whether a request ends with token `t` appended: DONE, STOPPED. -/
def Req.finishes (q : Req) (t : Nat) : Bool × Bool :=
  let stop := q.par.stops.contains t
  let full := q.par.maxNew ≤ q.out.length
  let cut := match q.audit with | some a => a.cancelled && a.outCount ≤ q.out.length | none => false
  (stop || full || cut, stop)

/-- One token reaches its request. -/
def State.appendToken (s : State) (id t : Nat) : State :=
  match s.req id with
  | none => s
  | some q =>
    let i := q.out.length
    let s := if q.audit.isNone then s.dmaWrite (q.par.outAddr + 4 * i) (leBytes 4 t) else s
    let s := s.engineWrite s.serveCfg.serve (q.tokOff + 4 * (q.par.promptLen + i)) (leBytes 4 t)
    let q := { q with tokens := q.tokens ++ [t], gained := true, pen := if q.par.penalised then penAdd q.pen t else q.pen }
    let s := if q.par.penalised then s.writePen q else s
    let f := q.finishes t
    if f.1 then s.endReq id { q with stopped := f.2 } stDone else s.setReq id q

/-- Stage 1. -/
def State.stage1 (s : State) : State :=
  match s.srv.step with
  | none => s
  | some r => (r.samples.zip r.tokens).foldl (fun s e => s.appendToken e.1 e.2) (s.withSrv { s.srv with step := none })

/-! ### Stage 3: customers and adapters (R284, R294 to R297) -/

/-- WINDOW_NS in force. -/
def State.windowNs (s : State) : Nat := s.serveCfg.windowNs

/-- A customer's fields change (R284). -/
def State.setCustomer (s : State) (c : Nat) (en : Bool) (refill burst maxWait overdraft : Nat) : State :=
  let x := s.srv.customers.find .init c
  let y := { x with enabled := en, refill := refill, burst := burst, maxWaitUs := maxWait, overdraft := overdraft }
  let y :=
    if en && !x.enabled then { y with balance := burst, served := 0, win := s.gsc / s.windowNs }
    else if burst < x.burst then { y with balance := min x.balance burst }
    else y
  s.withSrv { s.srv with customers := s.srv.customers.put c y }

/-- A version becomes CURRENT; an older CURRENT one drains (R295), and the mark of a retirement goes (R297). -/
def State.makeCurrent (s : State) (slot ver : Nat) : State :=
  let a := s.adapter slot
  if a.versions.any fun v => v.num = ver && v.state = .loading then
    (s.setAdapter slot { a with retired := false, versions := a.versions.map fun v =>
      if v.num = ver then { v with state := .current } else if v.state = .current then { v with state := .draining } else v
      }).freeVersions slot
  else s

/-- A slot is retired: its CURRENT version drains, WAITING requests that name it end (R297). -/
def State.retireSlot (s : State) (slot : Nat) : State :=
  let a := s.adapter slot
  let s := (s.setAdapter slot { a with
    retired := true
    versions := a.versions.map fun v => if v.state = .current then { v with state := .draining } else v }).freeVersions slot
  s.srv.reqs.foldl (fun s e =>
    if e.2.state = .waiting && e.2.par.adapter = slot then s.endReq e.1 e.2 stAdapterRetired else s) s

def State.applyChange (s : State) : Change → State
  | .customer c en r b w o => s.setCustomer c en r b w o
  | .retire i => s.retireSlot i
  | .install i v => s.makeCurrent i v

/-- Stage 3. -/
def State.stage3 (s : State) : State :=
  s.srv.changes.foldl (fun s c => s.applyChange c) (s.withSrv { s.srv with changes := [] })

/-! ### Stage 4: records and completions (R306, R317, R318, R332) -/

/-- The adapter version a request is bound to. -/
def State.boundVersion (s : State) (q : Req) : Option Version :=
  match q.bound with
  | some b => (s.adapter b.1).versions.find? fun v => v.num = b.2
  | none => none

/-- A decision record (R317). -/
def State.record (s : State) (q : Req) : Bytes :=
  let p := q.par
  let v := s.boundVersion q
  let m := s.rmSlot ((s.modelSlot p.modelIx).getD 256)
  [0x4E#8, 0x44#8, 0x44#8, 0x52#8] ++ leBytes 2 1 ++ leBytes 2 q.status ++
    leBytes 2 (bitAt 0 q.late + bitAt 1 q.stopped + bitAt 2 (p.adapter ≠ 0xFFFF)) ++ leBytes 2 p.customer ++ leBytes 2 p.adapter ++
    leBytes 2 (match v with | some v => v.num | none => 0) ++ leBytes 8 s.recs.next ++ leBytes 8 p.tag ++ leBytes 8 p.seed ++
    leBytes 4 p.promptLen ++ leBytes 4 p.maxNew ++ leBytes 4 q.out.length ++ leBytes 4 p.temp ++ leBytes 4 p.topP ++ leBytes 2 p.topK ++
    leBytes 1 p.stops.length ++ zeros 1 ++ leBytes 4 p.rep ++ leBytes 4 p.freq ++ leBytes 4 p.pres ++ padTo 16 (idBytes p.stops) ++
    leBytes 2 (match v with | some v => v.rank | none => 0) ++ zeros 2 ++ leBytes 8 (q.first.getD ones64) ++
    leBytes 8 (q.last.getD ones64) ++ leBytes 8 q.gscWaiting ++ leBytes 8 s.gsc ++
    padTo 48 (match s.image with | some i => i.digest | none => []) ++ padTo 48 s.recs.manifestDigest ++ padTo 48 m.digest ++
    padTo 48 m.resDigest ++ padTo 48 (match v with | some v => v.digest | none => []) ++
    padTo 48 (match v with | some v => v.resDigest | none => []) ++ sha384 (idBytes (q.tokens.take p.promptLen)) ++ q.outDigest

/-- Whether a request's end builds a record (R317). -/
def Req.recorded (q : Req) : Bool := q.audit.isNone && (q.status = stDone || (q.status = stCancelled && q.wasActive))

/-- Whether a replay matches (R332). -/
def Req.matches_ (q : Req) (a : Audit) : Bool :=
  q.outDigest = a.outDigest && q.out.length = a.outCount &&
    ((a.cancelled && a.outCount ≤ q.out.length) || q.stopped = a.stopped)

/-- The verdict of an audit replay (R332), signed. -/
def State.verdict (s : State) (q : Req) (a : Audit) : State :=
  let m := s.rmSlot ((s.modelSlot q.par.modelIx).getD 256)
  let h := [0x4E#8, 0x44#8, 0x41#8, 0x56#8] ++ leBytes 2 1 ++ leBytes 2 (if q.matches_ a then 0 else 1) ++ leBytes 8 a.seq ++
    leBytes 4 q.out.length ++ leBytes 2 (bitAt 1 q.stopped) ++ zeros 2 ++ leBytes 8 s.gsc ++ a.digest ++
    padTo 48 s.recs.manifestDigest ++ q.outDigest ++ padTo 48 m.resDigest ++ s.keyId ++ zeros 16
  let x := s.sign h
  x.2.dmaWrite a.verdictAddr (h ++ x.1.1 ++ x.1.2)

/-- A request's completion, its record or verdict first. -/
def State.finishReq (s : State) (id : Nat) (q : Req) : State :=
  let fl := bitAt 0 q.late + bitAt 1 q.stopped
  let s := s.setReq id { q with built := true }
  if q.recorded then
    let n := s.recs.next
    let s := s.addRecord (s.record q) (q.first.getD ones64) (q.last.getD 0)
    s.cplPush q.par.ring (q.entry id q.status (fl + 4) n) (some id)
  else
    let s := match q.audit with | some a => if q.status = stDone then s.verdict q a else s | none => s
    s.cplPush q.par.ring (q.entry id q.status fl ones64) (some id)

/-- One item of stage 4; none while it is held (R322, R328). -/
def State.workOne (s : State) : CplWork → Option State
  | .entry r e => some (s.cplPush r e none)
  | .progress id =>
    match s.req id with
    | some q => some (s.cplPush q.par.ring (q.entry id stProgress 0 ones64) none)
    | none => some s
  | .finish id =>
    match s.req id with
    | some q => if q.built then some s else if q.recorded && !s.canRecord then none else some (s.finishReq id q)
    | none => some s

/-- The work of stage 4, up to where it is held. -/
def State.workAll : List CplWork → State → State
  | [], s => s.withSrv { s.srv with work := [] }
  | w :: ws, s =>
    match s.workOne w with
    | some s => State.workAll ws s
    | none => s.withSrv { s.srv with work := w :: ws }

/-- Stage 4 begins: a PROGRESS entry for each request with STREAM that gained a token and has not ended (R308). -/
def State.stage4Begin (s : State) : State :=
  let l := s.srv.reqs.filter fun e => e.2.gained && e.2.par.stream && e.2.state = .active && e.2.audit.isNone
  s.withSrv { s.srv with
    stage4 := true
    work := s.srv.work ++ l.map fun e => CplWork.progress e.1
    reqs := s.srv.reqs.map fun e => (e.1, { e.2 with gained := false }) }

/-! ### Stage 5: budgets (R285) -/

/-- A refill in window `w`. -/
def Customer.refilled (c : Customer) (w : Nat) : Customer :=
  if c.enabled && c.win < w then
    { c with balance := min c.burst (c.balance + c.refill * (w - c.win)), served := 0, win := w }
  else c

/-- Stage 5. -/
def State.stage5 (s : State) : State :=
  let w := s.gsc / s.windowNs
  s.withSrv { s.srv with window := w, customers := s.srv.customers.map fun e => (e.1, e.2.refilled w) }

/-! ### Stage 6: admission (R286 to R290) -/

def Version.cls (v : Version) : Nat := (v.rank + 63) / 64

/-- Whether a request is urgent (R286). -/
def State.urgent (s : State) (q : Req) : Bool :=
  let c := s.srv.customers.find .init q.par.customer
  c.maxWaitUs ≠ 0 && 1000 * c.maxWaitUs < s.gsc - q.waitStart

/-- The order key of R287. -/
def State.orderKey (s : State) (q : Req) : Nat × Int × Nat × Nat :=
  let c := s.srv.customers.find .init q.par.customer
  (if s.urgent q then 0 else 1, (c.served : Int) - c.refill, q.par.customer, q.arrival)

def keyLe (a b : Nat × Int × Nat × Nat) : Bool :=
  a.1 < b.1 || (a.1 = b.1 && (a.2.1 < b.2.1 || (a.2.1 = b.2.1 && (a.2.2.1 < b.2.2.1 || (a.2.2.1 = b.2.2.1 && a.2.2.2 ≤ b.2.2.2)))))

/-- The version a request runs with: its bound one, or for a WAITING one its slot's CURRENT version (R296); none where it has to wait
for one, `some none` without an adapter. -/
def State.versionFor (s : State) (q : Req) : Option (Option Version) :=
  if q.par.adapter = 0xFFFF then some none
  else
    match q.bound with
    | some _ => (s.boundVersion q).map some
    | none => ((s.adapter q.par.adapter).versions.find? fun v => v.state = .current).map some

/-- A trial step (R288): rows, the requests with their row counts, the adapter versions, KV extents placed, customers charged. -/
structure Trial where
  rows : Nat
  reqs : List (Nat × Nat)
  adapters : List (Nat × Nat)
  kv : List (Nat × Nat × Nat)
  customers : Map Customer
deriving Repr

/-- The descriptor size SZ of R288. -/
def descSize (r q a : Nat) : Nat := up64 (64 + 16 * r) + 64 * q + 32 * a

/-- The greatest r that R288's cap allows. -/
def capRows (sh : StepShape) (rows q a : Nat) : Nat :=
  min (sh.rowsMax - rows) (4 * ((sh.descSize - 64 * q - 32 * a) / 64 - 1) - rows)

/-- Whether a phase is one a shape takes. -/
def StepShape.takes (sh : StepShape) (prefill : Bool) : Bool :=
  match sh.kind with | 0 => !prefill | 1 => prefill | _ => true

/-- One request in fill() (R288). -/
def State.fillOne (s : State) (sh : StepShape) (t : Trial) (id : Nat) (q : Req) : Trial :=
  let pre := q.np < q.par.promptLen
  if !sh.takes pre then t
  else
    match s.versionFor q with
    | none => t
    | some v =>
      let key := v.map fun v => (q.par.adapter, v.num)
      let fresh := match key with | some k => !t.adapters.contains k | none => false
      let a := t.adapters.length + (if fresh then 1 else 0)
      if v.any (fun v => sh.classMax < v.cls) || sh.adaptersMax < a then t
      else
        let size := q.par.kvSize s.serveCfg.kvPerPos
        let used := (s.srv.reqs.filterMap fun e => e.2.kv) ++ t.kv.map fun e => e.2
        let fit := if q.state = .waiting then lowestFit used 0 (s.regionBytes s.serveCfg.kv) size else some 0
        match fit with
        | none => t
        | some o =>
          let c := t.customers.find .init q.par.customer
          let want := min (if pre then q.par.promptLen - q.np else 1) (sh.posMax - q.np)
          let cap := capRows sh t.rows (t.reqs.length + 1) a
          let fund := if q.audit.isSome then cap else (c.balance + (if s.urgent q then (c.overdraft : Int) else 0)).toNat
          let n := min want (min cap fund)
          if n = 0 then t
          else
            { rows := t.rows + n, reqs := t.reqs ++ [(id, n)]
              adapters := match key with | some k => if fresh then t.adapters ++ [k] else t.adapters | none => t.adapters
              kv := if q.state = .waiting then t.kv ++ [(id, o, size)] else t.kv
              customers := if q.audit.isSome then t.customers
                else t.customers.put q.par.customer { c with balance := c.balance - n, served := c.served + n } }

/-- fill() over candidates in order. -/
def State.fill (s : State) (cands : List (Nat × Req)) (sh : StepShape) : Trial :=
  cands.foldl (fun t e => s.fillOne sh t e.1 e.2) { rows := 0, reqs := [], adapters := [], kv := [], customers := s.srv.customers }

/-- The trial kept: the most rows, then the lower STEP_TICKS, then the lower shape index (R289). -/
def bestTrial (l : List (Nat × StepShape × Trial)) : Option (Nat × StepShape × Trial) :=
  l.foldl (fun b x =>
    if x.2.2.rows = 0 then b
    else
      match b with
      | none => some x
      | some y =>
        if y.2.2.rows < x.2.2.rows || (x.2.2.rows = y.2.2.rows && x.2.1.stepTicks < y.2.1.stepTicks) then some x else b) none

/-- The step menu. -/
def State.menu (s : State) : List StepShape := match s.image with | some i => i.steps | none => []

def State.tryStep (s : State) (cands : List (Nat × Req)) : Option (Nat × StepShape × Trial) :=
  bestTrial (s.menu.zipIdx.map fun x => (x.2, x.1, s.fill cands x.1))

/-- The step that stage 6 chooses. A live audit replay runs alone (R331). -/
def State.chooseStep (s : State) : Option (Nat × StepShape × Trial) :=
  let live := s.srv.reqs.filter fun e => e.2.state = .waiting || e.2.state = .active
  let others := sortBy (fun (a b : Nat × Req) => keyLe (s.orderKey a.2) (s.orderKey b.2)) (live.filter fun e => e.2.audit.isNone)
  match live.find? fun e => e.2.audit.isSome with
  | none => s.tryStep others
  | some a =>
    match s.tryStep [a] with
    | some t => some t
    | none => if a.2.state = .active then none else s.tryStep others

/-! ### Committing a step (R289, R291, R292) -/

/-- SCALE (R300). -/
def scaleOf (temp : Nat) : W32 :=
  if temp = 0 then 0x3F800000#32 else rne32 ((val32 0x3FB8AA3B#32).rat / (val32 (BitVec.ofNat 32 temp)).rat)

/-- A far address (R207). -/
def farAddr (region off : Nat) : Nat := region * 2 ^ 44 + off

/-- A request carried by the step takes its effect. -/
def State.carry (s : State) (t : Trial) (e : Nat × Nat) : State :=
  match s.req e.1 with
  | none => s
  | some q =>
    let s := if q.wasActive then s else s.pin q.par.modelIx true
    s.setReq e.1 { q with
      state := .active, wasActive := true, np := q.np + e.2, waitStart := s.gsc
      bound := if q.bound.isSome then q.bound else (s.versionFor q).bind fun v => v.map fun v => (q.par.adapter, v.num)
      kv := if q.kv.isSome then q.kv else (t.kv.find? fun k => k.1 = e.1).map fun k => k.2
      first := some (q.first.getD s.srv.stepSeq), last := some s.srv.stepSeq }

/-- The adapter list in order of (CLASS, SLOT, VERSION). -/
def State.adapterList (s : State) (t : Trial) : List (Nat × Version) :=
  sortBy (fun (a b : Nat × Version) =>
    keyLe (a.2.cls, (a.1 : Int), a.2.num, 0) (b.2.cls, (b.1 : Int), b.2.num, 0))
    (t.adapters.filterMap fun k => ((s.adapter k.1).versions.find? fun v => v.num = k.2).map fun v => (k.1, v))

/-- The rows of one request: number in the list, adapter index, the request after carry, its row count. -/
def descRows (ix adp : Nat) (q : Req) (n : Nat) : Bytes :=
  (List.range n).flatMap fun i =>
    let p := q.np - n + i
    let sample := i + 1 = n && q.par.promptLen ≤ p + 1
    leBytes 2 ix ++ leBytes 2 adp ++ leBytes 4 p ++ leBytes 4 (q.tokens.getD p 0) ++ leBytes 1 (bitAt 0 sample) ++ zeros 3

/-- Whether a request samples in the step that carries it. -/
def Req.samples (q : Req) : Bool := q.par.promptLen ≤ q.np

/-- A request's entry in the descriptor. -/
def State.reqBytes (s : State) (id : Nat) (q : Req) : Bytes :=
  let c := s.serveCfg; let p := q.par
  leBytes 4 id ++ leBytes 1 p.modelIx ++ zeros 1 ++ leBytes 2 p.topK ++
    leBytes 8 (farAddr c.kv (match q.kv with | some k => k.1 | none => 0)) ++ leBytes 8 (farAddr c.serve (q.tokOff + p.penOff)) ++
    leBytes 4 q.pen.length ++ leBytes 4 (p.cap c.vocab) ++ leBytes 8 p.seed ++ leBytes 4 (scaleOf p.temp).toNat ++ leBytes 4 p.topP ++
    leBytes 4 p.rep ++ leBytes 4 p.freq ++ leBytes 4 p.pres ++ leBytes 4 p.temp

/-- A step descriptor (R291), the step committed. -/
def State.descriptor (s : State) (shape : Nat) (sh : StepShape) (t : Trial) : Bytes :=
  let ads := s.adapterList t
  let qs := t.reqs.filterMap fun e => (s.req e.1).map fun q => (e.1, q, e.2)
  let adpOf := fun (q : Req) => match q.bound with
    | some b => (ads.findIdx? fun a => a.1 = b.1 && a.2.num = b.2).getD 0xFFFF
    | none => 0xFFFF
  let reqOff := up64 (64 + 16 * t.rows)
  let head := padTo 64 (leBytes 8 s.srv.stepSeq ++ leBytes 1 shape ++ zeros 1 ++ leBytes 2 t.rows ++ leBytes 2 qs.length ++
    leBytes 2 ads.length ++ leBytes 4 reqOff ++ leBytes 4 (reqOff + 64 * qs.length))
  let rows := qs.zipIdx.flatMap fun x => descRows x.2 (adpOf x.1.2.1) x.1.2.1 x.1.2.2
  let ab := ads.flatMap fun a => leBytes 2 a.1 ++ leBytes 2 a.2.num ++ leBytes 2 a.2.rank ++ leBytes 1 a.2.cls ++ zeros 1 ++
    leBytes 8 (farAddr (s.serveCfg.adapters.getD 0) a.2.base) ++ zeros 16
  padTo sh.descSize (padTo reqOff (head ++ rows) ++ (qs.flatMap fun x => s.reqBytes x.1 x.2.1) ++ ab)

/-- A pushed descriptor counts in USE_SEQ; the slots of the models it carries are used (R259). -/
def State.useStep (s : State) (b : Bytes) : State :=
  let n := s.cas.useSeq + 1
  let s := s.withCas { s.cas with useSeq := n }
  (List.range (fld b 12 2)).foldl (fun s i =>
    match s.modelSlot (fld b (fld b 16 4 + 64 * i + 4) 1) with
    | some k => s.setRmSlot k { s.rmSlot k with lastUse := n }
    | none => s) s

/-- A descriptor goes to q31, and from the lead to every other rank (R291, R407). -/
def State.emitDescriptor (s : State) (b : Bytes) : State :=
  let s := s.pushDescriptor b
  if s.multi && s.fab.lead then s.otherRanks.foldl (fun s r => s.sendMsg r 2 0xFFFF (.descriptor b)) s else s

/-- Commits a step and pushes its descriptor, which closes the boundary. -/
def State.commitStep (s : State) (shape : Nat) (sh : StepShape) (t : Trial) : State :=
  let s := s.wake
  let s := s.withSrv { s.srv with customers := t.customers }
  let s := t.reqs.foldl (fun s e => s.carry t e) s
  let b := s.descriptor shape sh t
  let samples := t.reqs.filterMap fun e => (s.req e.1).bind fun q => if q.samples then some e.1 else none
  let s := s.casBoundary.useStep b
  let n := s.srv.stepSeq
  (s.withSrv { s.srv with
    stepSeq := n + 1, boundary := false, step := some { seq := n, samples := samples, tokens := [] } }).emitDescriptor b

/-- Stage 6. -/
def State.stage6 (s : State) : State :=
  match s.chooseStep with
  | some (i, sh, t) => s.commitStep i sh t
  | none => s.casBoundary

/-! ### The pause (R333) -/

/-- Whether the pause awaited is due at the boundary that is open. -/
def State.pauseDue (s : State) : Bool := match s.srv.pauseAt with | some n => n < s.srv.stepSeq | none => false

/-- A pause descriptor. -/
def pauseBytes : Bytes := leBytes 8 ones64 ++ zeros 120

/-- The pause descriptor is pushed once every completion is written. -/
def State.pushPause (s : State) : State :=
  if s.cplClear then
    let s := s.wake
    (s.casBoundary.withSrv { s.casBoundary.srv with pauseAt := none, paused := true, boundary := false }).emitDescriptor pauseBytes
  else s

/-! ### The boundary (R273, R274) -/

/-- Stages 2 to 6 of an open boundary: a held stage 4 ends the pass; entries and changes that came meanwhile make another. -/
def State.pass : Nat → State → State
  | 0, s => s
  | n + 1, s =>
    if !s.srv.boundary then s
    else
      let s := if s.srv.stage4 then s else s.stage2.stage3.stage4Begin
      let s := State.workAll s.srv.work s
      if s.srv.work ≠ [] then s
      else
        let s := (s.withSrv { s.srv with stage4 := false }).stage5
        let more := s.srv.fetched ≠ [] || s.srv.changes ≠ []
        if s.pauseDue then if more then State.pass n s else s.pushPause
        else
          let s := s.stage6
          if s.srv.boundary && more then State.pass n s else s

/-- The engine works through an open boundary of a RUNNING job (R274). A pause that is due stops the fetching first. -/
def State.runBoundary (s : State) : State :=
  if s.job.state ≠ .running || s.stop.isSome || !s.srv.boundary then s
  else
    let s := if s.pauseDue then s.withSrv { s.srv with fetchStop := true } else s
    s.pass 3

/-- A held stage 4 goes on (R322, R328). -/
def State.resumeStage4 (s : State) : State := if s.srv.stage4 || s.pauseDue then s.runBoundary else s

/-- A step has ended: what it waits for to be drained is noted, the boundary opens, stage 1 runs (R272, R321). -/
def State.endStep (s : State) (seq : Nat) : State :=
  let s := s.withRecs { s.recs with marks := s.recs.marks ++ [(seq, s.pushMark)] }
  let s := (s.noteDrained.withSrv { s.noteDrained.srv with boundary := true }).stage1
  s.runBoundary

/-- The boundary opens when the job becomes RUNNING (R272, R278). -/
def State.openBoundary (s : State) : State :=
  if s.srv.cfg.isNone || (s.multi && !s.fab.lead) then s.withSrv { s.srv with fetchStop := false, paused := false, halted := false }
  else (s.withSrv { s.srv with boundary := true, fetchStop := false, paused := false, halted := false }).runBoundary

/-! ### A job-fatal fault (R305, R488) -/

/-- A held entry that ends request `id` becomes a JOB_FAULT entry. -/
def State.faultHeld (s : State) (h : HeldCpl) : HeldCpl :=
  match h.ends.bind fun id => (s.req id).map fun q => (id, q) with
  | some (id, q) => { h with entry := q.entry id stJobFault 0 ones64 }
  | none => h

/-- Every request in the table completes with JOB_FAULT and RECORD 0, one whose entry is held among them; entries that took no request are
written. -/
def State.failRequests (s : State) : State :=
  let w := s.srv.work
  let s := s.withSrv { s.srv with
    work := [], fetched := [], changes := [], step := none, boundary := false, stage4 := false, pauseAt := none, fetchStop := true
    cq := s.srv.cq.map fun e => (e.1, { e.2 with held := e.2.held.map s.faultHeld }) }
  let s := w.foldl (fun s x => match x with | .entry r e => s.cplPush r e none | _ => s) s
  s.srv.reqs.foldl (fun s e =>
    if e.2.built then s
    else
      let q := { e.2 with state := .ending, status := stJobFault, stopped := false, late := false, built := true }
      (s.setReq e.1 q).cplPush q.par.ring (q.entry e.1 stJobFault 0 ones64) (some e.1)) s

/-! ### Rows: result units, prompts, waits (R274, R282, R286, R292, R293) -/

/-- Whether a result unit breaks R293. -/
def State.resultBad (s : State) (b : Bytes) : Bool :=
  match s.srv.step with
  | none => true
  | some r =>
    let n := fld b 8 1; let got := r.tokens.length; let left := r.samples.length - got
    let last := bit (fld b 9 1) 0
    fld b 0 4 ≠ r.seq % 2 ^ 32 || fld b 4 4 ≠ got || left < n || 28 < n ||
      (List.range n).any (fun i => s.serveCfg.vocab ≤ fld b (16 + 4 * i) 4) || last ≠ (n = left : Bool)

/-- A result unit reaches the engine. -/
def State.resultUnit (s : State) (b : Bytes) : State :=
  if s.resultBad b then s.jobFatal 0x0701
  else
    match s.srv.step with
    | none => s
    | some r =>
      let r := { r with tokens := r.tokens ++ (List.range (fld b 8 1)).map fun i => fld b (16 + 4 * i) 4 }
      let s := s.withSrv { s.srv with step := some r }
      if bit (fld b 9 1) 0 then s.endStep r.seq else s

/-- RESULT_UNIT: the oldest 128 B that core `c` has sent on q31 reach the serving engine. -/
def execResultUnit (c : Nat) (s : State) : Out State :=
  onCore s c (
    let q := s.queue c 31
    if !s.bound c 31 || q.kind ≠ .step || q.stage.length < 128 || s.job.state ≠ .running || s.stop.isSome || s.srv.cfg.isNone ||
        (s.multi && !s.fab.lead) then s
    else (s.setQueue c 31 { q with stage := q.stage.drop 128 }).wake.resultUnit (q.stage.take 128))

/-- A prompt has been read well: the request waits (R281, R286, R298). -/
def State.promptOk (s : State) (id : Nat) (q : Req) (ids : List Nat) : State :=
  let q := { q with
    state := .waiting, waitStart := s.gsc, gscWaiting := s.gsc, tokens := ids
    pen := if q.par.penalised then ids.foldl penAdd [] else [] }
  ((s.setReq id q).engineWrite s.serveCfg.serve q.tokOff (idBytes ids)).writePen q

/-- PROMPT_READ_DONE: the prompt of request `id` has been read, or its read failed. -/
def execPromptReadDone (id : Nat) (v : HostView) (s : State) : Out State :=
  match s.req id with
  | none => .next s
  | some q =>
    if q.state ≠ .fetching then .next s
    else
      let s := match v.read q.par.promptAddr (4 * q.par.promptLen) with
        | none => (s.dmaFailed.event 0x0704).endReq id q stHostError
        | some b =>
          let ids := (List.range q.par.promptLen).map fun i => fld b (4 * i) 4
          if ids.any fun t => s.serveCfg.vocab ≤ t then s.endReq id q stBadDesc else s.promptOk id q ids
      .next (if s.srv.boundary then s.wake.runBoundary else s)

/-- REQUEST_URGENT: request `id`, WAITING or ACTIVE, has waited past its customer's MAX_WAIT_US since WAIT_START and the open boundary is
run again (R274, R286). -/
def execRequestUrgent (id : Nat) (s : State) : Out State :=
  match s.req id with
  | none => .next s
  | some q =>
    let w := (s.srv.customers.find .init q.par.customer).maxWaitUs
    if (q.state ≠ .waiting && q.state ≠ .active) || w = 0 || !s.srv.boundary || q.audit.isSome then .next s
    else .next (s.advanceTo (q.waitStart + 1000 * w + 1)).runBoundary

/-- REFILL_WINDOW: the refill window changes and the open boundary is run again. -/
def execRefillWindow (s : State) : Out State :=
  if !s.srv.boundary then .next s
  else
    let s := if s.gsc / s.windowNs = s.srv.window then s.advanceTo ((s.srv.window + 1) * s.windowNs) else s
    .next s.runBoundary

/-- LEAD_STEP_DESCRIPTOR: a step or pause descriptor from the lead is pushed to q31 (R407). -/
def execLeadStepDescriptor (b : Bytes) (s : State) : Out State :=
  if !s.multi || s.fab.lead || s.job.state ≠ .running || s.stop.isSome then .next s
  else
    let s := s.wake
    let n := s.srv.stepSeq
    let s := if n = 0 then s else (s.withRecs { s.recs with marks := s.recs.marks ++ [(n - 1, s.pushMark)] }).noteDrained
    let s := s.stage3.casBoundary
    if fld b 0 8 = ones64 then
      .next ((s.withSrv { s.srv with paused := true, pauseAt := none }).pushDescriptor b)
    else .next (((s.useStep b).withSrv { s.srv with stepSeq := fld b 0 8 + 1 }).pushDescriptor b)

end Sys2Proof.Machine
end

