-- ==== Sys2Proof/Machine/ServeCmd.lean ====
section
/-! DEFINITION. Rows of the rings and of the serving and replay commands (R276 to R279, R284, R294 to R297, R309, R311, R319, R321,
R328 to R331, R339). -/
namespace Sys2Proof.Machine

/-- A command on a ring; a ring above 63 stops (R277). -/
def onRing (r : Nat) (t : State) : Out State := if r < 64 then .next t else .fault .noSuchRing

/-! ### Request rings (R277, R278, R311) -/

/-- A ring is stopped (R277). -/
def State.stopRing (s : State) (r : Nat) : State :=
  (s.setReqRing r { s.reqRing r with enable := false, error := true }).event 0x0703 (BitVec.ofNat 64 r)

/-- A host write of a register of ring `r`; a ring above 63 stops (R277). -/
def State.ringWrite (s : State) (r : Nat) (t : State) : Out State := if r < 64 then s.heard (.next t) else .fault .noSuchRing

/-- RQ_TAIL: writing the producer index of ring `r`. -/
def execRqTail (r : Nat) (v : W32) (s : State) : Out State :=
  s.ringWrite r (
    let s := s.wake
    let x := { s.reqRing r with tail := v }
    let s := s.setReqRing r x
    if x.enable && ringSize x.log2 4 < (x.tail - x.head).toNat then s.stopRing r else s)

/-- RQ_CFG: writing a request ring's configuration. -/
def execRqCfg (r : Nat) (v : W32) (s : State) : Out State :=
  s.ringWrite r (
    let x := s.reqRing r
    let en := bit v.toNat 5
    let x := { x with error := x.error && !bit v.toNat 6, log2 := if x.enable then x.log2 else bits v.toNat 4 0 }
    s.setReqRing r (if en && !x.enable then { x with enable := true, head := 0#32, tail := 0#32 } else { x with enable := en }))

/-- Whether the engine fetches (R276, R278, R407). -/
def State.fetching (s : State) : Bool :=
  s.srv.cfg.isSome && !s.srv.fetchStop && s.stop.isNone && (s.job.state = .armed || s.job.state = .running) && !(s.multi && !s.fab.lead)

/-- Up to 16 entries of one ring; a failed read stops the ring (R417). -/
def State.fetchRing (s : State) (v : HostView) (r : Nat) : State :=
  let x := s.reqRing r
  if !x.enable then s
  else
    let k := min 16 (x.tail - x.head).toNat
    let n := ringSize x.log2 4
    let es := (List.range k).map fun i => v.read (x.base + 128 * ((x.head.toNat + i) % n)) 128
    let good := es.takeWhile fun e => e.isSome
    let s := s.withSrv { s.srv with
      fetched := s.srv.fetched ++ good.zipIdx.map fun e => (s.srv.arrival + e.2, e.1.getD [])
      arrival := s.srv.arrival + good.length }
    let s := s.setReqRing r { x with head := x.head + BitVec.ofNat 32 good.length }
    if good.length < k then s.dmaFailed.stopRing r else s

/-- RING_FETCH: one round over the enabled request rings. -/
def execRingFetch (v : HostView) (s : State) : Out State :=
  if !s.fetching then .next s
  else
    let t := (List.range 64).foldl (fun s r => s.fetchRing v r) s
    .next (if t.srv.fetched = [] then t else t.runBoundary)

/-! ### Completion rings (R279, R309, R311) -/

/-- What may go on when completion entries have been written. -/
def State.afterCpl (s : State) : State := if s.pauseDue then s.runBoundary else s

/-- CQ_CFG: writing a completion ring's configuration. -/
def execCqCfg (r : Nat) (v : W32) (s : State) : Out State :=
  s.ringWrite r (
    let x := s.cpl r
    let en := bit v.toNat 5
    let x := { x with vector := bits v.toNat 13 7, log2 := if x.enable then x.log2 else bits v.toNat 4 0 }
    let s := s.setCpl r (if en && !x.enable then { x with enable := true, head := 0#32, tail := 0#32 } else { x with enable := en })
    (s.cplDrain r (x.held.length + 1)).afterCpl)

/-- CQ_HEAD: host software has consumed entries. -/
def execCqHead (r : Nat) (v : W32) (s : State) : Out State :=
  s.ringWrite r (
    let x := s.cpl r
    ((s.setCpl r { x with head := v }).cplDrain r (x.held.length + 1)).afterCpl)

/-- CQ_ARM: writing WAITING. -/
def execCqArm (r : Nat) (waiting : Bool) (s : State) : Out State :=
  s.ringWrite r (
    let x := s.cpl r
    let s := s.setCpl r { x with waiting := waiting }
    if waiting && 0 < x.pend then s.cplSend r else s)

/-- COMPLETION_MODERATION_TIME: TIME_US has passed since the oldest pending entry was written. -/
def execCompletionModerationTime (r : Nat) (s : State) : Out State :=
  onRing r (
    let x := s.cpl r
    if x.modTimeUs = 0 || x.pend = 0 then s else (s.advanceTo (x.oldest + 1000 * x.modTimeUs)).cplSend r)

/-! ### The record ring (R319 to R322, R328, R329, R339) -/

/-- Whether writes to REC_BASE and REC_CFG are ignored (R329). -/
def State.recLocked (s : State) : Bool :=
  s.job.state = .armed || s.job.state = .running || (s.job.state = .paused && s.recs.enable)

/-- REC_CFG: writing the record ring's configuration. -/
def execRecCfg (v : W32) (s : State) : Out State :=
  if s.recLocked || s.deaf then .next s
  else
    let x := s.recs
    let en := bit v.toNat 5
    let y := { x with vector := bits v.toNat 13 7, sealMs := bits v.toNat 23 14, log2 := bits v.toNat 4 0, enable := en }
    let y := if en && !x.enable then { y with head := 0#32, tail := 0#32 } else y
    .next ((s.withRecs y).recDrain (x.queue.length + 1)).resumeStage4

/-- REC_HEAD: host software has consumed entries; a held stage 4 goes on. -/
def execRecHead (v : W32) (s : State) : Out State :=
  s.heard (.next ((s.withRecs { s.recs with head := v }).recDrain (s.recs.queue.length + 1)).resumeStage4)

/-- BLOCK_CLOSE: SEAL_MS has passed since the open block's first record. -/
def execBlockClose (s : State) : Out State :=
  match s.recs.opened with
  | none => .next s
  | some b => .next (s.advanceTo (b.gsc + s.recs.sealNs)).closeBlock

/-- The job becomes PAUSED once the save tick has come and every block is signed (R334). -/
def State.settlePause (s : State) : State :=
  if s.srv.halted && s.recs.staged = [] && s.recs.opened.isNone && s.stop.isNone then
    (({ s.withSrv { s.srv with halted := false } with job := { s.job with pausePending := false } }).setJob .paused).casBoundary
  else s

/-- BLOCK_SIGN: the oldest staged block is signed once its steps are drained; `parityOk` and `selfCheckOk` tell whether the vault's
read and the signing engine's self-check succeed. -/
def execBlockSign (parityOk selfCheckOk : Bool) (s : State) : Out State :=
  match s.recs.staged with
  | [] => .next s
  | b :: rest =>
    if s.stop.isSome || !(b.drained || s.stepDrained b.lastStep) then .next s
    else if !parityOk then .next (s.moduleFatal 0x0902)
    else if !selfCheckOk then .next (s.jobFatal 0x0903)
    else
      let s := (s.withRecs { s.recs with staged := rest }).sealBlock b
      let s := if s.recs.closeDue then s.closeBlock else s
      .next s.resumeStage4.settlePause

/-! ### JOB_SERVE and the customers (R276, R284, R431) -/

/-- A region's CONTENT in the job. -/
def State.content (s : State) (r : Nat) : Option Nat :=
  match s.image with | some i => (i.decls.find? fun d => d.region = r).map fun d => d.content | none => none

/-- The conditions of R276 on the regions. -/
def State.serveOk (s : State) (serve kv : Nat) (ad : Option Nat) : Bool :=
  s.content serve = some 3 && (s.content kv = some 0 || s.content kv = some 1) && !(s.farRegion kv).ro &&
    (match ad with | some a => s.content a = some 1 && a ≠ kv && a ≠ serve | none => true) && serve ≠ kv

/-- STEP_COUNT of the job. -/
def State.stepCount (s : State) : Nat := match s.image with | some i => i.stepCount | none => 0

/-- The configuration a JOB_SERVE payload spells. -/
def serveCfgOf (b : Bytes) (a : Option Nat) : ServeCfg :=
  { serve := fld b 0 1, kv := fld b 1 1, adapters := a, kvPerPos := fld b 4 4, vocab := fld b 8 4
    windowNs := if fld b 12 4 = 0 then 1000000 else fld b 12 4 }

def jobServe : CmdSpec where
  op := 0x0102
  len := (· = 16)
  fields := fun b =>
    let p := fld b 4 4; let v := fld b 8 4; let w := fld b 12 4; let a := fld b 2 1
    fld b 0 1 ≤ 15 && fld b 1 1 ≤ 15 && (a ≤ 15 || a = 0xFF) && zeroAt b 3 1 && p % 64 = 0 && 64 ≤ p && p ≤ 16 * 2 ^ 20 &&
      1 ≤ v && v ≤ 524288 && (w = 0 || 100000 ≤ w)
  allowed := jobIn [.loaded]
  wakes := false
  act := fun s _ b =>
    let a := if fld b 2 1 = 0xFF then none else some (fld b 2 1)
    if s.stepCount = 0 then .done s (.of .state)
    else if !s.serveOk (fld b 0 1) (fld b 1 1) a then .done s (.of .range)
    else .done (s.withSrv { s.srv with cfg := some (serveCfgOf b a) }) .ok

/-- The states in which customers and adapters are changed (R431). -/
def servingStates : List JobState := [.loaded, .armed, .running, .paused]

/-- A change waits for stage 3 while the job is RUNNING, and takes effect at once otherwise (R534). -/
def State.change (s : State) (c : Change) : State :=
  if s.job.state = .running then (s.withSrv { s.srv with changes := s.srv.changes ++ [c] }).runBoundary else s.applyChange c

def customerSet : CmdSpec where
  op := 0x0201
  len := (· = 20)
  fields := fun b => fld b 0 2 < 4096 && fld b 2 1 ≤ 1 && zeroAt b 3 1
  allowed := jobIn servingStates
  wakes := false
  act := fun s _ b =>
    if s.stepCount = 0 then .done s (.of .state)
    else .done (s.change (.customer (fld b 0 2) (fld b 2 1 = 1) (fld b 4 4) (fld b 8 4) (fld b 12 4) (fld b 16 4))) .ok

/-- A signed number as 8 bytes. -/
def intBytes (x : Int) : Bytes := leBytes 8 (wrap 64 x)

/-- A customer record (R335). -/
def Customer.bytes (c : Customer) : Bytes :=
  leBytes 1 (bitAt 0 c.enabled) ++ zeros 3 ++ leBytes 4 c.refill ++ leBytes 4 c.burst ++ leBytes 4 c.maxWaitUs ++ leBytes 4 c.overdraft ++
    zeros 4 ++ intBytes c.balance ++ leBytes 8 c.served ++ leBytes 8 c.win ++ zeros 16

def customerRead : CmdSpec where
  op := 0x0202
  len := (· = 2)
  fields := fun b => fld b 0 2 < 4096
  allowed := jobIn servingStates
  wakes := false
  act := fun s _ b =>
    if s.stepCount = 0 then .done s (.of .state) else .done s (.ok (s.srv.customers.find .init (fld b 0 2)).bytes)

/-! ### Adapters (R294 to R297) -/

def adapterRetire : CmdSpec where
  op := 0x0204
  len := (· = 2)
  fields := fun b => fld b 0 2 < 16384
  allowed := jobIn servingStates
  wakes := false
  act := fun s _ b =>
    if s.stepCount = 0 || s.srv.cfg.isNone then .done s (.of .state) else .done (s.change (.retire (fld b 0 2))) .ok

/-- The extents in use in the ADAPTER_REGION. -/
def State.adapterUsed (s : State) : List (Nat × Nat) := s.srv.adapters.flatMap fun e => e.2.versions.map fun v => (v.base, v.size)

/-- A slot's new version takes its place and its copy is written. A slot counts as installed from then on (DEDUCED, log entry 182: R297 lets
requests of a slot wait whose only version is LOADING); a retirement's mark stays until the version becomes CURRENT. -/
def State.installCopy (s : State) (ch slot rank region : Nat) (m : Manifest) (digest : Bytes) (base : Nat) (copy : Bytes) : State :=
  let a := s.adapter slot
  let n := if a.installed then (a.last + 1) % 65536 else 1
  let v : Version := { num := n, state := .loading, rank := rank, base := base, size := m.resSize, digest := digest, resDigest := [], loaded := false }
  let s := s.setAdapter slot { a with last := n, installed := true, versions := a.versions ++ [v] }
  let s := (s.farPut region base copy).background (.adapter slot n) (s.farRegion region) base copy.length true
  s.withCas { s.cas with
    bytesOut := s.cas.bytesOut + copy.length
    loads := s.cas.loads ++ [{ s.newLoad digest ch with adapter := some (slot, n), manifest := some m, phase := .written }] }

def adapterInstall (v v2 : HostView) : CmdSpec where
  op := 0x0203
  len := (· = 68)
  fields := fun b => fld b 0 2 < 16384 && 1 ≤ fld b 2 2 && fld b 2 2 ≤ 256 && sgOk (fld b 8 8) (fld b 4 4) && timeoutOk (fld b 64 4) &&
    v.scatterOk (fld b 8 8) (fld b 4 4)
  allowed := jobIn servingStates
  wakes := true
  act := fun s ch b =>
    let slot := fld b 0 2; let digest := sub b 16 48
    match s.serveCfg.adapters with
    | none => .done s (.of .state)
    | some region =>
      if s.srv.cfg.isNone then .done s (.of .state)
      else if 4 ≤ (s.adapter slot).versions.length then .done s (.of .busy)
      else
        let bad := fun (s : State) (f : CasFail) =>
          Verdict.done (s.casFault 0 f.code f.index) { result := casResultOf f.code, fault := f.code, entry := f.index }
        match v.scatter (fld b 8 8) (fld b 4 4) with
        | none => .done s.dmaFailed (.bad .state 0x0C05)
        | some l =>
          match s.readManifest v l digest id with
          | .dma => .done s.dmaFailed (.bad .state 0x0C05)
          | .bad f => bad s f
          | .ok m =>
            match readBlocks m v v2 l m.blocks 0 m.bytes.length [] with
            | .inr none => .done s.dmaFailed (.bad .state 0x0C05)
            | .inr (some n) => bad s ⟨0x0804, n⟩
            | .inl bs =>
              match residentCopy m ((List.range m.blocks).flatMap fun i => bs.find [] i) s.coreCount with
              | .inr f => bad s f
              | .inl copy =>
                match lowestFit s.adapterUsed 0 (s.regionBytes region) m.resSize with
                | none => .done s { result := .noSpace, entry := casNone }
                | some base => .goOn (s.installCopy ch slot (fld b 2 2) region m digest base copy)

/-- A load of adapter slot `slot`, version `ver`, that awaits its read-back. -/
def State.adapterLoad (s : State) (slot ver : Nat) : Option CasLoad := s.cas.loads.find? fun l => l.adapter = some (slot, ver)

/-- An adapter version's load fails: it becomes FREE (R295). -/
def State.failAdapter (s : State) (l : CasLoad) (slot ver : Nat) (r : Reply) : State :=
  let a := s.adapter slot
  let s := (s.dropLoad l).setAdapter slot { a with versions := a.versions.filter fun v => v.num ≠ ver }
  match l.chan with | some ch => s.respond ch r | none => s

/-- ADAPTER_LOAD_DONE: the read-back of version `ver` of slot `slot` completes, `ok` when it found no uncorrectable error. -/
def execAdapterLoadDone (slot ver : Nat) (ok : Bool) (s : State) : Out State :=
  match s.adapterLoad slot ver, s.serveCfg.adapters with
  | some l, some region =>
    if !ok then .next ((s.casFault 0 0x0807 casNone).failAdapter l slot ver { result := .state, fault := 0x0807, entry := casNone })
    else
      let a := s.adapter slot
      match a.versions.find? fun v => v.num = ver with
      | none => .next s
      | some x =>
        let d := residentDigest (s.farGet region x.base x.size)
        let s := s.background (.adapter slot ver) (s.farRegion region) x.base x.size false
        let s := (s.dropLoad l).setAdapter slot { a with versions := a.versions.map fun v =>
          if v.num = ver then { v with resDigest := d, loaded := true } else v }
        let s := match l.chan with | some ch => s.respond ch (.ok (leBytes 2 ver ++ zeros 6 ++ d)) | none => s
        .next (s.change (.install slot ver))
  | _, _ => .next s

/-! ### Audit replay (R330, R331) -/

def recMagic : Bytes := [0x4E#8, 0x44#8, 0x44#8, 0x52#8]
def manMagic : Bytes := [0x4E#8, 0x44#8, 0x53#8, 0x4D#8]

/-- Check 1 of R330. -/
def auditForm (r m : Bytes) : Bool :=
  let n := fld r 62 1
  sub r 0 4 = recMagic && fld r 4 2 = 1 && fld r 8 2 < 8 && zeroAt r 63 1 && zeroAt r 94 2 && n ≤ 4 && zeroAt r (76 + 4 * n) (16 - 4 * n) &&
    sub m 0 4 = manMagic && fld m 4 2 = 1 && m.length = fld m 6 2 && m.length = 128 + 8 * fld m 20 2 && zeroAt m 22 42 &&
    zeroAt m 65 3 && zeroAt m 81 47

/-- The MODEL region whose slot check 6 takes. -/
def State.auditModel (s : State) (r m : Bytes) : Option Nat :=
  match s.image with
  | none => none
  | some i =>
    (i.decls.find? fun d => d.content = 2 && (s.rmSlot d.slot).digest = sub r 224 48 &&
      (fld m 10 2 ≠ fld s.recs.manifest 10 2 || (s.rmSlot d.slot).resDigest = sub r 272 48)).map fun d => d.region

/-- Check 7. -/
def State.auditAdapter (s : State) (r : Bytes) (ad : Nat) : Bool :=
  if bit (fld r 8 2) 2 then
    ad < 16384 && ((s.adapter ad).versions.any fun v => v.state = .current && v.digest = sub r 320 48 && v.rank = fld r 92 2)
  else ad = 0xFFFF

/-- The parameters of an audit request. -/
def auditPar (r : Bytes) (model ad tag ring prompt : Nat) : ReqPar :=
  { stream := false, ring := ring, modelIx := model, customer := fld r 10 2, adapter := ad, tag := tag, seed := fld r 32 8
    promptAddr := prompt, promptLen := fld r 40 4, maxNew := fld r 44 4, outAddr := 0, temp := fld r 52 4, topP := fld r 56 4
    topK := fld r 60 2, stops := (List.range (fld r 62 1)).map fun i => fld r (76 + 4 * i) 4, rep := fld r 64 4, freq := fld r 68 4
    pres := fld r 72 4 }

/-- An accepted audit request enters as a SUBMIT that no customer is charged for (R331). -/
def State.enterAudit (s : State) (p : ReqPar) (a : Audit) (ids : List Nat) : State :=
  let v := s.serveCfg.vocab
  let fail := fun (st : Nat) => s.addWork (.entry p.ring (cplEntry p.tag st 0 p.customer 0 (2 ^ 32 - 1) ones64 ones64 ones64 (sha384 [])))
  if !p.ok v then fail stBadDesc
  else if s.maxPos < p.promptLen + p.maxNew - 1 then fail stTooLong
  else
    let id := lowestFree s.srv.reqs 0
    if 65536 ≤ id then fail stTableFull
    else
      match s.tokFit (p.extent v) with
      | none => fail stNoSpace
      | some o =>
        let q := newReq p s.srv.arrival o (p.extent v) (some a)
        let s := s.withSrv { s.srv with arrival := s.srv.arrival + 1 }
        if ids.any fun t => v ≤ t then s.endReq id q stBadDesc
        else
          let s := s.promptOk id q ids
          if a.cancelled && a.outCount = 0 then
            match s.req id with | some q => s.endReq id q stDone | none => s
          else s

def auditReplay (v : HostView) : CmdSpec where
  op := 0x010B
  len := fun n => 672 ≤ n && n ≤ 1184
  fields := fun b => fld b 538 1 < 64 && zeroAt b 539 5 && (fld b 536 2 < 16384 || fld b 536 2 = 0xFFFF)
  allowed := fun s => s.job.state = .running && s.srv.cfg.isSome
  wakes := true
  act := fun s _ b =>
    let r := b.take 512; let m := b.drop 544; let j := s.recs.manifest
    let n := fld r 40 4; let ad := fld b 536 2
    if !auditForm r m then .done s (.of .range)
    else if sha384 m ≠ sub r 176 48 then .done s (.of .digest)
    else if sub r 128 48 ≠ (match s.image with | some i => i.digest | none => []) then .done s (.of .digest)
    else if sub m 8 2 ≠ sub j 8 2 || sub m 16 6 ≠ sub j 16 6 || m.drop 128 ≠ j.drop 128 then .done s (.of .range)
    else if !bit (fld j 9 1) 0 && sub m 10 6 ≠ sub j 10 6 then .done s (.of .range)
    else
      match s.auditModel r m with
      | none => .done s (.of .digest)
      | some model =>
        if !s.auditAdapter r ad then .done s (.of .digest)
        else
          match v.read (fld b 512 8) (4 * n) with
          | none => .done s.dmaFailed (.bad .state 0x0C05)
          | some pb =>
            if sha384 pb ≠ sub r 416 48 then .done s (.of .digest)
            else if s.srv.reqs.any fun e => e.2.audit.isSome then .done s (.of .busy)
            else
              let a : Audit := { digest := sha384 r, seq := fld r 16 8, outCount := fld r 48 4, outDigest := sub r 464 48
                                 stopped := bit (fld r 8 2) 1, cancelled := fld r 6 2 = 1, verdictAddr := fld b 520 8 }
              let p := auditPar r model ad (fld b 528 8) (fld b 538 1) (fld b 512 8)
              .done ((s.enterAudit p a ((List.range n).map fun i => fld pb (4 * i) 4)).runBoundary) .ok

def execJobServe (ch : Nat) (s : State) : Out State := jobServe.row ch s
def execCustomerSet (ch : Nat) (s : State) : Out State := customerSet.row ch s
def execCustomerRead (ch : Nat) (s : State) : Out State := customerRead.row ch s
def execAdapterRetire (ch : Nat) (s : State) : Out State := adapterRetire.row ch s
/-- ADAPTER_INSTALL; `v` is what DMA reads find, `v2` what a second reading of a block finds. -/
def execAdapterInstall (ch : Nat) (v v2 : HostView) (s : State) : Out State := (adapterInstall v v2).row ch s
/-- AUDIT_REPLAY; `v` is what DMA reads find. -/
def execAuditReplay (ch : Nat) (v : HostView) (s : State) : Out State := (auditReplay v).row ch s

end Sys2Proof.Machine
end

