-- ==== Sys2Proof/Machine/ChanSlot.lean ====
section
/-! DEFINITION. The slots of a far-memory channel: program and background granules, check granules, errors, refresh windows and patrol
scrub (R197, R199 to R206, R216). -/
namespace Sys2Proof.Machine

/-- The class of a slot of the frame (R199). -/
inductive SlotClass where
  | window | trickle | program
deriving DecidableEq, Repr

def slotClass (enlarged : Bool) (i : Nat) : SlotClass :=
  if 9 ≤ i % 336 && i % 336 ≤ 16 && i / 336 < 12 then .window
  else if i % (if enlarged then 16 else 64) = 8 then .trickle
  else .program

/-! ### What a block holds (R203) -/

/-- The 5-byte physical address that enters the codes: controller, channel, block (log entry 171: the spec gives no byte order). -/
def blockAddr (c k blk : Nat) : Bytes := [BitVec.ofNat 8 c, BitVec.ofNat 8 k] ++ leBytes 3 blk

/-- Data granule `i` of a block. -/
def State.dataGranule (s : State) (c k blk i : Nat) : Bytes :=
  s.far.mem.read { ctrl := c, chan := k, blk := blk, slot := i, b := 0 : FarLoc }.key 64

/-- The check granule of a block, once it is written back: four check symbols per data granule, then the CRC-32C. The spec does not give
the code's polynomials; the symbols are free (log entry 171). -/
def State.checkGranule (s : State) (c k blk : Nat) : Bytes :=
  let a := blockAddr c k blk
  let symbols := (List.range 15).flatMap fun i => (Config.farCheck (s.dataGranule c k blk i ++ a)).toList
  symbols ++ leBytes 4 (crc32c (symbols ++ a)).toNat

/-- The 16 granules of a block as its channel stores them. -/
def State.farBlock (s : State) (c k blk : Nat) : Bytes :=
  (List.range 15).flatMap (s.dataGranule c k blk) ++ s.checkGranule c k blk

/-! ### Check granules at the controller (R206) -/

/-- Block `b`'s check granule becomes the most recent one held, changed by traffic of the class `bg` if `changed`; a changed one that is
displaced is owed a write. -/
def FarChan.hold (x : FarChan) (b : Nat) (changed bg : Bool) : FarChan :=
  let was := (x.held.find? fun h => h.blk = b).getD { blk := b, changed := false, bg := bg }
  let me : Check := { blk := b, changed := was.changed || changed, bg := if changed then bg else was.bg }
  let l := me :: x.held.filter fun h => h.blk ≠ b
  { x with held := l.take 16, owed := x.owed ++ (l.drop 16).filter fun h => h.changed }

/-- Whether a granule of block `b` can move in this slot, or a check read goes first. -/
def FarChan.ready (x : FarChan) (b : Nat) (whole : Bool) : Bool := whole || x.held.any fun h => h.blk = b

/-- What a slot does: a displaced check granule goes back, a granule moves, or its check granule is read first. -/
inductive ChanAct (α : Type) where
  | back (h : Check)
  | data (g : α)
  | check (g : α)

/-- What the channel could do for program requests, with the direction each takes. -/
def FarChan.progActs (x : FarChan) : List (ChanAct Gran × Bool) :=
  ((x.owed.filter fun h => !h.bg).map fun h => (.back h, true)) ++
    x.prog.map fun g => if x.ready g.blk g.whole then (.data g, g.write) else (.check g, false)

/-- The same for the background request `b` on channel `k`. -/
def FarChan.bgActs (x : FarChan) (k : Nat) (b : Option BgReq) : List (ChanAct BgGran × Bool) :=
  ((x.owed.filter fun h => h.bg).map fun h => (.back h, true)) ++
    match b with
    | some b => (b.grans.filter fun g => g.chan = k).map fun g => if x.ready g.blk g.whole then (.data g, b.write) else (.check g, false)
    | none => []

/-- The access a channel makes next, of those that may use the slot, and the channel after the choice (R216): it switches direction when
an access that wants the other one is all that may go, or 128 slots have passed; while accesses in both directions are pending, not
before 128 slots have. `pend` tells whether one in the present direction is pending. A switch costs 4 slots. -/
def FarChan.choose {α : Type} (x : FarChan) (pend : Bool) (l : List (α × Bool)) : FarChan × Option α :=
  let late := 128 ≤ x.sinceSwitch
  match l.find? fun e => e.2 = x.writing, l.any fun e => e.2 ≠ x.writing with
  | some a, other => if other && late then ({ x with writing := !x.writing, sinceSwitch := 0, switchLeft := 3 }, none) else (x, some a.1)
  | none, true => if late || !pend then ({ x with writing := !x.writing, sinceSwitch := 0, switchLeft := 3 }, none) else (x, none)
  | none, false => (x, none)

/-! ### Counts and errors (R204, R217) -/

def FarCtrl.count (x : FarCtrl) (prog check bg idle : Nat) : FarCtrl :=
  { x with live := { prog := satAdd 64 x.live.prog prog, check := satAdd 64 x.live.check check
                     bg := satAdd 64 x.live.bg bg, idle := satAdd 64 x.live.idle idle } }

/-- Counts what R204 found in a granule that was read (ERR). -/
def FarCtrl.err (x : FarCtrl) (e : GranErr) : FarCtrl :=
  { x with retry := satAdd 8 x.retry e.retried.toNat, corr := satAdd 16 x.corr e.corrected.toNat }

/-- The uncorrectable error of a background request reaches the engine that made it: the serving engine stops the job (R310), a load
fails (R270), an adapter version's load fails (R295). The window and the save engine have no answer of their own in the spec (log entry
172). -/
def State.bgFailed (s : State) (src : BgSrc) : State :=
  match src with
  | .serve => s.jobFatal 0x0702
  | .copy slot =>
    (match s.cas.loads.find? fun l => l.slot = slot && l.adapter.isNone && l.phase ≠ .failed with
     | some l => s.failLoad l .state 0x0807 casNone
     | none => s)
  | .adapter slot ver =>
    (match s.adapterLoad slot ver with
     | some l => (s.casFault 0 0x0807 casNone).failAdapter l slot ver { result := .state, fault := 0x0807, entry := casNone }
     | none => s)
  | .window | .save => s

/-! ### The slots (R200 to R202, R205) -/

/-- The background request that controller `c` serves. -/
def FarCtrl.serving (x : FarCtrl) : Option (Nat × BgReq) := (pickBg x.bg).bind fun i => x.bg[i]?.map fun b => (i, b)

/-- Whether an access in the channel's present direction is pending on channel `k` of controller `c`, program or background. -/
def State.pendingDir (s : State) (c k : Nat) : Bool :=
  let x := s.farChan c k
  (x.progActs.any fun e => e.2 = x.writing) || ((x.bgActs k ((s.ctrl c).serving.map fun b => b.2)).any fun e => e.2 = x.writing)

/-- A slot for background traffic: an uncorrectable read ends the request, and its engine learns of it. -/
def State.bgSlot (s : State) (c k : Nat) (e : GranErr) : State :=
  let x := s.ctrl c
  let r := (s.farChan c k).choose (s.pendingDir c k) ((s.farChan c k).bgActs k (x.serving.map fun b => b.2))
  match r.2, x.serving with
  | none, _ => s.setFarChan c k r.1
  | some (.back h), _ => (s.setFarChan c k { r.1 with owed := r.1.owed.erase h }).setCtrl c (x.count 0 0 1 0)
  | some _, none => s
  | some (.data g), some (i, b) =>
    let bad := e.bad && !b.write
    let b' := { b with begun := true, grans := if bad then [] else b.grans.erase g }
    let bg := if b'.grans = [] then x.bg.eraseIdx i else x.bg.set i b'
    let s := (s.setFarChan c k (r.1.hold g.blk b.write true)).setCtrl c
      ((if b.write then { x with bg := bg } else { x with bg := bg }.err e).count 0 0 1 0)
    if bad then s.bgFailed b.src else s
  | some (.check g), some (i, b) =>
    let bg := if e.bad then x.bg.eraseIdx i else x.bg.set i { b with begun := true }
    let s := (s.setFarChan c k (if e.bad then r.1 else r.1.hold g.blk false true)).setCtrl c (({ x with bg := bg }.err e).count 0 0 1 0)
    if e.bad then s.bgFailed b.src else s

/-- One granule less of a request. -/
def State.granDone (s : State) (g : Gran) : State :=
  let q := s.queue g.core g.handle
  s.setQueue g.core g.handle { q with
    reqs := q.reqs.map fun r => if r.seq = g.seq then { r with left := r.left - 1 } else r }

/-- A slot for program traffic; one that no program request needs stays idle. -/
def State.progSlot (s : State) (c k : Nat) (e : GranErr) : State :=
  let x := s.ctrl c
  let l := (s.farChan c k).progActs
  let r := (s.farChan c k).choose (s.pendingDir c k) l
  match r.2 with
  | none => (s.setFarChan c k r.1).setCtrl c (if l.isEmpty then x.count 0 0 0 1 else x)
  | some (.back h) => (s.setFarChan c k { r.1 with owed := r.1.owed.erase h }).setCtrl c (x.count 0 1 0 0)
  | some (.data g) =>
    let s := ((s.setFarChan c k ({ r.1 with prog := r.1.prog.erase g }.hold g.blk g.write false)).setCtrl c
      ((if g.write then x else x.err e).count 1 0 0 0)).granDone g
    if e.bad && !g.write then s.jobFatal 0x0301 else s
  | some (.check g) =>
    let s := (s.setFarChan c k (r.1.hold g.blk false false)).setCtrl c ((x.err e).count 0 1 0 0)
    if e.bad then s.jobFatal 0x0301 else s

def WinCmd.code : WinCmd → Nat
  | .refresh => 0 | .rfm => 1 | .zqLatch => 2 | .oscillator => 3

/-- A window command is issued (R197). -/
def FarChan.issue (x : FarChan) (w : WinCmd) (gsc period : Nat) : FarChan :=
  { x with cmds := x.cmds.put w.code (x.cmds.find 0 w.code + 1), oscDue := if w = .oscillator then gsc + period else x.oscDue }

/-- A spare window slot carries patrol scrub (R205): a block that needed correction is written back, else the next granule is read, check
granules included. -/
def State.scrubSlot (s : State) (c k : Nat) (e : GranErr) : State :=
  let x := s.farChan c k
  match x.fixes with
  | _ :: rest => s.setFarChan c k { x with fixes := rest }
  | [] =>
    (s.setFarChan c k { x with scrub := (x.scrub + 1) % (16 * s.chanBlocks), fixes := if e.corrected then [x.scrub / 16] else [] }).setCtrl c
      ((s.ctrl c).err e)

/-- A refresh-window slot (R200): the command that the devices demand, or the interval oscillator when its time has come, or patrol
scrub. -/
def State.windowSlot (s : State) (c k : Nat) (demand : Option WinCmd) (e : GranErr) : State :=
  let x := s.farChan c k
  match demand with
  | some w => s.setFarChan c k (x.issue w s.gsc s.farSettings.oscillatorPeriodNs)
  | none =>
    if x.oscDue ≤ s.gsc then s.setFarChan c k (x.issue .oscillator s.gsc s.farSettings.oscillatorPeriodNs) else s.scrubSlot c k e

/-- CHANNEL_SLOT: one slot of channel `k` of controller `c`; nothing moves before training or in self-refresh, nor in the slots a switch of
direction costs. `e` holds what the devices demand in a window slot
and what a read finds. -/
def execChannelSlot (c k : Nat) (e : SlotEvent) (s : State) : Out State :=
  if 36 ≤ c || 16 ≤ k then .fault .noSuchChannel
  else if s.far.rate = 3 || s.far.selfRefresh then .next s
  else
    let x := s.farChan c k
    let cls := slotClass s.far.bgEnlarged x.slot
    let s := s.setFarChan c k { x with
      slot := (x.slot + 1) % 4096, elapsed := satAdd 64 x.elapsed 1, sinceSwitch := min 128 (x.sinceSwitch + 1)
      switchLeft := x.switchLeft - 1 }
    let busy := s.job.state = .armed || s.job.state = .running
    .next
      (match cls with
       | .window => s.windowSlot c k e.demand e.err
       | .trickle => if 0 < x.switchLeft then s else s.bgSlot c k e.err
       | .program =>
         if 0 < x.switchLeft then s
         else if !busy && x.progActs.isEmpty then s.bgSlot c k e.err
         else s.progSlot c k e.err)

end Sys2Proof.Machine
end

