-- ==== Sys2Proof/Machine/Gcm.lean ====
section
/-! DEFINITION. AES-256-GCM, under which the identity key and the owner block are sealed (R457, R465). -/
namespace Sys2Proof.Machine

/-! ### AES-256 (FIPS 197) -/

/-- Twice a byte in the field of AES. -/
def aesDouble (x : Byte) : Byte := (x <<< 1) ^^^ (if x.getLsbD 7 then 0x1B#8 else 0#8)

/-- The product of two bytes in the field of AES, over the low `n` bits of the second. -/
def aesMul : Nat → Byte → Byte → Byte
  | 0, _, _ => 0#8
  | n + 1, x, y => (if y.getLsbD 0 then x else 0#8) ^^^ aesMul n (aesDouble x) (y >>> 1)

/-- `x` to the power 2^(n+1) − 2; with n = 7 the inverse, and 0 for 0. -/
def aesInv : Nat → Byte → Byte
  | 0, _ => 1#8
  | n + 1, x => let y := aesMul 8 x x; aesMul 8 y (aesInv n y)

/-- SubBytes of one byte. -/
def aesSub (x : Byte) : Byte :=
  let y := aesInv 7 x
  y ^^^ y.rotateLeft 1 ^^^ y.rotateLeft 2 ^^^ y.rotateLeft 3 ^^^ y.rotateLeft 4 ^^^ 0x63#8

/-- The bytewise exclusive or of two strings. -/
def xorBytes (a b : Bytes) : Bytes := List.zipWith (fun x y => x ^^^ y) a b

/-- The key schedule of AES-256: word `i` of 4 bytes from those before it, newest first. -/
def aesExpand : Nat → Nat → Byte → List Bytes → List Bytes
  | 0, _, _, w => w
  | n + 1, i, rc, w =>
    let t := w.headD []
    let t := if i % 8 = 0 then xorBytes ((t.drop 1 ++ t.take 1).map aesSub) [rc, 0#8, 0#8, 0#8] else if i % 8 = 4 then t.map aesSub else t
    aesExpand n (i + 1) (if i % 8 = 0 then aesDouble rc else rc) (xorBytes (w.getD 7 []) t :: w)

/-- The 15 round keys of a 32-byte key. -/
def aesKeys (key : Bytes) : List Bytes :=
  let w := (aesExpand 52 8 1#8 ((List.range 8).map fun i => sub key (4 * i) 4).reverse).reverse
  (List.range 15).map fun r => ((w.drop (4 * r)).take 4).flatten

/-- ShiftRows. -/
def aesShift (b : Bytes) : Bytes := (List.range 16).map fun i => b.getD ((i + 4 * (i % 4)) % 16) 0#8

/-- MixColumns. -/
def aesMix (b : Bytes) : Bytes :=
  (List.range 16).map fun i =>
    let c := i / 4 * 4
    let g := fun (k : Nat) => b.getD (c + (i + k) % 4) 0#8
    aesDouble (g 0) ^^^ aesDouble (g 1) ^^^ g 1 ^^^ g 2 ^^^ g 3

/-- One block under expanded keys. -/
def aesBlock (ks : List Bytes) (b : Bytes) : Bytes :=
  let b := (List.range 13).foldl (fun b r => xorBytes (aesMix (aesShift (b.map aesSub))) (ks.getD (r + 1) [])) (xorBytes b (ks.headD []))
  xorBytes (aesShift (b.map aesSub)) (ks.getD 14 [])

/-! ### GCM (SP 800-38D), a 96-bit IV, no additional data -/

/-- The product in the field of GHASH, over the low `n` bits of the block `x` from its first (most significant) one on. -/
def ghashMul : Nat → BitVec 128 → BitVec 128 → BitVec 128
  | 0, _, _ => 0#128
  | n + 1, x, y =>
    (if x.getLsbD n then y else 0#128) ^^^
      ghashMul n x ((y >>> 1) ^^^ (if y.getLsbD 0 then 0xE1000000000000000000000000000000#128 else 0#128))

def blockVec (b : Bytes) : BitVec 128 := BitVec.ofNat 128 (beNat (padTo 16 b))

/-- GHASH of a ciphertext and its length. -/
def ghash (h : BitVec 128) (c : Bytes) : BitVec 128 :=
  let y := (List.range ((c.length + 15) / 16)).foldl (fun y i => ghashMul 128 (y ^^^ blockVec (sub c (16 * i) 16)) h) 0#128
  ghashMul 128 (y ^^^ BitVec.ofNat 128 (8 * c.length)) h

/-- The key stream for `n` bytes. -/
def gcmStream (ks : List Bytes) (iv : Bytes) (n : Nat) : Bytes :=
  ((List.range ((n + 15) / 16)).flatMap fun i => aesBlock ks (iv ++ beBytes 4 (i + 2))).take n

/-- The tag of a ciphertext. -/
def gcmTag (ks : List Bytes) (iv c : Bytes) : Bytes :=
  xorBytes (aesBlock ks (iv ++ beBytes 4 1)) (beBytes 16 (ghash (blockVec (aesBlock ks (zeros 16))) c).toNat)

/-- What is sealed: the IV, the ciphertext, the tag. -/
def gcmSeal (key iv b : Bytes) : Bytes :=
  let ks := aesKeys key
  let c := xorBytes b (gcmStream ks iv b.length)
  iv ++ c ++ gcmTag ks iv c

/-- Opens what is sealed; none where the tag does not verify. -/
def gcmOpen (key b : Bytes) : Option Bytes :=
  let ks := aesKeys key
  let iv := b.take 12
  let c := (b.drop 12).take (b.length - 28)
  if b.length < 28 || b.drop (b.length - 16) ≠ gcmTag ks iv c then none else some (xorBytes c (gcmStream ks iv c.length))

end Sys2Proof.Machine
end

