-- ==== Sys2Proof/Machine/Cert.lean ====
section
/-! DEFINITION. The alias certificate: DER, the deterministic signature of RFC 6979, the fields of R458 to R460. -/
namespace Sys2Proof.Machine

/-- ASCII bytes. -/
def ascii (l : List Nat) : Bytes := l.map (BitVec.ofNat 8)

/-! ### Deterministic ECDSA (RFC 6979) with HMAC-SHA-384 (R458) -/

/-- The first candidate from 1 to the group order − 1, over at most `n` of them. -/
def detPick : Nat → Bytes → Bytes → Nat
  | 0, _, _ => 1
  | n + 1, k, v =>
    let v := hmac384 k v
    if 1 ≤ beNat v && beNat v < p384N then beNat v
    else
      let k := hmac384 k (v ++ [0#8])
      detPick n k (hmac384 k v)

/-- The per-signature number for private number `d` and the hash `h`. Candidates beyond the eighth, which no hash is known to reach, are
left out. -/
def detNonce (d : Nat) (h : Bytes) : Nat :=
  let x := beBytes 48 d ++ beBytes 48 (beNat h % p384N)
  let v := List.replicate 48 1#8
  let k := hmac384 (zeros 48) (v ++ [0#8] ++ x)
  let v := hmac384 k v
  let k := hmac384 k (v ++ [1#8] ++ x)
  detPick 8 k (hmac384 k v)

/-- The deterministic signature of a 48-byte hash. -/
def detSign (d : Nat) (h : Bytes) : Bytes × Bytes := ecdsaSign d (detNonce d h - 1) h

/-! ### DER -/

/-- The bytes of a number, most significant first, without leading zeros, at most `n`. -/
def minBytes (n x : Nat) : Bytes := (beBytes n x).dropWhile fun b => b = 0#8

/-- One element: tag, length, content. -/
def der (tag : Nat) (b : Bytes) : Bytes :=
  let l := if b.length < 128 then leBytes 1 b.length else let m := minBytes 4 b.length; leBytes 1 (128 + m.length) ++ m
  leBytes 1 tag ++ l ++ b

def derSeq (l : List Bytes) : Bytes := der 0x30 l.flatten

/-- A non-negative INTEGER given most significant byte first. -/
def derInt (tag : Nat) (b : Bytes) : Bytes :=
  let m := b.dropWhile fun x => x = 0#8
  der tag (if m = [] then [0#8] else if (m.headD 0#8).getLsbD 7 then 0#8 :: m else m)

/-- A BIT STRING of whole bytes. -/
def derBits (b : Bytes) : Bytes := der 0x03 (0#8 :: b)

/-- The object identifiers: ecdsa-with-SHA384, id-ecPublicKey, secp384r1, SHA-384, keyUsage, basicConstraints, the TCG DICE TcbInfo. -/
def oidSign : Bytes := der 0x06 (ascii [0x2A, 0x86, 0x48, 0xCE, 0x3D, 0x04, 0x03, 0x03])
def oidEc : Bytes := der 0x06 (ascii [0x2A, 0x86, 0x48, 0xCE, 0x3D, 0x02, 0x01])
def oidCurve : Bytes := der 0x06 (ascii [0x2B, 0x81, 0x04, 0x00, 0x22])
def oidHash : Bytes := der 0x06 (ascii [0x60, 0x86, 0x48, 0x01, 0x65, 0x03, 0x04, 0x02, 0x02])
def oidKeyUsage : Bytes := der 0x06 (ascii [0x55, 0x1D, 0x0F])
def oidBasic : Bytes := der 0x06 (ascii [0x55, 0x1D, 0x13])
def oidTcbInfo : Bytes := der 0x06 (ascii [0x67, 0x81, 0x05, 0x05, 0x04, 0x01])

/-- The length of the DER element at the start of a string. -/
def derLen (b : Bytes) : Nat :=
  let l := (b.getD 1 0#8).toNat
  if l < 128 then 2 + l else 2 + (l - 128) + beNat (sub b 2 (l - 128))

/-- The content of the element at the start of a string. -/
def derBody (b : Bytes) : Bytes :=
  let l := (b.getD 1 0#8).toNat
  (b.take (derLen b)).drop (if l < 128 then 2 else 2 + (l - 128))

/-- A string without its first `n` elements. -/
def derSkip : Nat → Bytes → Bytes
  | 0, b => b
  | n + 1, b => derSkip n (b.drop (derLen b))

/-- The subject of a certificate: the sixth element of its signed part. -/
def certSubject (c : Bytes) : Bytes := let t := derSkip 5 (derBody (derBody c)); t.take (derLen t)

/-! ### The alias certificate (R460) -/

/-- What a certificate says of the firmware it speaks for: RELEASE, the image SVN, M. -/
structure FwInfo where
  release : Nat
  svn : Nat
  m : Bytes
deriving DecidableEq, Repr

/-- A number's decimal digits in ASCII, `n` at most. -/
def decimal : Nat → Nat → Bytes
  | 0, _ => []
  | n + 1, x => (if x < 10 then [] else decimal n (x / 10)) ++ leBytes 1 (0x30 + x % 10)

/-- One extension; `critical` marks it so. -/
def certExt (oid : Bytes) (critical : Bool) (b : Bytes) : Bytes :=
  derSeq [oid, if critical then ascii [0x01, 0x01, 0xFF] else [], der 0x04 b]

/-- TcbInfo: vendor "Eloarvato", model "ND9", version, svn, one SHA-384 fwid. -/
def tcbInfo (f : FwInfo) : Bytes :=
  derSeq [der 0x80 (ascii [0x45, 0x6C, 0x6F, 0x61, 0x72, 0x76, 0x61, 0x74, 0x6F]), der 0x81 (ascii [0x4E, 0x44, 0x39]),
    der 0x82 (decimal 5 (f.release / 2 ^ 16) ++ ascii [0x2E] ++ decimal 5 (f.release % 2 ^ 16)), derInt 0x83 (beBytes 1 f.svn),
    der 0xA6 (derSeq [oidHash, der 0x04 f.m])]

/-- "20000101000000Z" and "99991231235959Z". -/
def certValidity : Bytes :=
  derSeq [der 0x18 (ascii [0x32, 0x30, 0x30, 0x30, 0x30, 0x31, 0x30, 0x31, 0x30, 0x30, 0x30, 0x30, 0x30, 0x30, 0x5A]),
    der 0x18 (ascii [0x39, 0x39, 0x39, 0x39, 0x31, 0x32, 0x33, 0x31, 0x32, 0x33, 0x35, 0x39, 0x35, 0x39, 0x5A])]

/-- The serial number: bytes 0 to 15 of the SHA-384 of the public key, bit 7 of byte 0 cleared. -/
def certSerial (pub : Bytes) : Bytes := modAt ((sha384 pub).take 16) 0 fun b => b &&& 0x7F#8

/-- The signed part. The subject's name, which no rule gives, is free (log entry 31); key usage and basic constraints are critical, no
further extension is there (DESIGN CHOICE, log entry 188). -/
def aliasTbs (issuer pub : Bytes) (f : FwInfo) : Bytes :=
  derSeq [der 0xA0 (ascii [0x02, 0x01, 0x02]), derInt 0x02 (certSerial pub), derSeq [oidSign], issuer, certValidity, Config.aliasSubject pub,
    derSeq [derSeq [oidEc, oidCurve], derBits pub],
    der 0xA3 (derSeq [certExt oidKeyUsage true (ascii [0x03, 0x02, 0x07, 0x80]), certExt oidBasic true (derSeq []),
      certExt oidTcbInfo false (tcbInfo f)])]

/-- The alias certificate for the alias key `pub`, issued by the identity key `ik` whose certificate is `idCert`. -/
def aliasCert (ik : Nat) (idCert pub : Bytes) (f : FwInfo) : Bytes :=
  let t := aliasTbs (certSubject idCert) pub f
  let g := detSign ik (sha384 t)
  derSeq [t, derSeq [oidSign], derBits (derSeq [derInt 0x02 g.1, derInt 0x02 g.2])]

end Sys2Proof.Machine
end

