-- ==== Sys2Proof/Machine/Image.lean ====
section
/-! DEFINITION. Program images: layout, the loader's checks, expressions, the resolved image (R219 to R238, R210, R215, R380, R388). -/
namespace Sys2Proof.Machine

/-- A failed check of R238: its order, the result, the section and entry it names. -/
structure ImgFail where
  order : Nat
  result : Result
  sect : Nat
  entry : Nat
deriving DecidableEq, Repr

/-- The fault code of a failed check. -/
def ImgFail.code (f : ImgFail) : Nat := 0x0C40 + f.order

/-- A section-table entry with its index and its bytes (R221). -/
structure Sect where
  ix : Nat
  type : Nat
  arg : Nat
  off : Nat
  len : Nat
  count : Nat
  data : Bytes
deriving DecidableEq, Repr

/-- The section table. -/
def sections (b : Bytes) : List Sect :=
  (List.range (fld b 0x20 2)).map fun i =>
    let e := sub b (fld b 0x24 4 + 16 * i) 16
    let off := fld e 4 4; let len := fld e 8 4
    { ix := i, type := fld e 0 2, arg := fld e 2 2, off := off, len := len, count := fld e 12 4, data := sub b off len }

/-- The entry size of a type; 0 for ROLE and ROLEMAP. -/
def entrySize (t : Nat) : Nat :=
  match t with
  | 3 => 64 | 4 => 32 | 5 => 16 | 6 => 16 | 7 => 32 | 8 => 32 | 9 => 32 | 10 => 16 | 11 => 32 | 12 => 32 | _ => 0

/-- The types that come per grade. -/
def perGrade (t : Nat) : Bool := t = 2 || t = 5 || t = 6 || t = 7 || t = 10 || t = 12

/-- Entry `i` of a section. -/
def Sect.entry (x : Sect) (i : Nat) : Bytes := sub x.data (entrySize x.type * i) (entrySize x.type)
def Sect.entries (x : Sect) : List Bytes := (List.range x.count).map x.entry

/-- The section of a type that the loader uses on a grade, and its entries; 0xFF and none without one. -/
def findSect (l : List Sect) (t grade : Nat) : Option Sect := l.find? fun x => x.type = t && (!perGrade t || x.arg = grade)
def sectIx (l : List Sect) (t grade : Nat) : Nat := match findSect l t grade with | some x => x.ix | none => 0xFF
def sectEntries (l : List Sect) (t grade : Nat) : List Bytes := match findSect l t grade with | some x => x.entries | none => []

/-- The first entry of a list that fails. -/
def firstFail {α : Type} (l : List α) (ok : α → Bool) (order sect : Nat) : Option ImgFail :=
  (firstBad l ok).map fun i => ⟨order, .range, sect, i⟩

/-- A failure unless the condition holds. -/
def need (ok : Bool) (order : Nat) (r : Result := .range) (sect : Nat := 0xFF) (entry : Nat := 0) : Option ImgFail :=
  if ok then none else some ⟨order, r, sect, entry⟩

/-! ### Checks 1 to 4 -/

/-- Check 1: IMG_HEADER. -/
def check1 (b : Bytes) : Option ImgFail :=
  need (sub b 0 4 = [0x4E#8, 0x44#8, 0x49#8, 0x4D#8] && fld b 4 2 = 1 && fld b 6 2 = 128 && fld b 8 8 = b.length && 512 ≤ b.length &&
    b.length ≤ 0xFFFFFFFF) 1

/-- The trailer (R222). -/
def trailer (b : Bytes) : Bytes := sub b (b.length - 160) 160
/-- The image's DIGEST. -/
def imgDigest (b : Bytes) : Bytes := sub (trailer b) 0 48
def imgSigned (b : Bytes) : Bool := bit (fld b 0x13 1) 1

/-- Check 2: IMG_DIGEST. -/
def check2 (b : Bytes) : Option ImgFail := need (imgDigest b = sha384 (b.take (b.length - 160))) 2 .digest

/-- Check 3: IMG_SIGNATURE (R223, R468). -/
def check3 (b : Bytes) (keys : Map Bytes) (demanded : Bool) : Option ImgFail :=
  let t := trailer b
  need (if imgSigned b then keys.has (fld t 48 4) && ecdsaVerify (keys.find [] (fld t 48 4)) (imgDigest b) (sub t 64 48) (sub t 112 48)
    else !demanded) 3 .auth

/-- The reserved fields of an entry, per type. -/
def entryReserved (t : Nat) (e : Bytes) : Bool :=
  match t with
  | 3 => zeroAt e 46 2
  | 4 => zeroAt e 25 7 && fld e 24 1 ≤ 1
  | 5 => fld e 2 2 < 16 && zeroAt e 10 6 && (bit (fld e 2 2) 0 || fld e 5 1 = 0)
  | 6 => fld e 3 1 < 8 && zeroAt e 14 2
  | 7 => zeroAt e 24 8
  | 8 => zeroAt e 2 6
  | 9 => fld e 3 1 < 32 && zeroAt e 4 4 && zeroAt e 17 15
  | 10 => fld e 1 1 ≤ 1 && zeroAt e 12 4
  | 11 => zeroAt e 0 1 && zeroAt e 11 1 && zeroAt e 20 12
  | 12 => fld e 3 1 ≤ 1 && zeroAt e 4 4
  | _ => true

/-- The relocation entries of a ROLE section. -/
def roleRelocs (d : Bytes) : List Bytes := (List.range (fld d 4 4)).map fun i => sub d (16 + 32 * fld d 2 2 + 16 * i) 16

/-- The header's fields under R220. -/
def headerOk (b : Bytes) : Bool :=
  let g := fld b 0x12 1; let t := trailer b; let n := fld b 0x20 2; let st := fld b 0x24 4
  g ≠ 0 && g < 4 && fld b 0x13 1 < 4 && 1 ≤ fld b 0x1E 1 && fld b 0x1E 1 ≤ 254 && fld b 0x1F 1 ≤ 32 && 1 ≤ n && n ≤ 512 &&
    zeroAt b 0x22 2 && zeroAt b 0x2C 4 && zeroAt b 0x60 32 && zeroAt t 52 12 &&
    (imgSigned b || (zeroAt t 48 4 && zeroAt t 64 96)) && st % 64 = 0 && 128 ≤ st && st + 16 * n ≤ b.length - 160

/-- Whether the image names a grade. -/
def gradeIn (b : Bytes) (g : Nat) : Bool := (g = 224 && bit (fld b 0x12 1) 0) || (g = 256 && bit (fld b 0x12 1) 1)

/-- The most entries of a type. -/
def maxEntries (t : Nat) : Nat := match t with | 3 => 4096 | 4 => 64 | 8 => 65536 | 9 => 16 | _ => 2 ^ 32

/-- A section-table entry on its own under R219 and R221. -/
def sectOk (b : Bytes) (x : Sect) : Bool :=
  1 ≤ x.type && x.type ≤ 12 && x.off % 64 = 0 && 128 ≤ x.off && x.off + x.len ≤ b.length - 160 && x.count ≤ maxEntries x.type &&
    (if x.type = 1 then
      x.arg < fld b 0x1E 1 && x.count = 0 && 16 ≤ x.len && x.len = 16 + 32 * fld x.data 2 2 + 16 * fld x.data 4 4
    else if perGrade x.type then gradeIn b x.arg else x.arg = 0) &&
    (if x.type = 1 then true else if x.type = 2 then x.count = 0 && x.len = 256 else x.len = x.count * entrySize x.type) &&
    (x.type ≠ 11 || (fld b 0x1F 1 ≠ 0 && x.count = fld b 0x1F 1))

/-- Whether a section overlaps the section table or an earlier section, or repeats one. -/
def sectClash (b : Bytes) (l : List Sect) (x : Sect) : Bool :=
  let st := fld b 0x24 4; let se := st + 16 * fld b 0x20 2
  (x.len ≠ 0 && x.off < se && st < x.off + x.len) ||
    (l.take x.ix).any fun y =>
      (x.len ≠ 0 && y.len ≠ 0 && x.off < y.off + y.len && y.off < x.off + x.len) || (x.type = y.type && x.arg = y.arg)

/-- The reserved fields of a section's entries; the first entry that breaks them. -/
def sectReserved (x : Sect) : Option ImgFail :=
  if x.type = 1 then
    if !zeroAt x.data 8 8 then some ⟨4, .range, x.ix, 0⟩
    else firstFail (roleRelocs x.data) (fun e => fld e 6 2 ≤ 1 && zeroAt e 8 8) 4 x.ix
  else firstFail x.entries (entryReserved x.type) 4 x.ix

/-- The sections R221 asks for. -/
def sectsPresent (b : Bytes) (l : List Sect) : Bool :=
  (List.range (fld b 0x1E 1)).all (fun r => l.any fun x => x.type = 1 && x.arg = r) &&
    [224, 256].all (fun g => !gradeIn b g || [2, 5, 6, 7, 10].all fun t => l.any fun x => x.type = t && x.arg = g) &&
    (fld b 0x1F 1 = 0 || l.any fun x => x.type = 11)

/-- Check 4: IMG_FORMAT. DESIGN CHOICE (log 181): the spec does not say which section and entry a missing section names;
the model answers SECTION 0xFF, ENTRY 0. -/
def check4 (b : Bytes) : Option ImgFail :=
  if !headerOk b then some ⟨4, .range, 0xFF, 0⟩
  else
    let l := sections b
    match l.findSome? fun x => if sectOk b x && !sectClash b l x then sectReserved x else some ⟨4, .range, x.ix, 0⟩ with
    | some f => some f
    | none => need (sectsPresent b l) 4

/-! ### Checks 5 to 8 -/

/-- A job's setting that the loader is given: grade, logical grid, module count, rank, supplied parameters. -/
structure LoadEnv where
  grade : Nat
  gridW : Nat
  modules : Nat
  rank : Nat
  given : List (Nat × Int)
deriving DecidableEq, Repr

def LoadEnv.coreOk (v : LoadEnv) (c : Nat) : Bool := c < 256 && c % 16 < v.gridW
def LoadEnv.cores (v : LoadEnv) : List Nat := (List.range 256).filter v.coreOk

/-- Check 5: IMG_TARGET. -/
def check5 (b : Bytes) (v : LoadEnv) : Option ImgFail :=
  need (fld b 0x10 1 = 1 && gradeIn b v.grade && (fld b 0x14 4 = 0 || fld b 0x14 4 = v.modules)) 5

/-- Check 6: IMG_MODE. -/
def check6 (b : Bytes) : Option ImgFail := need (fld b 0x11 1 < 4) 6

/-- Check 7: IMG_LOOKAHEAD. -/
def check7 (b : Bytes) : Option ImgFail :=
  need (32 ≤ fld b 0x18 4 && fld b 0x18 4 ≤ 65535 && 1 ≤ fld b 0x1C 2 && fld b 0x1C 2 ≤ 4096) 7

/-- A load parameter's value (R227). -/
def paramValue (given : List (Nat × Int)) (i : Nat) (e : Bytes) : Int :=
  match given.find? fun g => g.1 = i with | some g => g.2 | none => sgn 64 (fld e 0 8)

/-- Check 8: IMG_PARAM. -/
def check8 (l : List Sect) (v : LoadEnv) : Option ImgFail :=
  let es := sectEntries l 4 v.grade; let ix := sectIx l 4 v.grade
  match v.given.zipIdx.find? fun g => es.length ≤ g.1.1 || (v.given.take g.2).any fun h => h.1 = g.1.1 with
  | some g => some ⟨8, .range, ix, g.1.1⟩
  | none =>
    firstFail es.zipIdx (fun e =>
      let x := paramValue v.given e.2 e.1
      (fld e.1 24 1 = 0 || v.given.any fun g => g.1 = e.2) && sgn 64 (fld e.1 8 8) ≤ x && x ≤ sgn 64 (fld e.1 16 8)) 8 ix

/-- The resolved parameters. -/
def paramsOf (l : List Sect) (v : LoadEnv) : List Int := (sectEntries l 4 v.grade).zipIdx.map fun e => paramValue v.given e.2 e.1

/-! ### Checks 9 and 10: roles, relocations, expressions (R224 to R228) -/

def roleSects (l : List Sect) : List Sect := l.filter fun x => x.type = 1

/-- The role of a core. -/
def roleOf (l : List Sect) (v : LoadEnv) (c : Nat) : Nat := match findSect l 2 v.grade with | some x => fld x.data c 1 | none => 0
def roleSect (l : List Sect) (r : Nat) : Option Sect := l.find? fun x => x.type = 1 && x.arg = r

/-- Check 9: IMG_ROLE. -/
def check9 (b : Bytes) (l : List Sect) (v : LoadEnv) : Option ImgFail :=
  match (roleSects l).find? fun x => !(1 ≤ fld x.data 2 2 && fld x.data 2 2 ≤ 4096 && fld x.data 0 2 < fld x.data 2 2) with
  | some x => some ⟨9, .range, x.ix, 0⟩
  | none => firstFail (List.range 256) (fun c =>
      if v.coreOk c then roleOf l v c < fld b 0x1E 1 else roleOf l v c = 0xFF) 9 (sectIx l 2 v.grade)

/-- The terms of R226 for a core. -/
def terms (v : LoadEnv) (params : List Int) (pidx c : Nat) : List Int :=
  let x := c % 16; let y := c / 16; let cc := v.gridW * 16; let dense := y * v.gridW + x
  [1, x, y, dense, v.gridW, cc, v.rank, v.modules, v.rank * cc + dense, v.modules * cc, params.getD pidx 0]

/-- The value of an expression record for a core; none where d ≤ 0. -/
def evalExpr (v : LoadEnv) (params : List Int) (e : Bytes) (c : Nat) : Option Int :=
  let t := terms v params (fld e 45 1) c
  let n := (List.range 11).foldl (fun (n : Int) i => n + sgn 32 (fld e (4 * i) 4) * t.getD i 0) 0
  let d := sgn 32 (fld e 48 4) * t.getD (fld e 44 1) 0 + sgn 32 (fld e 52 4)
  let m := fld e 56 8
  if d ≤ 0 then none
  else
    let q := Int.fdiv n d
    some (if m = 0 then q else Int.fmod q m)

/-- Whether a term of an expression names a parameter beyond the entries (R227). -/
def exprParamOk (e : Bytes) (params : List Int) : Bool :=
  !(fld e 40 4 ≠ 0 || fld e 44 1 = 10) || fld e 45 1 < params.length

/-- A relocation's form (R225). -/
def relocOk (e : Bytes) (len exprs : Nat) : Bool :=
  fld e 0 2 < len && 1 ≤ fld e 3 1 && fld e 3 1 ≤ 64 && fld e 2 1 + fld e 3 1 ≤ 256 && fld e 4 2 < exprs

/-- A relocation's value for a core, where it fits its field. -/
def relocValue (v : LoadEnv) (params : List Int) (exprs : List Bytes) (e : Bytes) (c : Nat) : Option Int :=
  let w := fld e 3 1
  match evalExpr v params (exprs.getD (fld e 4 2) []) c with
  | none => none
  | some x =>
    if fld e 6 2 = 1 then
      if -((2 ^ (w - 1) : Nat) : Int) ≤ x && x < ((2 ^ (w - 1) : Nat) : Int) then some x else none
    else if 0 ≤ x && x < ((2 ^ w : Nat) : Int) then some x else none

/-- Check 10: IMG_RELOC. Expressions first, then the form of the relocations, then their values core by core. -/
def check10 (l : List Sect) (v : LoadEnv) : Option ImgFail :=
  let ps := paramsOf l v; let es := sectEntries l 3 v.grade
  match firstFail es (fun e => fld e 44 1 ≤ 10 && exprParamOk e ps) 10 (sectIx l 3 v.grade) with
  | some f => some f
  | none =>
    match (roleSects l).findSome? fun x => firstFail (roleRelocs x.data) (fun e => relocOk e (fld x.data 2 2) es.length) 10 x.ix with
    | some f => some f
    | none =>
      v.cores.findSome? fun c =>
        match roleSect l (roleOf l v c) with
        | none => none
        | some x => firstFail (roleRelocs x.data) (fun e => (relocValue v ps es e c).isSome) 10 x.ix

/-- A bundle with bits [BIT + WIDTH − 1 : BIT] replaced. -/
def patch (bundle bit_ width : Nat) (x : Int) : Nat :=
  bundle - bits bundle (bit_ + width - 1) bit_ * 2 ^ bit_ + wrap width x * 2 ^ bit_

/-- A core's code: its role's bundles, patched in entry order (R224, R225). -/
def coreCode (l : List Sect) (v : LoadEnv) (c : Nat) : Map Nat :=
  match roleSect l (roleOf l v c) with
  | none => []
  | some x =>
    let code := (List.range (fld x.data 2 2)).map fun i => (i, fld x.data (16 + 32 * i) 32)
    (roleRelocs x.data).foldl (fun (m : Map Nat) e =>
      match relocValue v (paramsOf l v) (sectEntries l 3 v.grade) e c with
      | some y => m.put (fld e 0 2) (patch (m.find 0 (fld e 0 2)) (fld e 2 1) (fld e 3 1) y)
      | none => m) code

/-! ### Check 11: regions (R208, R210, R234) -/

/-- A REGIONS entry as declared. -/
def declOf (ps : List Int) (e : Bytes) : RegionDecl :=
  { region := fld e 0 1, content := bits (fld e 3 1) 4 3, slot := (ps.getD (fld e 16 1) 0).toNat }

/-- Its far region, before LOCAL_BASE is chosen. -/
def regionFor (e : Bytes) : FarRegion :=
  let f := fld e 3 1
  { ctrlFirst := fld e 1 1, ctrlCount := fld e 2 1, unit := bit f 0, ro := bit f 1 || bits f 4 3 = 2, host := bit f 2, valid := true
    localBase := 0, size := fld e 8 8 / 65536 }

/-- A declaration's own rules (R234), and R210 for two entries that name one resident copy: they share every block. -/
def State.regionEntryOk (s : State) (ps : List Int) (es : List Bytes) (i : Nat) (e : Bytes) : Bool :=
  let p := ps.getD (fld e 16 1) (-1); let x := s.rmSlot p.toNat; let r := regionFor e
  fld e 0 1 ≤ 15 && !((es.take i).any fun y => fld y 0 1 = fld e 0 1) && 1 ≤ r.ctrlCount && r.ctrlFirst + r.ctrlCount ≤ 36 &&
    fld e 8 8 % 65536 = 0 && 1 ≤ r.size && r.blocks ≤ s.chanBlocks &&
    (bits (fld e 3 1) 4 3 ≠ 2 ||
      (0 ≤ p && p ≤ 255 && x.state = .resident && x.size = fld e 8 8 && !r.unit && r.ctrlFirst = 0 && r.ctrlCount = 36 &&
        !((es.take i).any fun y => bits (fld y 3 1) 4 3 = 2 && ps.getD (fld y 16 1) (-1) = p)))

/-- Blocks in use where a region may stand: resident copies and the job's regions that share a controller with it. -/
def State.blocksNear (s : State) (placed : List (Nat × FarRegion)) (r : FarRegion) : List (Nat × Nat) :=
  (s.cas.slots.filterMap fun e => if e.2.placed then some (e.2.base, (copyRegion 0 e.2.size).blocks) else none) ++
    placed.filterMap fun e =>
      if e.2.ctrlFirst < r.ctrlFirst + r.ctrlCount && r.ctrlFirst < e.2.ctrlFirst + e.2.ctrlCount then some (e.2.localBase, e.2.blocks)
      else none

/-- Places the regions in entry order, each at the lowest LOCAL_BASE that is free; the entry that does not fit. -/
def State.placeRegions (s : State) (ps : List Int) : List (Bytes × Nat) → List (Nat × FarRegion) → Sum (List (Nat × FarRegion)) Nat
  | [], acc => .inl acc
  | (e, i) :: es, acc =>
    let r := regionFor e
    if bits (fld e 3 1) 4 3 = 2 then
      State.placeRegions s ps es (acc ++ [(fld e 0 1, { r with localBase := (s.rmSlot (declOf ps e).slot).base })])
    else
      match lowestFit (s.blocksNear acc r) 0 s.chanBlocks r.blocks with
      | some b => State.placeRegions s ps es (acc ++ [(fld e 0 1, { r with localBase := b })])
      | none => .inr i

/-- Check 11: IMG_REGION, with the region table it places. -/
def State.check11 (s : State) (l : List Sect) (v : LoadEnv) : Sum (List (Nat × FarRegion)) ImgFail :=
  let ps := paramsOf l v; let es := sectEntries l 9 v.grade; let ix := sectIx l 9 v.grade
  match firstFail es.zipIdx (fun e => s.regionEntryOk ps es e.2 e.1) 11 ix with
  | some f => .inr f
  | none =>
    match s.placeRegions ps es.zipIdx [] with
    | .inl t => .inl t
    | .inr i => .inr ⟨11, .noSpace, ix, i⟩

/-! ### Checks 12 to 14: stacked ranges, queues, buffers (R215, R232, R233, R235, R388) -/

def stackOf (e : Bytes) : StackRange :=
  { core := fld e 0 1, ro := bit (fld e 1 1) 0, sliceLo := fld e 2 1, sliceHi := fld e 3 1, offLo := fld e 4 4, offHi := fld e 8 4 }

/-- Check 12: IMG_STACK. -/
def check12 (l : List Sect) (v : LoadEnv) : Option ImgFail :=
  let es := (sectEntries l 10 v.grade).map stackOf
  firstFail es.zipIdx (fun e =>
    let r := e.1
    let n := fun c => ((es.take (e.2 + 1)).filter fun q => q.core = 0xFF || q.core = c).length
    (r.core = 0xFF || v.coreOk r.core) && r.sliceLo ≤ r.sliceHi && r.offLo < r.offHi && r.offHi ≤ 0x6000000 &&
      (if r.core = 0xFF then v.cores.all fun c => n c ≤ 16 else n r.core ≤ 16)) 12 (sectIx l 10 v.grade)

def rangeOf (e : Bytes) : RangeEnt := { type := fld e 0 1, region := fld e 1 1, offset := fld e 8 8, length := fld e 16 8, aux := fld e 24 8 }

/-- A RANGES entry under R233. -/
def rangeOk (v : LoadEnv) (t : List (Nat × FarRegion)) (r : RangeEnt) : Bool :=
  match r.type with
  | 0 => r.offset % 64 = 0 && r.length % 64 = 0 && r.aux = 0 &&
      t.any fun x => x.1 = r.region && r.offset + r.length ≤ x.2.size * 65536
  | 1 => r.offset = 0 && r.aux % 2 ^ 18 < v.modules
  | 2 => true
  | _ => false

def kindOf (n : Nat) : QKind :=
  match n with | 0 => .farRead | 1 => .farWrite | 2 => .fabricSend | 3 => .fabricReceive | 4 => .hostWrite | _ => .step

/-- Whether a kind has landings, and staging. -/
def kindLands (k : Nat) : Bool := k = 0 || k = 3 || k = 5
def kindStages (k : Nat) : Bool := k = 1 || k = 2 || k = 4 || k = 5

/-- The endpoints of a kind (R232). -/
def kindEndpoint (k ep : Nat) : Bool :=
  match k with | 0 | 1 => ep ≤ 35 | 2 | 3 => 36 ≤ ep && ep ≤ 51 | 4 => ep = 77 | 5 => ep = 52 | _ => false

/-- The RANGES type of a kind; none for kinds without ranges. -/
def kindRange (k : Nat) : Option Nat := match k with | 0 | 1 => some 0 | 3 => some 1 | 4 => some 2 | _ => none

/-- A QBIND entry under R232 and R233. -/
def qbindOk (b : Bytes) (v : LoadEnv) (t : List (Nat × FarRegion)) (rs : List RangeEnt) (before : List Bytes) (e : Bytes) : Bool :=
  let c := fld e 0 1; let h := fld e 1 1; let k := fld e 2 1; let land := fld e 8 4; let stage := fld e 16 4
  let first := fld e 20 2; let n := fld e 22 2; let mine := (rs.drop first).take n
  v.coreOk c && h ≤ 31 && k ≤ 5 && (h = 31 : Bool) = (k = 5 : Bool) && kindEndpoint k (fld e 3 1) && !(k = 5 && fld b 0x1F 1 = 0) &&
    land % 128 = 0 && stage % 128 = 0 && (kindLands k || land = 0) && (kindStages k || stage = 0) &&
    !(before.any fun y => fld y 0 1 = c && fld y 1 1 = h) &&
    (match kindRange k with
     | none => n = 0
     | some ty => 1 ≤ n && n ≤ 16 && first + n ≤ rs.length && mine.all fun r => r.type = ty) &&
    !(k = 1 && mine.any fun r => t.any fun x => x.1 = r.region && x.2.ro)

/-- Check 13: IMG_QUEUE. -/
def check13 (b : Bytes) (l : List Sect) (v : LoadEnv) (t : List (Nat × FarRegion)) : Option ImgFail :=
  let rs := (sectEntries l 8 v.grade).map rangeOf; let qs := sectEntries l 7 v.grade
  match firstFail rs (rangeOk v t) 13 (sectIx l 8 v.grade) with
  | some f => some f
  | none => firstFail qs.zipIdx (fun e => qbindOk b v t rs (qs.take e.2) e.1) 13 (sectIx l 7 v.grade)

/-- An endpoint's landing and staging buffers in bytes (R215, R388). -/
def landBuffer (ep : Nat) : Nat := if ep ≤ 35 then 524288 else if ep ≤ 51 then 1048576 else if ep = 52 then 8388608 else 0
def stageBuffer (ep : Nat) : Nat :=
  if ep ≤ 35 then 262144 else if ep ≤ 51 then 524288 else if ep = 52 then 262144 else if ep = 77 then 524288 else 0

/-- Whether two areas of a size meet. -/
def meet (a n b m : Nat) : Bool := n ≠ 0 && m ≠ 0 && a < b + m && b < a + n

/-- Check 14: IMG_BUFFER. -/
def check14 (l : List Sect) (v : LoadEnv) : Option ImgFail :=
  let qs := sectEntries l 7 v.grade
  firstFail qs.zipIdx (fun x =>
    let e := x.1; let ep := fld e 3 1
    (fld e 8 4 = 0 || fld e 4 4 + fld e 8 4 ≤ landBuffer ep) && (fld e 16 4 = 0 || fld e 12 4 + fld e 16 4 ≤ stageBuffer ep) &&
      !((qs.take x.2).any fun y => fld y 3 1 = ep &&
        (meet (fld e 4 4) (fld e 8 4) (fld y 4 4) (fld y 8 4) || meet (fld e 12 4) (fld e 16 4) (fld y 12 4) (fld y 16 4))))
    14 (sectIx l 7 v.grade)

/-! ### Checks 15 and 16: routes and landings (R229 to R231) -/

def routeOf (e : Bytes) : Route :=
  let f := fld e 2 2
  { ep := bit f 0, yFirst := bit f 1, edgeLane := bit f 2, mirror := bit f 3, dest := fld e 4 1, queue := fld e 5 1, phase := fld e 6 2
    ewLanes := fld e 8 2 }

def landingOf (e : Bytes) : Landing :=
  let f := fld e 3 1
  { endpoint := fld e 0 1, core := fld e 1 1, queue := fld e 2 1, edgeLane := bit f 1, required := bit f 2, phase := fld e 4 2
    ewLanes := fld e 6 2, ringBase := fld e 8 4, ringUnits := fld e 12 2, doneTick := 0, cursor := 0 }

/-- Whether a handle of a core is bound to an endpoint. -/
def boundTo (qs : List Bytes) (c h ep : Nat) : Bool := qs.any fun q => fld q 0 1 = c && fld q 1 1 = h && fld q 3 1 = ep

/-- Check 15: IMG_ROUTE. -/
def check15 (b : Bytes) (l : List Sect) (v : LoadEnv) : Option ImgFail :=
  let p := fld b 0x1C 2; let qs := sectEntries l 7 v.grade; let rs := sectEntries l 5 v.grade
  match firstFail rs.zipIdx (fun x =>
      let e := x.1; let r := routeOf e; let c := fld e 0 1
      v.coreOk c && r.phase < p && !((rs.take x.2).any fun y => fld y 0 1 = c && fld y 1 1 = fld e 1 1) &&
        (if r.ep then r.dest ≤ 77 && !r.yFirst && boundTo qs c r.queue r.dest else v.coreOk r.dest && r.dest ≠ c))
      15 (sectIx l 5 v.grade) with
  | some f => some f
  | none =>
    firstFail (sectEntries l 6 v.grade) (fun e =>
      let g := landingOf e
      g.endpoint ≤ 77 && v.coreOk g.core && !bit (fld e 3 1) 0 && g.phase < p && boundTo qs g.core g.queue g.endpoint &&
        g.ringBase % 128 = 0 && 1 ≤ g.ringUnits && g.ringBase + 128 * g.ringUnits ≤ 2097152) 15 (sectIx l 6 v.grade)

/-- A link's slot: hop, and whether it goes inward on an edge lane, with the slot modulo P. -/
def slotKey (h : Hop) (inward : Bool) (slot : Nat) : Nat :=
  (((((h.x * 16 + h.y) * 4 + h.dir) * 2 + bitAt 0 (h.lane && (h.edge || h.dir < 2))) * 2 + bitAt 0 h.edge) * 2 + bitAt 0 inward) * 4096 + slot

/-- The occupancies of hops from a start slot (R231). -/
def occupy (p : Nat) : List Hop → Nat → List Nat
  | [], _ => []
  | h :: hs, t => slotKey h false (t % p) :: occupy p hs (t + h.spacing)

/-- A route entry's occupancies: its own and with MIRROR its mirror's. -/
def Route.slots (r : Route) (w c p : Nat) : List Nat :=
  let hs := r.hops w c
  occupy p hs r.phase ++ (if r.mirror then occupy p (hs.reverse.map Hop.mirror) (r.phase + 10 + delayOf hs) else [])

/-- A landing's occupancies: the edge lane first, then the dimension to its core (R118, R123). -/
def Landing.slots (g : Landing) (w p : Nat) : List Nat :=
  let dir := epEdge g.endpoint
  let e := edgeHop w g.core dir g.edgeLane
  let hs := coreHops (edgeCore w g.core dir) g.core g.ewLanes false
  let d := e.spacing + delayOf hs
  let t := g.phase + p * (d + 1) - 1 - d
  slotKey e true (t % p) :: occupy p hs (t + e.spacing)

/-- The occupancies entered so far with an entry's added, or none at a collision. -/
def addSlots : Map Unit → List Nat → Option (Map Unit)
  | m, [] => some m
  | m, k :: ks => if m.has k then none else addSlots (m.put k ()) ks

/-- Enters a section's entries; the first that collides. -/
def enterSlots : List (Nat × List Nat) → Map Unit → Sum (Map Unit) Nat
  | [], m => .inl m
  | (i, ks) :: l, m =>
    match addSlots m ks with
    | some m => enterSlots l m
    | none => .inr i

/-- Check 16: IMG_COLLISION. -/
def check16 (b : Bytes) (l : List Sect) (v : LoadEnv) : Option ImgFail :=
  let p := fld b 0x1C 2
  match enterSlots ((sectEntries l 5 v.grade).zipIdx.map fun e => (e.2, (routeOf e.1).slots v.gridW (fld e.1 0 1) p)) [] with
  | .inr i => some ⟨16, .range, sectIx l 5 v.grade, i⟩
  | .inl m =>
    match enterSlots ((sectEntries l 6 v.grade).zipIdx.map fun e => (e.2, (landingOf e.1).slots v.gridW p)) m with
    | .inr i => some ⟨16, .range, sectIx l 6 v.grade, i⟩
    | .inl _ => none

/-! ### Checks 17 to 19: demand, step menu, initialisers (R199, R236, R237) -/

/-- Check 17: IMG_TRICKLE. -/
def check17 (b : Bytes) : Option ImgFail := need (fld b 0x28 4 ≤ (if bit (fld b 0x13 1) 0 then 3744 else 3936)) 17

def shapeOf (e : Bytes) : StepShape :=
  { kind := fld e 1 1, rowsMax := fld e 2 2, posMax := fld e 4 4, adaptersMax := fld e 8 2, classMax := fld e 10 1
    stepTicks := fld e 12 4, descSize := fld e 16 4 }

/-- Check 18: IMG_STEPMENU; each q31 landing area holds two of each shape's descriptors. -/
def check18 (l : List Sect) (v : LoadEnv) : Option ImgFail :=
  let qs := (sectEntries l 7 v.grade).filter fun q => fld q 2 1 = 5
  firstFail ((sectEntries l 11 v.grade).map shapeOf) (fun x =>
    x.kind ≤ 2 && 1 ≤ x.rowsMax && x.classMax ≤ 4 && x.descSize % 128 = 0 && x.descSize ≠ 0 &&
      qs.all fun q => 2 * x.descSize ≤ fld q 8 4) 18 (sectIx l 11 v.grade)

/-- Whether an initialiser's target range is one it may write. -/
def initTarget (l : List Sect) (v : LoadEnv) (e : Bytes) : Bool :=
  let a := fld e 8 8; let n := fld e 16 8; let u := fld e 2 1
  match fld e 0 1 with
  | 0 => v.coreOk (fld e 1 1) && a + n ≤ 2097152
  | 1 => v.coreOk u && ((sectEntries l 10 v.grade).map stackOf).any fun r =>
      r.sliceLo ≤ u && u ≤ r.sliceHi && r.offLo ≤ a && a + n ≤ r.offHi
  | 2 => (sectEntries l 9 v.grade).any fun x => fld x 0 1 = u && bits (fld x 3 1) 4 3 = 0 && a + n ≤ fld x 8 8
  | _ => false

/-- Whether an initialiser's data bytes belong to no part of the image. -/
def initData (b : Bytes) (l : List Sect) (e : Bytes) : Bool :=
  let d := fld e 24 8; let n := fld e 16 8
  bit (fld e 3 1) 0 || (fld b 0x24 4 + 16 * fld b 0x20 2 ≤ d && d + n ≤ b.length - 160 &&
    l.all fun x => x.len = 0 || d + n ≤ x.off || x.off + x.len ≤ d)

/-- Check 19: IMG_INIT. -/
def check19 (b : Bytes) (l : List Sect) (v : LoadEnv) : Option ImgFail :=
  firstFail (sectEntries l 12 v.grade) (fun e => initTarget l v e && initData b l e) 19 (sectIx l 12 v.grade)

def initOf (b : Bytes) (e : Bytes) : InitEnt :=
  { target := fld e 0 1, core := fld e 1 1, unit := fld e 2 1, addr := fld e 8 8
    data := if bit (fld e 3 1) 0 then zeros (fld e 16 8) else sub b (fld e 24 8) (fld e 16 8) }

/-! ### The resolved image -/

/-- The checks of R238 in table order: the region table, or the first that fails. -/
def State.checkImage (s : State) (b : Bytes) (v : LoadEnv) : Sum (List (Nat × FarRegion)) ImgFail :=
  let keys := match s.sec.owner with | some o => o.imageKeys | none => []
  let demanded := match s.sec.owner with | some o => bit o.policy 0 | none => false
  match (check1 b).or ((check2 b).or ((check3 b keys demanded).or (check4 b))) with
  | some f => .inr f
  | none =>
    let l := sections b
    match (check5 b v).or ((check6 b).or ((check7 b).or ((check8 l v).or ((check9 b l v).or (check10 l v))))) with
    | some f => .inr f
    | none =>
      match s.check11 l v with
      | .inr f => .inr f
      | .inl t =>
        match (check12 l v).or ((check13 b l v t).or ((check14 l v).or ((check15 b l v).or ((check16 b l v).or
          ((check17 b).or ((check18 l v).or (check19 b l v))))))) with
        | some f => .inr f
        | none => .inl t

/-- The image as the job keeps it. -/
def imageOf (b : Bytes) (v : LoadEnv) (leadRank : Nat) : Image :=
  let l := sections b; let g := v.grade
  { digest := imgDigest b, numericMode := fld b 0x11 1, lookahead := fld b 0x18 4, period := fld b 0x1C 2, stepCount := fld b 0x1F 1
    moduleCount := v.modules, rank := v.rank, leadRank := leadRank, params := paramsOf l v
    roles := (roleSects l).foldl (fun (m : Map RoleInfo) x => m.put x.arg { entry := fld x.data 0 2, length := fld x.data 2 2 }) []
    routes := (sectEntries l 5 g).foldl (fun (m : Map Route) e => m.put (fld e 0 1 * 256 + fld e 1 1) (routeOf e)) []
    landings := (sectEntries l 6 g).map landingOf
    stack := (sectEntries l 10 g).map stackOf
    steps := (sectEntries l 11 g).map shapeOf
    decls := (sectEntries l 9 g).map (declOf (paramsOf l v))
    inits := (sectEntries l 12 g).map (initOf b) }

/-- The queues it binds. -/
def queuesOf (b : Bytes) (g : Nat) : Map Queue :=
  let l := sections b; let rs := (sectEntries l 8 g).map rangeOf
  (sectEntries l 7 g).foldl (fun (m : Map Queue) e => m.put (qKey (fld e 0 1) (fld e 1 1))
    { Queue.init with
      kind := kindOf (fld e 2 1), endpoint := fld e 3 1, landSize := fld e 8 4, stageSize := fld e 16 4
      ranges := (rs.drop (fld e 20 2)).take (fld e 22 2) }) []

end Sys2Proof.Machine
end

