-- ==== Sys2Proof/Machine/Save.lean ====
section
/-! DEFINITION. Save images and the settings manifest (R315, R335, R336). -/
namespace Sys2Proof.Machine

/-! ### The settings manifest (R315) -/

/-- The manifest the job has at ARMED. -/
def State.manifest (s : State) : Bytes :=
  match s.image with
  | none => []
  | some i =>
    manMagic ++ leBytes 2 1 ++ leBytes 2 (128 + 8 * i.params.length) ++ leBytes 1 1 ++ leBytes 1 i.numericMode ++ leBytes 2 s.coreCount ++
      leBytes 4 i.moduleCount ++ leBytes 4 (match s.srv.cfg with | some c => c.vocab | none => 0) ++ leBytes 2 i.params.length ++ zeros 42 ++
      [0xB1#8] ++ zeros 3 ++ leBytes 4 s.sec.runRelease ++ leBytes 4 i.rank ++ leBytes 4 s.fab.addr ++ leBytes 1 s.far.rate ++ zeros 47 ++
      i.params.flatMap intBytes

/-- The job takes its manifest. -/
def State.takeManifest (s : State) : State :=
  s.withRecs { s.recs with manifest := s.manifest, manifestDigest := sha384 s.manifest }

/-! ### Core state -/

/-- An accumulator element in a save image. -/
def Elt.saved : Elt → Bytes
  | .fp x => leBytes 4 x.toNat
  | .ex n nan pinf ninf => leBytes 96 (wrap 768 n) ++ leBytes 1 (bitAt 0 nan + bitAt 1 pinf + bitAt 2 ninf) ++ zeros 31

/-- Its size, and the element some bytes spell. -/
def eltSize (exact : Bool) : Nat := if exact then 128 else 4
def eltOf (exact : Bool) (b : Bytes) : Elt :=
  if exact then .ex (sgn 768 (fld b 0 96)) (bit (fld b 96 1) 0) (bit (fld b 96 1) 1) (bit (fld b 96 1) 2) else .fp (BitVec.ofNat 32 (fld b 0 4))

/-- The landing cursors of a core, in section order. -/
def Image.cursors (i : Image) (c : Nat) : List Nat := (i.landings.filter fun l => l.core = c).map fun l => l.cursor

/-- A loop stack entry. -/
def Loop.saved (l : Loop) : Bytes := leBytes 2 l.first ++ leBytes 2 l.last ++ leBytes 4 l.left

/-- The registers of a core (R335), up to the seen mask. -/
def Core.savedRegs (k : Core) : Bytes :=
  (List.range 32).flatMap (fun i => leBytes 8 (k.rs i).toNat) ++ (List.range 16).flatMap (fun i => leBytes 8 (k.ra i).toNat) ++
    leBytes 1 ((List.range 8).foldl (fun n i => n + bitAt i (k.rp i)) 0) ++ zeros 3 ++ leBytes 2 k.pc ++ leBytes 1 k.loops.length ++ zeros 1 ++
    padTo 32 (k.loops.flatMap Loop.saved) ++ leBytes 1 k.feedCfg.lfmt ++ leBytes 1 k.feedCfg.rfmt ++ zeros 6 ++ leBytes 8 k.feedCfg.fl ++
    leBytes 8 k.feedCfg.fr ++ leBytes 8 k.feedCfg.fls ++ leBytes 8 k.feedCfg.frs ++ leBytes 8 k.feedCfg.kc ++ leBytes 8 k.mKey.toNat ++
    leBytes 4 k.mPos.toNat ++ leBytes 8 k.mSid.toNat ++ leBytes 4 k.mDraw.toNat ++ leBytes 2 k.sel.list.length ++ leBytes 2 k.sel.kcap ++
    leBytes 4 k.sel.wb.toNat ++ leBytes 1 (bitAt 0 k.sel.sel) ++ zeros 3 ++ leBytes 4 k.sel.selId.toNat ++ leBytes 4 k.sel.selIx

/-- The seen mask as 512 bytes. -/
def seenBytes (l : List Nat) : Bytes := leBytes 512 (l.foldl (fun n i => n + 2 ^ i) 0)

/-- The section of core `c` (R335). -/
def State.coreSection (s : State) (c : Nat) : Bytes :=
  let k := s.core c
  padTo 576 k.savedRegs ++ seenBytes k.sel.seen ++ padTo 8192 (k.sel.list.flatMap fun e => leBytes 4 e.1.toNat ++ leBytes 4 e.2.toNat) ++
    (List.range 32).flatMap (fun h => let q := s.queue c h; leBytes 4 q.pushed.toNat ++ leBytes 4 q.at_.toNat ++ leBytes 4 q.gated.toNat ++ zeros 4) ++
    (List.range 64).flatMap (fun n => (k.rv n).flatMap fun x => leBytes 4 x.toNat) ++
    (List.range 4).flatMap (fun a => (List.range 4096).flatMap fun e => ((k.accElts a).find (Elt.clear s.exact) e).saved) ++
    k.ws.read 0 2097152 ++ (match s.image with | some i => (i.cursors c).flatMap (leBytes 2) | none => [])

/-- A core read back from its section (R336): nothing of an earlier job is left in it but its code. -/
def Core.restore (k : Core) (exact : Bool) (b : Bytes) : Core :=
  let n := eltSize exact
  let map8 := fun (o m : Nat) => (List.range m).map fun i => (i, fld b (o + 8 * i) 8)
  { Core.init with
    code := k.code, codeLen := k.codeLen, role := k.role
    s := (map8 0 32).map fun e => (e.1, BitVec.ofNat 64 e.2)
    a := (map8 256 16).map fun e => (e.1, BitVec.ofNat 40 e.2)
    p := (List.range 8).map fun i => (i, bit (fld b 384 1) i)
    pc := fld b 388 2
    loops := (List.range (min 4 (fld b 390 1))).map fun i =>
      { first := fld b (392 + 8 * i) 2, last := fld b (394 + 8 * i) 2, left := fld b (396 + 8 * i) 4, done := 0 }
    feedCfg := { lfmt := fld b 424 1, rfmt := fld b 425 1, fl := fld b 432 8, fr := fld b 440 8, fls := fld b 448 8, frs := fld b 456 8
                 kc := fld b 464 8 }
    mKey := BitVec.ofNat 64 (fld b 472 8), mPos := BitVec.ofNat 32 (fld b 480 4), mSid := BitVec.ofNat 64 (fld b 484 8)
    mDraw := BitVec.ofNat 32 (fld b 492 4)
    sel := {
      list := (List.range (fld b 496 2)).map fun i => (BitVec.ofNat 32 (fld b (1088 + 8 * i) 4), BitVec.ofNat 32 (fld b (1092 + 8 * i) 4))
      kcap := fld b 498 2, wb := BitVec.ofNat 32 (fld b 500 4), seen := (List.range 4096).filter fun i => bit (fld b (576 + i / 8) 1) (i % 8)
      sel := bit (fld b 504 1) 0, selId := BitVec.ofNat 32 (fld b 508 4), selIx := fld b 512 4 }
    v := (List.range 64).map fun r => (r, (List.range 64).map fun l => BitVec.ofNat 32 (fld b (9792 + 256 * r + 4 * l) 4))
    acc := (List.range 4).map fun a => (a, (List.range 4096).map fun e => (e, eltOf exact (sub b (26176 + n * (4096 * a + e)) n)))
    ws := Mem.write [] 0 (sub b (26176 + n * 16384) 2097152)
    halted := true }

/-- The bytes each expected transfer of a fabric-receive queue has had when `n` completions have been counted, in the order in which the
binding lists them (R178, R385). -/
def rxCounts (l : List RangeEnt) (key n : Nat) : Map Nat :=
  l.zipIdx.map fun x => (key * 16 + x.2, (n / l.length + (if x.2 < n % l.length then 1 else 0)) * x.1.length)

/-- The queue counters of core `c` from its section; CC equals GATED at a save (R184), and the transfers a fabric-receive queue has had
are those that GATED counts. -/
def State.restoreQueues (s : State) (c : Nat) (b : Bytes) : State :=
  (List.range 32).foldl (fun s h =>
    if s.bound c h then
      let o := 9280 + 16 * h
      let n := fld b (o + 8) 4
      let g := BitVec.ofNat 32 n
      let q := s.queue c h
      let s := s.setQueue c h { q with
        pushed := BitVec.ofNat 32 (fld b o 4), at_ := BitVec.ofNat 32 (fld b (o + 4) 4), gated := g, cc := g, done := n
        reqs := [], stage := [], land := [] }
      if q.kind = .fabricReceive then
        { s with fab := { s.fab with
          rxCount := (rxCounts q.expects (qKey c h) n).foldl (fun m e => m.put e.1 e.2) s.fab.rxCount } }
      else s
    else s) s

/-- A core's landing cursors from its section. -/
def Image.restoreCursors (i : Image) (c : Nat) (b : Bytes) : Image :=
  { i with landings := i.landings.zipIdx.map fun l =>
      if l.1.core = c then
        { l.1 with cursor := fld b (2 * ((i.landings.take l.2).filter fun x => x.core = c).length) 2, doneTick := 0 }
      else l.1 }

/-- Core `c` from its section. -/
def State.restoreCore (s : State) (c : Nat) (b : Bytes) : State :=
  let s := (s.setCore c ((s.core c).restore s.exact b)).restoreQueues c b
  { s with image := s.image.map fun i => i.restoreCursors c (b.drop (26176 + eltSize s.exact * 16384 + 2097152)) }

/-! ### Stacked store -/

/-- Whether a bound range covers offset `o` of slice `c`. -/
def Image.binds (i : Image) (c o : Nat) : Bool := i.stack.any fun r => r.sliceLo ≤ c && c ≤ r.sliceHi && r.offLo ≤ o && o < r.offHi

/-- The covered offsets of a slice, ascending. -/
def State.sliceOffs (s : State) (c : Nat) : List Nat :=
  match s.image with | some i => (List.range sliceSize).filter (i.binds c) | none => []

/-! ### Request records (R283): the engine's own layout -/

/-- An audit replay's part of a record. -/
def Audit.saved (a : Audit) : Bytes :=
  a.digest ++ a.outDigest ++ leBytes 8 a.seq ++ leBytes 4 a.outCount ++ leBytes 8 a.verdictAddr ++
    leBytes 1 (bitAt 0 a.stopped + bitAt 1 a.cancelled)

def ReqState.code : ReqState → Nat
  | .fetching => 1 | .waiting => 2 | .active => 3 | .ending => 4

def optNat (o : Option Nat) : Nat := match o with | some n => n | none => ones64

/-- A request's record, 256 B: 0 for a FREE entry. An audit replay has neither a prompt to read nor an output buffer. -/
def Req.saved (q : Req) : Bytes :=
  let p := q.par
  padTo 256 (leBytes 1 (q.state.code + bitAt 3 q.wasActive + bitAt 4 p.stream + bitAt 5 q.audit.isSome + bitAt 6 q.bound.isSome +
      bitAt 7 q.kv.isSome) ++
    leBytes 1 p.ring ++ leBytes 1 p.modelIx ++ leBytes 1 p.stops.length ++ leBytes 2 p.customer ++ leBytes 2 p.adapter ++ leBytes 8 p.tag ++
    leBytes 8 p.seed ++ leBytes 4 p.promptLen ++ leBytes 4 p.maxNew ++ leBytes 4 p.temp ++ leBytes 4 p.topP ++ leBytes 2 p.topK ++
    leBytes 2 (match q.bound with | some b => b.2 | none => 0) ++ leBytes 4 p.rep ++ leBytes 4 p.freq ++ leBytes 4 p.pres ++
    padTo 16 (idBytes p.stops) ++ leBytes 4 (q.tokOff / 65536) ++ leBytes 4 (match q.kv with | some k => k.1 / 65536 | none => 0) ++
    leBytes 4 q.np ++ leBytes 4 q.tokens.length ++ leBytes 8 q.arrival ++ leBytes 8 q.waitStart ++ leBytes 8 q.gscWaiting ++
    leBytes 8 (optNat q.first) ++ leBytes 8 (optNat q.last) ++
    match q.audit with
    | some a => a.saved
    | none => leBytes 8 p.promptAddr ++ leBytes 8 p.outAddr)

def optOf (n : Nat) : Option Nat := if n = ones64 then none else some n

/-- The parameters in a record. -/
def parOfRecord (b : Bytes) : ReqPar :=
  let au := bit (fld b 0 1) 5
  { stream := bit (fld b 0 1) 4, ring := fld b 1 1, modelIx := fld b 2 1, customer := fld b 4 2, adapter := fld b 6 2, tag := fld b 8 8
    seed := fld b 16 8, promptAddr := if au then 0 else fld b 128 8, promptLen := fld b 24 4, maxNew := fld b 28 4
    outAddr := if au then 0 else fld b 136 8, temp := fld b 32 4, topP := fld b 36 4, topK := fld b 40 2
    stops := (List.range (fld b 3 1)).map fun i => fld b (56 + 4 * i) 4, rep := fld b 44 4, freq := fld b 48 4, pres := fld b 52 4 }

def auditOfRecord (b : Bytes) : Audit :=
  { digest := sub b 128 48, outDigest := sub b 176 48, seq := fld b 224 8, outCount := fld b 232 4, verdictAddr := fld b 236 8
    stopped := bit (fld b 244 1) 0, cancelled := bit (fld b 244 1) 1 }

def reqStateOf (n : Nat) : ReqState := match n with | 1 => .fetching | 2 => .waiting | 3 => .active | _ => .ending

/-- A request from its record and token array. -/
def State.reqOfRecord (s : State) (b : Bytes) : Req :=
  let c := s.serveCfg
  let p := parOfRecord b
  let f := fld b 0 1
  let off := 65536 * fld b 72 4
  let tok := s.farGet c.serve off (4 * fld b 84 4)
  let ids := (List.range (fld b 84 4)).map fun i => fld tok (4 * i) 4
  { state := reqStateOf (bits f 2 0), par := p, arrival := fld b 88 8, tokOff := off, tokSize := p.extent c.vocab
    kv := if bit f 7 then some (65536 * fld b 76 4, p.kvSize c.kvPerPos) else none
    np := fld b 80 4, waitStart := fld b 96 8, gscWaiting := fld b 104 8, tokens := ids
    pen := if p.penalised then ids.foldl penAdd [] else []
    bound := if bit f 6 then some (p.adapter, fld b 42 2) else none
    first := optOf (fld b 112 8), last := optOf (fld b 120 8), built := false, gained := false, status := 0, stopped := false, late := false
    wasActive := bit f 3, audit := if bit f 5 then some (auditOfRecord b) else none }

/-- The engine's request records stand in the SERVE_REGION. -/
def State.putRecords (s : State) : State :=
  if s.srv.cfg.isNone then s
  else (List.range 65536).foldl (fun s id =>
    s.farPut s.serveCfg.serve (256 * id) (match s.req id with | some q => q.saved | none => zeros 256)) s

/-- Entry `id` of the request table from its record. -/
def State.recordAt (s : State) (id : Nat) : Option (Nat × Req) :=
  let b := s.farGet s.serveCfg.serve (256 * id) 256
  if bits (fld b 0 1) 2 0 = 0 then none else some (id, s.reqOfRecord b)

/-- The request table from the records. -/
def State.takeRecords (s : State) : State :=
  if s.srv.cfg.isNone then s else s.withSrv { s.srv with reqs := (List.range 65536).filterMap s.recordAt }

/-! ### Engine state -/

def VerState.code : VerState → Nat
  | .free => 0 | .loading => 1 | .current => 2 | .draining => 3

/-- A version's record; its size stands in the 8 bytes that R335 does not name. -/
def State.versionBytes (s : State) (slot : Nat) (v : Version) : Bytes :=
  leBytes 1 v.state.code ++ zeros 1 ++ leBytes 2 v.num ++ leBytes 2 v.rank ++ zeros 2 ++ leBytes 4 (s.verRefs slot v.num) ++ zeros 4 ++
    leBytes 8 v.base ++ padTo 48 v.digest ++ padTo 48 v.resDigest ++ leBytes 8 v.size

/-- An adapter slot's entry: its versions, then in the next record the number of the newest one. -/
def State.slotBytes (s : State) (i : Nat) : Bytes :=
  let a := s.adapter i
  padTo 64 (leBytes 1 (bitAt 0 a.retired) ++ leBytes 1 ((a.versions.findIdx? fun v => v.state = .current).getD 0xFF)) ++
    padTo 512 ((a.versions.take 4).flatMap (s.versionBytes i) ++ padTo 128 (zeros 2 ++ leBytes 2 a.last))

/-- A slot from its entry. A version that was loading has no load on the restoring module and is FREE. -/
def slotOfBytes (b : Bytes) : AdapterSlot :=
  let r := fun (i : Nat) => sub b (64 + 128 * i) 128
  let vs := (List.range 4).filterMap fun i =>
    let x := r i
    let st := fld x 0 1
    if st = 2 || st = 3 then
      some { num := fld x 2 2, state := if st = 2 then .current else .draining, rank := fld x 4 2, base := fld x 16 8, size := fld x 120 8
             digest := sub x 24 48, resDigest := sub x 72 48, loaded := false }
    else none
  let last := match (List.range 4).find? fun i => fld (r i) 0 1 = 0 with | some i => fld (r i) 2 2 | none => fld (r 3) 2 2
  { last := last, installed := last ≠ 0 || vs ≠ [], retired := bit (fld b 0 1) 0, versions := vs }

/-- Section 4. -/
def State.engineSection (s : State) : Bytes :=
  padTo 64 (leBytes 8 s.srv.stepSeq ++ leBytes 8 s.srv.arrival ++ leBytes 8 s.recs.next ++ leBytes 8 s.recs.blockNext ++ leBytes 8 s.recs.launchGsc) ++
    (List.range 4096).flatMap (fun c => (s.srv.customers.find .init c).bytes) ++ (List.range 16384).flatMap s.slotBytes

/-- A customer from its record. -/
def customerOf (b : Bytes) : Customer :=
  { enabled := bit (fld b 0 1) 0, refill := fld b 4 4, burst := fld b 8 4, maxWaitUs := fld b 12 4, overdraft := fld b 16 4
    balance := sgn 64 (fld b 24 8), served := fld b 32 8, win := fld b 40 8 }

/-- The engine's counters, customers and adapter slots from section 4. Every step before a save is drained (R334), here and on every other
module of the job. -/
def State.restoreEngine (s : State) (b : Bytes) : State :=
  let s := s.withSrv { s.srv with
    stepSeq := fld b 0 8, arrival := fld b 8 8
    customers := ((List.range 4096).map fun c => (c, customerOf (sub b (64 + 64 * c) 64))).filter fun e => e.2 ≠ .init
    adapters := ((List.range 16384).map fun i => (i, slotOfBytes (sub b (262208 + 576 * i) 576))).filter fun e => e.2 ≠ .init }
  let last := if fld b 0 8 = 0 then none else some (fld b 0 8 - 1)
  let s := { s with fab := { s.fab with clearStep := last } }
  s.withRecs { s.recs with next := fld b 16 8, blockNext := fld b 24 8, launchGsc := fld b 32 8, drainedTo := last }

/-! ### The save image (R335) -/

/-- The sections: type, argument, bytes. -/
def State.saveSections (s : State) : List (Nat × Nat × Bytes) :=
  match s.image with
  | none => []
  | some i =>
    s.coreList.map (fun c => (1, c, s.coreSection c)) ++
      (s.coreList.filterMap fun c =>
        let l := s.sliceOffs c
        if l = [] then none else some (2, c, l.map fun o => Mem.get s.ss (ssAddr c o))) ++
      (i.decls.filterMap fun d => if d.content = 2 then none else some (3, d.region, s.farGet d.region 0 (s.regionBytes d.region))) ++
      [(4, 0, s.engineSection),
       (5, 0, (i.decls.filter fun d => d.content = 2).flatMap fun d => leBytes 4 d.region ++ padTo 48 (s.rmSlot d.slot).digest),
       (6, 0, s.recs.manifest)]

/-- The sections with their offsets, each at the next multiple of 64; and where they end. -/
def layOut : List (Nat × Nat × Bytes) → Nat → List (Nat × Nat × Nat × Bytes) × Nat
  | [], o => ([], o)
  | (t, a, b) :: l, o =>
    let r := layOut l (up64 (o + b.length))
    ((t, a, o, b) :: r.1, r.2)

/-- The save engine's accesses to the regions a save image holds, background traffic (R201). -/
def State.saveTraffic (s : State) (write : Bool) : State :=
  match s.image with
  | none => s
  | some i => i.decls.foldl (fun s d =>
      if d.content = 2 then s else s.background .save (s.farRegion d.region) 0 (s.regionBytes d.region) write) s

/-- The header, the section table and the sections. -/
def State.saveBody (s : State) : Bytes :=
  let ss := s.saveSections
  let l := layOut ss (up64 (128 + 24 * ss.length))
  let head := [0x4E#8, 0x44#8, 0x53#8, 0x56#8] ++ leBytes 2 1 ++ leBytes 2 ss.length ++ leBytes 8 (l.2 + 160) ++ leBytes 8 s.recs.savedTick ++
    leBytes 8 s.srv.stepSeq ++ (match s.image with | some i => padTo 48 i.digest | none => zeros 48) ++ padTo 48 s.recs.manifestDigest
  let tbl := l.1.flatMap fun x => leBytes 2 x.1 ++ leBytes 2 x.2.1 ++ zeros 4 ++ leBytes 8 x.2.2.1 ++ leBytes 8 x.2.2.2.length
  l.1.foldl (fun b x => padTo x.2.2.1 b ++ x.2.2.2) (head ++ tbl)

/-- The save image, and the state after the signature. -/
def State.saveImage (s : State) : Bytes × State :=
  let body := s.saveBody
  let body := padTo (up64 body.length) body
  let x := s.sign body
  (body ++ sha384 body ++ zeros 16 ++ x.1.1 ++ x.1.2, x.2)

/-! ### Reading a save image (R336) -/

/-- The section of a type and argument. -/
def saveSect (b : Bytes) (type arg : Nat) : Option Bytes :=
  ((List.range (fld b 6 2)).find? fun i => fld b (128 + 24 * i) 2 = type && fld b (130 + 24 * i) 2 = arg).map fun i =>
    sub b (fld b (136 + 24 * i) 8) (fld b (144 + 24 * i) 8)

/-- Whether an image has the form and the sections of this job's save images. -/
def State.saveForm (s : State) (b : Bytes) : Bool :=
  288 ≤ b.length && sub b 0 4 = [0x4E#8, 0x44#8, 0x53#8, 0x56#8] && fld b 4 2 = 1 && fld b 8 8 = b.length &&
    128 + 24 * fld b 6 2 ≤ b.length - 160 &&
    (List.range (fld b 6 2)).all (fun i => fld b (136 + 24 * i) 8 + fld b (144 + 24 * i) 8 ≤ b.length - 160) &&
    (match s.image with
     | none => false
     | some im =>
       s.coreList.all (fun c => (saveSect b 1 c).any fun x =>
         x.length = 26176 + eltSize s.exact * 16384 + 2097152 + 2 * (im.cursors c).length) &&
       s.coreList.all (fun c => ((saveSect b 2 c).getD []).length = (s.sliceOffs c).length) &&
       im.decls.all (fun d => d.content = 2 || (saveSect b 3 d.region).any fun x => x.length = s.regionBytes d.region) &&
       (saveSect b 4 0).any (fun x => x.length = 64 + 4096 * 64 + 16384 * 576) &&
       (saveSect b 5 0).any (fun x => x.length % 52 = 0) && (saveSect b 6 0).isSome)

/-- Whether section 5 names RESIDENT slots with the job's cassette digests. -/
def State.saveModels (s : State) (b : Bytes) : Bool :=
  let x := (saveSect b 5 0).getD []
  match s.image with
  | none => false
  | some i => (List.range (x.length / 52)).all fun k =>
      i.decls.any fun d => d.region = fld x (52 * k) 4 && d.content = 2 && (s.rmSlot d.slot).state = .resident &&
        (s.rmSlot d.slot).digest = sub x (52 * k + 4) 48

/-- The first condition of R336 that fails: DIGEST for a digest or a model that differs, RANGE for the rest. -/
def State.restoreCheck (s : State) (b : Bytes) : Option Result :=
  let m := s.manifest
  let x := (saveSect b 6 0).getD []
  if !s.saveForm b then some .range
  else if sha384 (b.take (b.length - 160)) ≠ sub b (b.length - 160) 48 then some .digest
  else if (match s.image with | some i => i.digest | none => []) ≠ sub b 32 48 then some .digest
  else if sha384 x ≠ sub b 80 48 then some .digest
  else if sub x 8 56 ≠ sub m 8 56 || x.drop 128 ≠ m.drop 128 || sub x 72 4 ≠ sub m 72 4 then some .range
  else if !s.saveModels b then some .digest
  else none

/-- Writes every section; ACTIVE requests pin their models again. -/
def State.restoreAll (s : State) (b : Bytes) : State :=
  let s := { s with flights := [], ssLines := [], ssLost := [] }
  let s := s.coreList.foldl (fun s c => s.restoreCore c ((saveSect b 1 c).getD [])) s
  let s := s.coreList.foldl (fun s c =>
    ((s.sliceOffs c).zip ((saveSect b 2 c).getD [])).foldl (fun s e => { s with ss := s.ss.set (ssAddr c e.1) e.2 }) s) s
  let ds := match s.image with | some i => i.decls | none => []
  let s := ds.foldl (fun s d => if d.content = 2 then s else s.farPut d.region 0 ((saveSect b 3 d.region).getD [])) s
  let s := (s.restoreEngine ((saveSect b 4 0).getD [])).takeRecords
  let s := s.srv.reqs.foldl (fun s e => if e.2.wasActive then s.pin e.2.par.modelIx true else s) s
  s.withRecs { s.recs with savedTick := fld b 16 8 }

end Sys2Proof.Machine
end

