-- ==== Sys2Proof/Machine/Jobs.lean ====
section
/-! DEFINITION. Loading, arming, launching, pausing, saving, restoring, unloading and stopping a job (R29, R40, R49, R94, R238, R239,
R333 to R336, R380, R402 to R405, R421, R422, R431, R468, R488). -/
namespace Sys2Proof.Machine

/-! ### JOB_LOAD (R238, R239, R380, R398, R431, R468) -/

/-- The rank table's first entry that breaks R380; 0xFFFF_FFFF where only the module's own address is missing. -/
def rankBad (b : Bytes) (modules own : Nat) : Option Nat :=
  let e := fun i => fld b (4 * i) 4
  match (List.range 262144).find? fun i =>
    if i < modules then !bit (e i) 31 || (List.range i).any fun j => e j % 2 ^ 18 = e i % 2 ^ 18 else bit (e i) 31 with
  | some i => some i
  | none => if (List.range modules).any fun i => e i % 2 ^ 18 = own then none else some 0xFFFFFFFF

/-- The ranks' addresses. -/
def ranksOf (b : Bytes) (modules : Nat) : Map Nat := (List.range modules).map fun i => (i, fld b (4 * i) 4 % 2 ^ 18)

/-- The rank of an address. -/
def rankAt (l : Map Nat) (addr : Nat) : Nat := match l.find? fun e => e.2 = addr with | some e => e.1 | none => 0

/-- The lead's rank by R398's default: the lowest address. -/
def lowestRank (l : Map Nat) : Nat := (l.foldl (fun (m : Nat × Nat) e => if e.2 < m.2 then (e.1, e.2) else m) (0, 2 ^ 32)).1

/-- The fabric block knows the job's ranks; alignment to its lead begins anew. -/
def State.joinRanks (s : State) (l : Map Nat) (digest : Bytes) (rank lead : Nat) : State :=
  s.withFab { s.fab with
    ranks := l, ranksDigest := digest, moduleCount := l.length, rank := rank, lead := rank = lead, leadAddr := l.find 0 lead
    leadRank := lead, aligned := false, good := 0, offsetPs := 0, beaconSeq := 0, beaconDue := s.gsc, beaconAt := s.gsc, launch := none
    startAt := none, clearStep := none, reports := [], rxCount := [], e2eSeen := [] }

/-- A CONTENT 0 region is zeroed. -/
def State.zeroRegion (s : State) (r : Nat) : State :=
  let x := s.farRegion r
  let hit := fun (k : Nat) =>
    let b := k / 960 % 2 ^ 25; let c := k / 960 / 2 ^ 25 / 16
    x.ctrlFirst ≤ c && c < x.ctrlFirst + x.ctrlCount && x.localBase ≤ b && b < x.localBase + x.blocks
  { s with far := { s.far with mem := s.far.mem.filter fun e => !hit e.1 } }

/-- The initialisers of a target, in order. -/
def Image.initsOf (i : Image) (t : Nat) : List InitEnt := i.inits.filter fun e => e.target = t

/-- The bytes the load writes: zeroed regions, then far and stacked initialisers (R234, R237). -/
def State.loadBytes (s : State) (i : Image) : State :=
  let s := i.decls.foldl (fun s d => if d.content = 0 then s.zeroRegion d.region else s) s
  let s := (i.initsOf 1).foldl (fun s e =>
    { s with ss := s.ss.write (ssAddr e.unit e.addr) e.data, ssErr := errsAfter s.ssErr (ssAddr e.unit e.addr) e.data.length }) s
  (i.initsOf 2).foldl (fun s e => s.farPut e.unit e.addr e.data) s

/-- The resident-model slots the job names. -/
def Image.models (i : Image) : List Nat := ((i.decls.filter fun d => d.content = 2).map fun d => d.slot).eraseDups

/-- JOBS of the job's slots changes (R259). -/
def State.countJobs (s : State) (i : Image) (up : Bool) : State :=
  i.models.foldl (fun s k => s.setRmSlot k { s.rmSlot k with jobs := if up then (s.rmSlot k).jobs + 1 else (s.rmSlot k).jobs - 1 }) s

/-- The instruction store of a core is written (R96). -/
def State.loadCore (s : State) (b : Bytes) (v : LoadEnv) (c : Nat) : State :=
  let l := sections b
  let r := roleOf l v c
  let len := match roleSect l r with | some x => fld x.data 2 2 | none => 0
  s.setCore c { s.core c with code := coreCode l v c, codeLen := len, role := r }

/-- The region table (R208). -/
def regionTable (t : List (Nat × FarRegion)) : Map FarRegion := t.foldl (fun m e => m.put e.1 e.2) []

/-- The effects of a load that has passed every check. -/
def State.loadJob (s : State) (b : Bytes) (v : LoadEnv) (t : List (Nat × FarRegion)) (ranks : Map Nat) (rd : Bytes) (lead : Nat) : State :=
  let i := imageOf b v lead
  let s := s.joinRanks ranks rd v.rank lead
  let s := { s with
    image := some i, queues := queuesOf b v.grade, job := .init
    far := { s.far with regions := regionTable t, bgEnlarged := bit (fld b 0x13 1) 0 } }
  let s := s.withSrv { Serve.init with rq := s.srv.rq, cq := s.srv.cq }
  let s := s.withRecs { s.recs with marks := [], drainedTo := none, manifest := [], manifestDigest := [] }
  let s := v.cores.foldl (fun s c => s.loadCore b v c) (s.loadBytes i)
  (s.countJobs i true).setJob .loaded

/-- Whether the life cycle and the owner allow a load (R468). -/
def State.loadAllowed (s : State) : Bool :=
  match s.sec.fuses.lc with
  | 1 => true
  | 3 => s.sec.owner.isSome
  | 4 => true
  | _ => false

def jobLoad (v : HostView) : CmdSpec where
  op := 0x0101
  len := fun n => 32 ≤ n && n ≤ 1056 && n % 16 = 0
  fields := fun b =>
    let n := fld b 28 2; let m := fld b 12 4
    b.length = 32 + 16 * n && n ≤ 64 && zeroAt b 30 2 && sgOk (fld b 0 8) (fld b 8 4) && 1 ≤ m && m ≤ 262144 &&
      (fld b 24 4 < m || fld b 24 4 = 0xFFFFFFFF) && (List.range n).all (fun i => zeroAt b (34 + 16 * i) 6) &&
      v.scatterOk (fld b 0 8) (fld b 8 4)
  allowed := fun s => s.job.state = .idle && s.pace.calValid && !s.far.degraded && s.fab.addrValid && s.loadAllowed
  wakes := true
  act := fun s _ p =>
    let m := fld p 12 4
    match v.read (fld p 16 8) 0x100000 with
    | none => .done s.dmaFailed (.bad .state 0x0C05)
    | some rt =>
      match rankBad rt m s.fab.addr with
      | some e => .done s { result := .range, sect := 0xFE, entry := e }
      | none =>
        match (v.scatter (fld p 0 8) (fld p 8 4)).bind v.gather with
        | none => .done s.dmaFailed (.bad .state 0x0C05)
        | some b =>
          let ranks := ranksOf rt m
          let env : LoadEnv :=
            { grade := s.grade, gridW := s.gridW, modules := m, rank := rankAt ranks s.fab.addr
              given := (List.range (fld p 28 2)).map fun i => (fld p (32 + 16 * i) 2, sgn 64 (fld p (40 + 16 * i) 8)) }
          match s.checkImage b env with
          | .inr f => .done s { result := f.result, fault := f.code, sect := f.sect, entry := f.entry }
          | .inl t =>
            let lead := if fld p 24 4 = 0xFFFFFFFF then lowestRank ranks else fld p 24 4
            .done (s.loadJob b env t ranks (sha384 rt) lead) (.ok (imgDigest b))

/-! ### JOB_ARM (R315, R329, R402, R431) -/

/-- R402's condition: the ports toward the parent and the children are ACTIVE, and the module is ALIGNED. Which ports lead to children,
the neighbours' tables tell (R398, log entry 98). -/
def State.fabricReady (s : State) : Bool :=
  !s.multi || (s.alignedNow && (s.fab.lead || s.parentPort.any s.goodPort) && (List.range 16).all fun p => !Config.leadsHere s.gsc p || s.goodPort p)

/-- Whether a valid heartbeat has arrived within FENCE_MS. -/
def State.heartbeatFresh (s : State) : Bool := s.host.hbEver && s.gsc - s.host.fenceStart < s.host.fenceMs * 1000000

def jobArm : CmdSpec where
  op := 0x0103
  len := (· = 0)
  fields := fun _ => true
  allowed := fun s =>
    s.job.state = .loaded && (s.stepCount = 0 || (s.srv.cfg.isSome && s.recs.enable)) &&
      (match s.image with | some i => i.models.all fun k => (s.rmSlot k).state = .resident | none => false) && s.fabricReady &&
      (if s.host.fenceMs = 0 then !s.multi else s.heartbeatFresh)
  wakes := true
  act := fun s _ _ =>
    let s := s.takeManifest.setJob .armed
    .done s (.ok s.recs.manifestDigest)

/-! ### Launch and resume (R40, R403, R431) -/

/-- LEAD_NS in force. -/
def leadNs (b : Bytes) : Nat := if fld b 0 8 = 0 then 1000000 else fld b 0 8

/-- The launch count is fixed; the other ranks are told, or the command is answered at once (R403, R431). -/
def State.announce (s : State) (ch : Nat) (b : Bytes) : Verdict :=
  let l := s.gsc + leadNs b
  let s := s.withFab { s.fab with startAt := some l, launchAt := l }
  if s.multi then
    let digest := match s.image with | some i => i.digest | none => []
    let s := s.withFab { s.fab with launch := some { at_ := l, chan := ch, accepted := [], answered := false } }
    .goOn (s.otherRanks.foldl (fun s r => s.sendMsg r 3 0xFFFD (.launch l digest s.recs.manifestDigest s.fab.ranksDigest)) s)
  else .done s (.ok (leBytes 8 l))

def launchSpec (op : Nat) (ok : State → Bool) : CmdSpec where
  op := op
  len := (· = 8)
  fields := fun b => fld b 0 8 = 0 || (100000 ≤ fld b 0 8 && fld b 0 8 ≤ 1000000000)
  allowed := fun s => ok s && (!s.multi || s.fab.lead) && s.pace.calValid
  wakes := true
  act := fun s ch b => s.announce ch b

def jobLaunch : CmdSpec := launchSpec 0x0104 fun s => s.job.state = .armed
def jobResume : CmdSpec := launchSpec 0x0108 fun s => s.job.state = .paused && !s.job.ended && (s.srv.cfg.isNone || s.recs.enable)

/-- A core at launch (R94): its registers, its entry bundle, its store's initialisers. -/
def State.launchCore (s : State) (i : Image) (c : Nat) : State :=
  let k := s.core c
  let ws := ((i.initsOf 0).filter fun e => e.core = c).foldl (fun (m : Mem) e => m.write e.addr e.data) []
  s.setCore c { Core.init with
    code := k.code, codeLen := k.codeLen, role := k.role, ws := ws
    pc := (i.roles.find { entry := 0, length := 0 } k.role).entry }

/-- The counters cleared at launch (R37, R126, R217, R376, R412). -/
def State.clearCounters (s : State) : State :=
  let s := s.clearMem
  { s with
    coreRegs := .init
    pace := { s.pace with tsCount := 0, tsLast := none, tsHeldNs := 0 }
    ports := s.ports.map fun e => (e.1, { e.2 with count := [], retrains := 0 })
    fab := { s.fab with fenceDrops := 0, discards := 0 } }

/-- The job is RUNNING: every region issues its first tick, the serving engine's boundary opens (R49, R272). -/
def State.startTicks (s : State) (t : Nat) : State :=
  let s := s.withFab { s.fab with startAt := none, launch := none }
  ((s.setJob .running).firstTicks t).openBoundary

/-- The launch of an ARMED job. -/
def State.launch (s : State) (i : Image) (at_ : Nat) : State :=
  let s := s.clearCounters
  let s := s.coreList.foldl (fun s c => s.launchCore i c) s
  let s := s.withRecs { s.recs with next := 0, blockNext := 0, launchGsc := at_ }
  { s with flights := [], ssLines := [], ssLost := [] }.startTicks 0

/-- The resume of a PAUSED one: every core goes on from its saved pc. -/
def State.resume (s : State) : State :=
  let s := s.coreList.foldl (fun s c => s.setCore c { s.core c with halted := false }) s
  s.startTicks (s.recs.savedTick + 1)

/-- Whether the lead still lacks an acceptance. -/
def State.launchPending (s : State) : Bool :=
  match s.fab.launch with | some l => s.otherRanks.any (fun r => !l.accepted.contains r) | none => false

/-- LAUNCH_COUNT: GSC reaches the launch or resume count. -/
def execLaunchCount (s : State) : Out State :=
  match s.fab.startAt, s.image with
  | some at_, some i =>
    if !s.startable || s.stop.isSome || s.launchPending then .next s
    else
      let s := s.wake.advanceTo at_
      .next (if s.job.state = .armed then s.launch i at_ else s.resume)
  | _, _ => .next s

/-! ### Pause, save tick, end (R103, R333, R334) -/

def jobPause : CmdSpec where
  op := 0x0105
  len := (· = 8)
  fields := fun _ => true
  allowed := fun s => s.job.state = .running && s.srv.cfg.isSome && !s.job.pausePending
  wakes := true
  act := fun s _ b =>
    let s := { s.withSrv { s.srv with pauseAt := some (fld b 0 8) } with job := { s.job with pausePending := true } }
    .done s.runBoundary .ok

/-- Whether every core has halted and everything of the tick domain has completed. -/
def State.quiet (s : State) : Bool := s.coreList.all s.quietCore

/-- Whether every queue transfer has completed: nothing pushed is uncompleted. -/
def State.queuesDone (s : State) : Bool := s.queues.all fun e => e.2.reqs = [] && (!e.2.kind.pushes || e.2.cc = e.2.pushed)

/-- The last tick in which some core had something left to do. -/
def State.lastBusy (s : State) : Nat := s.coreList.foldl (fun m c => max m (s.core c).busyTo) 0

/-- Every region stands at tick `t` and every core at the bundle after its HALT. -/
def State.settleTicks (s : State) (t : Nat) : State :=
  let s := s.coreList.foldl (fun s c => s.setCore c (s.core c).advance) s
  (s.mapRegions fun x => { x with tickCount := t, elapsed := false, gate := none }).withRecs { s.recs with savedTick := t }

/-- SAVE_TICK: after a pause descriptor every core has halted (R334). -/
def execSaveTick (s : State) : Out State :=
  if s.job.state ≠ .running || s.stop.isSome || !s.srv.paused || s.srv.halted || !s.quiet || !s.queuesDone then .next s
  else
    let s := (s.settleTicks s.lastBusy).flushChecks.closeBlock
    .next (s.withSrv { s.srv with halted := true }).settlePause

/-- JOB_END: every core has halted outside a pause, and every transfer has completed (R103, R421). -/
def execJobEnd (s : State) : Out State :=
  if s.job.state ≠ .running || s.stop.isSome || s.srv.paused || !s.quiet || !s.queuesDone then .next s
  else
    let s := (s.settleTicks s.lastBusy).flushChecks.closeBlock
    let s := s.withSrv { s.srv with boundary := false, stage4 := false, pauseAt := none, fetchStop := true }
    .next ({ s with job := { s.job with ended := true, pausePending := false } }.setJob .paused).casBoundary

/-! ### Save and restore (R335, R336) -/

def sgFields (v : HostView) (b : Bytes) : Bool := sgOk (fld b 0 8) (fld b 8 4) && v.scatterOk (fld b 0 8) (fld b 8 4)

def jobSave (v : HostView) : CmdSpec where
  op := 0x0106
  len := (· = 12)
  fields := sgFields v
  allowed := jobIn [.paused]
  wakes := true
  act := fun s _ b =>
    match v.scatter (fld b 0 8) (fld b 8 4) with
    | none => .done s.dmaFailed (.bad .state 0x0C05)
    | some l =>
      let x := (s.putRecords.saveTraffic false).saveImage
      let n := x.1.length
      if scatterLen l < n then .done s { result := .noSpace, payload := leBytes 8 n }
      else .done (x.2.scatterWrite l x.1) (.ok (leBytes 8 n))

def jobRestore (v : HostView) : CmdSpec where
  op := 0x0107
  len := (· = 12)
  fields := sgFields v
  allowed := jobIn [.loaded]
  wakes := true
  act := fun s _ p =>
    match (v.scatter (fld p 0 8) (fld p 8 4)).bind v.gather with
    | none => .done s.dmaFailed (.bad .state 0x0C05)
    | some all =>
      let b := all.take (fld all 8 8)
      match s.restoreCheck b with
      | some r => .done s (.of r)
      | none =>
        let s := (s.takeManifest.restoreAll b).saveTraffic true
        let s := (s.mapRegions fun x => { x with tickCount := s.recs.savedTick, gate := none }).withSrv { s.srv with fetchStop := true, paused := true }
        .done (s.setJob .paused) .ok

/-! ### Unload and stop (R431) -/

/-- The blocks of a job that is unloaded: those whose steps are drained are still signed and sealed afterwards; one whose steps no clear report
covers gets no seal, so that its records are void (R326; DESIGN CHOICE, log entry 183). -/
def State.leaveBlocks (s : State) : State :=
  s.withRecs { s.recs with
    marks := [], drainedTo := none, opened := none, closeDue := false
    blockNext := s.recs.blockNext + s.recs.opened.toList.length
    staged := (s.recs.staged ++ s.recs.opened.toList).filterMap fun b =>
      if b.drained || s.stepDrained b.lastStep then some { b with drained := true } else none }

/-- The job's claims are given up: regions, JOBS, the pins of live requests, SELF, ENDED and the fault fields. -/
def State.unload (s : State) (i : Image) : State :=
  let s := s.srv.reqs.foldl (fun s e => if e.2.wasActive then s.pin e.2.par.modelIx false else s) s
  let s := s.countJobs i false
  let s := s.withSrv { Serve.init with rq := s.srv.rq, cq := s.srv.cq.map fun e =>
    (e.1, { e.2 with held := e.2.held.map fun h => { h with ends := none } }) }
  let s := s.leaveBlocks
  let s := s.withFab { s.fab with
    ranks := [], ranksDigest := [], moduleCount := 0, rank := 0, lead := false, leadAddr := 0, leadRank := 0, aligned := false, good := 0
    launch := none, startAt := none, fenceSelf := false, clearStep := none, reports := [] }
  { s with
    image := none, queues := [], stop := none, stopTicks := []
    far := { s.far with regions := [], bgEnlarged := false }
    job := { s.job with ended := false, pausePending := false, fault := 0#16, faultRank := 0#32, faultGsc := 0 } }.setJob .idle

def jobUnload : CmdSpec where
  op := 0x0109
  len := (· = 0)
  fields := fun _ => true
  allowed := fun s =>
    jobIn [.loaded, .armed, .paused, .faulted] s || (s.job.state = .fenced && ((s.mgmtPort 0).hbValid || (s.mgmtPort 1).hbValid))
  wakes := true
  act := fun s _ _ => match s.image with | some i => .done (s.unload i) .ok | none => .done s .ok

def jobStop : CmdSpec where
  op := 0x010A
  len := (· = 0)
  fields := fun _ => true
  allowed := fun s => s.job.state.active
  wakes := true
  act := fun s _ _ => .done (s.jobFatal 0x0C01) .ok

/-! ### The job-fatal stop (R405, R422, R488) -/

/-- Queue requests that nothing has accepted yet are discarded. -/
def State.dropUnaccepted (s : State) : State :=
  { s with queues := s.queues.map fun e => (e.1, { e.2 with reqs := e.2.reqs.filter fun r => r.accepted ≠ [] || r.sent ≠ 0 }) }

/-- Commands under way answer STATE (R422): loads and unloads of slots and adapters, a margining, an announced launch end with them. -/
def State.failCommands (s : State) : State :=
  let s := s.cas.loads.foldl (fun s l =>
    match l.adapter with
    | some a => s.failAdapter l a.1 a.2 (.of .state)
    | none => if l.chan.isNone || l.phase = .failed then s else s.failLoad l .state 0 casNone) s
  let s := s.withCas { s.cas with unloads := [] }
  let s := { s with ports := s.ports.map fun e => (e.1, { e.2 with margin := none }) }
  (List.range 10).foldl (fun s ch =>
    match s.cmdOf ch with
    | some c => if c.executing then s.respond ch (.of .state) else s
    | none => s) s

/-- FENCE PORTS and SELF are set (R410). -/
def State.fenceAll (s : State) : State := s.withFab { s.fab with fence := 0xFFFF, fenceSelf := true }

/-- Job-stop units go to every other rank (R405). -/
def State.sendStops (s : State) : State :=
  s.otherRanks.foldl (fun s r => s.sendMsg r 3 0xFFFB (.jobStop s.fab.rank s.job.fault.toNat)) s

/-- The sequence of R488 for the fault that has been raised. Changed check granules are written back as at every end of a job (R206); what
waited for a step boundary waits no longer (R257). -/
def State.fatalStop (s : State) : State :=
  match s.stop with
  | none => s
  | some x =>
    if !s.job.state.active then s
    else
      let s := s.dropUnaccepted.fenceAll
      let s := if x.jobStopped then s else s.sendStops
      let s := (s.failRequests.voidBlocks s.job.fault.toNat).flushChecks
      let s := s.withFab { s.fab with launch := none, startAt := none }
      ((s.setJob (if x.selfFence then .fenced else .faulted)).failCommands).casBoundary

/-- JOB_FATAL_STOP: the module carries out the stop. -/
def execJobFatalStop (s : State) : Out State := .next s.fatalStop

/-! ### Rows -/

/-- JOB_LOAD; `v` is what DMA reads find. -/
def execJobLoad (ch : Nat) (v : HostView) (s : State) : Out State := (jobLoad v).row ch s
def execJobArm (ch : Nat) (s : State) : Out State := jobArm.row ch s
def execJobLaunch (ch : Nat) (s : State) : Out State := jobLaunch.row ch s
def execJobPause (ch : Nat) (s : State) : Out State := jobPause.row ch s
/-- JOB_SAVE; `v` is what DMA reads find. -/
def execJobSave (ch : Nat) (v : HostView) (s : State) : Out State := (jobSave v).row ch s
/-- JOB_RESTORE; `v` is what DMA reads find. -/
def execJobRestore (ch : Nat) (v : HostView) (s : State) : Out State := (jobRestore v).row ch s
def execJobResume (ch : Nat) (s : State) : Out State := jobResume.row ch s
def execJobUnload (ch : Nat) (s : State) : Out State := jobUnload.row ch s
def execJobStop (ch : Nat) (s : State) : Out State := jobStop.row ch s

end Sys2Proof.Machine
end

