-- ==== Sys2Proof/Machine/Mirror.lean ====
section
/-! DEFINITION. The status mirror, SMBus, the management ports' heartbeats and commands, the fence timer (R420, R442 to R449). -/
namespace Sys2Proof.Machine

/-! ### The status mirror (R420) -/

/-- ORDERING. -/
def orderingByte (s : State) : Nat := s.part.ordering

/-- JOB_FLAGS. -/
def State.jobFlags (s : State) : Nat := bitAt 0 s.job.ended + bitAt 1 s.job.pausePending + bitAt 2 s.fab.lead

/-- The GEAR byte. -/
def State.gearByte (s : State) : Nat := s.pace.gearNow % 16 + bitAt 4 s.pace.change.isSome + bitAt 5 s.power.brake + bitAt 6 s.pace.clamped

/-- The CLOCK byte. -/
def State.clockByte (s : State) : Nat := bitAt 0 s.tsActive + bitAt 1 s.pace.refLost + bitAt 2 s.pace.calValid + bitAt 3 s.alignedNow

/-- The FAR byte. -/
def State.farByte (s : State) : Nat := s.far.rate % 4 + bitAt 2 s.far.degraded + bitAt 3 s.far.hot

/-- The MGMT byte. -/
def State.mgmtByte (s : State) : Nat :=
  bitAt 0 (s.mgmtPort 0).hbValid + bitAt 1 (s.mgmtPort 1).hbValid + bitAt 2 s.host.hbLost + bitAt 3 s.fab.fenceSelf

/-- MB_BUSY. -/
def State.busyByte (s : State) : Nat := (List.range 8).foldl (fun n c => n + bitAt c (s.chan c).busy) 0

/-- HB_AGE_MS. -/
def State.hbAge (s : State) : Nat := min 65535 ((s.gsc - s.host.fenceStart) / 1000000)

/-- LINK_ACTIVE. -/
def State.activePorts (s : State) : Nat := (List.range 16).foldl (fun n p => n + bitAt p ((s.port p).state = .active)) 0

/-- FIRMWARE: 0 in recovery and when halted (R453, R454). -/
def State.firmware (s : State) : Nat := if s.sec.boot = .running then s.sec.runRelease else 0

/-- FAB_ADDR. -/
def State.fabAddrWord (s : State) : Nat := s.fab.addr + bitAt 18 s.fab.addrValid

/-- Bytes 0x000 to 0x07B of the mirror. -/
def State.mirrorHead (s : State) : Bytes :=
  [0x4E#8, 0x44#8, 0x4D#8, 0x52#8] ++ leBytes 2 1 ++ leBytes 1 (orderingByte s) ++ [0xB1#8] ++ leBytes 1 1 ++ leBytes 1 s.sec.fuses.lc ++ zeros 2 ++
    leBytes 4 s.firmware ++ padTo 16 s.part.serial ++ leBytes 8 s.gsc ++ leBytes 8 s.tickMin ++ leBytes 1 s.job.state.code ++
    leBytes 1 s.jobFlags ++ leBytes 1 s.gearByte ++ leBytes 1 s.clockByte ++ leBytes 1 s.farByte ++ leBytes 1 s.mgmtByte ++
    leBytes 1 s.busyByte ++ leBytes 1 s.power.mode.code ++ leBytes 2 s.job.fault.toNat ++ zeros 2 ++ leBytes 4 s.job.faultRank.toNat ++
    leBytes 8 s.job.faultGsc ++ leBytes 4 s.host.mpRestarts ++ zeros 4 ++ leBytes 8 (s.srv.stepSeq - 1) ++ leBytes 8 s.recs.next ++
    leBytes 8 s.recs.launchGsc ++ leBytes 4 s.fabAddrWord ++ leBytes 2 s.activePorts ++ leBytes 2 s.fab.fence ++ leBytes 1 s.power.tjMax ++
    leBytes 1 s.power.coolantIn ++ leBytes 1 s.far.caseMax ++ zeros 1 ++ leBytes 2 s.power.vin ++ leBytes 2 s.power.pinW ++
    leBytes 2 s.hbAge ++ leBytes 2 s.host.fenceMs

/-- The 4 KiB mirror. -/
def State.mirror (s : State) : Bytes := padTo 4096 s.mirrorHead

/-! ### SMBus (R449) -/

/-- What a command code returns, by protocol. -/
def State.smbContent (s : State) (code : Nat) : Option (SmbKind × Bytes) :=
  let one := fun (n : Nat) => some (SmbKind.byte, leBytes 1 n)
  let two := fun (n : Nat) => some (SmbKind.word, leBytes 2 n)
  match code with
  | 0x00 => one (orderingByte s)
  | 0x01 => one 0xB1
  | 0x02 => two (s.firmware / 65536)
  | 0x03 => two s.firmware
  | 0x04 => one s.job.state.code
  | 0x05 => one s.mgmtByte
  | 0x06 => one s.power.mode.code
  | 0x07 => one s.gearByte
  | 0x08 => two s.job.fault.toNat
  | 0x10 => one s.power.tjMax
  | 0x11 => one s.power.coolantIn
  | 0x12 => one s.far.caseMax
  | 0x20 => two s.power.vin
  | 0x21 => two s.power.pinW
  | 0x30 => some (.block, padTo 16 s.part.serial)
  | 0x31 => some (.block, leBytes 4 s.fabAddrWord)
  | _ => none

/-- One bit of the SMBus packet error code, x⁸ + x² + x + 1. -/
def pecBit (c : BitVec 8) : BitVec 8 := if c.getLsbD 7 then (c <<< 1) ^^^ 0x07#8 else c <<< 1

/-- The packet error code of the bytes on the bus. -/
def pec (b : Bytes) : BitVec 8 := b.foldl (fun c x => (List.range 8).foldl (fun c _ => pecBit c) (c ^^^ x)) 0#8

/-- The bytes of a read: a block begins with its count; the packet error code ends it when the master clocks one. -/
def smbBytes (addr code : Nat) (k : SmbKind) (b : Bytes) (withPec : Bool) : Bytes :=
  let d := (if k = .block then leBytes 1 b.length else []) ++ b
  if withPec then d ++ [pec (leBytes 1 (2 * addr) ++ leBytes 1 code ++ leBytes 1 (2 * addr + 1) ++ d)] else d

/-- SMBUS_READ: a read of command code `code` at address `addr`; an undefined code, another address or protocol is not acknowledged. -/
def execSmbusRead (addr code : Nat) (k : SmbKind) (withPec : Bool) (s : State) : Out State :=
  let r := match s.smbContent code with
    | some (k', b) => if addr = 0x58 + s.power.straps && k = k' && s.power.supply = .on then some (smbBytes addr code k b withPec) else none
    | none => none
  .next { s with host := { s.host with smbData := r } }

/-- SMBUS_CLOCK_LOW_TIMEOUT: the clock has been low for 25 ms to 35 ms and the module releases the bus. -/
def execSmbusClockLowTimeout (s : State) : Out State := .next { s.advanceTo (s.gsc + 25000000) with host := { s.host with smbData := none } }

/-! ### Management ports (R442) -/

/-- A management port's MAC address. -/
def State.mac (s : State) (p : Nat) : Bytes := padTo 6 (if p = 0 then s.part.mac0 else s.part.mac1)

/-- Its IPv6 link-local address: FE80::/64 and the modified EUI-64 of the MAC address. -/
def State.linkLocal (s : State) (p : Nat) : Bytes :=
  let m := s.mac p
  [0xFE#8, 0x80#8] ++ zeros 6 ++ modAt (m.take 3 ++ [0xFF#8, 0xFE#8] ++ m.drop 3) 0 fun b => b ^^^ 0x02#8

/-- A port's answer to a neighbour solicitation for `target`, as RFC 4861 lays it out (PRESUMED, log entry 191): flags SOLICITED and OVERRIDE, the
target, its link-layer address. No row of the table carries one. -/
def State.neighbourAnswer (s : State) (p : Nat) (target : Bytes) : Option Bytes :=
  if target = s.linkLocal p then some ([136#8, 0#8, 0#8, 0#8, 0x60#8, 0#8, 0#8, 0#8] ++ target ++ [2#8, 1#8] ++ s.mac p) else none

/-! ### Management frames (R444 to R447, R454) -/

/-- Whether a frame of type `typ` is accepted on port `p`: form, serial, MAC and SEQ (R445). -/
def State.frameOk (s : State) (p typ : Nat) (f : Bytes) (last : Nat) : Bool :=
  let n := fld f 6 2
  80 ≤ f.length && sub f 0 4 = mgmtMagic && fld f 4 1 = typ && fld f 5 1 = p && f.length = 80 + n && sub f 8 16 = padTo 16 s.part.serial &&
    sub f (32 + n) 48 = (if s.sec.boot = .recovery then zeros 48 else hmac384 s.mgmtKey (f.take (32 + n))) && last < fld f 24 8

/-- The heartbeat window in ns (R447). -/
def State.hbWindow (s : State) : Nat := (if s.host.fenceMs = 0 then 400 else s.host.fenceMs) * 1000000

/-- An HB_REPLY's body (R444). -/
def State.hbReply (s : State) (mgrTime : Bytes) : Bytes :=
  mgrTime ++ leBytes 8 s.gsc ++ leBytes 1 s.job.state.code ++ leBytes 1 s.mgmtByte ++ leBytes 2 s.job.fault.toNat ++ leBytes 2 s.hbAge ++ zeros 10

/-- HEARTBEAT: a frame `f` on port `p`; an accepted one restarts the fence timer and is answered. In recovery none is answered. -/
def execHeartbeat (p : Nat) (f : Bytes) (s : State) : Out State :=
  if 2 ≤ p then .fault .noSuchMailbox
  else
    let x := s.mgmtPort p
    if s.sec.boot ≠ .running || !s.frameOk p 1 f x.seqHeartbeat || fld f 6 2 ≠ 16 then .next s
    else
      let s := s.setMgmtPort p { x with seqHeartbeat := fld f 24 8, hbValid := true, hbAt := s.gsc }
      let s := { s with host := { s.host with hbLost := false, fenceStart := s.gsc, hbEver := true } }
      .next (s.sendFrame p 2 (s.hbReply (sub f 32 8)))

/-- COMMAND_FRAME: a frame `f` on port `p`; an accepted one is a command on channel 8 + p. While that channel is busy the frame only
sets OVERRUN. -/
def execCommandFrame (p : Nat) (f : Bytes) (s : State) : Out State :=
  if 2 ≤ p then .fault .noSuchMailbox
  else
    let x := s.mgmtPort p
    let n := fld f 6 2; let b := sub f 32 n
    if !s.answers (8 + p) || !s.frameOk p 3 f x.seqCommand || n < 16 || n ≠ 16 + fld b 2 2 || 4064 < fld b 2 2 then .next s
    else
      let s := s.setMgmtPort p { x with seqCommand := fld f 24 8 }
      let c : Cmd :=
        { opcode := fld b 0 2, length := fld b 2 2, reserved := fld b 4 4, tag := BitVec.ofNat 64 (fld b 8 8), payload := b.drop 16
          seq := BitVec.ofNat 32 (fld f 24 8), doorbellGsc := s.gsc, executing := false }
      if (s.chan (8 + p)).busy then .next (s.setChan (8 + p) { s.chan (8 + p) with overrun := true }) else .next (s.submit (8 + p) c)

/-- Whether a job is fenced by the timer. -/
def State.fences (s : State) : Bool := s.host.fenceMs ≠ 0 && s.job.state.active

/-- FENCE_TIMER: the fence timer reaches the heartbeat window. -/
def execFenceTimer (s : State) : Out State :=
  if s.host.hbLost then .next s
  else
    let s := s.advanceTo (s.host.fenceStart + s.hbWindow)
    let s := (s.setMgmtPort 0 { s.mgmtPort 0 with hbValid := false })
    let s := (s.setMgmtPort 1 { s.mgmtPort 1 with hbValid := false })
    let s := { s with host := { s.host with hbLost := true } }.event 0x0C13
    .next (if s.fences then (s.jobFatal 0x0C02).fatalStop else s)

/-- HEARTBEAT_WINDOW: the window passes on port `p` without an accepted heartbeat. -/
def execHeartbeatWindow (p : Nat) (s : State) : Out State :=
  if 2 ≤ p then .fault .noSuchMailbox
  else
    let x := s.mgmtPort p
    if !x.hbValid then .next s else .next ((s.advanceTo (x.hbAt + s.hbWindow)).setMgmtPort p { x with hbValid := false })

end Sys2Proof.Machine
end

