-- ==== Sys2Proof/Machine/Events.lean ====
section
/-! DEFINITION. The event controller, the event log, restarts of the management processor, the watchdog (R428, R432 to R441, R464,
R490, R492). -/
namespace Sys2Proof.Machine

def State.withEvc (s : State) (e : Evc) : State := { s with host := { s.host with evc := e } }
def State.withHost (s : State) (h : HostBlk) : State := { s with host := h }
def State.withPower (s : State) (p : Power) : State := { s with power := p }

/-! ### What the controller presents (R435) -/

/-- The source of EVC_ORDER, forced to level 15 (R436, R437). -/
def srcOrder : Nat := 705

/-- Whether an eligible source has been unclaimed for more than AGE_US. -/
def Source.aged (x : Source) (gsc : Nat) : Bool := x.promoted || (x.ageUs ≠ 0 && x.since + 1000 * x.ageUs < gsc)

/-- The effective level of source `n`. -/
def Source.effLevel (x : Source) (n gsc : Nat) : Nat := if n = srcOrder || x.aged gsc then 15 else x.level

/-- Whether source `n` is one the controller may present over the stack `top`. -/
def Source.presentable (x : Source) (n gsc : Nat) (order : Bool) (stack : List (Nat × Nat)) : Bool :=
  x.enable && x.state = .eligible && (!order || x.effLevel n gsc = 15) &&
    match stack with
    | [] => true
    | t :: _ => t.2 < x.effLevel n gsc

/-- The presented source with its effective level: the highest level, then the lowest number. -/
def State.presented (s : State) : Option (Nat × Nat) :=
  let e := s.host.evc
  e.sources.foldl (fun best x =>
    if x.2.presentable x.1 s.gsc e.order e.stack then
      match best with
      | some b => if b.2 < x.2.effLevel x.1 s.gsc then some (x.1, x.2.effLevel x.1 s.gsc) else best
      | none => some (x.1, x.2.effLevel x.1 s.gsc)
    else best) none

/-! ### The event log (R438 to R441, R490) -/

/-- The code of a source from 64 on (R432). -/
def codeOf (src : Nat) : Nat := src / 64 * 256 + src % 64

/-- An entry of the event log. -/
def logEntry (code : Nat) (fault : Bool) (count gsc : Nat) (a0 a1 : W64) : Bytes :=
  leBytes 2 code ++ leBytes 2 (bitAt 0 fault) ++ leBytes 4 count ++ leBytes 8 gsc ++ leBytes 8 a0.toNat ++ leBytes 8 a1.toNat

/-- EVENT frames go out on the management ports that have a valid heartbeat (R440). -/
def State.eventFrames (s : State) (b : Bytes) : State :=
  [0, 1].foldl (fun s p => if (s.mgmtPort p).hbValid then s.sendFrame p 5 b else s) s

/-- The entries the ring holds. -/
def Evc.evlUsed (e : Evc) : Nat := (e.evlTail + 2 ^ 32 - e.evlHead) % 2 ^ 32

/-- Firmware logs an event (R438, R439): nothing while the ring is disabled; LOST rises when it is full. -/
def State.logEvent (s : State) (b : Bytes) : State :=
  let e := s.host.evc
  let n := ringSize e.evlLog2 8
  if !e.evlEnable then s
  else if n ≤ e.evlUsed then s.withEvc { e with evlLost := satAdd 16 e.evlLost 1 }
  else
    let s := s.dmaWrite (e.evlBase.toNat + 32 * (e.evlTail % n)) b
    ((s.withEvc { e with evlTail := (e.evlTail + 1) % 2 ^ 32 }).sendVector e.evlVector).eventFrames b

/-- EVL_CFG: enabling resets head, tail and LOST, and the fault of the latest module-fatal reset is logged first (R441, R490). -/
def execEvlCfg (v : W32) (s : State) : Out State := s.heard (
  let e := s.host.evc
  let en := bit v.toNat 5
  let e' := { e with evlLog2 := bits v.toNat 4 0, evlVector := bits v.toNat 12 6, evlEnable := en }
  if en && !e.evlEnable then
    let s := s.withEvc { e' with evlHead := 0, evlTail := 0, evlLost := 0, resetLog := none }
    .next (match e.resetLog with
      | some (code, gsc) => s.logEvent (logEntry code true 1 gsc 0 0)
      | none => s)
  else .next (s.withEvc e'))

/-! ### Restarts of the management processor (R428, R436, R464, R492) -/

/-- An ongoing effect of the command on channel `ch` is given up: a load is aborted, an adapter version FREE, an unload that waits
forgotten, a margining ended; a launch that is announced goes on after a restart and is cancelled at a time limit. -/
def State.dropWork (s : State) (ch : Nat) (keepLaunch : Bool) : State :=
  let s := s.cas.loads.foldl (fun s l =>
    if l.chan ≠ some ch then s
    else
      let l' := { l with chan := none }
      let s := s.withCas { s.cas with loads := s.cas.loads.map fun x => if x = l then l' else x }
      match l.adapter with
      | some a => s.failAdapter l' a.1 a.2 (.of .state)
      | none => if l.phase = .failed then s else s.failLoad l' .state 0x080A casNone) s
  let s := s.withCas { s.cas with unloads := s.cas.unloads.filter fun u => u.2 ≠ ch }
  let s := match s.fab.launch with
    | none => s
    | some l =>
      if l.chan ≠ ch || l.answered then s
      else if keepLaunch then s.withFab { s.fab with launch := some { l with answered := true } }
      else s.withFab { s.fab with launch := none, startAt := none }
  { s with ports := s.ports.map fun e => (e.1, match e.2.margin with
      | some m => if m.chan = ch then { e.2 with margin := none } else e.2
      | none => e.2) }

/-- A source after a restart has emptied the stack: one in service is idle, or pending when it was raised again. -/
def Source.unstack (x : Source) (gsc : Nat) (idleWait : Bool) : Source :=
  if x.state = .inService then
    if x.again then { x with state := .pending, again := false, since := gsc }.settle gsc idleWait else { x with state := .idle }
  else x

/-- The management processor restarts alone: 0 watchdog, 1 EVC_ORDER, 2 a firmware request. -/
def State.mpRestart (s : State) (cause : Nat) : State :=
  let s := s.withHost { s.host with order := [], mpRestarts := s.host.mpRestarts + 1 }
  let s := (List.range 10).foldl (fun s ch => if (s.chan ch).busy then (s.dropWork ch true).respond ch (.of .restarted) else s) s
  let e := s.host.evc
  let s := s.withEvc { e with
    stack := [], order := false, sources := e.sources.map fun x => (x.1, x.2.unstack s.gsc e.idleWait) }
  let s := { s with sec := { s.sec with nonce := none } }
  (s.withPower { s.power with lastCause := cause, kickAt := s.gsc }).event 0x0C12 (BitVec.ofNat 64 cause)

/-- TIMEOUT_MS in force (R496). -/
def Power.wdtMs (p : Power) : Nat := max 100 (min 10000 p.wdtTimeoutMs)

/-- MP_WATCHDOG: TIMEOUT_MS passes without a kick. -/
def execMpWatchdog (s : State) : Out State :=
  if s.sec.boot ≠ .running then .next s
  else .next ((s.advanceTo (s.power.kickAt + 1000000 * s.power.wdtMs)).mpRestart 0)

/-- KICK: firmware restarts the watchdog. -/
def execKick (s : State) : Out State := .next (s.withPower { s.power with kickAt := s.gsc })

/-! ### Sources (R434 to R436) -/

/-- EVC_DOORBELL: a write of a source number; 896 and above are ignored. -/
def execEvcDoorbell (src : Nat) (s : State) : Out State :=
  .next (s.raiseSource (src % 1024) { fault := false, gsc := s.gsc, arg0 := 0, arg1 := 0 })

/-- EVC_CLAIM: the processor claims what is presented; firmware answers EVC_ORDER with a restart. -/
def execEvcClaim (s : State) : Out State :=
  match s.presented with
  | none => .next (s.withEvc { s.host.evc with lastClaim := none })
  | some (n, l) =>
    let x := s.source n
    let p := n ≠ srcOrder && x.aged s.gsc
    let s := s.setSource n { x with state := .inService, promoted := p, raises := 0, claimed := x.raises, claimedInfo := x.info }
    let s := s.withEvc { s.host.evc with stack := (n, l) :: s.host.evc.stack, lastClaim := some (n, l, p) }
    .next (if n = srcOrder && s.host.evc.order then s.mpRestart 1 else s)

/-- EVC_DONE: a completion; firmware then logs an event that has a code. One that is not the top of the stack raises EVC_ORDER. -/
def execEvcDone (src : Nat) (s : State) : Out State :=
  let e := s.host.evc
  match e.stack with
  | t :: rest =>
    if t.1 = src then
      let x := s.source src
      let s := s.withEvc { e with stack := rest }
      let y := { x with promoted := false, again := false }
      let s := s.setSource src
        (if x.again then { y with state := .pending, since := s.gsc }.settle s.gsc e.idleWait else { y with state := .idle })
      .next (if 64 ≤ src then
        s.logEvent (logEntry (codeOf src) x.claimedInfo.fault x.claimed x.claimedInfo.gsc x.claimedInfo.arg0 x.claimedInfo.arg1) else s)
    else .next ((s.withEvc { e with stackLog := e.stack, order := true }).event 0x0B01)
  | [] => .next ((s.withEvc { e with stackLog := [], order := true }).event 0x0B01)

/-- EVC_MOD_TIME: MOD_TIME_US passes since source `src` became pending. -/
def execEvcModTime (src : Nat) (s : State) : Out State :=
  let x := s.source src
  if x.state ≠ .pending || x.modTimeUs = 0 then .next s
  else
    let s := s.advanceTo (x.since + 1000 * x.modTimeUs)
    .next (s.setSource src { x with state := .eligible, since := s.gsc })

/-- EVC_AGE_PROMOTION: source `src` has been eligible for more than AGE_US. -/
def execEvcAgePromotion (src : Nat) (s : State) : Out State :=
  let x := s.source src
  if x.state ≠ .eligible || x.ageUs = 0 then .next s
  else .next ((s.advanceTo (x.since + 1000 * x.ageUs + 1)).setSource src { x with promoted := true })

/-- IDLE_WAIT is written (R434). -/
def State.setIdleWait (s : State) (b : Bool) : State :=
  let e := s.host.evc
  s.withEvc { e with idleWait := b, sources := e.sources.map fun x => (x.1, x.2.settle s.gsc b) }

/-! ### What firmware sets at power-up (R437) -/

/-- The codes from `a` to `b`. -/
def codes (a b : Nat) : List Nat := (List.range (b + 1 - a)).map (a + ·)

/-- The codes of R495's table that are job-fatal or module-fatal on some raise. -/
def faultCodes : List Nat :=
  codes 0x0101 0x0109 ++ codes 0x0110 0x0115 ++ [0x0201] ++ codes 0x0301 0x0304 ++ codes 0x0401 0x0407 ++ [0x0501, 0x0502, 0x0506] ++
    codes 0x0601 0x0605 ++ [0x0701, 0x0702] ++ codes 0x0901 0x0903 ++ [0x0A03, 0x0A04] ++ codes 0x0C01 0x0C04 ++ codes 0x0D01 0x0D06

/-- The level firmware gives source `n`. -/
def firmwareLevel (n : Nat) : Nat :=
  if n < 10 then 8 else if n = srcOrder then 15 else if faultCodes.any (fun c => srcOf c = n) then 14 else 4

/-- A source as firmware sets it: an event's, at LEVEL 4, has AGE_US 10,000. The sources of firmware's own timers (10 to 63) and those of
codes no block has count among `every other event`, and every source is enabled (DEDUCED, log entry 186). -/
def firmwareSource (n : Nat) : Source :=
  { Source.init with level := firmwareLevel n, enable := true, ageUs := if firmwareLevel n = 4 then 10000 else 0 }

/-- The sources as Lumoz firmware sets them at power-up. -/
def firmwareSources : Map Source := (List.range 896).map fun n => (n, firmwareSource n)

end Sys2Proof.Machine
end

