-- ==== Sys2Proof/Machine/Host.lean ====
section
/-! DEFINITION. The PCIe function: its resets, the BAR2 window, failed DMA reads, time limits of commands, IDENT and MGMT_CFG (R416,
R417, R419, R427, R431, R504). -/
namespace Sys2Proof.Machine

/-! ### Commands -/

/-- IDENT (R431). -/
def ident : CmdSpec where
  op := 0x0001
  len := (· = 0)
  fields := fun _ => true
  allowed := anyState
  wakes := false
  act := fun s _ _ => .done s (.ok (padTo 16 s.part.serial ++ padTo 8 (s.part.mac0.take 6) ++ padTo 8 (s.part.mac1.take 6) ++ zeros 4))

/-- MGMT_CFG (R446). -/
def mgmtCfg : CmdSpec where
  op := 0x0601
  len := (· = 4)
  fields := fun b => (fld b 0 2 = 0 || (200 ≤ fld b 0 2 && fld b 0 2 ≤ 2000)) && 1024 ≤ fld b 2 2
  allowed := jobIn [.idle, .loaded]
  wakes := false
  act := fun s _ b => .done (s.withHost { s.host with fenceMs := fld b 0 2, udpPort := fld b 2 2 }) .ok

def execIdent (ch : Nat) (s : State) : Out State := ident.row ch s
def execMgmtCfg (ch : Nat) (s : State) : Out State := mgmtCfg.row ch s

/-! ### Time limits (R427, R431, R473, R529) -/

/-- TIMEOUT_S in ns; 0 is 600 s. -/
def timeoutNs (n : Nat) : Nat := (if n = 0 then 600 else n) * 1000000000

/-- A command's time limit in ns. -/
def Cmd.limit (c : Cmd) : Nat :=
  let b := c.payload
  let ms := 1000000
  match c.opcode with
  | 0x0101 => 60000 * ms
  | 0x0103 | 0x0306 | 0x0307 => 100 * ms
  | 0x0104 | 0x0108 => leadNs b + 100 * ms
  | 0x0106 | 0x0107 => 600000 * ms
  | 0x0109 | 0x010B => 1000 * ms
  | 0x0203 => timeoutNs (fld b 64 4)
  | 0x0301 => timeoutNs (fld b 60 4)
  | 0x0302 => timeoutNs (fld b 52 4)
  | 0x0702 | 0x0703 | 0x0704 | 0x0705 | 0x0706 | 0x0709 | 0x070A | 0x070C | 0x070E | 0x070F => 1000 * ms
  | 0x0708 => 180000 * ms
  | 0x0711 => 120000 * ms
  | 0x0805 => fld b 8 4 * 1000 + 10 * ms
  | _ => 10 * ms

/-- COMMAND_TIMEOUT: the limit of the command on channel `ch` passes; it is abandoned and answered TIMEOUT. -/
def execCommandTimeout (ch : Nat) (s : State) : Out State :=
  if 10 ≤ ch then .fault .noSuchMailbox
  else
    match s.cmdOf ch with
    | none => .next s
    | some c =>
      if !s.answers ch then .next s
      else
        let s := s.advanceTo (c.doorbellGsc + c.limit)
        let s := s.withHost { s.host with order := s.host.order.filter fun x => x ≠ ch }
        .next (((s.dropWork ch false).respond ch (.of .timeout)).answerUnknown 10)

/-! ### The BAR2 window (R194, R419) -/

/-- Where an access falls: a far region and offset, or a place of the stacked store; none when it is refused. The flag tells
whether the aperture maps to the stacked store. -/
def State.windowPlace (s : State) (off : Nat) : Option (Sum (Nat × Nat) Nat) × Bool :=
  let x := s.host.win.find .init (off / 2 ^ 30 % 16)
  let a := x.base * 65536 + off % 2 ^ 30
  let running := s.job.state = .armed || s.job.state = .running
  match x.target with
  | 1 =>
    let r := s.farRegion x.region
    (if s.image.isNone || !r.valid || r.size * 65536 ≤ a || (running && !r.host) then none else some (.inl (x.region, a)), false)
  | 2 => (if !s.hasCore (a / sliceSize) || running then none else some (.inr a), true)
  | _ => (none, false)

/-- A refused access is counted. -/
def State.windowRefuse (s : State) (stacked : Bool) : State :=
  let s := s.withHost { s.host with winRefused := satAdd 32 s.host.winRefused 1 }
  if stacked then { s with far := { s.far with ssHostRefused := satAdd 32 s.far.ssHostRefused 1 } } else s

/-- Stores what a read returns. -/
def State.windowData (s : State) (b : Bytes) : State := s.withHost { s.host with winData := b }

/-- WINDOW_ACCESS: a BAR2 access at offset `off`, reading `n` bytes or writing `data`; the window lies over 16 apertures of 1 GiB. A
far-memory write that covers a granule in part reads it first (R419). -/
def execWindowAccess (off n : Nat) (data : Option Bytes) (s : State) : Out State :=
  if s.deaf then .next s
  else
    let s := s.wake
    let r := s.windowPlace off
    .next (match r.1, data with
      | none, none => (s.windowRefuse r.2).windowData (List.replicate n 0xFF#8)
      | none, some _ => s.windowRefuse r.2
      | some (.inl (k, a)), none => ({ s.background .window (s.farRegion k) a n false with free := s.free + n }).windowData (s.farSeen 0 k a n)
      | some (.inl (k, a)), some b =>
        let s := if a % 64 = 0 && b.length % 64 = 0 then s else s.background .window (s.farRegion k) a b.length false
        (s.farPut k a b).background .window (s.farRegion k) a b.length true
      | some (.inr a), none => (s.ssRead (a / sliceSize) a n (s.tickOf (a / sliceSize))).windowData (s.ss.read a n)
      | some (.inr a), some b => { s with ss := s.ss.write a b, ssErr := errsAfter s.ssErr a b.length })

/-! ### The PCIe function (R414, R416, R504) -/

/-- The function's subsystem ID: 0x0000 for ND9-4608-256, 0x0001 for ND9-9216-256, 0x0002 for ND9-4608-224. -/
def State.subsystemId (s : State) : W16 := BitVec.ofNat 16 s.part.ordering


/-- A load that a mailbox asked for goes on unanswered. -/
def CasLoad.detach (l : CasLoad) : CasLoad := { l with chan := l.chan.filter fun c => 8 ≤ c }

/-- A margining that a mailbox asked for ends. -/
def LinkPort.dropMargin (x : LinkPort) : LinkPort := { x with margin := x.margin.filter fun m => 8 ≤ m.chan }

/-- A launch that a mailbox asked for goes on unanswered. -/
def Launch.detach (l : Launch) : Launch := { l with answered := l.answered || l.chan < 8 }

/-- The configuration space and the ring, window, mailbox and MSI-X registers return to their reset values; mailbox commands are discarded, a load goes on
unanswered; entries held for a completion ring stay held. -/
def State.resetFunction (s : State) : State :=
  let s := s.withCas { s.cas with
    loads := s.cas.loads.map fun l => l.detach
    unloads := s.cas.unloads.filter fun u => 8 ≤ u.2 }
  let s : State := { s with ports := s.ports.map fun e => (e.1, e.2.dropMargin) }
  let s := s.withFab { s.fab with launch := s.fab.launch.map Launch.detach }
  let s := s.withSrv { s.srv with rq := [], cq := s.srv.cq.map fun e => (e.1, { CplRing.init with held := e.2.held }) }
  let z := Records.init
  let s := s.withRecs { s.recs with
    base := z.base, log2 := z.log2, enable := z.enable, vector := z.vector, sealMs := z.sealMs, head := z.head, tail := z.tail }
  let e := s.host.evc
  let s := s.withEvc { e with
    evlBase := 0#64, evlLog2 := 8, evlEnable := false, evlVector := 0, evlLost := 0, evlHead := 0, evlTail := 0 }
  s.withHost { s.host with
    chans := s.host.chans.filter fun c => 8 ≤ c.1
    order := s.host.order.filter fun c => 8 ≤ c
    msix := [], win := [], pci := .init }

/-- R416 with the fault `code` for a job that is under way. -/
def State.functionReset (s : State) (code : Nat) : State := (if s.job.state.active then s.jobFatal code else s).resetFunction

/-- PCIE_RESET: a Function Level Reset or a hot reset. -/
def execPcieReset (s : State) : Out State := .next (s.functionReset 0x0C03)

/-- PCIE_LINK_LOSS: the PCIe link is lost. -/
def execPcieLinkLoss (s : State) : Out State :=
  let s := s.functionReset 0x0C04
  .next (s.withHost { s.host with pcieUp := false })

/-- PERST_N: the pin has held a new level for 1 µs; its release starts link training, its assertion is a link loss. -/
def execPerstN (high : Bool) (s : State) : Out State :=
  if high = s.power.perstN then .next s
  else
    let s := s.withPower { s.power with perstN := high }
    if high then .next (s.withHost { s.host with pcieUp := s.power.modReady })
    else
      let s := s.functionReset 0x0C04
      .next (s.withHost { s.host with pcieUp := false })

/-- HOST_DMA: a DMA read ends in a completion timeout or an error completion, and the operation that issued it fails (R417). -/
def execHostDma (op : DmaOp) (s : State) : Out State :=
  match op with
  | .prompt id =>
    (match s.req id with
     | none => .next s
     | some q =>
       if q.state ≠ .fetching then .next s
       else
         let s := (s.dmaFailed.event 0x0704).endReq id q stHostError
         .next (if s.srv.boundary then s.wake.runBoundary else s))
  | .ring r => if 64 ≤ r then .fault .noSuchRing else if !(s.reqRing r).enable then .next s else .next (s.dmaFailed.stopRing r)
  | .command ch =>
    if 10 ≤ ch then .fault .noSuchMailbox
    else
      match s.cmdOf ch with
      | none => .next s
      | some c =>
        if c.executing || !s.answers ch then .next s
        else
          let s := s.withHost { s.host with order := s.host.order.filter fun x => x ≠ ch }
          .next ((s.dmaFailed.respond ch (.bad .state 0x0C05)).answerUnknown 10)

end Sys2Proof.Machine
end

