-- ==== Sys2Proof/Machine/Power.lean ====
section
/-! DEFINITION. The power controller: gear commands, the policy cap, the picker and the exits, the sensors, the brake's end (R41 to R45,
R476 to R486, R494, R501). -/
namespace Sys2Proof.Machine

/-! ### The picker (R477 to R479) -/

/-- MARGIN in ns. -/
def pickMargin : Nat := 50000

/-- The break-even time of a state in ns (R476). -/
def PowerMode.breakEven : PowerMode → Nat
  | .run => 0 | .hold => 0 | .doze => 100000 | .nap => 8000000 | .park => 500000000

/-- Whether every unmet wait that holds a region is a q31 wait. -/
def State.onlyStepWaits (s : State) : Bool :=
  (List.range 80).all fun r => (s.region r).gate.isNone || !s.heldFor r [.farRead, .farWrite, .fabricReceive, .hostWrite]

/-- Whether the serving engine has an open boundary with nothing pending; an engine that serves no RUNNING job has none to open, and
only the lead's does. -/
def State.serveIdle (s : State) : Bool :=
  let v := s.srv
  v.cfg.isNone || s.job.state ≠ .running || (s.multi && !s.fab.lead) ||
    (v.boundary && v.fetched = [] && v.changes = [] && (v.rq.all fun r => !r.2.enable || r.2.tail = r.2.head) &&
      v.reqs.all fun q => q.2.state ≠ .fetching)

/-- Whether the module is idle (R477). -/
def State.idle (s : State) : Bool := (s.job.state ≠ .running || (s.allHeld && s.onlyStepWaits)) && s.serveIdle && s.stop.isNone

/-- Whether no far-memory request is in flight and no background request pending. -/
def State.farQuiet (s : State) : Bool :=
  (s.far.chans.all fun c => c.2.prog = []) && (s.far.ctrls.all fun c => c.2.bg = []) &&
    s.queues.all fun q => !(q.2.kind = .farRead || q.2.kind = .farWrite) || q.2.reqs = []

/-- What NAP and PARK need beyond idleness; a debug stop admits nothing deeper than HOLD (R477, R527). -/
def State.powerAllowed (s : State) (m : PowerMode) : Bool :=
  !s.debugStopped &&
    match m with
    | .nap => s.farQuiet
    | .park => s.farQuiet && s.job.state = .idle && s.cas.loads = [] &&
        s.ports.all fun p => p.2.state ≠ .training && p.2.state ≠ .retraining
    | _ => true

/-- The least time among the known events that only RUN serves (R478): a launch or resume count, the step-due hint. -/
def State.knownEvent (s : State) : Option Nat :=
  let launch := if s.job.state = .armed || s.job.state = .paused then s.fab.startAt else none
  let due := if s.power.stepDue = 0 then none else some s.power.stepDue
  match launch, due with
  | some a, some b => some (min a b)
  | some a, none => some a
  | none, d => d

/-- pick(now). -/
def State.pick (s : State) : PowerMode :=
  [PowerMode.doze, .nap, .park].foldl (fun best m =>
    if !s.powerAllowed m || s.power.wakeBoundUs * 1000 < m.exitNs then best
    else if s.power.latencyBounded && s.job.state = .running && m ≠ .doze then best
    else
      match s.knownEvent with
      | some e => if e < s.gsc + pickMargin + m.exitNs + m.breakEven then best else m
      | none => m) .hold

/-- What a state loses or changes on entry (R476): self-refresh in NAP and PARK; in PARK the registers and stores are lost and the trim
words no longer valid. -/
def State.enterMode (s : State) (m : PowerMode) : State :=
  let s := s.withPower { s.power with mode := m }
  let s := if m = .nap || m = .park then { s.flushChecks with far := { s.flushChecks.far with selfRefresh := true } } else s
  if m = .park then { s with cores := [], ss := [], ssErr := [], pace := { s.pace with calValid := false } } else s

/-- When the exit from state `m` for the limiting known event begins. -/
def State.exitAt (s : State) (m : PowerMode) : Option Nat := s.knownEvent.map fun e => e - m.exitNs - pickMargin

/-- The picker runs: an idle module enters the state it chooses when that is deeper than the one it is in; a module in RUN stays there
when the exit would already be due. -/
def State.runPicker (s : State) : State :=
  if !s.idle || s.power.exiting || s.power.supply ≠ .on || s.sec.boot ≠ .running then s
  else
    let m := s.pick
    if s.power.mode = .run && (s.exitAt m).any fun t => t ≤ s.gsc then s
    else
      let s := if m.code ≤ s.power.mode.code then s else s.enterMode m
      s.withPower { s.power with exitPlan := s.exitAt s.power.mode }

/-- A register of core `c` takes a parity error; s0 and p0 are constants and hold none (R92). -/
def State.upsetReg (s : State) (c : Nat) (r : Reg) : State :=
  if s.hasCore c && r ≠ .s 0 && r ≠ .p 0 then s.setCore c { s.core c with parity := r :: (s.core c).parity } else s

/-- An error arises (R110, R124, R193); a second one in a word of a store makes it a multi-bit error. -/
def State.upset (s : State) : Config.Upset → State
  | .ws c w m =>
    if s.hasCore c && w < 262144 then
      s.setCore c { s.core c with wsErr := (s.core c).wsErr.put w (m || (s.core c).wsErr.has w) }
    else s
  | .ss w m => if w < 256 * 12582912 then { s with ssErr := s.ssErr.put w (m || s.ssErr.has w) } else s
  | .scalar c n => s.upsetReg c (.s (n % 32))
  | .address c n => s.upsetReg c (.a (n % 16))
  | .predicate c n => s.upsetReg c (.p (n % 8))
  | .vector c n => s.upsetReg c (.v (n % 64))
  | .accumulator c n => s.upsetReg c (.acc (n % 4))

/-- GSC counts a nanosecond of the reference: two or none of them where slewing, by at most 200 ppm, has gained or lost one (R399). -/
def State.countNs (s : State) : State :=
  let f := s.fab
  let d := max (-200) (min 200 f.slewLeft)
  let ph := f.slewPhase + d
  let k : Int := if 1000000 ≤ ph then 1 else if ph ≤ -1000000 then -1 else 0
  (s.withFab { f with slewLeft := f.slewLeft - d, slewPhase := ph - 1000000 * k }).elapse (1 + k).toNat

/-- A nanosecond in which no command waits: GSC counts it while the rails are up (R51), the picker looks again (R477), and errors may
arise in the stores and register files, which ones is a free value (log entry 17). -/
def State.nanosecond (s : State) : State :=
  if s.power.supply = .on then
    (Config.upsets s.free).foldl State.upset { s.countNs.runPicker with free := s.free + 1 }
  else s

/-- POWER_EXIT_PLANNED: the planned exit time of a known event comes. -/
def execPowerExitPlanned (s : State) : Out State :=
  match s.power.exitPlan with
  | none => .next s
  | some t =>
    if s.power.mode = .run || s.power.exiting then .next s
    else
      let s := s.advanceTo t
      .next (s.withPower { s.power with exiting := true, exitDone := s.gsc + s.power.mode.exitNs, exitPlan := none })

/-- POWER_EXIT_DONE: the exit completes; the picker runs. -/
def execPowerExitDone (s : State) : Out State :=
  if !s.power.exiting then .next s else .next (s.advanceTo s.power.exitDone).toRun.runPicker

/-- STEP_DUE_LAPSE: GSC reaches DUE_GSC; the picker runs. -/
def execStepDueLapse (s : State) : Out State :=
  if s.power.stepDue = 0 then .next s
  else
    let s := s.advanceTo s.power.stepDue
    .next (s.withPower { s.power with stepDue := 0 }).runPicker

/-! ### Commands (R41 to R44, R431, R478, R479, R482) -/

/-- A change starts in the mode a GEAR_SET names; GEAR_MODE itself stays. -/
def State.startGearIn (s : State) (mode : Bool) (target : Nat) : State :=
  let old := s.pace.gearMode
  let s := ({ s with pace := { s.pace with gearMode := mode } } : State).startGear target
  { s with pace := { s.pace with gearMode := old } }

/-- GEAR_SET (R42 to R44). While the brake is in force, or before the trim words are built, only the requested gear changes. -/
def gearSet : CmdSpec where
  op := 0x0401
  len := (· = 2)
  fields := fun b => fld b 0 1 ≤ 15 && (fld b 1 1 ≤ 1 || fld b 1 1 = 0xFF)
  allowed := anyState
  wakes := false
  act := fun s _ b =>
    if s.pace.change.isSome then .done s (.of .busy)
    else
      let g := fld b 0 1
      let mode := if fld b 1 1 = 0xFF then s.pace.gearMode else fld b 1 1 = 1
      let s := s.withPower { s.power with requested := g }
      let t := if s.pace.calValid then s.startGearIn mode g else s
      let at_ := if t.pace.change.isSome && !mode then t.pace.gearAt else 0
      .done t (.ok (leBytes 8 at_ ++ leBytes 1 (min g s.effCap)))

/-- GEAR_POLICY (R482). -/
def gearPolicy : CmdSpec where
  op := 0x0402
  len := (· = 4)
  fields := fun b => fld b 0 1 ≤ 2 && fld b 1 1 ≤ 15 && (fld b 2 2 = 0 || (300 ≤ fld b 2 2 && fld b 2 2 ≤ 2100))
  allowed := anyState
  wakes := false
  act := fun s _ b => .done (s.withPower { s.power with policy := fld b 0 1, cap := fld b 1 1, powerCapW := fld b 2 2 }) .ok

/-- POWER_POLICY (R479). -/
def powerPolicy : CmdSpec where
  op := 0x0403
  len := (· = 8)
  fields := fun b => fld b 0 1 ≤ 1 && zeroAt b 1 3
  allowed := anyState
  wakes := false
  act := fun s _ b => .done (s.withPower { s.power with latencyBounded := fld b 0 1 = 1, wakeBoundUs := fld b 4 4 }) .ok

/-- The step-due hint is set; one that has already come lapses at once (R478). -/
def State.setHint (s : State) (due : Nat) : State :=
  (s.withPower { s.power with stepDue := if due ≤ s.gsc then 0 else due }).runPicker

/-- STEP_HINT (R478). -/
def stepHint : CmdSpec where
  op := 0x0404
  len := (· = 8)
  fields := fun _ => true
  allowed := anyState
  wakes := false
  act := fun s _ b => .done (s.setHint (fld b 0 8)) .ok

/-- TS_LIMITS (R36). -/
def tsLimits : CmdSpec where
  op := 0x0405
  len := (· = 4)
  fields := fun _ => true
  allowed := anyState
  wakes := false
  act := fun s _ b => .done { s with pace := { s.pace with farLimitUs := fld b 0 2, fabLimitMs := fld b 2 2 } } .ok

/-- SNAP in PACE_CTRL (R56). -/
def State.snapPace (s : State) : State :=
  { s with pace := { s.pace with snapTickMin := s.tickMin, snapTickMax := s.tickMax, snapGsc := s.gsc } }

/-- TELEMETRY_SNAP (R56, R217). -/
def telemetrySnap : CmdSpec where
  op := 0x0406
  len := (· = 0)
  fields := fun _ => true
  allowed := anyState
  wakes := false
  act := fun s _ _ => .done s.snapPace.snapMem (.ok (leBytes 8 s.gsc))

def execGearSet (ch : Nat) (s : State) : Out State := gearSet.row ch s
def execGearPolicy (ch : Nat) (s : State) : Out State := gearPolicy.row ch s
def execPowerPolicy (ch : Nat) (s : State) : Out State := powerPolicy.row ch s
def execStepHint (ch : Nat) (s : State) : Out State := stepHint.row ch s
def execTsLimits (ch : Nat) (s : State) : Out State := tsLimits.row ch s
def execTelemetrySnap (ch : Nat) (s : State) : Out State := telemetrySnap.row ch s

/-! ### The policy cap (R482) -/

/-- One evaluation of a rule: lowered when `above`, raised after ten ms in a row `below`; the cap and the ms counted. -/
def capStep (cap ms : Nat) (above below : Bool) : Nat × Nat :=
  if above then (cap - 1, 0)
  else if !below then (cap, 0)
  else if 9 ≤ ms then (min 15 (cap + 1), 0)
  else (cap, ms + 1)

/-- The policy cap after one re-evaluation. -/
def State.policyStep (s : State) : State :=
  let p := s.power
  let th := capStep p.thermCap p.coolMs (100 < p.tjMax || s.far.hot) (p.tjMax ≤ 95 && !s.far.hot)
  let pw := capStep p.pwrCap p.lowPowerMs (p.powerCapW < p.pinW) (100 * p.pinW < 95 * p.powerCapW)
  match p.policy with
  | 1 => s.withPower { p with policyCap := p.cap, thermCap := p.cap, pwrCap := p.cap, coolMs := 0, lowPowerMs := 0 }
  | 2 =>
    if p.powerCapW = 0 then
      s.withPower { p with policyCap := th.1, thermCap := th.1, pwrCap := th.1, coolMs := th.2, lowPowerMs := 0 }
    else s.withPower { p with policyCap := min th.1 pw.1, thermCap := th.1, pwrCap := pw.1, coolMs := th.2, lowPowerMs := pw.2 }
  | _ => s.withPower { p with policyCap := th.1, thermCap := th.1, pwrCap := th.1, coolMs := th.2, lowPowerMs := 0 }

/-- POLICY_LIMIT: once when the cap has held the gear below the request for 1 s, armed again when it reaches the request. -/
def State.policyLimit (s : State) : State :=
  let p := s.power
  if p.policyCap < p.requested then
    let n := min 1000 (p.limitMs + 1)
    if n = 1000 && p.limitArmed then (s.withPower { p with limitMs := n, limitArmed := false }).event 0x0A06
    else s.withPower { p with limitMs := n }
  else s.withPower { p with limitMs := 0, limitArmed := true }

/-- POLICY_CAP: the next millisecond of GSC. -/
def execPolicyCap (s : State) : Out State :=
  let s := s.advanceTo s.power.policyDue
  let s := s.withPower { s.power with policyDue := s.gsc + 1000000 }
  .next s.policyStep.policyLimit.followGear

/-! ### Sensors and the brake (R483 to R486, R494) -/

/-- The hottest junction reading and its sensor, of the 80 regions and the 4 points of the service strip (R483). -/
def hottest (l : List Int) : Nat × Nat :=
  (l.take 84).zipIdx.foldl (fun (m : Nat × Nat) x => if m.1 < x.1.toNat then (x.1.toNat, x.2) else m) (0, 0)

/-- The readings' causes of the brake (R484). -/
def Sensors.causes (r : Sensors) : List BrakeCause :=
  (if 110 ≤ (hottest r.junction).1 then [.temperature] else []) ++ (if 2400 < r.pin || 2100 < r.pinAvg then [.inputPower] else []) ++
    (if r.vin < 4000 then [.inputVoltage] else [])

/-- Whether the readings are within the limits of R485. -/
def Sensors.calm (r : Sensors) : Bool := (hottest r.junction).1 < 105 && r.pinAvg < 1900 && 4100 ≤ r.vin

/-- SENSOR_SAMPLE: the next sample of 100 µs. A reading beyond its field's range is held at the greatest value the field has (DESIGN CHOICE,
log entry 185). -/
def execSensorSample (r : Sensors) (s : State) : Out State :=
  let s := s.advanceTo s.power.sampleDue
  let p := s.power
  let h := hottest r.junction
  let s := s.withPower { p with
    sampleDue := s.gsc + 100000, tjMax := min 255 h.1, sensor := h.2, coolantIn := min 255 r.coolant, vin := min 65535 r.vin, pinW := min 65535 r.pinAvg
    calm := if r.calm then p.calm + 1 else 0
    coldSince := if h.1 < 90 then some (p.coldSince.getD s.gsc) else none }
  let s := if 40 < r.coolant && p.coolantIn ≤ 40 then s.event 0x0A05 else s
  let s := if r.vin < 4000 && 4000 ≤ p.vin then s.event 0x0A07 else s
  let s := r.causes.foldl (fun s c => s.applyBrake c) s
  .next (if 120 ≤ h.1 && !p.thermalOff then (s.withPower { s.power with thermalOff := true }).moduleFatal 0x0A03 else s)

/-- BRAKE_OFF: 10 ms in a row within the limits of R485. -/
def execBrakeOff (s : State) : Out State :=
  let p := s.power
  if !p.brake || p.calm < 100 then .next s
  else
    let s := if p.policy = 1 then s.withPower { p with brake := false, causes := [], policyCap := p.cap, thermCap := p.cap, pwrCap := p.cap }
      else s.withPower { p with brake := false, causes := [], policyCap := 8, thermCap := 8, pwrCap := 8 }
    .next (s.event 0x0A02).followGear

/-- CONVERTER_FAULT: overcurrent, overtemperature or a lost phase of the 48 V stage (R494, R501). -/
def execConverterFault (s : State) : Out State := .next (s.moduleFatal 0x0A04)

end Sys2Proof.Machine
end

