-- ==== Sys2Proof/Machine/Security.lean ====
section
/-! DEFINITION. Fuses, keys, the boot ROM, the owner, life cycle and the security commands (R450 to R474). -/
namespace Sys2Proof.Machine

def State.withSec (s : State) (x : Sec) : State := { s with sec := x }

/-! ### Random bytes (R457, R464, R472) -/

/-- `n` bytes of the random number generator, at most 64. -/
def State.random (s : State) (n : Nat) : Bytes × State := ((Config.trng s.free).toList.take n, { s with free := s.free + 1 })

/-- A private number from the generator. -/
def State.randomKey (s : State) : Nat × State := let r := s.random 48; (beNat r.1 % (p384N - 1) + 1, r.2)

/-! ### Firmware images (R452, R453) -/

def fwMagic : Bytes := [0x4E#8, 0x44#8, 0x46#8, 0x57#8]

/-- BODY_LEN. -/
def fwBody (b : Bytes) : Nat := fld b 12 4

/-- The measurement M. -/
def fwMeasure (b : Bytes) : Bytes := sha384 (b.take (256 + fwBody b))

/-- R453 step 3: 0 when the image passes, else the code of SEC_BOOT REC_CAUSE (R475). -/
def State.fwCheck (s : State) (b : Bytes) : Nat :=
  let f := s.sec.fuses; let n := fwBody b; let slot := fld b 6 1; let key := sub b 16 97
  if sub b 0 4 ≠ fwMagic || fld b 4 2 ≠ 1 || n = 0 || 0x00C00000 < n || b.length < 352 + n then 1
  else if 4 ≤ slot || bit f.vendorKeyRevoke slot || !f.vendorKeyHash.has slot || sha384 key ≠ f.vendorKeyHash.find [] slot then 2
  else if !ecdsaVerify key (fwMeasure b) (sub b (256 + n) 48) (sub b (304 + n) 48) then 3
  else if fld b 7 1 < f.svn then 4
  else 0

/-- The result a command gives for a failed image. -/
def fwResult (cause : Nat) : Result := match cause with | 1 => .range | 2 => .digest | 3 => .auth | _ => .range

/-! ### Keys (R457, R465) -/

/-- UDS as the boot ROM reads it: zeros once UDS_KILL is blown. -/
def Fuses.readUds (f : Fuses) : Bytes := if f.udsKill then zeros 48 else padTo 48 f.uds

/-- The alias key's private number for a measurement and an image SVN; the string is "ND9-AK". -/
def deriveAk (uds m : Bytes) (svn : Nat) : Nat :=
  let cdi := hmac384 uds ([0x01#8] ++ m ++ leBytes 1 svn)
  beNat (hmac384 cdi (ascii [0x4E, 0x44, 0x39, 0x2D, 0x41, 0x4B])) % (p384N - 1) + 1

/-- The keys that seal the identity key, with "ND9-SEAL", and the owner block, with "ND9-OWN" and the OWNER_EPOCH count. The security block
itself computes them; UDS's lock keeps it from every reader outside (DEDUCED, log entry 189). -/
def Fuses.sealKey (f : Fuses) : Bytes := (hmac384 f.readUds (ascii [0x4E, 0x44, 0x39, 0x2D, 0x53, 0x45, 0x41, 0x4C])).take 32
def Fuses.ownKey (f : Fuses) : Bytes :=
  (hmac384 f.readUds (ascii [0x4E, 0x44, 0x39, 0x2D, 0x4F, 0x57, 0x4E] ++ leBytes 1 f.ownerEpoch)).take 32

/-- The owner block as it is sealed: the admin key, both key lists, the management key, POLICY (log entry 189). -/
def OwnerBlock.bytes (o : OwnerBlock) : Bytes :=
  let keys := fun (m : Map Bytes) => (List.range 16).flatMap fun i => padTo 97 (m.find [] i)
  padTo 97 o.adminKey ++ keys o.imageKeys ++ keys o.casKeys ++ padTo 48 o.mgmtKey ++ leBytes 1 o.policy

/-- The key entries that are not zeros, of 16 at the start of a string. -/
def keysOf (b : Bytes) : Map Bytes :=
  (List.range 16).filterMap fun i => if zeroAt b (97 * i) 97 then none else some (i, sub b (97 * i) 97)

/-- An owner block from its bytes. -/
def ownerOf (b : Bytes) : OwnerBlock :=
  { adminKey := sub b 0 97, imageKeys := keysOf (b.drop 97), casKeys := keysOf (b.drop 1649), mgmtKey := sub b 3201 48, policy := fld b 3249 1 }

/-- The identity key, when it unseals: never once UDS_KILL is blown. -/
def Sec.unsealIk (x : Sec) : Option Nat :=
  if x.fuses.udsKill then none else (x.ikSealed.bind fun b => gcmOpen x.fuses.sealKey b).map beNat

/-- The owner block, when it unseals. One sealed under another OWNER_EPOCH count never does. -/
def Sec.unsealOwner (x : Sec) : Option OwnerBlock :=
  match x.ownerFlash with
  | some (e, b) => if e = x.fuses.ownerEpoch && !x.fuses.udsKill then (gcmOpen x.fuses.ownKey b).map ownerOf else none
  | none => none

/-- The owner digest. -/
def OwnerBlock.digest (o : OwnerBlock) : Bytes :=
  let keys := fun (m : Map Bytes) => (List.range 16).flatMap fun i => padTo 97 (m.find [] i)
  sha384 (padTo 97 o.adminKey ++ keys o.imageKeys ++ keys o.casKeys ++ leBytes 1 o.policy)

def State.ownerDigest (s : State) : Bytes := match s.sec.owner with | some o => o.digest | none => zeros 48

/-- Which of 16 key entries are held. -/
def keyMask (m : Map Bytes) : Nat := (List.range 16).foldl (fun n i => n + bitAt i (m.has i)) 0

/-- An owner block sealed under the fuses as they are. -/
def State.sealedOwner (s : State) (o : OwnerBlock) : Nat × Bytes :=
  (s.sec.fuses.ownerEpoch, gcmSeal s.sec.fuses.ownKey (s.random 12).1 o.bytes)

/-- The owner block changes, in the vault and, sealed with a fresh IV, in flash. -/
def State.setOwner (s : State) (o : OwnerBlock) : State :=
  let t := (s.random 12).2
  t.withSec { t.sec with owner := some o, ownerFlash := some (s.sealedOwner o) }

/-! ### Vault, owner epoch, resets (R465, R471, R472) -/

/-- The vault is zeroised, the leaves of open and staged blocks with it. -/
def State.zeroise (s : State) : State :=
  (s.withSec { s.sec with ik := none, ak := none, owner := none, nonce := none }).withRecs { s.recs with opened := none, staged := [] }

/-- OWNER_EPOCH advances by one, up to 64. -/
def Fuses.advanceEpoch (f : Fuses) : Fuses := { f with ownerEpoch := min 64 (f.ownerEpoch + 1) }

/-- A reset without a fault is due (R491). -/
def State.resetSoon (s : State) : State :=
  s.withPower { s.power with resetDue := match s.power.resetDue with | some r => some r | none => some .secReset }

/-- A life-cycle change (R472). -/
def State.changeLc (s : State) (target : Nat) (claim : Bool) : State :=
  let f := { s.sec.fuses with lc := target }
  (s.withSec { s.sec with fuses := if claim then f else f.advanceEpoch }).zeroise.resetSoon

/-! ### The boot ROM (R453) and what firmware does first (R437, R451, R471) -/

/-- Firmware starts: its measurement, keys and owner; the sources of the event controller; a tamper joins the log. -/
def State.startFirmware (s : State) : State :=
  let x := s.sec; let m := fwMeasure x.fw
  let x := { x with
    boot := .running, udsLocked := true, recCause := 0, runM := m, runSvn := fld x.fw 7 1, runRelease := fld x.fw 8 4
    ak := some (deriveAk x.fuses.readUds m (fld x.fw 7 1))
    ik := if 2 ≤ x.fuses.lc then x.unsealIk else none
    owner := x.unsealOwner }
  let x := match x.tamperDue with
    | none => x
    | some t =>
      { x with tamperDue := none, tamperCount := satAdd 16 x.tamperCount 1, tamperLast := t.1
               tamperLog := (x.tamperLog ++ [t]).drop (x.tamperLog.length + 1 - 64) }
  let s := (s.withSec x).withEvc { s.host.evc with sources := firmwareSources }
  s.withPower { s.power with kickAt := s.gsc }

/-- The boot ROM at a reset. -/
def State.bootRom (s : State) : State :=
  let x := s.sec
  if x.fuses.lc = 5 then s.withSec { x with boot := .halted, recCause := 0 }
  else if x.fuses.lc = 0 then s.withSec { x with boot := .recovery, recCause := 5 }
  else
    let c := s.fwCheck x.fw
    if c ≠ 0 then s.withSec { x with boot := .recovery, recCause := c } else s.startFirmware

/-! ### Signed commands (R463, R464) -/

/-- How a command is authorised. -/
inductive Auth where
  | ok | badKey | badNonce
deriving DecidableEq, Repr

/-- The message an owner trailer signs: OPCODE, SERIAL, the payload before the trailer, NONCE. -/
def State.signedMsg (s : State) (op : Nat) (body nonce : Bytes) : Bytes :=
  sha384 (leBytes 2 op ++ padTo 16 s.part.serial ++ body ++ nonce)

/-- Whether a NONCE is the module's current one. -/
def State.nonceGood (s : State) (n : Bytes) : Bool := match s.sec.nonce with | some (m, e) => m = n && s.gsc < e | none => false

/-- A nonce that a signed command uses is gone. -/
def State.useNonce (s : State) (n : Bytes) : State := if s.nonceGood n then s.withSec { s.sec with nonce := none } else s

/-- The nonce a trailer carries: the 32 bytes 128 from the end. -/
def trailerNonce (b : Bytes) : Bytes := sub b (b.length - 128) 32

/-- An owner trailer by `key`. -/
def State.checkTrailer (s : State) (op : Nat) (b key : Bytes) : Auth :=
  let n := b.length - 128; let nonce := sub b n 32
  if !ecdsaVerify key (s.signedMsg op (b.take n) nonce) (sub b (n + 32) 48) (sub b (n + 80) 48) then .badKey
  else if !s.nonceGood nonce then .badNonce
  else .ok

/-- The owner's authority. -/
def State.ownerAuth (s : State) (op : Nat) (b : Bytes) : Auth :=
  match s.sec.owner with | some o => s.checkTrailer op b o.adminKey | none => .badKey

/-- The vendor's authority: VKEY, 3 reserved bytes, an owner trailer. -/
def State.vendorAuth (s : State) (op : Nat) (b : Bytes) : Auth :=
  let key := sub b (b.length - 228) 97
  if s.sec.fuses.vendorAuthHash = [] || sha384 key ≠ s.sec.fuses.vendorAuthHash then .badKey else s.checkTrailer op b key

/-- The reply of a command that is not authorised. -/
def Auth.reply : Auth → Option Reply
  | .ok => none
  | .badKey => some (.bad .auth 0x0941)
  | .badNonce => some (.bad .auth 0x0942)

/-- Runs a signed command's rules after its authority; the nonce it carries is used either way. -/
def State.signed (s : State) (a : Auth) (b : Bytes) (f : State → Verdict) : Verdict :=
  let t := s.useNonce (trailerNonce b)
  match a.reply with
  | some r => .done t r
  | none => f t

/-- Whether the vendor trailer's reserved bytes are 0. -/
def vendorForm (b : Bytes) : Bool := zeroAt b (b.length - 131) 3

/-- Whether the module is in life-cycle state `n`. -/
def State.lcIs (s : State) (n : Nat) : Bool := s.sec.fuses.lc = n

/-! ### The commands of R473 -/

def secNonce : CmdSpec where
  op := 0x0701
  len := (· = 0)
  fields := fun _ => true
  allowed := anyState
  wakes := false
  act := fun s _ _ =>
    let r := s.random 32
    .done (r.2.withSec { r.2.sec with nonce := some (r.1, s.gsc + 60000000000) }) (.ok r.1)

/-- ANCHOR_KEY's part of a claim (R466). -/
def State.anchorOk (s : State) (b : Bytes) : Bool :=
  let key := sub b 100 97
  if s.sec.anchor = [] then zeroAt b 100 196
  else sha384 key = s.sec.anchor &&
    ecdsaVerify key (s.signedMsg 0x0702 (b.take 200) (trailerNonce b)) (sub b 200 48) (sub b 248 48)

def secOwnerClaim : CmdSpec where
  op := 0x0702
  len := (· = 424)
  fields := fun b => zeroAt b 97 3 && zeroAt b 197 3
  allowed := fun s => (s.lcIs 2 && s.job.state = .idle) || (s.lcIs 3 && s.sec.owner.isNone)
  wakes := false
  act := fun s _ b =>
    let key := sub b 0 97
    s.signed (if s.anchorOk b then s.checkTrailer 0x0702 b key else .badKey) b fun s =>
      let s := s.setOwner { OwnerBlock.init with adminKey := key }
      let s := (s.withSec { s.sec with anchor := sha384 key }).event 0x0911
      .done (if s.lcIs 2 then s.changeLc 3 true else s) .ok

def secOwnerRelease : CmdSpec where
  op := 0x0703
  len := (· = 128)
  fields := fun _ => true
  allowed := fun s => s.lcIs 3 && s.job.state = .idle
  wakes := false
  act := fun s _ b =>
    s.signed (s.ownerAuth 0x0703 b) b fun s =>
      .done ((s.withSec { s.sec with fuses := s.sec.fuses.advanceEpoch, anchor := [] }).zeroise.event 0x0911) .ok

/-- A change of the owner block, authorised by the owner, with OWNER_KEYS. -/
def State.ownerChange (s : State) (op : Nat) (b : Bytes) (f : OwnerBlock → OwnerBlock) : Verdict :=
  s.signed (s.ownerAuth op b) b fun s =>
    match s.sec.owner with
    | some o => .done ((s.setOwner (f o)).event 0x0912) .ok
    | none => .done s (.bad .auth 0x0941)

/-- A key entry is set, or removed by zeros. -/
def putKey (m : Map Bytes) (i : Nat) (k : Bytes) : Map Bytes := if zeroAt k 0 97 then m.del i else m.put i k

def secKeySet : CmdSpec where
  op := 0x0704
  len := (· = 229)
  fields := fun b => fld b 0 1 ≤ 1 && fld b 1 1 ≤ 15 && zeroAt b 2 2
  allowed := fun s => s.lcIs 3
  wakes := false
  act := fun s _ b =>
    s.ownerChange 0x0704 b fun o =>
      if fld b 0 1 = 0 then { o with imageKeys := putKey o.imageKeys (fld b 1 1) (sub b 4 97) }
      else { o with casKeys := putKey o.casKeys (fld b 1 1) (sub b 4 97) }

def secPolicy : CmdSpec where
  op := 0x0705
  len := (· = 129)
  fields := fun b => fld b 0 1 ≤ 3
  allowed := fun s => s.lcIs 3
  wakes := false
  act := fun s _ b => s.ownerChange 0x0705 b fun o => { o with policy := fld b 0 1 }

def secMgmtKey : CmdSpec where
  op := 0x0706
  len := (· = 176)
  fields := fun _ => true
  allowed := fun s => s.lcIs 3
  wakes := false
  act := fun s ch b => if 8 ≤ ch then .done s (.of .auth) else s.ownerChange 0x0706 b fun o => { o with mgmtKey := sub b 0 48 }

def secOwnerRead : CmdSpec where
  op := 0x0707
  len := (· = 0)
  fields := fun _ => true
  allowed := fun s => s.lcIs 3
  wakes := false
  act := fun s _ _ =>
    let o := s.sec.owner.getD .init
    .done s (.ok (s.ownerDigest ++ leBytes 2 (keyMask o.imageKeys) ++ leBytes 2 (keyMask o.casKeys) ++ leBytes 1 o.policy ++ zeros 3 ++
      padTo 97 o.adminKey))

/-- Programs an image that has passed its checks; `e` is how the programming ends (R455). -/
def State.programFw (s : State) (b : Bytes) (e : FlashEnd) : Verdict :=
  match e with
  | .done => .done ((s.withSec { s.sec with fw := b, fwInvalid := false }).event 0x0910) (.ok (fwMeasure b))
  | .restarted => .goOn ((s.withSec { s.sec with fw := [], fwInvalid := true }).mpRestart 0)
  | .lost => .goOn (s.withSec { s.sec with fw := [], fwInvalid := true })

/-- SEC_FW_UPDATE; `owned` tells whether an owner is registered. -/
def secFwUpdate (v : HostView) (e : FlashEnd) (owned : Bool) : CmdSpec where
  op := 0x0708
  len := (· = if owned then 140 else 12)
  fields := fun b => sgOk (fld b 0 8) (fld b 8 4) && v.scatterOk (fld b 0 8) (fld b 8 4)
  allowed := jobIn [.idle]
  wakes := false
  act := fun s _ p =>
    match (v.scatter (fld p 0 8) (fld p 8 4)).bind v.gather with
    | none => .done s.dmaFailed (.bad .state 0x0C05)
    | some all =>
      let b := all.take (352 + fwBody all)
      let go := fun (s : State) =>
        let c := s.fwCheck b
        if c ≠ 0 then Verdict.done s (.bad (fwResult c) 0x0943) else s.programFw b e
      if owned then
        if s.fwCheck b ≠ 0 then .done (s.useNonce (trailerNonce p)) (.bad (fwResult (s.fwCheck b)) 0x0943)
        else s.signed (s.ownerAuth 0x0708 p) p go
      else go s

/-- SEC_SVN_COMMIT in life-cycle state `lc`: a vendor trailer in MANUFACTURE, an owner trailer in DEPLOYED. -/
def secSvnCommit (lc : Nat) : CmdSpec where
  op := 0x0709
  len := fun n => if lc = 1 then n = 229 else if lc = 3 then n = 129 else n = 129 || n = 229
  fields := fun b => fld b 0 1 ≤ 64 && (b.length ≠ 229 || vendorForm b)
  allowed := fun s => s.lcIs 1 || s.lcIs 3
  wakes := false
  act := fun s _ b =>
    s.signed (if b.length = 229 then s.vendorAuth 0x0709 b else s.ownerAuth 0x0709 b) b fun s =>
      let t := fld b 0 1; let f := s.sec.fuses
      if s.sec.runSvn < t then .done s (.of .range)
      else if t ≤ f.svn then .done s (.ok (leBytes 1 f.svn))
      else .done ((s.withSec { s.sec with fuses := { f with svn := t } }).event 0x0913) (.ok (leBytes 1 t))

/-- Whether SEC_LC_ADVANCE may go from `lc` to `t`, and whether the owner may ask for it (R472). -/
def lcStep (lc t : Nat) : Option Bool :=
  match lc, t with
  | 0, 1 => some false
  | 1, 2 => some false
  | 3, 4 => some true
  | 2, 5 => some false
  | 3, 5 => some true
  | 4, 5 => some false
  | _, _ => none

/-- The further effect of a change to `t`. -/
def State.lcEffect (s : State) (t : Nat) : State :=
  match t with
  | 1 => let r := s.random 48; r.2.withSec { r.2.sec with fuses := { r.2.sec.fuses with uds := r.1 } }
  | 4 => s.withSec { s.sec with anchor := [] }
  | 5 => s.withSec { s.sec with fuses := { s.sec.fuses with udsKill := true } }
  | _ => s

def secLcAdvance : CmdSpec where
  op := 0x070A
  len := fun n => n = 129 || n = 229
  fields := fun b => fld b 0 1 ≤ 5 && (b.length ≠ 229 || vendorForm b)
  allowed := jobIn [.idle]
  wakes := false
  act := fun s _ b =>
    let t := fld b 0 1
    match lcStep s.sec.fuses.lc t with
    | none => .done s (.of .state)
    | some byOwner =>
      if t = 2 && !(s.sec.ikSealed.isSome && s.sec.certDone) then .done s (.of .state)
      else
        let a := if b.length = 229 then s.vendorAuth 0x070A b else if byOwner then s.ownerAuth 0x070A b else .badKey
        s.signed a b fun s => .done ((s.lcEffect t).changeLc t false) .ok

def secReset : CmdSpec where
  op := 0x070B
  len := (· = 0)
  fields := fun _ => true
  allowed := jobIn [.idle]
  wakes := false
  act := fun s _ _ => .done s.resetSoon .ok

/-- Whether the alias certificate exists (R460). -/
def State.aliasExists (s : State) : Bool := 2 ≤ s.sec.fuses.lc && s.sec.ik.isSome && s.sec.ak.isSome

/-- The identity certificate: the third of the installed chain (R459). -/
def Sec.idCert (x : Sec) : Bytes := let t := derSkip 2 x.chain; t.take (derLen t)

/-- The alias certificate as the boot ROM issues it (R458, R460). -/
def State.aliasCert (s : State) : Bytes :=
  let x := s.sec
  Machine.aliasCert (x.ik.getD 0) x.idCert (ecPublic (x.ak.getD 0)) { release := x.runRelease, svn := x.runSvn, m := x.runM }

/-- The certificates of slot 0, root first, the alias certificate last (R459). -/
def State.slotChain (s : State) : Bytes :=
  if s.aliasExists then s.sec.chain ++ s.aliasCert else s.sec.chain

def secChainRead : CmdSpec where
  op := 0x070D
  len := (· = 8)
  fields := fun b => 1 ≤ fld b 4 4 && fld b 4 4 ≤ 4064
  allowed := anyState
  wakes := false
  act := fun s _ b =>
    if s.slotChain.length < fld b 0 4 + fld b 4 4 then .done s (.of .range) else .done s (.ok (sub s.slotChain (fld b 0 4) (fld b 4 4)))

def secProvision : CmdSpec where
  op := 0x070E
  len := (· = 228)
  fields := vendorForm
  allowed := fun s => s.lcIs 1
  wakes := false
  act := fun s _ b =>
    s.signed (s.vendorAuth 0x070E b) b fun s =>
      let k := s.randomKey
      let v := k.2.random 12
      .done (v.2.withSec { v.2.sec with ikSealed := some (gcmSeal s.sec.fuses.sealKey v.1 (beBytes 48 k.1)), ik := some k.1 })
        (.ok (ecPublic k.1))

def secCertInstall : CmdSpec where
  op := 0x070F
  len := fun n => 236 ≤ n && n ≤ 4064
  fields := fun b => vendorForm b && fld b 4 4 ≤ 0x40000 && fld b 0 4 + (b.length - 236) ≤ fld b 4 4
  allowed := fun s => s.lcIs 1
  wakes := false
  act := fun s _ b =>
    s.signed (s.vendorAuth 0x070F b) b fun s =>
      let o := fld b 0 4; let n := b.length - 236
      let c := padTo (fld b 4 4) s.sec.chain
      .done (s.withSec { s.sec with chain := c.take o ++ sub b 8 n ++ c.drop (o + n), certDone := o + n = fld b 4 4 }) .ok

/-! ### The flash (R451) -/

/-- The manufacturing data, in the order in which R451 names it (DESIGN CHOICE, log entry 190, for the offsets). -/
def State.mfgBytes (s : State) : Bytes :=
  padTo 16 s.part.serial ++ padTo 6 s.part.mac0 ++ padTo 6 s.part.mac1 ++ leBytes 1 s.part.ordering ++ s.part.calibration

/-- A tamper-log entry: cause, reserved, GSC. -/
def tamperEntry (t : Nat × Nat) : Bytes := leBytes 1 t.1 ++ zeros 7 ++ leBytes 8 t.2

/-- The parts of the flash: offset, size, what is programmed from its start; the rest of each is erased. -/
def State.flashParts (s : State) : List (Nat × Nat × Bytes) :=
  let x := s.sec
  [(0x0000000, 0x1000000, x.fw), (0x1000000, 0x100000, s.mfgBytes), (0x1100000, 0x40000, x.chain), (0x1140000, 0x10000, x.ikSealed.getD []),
    (0x1150000, 0x10000, if x.anchor = [] then zeros 48 else x.anchor),
    (0x1160000, 0x100000, match x.ownerFlash with | some o => o.2 | none => []), (0x1260000, 0x10000, x.tamperLog.flatMap tamperEntry)]

/-- A byte of the 64 MiB flash; 0xFF where it is erased. -/
def State.flashByte (s : State) (o : Nat) : Byte :=
  match s.flashParts.find? fun p => p.1 ≤ o && o < p.1 + p.2.1 with
  | some p => p.2.2.getD (o - p.1) 0xFF#8
  | none => 0xFF#8

/-! ### Recovery (R454) -/

def recoveryWrite : CmdSpec where
  op := 0x0710
  len := fun n => 9 ≤ n && n ≤ 4040
  fields := fun b => fld b 0 4 % 64 = 0 && 1 ≤ fld b 4 4 && fld b 4 4 ≤ 4032 && b.length = 8 + fld b 4 4 && fld b 0 4 + fld b 4 4 ≤ 0x1000000
  allowed := fun s => s.sec.boot = .recovery
  wakes := false
  act := fun s _ b => .done (s.withSec { s.sec with staging := s.sec.staging.write (fld b 0 4) (b.drop 8) }) .ok

def recoveryCommit : CmdSpec where
  op := 0x0711
  len := (· = 4)
  fields := fun b => 1 ≤ fld b 0 4 && fld b 0 4 ≤ 0x1000000
  allowed := fun s => s.sec.boot = .recovery
  wakes := false
  act := fun s _ b =>
    let img := s.sec.staging.read 0 (fld b 0 4)
    let c := s.fwCheck img
    if c ≠ 0 then .done s (.bad (fwResult c) 0x0943)
    else .done (s.withSec { s.sec with fw := img, fwInvalid := false }).resetSoon .ok

/-- NONCE_EXPIRY: 60 s have passed since the nonce was issued. -/
def execNonceExpiry (s : State) : Out State :=
  match s.sec.nonce with
  | none => .next s
  | some (_, t) =>
    let s := s.advanceTo t
    .next (s.withSec { s.sec with nonce := none })

/-- TAMPER_DETECTION: a source of R470 trips; the voltage source does not count in a power-down sequence. -/
def execTamperDetection (cause : Nat) (s : State) : Out State :=
  if cause = 0 || 4 < cause || s.power.supply = .off || (cause = 2 && s.power.supply = .lockedOut) then .next s
  else
    let x := s.sec
    let s := s.withSec { x with fuses := x.fuses.advanceEpoch, tamperDue := some (cause, s.gsc) }
    .next (s.zeroise.moduleFatal 0x0901 (BitVec.ofNat 64 cause))

def execSecNonce (ch : Nat) (s : State) : Out State := secNonce.row ch s
def execSecOwnerClaim (ch : Nat) (s : State) : Out State := secOwnerClaim.row ch s
def execSecOwnerRelease (ch : Nat) (s : State) : Out State := secOwnerRelease.row ch s
def execSecKeySet (ch : Nat) (s : State) : Out State := secKeySet.row ch s
def execSecPolicy (ch : Nat) (s : State) : Out State := secPolicy.row ch s
def execSecMgmtKey (ch : Nat) (s : State) : Out State := secMgmtKey.row ch s
def execSecOwnerRead (ch : Nat) (s : State) : Out State := secOwnerRead.row ch s
/-- SEC_FW_UPDATE; `v` is what DMA reads find, `e` how the programming ends. -/
def execSecFwUpdate (ch : Nat) (v : HostView) (e : FlashEnd) (s : State) : Out State := (secFwUpdate v e s.sec.owner.isSome).row ch s
def execSecSvnCommit (ch : Nat) (s : State) : Out State := (secSvnCommit s.sec.fuses.lc).row ch s
def execSecLcAdvance (ch : Nat) (s : State) : Out State := secLcAdvance.row ch s
def execSecReset (ch : Nat) (s : State) : Out State := secReset.row ch s
def execSecChainRead (ch : Nat) (s : State) : Out State := secChainRead.row ch s
def execSecProvision (ch : Nat) (s : State) : Out State := secProvision.row ch s
def execSecCertInstall (ch : Nat) (s : State) : Out State := secCertInstall.row ch s
def execRecoveryWrite (ch : Nat) (s : State) : Out State := recoveryWrite.row ch s
def execRecoveryCommit (ch : Nat) (s : State) : Out State := recoveryCommit.row ch s

end Sys2Proof.Machine
end

