-- ==== Sys2Proof/Machine/Spdm.lean ====
section
/-! DEFINITION. The SPDM 1.2 responder (R459 to R462); message layouts are DMTF DSP0274's. -/
namespace Sys2Proof.Machine

/-- The key of a transport in the table of connections. -/
def SpdmPath.ix : SpdmPath → Nat
  | .doe => 0 | .mgmt0 => 1 | .mgmt1 => 2

def State.conn (s : State) (p : SpdmPath) : Spdm := s.sec.spdm.find .init p.ix
def State.setConn (s : State) (p : SpdmPath) (x : Spdm) : State := s.withSec { s.sec with spdm := s.sec.spdm.put p.ix x }

/-- DOE discovery (R413): vendor, data object type and next index of entry `i`; type 0 is discovery itself, type 1 SPDM. -/
def doeDiscovery (i : Nat) : Nat × Nat × Nat := if i = 0 then (0x0001, 0, 1) else (0x0001, 1, 0)

/-! ### Messages -/

/-- An ERROR response. -/
def spdmError (code data : Nat) : Bytes := [0x12#8, 0x7F#8] ++ leBytes 1 code ++ leBytes 1 data

def errInvalid : Bytes := spdmError 0x01 0
def errUnexpected : Bytes := spdmError 0x04 0
/-- UnsupportedRequest names the request's code. -/
def errUnsupported (code : Nat) : Bytes := spdmError 0x07 code

/-- An answer: the response's bytes, the connection after it, whether the signer made a signature. -/
structure SpdmAnswer where
  out : Bytes
  conn : Spdm
  signed : Bool
deriving DecidableEq, Repr

/-- An answer that leaves the connection as it is. -/
def Spdm.say (x : Spdm) (b : Bytes) : SpdmAnswer := { out := b, conn := x, signed := false }

/-- The certificate chain structure of slot 0: length, reserved, hash of the root certificate, certificates. -/
def State.spdmChain (s : State) : Bytes :=
  let c := s.slotChain
  leBytes 2 (52 + c.length) ++ zeros 2 ++ sha384 (c.take (derLen c)) ++ c

/-- One measurement block (R462). -/
def measBlock (ix typ : Nat) (raw : Bool) (b : Bytes) : Bytes :=
  leBytes 1 ix ++ [0x01#8] ++ leBytes 2 (3 + b.length) ++ leBytes 1 (typ + bitAt 7 raw) ++ leBytes 2 b.length ++ b

/-- The measurement blocks in index order. -/
def State.measBlocks (s : State) : List Bytes :=
  let x := s.sec
  let image := match s.image with | some i => i.digest | none => zeros 48
  [ measBlock 1 0 false Config.romDigest.toList,
    measBlock 2 1 false x.runM,
    measBlock 3 6 true (leBytes 4 x.runRelease ++ leBytes 1 x.runSvn ++ leBytes 1 x.fuses.svn ++ zeros 2),
    measBlock 4 2 true (leBytes 1 (orderingByte s) ++ [0xB1#8, 0x01#8] ++ leBytes 1 x.fuses.lc ++ padTo 16 s.part.serial),
    measBlock 5 3 false s.ownerDigest,
    measBlock 6 4 true image,
    measBlock 7 4 true (if s.job.state.active then s.recs.manifestDigest else zeros 48),
    measBlock 8 4 true (leBytes 4 x.tamperCount ++ leBytes 1 x.fuses.ownerEpoch ++ zeros 3) ]

/-- "dmtf-spdm-v1.2.*" four times. -/
def spdmPrefix : Bytes :=
  let p := ascii [0x64, 0x6D, 0x74, 0x66, 0x2D, 0x73, 0x70, 0x64, 0x6D, 0x2D, 0x76, 0x31, 0x2E, 0x32, 0x2E, 0x2A]
  p ++ p ++ p ++ p

/-- "responder-challenge_auth signing" -/
def ctxChallenge : Bytes :=
  ascii [0x72, 0x65, 0x73, 0x70, 0x6F, 0x6E, 0x64, 0x65, 0x72, 0x2D, 0x63, 0x68, 0x61, 0x6C, 0x6C, 0x65, 0x6E, 0x67, 0x65, 0x5F, 0x61, 0x75,
         0x74, 0x68, 0x20, 0x73, 0x69, 0x67, 0x6E, 0x69, 0x6E, 0x67]

/-- "responder-measurements signing" -/
def ctxMeasure : Bytes :=
  ascii [0x72, 0x65, 0x73, 0x70, 0x6F, 0x6E, 0x64, 0x65, 0x72, 0x2D, 0x6D, 0x65, 0x61, 0x73, 0x75, 0x72, 0x65, 0x6D, 0x65, 0x6E, 0x74, 0x73,
         0x20, 0x73, 0x69, 0x67, 0x6E, 0x69, 0x6E, 0x67]

/-- The alias key's signature of a transcript, r then s. -/
def State.spdmSign (s : State) (ctx trans : Bytes) : Bytes :=
  let m := spdmPrefix ++ zeros (36 - ctx.length) ++ ctx ++ sha384 trans
  let r := ecdsaSign s.akOf (Config.signNonce s.free) (sha384 m)
  r.1 ++ r.2

/-! ### Requests -/

/-- GET_VERSION: 1.2 alone; the connection begins anew. -/
def State.spdmVersion (_ : State) (x : Spdm) (q : Bytes) : SpdmAnswer :=
  if q.length < 4 || fld q 0 1 ≠ 0x10 then x.say errInvalid
  else
    let r := [0x10#8, 0x04#8, 0#8, 0#8, 0#8, 1#8, 0x00#8, 0x12#8]
    { out := r, conn := { Spdm.init with versioned := true, transA := q ++ r }, signed := false }

/-- GET_CAPABILITIES: CERT_CAP, CHAL_CAP, MEAS_CAP with signatures; CTExponent 20. -/
def State.spdmCaps (s : State) (x : Spdm) (q : Bytes) : SpdmAnswer :=
  if !x.versioned then x.say errUnexpected
  else if q.length < 20 then x.say errInvalid
  else
    let r := [0x12#8, 0x61#8, 0#8, 0#8, 0#8, 20#8, 0#8, 0#8] ++ leBytes 4 0x16 ++ (Config.spdmOpaque s.free).toList
    { out := r, conn := { x with capable := true, transA := x.transA ++ q ++ r }, signed := false }

/-- NEGOTIATE_ALGORITHMS: P-384, SHA-384 and the DMTF measurement specification, or NegotiationFail. -/
def State.spdmAlgs (s : State) (x : Spdm) (q : Bytes) : SpdmAnswer :=
  if !x.capable then x.say errUnexpected
  else if q.length < 32 then x.say errInvalid
  else if !bit (fld q 8 4) 7 || !bit (fld q 12 4) 1 || !bit (fld q 6 1) 0 then
    x.say (spdmError (Config.freeByte s.free).toNat 0)
  else
    let r := [0x12#8, 0x63#8, 0#8, 0#8] ++ leBytes 2 36 ++ [0x01#8, 0#8] ++ leBytes 4 0x4 ++ leBytes 4 0x80 ++ leBytes 4 0x2 ++ zeros 16
    { out := r, conn := { x with negotiated := true, transA := x.transA ++ q ++ r }, signed := false }

/-- GET_DIGESTS: slot 0's. -/
def State.spdmDigests (s : State) (x : Spdm) (q : Bytes) : SpdmAnswer :=
  if !x.negotiated then x.say errUnexpected
  else if q.length < 4 then x.say errInvalid
  else
    let r := [0x12#8, 0x01#8, 0#8, 0x01#8] ++ sha384 s.spdmChain
    { out := r, conn := { x with transB := x.transB ++ q ++ r, transL := [] }, signed := false }

/-- GET_CERTIFICATE: a part of slot 0's chain; unsupported before the alias certificate exists. -/
def State.spdmCert (s : State) (x : Spdm) (q : Bytes) : SpdmAnswer :=
  let c := s.spdmChain; let o := fld q 4 2
  if !s.aliasExists then x.say (errUnsupported 0x82)
  else if !x.negotiated then x.say errUnexpected
  else if q.length < 8 || fld q 2 1 % 16 ≠ 0 || c.length ≤ o then x.say errInvalid
  else
    let n := min (fld q 6 2) (min (c.length - o) 4056)
    let r := [0x12#8, 0x02#8, 0#8, 0#8] ++ leBytes 2 n ++ leBytes 2 (c.length - o - n) ++ sub c o n
    { out := r, conn := { x with transB := x.transB ++ q ++ r, transL := [] }, signed := false }

/-- CHALLENGE: signed by the alias key over the transcripts; they begin anew. -/
def State.spdmChallenge (s : State) (x : Spdm) (q : Bytes) : SpdmAnswer :=
  if !s.aliasExists then x.say (errUnsupported 0x83)
  else if !x.negotiated then x.say errUnexpected
  else if q.length < 36 || fld q 2 1 % 16 ≠ 0 || !(fld q 3 1 = 0 || fld q 3 1 = 1 || fld q 3 1 = 0xFF) then x.say errInvalid
  else
    let bs := s.measBlocks
    let sum := match fld q 3 1 with
      | 0 => []
      | 1 => sha384 (bs.headD [])
      | _ => sha384 bs.flatten
    let r := [0x12#8, 0x03#8, 0#8, 0x01#8] ++ sha384 s.spdmChain ++ (s.random 32).1 ++ sum ++ zeros 2
    { out := r ++ s.spdmSign ctxChallenge (x.transA ++ x.transB ++ q ++ r)
      conn := { x with transB := [], transL := [] }, signed := true }

/-- GET_MEASUREMENTS: the count, one block or all; signed when the request asks for it. -/
def State.spdmMeasure (s : State) (x : Spdm) (q : Bytes) : SpdmAnswer :=
  let signed := bit (fld q 2 1) 0; let op := fld q 3 1
  if !x.negotiated then x.say errUnexpected
  else if q.length < (if signed then 37 else 4) || (signed && fld q 36 1 % 16 ≠ 0) || (9 ≤ op && op ≠ 0xFF) then x.say errInvalid
  else if signed && s.sec.ak.isNone then x.say (errUnsupported 0xE0)
  else
    let bs := if op = 0 then [] else if op = 0xFF then s.measBlocks else (s.measBlocks.drop (op - 1)).take 1
    let rec_ := bs.flatten
    let r := [0x12#8, 0x60#8] ++ leBytes 1 (if op = 0 then 8 else 0) ++ [0#8] ++ leBytes 1 bs.length ++ leBytes 3 rec_.length ++ rec_ ++
      (s.random 32).1 ++ zeros 2
    let l := (if x.transL = [] then x.transA else x.transL) ++ q ++ r
    if signed then { out := r ++ s.spdmSign ctxMeasure l, conn := { x with transL := [] }, signed := true }
    else { out := r, conn := { x with transL := l }, signed := false }

/-- Gives an answer: a signature is counted; while the signer is busy a response that needs one is withheld with ResponseNotReady. -/
def State.spdmGive (s : State) (p : SpdmPath) (code : Nat) (busy : Bool) (a : SpdmAnswer) : State :=
  let s := { s with free := s.free + 1 }
  let s := if a.signed then s.withSec { s.sec with signs := s.sec.signs + 1 } else s
  if a.signed && busy then
    let t := (Config.freeByte s.free).toNat
    let w := spdmError 0x42 0 ++ leBytes 1 (Config.freeByte (s.free + 1)).toNat ++ leBytes 1 code ++ leBytes 1 t ++
      leBytes 1 (Config.freeByte (s.free + 2)).toNat
    { s with free := s.free + 3 }.setConn p { a.conn with waiting := some (code, t, a.out), out := w }
  else s.setConn p { a.conn with out := a.out }

/-- RESPOND_IF_READY: the withheld response, for its code and token. -/
def Spdm.ready (x : Spdm) (q : Bytes) : SpdmAnswer :=
  match x.waiting with
  | some (code, t, b) =>
    if fld q 2 1 = code && fld q 3 1 = t then { out := b, conn := { x with waiting := none }, signed := false } else x.say errInvalid
  | none => x.say errUnexpected

/-- The answer to a request of a known code; every other is unsupported (R461). -/
def State.spdmAnswer (s : State) (x : Spdm) (q : Bytes) : SpdmAnswer :=
  match fld q 1 1 with
  | 0x84 => s.spdmVersion x q
  | 0xE1 => s.spdmCaps x q
  | 0xE3 => s.spdmAlgs x q
  | 0x81 => s.spdmDigests x q
  | 0x82 => s.spdmCert x q
  | 0x83 => s.spdmChallenge x q
  | 0xE0 => s.spdmMeasure x q
  | 0xFF => x.ready q
  | c => x.say (errUnsupported c)

/-- A request on a transport: another version than 1.2 after GET_VERSION is a mismatch. -/
def State.spdmRequest (s : State) (p : SpdmPath) (q : Bytes) (busy : Bool) : State :=
  let x := s.conn p; let code := fld q 1 1
  s.spdmGive p code busy
    (if q.length < 4 then x.say errInvalid
     else if code ≠ 0x84 && fld q 0 1 ≠ 0x12 then x.say (spdmError 0x41 0)
     else s.spdmAnswer x q)

/-- The request codes the responder supports. -/
def spdmCodes : List Nat := [0x84, 0xE1, 0xE3, 0x81, 0x82, 0x83, 0xE0, 0xFF]

/-- A row of the responder, while firmware runs: its request, whose code is `code`. A request of a code that no row names may come in any of
them and gets UnsupportedRequest; one of another row's code is not this row's (R461). -/
def spdmRow (code : Nat) (p : SpdmPath) (q : Bytes) (busy : Bool) (s : State) : Out State :=
  if s.sec.boot ≠ .running || (fld q 1 1 ≠ code && spdmCodes.contains (fld q 1 1)) then .next s else .next (s.spdmRequest p q busy)

def execGetVersion (path : SpdmPath) (req : Bytes) (busy : Bool) (s : State) : Out State := spdmRow 0x84 path req busy s
def execGetCapabilities (path : SpdmPath) (req : Bytes) (busy : Bool) (s : State) : Out State := spdmRow 0xE1 path req busy s
def execNegotiateAlgorithms (path : SpdmPath) (req : Bytes) (busy : Bool) (s : State) : Out State := spdmRow 0xE3 path req busy s
def execGetDigests (path : SpdmPath) (req : Bytes) (busy : Bool) (s : State) : Out State := spdmRow 0x81 path req busy s
def execGetCertificate (path : SpdmPath) (req : Bytes) (busy : Bool) (s : State) : Out State := spdmRow 0x82 path req busy s
def execChallenge (path : SpdmPath) (req : Bytes) (busy : Bool) (s : State) : Out State := spdmRow 0x83 path req busy s
def execGetMeasurements (path : SpdmPath) (req : Bytes) (busy : Bool) (s : State) : Out State := spdmRow 0xE0 path req busy s
def execRespondIfReady (path : SpdmPath) (req : Bytes) (busy : Bool) (s : State) : Out State := spdmRow 0xFF path req busy s

/-- SEC_SPDM (R473): one request on a management port, AUTH on a mailbox. -/
def secSpdm (busy : Bool) : CmdSpec where
  op := 0x070C
  len := fun n => n ≤ 4064
  fields := fun _ => true
  allowed := anyState
  wakes := false
  act := fun s ch b =>
    if ch < 8 then .done s (.of .auth)
    else
      let p := if ch = 8 then SpdmPath.mgmt0 else .mgmt1
      let t := s.spdmRequest p b busy
      .done t (.ok (t.conn p).out)

def execSecSpdm (ch : Nat) (busy : Bool) (s : State) : Out State := (secSpdm busy).row ch s

end Sys2Proof.Machine
end

