-- ==== Sys2Proof/Machine/Reset.lean ====
section
/-! DEFINITION. Resets of the module, power-up and power-down, the rails and pins (R453, R486, R490, R491, R497 to R505, R509). -/
namespace Sys2Proof.Machine

/-- What a reset keeps of the security block: fuses and flash (R491). -/
def Sec.kept (x : Sec) : Sec :=
  { Sec.init with
    fuses := x.fuses, fw := x.fw, fwInvalid := x.fwInvalid, chain := x.chain, certDone := x.certDone, ikSealed := x.ikSealed
    anchor := x.anchor, ownerFlash := x.ownerFlash, tamperLog := x.tamperLog, tamperCount := x.tamperCount, tamperLast := x.tamperLast
    tamperDue := x.tamperDue }

/-- A management port after a reset other than power-on: accepted and own SEQ go on (R445, R447). -/
def MgmtPort.kept (x : MgmtPort) : MgmtPort := { x with hbValid := false, hbAt := 0 }

/-- The host block after a reset other than power-on: what counts since power-on, the SEQs and the host's own memory stay. -/
def HostBlk.kept (x : HostBlk) (gsc : Nat) (log : Option (Nat × Nat)) : HostBlk :=
  { HostBlk.init with
    evc := { Evc.init with resetLog := log }
    winRefused := x.winRefused, hostMem := x.hostMem, hostWin := x.hostWin, pcieUp := x.pcieUp
    mgmt := x.mgmt.map fun e => (e.1, e.2.kept)
    fenceStart := gsc, mpRestarts := x.mpRestarts }

/-- The power block after a reset: pins and supply stay, and what counts since power-on; PWR_LAST_RESET is set. -/
def Power.kept (p : Power) (gsc kind : Nat) (code : W16) : Power :=
  { Power.init with
    residency := p.residency, brakes := p.brakes, supply := p.supply, pwrEn := p.pwrEn, perstN := p.perstN, modReady := p.modReady
    straps := p.straps, thermalOff := p.thermalOff, lastResetKind := kind, lastResetCode := code, policyDue := gsc, sampleDue := gsc
    kickAt := gsc }

/-- Everything a reset of any kind clears: job, stores, serving state, resident models, far memory, links, routes, block registers. What
the module has sent stays on record, and the queue of commands is the block's surroundings'. -/
def State.clearAll (s : State) : State :=
  { s with
    pace := .init, regions := [], cores := [], coreRegs := .init, flights := [], ss := [], ssErr := [], ssLines := [], ssLost := []
    far := .init, queues := [], image := none, job := .init, stop := none, stopTicks := []
    cas := { Cas.init with sent := s.cas.sent }
    srv := .init, recs := .init, ports := []
    fab := { Fabric.init with sent := s.fab.sent }
    test := { TestBlk.init with jtag := s.test.jtag } }

/-- A module-fatal reset or SEC_RESET (R491): kind 1 or 2. -/
def State.resetModule (s : State) (kind : Nat) (code : W16) : State :=
  let log := if kind = 1 then some (code.toNat, s.gsc) else none
  { s.clearAll with
    host := s.host.kept s.gsc log, power := s.power.kept s.gsc kind code, sec := s.sec.kept }

/-- The state of a module whose power has been lost, or that has just been powered (R491). -/
def State.powerCycle (s : State) (supply : Supply) (pwrEn : Bool) : State :=
  { s.clearAll with
    gsc := 0
    host := { HostBlk.init with hostMem := s.host.hostMem, hostWin := s.host.hostWin }
    power := { Power.init with supply := supply, pwrEn := pwrEn, perstN := s.power.perstN, policyDue := 0 }
    sec := s.sec.kept, test := .init }

/-- The boot ROM runs, and with firmware the ports start to train (R453, R491, R503). -/
def State.boot (s : State) : State :=
  let s := s.bootRom
  if s.sec.boot = .running then (List.range 16).foldl (fun s p => s.startTraining p) s else s

/-- Job-stop units with a module-fatal code, in MAINT, to the other ranks of the job (R490). -/
def State.fatalUnits (s : State) (code : Nat) : State :=
  s.otherRanks.foldl (fun s r => s.sendMsg r 3 0xFFFB (.jobStop s.fab.rank code)) s

/-- MODULE_FATAL_RESET: the reset that a module-fatal fault, SEC_RESET or a life-cycle change has made due. After a thermal shutdown
only the always-on blocks stay powered. -/
def execModuleFatalReset (s : State) : Out State :=
  match s.power.resetDue with
  | none => .next s
  | some .secReset => .next (s.resetModule 2 0#16).boot
  | some (.moduleFatal c) =>
    let s := if c = 0x0901#16 then s else s.fatalUnits c.toNat
    let s := s.resetModule 1 c
    .next (if s.power.thermalOff then s.withSec { s.sec with boot := .thermalOff } else s.boot)

/-- THERMAL_RESTART: TJ_MAX has been below 90 °C for 10 s. -/
def execThermalRestart (s : State) : Out State :=
  match s.power.coldSince with
  | none => .next s
  | some t =>
    if s.sec.boot ≠ .thermalOff then .next s
    else
      let s := s.advanceTo (t + 10000000000)
      let s := s.withPower { s.power with thermalOff := false }
      .next (s.resetModule 1 s.power.lastResetCode).boot

/-- PWR_EN_RISE: PWR_EN has been high for 1 µs; with VIN in range the rails come up (R503). -/
def execPwrEnRise (s : State) : Out State :=
  if s.power.pwrEn then .next s
  else if s.power.supply = .off then .next (s.powerCycle .on true)
  else .next (s.withPower { s.power with pwrEn := true })

/-- POWER_ON_RESET: the internal power-on reset releases; the straps are sampled, MOD_READY rises, the boot ROM runs. -/
def execPowerOnReset (straps : BitVec 2) (s : State) : Out State :=
  if s.power.supply ≠ .on || s.sec.boot ≠ .rom then .next s
  else .next (s.withPower { s.power with straps := straps.toNat, modReady := true }).boot

/-- The power-down sequence (R498): nothing is written, no fault raised. -/
def State.powerDown (s : State) (supply : Supply) (pwrEn : Bool) : State := s.powerCycle supply pwrEn

/-- PWR_EN_FALL: PWR_EN has been low for 1 µs (R505). -/
def execPwrEnFall (s : State) : Out State :=
  if !s.power.pwrEn then .next s
  else if s.power.supply = .lockedOut then .next (s.withPower { s.power with pwrEn := false })
  else .next (s.powerDown .off false)

/-- UNDERVOLTAGE_LOCKOUT: VIN has fallen through 38 V for 1 µs. -/
def execUndervoltageLockout (s : State) : Out State :=
  if s.power.supply ≠ .on then .next s else .next (s.powerDown .lockedOut s.power.pwrEn)

/-- OVERVOLTAGE_LOCKOUT: VIN has risen through 62 V for 1 µs. -/
def execOvervoltageLockout (s : State) : Out State :=
  if s.power.supply ≠ .on then .next s else .next (s.powerDown .lockedOut s.power.pwrEn)

/-- VIN_TURN_ON: after a lockout VIN has been inside its turn-on threshold for 10 ms. -/
def execVinTurnOn (s : State) : Out State :=
  if s.power.supply ≠ .lockedOut then .next s
  else .next (s.withPower { s.power with supply := if s.power.pwrEn then .on else .off })

end Sys2Proof.Machine
end

