-- ==== Sys2Proof/Machine/Test.lean ====
section
/-! DEFINITION. Observation pins, patterns, injection, margining, the debug stop, the test access port (R518 to R532). -/
namespace Sys2Proof.Machine

def State.withTest (s : State) (x : TestBlk) : State := { s with test := x }

/-! ### Observation pins (R519) -/

/-- The greatest ARG of a catalogue signal; none for a code outside the catalogue. -/
def obsArgs (signal : Nat) : Option Nat :=
  match signal with
  | 0x02 | 0x03 => some 79
  | 0x08 | 0x09 | 0x0A => some 15
  | 0x0B => some 35
  | 0x11 => some 1
  | n => if n ≤ 0x12 then some 0 else none

/-- DIV in force. -/
def ObsSel.divide (x : ObsSel) : Nat := max 4 x.div

/-- A pulse of 10 ns from `t` on. -/
def State.pulse (s : State) (t : Option Nat) : Bool := t.any fun t => t ≤ s.gsc && s.gsc < t + 10

/-- What a selection shows. SYS_REFCLK's edges are counted with GSC (DESIGN CHOICE, log entry 193); an oscillator's own level is free. -/
def State.signal (s : State) (x : ObsSel) : Bool :=
  match x.signal with
  | 0x01 => true
  | 0x02 => bit (s.region x.arg).tickCount x.divide
  | 0x03 => Config.oscLevel x.arg x.divide s.gsc
  | 0x04 => s.tsActive
  | 0x05 => s.allHeld
  | 0x06 => s.pace.change.isSome
  | 0x07 => s.power.brake
  | 0x08 => (s.port x.arg).state = .active
  | 0x09 => s.pulse (s.port x.arg).replayAt
  | 0x0A => s.pulse (s.port x.arg).uncorrAt
  | 0x0B => slotClass s.far.bgEnlarged (s.farChan x.arg 0).slot = .window
  | 0x0C => s.presented.isSome
  | 0x0D => s.host.evc.order
  | 0x0E => s.power.exiting
  | 0x0F => bit (s.gsc / 10) x.divide
  | 0x10 => s.gsc % 1000 < 10
  | 0x11 => (s.mgmtPort x.arg).hbValid && s.pulse (some (s.mgmtPort x.arg).hbAt)
  | 0x12 => s.debugStopped
  | _ => false

/-- The level of a pin: the old one until a new selection takes effect. -/
def State.obsLevel (s : State) (pin : Nat) : Bool :=
  if s.test.due.has pin then s.test.level.find false pin else s.signal (s.test.shown.find .init pin)

/-- A selection for a pin; it takes effect at the next whole microsecond of GSC. -/
def State.selectObs (s : State) (pin : Nat) (x : ObsSel) : State :=
  s.withTest { s.test with
    sel := s.test.sel.put pin x, due := s.test.due.put pin ((s.gsc / 1000 + 1) * 1000), level := s.test.level.put pin (s.obsLevel pin) }

def obsSet : CmdSpec where
  op := 0x0801
  len := (· = 4)
  fields := fun b => fld b 0 1 ≤ 7 && (obsArgs (fld b 1 1)).any (fun m => fld b 2 1 ≤ m) && fld b 3 1 ≤ 15
  allowed := anyState
  wakes := false
  act := fun s _ b =>
    .done (s.selectObs (fld b 0 1) { signal := fld b 1 1, arg := fld b 2 1, div := fld b 3 1 }) .ok

def execObsSet (ch : Nat) (s : State) : Out State := obsSet.row ch s

/-- OBS_SELECT_APPLY: the next whole microsecond of GSC comes and the pin shows its new selection. -/
def execObsSelectApply (pin : Nat) (s : State) : Out State :=
  if !s.test.due.has pin then .next s
  else
    let s := s.advanceTo (s.test.due.find 0 pin)
    .next (s.withTest { s.test with shown := s.test.shown.put pin (s.test.sel.find .init pin), due := s.test.due.del pin })

/-! ### Pattern generators and checkers (R520 to R523) -/

/-- PAT_BITS and every PAT_ERR are zeroed. -/
def Pattern.clear (x : Pattern) : Pattern := { x with bits := 0, lanes := x.lanes.map fun l => (l.1, { l.2 with err := 0 }) }

/-- A pattern takes the port out of service; pattern 0 leaves it as it is, its generator and checker off. -/
def LinkPort.setPattern (x : LinkPort) (pattern flags : Nat) : LinkPort :=
  let old := if bit flags 4 then x.pat.clear else x.pat
  let pat := { old with
    pattern := pattern, tx := bit flags 0, rx := bit flags 1, width8 := bit flags 2, wl1Rate := bit flags 3, gens := []
    lanes := old.lanes.map fun l => (l.1, { l.2 with locked := false }) }
  if pattern = 0 then { x with pat := pat }
  else { x with state := .off, modeNow := 0, phase := 0, peerValid := false, inj := none, txPos := 0, rxPos := 0, scram := [], pat := pat }

/-- The states in which a pattern may be set. -/
def patternStates : List JobState := [.idle, .loaded, .faulted, .fenced]

def patternSet : CmdSpec where
  op := 0x0802
  len := (· = 4)
  fields := fun b => fld b 2 1 ≤ 7 && fld b 3 1 < 32
  allowed := anyState
  wakes := true
  act := fun s _ b =>
    if fld b 2 1 ≠ 0 && !patternStates.contains s.job.state then .done s (.of .state)
    else
      .done ((List.range 16).foldl (fun s p =>
        if bit (fld b 0 2) p then s.setPort p ((s.port p).setPattern (fld b 2 1) (fld b 3 1)) else s) s) .ok

def execPatternSet (ch : Nat) (s : State) : Out State := patternSet.row ch s

/-- What a port's checkers have compared since they were last asked: bits per locked lane, and mismatches by lane; lanes that are not
locked count nothing. -/
def Pattern.compare (x : Pattern) (cmp : Nat) (errs : List Nat) : Pattern :=
  { x with
    bits := if x.lanes.any (fun l => l.2.locked) then satAdd 64 x.bits cmp else x.bits
    lanes := x.lanes.map fun l => (l.1, if l.2.locked then { l.2 with err := satAdd 64 l.2.err (errs.getD l.1 0) } else l.2) }

/-- The lock mask. -/
def Pattern.lockMask (x : Pattern) : Nat := (List.range 16).foldl (fun n l => n + bitAt l (x.lanes.find .init l).locked) 0

/-- PATTERN_READ's rules; `cmp` and `errs` are what the checkers of the port have compared since the last row. -/
def patternRead (cmp : Nat) (errs : List Nat) : CmdSpec where
  op := 0x0803
  len := (· = 1)
  fields := fun b => fld b 0 1 ≤ 15
  allowed := anyState
  wakes := false
  act := fun s _ b =>
    let p := fld b 0 1; let x := s.port p
    let y := x.pat.compare cmp errs
    .done (s.setPort p { x with pat := y })
      (.ok (leBytes 2 y.lockMask ++ zeros 6 ++ leBytes 8 y.bits ++ (List.range 16).flatMap fun l => leBytes 8 (y.lanes.find .init l).err))

def execPatternRead (ch cmp : Nat) (errs : List Nat) (s : State) : Out State := (patternRead cmp errs).row ch s

/-- The lanes a port trains on. -/
def LinkPort.laneCount (x : LinkPort) : Nat := if x.x8Test then 8 else 16

/-- Lane `l` is locked, or no longer. -/
def Pattern.lock (x : Pattern) (l : Nat) (on : Bool) : Pattern := { x with lanes := x.lanes.put l { x.lanes.find .init l with locked := on } }

/-- CHECKER_LOCK: lane `l` of port `p` locks; in DETECT the last lane to lock ends the phase. -/
def execCheckerLock (p l : Nat) (s : State) : Out State :=
  if 16 ≤ p then .fault .noSuchPort
  else
    let x := s.port p
    if 16 ≤ l then .next s
    else if (x.state = .training || x.state = .retraining) && x.phase = 1 then
      let y := { x with pat := x.pat.lock l true }
      if (List.range x.laneCount).all fun i => (y.pat.lanes.find .init i).locked then
        .next ((s.setPort p { x with pat := .init }).nextPhase p)
      else .next (s.setPort p y)
    else if x.pat.pattern ≠ 0 && x.pat.rx && (l < 8 || !x.pat.width8) then .next (s.setPort p { x with pat := x.pat.lock l true })
    else .next s

/-- CHECKER_LOCK_LOST: lane `l` loses lock; `cmp` bits were compared since the last row, `errs` of them on this lane mismatched. -/
def execCheckerLockLost (p l cmp errs : Nat) (s : State) : Out State :=
  if 16 ≤ p then .fault .noSuchPort
  else
    let x := s.port p
    if !(x.pat.lanes.find .init l).locked then .next s
    else .next (s.setPort p { x with pat := (x.pat.compare cmp (List.replicate l 0 ++ [errs])).lock l false })

/-! ### Injection (R524) -/

/-- Whether a stale acknowledgement of `count` headers stays below the replay limit: count × 1.125 ns + 1,152 ns ≤ 7 × REPLAY_NS. -/
def staleOk (count replayNs : Nat) : Bool := 9 * count + 9216 ≤ 56 * timerNs replayNs

def inject : CmdSpec where
  op := 0x0804
  len := (· = 10)
  fields := fun b =>
    fld b 0 1 ≤ 15 && fld b 1 1 ≤ 3 && fld b 2 1 ≤ 4 && 1 ≤ fld b 3 1 && fld b 3 1 ≤ 16 && 1 ≤ fld b 4 2 && fld b 4 2 ≤ 1024 &&
      64 ≤ fld b 6 2 && (fld b 1 1 ≠ 3 || (1 ≤ fld b 8 2 && fld b 8 2 ≤ 8192))
  allowed := anyState
  wakes := true
  act := fun s _ b =>
    let p := fld b 0 1; let x := s.port p; let kind := fld b 1 1
    if kind = 3 && !staleOk (fld b 8 2) x.replayNs then .done s (.of .range)
    else if x.state ≠ .active || x.modeNow ≠ 1 then .done s (.of .state)
    else if x.inj.isSome then .done s (.of .busy)
    else
      let j : Inject :=
        { kind := kind, cls := fld b 2 1, nsym := fld b 3 1, left := if kind = 3 then fld b 8 2 else fld b 4 2, spacing := fld b 6 2
          since := fld b 6 2, ack := x.ackPt }
      .done (s.setPort p { x with inj := some j }) .ok

def execInject (ch : Nat) (s : State) : Out State := inject.row ch s

/-! ### Margining (R525) -/

/-- A signed byte from −32 to 32. -/
def marginStep (b : Bytes) (o : Nat) : Bool := fld b o 1 ≤ 32 || 224 ≤ fld b o 1

/-- Whether a port can be margined: ACTIVE, or running a flow-unit pattern. -/
def LinkPort.marginable (x : LinkPort) : Bool := x.state = .active || (x.state = .off && x.pat.pattern = 7)

def margin : CmdSpec where
  op := 0x0805
  len := (· = 12)
  fields := fun b =>
    fld b 0 1 ≤ 15 && fld b 1 1 ≤ 15 && fld b 2 1 ≤ 2 && zeroAt b 3 1 && marginStep b 4 && marginStep b 5 && zeroAt b 6 2 &&
      1 ≤ fld b 8 4 && fld b 8 4 ≤ 1000000
  allowed := anyState
  wakes := true
  act := fun s ch b =>
    let p := fld b 0 1; let x := s.port p
    if !x.marginable then .done s (.of .state)
    else if x.margin.isSome then .done s (.of .busy)
    else
      let m : Margin :=
        { lane := fld b 1 1, eye := fld b 2 1, time := fld b 4 1, volt := fld b 5 1, ends := s.gsc + 1000 * fld b 8 4, chan := ch
          aborted := false }
      .goOn (s.setPort p { x with margin := some m })

def execMargin (ch : Nat) (s : State) : Out State := margin.row ch s

/-- MARGIN_DWELL_END: the dwell ends, at once when an uncorrectable unit has aborted it, and the command is answered. -/
def execMarginDwellEnd (p : Nat) (s : State) : Out State :=
  if 16 ≤ p then .fault .noSuchPort
  else
    match (s.port p).margin with
    | none => .next s
    | some m =>
      let s := if m.aborted then s else s.advanceTo m.ends
      let n := Config.marginSymbols s.free
      let s := { s with free := s.free + 1 }.setPort p { s.port p with margin := none }
      .next (s.respond m.chan (.ok (leBytes 8 n.1 ++ leBytes 8 n.2 ++ leBytes 1 (bitAt 0 m.aborted))))

/-! ### Debug stop (R526 to R528) -/

/-- Runs a test command's rules after the owner's authority, which is needed while an owner is registered. -/
def State.ownerGate (s : State) (owned : Bool) (op : Nat) (b : Bytes) (f : State → Verdict) : Verdict :=
  if owned then s.signed (s.ownerAuth op b) b f else f s

def debugStop (owned : Bool) : CmdSpec where
  op := 0x0806
  len := (· = if owned then 136 else 8)
  fields := fun _ => true
  allowed := jobIn [.running]
  wakes := true
  act := fun s _ b =>
    s.ownerGate owned 0x0806 b fun s =>
      .done { s with pace := { s.pace with debugStop := some (fld b 0 8), debugNs := 0 } } .ok

/-- Core `c` as an instruction of tick `t` would read it (R97, R528). -/
def Core.viewAt (k : Core) (t : Nat) : Core :=
  let k := k.commitWb t
  let k := (List.range 4).foldl (fun k a => if k.commitDue a t then k.commitAcc a else k) k
  if k.live then k.advance else k

/-- The core-state layout DEBUG_READ reads from. -/
def State.debugSection (s : State) (c : Nat) : Bytes :=
  if s.job.state = .running then (s.setCore c ((s.core c).viewAt (s.tickOf c + 1))).coreSection c else s.coreSection c

/-- DEBUG_READ's rules for a module in state `s0`. -/
def debugRead (s0 : State) : CmdSpec where
  op := 0x0807
  len := (· = if s0.sec.owner.isSome then 140 else 12)
  fields := fun b =>
    zeroAt b 2 2 && 1 ≤ fld b 8 4 && fld b 8 4 ≤ 4032 && s0.hasCore (fld b 0 2) && fld b 4 4 + fld b 8 4 ≤ (s0.coreSection (fld b 0 2)).length
  allowed := fun s => (s.job.state = .running && s.debugStopped) || s.job.state = .faulted
  wakes := true
  act := fun s _ b =>
    s.ownerGate s0.sec.owner.isSome 0x0807 b fun s => .done s (.ok (sub (s.debugSection (fld b 0 2)) (fld b 4 4) (fld b 8 4)))

/-- The debug stop ends: time under it counts toward no limit. -/
def State.releaseDebug (s : State) : State :=
  let n := s.pace.debugNs
  let s := s.mapRegions fun x =>
    { x with lastIssue := s.gsc, gate := x.gate.map fun g => { g with since := min s.gsc (g.since + n) } }
  { s with pace := { s.pace with debugStop := none, debugNs := 0 } }

def debugRelease : CmdSpec where
  op := 0x0808
  len := (· = 0)
  fields := fun _ => true
  allowed := fun s => s.job.state = .running && s.debugStopped
  wakes := true
  act := fun s _ _ => .done s.releaseDebug .ok

def execDebugStop (ch : Nat) (s : State) : Out State := (debugStop s.sec.owner.isSome).row ch s
def execDebugRead (ch : Nat) (s : State) : Out State := (debugRead s).row ch s
def execDebugRelease (ch : Nat) (s : State) : Out State := debugRelease.row ch s

/-! ### The test access port (R530, R531) -/

/-- IDCODE, bit 0 first. -/
def idcodeBits : List Bool := (List.range 32).map fun i => bit 0x10D09C55 i

/-- What the instruction register captures: 0b101 while a job is ARMED, RUNNING or PAUSED. -/
def State.irCapture (s : State) : Nat := if s.job.state.active then 0x05 else 0x01

/-- An instruction is loaded. -/
def State.jtagLoad (s : State) (i : JtagInstr) (cells tdo : List Bool) (samples : Nat) : State :=
  s.withTest { s.test with jtag := { instr := i, captured := s.irCapture, cells := cells, tdo := tdo, samples := samples } }

/-- The bits a register of content `r` shifts out while `tdi` is shifted in, and what it then holds. -/
def shiftOut (r tdi : List Bool) : List Bool := (r ++ tdi).take tdi.length
def shiftIn (r tdi : List Bool) : List Bool := (r ++ tdi).drop tdi.length

/-- An instruction that selects the bypass register. -/
def State.jtagBypass (s : State) (i : JtagInstr) (tdi : List Bool) : State :=
  s.jtagLoad i s.test.jtag.cells (shiftOut [false] tdi) s.test.jtag.samples

/-- An instruction that selects the boundary register: its capture samples the pins. -/
def State.jtagBoundary (s : State) (i : JtagInstr) (tdi : List Bool) : State :=
  let n := s.test.jtag.samples
  let r := (List.range Config.boundaryLength).map fun c => Config.pinLevel c n
  s.jtagLoad i (shiftIn r tdi) (shiftOut r tdi) (n + 1)

/-- One that acts as BYPASS while a job is ARMED, RUNNING or PAUSED. -/
def State.jtagGuarded (s : State) (f : State → State) (tdi : List Bool) : State :=
  if s.job.state.active then s.jtagBypass .bypass tdi else f s

/-- TEST_LOGIC_RESET: IDCODE is selected. -/
def execTestLogicReset (s : State) : Out State :=
  .next (s.withTest { s.test with jtag := { Jtag.init with samples := s.test.jtag.samples } })

/-- BYPASS; `tdi` is what is shifted through the selected register. -/
def execBypass (tdi : List Bool) (s : State) : Out State := .next (s.jtagBypass .bypass tdi)
def execIdcode (tdi : List Bool) (s : State) : Out State :=
  .next (s.jtagLoad .idcode s.test.jtag.cells (shiftOut idcodeBits tdi) s.test.jtag.samples)
def execSamplePreload (tdi : List Bool) (s : State) : Out State := .next (s.jtagBoundary .samplePreload tdi)
def execExtest (tdi : List Bool) (s : State) : Out State := .next (s.jtagGuarded (fun s => s.jtagBoundary .extest tdi) tdi)
def execExtestPulse (tdi : List Bool) (s : State) : Out State := .next (s.jtagGuarded (fun s => s.jtagBoundary .extestPulse tdi) tdi)
def execExtestTrain (tdi : List Bool) (s : State) : Out State := .next (s.jtagGuarded (fun s => s.jtagBoundary .extestTrain tdi) tdi)
/-- CLAMP: the outputs hold the boundary register's cells. -/
def execClamp (tdi : List Bool) (s : State) : Out State := .next (s.jtagGuarded (fun s => s.jtagBypass .clamp tdi) tdi)
/-- HIGHZ: the outputs float. -/
def execHighz (tdi : List Bool) (s : State) : Out State := .next (s.jtagGuarded (fun s => s.jtagBypass .highz tdi) tdi)

end Sys2Proof.Machine
end

