-- ==== Sys2Proof/Machine/Regs.lean ====
section
/-! DEFINITION. The registers as they are read: every block at its management-processor address and in BAR0 (R7 to R9, R56, R126,
R217, R271, R311, R339, R376, R412, R418, R419, R423, R434 to R437, R441, R475, R496, R532). -/
namespace Sys2Proof.Machine

/-- A register as read: its offset in its block, its width in bytes, its value. -/
abbrev RegView := Nat × Nat × Nat

/-- Byte `o` of a block: that of the register that holds it, 0 where none does. -/
def regByte (l : List RegView) (o : Nat) : Byte :=
  match l.find? fun r => r.1 ≤ o && o < r.1 + r.2.1 with
  | some r => BitVec.ofNat 8 (r.2.2 / 256 ^ (o - r.1))
  | none => 0#8

/-- Bytes `o` to `o + n - 1` of a block. -/
def regBytes (l : List RegView) (o n : Nat) : Bytes := (List.range n).map fun i => regByte l (o + i)

def PortState.code : PortState → Nat
  | .off => 0 | .training => 1 | .active => 2 | .retraining => 3 | .down => 4

def SourceState.code : SourceState → Nat
  | .idle => 0 | .pending => 1 | .eligible => 2 | .inService => 3

def SlotState.code : SlotState → Nat
  | .empty => 0 | .loading => 1 | .resident => 2

/-- A byte string as a register's value; an empty one reads 0. -/
def digestValue (b : Bytes) : Nat := leNat b

/-! ### Blocks -/

/-- PACE (R56). -/
def State.paceRegs (s : State) : List RegView :=
  let p := s.pace
  [(0x000, 4, s.paceCtrl), (0x004, 4, s.paceStatus), (0x008, 4, p.gearLead.toNat), (0x010, 8, p.gearAt), (0x018, 8, p.snapTickMin),
    (0x020, 8, p.snapTickMax), (0x028, 8, p.snapGsc), (0x030, 4, p.tsCount), (0x034, 4, p.tsLastBits), (0x038, 8, p.tsHeldNs),
    (0x040, 4, p.farLimitUs + p.fabLimitMs * 2 ^ 16), (0x044, 4, bitAt 0 p.refLost + bitAt 1 p.lostSeen + s.lossMs * 2 ^ 16),
    (0x048, 4, p.calCount % 65536 + s.trimAge * 2 ^ 16 + bitAt 24 p.calErr), (0x04C, 4, p.stretchMax + p.stretchRegion * 2 ^ 8)]

/-- CORE (R126). -/
def State.coreBlock (s : State) : List RegView :=
  let r := s.coreRegs
  [(0x000, 4, r.faultCode.toNat + r.faultCore * 2 ^ 16 + r.faultSlot * 2 ^ 24 + bitAt 27 r.faultValid), (0x008, 8, r.faultTick),
    (0x010, 4, r.faultPc), (0x014, 4, r.faultMore), (0x018, 4, r.wsCorr), (0x01C, 4, r.haltCount)]

/-- A controller's registers (R217). -/
def State.ctrlRegs (s : State) (c : Nat) : List RegView :=
  let x := s.ctrl c; let o := 0x100 + 0x40 * c
  [(o, 8, x.snap.prog), (o + 8, 8, x.snap.check), (o + 16, 8, x.snap.bg), (o + 24, 8, x.snap.idle), (o + 32, 4, x.urgent),
    (o + 36, 4, x.corr + x.retry * 2 ^ 16), (o + 40, 4, x.tempCase + x.rateCode * 2 ^ 8)]

/-- A region-table entry (R217). -/
def State.farRegionRegs (s : State) (r : Nat) : List RegView :=
  let x := s.farRegion r; let o := 0x1000 + 0x20 * r
  [(o, 4, x.ctrlFirst + x.ctrlCount * 2 ^ 6 + bitAt 12 x.unit + bitAt 13 x.ro + bitAt 14 x.host + bitAt 15 x.valid),
    (o + 4, 4, x.localBase), (o + 8, 4, x.size)]

/-- MEM (R217). -/
def State.memRegs (s : State) : List RegView :=
  let f := s.far
  [(0x000, 4, bitAt 1 f.bgEnlarged),
    (0x004, 4, f.rate + bitAt 2 f.degraded + bitAt 3 f.hot + bitAt 4 f.selfRefresh + f.caseMax * 2 ^ 5), (0x008, 8, f.ssSnap.tick),
    (0x010, 8, f.ssSnap.slots), (0x018, 8, f.ssSnap.rd), (0x020, 8, f.ssSnap.wr), (0x028, 8, f.ssSnap.defer), (0x030, 4, f.ssCorr),
    (0x034, 4, f.ssHostRefused), (0x038, 4, f.hazCtrl + f.hazQueue * 2 ^ 6 + f.hazCore * 2 ^ 11 + bitAt 19 f.hazValid),
    (0x040, 8, f.hazAddr)] ++ (List.range 36).flatMap s.ctrlRegs ++ (List.range 16).flatMap s.farRegionRegs

/-- A slot of the resident-model table (R271). -/
def State.slotRegs (s : State) (i : Nat) : List RegView :=
  let x := s.rmSlot i; let o := 0x1000 + 0x80 * i
  [(o, 4, x.state.code + min 65535 x.pins * 2 ^ 2 + x.jobs * 2 ^ 18), (o + 4, 4, x.base), (o + 8, 8, x.size), (o + 16, 8, x.lastUse),
    (o + 0x18, 48, digestValue x.digest), (o + 0x48, 48, if x.state = .resident then digestValue x.resDigest else 0)]

/-- Broadcast ranges that are not complete. -/
def Cas.rangesOpen (c : Cas) : Nat :=
  c.loads.foldl (fun n l => if l.phase = .failed then n else n + (l.ranges.filter fun r => r.ackNext ≤ r.last).length) 0

/-- CAS (R271). The engines take no time of their own here, so none is ever seen transforming. RANGES stays at its greatest value, 64, while
more are in progress (DESIGN CHOICE, log entry 179). -/
def State.casRegs (s : State) : List RegView :=
  let c := s.cas
  [(0x000, 4, (c.slots.filter fun e => e.2.state = .loading).length + min 64 c.rangesOpen * 2 ^ 8),
    (0x004, 4, c.faultCode.toNat + c.faultSlot * 2 ^ 16 + bitAt 24 c.faultValid), (0x008, 4, c.faultIndex.toNat), (0x010, 8, c.bytesOut)] ++
    c.slots.flatMap fun e => s.slotRegs e.1

/-- What is left of an injection as INJ_LEFT shows it. -/
def LinkPort.injLeft (x : LinkPort) : Nat := match x.inj with | some j => min 2047 j.left | none => 0

/-- LINK, port `p` (R376). -/
def State.linkRegs (s : State) (p : Nat) : List RegView :=
  let x := s.port p
  let n := fun k => x.count.find 0 k
  [(0x000, 4, x.mode + bitAt 3 x.x8Test + x.e2eClass * 2 ^ 4),
    (0x004, 4, x.state.code + x.modeNow * 2 ^ 3 + bitAt 5 x.x8 + x.phase * 2 ^ 6 + bitAt 9 x.downSeen),
    (0x008, 4, x.peerAddr + x.peerPort * 2 ^ 18 + bitAt 22 x.peerValid), (0x00C, 4, x.replayNs + x.nakNs * 2 ^ 16), (0x010, 4, x.e2eNs),
    (0x014, 4, x.delayPs), (0x018, 4, x.downMs), (0x01C, 4, x.depth + x.qMax * 2 ^ 16)] ++
    ((List.range 16).map fun k => (0x040 + 8 * k, 8, n k)) ++ [(0x0C0, 4, x.retrains + x.lastCause * 2 ^ 16), (0x0C4, 4, n 16)]

/-- FAB (R412). -/
def State.fabRegs (s : State) : List RegView :=
  let f := s.fab
  let parent := if f.lead || s.image.isNone then none else s.parentPort
  [(0x000, 4, s.fabAddrWord), (0x004, 4, f.rank + bitAt 18 f.lead), (0x008, 4, f.moduleCount), (0x00C, 4, f.leadAddr),
    (0x010, 4, f.active + (s.bank 0).state.code * 2 + (s.bank 1).state.code * 16), (0x018, 8, f.switchAt), (0x020, 4, s.drain 0),
    (0x024, 4, s.drain 1), (0x028, 8, (s.bank 0).oldSeen), (0x030, 8, (s.bank 1).oldSeen),
    (0x038, 4, (BitVec.ofInt 32 f.offsetPs).toNat),
    (0x03C, 4, bitAt 0 s.alignedNow + parent.getD 0 * 2 + bitAt 5 parent.isSome + s.missed * 2 ^ 16), (0x040, 4, f.beaconUs),
    (0x048, 8, f.launchAt), (0x050, 4, f.fence + bitAt 16 f.fenceSelf), (0x058, 8, f.fenceDrops), (0x060, 8, f.discards),
    (0x068, 4, f.discDest + f.discCause * 2 ^ 18), (0x070, 8, f.clearStep.getD 0)]

/-- SEC (R475). -/
def State.secRegs (s : State) : List RegView :=
  let x := s.sec
  [(0x000, 4, x.fuses.lc + bitAt 3 x.owner.isSome + bitAt 4 (x.anchor ≠ []) + bitAt 5 (x.boot = .recovery) + bitAt 6 x.fwInvalid +
      x.fuses.svn * 2 ^ 7 + x.runSvn * 2 ^ 14 + x.fuses.ownerEpoch * 2 ^ 21),
    (0x004, 4, x.recCause), (0x008, 4, x.tamperCount + x.tamperLast * 2 ^ 16), (0x010, 8, x.signs)]

/-- PWR (R496). -/
def State.pwrRegs (s : State) : List RegView :=
  let p := s.power
  [(0x000, 4, p.mode.code + bitAt 3 p.exiting + bitAt 8 p.brake + p.causeBits * 2 ^ 9 + p.policyCap * 2 ^ 13 + p.requested * 2 ^ 17),
    (0x004, 4, bitAt 0 p.latencyBounded), (0x008, 4, p.wakeBoundUs), (0x010, 8, p.stepDue),
    (0x018, 4, p.policy + p.cap * 2 ^ 2 + p.powerCapW * 2 ^ 6 + 0x64 * 2 ^ 18), (0x01C, 4, p.tjMax + p.sensor * 2 ^ 8 + p.coolantIn * 2 ^ 15),
    (0x020, 4, p.vin + p.pinW * 2 ^ 16), (0x068, 4, p.brakes), (0x070, 4, p.wdtTimeoutMs + p.lastCause * 2 ^ 16),
    (0x078, 4, p.lastResetKind + p.lastResetCode.toNat * 2 ^ 16)] ++
    (List.range 5).map fun k => (0x040 + 8 * k, 8, p.residency.find 0 k)

/-- A port's test registers (R532). -/
def State.patRegs (s : State) (p : Nat) : List RegView :=
  let x := s.port p; let y := x.pat; let o := 0x1000 + 0x100 * p
  [(o, 4, y.pattern + bitAt 3 y.tx + bitAt 4 y.rx + bitAt 5 y.width8 + bitAt 6 y.wl1Rate),
    (o + 4, 4, y.lockMask + bitAt 16 x.inj.isSome + x.injLeft * 2 ^ 17), (o + 8, 8, y.bits)] ++
    (List.range 16).map fun l => (o + 0x40 + 8 * l, 8, (y.lanes.find .init l).err)

/-- TEST (R532). -/
def State.testRegs (s : State) : List RegView :=
  ((List.range 8).map fun i =>
    let x := s.test.sel.find .init i
    (4 * i, 4, x.signal + x.arg * 2 ^ 8 + x.div * 2 ^ 15)) ++
  [(0x020, 4, bitAt 0 (s.pace.debugStop.isSome && !s.debugStopped) + bitAt 1 s.debugStopped), (0x028, 8, s.pace.debugStop.getD 0)] ++
    (List.range 16).flatMap s.patRegs

/-- EVC_CFG of a source as read. -/
def Source.cfgWord (x : Source) : Nat :=
  x.level + bitAt 4 x.enable + x.modCount * 2 ^ 5 + x.modTimeUs * 2 ^ 16 + x.ageUs * 2 ^ 32

/-- EVC_STATE of a source as read; PROMOTED counts an age limit that has passed. -/
def Source.stateWord (x : Source) (gsc : Nat) : Nat :=
  x.state.code + bitAt 2 (if x.state = .eligible then x.aged gsc else x.promoted) + bitAt 3 x.again + min 65535 x.raises * 2 ^ 16

/-- EVC (R437). A read through this view claims nothing: EVC_CLAIM reads 0. -/
def State.evcRegs (s : State) : List RegView :=
  let e := s.host.evc
  [(0x00C, 4, bitAt 0 e.idleWait),
    (0x010, 4, e.stack.length + (match e.stack with | t :: _ => t.2 | [] => 0) * 2 ^ 5 + bitAt 9 e.order)] ++
    (e.stackLog.reverse.zipIdx.map fun x => (0x040 + 4 * x.2, 4, x.1.1 + x.1.2 * 2 ^ 10 + bitAt 14 true)) ++
    (List.range 896).flatMap fun n =>
      let x := s.source n
      [(0x1000 + 8 * n, 8, x.cfgWord), (0x3000 + 4 * n, 4, x.stateWord s.gsc)]

/-- The block at a management-processor address [31:16] (0x2A00 to 0x3400), for LINK the port of [15:12]. -/
def State.block (s : State) (b p : Nat) : List RegView :=
  match b with
  | 0x2A00 => s.evcRegs | 0x2C00 => s.coreBlock | 0x2D00 => s.paceRegs | 0x2E00 => s.memRegs | 0x2F00 => s.casRegs
  | 0x3000 => s.linkRegs p | 0x3100 => s.fabRegs | 0x3200 => s.secRegs | 0x3300 => s.pwrRegs | 0x3400 => s.testRegs
  | _ => []

/-- `n` bytes at a management-processor address. -/
def State.mpRead (s : State) (addr n : Nat) : Bytes :=
  let b := addr / 0x10000; let o := addr % 0x10000
  regBytes (s.block b (o / 0x1000)) (if b = 0x3000 then o % 0x1000 else o) n

/-! ### BAR0 (R418) -/

/-- The ring registers (R311). -/
def State.rqRegs (s : State) (r : Nat) : List RegView :=
  let x := s.reqRing r; let o := 0x20 * r
  [(o, 8, x.base), (o + 8, 4, x.log2 + bitAt 5 x.enable + bitAt 6 x.error), (o + 12, 4, x.tail.toNat), (o + 16, 4, x.head.toNat)]

def State.cqRegs (s : State) (r : Nat) : List RegView :=
  let x := s.cpl r; let o := 0x20 * r
  [(o, 8, x.base), (o + 8, 4, x.log2 + bitAt 5 x.enable + x.vector * 2 ^ 7), (o + 12, 4, x.head.toNat), (o + 16, 4, x.tail.toNat),
    (o + 20, 4, bitAt 0 x.waiting), (o + 24, 4, x.modCount + x.modTimeUs * 2 ^ 8)]

/-- The record ring (R339). HELD: stage 4 stands before a record that cannot be written yet. -/
def State.recRegs (s : State) : List RegView :=
  let x := s.recs
  let opened := match x.opened with | some b => b.leaves.length | none => 0
  [(0x00, 8, x.base), (0x08, 4, x.log2 + bitAt 5 x.enable + x.vector * 2 ^ 7 + x.sealMs * 2 ^ 14), (0x0C, 4, x.head.toNat),
    (0x10, 4, x.tail.toNat), (0x14, 4, opened + x.staged.length * 2 ^ 13 + bitAt 16 (s.srv.stage4 && !s.canRecord)), (0x18, 8, x.next),
    (0x20, 8, x.blockNext)]

/-- The event log (R441). -/
def State.evlRegs (s : State) : List RegView :=
  let e := s.host.evc
  [(0x00, 8, e.evlBase.toNat), (0x08, 4, e.evlLog2 + bitAt 5 e.evlEnable + e.evlVector * 2 ^ 6 + e.evlLost * 2 ^ 16), (0x0C, 4, e.evlHead),
    (0x10, 4, e.evlTail)]

/-- The BAR2 window registers (R419). -/
def State.winRegs (s : State) : List RegView :=
  ((List.range 16).flatMap fun w =>
    let x := s.host.win.find .init w
    [(0x10 * w, 4, x.target + x.region * 4), (0x10 * w + 8, 8, x.base * 2 ^ 16)]) ++ [(0x100, 4, s.host.winRefused)]

/-- The MSI-X table. -/
def State.msixRegs (s : State) : List RegView :=
  (List.range 128).flatMap fun v =>
    let e := s.host.msix.find .init v
    [(16 * v, 8, e.addr.toNat), (16 * v + 8, 4, e.data.toNat), (16 * v + 12, 4, bitAt 0 e.masked)]

/-- The MSI-X pending bits. -/
def State.msixPending (s : State) : Nat := (List.range 128).foldl (fun n v => n + bitAt v (s.host.msix.find .init v).pend) 0

/-- MB_STATUS: BUSY, DONE, OVERRUN (R424). -/
def Channel.status (x : Channel) : Nat := bitAt 0 x.busy + bitAt 1 x.done + bitAt 2 x.overrun

/-- A mailbox channel's 8 KiB: command buffer, channel registers, response page (R423). -/
def State.mailboxRead (s : State) (c o n : Nat) : Bytes :=
  let x := s.chan c
  (List.range n).map fun i =>
    let a := o + i
    if a < 0xFF0 then x.buf.get a
    else if a < 0x1000 then regByte [(0xFF4, 4, x.status), (0xFF8, 4, x.vector + bitAt 7 x.vecEn)] a
    else match x.resp with
      | some r => (r.header ++ r.payload).getD (a - 0x1000) 0#8
      | none => 0#8

/-- The block a test-and-debug or event-controller offset of BAR0 shows: the management-processor address [31:16]. -/
def debugBlock (page : Nat) : Option Nat :=
  match page with
  | 0x0010 => some 0x2A00 | 0x0101 => some 0x2D00 | 0x0102 => some 0x2C00 | 0x0103 => some 0x2E00 | 0x0104 => some 0x2F00
  | 0x0105 => some 0x3000 | 0x0106 => some 0x3100 | 0x0107 => some 0x3200 | 0x0108 => some 0x3300 | 0x0109 => some 0x3400
  | _ => none

/-- Whether BAR0 accepts a read of `n` bytes at `o`. -/
def bar0ReadOk (o n : Nat) : Bool :=
  ((n = 4 || n = 8) && o % n = 0) ||
    ((o < 0x1000 || (0x10000 ≤ o && o < 0x20000)) && [1, 2, 4, 8, 16, 32, 64].contains n && o % n = 0)

/-- What BAR0 answers to a read of `n` bytes at offset `o`; nothing but the mirror once the module has halted. -/
def State.bar0Read (s : State) (o n : Nat) : Bytes :=
  if !bar0ReadOk o n then zeros n
  else if o < 0x1000 then sub s.mirror o n
  else if s.deaf then zeros n
  else if o < 0x10000 then zeros n
  else if o < 0x20000 then s.mailboxRead ((o - 0x10000) / 0x2000) (o % 0x2000) n
  else if o < 0x20800 then regBytes (s.rqRegs ((o - 0x20000) / 0x20)) (o - 0x20000) n
  else if o < 0x21000 then regBytes (s.cqRegs ((o - 0x20800) / 0x20)) (o - 0x20800) n
  else if o < 0x21040 then regBytes s.recRegs (o - 0x21000) n
  else if 0x21800 ≤ o && o < 0x21820 then regBytes s.evlRegs (o - 0x21800) n
  else if 0x22000 ≤ o && o < 0x22200 then regBytes s.winRegs (o - 0x22000) n
  else if 0x30000 ≤ o && o < 0x30800 then regBytes s.msixRegs (o - 0x30000) n
  else if 0x31000 ≤ o && o < 0x31010 then regBytes [(0, 16, s.msixPending)] (o - 0x31000) n
  else match debugBlock (o / 0x10000) with
    | some b => s.mpRead (b * 0x10000 + o % 0x10000) n
    | none => zeros n

end Sys2Proof.Machine
end

