-- ==== Sys2Proof/Machine/RegWrite.lean ====
section
/-! DEFINITION. REGISTER_WRITE (R9, R418): a write of a register updates its writable fields, clears the W1C bits it writes as 1, and
ignores the rest. Where a register has a row of its own, that row is what the write does. -/
namespace Sys2Proof.Machine

/-- An 8 B register after a 4 B write to its low or its high half (R418). -/
def halfWrite (old : Nat) (hi : Bool) (v : Nat) : Nat := if hi then old % 2 ^ 32 + v * 2 ^ 32 else old / 2 ^ 32 * 2 ^ 32 + v

/-! ### Host registers in BAR0 -/

/-- A word of a mailbox channel's command page (R423, R424). -/
def mailboxWrite (c o : Nat) (v : W32) (s : State) : Out State :=
  let x := s.chan c
  if o < 0xFF0 then .next (if x.busy then s else s.setChan c { x with buf := x.buf.write o (leBytes 4 v.toNat) })
  else match o with
    | 0xFF0 => execMbDoorbell c v s
    | 0xFF4 => .next (s.setChan c { x with overrun := x.overrun && !bit v.toNat 2 })
    | 0xFF8 => .next (s.setChan c { x with vector := bits v.toNat 6 0, vecEn := bit v.toNat 7 })
    | _ => .next s

/-- A word of request ring `r` (R311). -/
def rqWrite (r o : Nat) (v : W32) (s : State) : Out State :=
  let x := s.reqRing r
  match o with
  | 0x00 | 0x04 => .next (if x.enable then s else s.setReqRing r { x with base := halfWrite x.base (o = 4) v.toNat / 64 * 64 })
  | 0x08 => execRqCfg r v s
  | 0x0C => execRqTail r v s
  | _ => .next s

/-- A word of completion ring `r` (R311). -/
def cqWrite (r o : Nat) (v : W32) (s : State) : Out State :=
  let x := s.cpl r
  match o with
  | 0x00 | 0x04 => .next (if x.enable then s else s.setCpl r { x with base := halfWrite x.base (o = 4) v.toNat / 64 * 64 })
  | 0x08 => execCqCfg r v s
  | 0x0C => execCqHead r v s
  | 0x14 => execCqArm r (bit v.toNat 0) s
  | 0x18 => .next (s.setCpl r { x with modCount := bits v.toNat 7 0, modTimeUs := bits v.toNat 23 8 })
  | _ => .next s

/-- A word of the record ring (R329, R339). -/
def recWrite (o : Nat) (v : W32) (s : State) : Out State :=
  let x := s.recs
  match o with
  | 0x00 | 0x04 => .next (if s.recLocked then s else s.withRecs { x with base := halfWrite x.base (o = 4) v.toNat / 512 * 512 })
  | 0x08 => execRecCfg v s
  | 0x0C => execRecHead v s
  | _ => .next s

/-- A word of the event log's registers (R441). -/
def evlWrite (o : Nat) (v : W32) (s : State) : Out State :=
  let e := s.host.evc
  match o with
  | 0x00 | 0x04 => .next (s.withEvc { e with evlBase := BitVec.ofNat 64 (halfWrite e.evlBase.toNat (o = 4) v.toNat / 32 * 32) })
  | 0x08 => execEvlCfg v s
  | 0x0C => .next (s.withEvc { e with evlHead := v.toNat })
  | _ => .next s

/-- A word of aperture `w` (R419). -/
def winWrite (w o : Nat) (v : W32) (s : State) : Out State :=
  let x := s.host.win.find .init w
  let put := fun (y : Aperture) => s.withHost { s.host with win := s.host.win.put w y }
  match o with
  | 0x00 => .next (put { x with target := bits v.toNat 1 0, region := bits v.toNat 5 2 })
  | 0x08 | 0x0C => .next (put { x with base := halfWrite (x.base * 2 ^ 16) (o = 0x0C) v.toNat / 2 ^ 16 % 2 ^ 32 })
  | _ => .next s

/-- A word of MSI-X entry `n`; taking the mask away sends a pending message. -/
def msixWrite (n o : Nat) (v : W32) (s : State) : Out State :=
  let e := s.host.msix.find .init n
  let put := fun (y : MsixEntry) => s.withHost { s.host with msix := s.host.msix.put n y }
  match o with
  | 0x0 | 0x4 => .next (put { e with addr := BitVec.ofNat 64 (halfWrite e.addr.toNat (o = 4) v.toNat) })
  | 0x8 => .next (put { e with data := v })
  | _ =>
    let t := put { e with masked := bit v.toNat 0 }
    .next (if e.pend && !bit v.toNat 0 then t.sendVector n else t)

/-- One word written by the host at BAR0 offset `o`; what is not listed, and what is read-only, ignores it (R418). -/
def bar0Write (o : Nat) (v : W32) (s : State) : Out State :=
  if 0x10000 ≤ o && o < 0x20000 then mailboxWrite ((o - 0x10000) / 0x2000) (o % 0x2000) v s
  else if 0x20000 ≤ o && o < 0x20800 then rqWrite ((o - 0x20000) / 0x20) (o % 0x20) v s
  else if 0x20800 ≤ o && o < 0x21000 then cqWrite ((o - 0x20800) / 0x20) (o % 0x20) v s
  else if 0x21000 ≤ o && o < 0x21040 then recWrite (o - 0x21000) v s
  else if 0x21800 ≤ o && o < 0x21820 then evlWrite (o - 0x21800) v s
  else if 0x22000 ≤ o && o < 0x22100 then winWrite ((o - 0x22000) / 0x10) (o % 0x10) v s
  else if 0x30000 ≤ o && o < 0x30800 then msixWrite ((o - 0x30000) / 16) (o % 16) v s
  else .next s

/-! ### Registers the management processor writes -/

/-- PACE (R56). SNAP is TELEMETRY_SNAP's alone. -/
def paceWrite (o : Nat) (v : W32) (s : State) : Out State :=
  let p := s.pace; let n := v.toNat
  match o with
  | 0x000 =>
    let s : State := { s with pace := { p with
      gearMode := bit n 1, calEn := bit n 2, gearCap := bits n 7 4, gearTarget := bits n 11 8, holdReq := bit n 13 } }
    let s := if bit n 12 && s.pace.calValid then s.startGear (bits n 11 8) else s
    .next s.followGear
  | 0x004 => .next { s with pace := { p with clamped := p.clamped && !bit n 5 } }
  | 0x008 => .next { s with pace := { p with gearLead := v } }
  | 0x040 => .next { s with pace := { p with farLimitUs := bits n 15 0, fabLimitMs := bits n 31 16 } }
  | 0x044 => .next { s with pace := { p with lostSeen := p.lostSeen && !bit n 1 } }
  | 0x048 => .next { s with pace := { p with calErr := p.calErr && !bit n 24 } }
  | 0x04C => .next (if bit n 31 then { s with pace := { p with stretchMax := 0, stretchRegion := 0 } } else s)
  | _ => .next s

/-- CAS (R271). -/
def casWrite (o : Nat) (v : W32) (s : State) : Out State :=
  if o = 0x004 then .next (s.withCas { s.cas with faultValid := s.cas.faultValid && !bit v.toNat 24 }) else .next s

/-- LINK, port `p` (R376). -/
def linkWrite (p o : Nat) (v : W32) (s : State) : Out State :=
  let x := s.port p; let n := v.toNat
  match o with
  | 0x000 =>
    let y := { x with x8Test := bit n 3, e2eClass := bits n 6 4 }
    .next (if bit n 2 && x.state = .active && bits n 1 0 = x.mode then ((s.setPort p y).retrain p 3).recut
      else ((s.setPort p { y with mode := bits n 1 0 }).startTraining p).recut)
  | 0x004 => .next (s.setPort p { x with downSeen := x.downSeen && !bit n 9 })
  | 0x00C => .next (s.setPort p { x with replayNs := bits n 15 0, nakNs := bits n 31 16 })
  | 0x010 => .next (s.setPort p { x with e2eNs := n })
  | 0x018 => .next (s.setPort p { x with downMs := bits n 15 0 })
  | 0x01C => .next (if bit n 31 then s.setPort p { x with qMax := x.depth } else s)
  | _ => .next s

/-- FAB (R412). -/
def fabWrite (o : Nat) (v : W32) (s : State) : Out State :=
  match o with
  | 0x040 => .next (s.withFab { s.fab with beaconUs := bits v.toNat 15 0 })
  | 0x050 => .next (s.withFab { s.fab with fence := bits v.toNat 15 0 }).fenceSources
  | _ => .next s

/-- PWR (R496). -/
def pwrWrite (o : Nat) (v : W32) (s : State) : Out State :=
  let p := s.power; let n := v.toNat
  match o with
  | 0x004 => .next (s.withPower { p with latencyBounded := bit n 0 })
  | 0x008 => .next (s.withPower { p with wakeBoundUs := n })
  | 0x010 | 0x014 => .next (s.setHint (halfWrite p.stepDue (o = 0x014) n))
  | 0x018 => .next (s.withPower { p with policy := bits n 1 0, cap := bits n 5 2, powerCapW := bits n 17 6 })
  | 0x070 =>
    let s := s.withPower { p with wdtTimeoutMs := bits n 13 0 }
    if bit n 14 then execKick s else .next s
  | _ => .next s

/-- TEST (R532). -/
def testWrite (o : Nat) (v : W32) (s : State) : Out State :=
  let n := v.toNat
  if o < 0x20 then
    .next (s.selectObs (o / 4) { signal := bits n 7 0, arg := bits n 14 8, div := bits n 18 15 })
  else if 0x1000 ≤ o && o < 0x2000 && o % 0x100 = 0 then
    let p := (o - 0x1000) / 0x100
    .next (s.setPort p ((s.port p).setPattern (bits n 2 0) (bits n 7 3)))
  else .next s

/-- EVC (R434 to R437). -/
def evcWrite (o : Nat) (v : W32) (s : State) : Out State :=
  let n := v.toNat
  match o with
  | 0x000 => execEvcDoorbell (bits n 9 0) s
  | 0x008 => execEvcDone (bits n 9 0) s
  | 0x00C => .next (s.setIdleWait (bit n 0))
  | _ =>
    if 0x1000 ≤ o && o < 0x2C00 then
      let k := (o - 0x1000) / 8
      let x := s.source k
      .next (s.setSource k (if o % 8 = 0 then
          { x with level := bits n 3 0, enable := bit n 4, modCount := bits n 12 5, modTimeUs := bits n 31 16 }
        else { x with ageUs := n }))
    else .next s

/-- One word written by the management processor. -/
def mpWrite (a : Nat) (v : W32) (s : State) : Out State :=
  let o := a % 0x10000
  match a / 0x10000 with
  | 0x2A00 => evcWrite o v s | 0x2D00 => paceWrite o v s | 0x2F00 => casWrite o v s
  | 0x3000 => linkWrite (o / 0x1000) (o % 0x1000) v s | 0x3100 => fabWrite o v s | 0x3300 => pwrWrite o v s | 0x3400 => testWrite o v s
  | _ => .next s

/-- One word written by either. -/
def wordWrite (host : Bool) (a : Nat) (v : W32) (s : State) : Out State := if host then bar0Write a v s else mpWrite a v s

/-- REGISTER_WRITE: `size` bytes at `addr`, a BAR0 offset for the host, a management-processor address otherwise. An aligned 4 B or 8 B
write is accepted, the 8 B one as its two halves, but STEP_DUE at once; any other is ignored. -/
def execRegisterWrite (host : Bool) (addr size : Nat) (v : W64) (s : State) : Out State :=
  if s.deaf then .next s
  else if size = 4 && addr % 4 = 0 then wordWrite host addr (v.setWidth 32) s
  else if size = 8 && addr % 8 = 0 then
    if !host && addr = 0x33000010 then .next (s.setHint v.toNat)
    else match wordWrite host addr (v.setWidth 32) s with
      | .next t => wordWrite host (addr + 4) ((v >>> 32).setWidth 32) t
      | o => o
  else .next s

end Sys2Proof.Machine
end

