-- ==== Sys2Proof/Machine/Dispatch.lean ====
section
/-! DEFINITION. The dispatch: one arm per constructor of Instr. -/
namespace Sys2Proof.Machine

/-- What a command does to everything but the queue. -/
def exec (i : Instr) (s : State) : Host.Outcome State Fault Refusal :=
  match i with
  | .nop x0 x1 x2 => Sys2Proof.Machine.execNop x0 x1 x2 s
  | .li x0 x1 x2 => Sys2Proof.Machine.execLi x0 x1 x2 s
  | .add x0 x1 x2 => Sys2Proof.Machine.execAdd x0 x1 x2 s
  | .sub x0 x1 x2 => Sys2Proof.Machine.execSub x0 x1 x2 s
  | .and x0 x1 x2 => Sys2Proof.Machine.execAnd x0 x1 x2 s
  | .or x0 x1 x2 => Sys2Proof.Machine.execOr x0 x1 x2 s
  | .xor x0 x1 x2 => Sys2Proof.Machine.execXor x0 x1 x2 s
  | .shl x0 x1 x2 => Sys2Proof.Machine.execShl x0 x1 x2 s
  | .shr x0 x1 x2 => Sys2Proof.Machine.execShr x0 x1 x2 s
  | .sra x0 x1 x2 => Sys2Proof.Machine.execSra x0 x1 x2 s
  | .mul x0 x1 x2 => Sys2Proof.Machine.execMul x0 x1 x2 s
  | .min x0 x1 x2 => Sys2Proof.Machine.execMin x0 x1 x2 s
  | .max x0 x1 x2 => Sys2Proof.Machine.execMax x0 x1 x2 s
  | .cmp x0 x1 x2 => Sys2Proof.Machine.execCmp x0 x1 x2 s
  | .br x0 x1 x2 => Sys2Proof.Machine.execBr x0 x1 x2 s
  | .loop x0 x1 x2 => Sys2Proof.Machine.execLoop x0 x1 x2 s
  | .loopEnd x0 => Sys2Proof.Machine.execLoopEnd x0 s
  | .halt x0 x1 => Sys2Proof.Machine.execHalt x0 x1 s
  | .tickrd x0 x1 x2 => Sys2Proof.Machine.execTickrd x0 x1 x2 s
  | .gscrd x0 x1 x2 => Sys2Proof.Machine.execGscrd x0 x1 x2 s
  | .param x0 x1 x2 => Sys2Proof.Machine.execParam x0 x1 x2 s
  | .vld x0 x1 x2 => Sys2Proof.Machine.execVld x0 x1 x2 s
  | .vst x0 x1 x2 => Sys2Proof.Machine.execVst x0 x1 x2 s
  | .sld x0 x1 x2 => Sys2Proof.Machine.execSld x0 x1 x2 s
  | .sst x0 x1 x2 => Sys2Proof.Machine.execSst x0 x1 x2 s
  | .aadd x0 x1 x2 => Sys2Proof.Machine.execAadd x0 x1 x2 s
  | .asub x0 x1 x2 => Sys2Proof.Machine.execAsub x0 x1 x2 s
  | .ali x0 x1 x2 x3 => Sys2Proof.Machine.execAli x0 x1 x2 x3 s
  | .aset x0 x1 x2 x3 => Sys2Proof.Machine.execAset x0 x1 x2 x3 s
  | .aget x0 x1 x2 x3 => Sys2Proof.Machine.execAget x0 x1 x2 x3 s
  | .mcfg x0 x1 x2 => Sys2Proof.Machine.execMcfg x0 x1 x2 s
  | .mma x0 x1 x2 => Sys2Proof.Machine.execMma x0 x1 x2 s
  | .mmag x0 x1 x2 => Sys2Proof.Machine.execMmag x0 x1 x2 s
  | .accumulatorCommit x0 x1 => Sys2Proof.Machine.execAccumulatorCommit x0 x1 s
  | .mclr x0 x1 x2 => Sys2Proof.Machine.execMclr x0 x1 x2 s
  | .mout x0 x1 x2 => Sys2Proof.Machine.execMout x0 x1 x2 s
  | .mmode x0 x1 x2 => Sys2Proof.Machine.execMmode x0 x1 x2 s
  | .vadd x0 x1 x2 => Sys2Proof.Machine.execVadd x0 x1 x2 s
  | .vmul x0 x1 x2 => Sys2Proof.Machine.execVmul x0 x1 x2 s
  | .vfma x0 x1 x2 => Sys2Proof.Machine.execVfma x0 x1 x2 s
  | .vmin x0 x1 x2 => Sys2Proof.Machine.execVmin x0 x1 x2 s
  | .vmax x0 x1 x2 => Sys2Proof.Machine.execVmax x0 x1 x2 s
  | .vcmp x0 x1 x2 => Sys2Proof.Machine.execVcmp x0 x1 x2 s
  | .vsel x0 x1 x2 => Sys2Proof.Machine.execVsel x0 x1 x2 s
  | .vshuf x0 x1 x2 => Sys2Proof.Machine.execVshuf x0 x1 x2 s
  | .vred x0 x1 x2 => Sys2Proof.Machine.execVred x0 x1 x2 s
  | .vcvt x0 x1 x2 => Sys2Proof.Machine.execVcvt x0 x1 x2 s
  | .vqnt x0 x1 x2 => Sys2Proof.Machine.execVqnt x0 x1 x2 s
  | .vfn x0 x1 x2 => Sys2Proof.Machine.execVfn x0 x1 x2 s
  | .vtopkInit x0 x1 x2 => Sys2Proof.Machine.execVtopkInit x0 x1 x2 s
  | .vtopkMerge x0 x1 x2 => Sys2Proof.Machine.execVtopkMerge x0 x1 x2 s
  | .vtopkRead x0 x1 x2 => Sys2Proof.Machine.execVtopkRead x0 x1 x2 s
  | .vpen x0 x1 x2 => Sys2Proof.Machine.execVpen x0 x1 x2 s
  | .vdrawDraw x0 x1 x2 => Sys2Proof.Machine.execVdrawDraw x0 x1 x2 s
  | .vdrawSelect x0 x1 x2 => Sys2Proof.Machine.execVdrawSelect x0 x1 x2 s
  | .vdrawClrsel x0 x1 => Sys2Proof.Machine.execVdrawClrsel x0 x1 s
  | .ssr x0 x1 x2 => Sys2Proof.Machine.execSsr x0 x1 x2 s
  | .ssw x0 x1 x2 => Sys2Proof.Machine.execSsw x0 x1 x2 s
  | .msend x0 x1 x2 => Sys2Proof.Machine.execMsend x0 x1 x2 s
  | .mrecv x0 x1 x2 x3 => Sys2Proof.Machine.execMrecv x0 x1 x2 x3 s
  | .gath x0 x1 x2 x3 => Sys2Proof.Machine.execGath x0 x1 x2 x3 s
  | .qpush x0 x1 x2 => Sys2Proof.Machine.execQpush x0 x1 x2 s
  | .qarm x0 x1 x2 => Sys2Proof.Machine.execQarm x0 x1 x2 s
  | .qwait x0 x1 x2 => Sys2Proof.Machine.execQwait x0 x1 x2 s
  | .qstat x0 x1 x2 => Sys2Proof.Machine.execQstat x0 x1 x2 s
  | .pieceDeferral x0 => Sys2Proof.Machine.execPieceDeferral x0 s
  | .lineDeferral x0 => Sys2Proof.Machine.execLineDeferral x0 s
  | .meshUnitArrival x0 x1 => Sys2Proof.Machine.execMeshUnitArrival x0 x1 s
  | .endpointUnit x0 x1 => Sys2Proof.Machine.execEndpointUnit x0 x1 s
  | .landingTransfer x0 => Sys2Proof.Machine.execLandingTransfer x0 s
  | .queueCompletion x0 x1 => Sys2Proof.Machine.execQueueCompletion x0 x1 s
  | .tickIssue x0 => Sys2Proof.Machine.execTickIssue x0 s
  | .tickToken x0 x1 x2 => Sys2Proof.Machine.execTickToken x0 x1 x2 s
  | .periodElapsed x0 => Sys2Proof.Machine.execPeriodElapsed x0 s
  | .gateRelease x0 => Sys2Proof.Machine.execGateRelease x0 s
  | .supplyDroop x0 x1 => Sys2Proof.Machine.execSupplyDroop x0 x1 s
  | .gearSwitchCount => Sys2Proof.Machine.execGearSwitchCount s
  | .regionRetuneDone x0 => Sys2Proof.Machine.execRegionRetuneDone x0 s
  | .calibration x0 => Sys2Proof.Machine.execCalibration x0 s
  | .trimBuild => Sys2Proof.Machine.execTrimBuild s
  | .refLossEvent => Sys2Proof.Machine.execRefLossEvent s
  | .refLoss => Sys2Proof.Machine.execRefLoss s
  | .refRestored => Sys2Proof.Machine.execRefRestored s
  | .paceStall x0 => Sys2Proof.Machine.execPaceStall x0 s
  | .tsTimeoutFar x0 => Sys2Proof.Machine.execTsTimeoutFar x0 s
  | .tsTimeoutFabric x0 => Sys2Proof.Machine.execTsTimeoutFabric x0 s
  | .retuneTimeout x0 => Sys2Proof.Machine.execRetuneTimeout x0 s
  | .channelSlot x0 x1 x2 => Sys2Proof.Machine.execChannelSlot x0 x1 x2 s
  | .farRequest x0 x1 x2 => Sys2Proof.Machine.execFarRequest x0 x1 x2 s
  | .backgroundUrgent x0 => Sys2Proof.Machine.execBackgroundUrgent x0 s
  | .mr4Poll x0 => Sys2Proof.Machine.execMr4Poll x0 s
  | .farTraining x0 x1 => Sys2Proof.Machine.execFarTraining x0 x1 s
  | .ident x0 => Sys2Proof.Machine.execIdent x0 s
  | .jobLoad x0 x1 => Sys2Proof.Machine.execJobLoad x0 x1 s
  | .jobServe x0 => Sys2Proof.Machine.execJobServe x0 s
  | .jobArm x0 => Sys2Proof.Machine.execJobArm x0 s
  | .jobLaunch x0 => Sys2Proof.Machine.execJobLaunch x0 s
  | .jobPause x0 => Sys2Proof.Machine.execJobPause x0 s
  | .jobSave x0 x1 => Sys2Proof.Machine.execJobSave x0 x1 s
  | .jobRestore x0 x1 => Sys2Proof.Machine.execJobRestore x0 x1 s
  | .jobResume x0 => Sys2Proof.Machine.execJobResume x0 s
  | .jobUnload x0 => Sys2Proof.Machine.execJobUnload x0 s
  | .jobStop x0 => Sys2Proof.Machine.execJobStop x0 s
  | .auditReplay x0 x1 => Sys2Proof.Machine.execAuditReplay x0 x1 s
  | .customerSet x0 => Sys2Proof.Machine.execCustomerSet x0 s
  | .customerRead x0 => Sys2Proof.Machine.execCustomerRead x0 s
  | .adapterInstall x0 x1 x2 => Sys2Proof.Machine.execAdapterInstall x0 x1 x2 s
  | .adapterLoadDone x0 x1 x2 => Sys2Proof.Machine.execAdapterLoadDone x0 x1 x2 s
  | .adapterRetire x0 => Sys2Proof.Machine.execAdapterRetire x0 s
  | .casLoad x0 x1 x2 => Sys2Proof.Machine.execCasLoad x0 x1 x2 s
  | .casBcast x0 x1 x2 => Sys2Proof.Machine.execCasBcast x0 x1 x2 s
  | .casChild x0 => Sys2Proof.Machine.execCasChild x0 s
  | .casParent x0 => Sys2Proof.Machine.execCasParent x0 s
  | .casRelease x0 => Sys2Proof.Machine.execCasRelease x0 s
  | .casAbort x0 => Sys2Proof.Machine.execCasAbort x0 s
  | .casUnload x0 => Sys2Proof.Machine.execCasUnload x0 s
  | .cassetteManifest x0 x1 x2 x3 => Sys2Proof.Machine.execCassetteManifest x0 x1 x2 x3 s
  | .cassetteBlock x0 x1 x2 x3 => Sys2Proof.Machine.execCassetteBlock x0 x1 x2 x3 s
  | .cassetteAck x0 x1 x2 x3 => Sys2Proof.Machine.execCassetteAck x0 x1 x2 x3 s
  | .cassetteAckRepeat x0 x1 => Sys2Proof.Machine.execCassetteAckRepeat x0 x1 s
  | .childBcastTimeout x0 x1 x2 => Sys2Proof.Machine.execChildBcastTimeout x0 x1 x2 s
  | .parentBcastTimeout x0 x1 => Sys2Proof.Machine.execParentBcastTimeout x0 x1 s
  | .retainExpiry x0 x1 => Sys2Proof.Machine.execRetainExpiry x0 x1 s
  | .residentReadback x0 x1 => Sys2Proof.Machine.execResidentReadback x0 x1 s
  | .gearSet x0 => Sys2Proof.Machine.execGearSet x0 s
  | .gearPolicy x0 => Sys2Proof.Machine.execGearPolicy x0 s
  | .powerPolicy x0 => Sys2Proof.Machine.execPowerPolicy x0 s
  | .stepHint x0 => Sys2Proof.Machine.execStepHint x0 s
  | .tsLimits x0 => Sys2Proof.Machine.execTsLimits x0 s
  | .telemetrySnap x0 => Sys2Proof.Machine.execTelemetrySnap x0 s
  | .linkCfg x0 => Sys2Proof.Machine.execLinkCfg x0 s
  | .routeLoad x0 => Sys2Proof.Machine.execRouteLoad x0 s
  | .routeSwitch x0 => Sys2Proof.Machine.execRouteSwitch x0 s
  | .routeRead x0 => Sys2Proof.Machine.execRouteRead x0 s
  | .rankRead x0 => Sys2Proof.Machine.execRankRead x0 s
  | .fence x0 => Sys2Proof.Machine.execFence x0 s
  | .syncCfg x0 => Sys2Proof.Machine.execSyncCfg x0 s
  | .mgmtCfg x0 => Sys2Proof.Machine.execMgmtCfg x0 s
  | .fabAddrSet x0 => Sys2Proof.Machine.execFabAddrSet x0 s
  | .secNonce x0 => Sys2Proof.Machine.execSecNonce x0 s
  | .secOwnerClaim x0 => Sys2Proof.Machine.execSecOwnerClaim x0 s
  | .secOwnerRelease x0 => Sys2Proof.Machine.execSecOwnerRelease x0 s
  | .secKeySet x0 => Sys2Proof.Machine.execSecKeySet x0 s
  | .secPolicy x0 => Sys2Proof.Machine.execSecPolicy x0 s
  | .secMgmtKey x0 => Sys2Proof.Machine.execSecMgmtKey x0 s
  | .secOwnerRead x0 => Sys2Proof.Machine.execSecOwnerRead x0 s
  | .secFwUpdate x0 x1 x2 => Sys2Proof.Machine.execSecFwUpdate x0 x1 x2 s
  | .secSvnCommit x0 => Sys2Proof.Machine.execSecSvnCommit x0 s
  | .secLcAdvance x0 => Sys2Proof.Machine.execSecLcAdvance x0 s
  | .secReset x0 => Sys2Proof.Machine.execSecReset x0 s
  | .secSpdm x0 x1 => Sys2Proof.Machine.execSecSpdm x0 x1 s
  | .secChainRead x0 => Sys2Proof.Machine.execSecChainRead x0 s
  | .secProvision x0 => Sys2Proof.Machine.execSecProvision x0 s
  | .secCertInstall x0 => Sys2Proof.Machine.execSecCertInstall x0 s
  | .recoveryWrite x0 => Sys2Proof.Machine.execRecoveryWrite x0 s
  | .recoveryCommit x0 => Sys2Proof.Machine.execRecoveryCommit x0 s
  | .nonceExpiry => Sys2Proof.Machine.execNonceExpiry s
  | .getVersion x0 x1 x2 => Sys2Proof.Machine.execGetVersion x0 x1 x2 s
  | .getCapabilities x0 x1 x2 => Sys2Proof.Machine.execGetCapabilities x0 x1 x2 s
  | .negotiateAlgorithms x0 x1 x2 => Sys2Proof.Machine.execNegotiateAlgorithms x0 x1 x2 s
  | .getDigests x0 x1 x2 => Sys2Proof.Machine.execGetDigests x0 x1 x2 s
  | .getCertificate x0 x1 x2 => Sys2Proof.Machine.execGetCertificate x0 x1 x2 s
  | .challenge x0 x1 x2 => Sys2Proof.Machine.execChallenge x0 x1 x2 s
  | .getMeasurements x0 x1 x2 => Sys2Proof.Machine.execGetMeasurements x0 x1 x2 s
  | .respondIfReady x0 x1 x2 => Sys2Proof.Machine.execRespondIfReady x0 x1 x2 s
  | .obsSet x0 => Sys2Proof.Machine.execObsSet x0 s
  | .obsSelectApply x0 => Sys2Proof.Machine.execObsSelectApply x0 s
  | .patternSet x0 => Sys2Proof.Machine.execPatternSet x0 s
  | .patternRead x0 x1 x2 => Sys2Proof.Machine.execPatternRead x0 x1 x2 s
  | .inject x0 => Sys2Proof.Machine.execInject x0 s
  | .margin x0 => Sys2Proof.Machine.execMargin x0 s
  | .marginDwellEnd x0 => Sys2Proof.Machine.execMarginDwellEnd x0 s
  | .debugStop x0 => Sys2Proof.Machine.execDebugStop x0 s
  | .debugRead x0 => Sys2Proof.Machine.execDebugRead x0 s
  | .debugRelease x0 => Sys2Proof.Machine.execDebugRelease x0 s
  | .mbDoorbell x0 x1 => Sys2Proof.Machine.execMbDoorbell x0 x1 s
  | .commandTimeout x0 => Sys2Proof.Machine.execCommandTimeout x0 s
  | .mpWatchdog => Sys2Proof.Machine.execMpWatchdog s
  | .kick => Sys2Proof.Machine.execKick s
  | .windowAccess x0 x1 x2 => Sys2Proof.Machine.execWindowAccess x0 x1 x2 s
  | .pcieReset => Sys2Proof.Machine.execPcieReset s
  | .pcieLinkLoss => Sys2Proof.Machine.execPcieLinkLoss s
  | .perstN x0 => Sys2Proof.Machine.execPerstN x0 s
  | .hostDma x0 => Sys2Proof.Machine.execHostDma x0 s
  | .rqTail x0 x1 => Sys2Proof.Machine.execRqTail x0 x1 s
  | .rqCfg x0 x1 => Sys2Proof.Machine.execRqCfg x0 x1 s
  | .cqCfg x0 x1 => Sys2Proof.Machine.execCqCfg x0 x1 s
  | .cqHead x0 x1 => Sys2Proof.Machine.execCqHead x0 x1 s
  | .cqArm x0 x1 => Sys2Proof.Machine.execCqArm x0 x1 s
  | .completionModerationTime x0 => Sys2Proof.Machine.execCompletionModerationTime x0 s
  | .recCfg x0 => Sys2Proof.Machine.execRecCfg x0 s
  | .recHead x0 => Sys2Proof.Machine.execRecHead x0 s
  | .evlCfg x0 => Sys2Proof.Machine.execEvlCfg x0 s
  | .evcDoorbell x0 => Sys2Proof.Machine.execEvcDoorbell x0 s
  | .evcClaim => Sys2Proof.Machine.execEvcClaim s
  | .evcDone x0 => Sys2Proof.Machine.execEvcDone x0 s
  | .evcModTime x0 => Sys2Proof.Machine.execEvcModTime x0 s
  | .evcAgePromotion x0 => Sys2Proof.Machine.execEvcAgePromotion x0 s
  | .registerWrite x0 x1 x2 x3 => Sys2Proof.Machine.execRegisterWrite x0 x1 x2 x3 s
  | .heartbeat x0 x1 => Sys2Proof.Machine.execHeartbeat x0 x1 s
  | .commandFrame x0 x1 => Sys2Proof.Machine.execCommandFrame x0 x1 s
  | .fenceTimer => Sys2Proof.Machine.execFenceTimer s
  | .heartbeatWindow x0 => Sys2Proof.Machine.execHeartbeatWindow x0 s
  | .smbusRead x0 x1 x2 x3 => Sys2Proof.Machine.execSmbusRead x0 x1 x2 x3 s
  | .smbusClockLowTimeout => Sys2Proof.Machine.execSmbusClockLowTimeout s
  | .ringFetch x0 => Sys2Proof.Machine.execRingFetch x0 s
  | .resultUnit x0 => Sys2Proof.Machine.execResultUnit x0 s
  | .promptReadDone x0 x1 => Sys2Proof.Machine.execPromptReadDone x0 x1 s
  | .requestUrgent x0 => Sys2Proof.Machine.execRequestUrgent x0 s
  | .refillWindow => Sys2Proof.Machine.execRefillWindow s
  | .blockClose => Sys2Proof.Machine.execBlockClose s
  | .blockSign x0 x1 => Sys2Proof.Machine.execBlockSign x0 x1 s
  | .saveTick => Sys2Proof.Machine.execSaveTick s
  | .jobEnd => Sys2Proof.Machine.execJobEnd s
  | .launchCount => Sys2Proof.Machine.execLaunchCount s
  | .jobFatalStop => Sys2Proof.Machine.execJobFatalStop s
  | .moduleFatalReset => Sys2Proof.Machine.execModuleFatalReset s
  | .unitTime x0 => Sys2Proof.Machine.execUnitTime x0 s
  | .newUnit x0 x1 x2 => Sys2Proof.Machine.execNewUnit x0 x1 x2 s
  | .replayUnit x0 x1 => Sys2Proof.Machine.execReplayUnit x0 x1 s
  | .idleUnit x0 x1 => Sys2Proof.Machine.execIdleUnit x0 x1 s
  | .voidUnit x0 x1 => Sys2Proof.Machine.execVoidUnit x0 x1 s
  | .uncorrectableUnit x0 x1 => Sys2Proof.Machine.execUncorrectableUnit x0 x1 s
  | .replayTimer x0 x1 => Sys2Proof.Machine.execReplayTimer x0 x1 s
  | .nakRepeat x0 => Sys2Proof.Machine.execNakRepeat x0 s
  | .trainingFrame x0 x1 x2 => Sys2Proof.Machine.execTrainingFrame x0 x1 x2 s
  | .trainingTimeout x0 => Sys2Proof.Machine.execTrainingTimeout x0 s
  | .wl1Packet x0 x1 x2 => Sys2Proof.Machine.execWl1Packet x0 x1 x2 s
  | .e2eTrailer => Sys2Proof.Machine.execE2eTrailer s
  | .e2eAcknowledgement => Sys2Proof.Machine.execE2eAcknowledgement s
  | .e2eTimeout x0 => Sys2Proof.Machine.execE2eTimeout x0 s
  | .beaconPeriod => Sys2Proof.Machine.execBeaconPeriod s
  | .beacon => Sys2Proof.Machine.execBeacon s
  | .gscUnsync => Sys2Proof.Machine.execGscUnsync s
  | .launchUnit x0 x1 x2 x3 => Sys2Proof.Machine.execLaunchUnit x0 x1 x2 x3 s
  | .launchAck x0 x1 => Sys2Proof.Machine.execLaunchAck x0 x1 s
  | .launchFailed => Sys2Proof.Machine.execLaunchFailed s
  | .jobStopUnit x0 x1 => Sys2Proof.Machine.execJobStopUnit x0 x1 s
  | .stepDrained x0 x1 => Sys2Proof.Machine.execStepDrained x0 x1 s
  | .stepClear x0 => Sys2Proof.Machine.execStepClear x0 s
  | .leadStepDescriptor x0 => Sys2Proof.Machine.execLeadStepDescriptor x0 s
  | .epochSwitch => Sys2Proof.Machine.execEpochSwitch s
  | .bankDrained x0 => Sys2Proof.Machine.execBankDrained x0 s
  | .powerExitPlanned => Sys2Proof.Machine.execPowerExitPlanned s
  | .powerExitDone => Sys2Proof.Machine.execPowerExitDone s
  | .policyCap => Sys2Proof.Machine.execPolicyCap s
  | .sensorSample x0 => Sys2Proof.Machine.execSensorSample x0 s
  | .brakeOff => Sys2Proof.Machine.execBrakeOff s
  | .thermalRestart => Sys2Proof.Machine.execThermalRestart s
  | .converterFault => Sys2Proof.Machine.execConverterFault s
  | .tamperDetection x0 => Sys2Proof.Machine.execTamperDetection x0 s
  | .pwrEnRise => Sys2Proof.Machine.execPwrEnRise s
  | .powerOnReset x0 => Sys2Proof.Machine.execPowerOnReset x0 s
  | .pwrEnFall => Sys2Proof.Machine.execPwrEnFall s
  | .undervoltageLockout => Sys2Proof.Machine.execUndervoltageLockout s
  | .overvoltageLockout => Sys2Proof.Machine.execOvervoltageLockout s
  | .testLogicReset => Sys2Proof.Machine.execTestLogicReset s
  | .bypass x0 => Sys2Proof.Machine.execBypass x0 s
  | .idcode x0 => Sys2Proof.Machine.execIdcode x0 s
  | .samplePreload x0 => Sys2Proof.Machine.execSamplePreload x0 s
  | .extest x0 => Sys2Proof.Machine.execExtest x0 s
  | .extestPulse x0 => Sys2Proof.Machine.execExtestPulse x0 s
  | .extestTrain x0 => Sys2Proof.Machine.execExtestTrain x0 s
  | .clamp x0 => Sys2Proof.Machine.execClamp x0 s
  | .highz x0 => Sys2Proof.Machine.execHighz x0 s
  | .vinTurnOn => Sys2Proof.Machine.execVinTurnOn s
  | .checkerLock x0 x1 => Sys2Proof.Machine.execCheckerLock x0 x1 s
  | .checkerLockLost x0 x1 x2 x3 => Sys2Proof.Machine.execCheckerLockLost x0 x1 x2 x3 s
  | .stepDueLapse => Sys2Proof.Machine.execStepDueLapse s

end Sys2Proof.Machine
end

