-- ==== Sys2Proof/Safety.lean ====
section
/-! DEFINITION. What claims call a safe state: the forms of the state's tables and the paceline's lead limit; and the words the
claims are put in. -/
namespace Sys2Proof.Machine

/-- The numbers of ticks two neighbouring regions have issued never differ by more than 1 (R25). -/
def State.leadLimit (s : State) : Prop :=
  ∀ r d q, r < 80 → d < 4 → neighbour r d = some q → (s.region r).issued ≤ (s.region q).issued + 1

/-- No region holds a token of a tick that its neighbour has not issued (R24). -/
def State.tokensIssued (s : State) : Prop :=
  ∀ r d q, r < 80 → d < 4 → neighbour r d = some q → (s.region r).tokens.find 0 d ≤ (s.region q).issued

/-- A region that is held before a gate holds every token its next tick needs (R31): only tick issue holds a region, once R23 (a) and (b)
are met. -/
def State.gatesHold (s : State) : Prop :=
  ∀ r, r < 80 → (s.region r).gate.isSome = true → (s.region r).hasTokens r = true

/-- Every byte memory of the block is in canonical form, so that equal memories are equal data. -/
def State.memoriesWf (s : State) : Prop :=
  s.ss.wf = true ∧ s.far.mem.wf = true ∧ s.host.hostMem.wf = true ∧ s.host.hostWin.wf = true

/-- No register shows more than its field holds: the gear in force, the stretch, the job's counters of gates (R38, R27, R37). -/
def Pace.fieldsFit (p : Pace) : Prop := p.gearNow ≤ 15 ∧ p.stretchMax ≤ 200 ∧ p.tsCount < 2 ^ 32

/-- A run of `k` steps ends in a next state. -/
def runs (k : Nat) (s : State) : Prop := ∃ t, Host.Core.run Sys2Proof.core k s = .next t

/-! ### The words of the claims -/

/-- Command `i` completes on `s`: it answers a next state, and `P` holds of that state. -/
def completes (i : Instr) (s : State) (P : State → Prop) : Prop := ∃ t, exec i s = .next t ∧ P t

/-- Between `s` and `t` nothing of the block differs but core `c`, which is `k` in `t`. -/
def onlyCore (s t : State) (c : Nat) (k : Core) : Prop :=
  t.core c = k ∧ (∀ d, d ≠ c → t.core d = s.core d) ∧ ({ t with cores := s.cores } : State) = s

/-- Core `c` issues `op` in its tick in progress: an enabled core (R90) that still issues bundles (R103, R124), a legal instruction
(R128) that its predicate enables (R127), and no parity error in a register it reads (R99). -/
def issues (s : State) (c : Nat) (op : SlotOp) : Prop :=
  s.hasCore c = true ∧ (s.core c).live = true ∧ slotIllegal op (s.core c) s.exact = false ∧
    (s.core c).enabled op.hdr = true ∧ ∀ r ∈ op.reads, r ∉ (s.core c).parity

/-- Core `c` with a result on its way to register `r`, visible `lat` ticks after the tick in progress (R97); results for s0 and p0 are
discarded (R92). -/
def withResult (s : State) (c : Nat) (k : Core) (r : Reg) (v : RegVal) (lat slot : Nat) : Core :=
  if r = .s 0 ∨ r = .p 0 then k
  else { k with wb := k.wb ++ [{ reg := r, val := v, due := s.tickOf c + lat, issue := s.tickOf c, slot := slot }] }

/-- The stop of a command that names a core, a region, a channel, a port, a ring or a mailbox the module does not have; none of every
other. -/
def missing (i : Instr) (s : State) : Option Fault :=
  match i with
  | .nop c _ _ | .li c _ _ | .add c _ _ | .sub c _ _ | .and c _ _ | .or c _ _ | .xor c _ _ | .shl c _ _ | .shr c _ _ | .sra c _ _
  | .mul c _ _ | .min c _ _ | .max c _ _ | .cmp c _ _ | .br c _ _ | .loop c _ _ | .loopEnd c | .halt c _ | .tickrd c _ _ | .gscrd c _ _
  | .param c _ _ | .vld c _ _ | .vst c _ _ | .sld c _ _ | .sst c _ _ | .aadd c _ _ | .asub c _ _ | .ali c _ _ _ | .aset c _ _ _
  | .aget c _ _ _ | .mcfg c _ _ | .mma c _ _ | .mmag c _ _ | .accumulatorCommit c _ | .mclr c _ _ | .mout c _ _ | .mmode c _ _
  | .vadd c _ _ | .vmul c _ _ | .vfma c _ _ | .vmin c _ _ | .vmax c _ _ | .vcmp c _ _ | .vsel c _ _ | .vshuf c _ _ | .vred c _ _
  | .vcvt c _ _ | .vqnt c _ _ | .vfn c _ _ | .vtopkInit c _ _ | .vtopkMerge c _ _ | .vtopkRead c _ _ | .vpen c _ _ | .vdrawDraw c _ _
  | .vdrawSelect c _ _ | .vdrawClrsel c _ | .ssr c _ _ | .ssw c _ _ | .msend c _ _ | .mrecv c _ _ _ | .gath c _ _ _ | .qpush c _ _
  | .qarm c _ _ | .qwait c _ _ | .qstat c _ _ | .meshUnitArrival c _ | .endpointUnit c _ | .queueCompletion c _ | .resultUnit c
  | .pieceDeferral c | .lineDeferral c => if s.hasCore c then none else some .noSuchCore
  | .tickIssue r | .tickToken r _ _ | .periodElapsed r | .gateRelease r | .supplyDroop r _ | .regionRetuneDone r | .paceStall r
  | .tsTimeoutFar r | .tsTimeoutFabric r | .retuneTimeout r => if r < 80 then none else some .noSuchRegion
  | .channelSlot c k _ => if c < 36 && k < 16 then none else some .noSuchChannel
  | .backgroundUrgent c => if c < 36 then none else some .noSuchChannel
  | .farRequest c _ k => if 36 ≤ k then some .noSuchChannel else if s.hasCore c then none else some .noSuchCore
  | .ident ch | .jobLoad ch _ | .jobServe ch | .jobArm ch | .jobLaunch ch | .jobPause ch | .jobSave ch _ | .jobRestore ch _
  | .jobResume ch | .jobUnload ch | .jobStop ch | .auditReplay ch _ | .customerSet ch | .customerRead ch | .adapterInstall ch _ _
  | .adapterRetire ch | .casLoad ch _ _ | .casBcast ch _ _ | .casChild ch | .casParent ch | .casRelease ch | .casAbort ch | .casUnload ch
  | .gearSet ch | .gearPolicy ch | .powerPolicy ch | .stepHint ch | .tsLimits ch | .telemetrySnap ch | .linkCfg ch | .routeLoad ch
  | .routeSwitch ch | .routeRead ch | .rankRead ch | .fence ch | .syncCfg ch | .mgmtCfg ch | .fabAddrSet ch | .secNonce ch
  | .secOwnerClaim ch | .secOwnerRelease ch | .secKeySet ch | .secPolicy ch | .secMgmtKey ch | .secOwnerRead ch | .secFwUpdate ch _ _
  | .secSvnCommit ch | .secLcAdvance ch | .secReset ch | .secSpdm ch _ | .secChainRead ch | .secProvision ch | .secCertInstall ch
  | .recoveryWrite ch | .recoveryCommit ch | .obsSet ch | .patternSet ch | .patternRead ch _ _ | .inject ch | .margin ch | .debugStop ch
  | .debugRead ch | .debugRelease ch | .commandTimeout ch => if ch < 10 then none else some .noSuchMailbox
  | .mbDoorbell ch _ => if ch < 8 then none else some .noSuchMailbox
  | .hostDma (.ring r) => if r < 64 then none else some .noSuchRing
  | .hostDma (.command ch) => if ch < 10 then none else some .noSuchMailbox
  | .rqTail r _ | .rqCfg r _ | .cqCfg r _ | .cqHead r _ | .cqArm r _ | .completionModerationTime r => if r < 64 then none else some .noSuchRing
  | .heartbeat p _ | .commandFrame p _ | .heartbeatWindow p => if p < 2 then none else some .noSuchMailbox
  | .marginDwellEnd p | .unitTime p | .newUnit p _ _ | .replayUnit p _ | .idleUnit p _ | .voidUnit p _ | .uncorrectableUnit p _
  | .replayTimer p _ | .nakRepeat p | .trainingFrame p _ _ | .trainingTimeout p | .wl1Packet p _ _ | .e2eTimeout p | .checkerLock p _
  | .checkerLockLost p _ _ _ => if p < 16 then none else some .noSuchPort
  | _ => none

/-- Channel `ch` carries the command `c` of opcode `op` and its turn has come (R425): the firmware answers (R453), no reserved byte of the
header is set, no other command of R426's range executes, the module is in RUN, and what waits behind it is on other channels and of
defined opcodes. -/
def State.carries (s : State) (ch op : Nat) (c : Cmd) : Prop :=
  ch < 10 ∧ s.sec.boot = .running ∧ s.cmdOf ch = some c ∧ c.opcode = op ∧ c.executing = false ∧ c.reserved = 0 ∧
    s.exclusiveBusy ch = false ∧ s.power.mode = .run ∧
    ∃ rest, s.host.order = ch :: rest ∧ ∀ x ∈ rest, x ≠ ch ∧ ∃ d, s.cmdOf x = some d ∧ opDefined d.opcode = true

/-- The same in recovery, where the boot ROM answers on mailbox channel 0 and on MGMT0 alone (R454). -/
def State.carriesRec (s : State) (ch op : Nat) (c : Cmd) : Prop :=
  (ch = 0 ∨ ch = 8) ∧ s.sec.boot = .recovery ∧ s.cmdOf ch = some c ∧ c.opcode = op ∧ c.executing = false ∧ c.reserved = 0 ∧
    s.host.order = [ch]

/-- The state in which the command `c` of channel `ch` executes: it has left the order of acceptance (R425). -/
def State.accepted (s : State) (ch : Nat) (c : Cmd) : State :=
  ({ s with host := { s.host with order := s.host.order.drop 1 } }).setChan ch { s.chan ch with cmd := some { c with executing := true } }

/-- `i` executes the command of channel `ch` and answers it at once: its effect leads to `t`, its response is `r` (R424). -/
def answered (i : Instr) (s : State) (ch : Nat) (t : State) (r : Reply) : Prop := exec i s = .next (t.respond ch r)

/-- The same of a command whose effect may reach the commands that wait: those with an undefined opcode that now stand first are
answered with it (R425). -/
def answeredAll (i : Instr) (s : State) (ch : Nat) (t : State) (r : Reply) : Prop :=
  exec i s = .next (State.answerUnknown 10 (t.respond ch r))

/-- The commands whose payload has one LENGTH (R431, R473, R529): row, opcode, LENGTH; `v` and `w` are what host memory holds. -/
def commandLengths (v w : HostView) : List ((Nat → Instr) × Nat × Nat) :=
  [(.ident, 0x0001, 0), (.jobServe, 0x0102, 16), (.jobArm, 0x0103, 0), (.jobLaunch, 0x0104, 8), (.jobPause, 0x0105, 8),
    (.jobResume, 0x0108, 8), (.jobUnload, 0x0109, 0), (.jobStop, 0x010A, 0), (.customerSet, 0x0201, 20),
    (.customerRead, 0x0202, 2), (.adapterRetire, 0x0204, 2), (.casChild, 0x0303, 60), (.casParent, 0x0304, 53),
    (.casRelease, 0x0305, 52), (.casAbort, 0x0306, 48), (.casUnload, 0x0307, 1), (.gearSet, 0x0401, 2), (.gearPolicy, 0x0402, 4),
    (.powerPolicy, 0x0403, 8), (.stepHint, 0x0404, 8), (.tsLimits, 0x0405, 4), (.telemetrySnap, 0x0406, 0),
    (.linkCfg, 0x0501, 18), (.routeSwitch, 0x0503, 8), (.routeRead, 0x0504, 6), (.rankRead, 0x0505, 8), (.fence, 0x0506, 4),
    (.syncCfg, 0x0507, 2), (.mgmtCfg, 0x0601, 4), (.fabAddrSet, 0x0602, 4), (.secNonce, 0x0701, 0), (.secOwnerClaim, 0x0702, 424),
    (.secOwnerRelease, 0x0703, 128), (.secKeySet, 0x0704, 229), (.secPolicy, 0x0705, 129), (.secMgmtKey, 0x0706, 176),
    (.secOwnerRead, 0x0707, 0), (.secReset, 0x070B, 0), (.secChainRead, 0x070D, 8), (.secProvision, 0x070E, 228),
    (.recoveryCommit, 0x0711, 4), (.obsSet, 0x0801, 4), (.patternSet, 0x0802, 4), (.inject, 0x0804, 10), (.margin, 0x0805, 12),
    (.debugRelease, 0x0808, 0), (fun ch => .jobSave ch v, 0x0106, 12), (fun ch => .jobRestore ch v, 0x0107, 12),
    (fun ch => .adapterInstall ch v w, 0x0203, 68), (fun ch => .casLoad ch v w, 0x0301, 64)]

end Sys2Proof.Machine
end

