-- ==== Sys2Proof/Certificates/Slice0/Obligations.lean ====
section
/-! DEFINITION. The statements put to the provers. Each docstring names the rules it formalises. -/
open Sys2Proof Sys2Proof.Machine

/-! ### The queue of commands -/

/-- A step takes the command at the front of the queue and runs it on the state whose queue is the rest; with no command waiting it
answers a next state whatever the state (log entry 1: a nanosecond passes). -/
def Obligations.StepRunsFront : Prop :=
  (∀ (i : Instr) (s : State) (rest : List Instr),
    step { s with pending := i :: rest } = exec i { s with pending := rest }) ∧
  (∀ s : State, s.pending = [] → ∃ t, step s = .next t)

/-- Every command of the table completes in every state: it answers a next state, unless it names a core, a region, a far-memory
channel, a port, a ring or a mailbox that the module does not have (R10, R22, R90, R195, R277, R423, R445); then it stops with that name and
no other. Nothing is refused. -/
def Obligations.OnlyMissingUnitsStop : Prop :=
  ∀ (i : Instr) (s : State),
    (∀ f, missing i s = some f → exec i s = .fault f) ∧ (missing i s = none → ∃ t, exec i s = .next t)

/-! ### The slots of a bundle -/

/-- R127, R128: an instruction whose predicate does not enable it performs nothing, in any slot and whatever its operands, when its
encoding is legal.

R128, R124: an illegal encoding raises ILLEGAL_ENCODING (0x0101) in its slot, whether or not the instruction is enabled, and its
effect is suppressed; a legal, enabled instruction that reads a register with a parity error raises REG_PARITY (0x0108). -/
def Obligations.SlotsGuarded : Prop :=
  (∀ (s : State) (c : Nat) (op : SlotOp) (chk : Option Nat) (act : State),
    slotIllegal op (s.core c) s.exact = false → (s.core c).enabled op.hdr = false → issueSlot s c op chk act = s) ∧
  ((∀ (s : State) (c : Nat) (op : SlotOp) (chk : Option Nat) (act : State), (s.core c).live = true →
    slotIllegal op (s.core c) s.exact = true → issueSlot s c op chk act = s.coreFault c (slotNum op.slot) 0x0101) ∧
  (∀ (s : State) (c : Nat) (op : SlotOp) (chk : Option Nat) (act : State), (s.core c).live = true →
    slotIllegal op (s.core c) s.exact = false → (s.core c).enabled op.hdr = true →
    (∃ r ∈ op.reads, r ∈ (s.core c).parity) → issueSlot s c op chk act = s.coreFault c (slotNum op.slot) 0x0108))

/-- R124, R125, R422: a fault found at issue stops the core, is captured in CORE_FAULT with its code, core, slot, tick and pc when it
is the first of the job, is an entry of the trace (R53; that the trace holds the faults is the model's choice, log entry 162), and, with a job ARMED, RUNNING or PAUSED, starts the job's stop and leaves its first fault in JOB_FAULT;
no register of a core and no byte of a store changes. -/
def Obligations.CoreFaultCaptured : Prop :=
  ∀ (s : State) (c slot code : Nat), slot < 6 → code < 65536 → s.coreRegs.faultValid = false → s.power.mode = .run →
    let t := s.coreFault c slot code
    t.coreRegs = { s.coreRegs with
      faultCode := BitVec.ofNat 16 code, faultCore := c, faultSlot := slot, faultValid := true
      faultTick := s.tickOf c, faultPc := (s.core c).pc, faultMore := 0
      trace := traceIns { tick := s.tickOf c, index := traceRegion c, code := code } s.coreRegs.trace } ∧
    t.core c = { s.core c with stopped := true } ∧ (∀ d, d ≠ c → t.core d = s.core d) ∧
    t.ss = s.ss ∧ t.far.mem = s.far.mem ∧ t.job.state = s.job.state ∧
    (s.job.state.active = true → t.stop.isSome = true ∧
      (s.job.fault = 0#16 → t.job.fault = BitVec.ofNat 16 code ∧ t.job.faultGsc = s.gsc))

/-- R92, R130, R133, R136, R138: what the operand forms read. s0 reads 0 and p0 reads 1 whatever is stored, and a write of either is
discarded; immediates are sign-extended, counts are not.

R97, R98: a result with no other on its way to its register is not seen before its tick, and from that tick on the register
reads it. -/
def Obligations.RegistersReadAndWritten : Prop :=
  (∀ k : Core,
    k.rs 0 = 0#64 ∧ k.rp 0 = true ∧
    (∀ (x : W64) (d i n : Nat), k.result (.s 0) (.s x) d i n = k) ∧ (∀ (x : Bool) (d i n : Nat), k.result (.p 0) (.p x) d i n = k) ∧
    (∀ sb, k.src (.reg sb) = k.rs sb.toNat) ∧ (∀ i, (k.src (.imm i)).toInt = i.toInt) ∧
    (∀ ac, k.asrc (.reg ac) = k.ra ac.toNat) ∧ (∀ i, (k.asrc (.imm i)).toInt = i.toInt) ∧
    (∀ i, k.cnt (.imm i) = i.toNat) ∧ (∀ sb, k.cnt (.reg sb) = (k.rs sb.toNat).toNat) ∧
    (∀ i, k.tgt (.imm i) = i.toNat) ∧ (∀ sb, k.tgt (.reg sb) = (k.rs sb.toNat).toNat)) ∧
  (∀ (k : Core) (n : Nat) (v : W64) (due issue slot T : Nat), 0 < n → (∀ w ∈ k.wb, w.reg ≠ .s n) →
    let q : Core := { k with wb := k.wb ++ [{ reg := .s n, val := .s v, due := due, issue := issue, slot := slot }] }
    (q.commitWb T).rs n = if due ≤ T then v else k.rs n)

/-- R129, R130, R131, R132, R104: LI, the ALU instructions and CMP. The result is visible one tick after issue (MUL: three), results
for s0 and p0 are discarded, and nothing else changes but the multiplier's occupancy.
Forms completed: li, add, sub, and, or, xor, shl, shr, sra, mul, min, max, cmp. -/
def Obligations.ScalarArithmetic : Prop :=
  (∀ (s : State) (c : Nat) (h : Hdr) (f : LiF), issues s c (.ct h (.li f)) →
    completes (.li c h f) s fun t => onlyCore s t c (withResult s c (s.core c) (.s f.sd.toNat)
      (.s (if f.hi then f.imm.setWidth 64 <<< 32 ||| (s.core c).rs f.sd.toNat &&& 0xFFFFFFFF#64 else f.imm.signExtend 64)) 1 0)) ∧
  (∀ (s : State) (c : Nat) (h : Hdr) (f : Alu),
    let k := s.core c
    let x := k.rs f.sa.toNat
    let b := k.src f.b
    let n := b.toNat % 64
    let out (lat : Nat) (v : W64) := withResult s c k (.s f.sd.toNat) (.s v) lat 0
    (issues s c (.ct h (.add f)) → completes (.add c h f) s fun t => onlyCore s t c (out 1 (x + b))) ∧
    (issues s c (.ct h (.sub f)) → completes (.sub c h f) s fun t => onlyCore s t c (out 1 (x - b))) ∧
    (issues s c (.ct h (.and f)) → completes (.and c h f) s fun t => onlyCore s t c (out 1 (x &&& b))) ∧
    (issues s c (.ct h (.or f)) → completes (.or c h f) s fun t => onlyCore s t c (out 1 (x ||| b))) ∧
    (issues s c (.ct h (.xor f)) → completes (.xor c h f) s fun t => onlyCore s t c (out 1 (x ^^^ b))) ∧
    (issues s c (.ct h (.shl f)) → completes (.shl c h f) s fun t => onlyCore s t c (out 1 (x <<< n))) ∧
    (issues s c (.ct h (.shr f)) → completes (.shr c h f) s fun t => onlyCore s t c (out 1 (x >>> n))) ∧
    (issues s c (.ct h (.sra f)) → completes (.sra c h f) s fun t => onlyCore s t c (out 1 (x.sshiftRight n))) ∧
    (issues s c (.ct h (.mul f)) → k.unitBusy unitMul (s.tickOf c) = false → completes (.mul c h f) s fun t =>
      onlyCore s t c { out 3 (x * b) with units := k.units.put unitMul (s.tickOf c, 1) }) ∧
    (issues s c (.ct h (.min f)) → completes (.min c h f) s fun t =>
      onlyCore s t c (out 1 (if (if f.u then b < x else b.slt x) then b else x))) ∧
    (issues s c (.ct h (.max f)) → completes (.max c h f) s fun t =>
      onlyCore s t c (out 1 (if (if f.u then x < b else x.slt b) then b else x)))) ∧
  (∀ (s : State) (c : Nat) (h : Hdr) (f : CmpF), issues s c (.ct h (.cmp f)) →
    let k := s.core c
    let x := k.rs f.sa.toNat
    let b := k.src f.b
    let v := [decide (x = b), decide (x ≠ b), x.slt b, b.sle x, x.ult b, b.ule x, decide (x &&& b ≠ 0#64)].getD f.cond.toNat false
    completes (.cmp c h f) s fun t => onlyCore s t c (withResult s c k (.p f.pd.toNat) (.p v) 1 0))

/-- R127, R100, R133, R136, R103: NOP, BR, LOOP, LOOP_END, HALT. A NOP whose predicate register has no parity error changes nothing. A branch leaves after two delay bundles and links pc + 3; a LOOP
opens with its first pass, or skips to the bundle after END for a count of 0; at the end of a body the innermost loop runs its next
pass; HALT ends the core's issue, the delay bundles of a branch under way among it (R135), and counts it in HALT_COUNT. A LOOP in the
last bundle of an open body goes to its own body's first bundle (the model's choice, log entry 167).

R136: a loop whose last pass ends closes, and an outer loop of the same END is then treated likewise: after the last passes of all
open loops of one END the bundle after it follows.
Forms completed: nop, br, loop, loopEnd, halt. -/
def Obligations.ControlFlow : Prop :=
  ((∀ (s : State) (c : Nat) (sl : Slot) (h : Hdr), s.hasCore c = true → Reg.p h.pred.toNat ∉ (s.core c).parity →
    completes (.nop c sl h) s fun t => t = s) ∧
  (∀ (s : State) (c : Nat) (h : Hdr) (f : BrF), issues s c (.ct h (.br f)) →
    let k := s.core c
    let target := k.tgt f.tgt
    k.branch = none → (∀ l ∈ k.loops, l.last ≠ k.pc) → target < k.codeLen →
    completes (.br c h f) s fun t => onlyCore s t c
      { withResult s c k (.s f.sl.toNat) (.s (BitVec.ofNat 64 (k.pc + 3))) 1 0 with branch := some (target, 2) }) ∧
  (∀ (s : State) (c : Nat) (h : Hdr) (f : LoopF), issues s c (.ct h (.loop f)) →
    let k := s.core c
    let n := k.cnt f.count
    k.branch = none → f.endAt.toNat < k.codeLen → (n = 0 ∨ k.loops.length < 4) →
    completes (.loop c h f) s fun t => onlyCore s t c
      (if n = 0 then { k with next := some (f.endAt.toNat + 1) }
       else { k with next := some (k.pc + 1)
                     loops := { first := k.pc + 1, last := f.endAt.toNat, left := n - 1, done := 0 } :: k.loops })) ∧
  (∀ (s : State) (c : Nat) (l : Loop) (ls : List Loop), s.hasCore c = true → (s.core c).live = true →
    (s.core c).next = none → (s.core c).branch = none → (s.core c).loops = l :: ls → l.last = (s.core c).pc → 0 < l.left →
    completes (.loopEnd c) s fun t => onlyCore s t c
      { s.core c with next := some l.first, loops := { l with left := l.left - 1, done := l.done + 1 } :: ls }) ∧
  (∀ (s : State) (c : Nat) (h : Hdr), issues s c (.ct h .halt) → completes (.halt c h) s fun t =>
    t.core c = { s.core c with halted := true, branch := none } ∧ (∀ d, d ≠ c → t.core d = s.core d) ∧
    t.coreRegs = { s.coreRegs with haltCount := min s.coreCount (s.coreRegs.haltCount + 1) } ∧
    ({ t with cores := s.cores, coreRegs := s.coreRegs } : State) = s)) ∧
  (∀ (pc : Nat) (closing open' : List Loop), (∀ l ∈ closing, l.last = pc ∧ l.left = 0) → (∀ l ∈ open'.head?, l.last ≠ pc) →
    loopNext pc (closing ++ open') = (pc + 1, open') ∧
    ∀ m : Loop, m.last = pc → 0 < m.left →
      loopNext pc (closing ++ m :: open') = (m.first, { m with left := m.left - 1, done := m.done + 1 } :: open'))

/-- R50, R51, R93: TICKRD reads the tick in progress, GSCRD the GSC at the tick's issue, PARAM the launch parameters.

R138, R104: the address registers.
Forms completed: tickrd, gscrd, param, aadd, asub, ali, aset, aget. -/
def Obligations.CountersAndAddresses : Prop :=
  (∀ (s : State) (c : Nat) (h : Hdr),
    let out (sd : BitVec 5) (n : Nat) := withResult s c (s.core c) (.s sd.toNat) (.s (BitVec.ofNat 64 n)) 1 0
    (∀ sd, issues s c (.ct h (.tickrd sd)) → completes (.tickrd c h sd) s fun t => onlyCore s t c (out sd (s.tickOf c))) ∧
    (∀ sd, issues s c (.ct h (.gscrd sd)) → completes (.gscrd c h sd) s fun t =>
      onlyCore s t c (out sd (s.region (s.regionOf c)).lastIssue)) ∧
    (∀ f i, issues s c (.ct h (.param f)) → s.image = some i → completes (.param c h f) s fun t =>
      onlyCore s t c (out f.sd (([c, c % 16, c / 16, s.gridW * 16, s.gridW, 16, i.moduleCount, i.rank, i.numericMode, i.lookahead,
        i.period, (s.core c).role].getD f.num.toNat 0))))) ∧
  (∀ (s : State) (c : Nat) (h : Hdr),
    let k := s.core c
    let out (ad : BitVec 4) (v : BitVec 40) := withResult s c k (.a ad.toNat) (.a v) 1 3
    (∀ f : AAlu,
      let b := k.asrc f.b
      (issues s c (.ls h (.aadd f)) → completes (.aadd c h f) s fun t => onlyCore s t c (out f.ad (k.ra f.aa.toNat + b))) ∧
      (issues s c (.ls h (.asub f)) → completes (.asub c h f) s fun t => onlyCore s t c (out f.ad (k.ra f.aa.toNat - b)))) ∧
    (∀ ad i, issues s c (.ls h (.ali ad i)) → completes (.ali c h ad i) s fun t => onlyCore s t c (out ad (i.signExtend 40))) ∧
    (∀ ad sb, issues s c (.ls h (.aset ad sb)) → completes (.aset c h ad sb) s fun t =>
      onlyCore s t c (out ad ((k.rs sb.toNat).truncate 40))) ∧
    (∀ sd ab, issues s c (.ls h (.aget sd ab)) → completes (.aget c h sd ab) s fun t =>
      onlyCore s t c (withResult s c k (.s sd.toNat) (.s ((k.ra ab.toNat).zeroExtend 64)) 1 3)))

/-- R139, R140, R141, R104: a load or store whose bytes lie in the working store puts its pieces on their way, at bank tick t + 1 and
at the addresses of its addressing form: four of 64 B for VLD and VST, one of 8 B for SLD and SST. No byte of any store changes
before its piece is made.

R139: the addresses of a vector load or store: with AM 0 the base of AB and OFF, cleared to 64 B; with AM 1 four lines a stride
AS apart, each cleared; with AM 2 and 3 the passes of the innermost and of the next loop added in. The base that leaves the working
store is ADDRESS_RANGE (0x0102) and nothing is loaded or stored.
Forms completed: vld, vst, sld, sst. -/
def Obligations.LoadsAndStores : Prop :=
  (∀ (s : State) (c : Nat) (h : Hdr),
    let k := s.core c
    let T := s.tickOf c
    let op (kind : OpKind) (n : Nat) : Op := { kind := kind, issue := T, slot := 3, left := n, delay := 0, data := [] }
    let piece (a n : Nat) (w : Option Bytes) (off : Nat) : Piece :=
      { op := k.nextOp, tick := T + 1, cls := .ls, issue := T, addr := a, len := n, write := w, off := off, defers := 0 }
    let out (o : Op) (ps : List Piece) : Core :=
      { k with nextOp := k.nextOp + 1, ops := k.ops.put k.nextOp o, pieces := k.pieces ++ ps }
    let words (v : List W32) (i : Nat) : Bytes := (List.range 16).flatMap fun j => leBytes 4 (lane v (16 * i + j)).toNat
    (∀ f : MemF 6, issues s c (.ls h (.vld f)) → (∀ x ∈ vecLines k f, 0 ≤ x ∧ x + 64 ≤ 0x200000) →
      completes (.vld c h f) s fun t => onlyCore s t c
        (out (op (.vld f.r.toNat) 4) ((List.range 4).map fun i => piece ((vecLines k f).getD i 0).toNat 64 none (64 * i)))) ∧
    (∀ f : MemF 6, issues s c (.ls h (.vst f)) → (∀ x ∈ vecLines k f, 0 ≤ x ∧ x + 64 ≤ 0x200000) →
      completes (.vst c h f) s fun t => onlyCore s t c
        (out (op .store 4) ((List.range 4).map fun i =>
          piece ((vecLines k f).getD i 0).toNat 64 (some (words (k.rv f.r.toNat) i)) (64 * i)))) ∧
    (∀ f : MemF 5, issues s c (.ls h (.sld f)) → 0 ≤ sclAddr k f → sclAddr k f + 8 ≤ 0x200000 →
      completes (.sld c h f) s fun t => onlyCore s t c
        (out (op (.sld f.r.toNat) 1) [piece (sclAddr k f).toNat 8 none 0])) ∧
    (∀ f : MemF 5, issues s c (.ls h (.sst f)) → 0 ≤ sclAddr k f → sclAddr k f + 8 ≤ 0x200000 →
      completes (.sst c h f) s fun t => onlyCore s t c
        (out (op .store 1) [piece (sclAddr k f).toNat 8 (some (leBytes 8 (k.rs f.r.toNat).toNat)) 0]))) ∧
  ((∀ (k : Core) (f : MemF 6) (i : Nat), i < 4 →
    let ab : Int := (k.ra f.ab.toNat).toNat
    let off : Int := f.off.toInt * 64
    let as1 : Int := (k.ra f.as.toNat).toNat
    let as2 : Int := (k.ra (f.as.toNat + 1)).toNat
    let n0 : Int := (k.loops.head?.map Loop.done).getD 0
    let n1 : Int := (k.loops[1]?.map Loop.done).getD 0
    let x := (vecLines k f).getD i 0
    x % 64 = 0 ∧
    (f.am = 0#2 → x ≤ ab + off + 64 * i ∧ ab + off + 64 * i < x + 64) ∧
    (f.am = 1#2 → x ≤ ab + off + i * as1 ∧ ab + off + i * as1 < x + 64) ∧
    (f.am = 2#2 → x ≤ ab + off + n0 * as1 + 64 * i ∧ ab + off + n0 * as1 + 64 * i < x + 64) ∧
    (f.am = 3#2 → x ≤ ab + off + n0 * as1 + n1 * as2 + 64 * i ∧ ab + off + n0 * as1 + n1 * as2 + 64 * i < x + 64)) ∧
  (∀ (s : State) (c : Nat) (h : Hdr) (f : MemF 6), issues s c (.ls h (.vst f)) →
    (∃ x ∈ vecLines (s.core c) f, x < 0 ∨ 0x200000 < x + 64) → exec (.vst c h f) s = .next (s.coreFault c 3 0x0102)))

/-- R106, R109: a piece that is made writes exactly its bytes at its address, and every other byte of the working store reads as
before; a read piece changes no byte.

R107, R190: the pieces a bank deferred and the stacked lines a slice deferred are retried at the next tick; nothing else moves.
Forms completed: pieceDeferral, lineDeferral. -/
def Obligations.StoreAccesses : Prop :=
  (∀ (ws0 : Mem) (k : Core) (p : Piece) (o : Op), k.opAt p.op = some o →
    let q := Core.perform ws0 k p
    (p.write = none → q.ws = k.ws) ∧
    (∀ b, p.write = some b →
      (∀ i, i < b.length → q.ws.get (p.addr + i) = b.getD i 0#8) ∧
      (∀ a, a < p.addr ∨ p.addr + b.length ≤ a → q.ws.get a = k.ws.get a)) ∧
    q.s = k.s ∧ q.a = k.a ∧ q.p = k.p ∧ q.v = k.v ∧ q.acc = k.acc ∧ q.pc = k.pc) ∧
  (∀ (s : State) (c : Nat), s.hasCore c = true →
    (completes (.pieceDeferral c) s fun t => onlyCore s t c { s.core c with
      lost := [], pieces := (s.core c).pieces ++ (s.core c).lost.map fun p => { p with tick := s.tickOf c + 1 } }) ∧
    (completes (.lineDeferral c) s fun t =>
      (∀ l, l ∈ t.ssLost ↔ l ∈ s.ssLost ∧ l.slice ≠ c) ∧
      (∀ l, l ∈ t.ssLines ↔ l ∈ s.ssLines ∨ ∃ m ∈ s.ssLost, m.slice = c ∧ l = { m with tick := s.tickOf c + 1 }) ∧
      ({ t with ssLines := s.ssLines, ssLost := s.ssLost } : State) = s))

/-- R143, R148, R152, R114: MCFG latches the feed state from four address registers, each cleared to 64 B (those of the
scales for a 4-bit pair only: with another they are ignored, and their state stays), and zeroes the k count;
MCLR clears the accumulators its mask names, once none of them has an open working copy; MMODE latches the random stream of MOUT;
ACCUMULATOR_COMMIT replaces an accumulator by its working copy 6 ticks after its chain has ended, and does nothing before. What is written has no parity error left.

R149, R150, R151, R104: MOUT to vector registers puts row r of its rows on its way to register D + r, visible at t + 4 + r; to the
working store it puts one write per 64 B of a row at bank tick t + 4 + r (LS640: four of a row's 80 in each of 20 ticks). The readout
port is taken, and under stochastic rounding DRAW advances by 16 words a row. The accumulators keep their elements.
Forms completed: mcfg, accumulatorCommit, mclr, mout, mmode. -/
def Obligations.MatrixStateAndReadout : Prop :=
  (∀ (s : State) (c : Nat) (h : Hdr),
    let k := s.core c
    let line (n : BitVec 4) : Nat := (k.ra n.toNat).toNat / 64 * 64
    (∀ f : McfgF, issues s c (.mx h (.mcfg f)) → completes (.mcfg c h f) s fun t => onlyCore s t c
      { k with feedCfg := { lfmt := f.lfmt.toNat, rfmt := f.rfmt.toNat, fl := line f.al, fr := line f.ar
                            fls := if f.pair4 then line f.als else k.feedCfg.fls
                            frs := if f.pair4 then line f.ars else k.feedCfg.frs, kc := 0 } }) ∧
    (∀ m : BitVec 4, issues s c (.mx h (.mclr m)) → (∀ a, a < 4 → m.getLsbD a = true → k.work.has a = false) →
      completes (.mclr c h m) s fun t =>
        (∀ a e, a < 4 → eltAt ((t.core c).accElts a) s.exact (e / 64) (e % 64) =
          if m.getLsbD a then Elt.clear s.exact else eltAt (k.accElts a) s.exact (e / 64) (e % 64)) ∧
        (∀ r, r ∈ (t.core c).parity ↔ r ∈ k.parity ∧ ∀ a, a < 4 → m.getLsbD a = true → r ≠ .acc a) ∧
        onlyCore s t c { k with acc := (t.core c).acc, parity := (t.core c).parity }) ∧
    (∀ f : MmodeF, issues s c (.mx h (.mmode f)) → completes (.mmode c h f) s fun t => onlyCore s t c
      { k with mKey := k.rs f.skey.toNat, mPos := (k.rs f.spos.toNat).truncate 32, mSid := k.rs f.ssid.toNat
               mDraw := (k.rs f.sdrw.toNat).truncate 32 }) ∧
    (∀ a w e, s.hasCore c = true → k.workOf a = some w → w.ends = some e →
      completes (.accumulatorCommit c a) s fun t =>
        if e + 6 ≤ s.tickOf c then
          onlyCore s t c { k with acc := k.acc.put a w.elts, work := k.work.del a, parity := k.parity.filter fun q => q != .acc a } ∧ (t.core c).accElts a = w.elts
        else t = s)) ∧
  (∀ (s : State) (c : Nat) (h : Hdr) (f : MoutF), issues s c (.mx h (.mout f)) →
    let k := s.core c
    let T := s.tickOf c
    k.unitBusy unitReadout T = false →
    (f.fmt = 8#4 → ∀ r j, r < f.rows → j < 64 → (eltAt (k.accElts f.acc.toNat) s.exact (f.row0.toNat + r) j).overflows = false) →
    (f.dst = true → ∀ r, r < f.rows → (k.ra f.d.toNat).toNat / 64 * 64 + r * 64 * 2 ^ f.pitch.toNat + moutBytes f.fmt.toNat ≤ 0x200000) →
    completes (.mout c h f) s fun t =>
      (∀ d, d ≠ c → t.core d = s.core d) ∧ ({ t with cores := s.cores } : State) = s ∧
      (t.core c).units = k.units.put unitReadout (T, if f.fmt = 8#4 then 20 * f.rows else f.rows) ∧
      (t.core c).mDraw = (if f.rm = 2#2 then k.mDraw + BitVec.ofNat 32 (16 * f.rows) else k.mDraw) ∧
      (f.dst = false → (t.core c).pieces = k.pieces ∧ (t.core c).wb = k.wb ++ (List.range f.rows).map fun r =>
        { reg := .v (f.d.toNat + r), val := .v (moutLanes k s f r), due := T + 4 + r, issue := T, slot := 1 }) ∧
      (f.dst = true → (t.core c).wb = k.wb ∧ ∀ p, p ∈ (t.core c).pieces ↔ p ∈ k.pieces ∨ ∃ r i,
        r < f.rows ∧ i < moutBytes f.fmt.toNat / 64 ∧
        p = { op := k.nextOp, tick := if f.fmt = 8#4 then T + 4 + 20 * r + i / 4 else T + 4 + r, cls := .mout, issue := T
              addr := (k.ra f.d.toNat).toNat / 64 * 64 + r * 64 * 2 ^ f.pitch.toNat + 64 * i, len := 64
              write := some (sub (moutRow k s f r) (64 * i) 64), off := moutBytes f.fmt.toNat * r + 64 * i, defers := 0 }) ∧
      (t.core c).s = k.s ∧ (t.core c).a = k.a ∧ (t.core c).p = k.p ∧ (t.core c).v = k.v ∧ (t.core c).acc = k.acc ∧
      (t.core c).work = k.work ∧ (t.core c).ws = k.ws ∧ (t.core c).feedCfg = k.feedCfg ∧ (t.core c).sel = k.sel ∧
      (t.core c).pc = k.pc)

/-- R113, R114, R145, R146, R147: MMA and MMAG take the array when it is free, their accumulator's copy is closed or their chain goes
on, and every line lies in the working store: the copy opens with the committed elements or goes on, the feed takes the latched
pointers, and the feed state moves past the instruction's lines, for MMAG four right lines for each left one. A count of 0 performs
nothing; a chain's first instruction reads the accumulator, and a parity error there is REG_PARITY.

R76, R77, R115: one k-group of an MMA or MMAG gives every element its own products and no other's: element (i, j) of a row whose
selector is below 4 takes the products of left line i and right line j of that selector, and a row whose selector is 4 or more keeps
its elements.
Forms completed: mma, mmag. -/
def Obligations.MatrixMultiply : Prop :=
  ((∀ (s : State) (c : Nat) (h : Hdr) (f : MmaF), issues s c (.mx h (.mma f)) →
    let k := s.core c
    let n := k.cnt f.k
    let g := k.feedCfg
    let lb := g.cls.lineBytes
    let a := f.acc.toNat
    (n = 0 → completes (.mma c h f) s fun t => t = s) ∧
    (0 < n → k.workOf a = none → Reg.acc a ∈ k.parity → completes (.mma c h f) s fun t => t = s.coreFault c 1 0x0108) ∧
    (0 < n → k.feed = none → ((k.workOf a = none ∧ Reg.acc a ∉ k.parity) ∨ ∃ w, k.workOf a = some w ∧ w.ends = some (s.tickOf c)) →
      feedInWs g 1 n = true →
      completes (.mma c h f) s fun t =>
        ∃ fd w, onlyCore s t c { k with
            feed := some fd, work := k.work.put a w
            feedCfg := { g with fl := g.fl + lb * n, fr := g.fr + lb * n, kc := g.kc + n } } ∧
          fd.cfg = g ∧ fd.acc = a ∧ fd.k = n ∧ fd.sel = none ∧ fd.group = 0 ∧ fd.ticks = g.cls.g s.exact ∧ w.ends = none ∧
          w.elts = (match k.workOf a with | some v => v.elts | none => k.accElts a))) ∧
  (∀ (s : State) (c : Nat) (h : Hdr) (f : MmagF), issues s c (.mx h (.mmag f)) →
    let k := s.core c
    let n := k.cnt f.k
    let g := k.feedCfg
    let lb := g.cls.lineBytes
    let a := f.acc.toNat
    (n = 0 → completes (.mmag c h f) s fun t => t = s) ∧
    (0 < n → k.workOf a = none → Reg.acc a ∈ k.parity → completes (.mmag c h f) s fun t => t = s.coreFault c 1 0x0108) ∧
    (0 < n → k.feed = none → ((k.workOf a = none ∧ Reg.acc a ∉ k.parity) ∨ ∃ w, k.workOf a = some w ∧ w.ends = some (s.tickOf c)) →
      feedInWs g 4 n = true →
      completes (.mmag c h f) s fun t =>
        ∃ fd w, onlyCore s t c { k with
            feed := some fd, work := k.work.put a w
            feedCfg := { g with fl := g.fl + lb * n, fr := g.fr + lb * 4 * n, kc := g.kc + n } } ∧
          fd.cfg = g ∧ fd.acc = a ∧ fd.k = n ∧ fd.group = 0 ∧ fd.ticks = g.cls.g s.exact * 2 ∧ w.ends = none ∧
          (∀ i, i < 64 → (fd.sel.getD []).getD i 0 = (lane (k.rv f.vs.toNat) i).toNat % 8) ∧
          w.elts = (match k.workOf a with | some v => v.elts | none => k.accElts a)))) ∧
  (∀ (fd : Feed) (exact : Bool) (elts : Map Elt) (left : Bytes) (rights : List Bytes) (i j : Nat), i < 64 → j < 64 →
    let r := (match fd.sel with | none => 0 | some l => l.getD i 4)
    eltAt (groupElts fd exact elts left rights) exact i j =
      if 4 ≤ r then eltAt elts exact i j
      else (eltAt elts exact i j).step
        (groupProds fd.cfg left fd.lscale (rights.getD r []) (fd.rscale.getD r []) i j))

/-- R157 to R161, R104: VADD, VMUL, VFMA, VMIN, VMAX, VCMP, VSEL, VSHUF and VRED, on a vector pipe that takes them. Lane l of the
result is the operation on lane l of the operands; VCMP also sets p[PD] when any lane holds; VSHUF takes its lanes as MODE says.

R86, R161: with integer lanes VRED's sum is the sum of all 64 lanes modulo 2³².
Forms completed: vadd, vmul, vfma, vmin, vmax, vcmp, vsel, vshuf, vred. -/
def Obligations.VectorLanes : Prop :=
  (∀ (s : State) (c : Nat) (h : Hdr), (s.core c).unitBusy unitPipe (s.tickOf c) = false →
    let k := s.core c
    let out (vd : BitVec 6) (lat : Nat) (v : List W32) : Core :=
      { withResult s c k (.v vd.toNat) (.v v) lat 2 with units := k.units.put unitPipe (s.tickOf c, 1) }
    (∀ f : LaneF,
      let a (l : Nat) := lane (k.rv f.va.toNat) l
      let b (l : Nat) := lane (k.rv f.vb.toNat) l
      let d (l : Nat) := lane (k.rv f.vc.toNat) l
      let int := f.t ≠ 0#2
      let sgn := f.t = 1#2
      (issues s c (.vx h (.vadd f)) → completes (.vadd c h f) s fun t => onlyCore s t c
        (out f.vd 4 (lanes fun l => if int then a l + b l else fadd (a l) (b l)))) ∧
      (issues s c (.vx h (.vmul f)) → completes (.vmul c h f) s fun t => onlyCore s t c
        (out f.vd 4 (lanes fun l => if int then a l * b l else fmul (a l) (b l)))) ∧
      (issues s c (.vx h (.vfma f)) → completes (.vfma c h f) s fun t => onlyCore s t c
        (out f.vd 4 (lanes fun l => if int then a l * b l + d l else ffma (a l) (b l) (d l)))) ∧
      (issues s c (.vx h (.vmin f)) → completes (.vmin c h f) s fun t => onlyCore s t c
        (out f.vd 2 (lanes fun l =>
          if int then (if (if sgn then (b l).slt (a l) else (b l).ult (a l)) then b l else a l) else fmin (a l) (b l)))) ∧
      (issues s c (.vx h (.vmax f)) → completes (.vmax c h f) s fun t => onlyCore s t c
        (out f.vd 2 (lanes fun l =>
          if int then (if (if sgn then (a l).slt (b l) else (a l).ult (b l)) then b l else a l) else fmax (a l) (b l)))) ∧
      (issues s c (.vx h (.vsel f)) → completes (.vsel c h f) s fun t => onlyCore s t c
        (out f.vd 2 (lanes fun l => if (d l).toNat % 2 = 1 then a l else b l))) ∧
      (issues s c (.vx h (.vcmp f)) → completes (.vcmp c h f) s fun t =>
        let hold (l : Nat) : Bool := vcmpCond f.t.toNat f.cond.toNat (a l) (b l)
        let mask : Core := out f.vd 2 (lanes fun l => if hold l then BitVec.allOnes 32 else 0#32)
        onlyCore s t c (withResult s c mask (.p f.pd.toNat) (.p ((List.range 64).any hold)) 2 2))) ∧
    (∀ f : ShufF, issues s c (.vx h (.vshuf f)) → completes (.vshuf c h f) s fun t => onlyCore s t c
      (out f.vd 3 (lanes fun l =>
        if f.mode = 0#2 then lane (k.rv f.va.toNat) ((lane (k.rv f.vb.toNat) l).toNat % 64)
        else if f.mode = 1#2 then lane (k.rv f.va.toNat) f.ln.toNat
        else if f.mode = 2#2 then (k.rs f.sa.toNat).truncate 32
        else (k.rs f.sa.toNat).truncate 32 + BitVec.ofNat 32 l))) ∧
    (∀ f : RedF, issues s c (.vx h (.vred f)) → completes (.vred c h f) s fun t => onlyCore s t c
      (out f.vd 12 (List.replicate 64 (vred (redOp f.rop.toNat f.t.toNat) (k.rv f.va.toNat)))))) ∧
  (∀ v : List W32, v.length = 64 → vred (redOp 0 1) v = v.foldl (· + ·) 0#32)

/-- R162, R163, R164, R104: VCVT and VQNT on the vector pipe, VFN on the function unit. A VQNT's two blocks fill bytes 0 to 63 of its
register, and the rest is 0.
Forms completed: vcvt, vqnt, vfn. -/
def Obligations.VectorConversions : Prop :=
  ∀ (s : State) (c : Nat) (h : Hdr),
    let k := s.core c
    let out (vd : BitVec 6) (lat u occ : Nat) (v : List W32) : Core :=
      { withResult s c k (.v vd.toNat) (.v v) lat 2 with units := k.units.put u (s.tickOf c, occ) }
    (∀ f : CvtF, issues s c (.vx h (.vcvt f)) → k.unitBusy unitPipe (s.tickOf c) = false →
      completes (.vcvt c h f) s fun t => onlyCore s t c (out f.vd 4 unitPipe 1 (lanes fun l =>
        BitVec.ofNat 32 (convertTo f.df.toNat s.e4m3Nan (rmOf f.rm.toNat) (cvtWord k f l).toNat (cvtSrc k f l))))) ∧
    (∀ f : CvtF, issues s c (.vx h (.vqnt f)) → k.unitBusy unitPipe (s.tickOf c) = false →
      completes (.vqnt c h f) s fun t => ∃ v, onlyCore s t c (out f.vd 6 unitPipe 2 v) ∧
        (∀ l, 16 ≤ l → lane v l = 0#32) ∧ ∀ l, l < 16 → lane v l = BitVec.ofNat 32 (fld (vqntRow k f) (4 * l) 4)) ∧
    (∀ f : FnF, issues s c (.vx h (.vfn f)) → k.unitBusy unitFn (s.tickOf c) = false →
      completes (.vfn c h f) s fun t => onlyCore s t c
        (out f.vd 12 unitFn 4 (lanes fun l => vfnLane f.fn.toNat (lane (k.rv f.va.toNat) l))))

/-- R165, R166, R167: VTOPK. INIT takes KCAP (from 1 to 1,024) and WB and empties the list and the seen mask; MERGE keeps the first
KCAP entries of the list and the lanes together in the candidate order; READ returns 64 entries from IX on, −∞ and 0xFFFFFFFF beyond
the list's end.

R166, R167: what a MERGE leaves is in the candidate order, the greater key first and equal keys by the lower id, when the list was;
and no candidate that it drops comes before one that it keeps.

R168, R169: VPEN gives each lane its penalised logit and marks the ids of its active lanes as seen; DRAW gives 64 uniform numbers;
SELECT finds the first lane whose weight exceeds the threshold, once; CLRSEL clears the selection.
Forms completed: vtopkInit, vtopkMerge, vtopkRead, vpen, vdrawDraw, vdrawSelect, vdrawClrsel. -/
def Obligations.SelectUnit : Prop :=
  (∀ (s : State) (c : Nat) (h : Hdr) (f : TopkF), (s.core c).unitBusy unitSelect (s.tickOf c) = false →
    let k := s.core c
    let e := k.sel
    let units := k.units.put unitSelect (s.tickOf c, 8)
    let x := k.rs f.sa.toNat
    (issues s c (.vx h (.topkInit f)) → completes (.vtopkInit c h f) s fun t => onlyCore s t c { k with
      units := units
      sel := { e with kcap := min 1024 (max 1 (x.toNat % 2 ^ 16)), wb := (x >>> 32).truncate 32, list := [], seen := []
                      sel := false } }) ∧
    (issues s c (.vx h (.topkMerge f)) → completes (.vtopkMerge c h f) s fun t =>
      ∃ l, onlyCore s t c { k with units := units, sel := { e with list := l } } ∧ l.length ≤ e.kcap ∧
        (∀ p, p ∈ l → p ∈ e.list ∨ ∃ n, n < 64 ∧ p = (canon32 (lane (k.rv f.va.toNat) n), lane (k.rv f.vb.toNat) n) ∧
          p.2 ≠ 0xFFFFFFFF#32)) ∧
    (issues s c (.vx h (.topkRead f)) → completes (.vtopkRead c h f) s fun t =>
      let at' (n : Nat) (d : W32 × W32) := e.list.getD (x.toNat + n) d
      let none' : W32 × W32 := (0xFF800000#32, 0xFFFFFFFF#32)
      onlyCore s t c { k with
        units := units
        wb := k.wb ++ [{ reg := .v f.vd.toNat, val := .v (lanes fun n => (at' n none').1), due := s.tickOf c + 16
                         issue := s.tickOf c, slot := 2 },
                       { reg := .v (f.vd.toNat + 1), val := .v (lanes fun n => (at' n none').2), due := s.tickOf c + 16
                         issue := s.tickOf c, slot := 2 }] })) ∧
  (∀ (e : Select) (skip : Bool) (vals ids : List W32),
    let l := mergeList e skip vals ids
    l.Pairwise (fun a b => candBefore a b = true) ∧
    (∀ p q, p ∈ l → q ∈ e.list → q ∉ l → candBefore p q = true)) ∧
  (∀ (s : State) (c : Nat) (h : Hdr), (s.core c).unitBusy unitSelect (s.tickOf c) = false →
    let k := s.core c
    let e := k.sel
    let T := s.tickOf c
    (∀ f : PenF, issues s c (.vx h (.vpen f)) → completes (.vpen c h f) s fun t =>
      ∃ seen,
        onlyCore s t c { withResult s c k (.v f.vd.toNat) (.v (lanes fun l =>
            penLane e (lane (k.rv f.va.toNat) l) (lane (k.rv f.vb.toNat) l) (lane (k.rv f.vc.toNat) l)
              ((k.rs f.sp.toNat).truncate 32) ((k.rs f.sp.toNat >>> 32).truncate 32) ((k.rs f.sq.toNat).truncate 32))) 12 2 with
          units := k.units.put unitSelect (T, 4), sel := { e with seen := seen } } ∧
        (∀ n, n ∈ seen ↔ n ∈ e.seen ∨ ∃ l, l < 64 ∧
          penActive e (lane (k.rv f.vb.toNat) l) (lane (k.rv f.vc.toNat) l) = true ∧
          n = (lane (k.rv f.vb.toNat) l).toNat - e.wb.toNat)) ∧
    (∀ f : DrawF, issues s c (.vx h (.draw f)) → completes (.vdrawDraw c h f) s fun t => onlyCore s t c
      { withResult s c k (.v f.vd.toNat) (.v (lanes fun l => uniform24 (laneWord (k.rs f.sk.toNat)
          ((k.rs f.sp.toNat >>> 32).truncate 32) ((k.rs f.sp.toNat).truncate 32) (k.rs f.ss.toNat) l))) 14 2 with
        units := k.units.put unitSelect (T, 2) }) ∧
    (∀ f : SelF, issues s c (.vx h (.select f)) → completes (.vdrawSelect c h f) s fun t =>
      let w := k.rv f.va.toNat
      let ids := k.rv f.vb.toNat
      let beats (l : Nat) : Bool := lane ids l ≠ 0xFFFFFFFF#32 && flt (lane (k.rv f.vc.toNat) 0) (lane w l)
      ∃ e' v, onlyCore s t c { withResult s c k (.v f.vd.toNat) (.v v) 14 2 with
          units := k.units.put unitSelect (T, 2), sel := e' } ∧
        (e.sel = true → e' = e) ∧
        (e.sel = false → (∀ l, l < 64 → beats l = false) → e' = e) ∧
        (∀ l, e.sel = false → l < 64 → beats l = true → (∀ m, m < l → beats m = false) →
          e' = { e with sel := true, selId := lane ids l, selIx := l }) ∧
        (e'.sel = true → lane v 0 = e'.selId ∧ lane v 1 = 1#32 ∧ lane v 2 = BitVec.ofNat 32 e'.selIx) ∧
        (e'.sel = false → lane v 0 = 0xFFFFFFFF#32 ∧ lane v 1 = 0#32)) ∧
    (issues s c (.vx h .clrsel) → completes (.vdrawClrsel c h) s fun t => onlyCore s t c
      { k with units := k.units.put unitSelect (T, 2), sel := { e with sel := false } }))

/-- R171 to R176, R119, R104: SSR and SSW move lines of the core's own slice or one line of a remote one, MSEND and MRECV a unit of
128 B, GATH 64 elements. What they put on its way: stacked lines at bank tick t + 4 (remote: the route's delay later), working-store
reads and writes at t + 1, the gather path for 64 ticks.
Forms completed: ssr, ssw, msend, mrecv, gath. -/
def Obligations.Movers : Prop :=
  ∀ (s : State) (c : Nat) (h : Hdr),
    let k := s.core c
    let T := s.tickOf c
    let ws (a : BitVec 4) : Nat := (k.ra a.toNat).toNat / 128 * 128
    let off (a : BitVec 4) : Nat := (k.ra a.toNat).toNat % 2 ^ 27 / 128 * 128
    let slice (a : BitVec 4) : Nat := (k.ra a.toNat).toNat / 2 ^ 27
    let op (kind : OpKind) (n : Nat) : Op := { kind := kind, issue := T, slot := 4, left := n, delay := 0, data := [] }
    let reads (x n : Nat) : List Piece := (List.range n).map fun i =>
      { op := k.nextOp, tick := T + 1, cls := .outbound, issue := T, addr := x + 64 * i, len := 64, write := none, off := 64 * i
        defers := 0 }
    let line (sl tick rank o i : Nat) : SsLine :=
      { slice := sl, tick := tick, rank := rank, issue := T, core := c, op := k.nextOp, off := o, write := none, line := i, defers := 0 }
    let may (f : SsF) (write : Bool) : Prop :=
      (k.ra f.as.toNat).toNat < 2 ^ 35 ∧ s.stackOk c (slice f.as) (off f.as) (128 * f.nl.toNat) write = true ∧
        ws f.aw + 128 * f.nl.toNat ≤ 0x200000 ∧
        (f.rem = false → slice f.as = c) ∧
        (f.rem = true → slice f.as ≠ c ∧ s.routeOk c f.rt.toNat = true ∧
          ∃ r, s.route c f.rt.toNat = some r ∧ r.ep = false ∧ r.dest = slice f.as)
    (∀ f : SsF, issues s c (.mv h (.ssr f)) → may f false → completes (.ssr c h f) s fun t =>
      t.core c = { k with
        nextOp := k.nextOp + 1
        ops := k.ops.put k.nextOp (if f.rem then op (.ssrRemote (ws f.aw)) 1 else op (.ssrOwn (ws f.aw) f.nl.toNat) f.nl.toNat) } ∧
      (∀ d, d ≠ c → t.core d = s.core d) ∧
      t.ssLines = s.ssLines ++ (if f.rem then [line (slice f.as) (T + 4 + s.routeDelay c f.rt.toNat) 1 (off f.as) 0]
        else (List.range f.nl.toNat).map fun i => line c (T + 4) 2 (off f.as + 128 * i) i) ∧
      ({ t with cores := s.cores, ssLines := s.ssLines } : State) = s) ∧
    (∀ f : SsF, issues s c (.mv h (.ssw f)) → may f true → completes (.ssw c h f) s fun t => onlyCore s t c
      { k with nextOp := k.nextOp + 1, pieces := k.pieces ++ reads (ws f.aw) (2 * f.nl.toNat)
               ops := k.ops.put k.nextOp (op (if f.rem then .sswRemote (slice f.as) (off f.as) (T + 4 + s.routeDelay c f.rt.toNat)
                 else .sswOwn (off f.as) f.nl.toNat) (2 * f.nl.toNat)) }) ∧
    (∀ f : MsendF, issues s c (.mv h (.msend f)) → s.routeOk c f.rt.toNat = true → 0 ≤ msendAddr k f →
      msendAddr k f + 128 ≤ 0x200000 → completes (.msend c h f) s fun t => onlyCore s t c
        { k with nextOp := k.nextOp + 1, pieces := k.pieces ++ reads (msendAddr k f).toNat 2
                 ops := k.ops.put k.nextOp (op (.msend f.rt.toNat) 2) }) ∧
    (∀ p aw b, issues s c (.mv h (.mrecv p aw)) → k.unitAt p.toNat T = some b → b.length = 128 → ws aw + 128 ≤ 0x200000 →
      completes (.mrecv c h p aw) s fun t => onlyCore s t c { k with
        ports := k.ports.del p.toNat, nextOp := k.nextOp + 1, ops := k.ops.put k.nextOp (op .store 2)
        pieces := k.pieces ++ (List.range 2).map fun i =>
          { op := k.nextOp, tick := T + 1, cls := .inbound, issue := T, addr := ws aw + 64 * i, len := 64
            write := some (sub b (64 * i) 64), off := 64 * i, defers := 0 } }) ∧
    (∀ vd va, issues s c (.mv h (.gath vd va)) → k.unitBusy unitGather T = false →
      (∀ l, l < 64 → gathOk s c (lane (k.rv va.toNat) l) = true) →
      completes (.gath c h vd va) s fun t => onlyCore s t c { k with
        units := k.units.put unitGather (T, 64)
        gather := k.gather ++ [{ vd := vd.toNat, addrs := k.rv va.toNat, issue := T, got := [] }] })

/-- R179, R181, R182, R183: QPUSH enters a request that passes its checks and adds 1 to PUSHED; QARM sets a free wait slot's target to
AT + N, which AT takes; QWAIT frees a slot whose lookahead has passed; QSTAT returns GATED, AT, PUSHED or the free depth.
Forms completed: qpush, qarm, qwait, qstat. -/
def Obligations.QueueInstructions : Prop :=
  ∀ (s : State) (c : Nat) (h : Hdr),
    let k := s.core c
    let T := s.tickOf c
    (∀ f : QpushF, issues s c (.qx h (.qpush f)) → s.stop = none →
      let q := s.queue c f.q.toNat
      let len := (k.rs f.sb.toNat).toNat % 2 ^ 32
      s.bound c f.q.toNat = true → q.kind.pushes = true → (q.pushed - q.gated).toNat < q.kind.depth →
      q.reqOk s (k.rs f.sa.toNat) len = true →
      completes (.qpush c h f) s fun t =>
        (∃ r : QReq, r.addr = k.rs f.sa.toNat ∧ r.len = len ∧ r.seq = q.done + q.reqs.length + 1 ∧ r.accepted = [] ∧ r.got = 0 ∧ r.sent = 0 ∧
          t.queue c f.q.toNat = { q with pushed := q.pushed + 1#32, reqs := q.reqs ++ [r] }) ∧
        (∀ d i, qKey d i ≠ qKey c f.q.toNat → t.queue d i = s.queue d i) ∧ ({ t with queues := s.queues } : State) = s) ∧
    (∀ f : QarmF, issues s c (.qx h (.qarm f)) →
      let q := s.queue c f.q.toNat
      s.bound c f.q.toNat = true → k.waits.has f.w.toNat = false →
      (q.kind.pushes = true → (qarmN k f).toNat ≤ (q.pushed - q.at_).toNat) →
      completes (.qarm c h f) s fun t =>
        t.queue c f.q.toNat = { q with at_ := q.at_ + qarmN k f } ∧
        t.core c = { k with
          waits := k.waits.put f.w.toNat { queue := f.q.toNat, target := q.at_ + qarmN k f, armTick := T, passed := false } } ∧
        (∀ d, d ≠ c → t.core d = s.core d) ∧ (∀ d i, qKey d i ≠ qKey c f.q.toNat → t.queue d i = s.queue d i) ∧
        ({ t with cores := s.cores, queues := s.queues } : State) = s) ∧
    (∀ w x, issues s c (.qx h (.qwait w)) → k.waits.has w.toNat = true → k.waits.find x w.toNat = x → x.armTick + s.lookahead ≤ T →
      completes (.qwait c h w) s fun t => onlyCore s t c { k with waits := k.waits.del w.toNat } ∧
        (t.core c).waits.has w.toNat = false) ∧
    (∀ f : QstatF, issues s c (.qx h (.qstat f)) → s.bound c f.q.toNat = true → completes (.qstat c h f) s fun t =>
      let q := s.queue c f.q.toNat
      let free : W64 := if q.kind.pushes then BitVec.ofNat 64 (q.kind.depth - (q.pushed - q.gated).toNat) else 0#64
      onlyCore s t c (withResult s c k (.s f.sd.toNat)
        (.s ([q.gated.zeroExtend 64, q.at_.zeroExtend 64, q.pushed.zeroExtend 64, free].getD f.sel.toNat 0#64)) 2 5))

/-! ### The tick domain: stores, mesh, endpoints -/

/-- R119, R120, R122: a unit that must be taken in the core's next tick stands at its port in that tick and is no longer in flight; one
that fails its parity check at a router it passes, wherever it goes, is lost and MESH_LINK_ERROR (0x0404) is raised, and the others
arrive; a router it does not pass finds nothing.

R180, R533: a unit that has reached its endpoint enters the queue's staging area, behind what is there; when the bytes that have come
and are not yet passed on leave no room for it STAGING_FULL (0x0407) is raised and the unit is lost. (Queues of kind fabric send pass their bytes on at once and have a
statement of their own.)

R230: a landing entry of a RUNNING job lands the next 128 B that a passed gate covers, on its phase and once a tick, in the ring
of its core: two working-store writes at the core's next tick; its cursor goes on around the ring.
Forms completed: meshUnitArrival, endpointUnit, landingTransfer. -/
def Obligations.UnitsArrive : Prop :=
  ((∀ (s : State) (c p : Nat) (f : Flight), s.hasCore c = true → f ∈ s.flights → f.dest = .port c p → f.due = s.tickOf c + 1 →
    (∀ g ∈ s.flights, g.dest = .port c p → g.due ≤ s.tickOf c + 1 → g = f) →
    completes (.meshUnitArrival c none) s fun t =>
      (t.core c).unitAt p (s.tickOf c + 1) = some f.data ∧ f ∉ t.flights ∧
      onlyCore s { t with flights := s.flights } c { s.core c with ports := (t.core c).ports }) ∧
  (∀ (s : State) (c i : Nat) (f : Flight), s.hasCore c = true → s.power.mode = .run → s.job.state = .running → s.job.fault = 0#16 →
    s.flights[i]? = some f →
    (c ∈ f.path → completes (.meshUnitArrival c (some i)) s fun t =>
      t.flights = (s.flights.eraseIdx i).filter (fun g => !g.dueAt c (s.tickOf c + 1)) ∧
      t.job.fault = 0x0404#16 ∧ t.stop.isSome = true ∧ t.queues = s.queues ∧ ∀ d, d ≠ c → t.core d = s.core d) ∧
    (c ∉ f.path → exec (.meshUnitArrival c (some i)) s = exec (.meshUnitArrival c none) s))) ∧
  (∀ (s : State) (c h : Nat) (f : Flight), s.hasCore c = true → s.flights = [f] → f.dest = .stage c h → s.stop = none →
    f.due ≤ s.tickOf (edgeCore s.gridW c (epEdge (s.queue c h).endpoint)) → f.data.length = 128 →
    (∀ e ∈ s.queues, e.2.kind ≠ .fabricSend) → (s.queue c h).kind ≠ .fabricSend → s.power.mode = .run → s.job.state = .running →
    s.job.fault = 0#16 →
    completes (.endpointUnit c h) s fun t =>
      t.flights = [] ∧ t.cores = s.cores ∧ t.far = s.far ∧
      (if s.occupied (s.queue c h) + 128 ≤ (s.queue c h).stageSize
       then t.queue c h = { s.queue c h with stage := (s.queue c h).stage ++ f.data } ∧ t.job = s.job
       else t.queues = s.queues ∧ t.job.fault = 0x0407#16 ∧ t.stop.isSome = true)) ∧
  (∀ (s : State) (i : Nat) (im : Image) (e : Landing) (b : Bytes) (q : Queue),
    s.image = some im → im.landings[i]? = some e → s.job.state = .running →
    let T := s.tickOf e.core + 1
    T % s.period = e.phase → e.doneTick ≠ T + 1 → (s.queue e.core e.queue).take = some (b, q) → b.length = 128 → 0 < e.ringUnits →
    completes (.landingTransfer i) s fun t =>
      t.queue e.core e.queue = q ∧
      t.core e.core = (s.core e.core).addOp .landing T 6 .landing
        ((List.range 2).map fun j => (T, e.ringBase + 128 * e.cursor + 64 * j, 64, some (sub b (64 * j) 64), 64 * j)) ∧
      t.image = some { im with landings := modAt im.landings i fun e =>
        { e with doneTick := T + 1, cursor := (e.cursor + 1) % e.ringUnits } } ∧
      (∀ d, d ≠ e.core → t.core d = s.core d) ∧
      ({ t with cores := s.cores, queues := s.queues, image := s.image } : State) = s)

/-- R178, R385: the oldest request of a far-read, far-write or host-write queue, or a step descriptor, completes when its bytes have
moved: CC rises by 1, a read's bytes and a descriptor stand in the landing buffer, a host write's bytes stand in its window; until
then nothing changes. A fabric-receive queue completes its entries in list order, as each has become whole.
Forms completed: queueCompletion. -/
def Obligations.QueueCompletions : Prop :=
  ∀ (s : State) (c h : Nat), s.hasCore c = true → s.bound c h = true → s.fab.switch = [] → s.recs.marks = [] →
    (∀ e ∈ s.queues, e.2.kind = .fabricSend → (s.queue (e.1 / 32) (e.1 % 32)).stage = []) →
    let q := s.queue c h
    let frame (t : State) : Prop := t.cores = s.cores ∧ t.far = s.far ∧ t.job = s.job ∧
      (∀ d i, qKey d i ≠ qKey c h → t.queue d i = s.queue d i)
    (∀ r rs e, q.kind = .hostWrite → q.reqs = r :: rs → q.stage = [] → r.got = r.len →
      (q.ranges.find? fun e => e.type = 2 && e.offset ≤ r.addr.toNat && r.addr.toNat + r.len ≤ e.offset + e.length) = some e →
      completes (.queueCompletion c h) s fun t => frame t ∧
        t.queue c h = { q with cc := q.cc + 1#32, done := q.done + 1, reqs := rs } ∧
        ∀ i, i < r.len → t.host.hostWin.get (e.aux % 256 * 2 ^ 64 + r.addr.toNat + i) = r.data.get i) ∧
    (q.kind = .fabricReceive → completes (.queueCompletion c h) s fun t => frame t ∧
      t.queue c h = if s.entryWhole c h then { q with cc := q.cc + 1#32, done := q.done + 1 } else q) ∧
    (∀ r rs, q.kind = .farRead → q.reqs = r :: rs → completes (.queueCompletion c h) s fun t => frame t ∧
      (s.allAccepted r = true → r.left = 0 → q.landed + r.len ≤ q.landSize →
        (t.queue c h).cc = q.cc + 1#32 ∧ (t.queue c h).reqs = rs ∧
        ∃ n, (n, r.data.read 0 r.len) ∈ (t.queue c h).land ∧ n = r.seq) ∧
      (r.left ≠ 0 → t.queue c h = q)) ∧
    (∀ r rs, q.kind = .farWrite → q.reqs = r :: rs → completes (.queueCompletion c h) s fun t => frame t ∧
      (r.got = r.len → s.allAccepted r = true → t.queue c h = { q with cc := q.cc + 1#32, done := q.done + 1, reqs := rs }) ∧
      (r.got < r.len → t.queue c h = q)) ∧
    (∀ r rs, q.kind = .fabricSend → q.reqs = r :: rs → completes (.queueCompletion c h) s fun t => frame t ∧
      t.queue c h = if r.sent = r.len then { q with cc := q.cc + 1#32, done := q.done + 1, reqs := rs } else q) ∧
    (q.kind = .step → completes (.queueCompletion c h) s fun t => frame t ∧
      t.queue c h = if q.land.any fun x => x.1 = q.done + 1 then { q with cc := q.cc + 1#32, done := q.done + 1 } else q)

/-- R211, R213, R209: a controller accepts a far read as its bytes stand, and a far write with all its bytes: the bytes of the granules
that the region's map puts on this controller are the request's, every byte of the far memory outside them keeps its value, and the
request is recorded as accepted there.

R209: the far map is one to one on a valid region: two different bytes of a region never share a place.
Forms completed: farRequest. -/
def Obligations.FarRequests : Prop :=
  (∀ (s : State) (c h ctrl : Nat) (r : QReq) (rs : List QReq), s.hasCore c = true → ctrl < 36 → s.bound c h = true →
    s.stop = none → s.far.selfRefresh = false → s.far.rate ≠ 3 → s.power.mode = .run →
    let q := s.queue c h
    q.reqs = r :: rs → (∀ x ∈ rs, x.seq ≠ r.seq) → ctrl ∉ r.accepted → ((s.farRegion r.region).grans r.off r.len ctrl) ≠ [] →
    (q.kind = .farRead → completes (.farRequest c h ctrl) s fun t =>
      t.far.mem = s.far.mem ∧ t.cores = s.cores ∧ ∃ r', r' ∈ (t.queue c h).reqs ∧ r'.seq = r.seq ∧ ctrl ∈ r'.accepted) ∧
    (q.kind = .farWrite → r.got = r.len → q.stage = [] → completes (.farRequest c h ctrl) s fun t =>
      t.cores = s.cores ∧ (∃ r', r' ∈ (t.queue c h).reqs ∧ r'.seq = r.seq ∧ ctrl ∈ r'.accepted) ∧
      ∀ a, (∀ g ∈ (s.farRegion r.region).grans r.off r.len ctrl, ∀ i, i < 64 →
          a ≠ ((s.farRegion r.region).map (r.off + 64 * g.1 + i)).key) → t.far.mem.get a = s.far.mem.get a)) ∧
  (∀ (r : FarRegion) (a b : Nat), 0 < r.ctrlCount → r.localBase + a / 64 + b / 64 < 2 ^ 25 →
    (r.map a).key = (r.map b).key → a = b)

/-- R199, R200, R205: every slot of a trained channel that is not in self-refresh moves the channel to the next slot of its frame of
4,096; in self-refresh and before training nothing moves. A refresh-window slot moves no program or background granule: it issues the
command the devices demand, and a spare one with no block to write back reads the next granule of the patrol scrub.

R202: background requests that a controller has held unserved for more than 50 ms become urgent and are counted in URGENT.

R197, R198, R218: a poll takes each controller's readings, and above 95 °C the memory is HOT, above 100 °C the fault FAR_OVERTEMP
(0x0304) follows; training outside a job sets the rate, and a channel that fails retraining at either rate while a job is ARMED
or RUNNING is FAR_CHANNEL_DOWN (0x0303).
Forms completed: channelSlot, backgroundUrgent, mr4Poll, farTraining. -/
def Obligations.FarMemoryUpkeep : Prop :=
  (∀ (s : State) (c k : Nat) (d : Option WinCmd) (e : GranErr), c < 36 → k < 16 → s.power.mode = .run →
    (s.far.rate = 3 ∨ s.far.selfRefresh = true → completes (.channelSlot c k { demand := d, err := e }) s fun t => t = s) ∧
    (s.far.rate ≠ 3 → s.far.selfRefresh = false → completes (.channelSlot c k { demand := d, err := e }) s fun t =>
      (t.farChan c k).slot = ((s.farChan c k).slot + 1) % 4096 ∧
      (∀ i j, i * 16 + j ≠ c * 16 + k → t.farChan i j = s.farChan i j) ∧ (∀ i, i ≠ c → t.ctrl i = s.ctrl i) ∧
      t.far.mem = s.far.mem ∧ t.cores = s.cores ∧
      (slotClass s.far.bgEnlarged (s.farChan c k).slot = .window → (t.farChan c k).prog = (s.farChan c k).prog ∧
        (t.ctrl c).bg = (s.ctrl c).bg ∧ t.queues = s.queues ∧
        (∀ w, d = some w → (t.farChan c k).cmds.find 0 w.code = (s.farChan c k).cmds.find 0 w.code + 1 ∧
          (t.farChan c k).scrub = (s.farChan c k).scrub) ∧
        (d = none → s.gsc < (s.farChan c k).oscDue → (s.farChan c k).fixes = [] →
          (t.farChan c k).scrub = ((s.farChan c k).scrub + 1) % (16 * s.chanBlocks) ∧
          (t.farChan c k).fixes = if e.corrected then [(s.farChan c k).scrub / 16] else [])))) ∧
  (∀ (s : State) (c : Nat) (b : BgReq), c < 36 → (s.ctrl c).bg = [b] → b.urgent = false → b.begun = false →
    completes (.backgroundUrgent c) s fun t =>
      b.at_ + 50000000 < t.gsc ∧ s.gsc ≤ t.gsc ∧ (t.ctrl c).bg = [{ b with urgent := true }] ∧
      (t.ctrl c).urgent = min ((s.ctrl c).urgent + 1) (2 ^ 32 - 1) ∧ (∀ d, d ≠ c → t.ctrl d = s.ctrl d) ∧ t.far.mem = s.far.mem) ∧
  ((∀ (s : State) (l : List (Nat × Nat)), s.far.rate ≠ 3 → s.far.selfRefresh = false → l.length = 36 → s.power.mode = .run →
    completes (.mr4Poll l) s fun t =>
      (∀ c, c < 36 → (t.ctrl c).tempCase = min 255 (l.getD c (0, 0)).1 ∧ (t.ctrl c).rateCode = (l.getD c (0, 0)).2 % 32) ∧
      t.far.hot = decide (95 < t.caseHottest) ∧ t.far.caseMax = t.caseHottest ∧ t.far.mem = s.far.mem ∧
      (s.job.state = .running → s.job.fault = 0#16 → 100 < t.caseHottest → t.job.fault = 0x0304#16) ∧
      (t.caseHottest ≤ 100 → t.job = s.job)) ∧
  (∀ (s : State) (hi lo : Bool), s.job.state ≠ .armed → s.job.state ≠ .running →
    completes (.farTraining hi lo) s fun t =>
      t.far.rate = (if hi then 1 else 0) ∧ t.far.degraded = (hi && lo) ∧ t.far.mem = s.far.mem ∧ t.job = s.job) ∧
  (∀ (s : State) (hi lo : Bool), s.job.state = .running → s.job.fault = 0#16 → s.power.mode = .run → hi = true ∨ lo = true →
    completes (.farTraining hi lo) s fun t => t.far = s.far ∧ t.job.fault = 0x0303#16 ∧ t.stop.isSome = true) ∧
  (∀ (s : State), s.job.state = .running → s.far.rate ≠ 3 → completes (.farTraining false false) s fun t => t = s))

/-! ### The paceline -/

/-- R23, R24, R27, R31, R49: a region issues its next tick when its period has elapsed, every neighbour's token of the tick in progress
has come, no gate of the tick is unmet and no hold applies: its count of issued ticks and TICK_COUNT rise by 1, and no other region
issues. Each neighbour's skid buffer toward it takes the tick's entry, its own give up the entries of the tick before the last and
older (R26). A token is taken once for each tick the neighbour has issued; a period ends only for a region that runs.
Forms completed: tickIssue, tickToken, periodElapsed. -/
def Obligations.TickIssue : Prop :=
  (∀ (s : State) (r : Nat), r < 80 → 0 < (s.region r).issued → (s.region r).elapsed = true → (s.region r).hasTokens r = true →
    (s.region r).gate = none → s.mayIssue r ((s.region r).tickCount + 1) = true →
    s.unmet r ((s.region r).tickCount + 1) = [] → s.otherHold r ((s.region r).tickCount + 1) = false →
    completes (.tickIssue r) s fun t =>
      (t.region r).issued = (s.region r).issued + 1 ∧ (t.region r).tickCount = (s.region r).tickCount + 1 ∧
      (t.region r).elapsed = false ∧ (t.region r).tokens = (s.region r).tokens ∧
      (∀ d, (t.region r).skid.find [] d = ((s.region r).skid.find [] d).filter fun m => (s.region r).tickCount + 1 < m + 2) ∧
      (∀ d q, d < 4 → neighbour r d = some q → let back := if d % 2 = 0 then d + 1 else d - 1
        (t.region q).skid.find [] back = (s.region q).skid.find [] back ++ [(s.region r).tickCount + 1]) ∧
      (∀ q, q ≠ r → { t.region q with skid := (s.region q).skid } = s.region q) ∧
      ∀ q, q ≠ r → (∀ d, d < 4 → neighbour r d ≠ some q) → t.region q = s.region q) ∧
  (∀ (s : State) (r : Nat), r < 80 → (s.region r).issued = 0 ∨ (s.region r).elapsed = false ∨ (s.region r).hasTokens r = false →
    completes (.tickIssue r) s fun t => t = s) ∧
  (∀ (s : State) (r d n : Nat), r < 80 → d < 4 → neighbour r d = some n → completes (.tickToken r d true) s fun t =>
    (t.region r).tokens.find 0 d = (if (s.region r).tokens.find 0 d < (s.region n).issued then (s.region r).tokens.find 0 d + 1
      else (s.region r).tokens.find 0 d) ∧
    (∀ q, q ≠ r → t.region q = s.region q) ∧ (t.region r).issued = (s.region r).issued ∧
    ({ t with regions := s.regions } : State) = s) ∧
  (∀ (s : State) (r : Nat), r < 80 → 0 < (s.region r).issued → completes (.periodElapsed r) s fun t =>
    t.region r = { s.region r with elapsed := true } ∧ (∀ q, q ≠ r → t.region q = s.region q) ∧
    ({ t with regions := s.regions } : State) = s)

/-- R31, R34, R37: an unmet wait whose gate falls at the next tick holds the region before that tick, and every unmet wait is counted
in TS_COUNT; the region issues the tick only when all completions are visible, and never before.
Forms completed: gateRelease. -/
def Obligations.TrackStands : Prop :=
  (∀ (s : State) (r : Nat), r < 80 → 0 < (s.region r).issued → (s.region r).elapsed = true → (s.region r).hasTokens r = true →
    (s.region r).gate = none → s.mayIssue r ((s.region r).tickCount + 1) = true →
    s.unmet r ((s.region r).tickCount + 1) ≠ [] →
    completes (.tickIssue r) s fun t =>
      (t.region r).gate.isSome = true ∧ (t.region r).issued = (s.region r).issued ∧ (t.region r).tickCount = (s.region r).tickCount ∧
      t.pace.tsCount = min (s.pace.tsCount + (s.unmet r ((s.region r).tickCount + 1)).length) (2 ^ 32 - 1) ∧
      t.cores = s.cores ∧ t.queues = s.queues ∧ ∀ q, q ≠ r → t.region q = s.region q) ∧
  (∀ (s : State) (r : Nat) (g : GateHold), r < 80 → (s.region r).gate = some g →
    s.unmet r ((s.region r).tickCount + 1) ≠ [] → completes (.gateRelease r) s fun t => t = s) ∧
  (∀ (s : State) (r : Nat) (g : GateHold), r < 80 → (s.region r).gate = some g →
    s.unmet r ((s.region r).tickCount + 1) = [] → s.mayIssue r ((s.region r).tickCount + 1) = true →
    s.otherHold r ((s.region r).tickCount + 1) = false →
    completes (.gateRelease r) s fun t =>
      (t.region r).gate = none ∧ (t.region r).issued = (s.region r).issued + 1 ∧
      (t.region r).tickCount = (s.region r).tickCount + 1 ∧
      ∀ q, q ≠ r → { t.region q with skid := (s.region q).skid } = s.region q)

/-- R25: between neighbouring regions the numbers of issued ticks never differ by more than 1, whatever the paceline's commands, in
any state in which they do not and in which no region holds a token that its neighbour has not issued. -/
def Obligations.LeadLimitKept : Prop :=
  ∀ (s t : State) (i : Instr),
    (∃ r, i = .tickIssue r) ∨ (∃ r d p, i = .tickToken r d p) ∨ (∃ r, i = .periodElapsed r) ∨ (∃ r, i = .gateRelease r) ∨
      (∃ r p, i = .supplyDroop r p) ∨ i = .gearSwitchCount ∨ (∃ r, i = .regionRetuneDone r) ∨ (∃ r, i = .retuneTimeout r) ∨
      (∃ r, i = .paceStall r) ∨ (∃ r, i = .tsTimeoutFar r) ∨ (∃ r, i = .tsTimeoutFabric r) →
    s.leadLimit → s.tokensIssued → s.gatesHold → exec i s = .next t → t.leadLimit ∧ t.tokensIssued ∧ t.gatesHold

/-- R27, R41 to R45: a droop of up to 20 % stretches the region's next period and is kept in STRETCH_MAX; a greater one stretches it by
20 % and applies the brake, which moves every region to gear 0 and ends a gear change. A gear change by switch count takes effect when GSC reaches the
count, in every region; by region stop when the last region has relocked.

R39, R40, R46, R47, R48: calibration refreshes one gear's trim word and goes on to the next gear 1 ms later; building the trim words
sets CAL_VALID; a lost reference holds the cap at the gear in force, a loss longer than 10 ms during a RUNNING job of several modules is
REF_LOSS (0x0D02), and when the reference is back the cap lifts and GSC has not stepped back.
Forms completed: supplyDroop, gearSwitchCount, regionRetuneDone, calibration, trimBuild, refLossEvent, refLoss, refRestored. -/
def Obligations.GearsAndReference : Prop :=
  ((∀ (s : State) (r p : Nat), r < 80 → p ≤ 200 → completes (.supplyDroop r p) s fun t =>
    t.region r = { s.region r with stretch := p } ∧ t.pace.stretchMax = max s.pace.stretchMax p ∧
    (∀ q, q ≠ r → t.region q = s.region q) ∧ t.power = s.power ∧ t.cores = s.cores) ∧
  (∀ (s : State) (r p : Nat), r < 80 → 200 < p → s.power.brake = false → completes (.supplyDroop r p) s fun t =>
    t.power.brake = true ∧ t.power.causes = [.droop] ∧ (t.region r).stretch = 200 ∧ t.pace.stretchMax = max s.pace.stretchMax 200 ∧
    t.pace.change = none ∧ t.pace.gearNow = 0 ∧
    (∀ q, q < 80 → (t.region q).gear = 0 ∧ (t.region q).issued = (s.region q).issued) ∧ t.cores = s.cores) ∧
  (∀ (s : State) (g : GearChange), s.pace.change = some g → g.regionStop = false →
    min s.power.requested s.effCap = g.target → completes .gearSwitchCount s fun t =>
      t.gsc = max s.gsc s.pace.gearAt ∧ t.pace.gearNow = g.target ∧ t.pace.rail = g.target ∧ t.pace.change = none ∧
      (∀ q, q < 80 → (t.region q).gear = g.target ∧ (t.region q).issued = (s.region q).issued)) ∧
  (∀ (s : State) (r : Nat) (g : GearChange), r < 80 → s.pace.change = some g → g.regionStop = true →
    (s.region r).retuning = true → min s.power.requested s.effCap = g.target →
    completes (.regionRetuneDone r) s fun t =>
      (t.region r).retuning = false ∧ (t.region r).gear = g.target ∧ (∀ q, q ≠ r → t.region q = s.region q) ∧
      ((∀ q, q < 80 → q ≠ r → (s.region q).retuning = false) → t.pace.gearNow = g.target ∧ t.pace.change = none) ∧
      ((∃ q, q < 80 ∧ q ≠ r ∧ (s.region q).retuning = true) → t.pace = s.pace))) ∧
  ((∀ (s : State) (o : Bool), s.pace.calEn = true → s.pace.calValid = true → s.pace.refLost = false → s.power.mode = .run →
    completes (.calibration o) s fun t =>
      t.gsc = max s.gsc s.pace.calDue ∧ t.pace.trimAt.find 0 s.pace.calGear = t.gsc ∧
      t.pace.calGear = (s.pace.calGear + 1) % 16 ∧ t.pace.calDue = t.gsc + 1000000 ∧
      t.pace.calCount = (s.pace.calCount + 1) % 65536 ∧ t.pace.calErr = (s.pace.calErr || o) ∧ t.regions = s.regions) ∧
  (∀ (s : State), s.pace.calValid = false → s.pace.refLost = false → s.power.mode = .run → s.pace.change = none →
    completes .trimBuild s fun t => t.pace.calValid = true ∧ (∀ g, g < 16 → t.pace.trimAt.find 0 g = s.gsc) ∧ t.gsc = s.gsc) ∧
  (∀ (s : State), s.pace.refLost = false → completes .refLossEvent s fun t =>
    t.pace.refLost = true ∧ t.pace.capRef = some s.pace.gearNow ∧ t.effCap ≤ s.pace.gearNow ∧ t.pace.lostAt = s.gsc ∧
    t.regions = s.regions ∧ t.job = s.job) ∧
  (∀ (s : State), s.pace.refLost = true → s.power.mode = .run → completes .refLoss s fun t =>
    s.pace.lostAt + 10000000 < t.gsc ∧ s.gsc ≤ t.gsc ∧
    (s.multi = true → s.job.state = .running → s.job.fault = 0#16 → t.job.fault = 0x0D02#16 ∧ t.stop.isSome = true) ∧
    (s.multi = false → t.job = s.job ∧ t.stop = s.stop)) ∧
  (∀ (s : State), s.pace.refLost = true → completes .refRestored s fun t =>
    t.pace.refLost = false ∧ t.pace.capRef = none ∧ t.gsc = s.gsc ∧
    t.pace.lossMs = min 65535 ((s.gsc - s.pace.lostAt) / 1000000)))

/-- R36, R43, R55: the paceline's time limits are job-fatal: no tick for 100 µs free of holds (PACE_STALL, 0x0D01), a far-memory wait
longer than FAR_LIMIT_US (0x0D03), a fabric wait longer than FAB_LIMIT_MS (0x0D04), whichever other waits the region holds for, a retune
longer than 2 µs (0x0D06; the model counts it from the request, log entry 161). GSC has passed the limit, and the fault is noted with that GSC.
Forms completed: paceStall, tsTimeoutFar, tsTimeoutFabric, retuneTimeout. -/
def Obligations.PacelineLimits : Prop :=
  ∀ (s : State) (r : Nat), r < 80 → s.power.mode = .run → s.job.state = .running → s.job.fault = 0#16 →
    let faulted (i : Instr) (code : W16) (limit : Nat) : Prop := completes i s fun t =>
      t.job.fault = code ∧ t.stop.isSome = true ∧ limit < t.gsc ∧ s.gsc ≤ t.gsc ∧ t.job.faultGsc = t.gsc ∧ t.cores = s.cores ∧
        t.regions = s.regions ∧ t.ss = s.ss ∧ t.far = s.far
    let held (kinds : List WaitKind) : Prop :=
      ∃ w ∈ s.unmet r ((s.region r).tickCount + 1), (s.queue w.1 w.2.2.queue).kind.waitKind ∈ kinds
    (0 < (s.region r).issued → s.anyHold = false → faulted (.paceStall r) 0x0D01#16 (max (s.region r).lastIssue s.pace.holdAt + 99999)) ∧
    (∀ g, (s.region r).gate = some g → s.debugStopped = false →
      (held [.farRead, .farWrite] → faulted (.tsTimeoutFar r) 0x0D03#16 (g.since + max 1 s.pace.farLimitUs * 1000)) ∧
      (held [.fabricReceive] → faulted (.tsTimeoutFabric r) 0x0D04#16 (g.since + max 1 s.pace.fabLimitMs * 1000000))) ∧
    (∀ g, s.pace.change = some g → g.regionStop = true → (s.region r).retuning = true →
      faulted (.retuneTimeout r) 0x0D06#16 (g.started + 2000))

/-! ### Lumoz commands -/

/-- R425, R429, R431: a command is executed when its turn comes; a LENGTH that is not the command's, or a reserved header byte that is
not 0, is answered RANGE and has no other effect; a command whose turn has not come, or that no channel carries, does nothing, and
there is no channel 10.

R423, R424, R445: a response stands in the channel's response page with the command's opcode, SEQ and TAG (ENTRY of a failed load
that concerns no block or tensor is 0xFFFF_FFFF), BUSY falls and DONE
rises, and nothing else of the block changes but the message of the channel's vector (a posted write, or the pending bit of a masked
entry) or, on a management channel, one RESPONSE frame on its port. -/
def Obligations.CommandsCheckedAndAnswered : Prop :=
  (∀ (v w : HostView), ∀ row ∈ commandLengths v w, ∀ (s : State) (ch : Nat) (c : Cmd),
    (s.carries ch row.2.1 c → c.length ≠ row.2.2 →
      answered (row.1 ch) s ch { s with host := { s.host with order := s.host.order.drop 1 } } (.of .range)) ∧
    (∀ n, n ≠ 0 → s.cmdOf ch = some { c with reserved := n } → ch < 10 → c.opcode = row.2.1 → c.executing = false →
      s.sec.boot = .running → s.host.order = [ch] →
      answered (row.1 ch) s ch { s with host := { s.host with order := [] } } (.of .range)) ∧
    (ch < 10 → s.host.order.head? ≠ some ch ∨ s.cmdOf ch = none → exec (row.1 ch) s = .next s) ∧
    exec (row.1 (ch + 10)) s = .fault .noSuchMailbox) ∧
  (∀ (s : State) (ch : Nat) (c : Cmd) (r : Reply), s.cmdOf ch = some c →
    let t := s.respond ch r
    let x := t.chan ch
    x.busy = false ∧ x.done = true ∧ x.cmd = none ∧
    x.resp = some { opcode := c.opcode, seq := c.seq, tag := c.tag, result := BitVec.ofNat 16 r.result.code
                    fault := BitVec.ofNat 16 r.fault, sect := r.sect, entry := BitVec.ofNat 32 (r.entry.getD (if (c.opcode = 0x0301 ∨ c.opcode = 0x0302 ∨ c.opcode = 0x0203) ∧ r.result ≠ .ok
                      then 0xFFFFFFFF else 0)), payload := r.payload } ∧
    x.buf = (s.chan ch).buf ∧ x.overrun = (s.chan ch).overrun ∧ (∀ d, d ≠ ch → t.chan d = s.chan d) ∧
    ({ t with host := s.host } : State) = s ∧ t.host.evc = s.host.evc ∧ t.host.order = s.host.order ∧
    (ch < 8 → t.host.mgmt = s.host.mgmt ∧
      let v := (s.chan ch).vector
      let e := s.host.msix.find .init v
      if (s.chan ch).vecEn = false then t.host.msix = s.host.msix ∧ t.host.hostMem = s.host.hostMem
      else if e.masked then t.host.hostMem = s.host.hostMem ∧ (t.host.msix.find .init v).pend = true
      else t.host.hostMem = s.host.hostMem.write e.addr.toNat (leBytes 4 e.data.toNat)) ∧
    (8 ≤ ch → t.host.msix = s.host.msix ∧ t.host.hostMem = s.host.hostMem ∧
      ∃ f, (t.mgmtPort (ch - 8)).tx = (s.mgmtPort (ch - 8)).tx ++ [f] ∧ sub f 0 6 = mgmtMagic ++ [4#8, BitVec.ofNat 8 (ch - 8)] ∧
        fld f 6 2 = (32 + r.payload.length) % 65536))

/-- R41 to R45, R482: a gear change by switch count takes effect at least 5 µs and GEAR_LEAD ns from now, at the switch count it
answers; by region stop every region retunes at once. For an increase the core rails have the new set point first. A gear above the effective cap goes to the cap and sets CLAMPED; a change in
progress answers BUSY. GEAR_POLICY, POWER_POLICY, STEP_HINT and TS_LIMITS write their fields, and TELEMETRY_SNAP copies the counters
(R36, R56, R217, R478, R479). That a GEAR_SET under the brake changes only the gear requested is the model's reading (log entry 61).
Forms completed: gearSet, gearPolicy, powerPolicy, stepHint, tsLimits, telemetrySnap. -/
def Obligations.PaceCommands : Prop :=
  ∀ (s : State) (ch : Nat) (c : Cmd),
    let a := s.accepted ch c
    let b := c.payload
    (s.carries ch 0x0401 c → c.length = 2 → fld b 0 1 ≤ 15 → fld b 1 1 ≤ 1 ∨ fld b 1 1 = 0xFF →
      (s.pace.change.isSome = true → answered (.gearSet ch) s ch a (.of .busy)) ∧
      (s.pace.change = none → s.power.brake = true ∨ s.pace.calValid = false →
        answered (.gearSet ch) s ch { a with power := { a.power with requested := fld b 0 1 } }
          (.ok (leBytes 8 0 ++ leBytes 1 (min (fld b 0 1) s.effCap)))) ∧
      (s.pace.change = none → s.power.brake = false → s.pace.calValid = true →
        let g := min (fld b 0 1) s.effCap
        let p := { a.pace with gearTarget := fld b 0 1, clamped := a.pace.clamped || decide (s.effCap < fld b 0 1)
                               rail := max s.pace.rail g }
        (fld b 1 1 = 0 ∨ (fld b 1 1 = 0xFF ∧ s.pace.gearMode = false) →
          answered (.gearSet ch) s ch { a with
            power := { a.power with requested := fld b 0 1 }
            pace := { p with
              gearAt := s.gsc + max 5000 s.pace.gearLead.toNat
              change := some { target := g, regionStop := false, started := s.gsc } } }
            (.ok (leBytes 8 (s.gsc + max 5000 s.pace.gearLead.toNat) ++ leBytes 1 g))) ∧
        (fld b 1 1 = 1 ∨ (fld b 1 1 = 0xFF ∧ s.pace.gearMode = true) →
          ∃ t, answered (.gearSet ch) s ch t (.ok (leBytes 8 0 ++ leBytes 1 g)) ∧
            (∀ r, r < 80 → t.region r = { s.region r with retuning := true }) ∧ t.power.requested = fld b 0 1 ∧
            t.pace = { p with change := some { target := g, regionStop := true, started := s.gsc } } ∧
            ({ t with regions := a.regions, pace := a.pace, power := a.power } : State) = a))) ∧
    (s.carries ch 0x0402 c → c.length = 4 → fld b 0 1 ≤ 2 → fld b 1 1 ≤ 15 → fld b 2 2 = 0 ∨ (300 ≤ fld b 2 2 ∧ fld b 2 2 ≤ 2100) →
      answered (.gearPolicy ch) s ch
        { a with power := { a.power with policy := fld b 0 1, cap := fld b 1 1, powerCapW := fld b 2 2 } } .ok) ∧
    (s.carries ch 0x0403 c → c.length = 8 → fld b 0 1 ≤ 1 → zeroAt b 1 3 = true →
      answered (.powerPolicy ch) s ch
        { a with power := { a.power with latencyBounded := decide (fld b 0 1 = 1), wakeBoundUs := fld b 4 4 } } .ok) ∧
    (s.carries ch 0x0404 c → c.length = 8 → ∃ t, answered (.stepHint ch) s ch t .ok ∧
      t.power.stepDue = (if fld b 0 8 ≤ s.gsc then 0 else fld b 0 8) ∧
      (s.idle = false → t = { a with power := { a.power with stepDue := if fld b 0 8 ≤ s.gsc then 0 else fld b 0 8 } })) ∧
    (s.carries ch 0x0405 c → c.length = 4 →
      answered (.tsLimits ch) s ch { a with pace := { a.pace with farLimitUs := fld b 0 2, fabLimitMs := fld b 2 2 } } .ok) ∧
    (s.carries ch 0x0406 c → c.length = 0 → ∃ t, answered (.telemetrySnap ch) s ch t (.ok (leBytes 8 s.gsc)) ∧
      t.pace.snapGsc = s.gsc ∧ (∀ r, r < 80 → t.pace.snapTickMin ≤ (s.region r).tickCount ∧ (s.region r).tickCount ≤ t.pace.snapTickMax) ∧
      (∀ k x, (k, x) ∈ s.far.ctrls → (k, { x with snap := x.live }) ∈ t.far.ctrls) ∧ t.far.ssSnap.rd = s.far.ssLive.rd ∧
      t.far.ssSnap.wr = s.far.ssLive.wr ∧ t.far.ssSnap.defer = s.far.ssLive.defer ∧ t.far.mem = s.far.mem ∧
      ({ t with pace := a.pace, far := a.far } : State) = a)

/-- R431, R446, R376, R377, R380, R389, R394, R395, R398, R409: what the commands of the module and of the fabric write and answer:
IDENT answers serial number and MAC addresses; MGMT_CFG, SYNC_CFG and FAB_ADDR_SET write their fields (FAB_ADDR_SET from a management
port only); FENCE sets after it clears, and no unit of this
module but MAINT goes on waiting for a fenced port (R391); LINK_CFG writes the fields that APPLY names on the ports that PORTS names and no other port (stated where no transfer
of this module waits for its first unit, which would be routed anew);
ROUTE_LOAD fills a bank that is not in use, ROUTE_SWITCH sets the switch count of a LOADED bank, and the reads answer the tables.
Forms completed: ident, linkCfg, routeLoad, routeSwitch, routeRead, rankRead, fence, syncCfg, mgmtCfg, fabAddrSet. -/
def Obligations.FabricCommands : Prop :=
  ∀ (s : State) (ch : Nat) (c : Cmd),
    let a := s.accepted ch c
    let b := c.payload
    (s.carries ch 0x0001 c ∨ s.carriesRec ch 0x0001 c → c.length = 0 → answered (.ident ch) s ch a
      (.ok (padTo 16 s.part.serial ++ padTo 8 (s.part.mac0.take 6) ++ padTo 8 (s.part.mac1.take 6) ++ zeros 4))) ∧
    (s.carries ch 0x0601 c → c.length = 4 → s.job.state = .idle ∨ s.job.state = .loaded →
      fld b 0 2 = 0 ∨ (200 ≤ fld b 0 2 ∧ fld b 0 2 ≤ 2000) → 1024 ≤ fld b 2 2 →
      answered (.mgmtCfg ch) s ch { a with host := { a.host with fenceMs := fld b 0 2, udpPort := fld b 2 2 } } .ok) ∧
    (s.carries ch 0x0602 c → c.length = 4 → s.job.state = .idle → fld b 0 4 < 2 ^ 18 →
      (ch < 8 → answered (.fabAddrSet ch) s ch a (.of .auth)) ∧
      (8 ≤ ch → answered (.fabAddrSet ch) s ch { a with fab := { a.fab with addr := fld b 0 4, addrValid := true } } .ok)) ∧
    (s.carries ch 0x0507 c → c.length = 2 →
      answered (.syncCfg ch) s ch { a with fab := { a.fab with beaconUs := fld b 0 2 } } .ok) ∧
    (s.carries ch 0x0506 c → c.length = 4 → ∃ t, answered (.fence ch) s ch t (.ok (leBytes 2 t.fab.fence)) ∧ t.fab.fence < 2 ^ 16 ∧
      (∀ i, i < 16 → bit t.fab.fence i = ((bit s.fab.fence i && !bit (fld b 0 2) i) || bit (fld b 2 2) i)) ∧
      (∀ p, p < 16 → bit t.fab.fence p = true → ∀ x ∈ (t.port p).txq, x.caught = false) ∧
      t.job.state = s.job.state ∧ t.cores = s.cores ∧ t.ss = s.ss ∧ t.far = s.far ∧ t.power = s.power ∧
      (s.fab.owns = [] → (∀ e ∈ s.queues, e.2.kind ≠ .fabricSend) → (∀ p, (s.port p).txq = []) →
        ({ t with ports := a.ports, fab := { t.fab with fence := a.fab.fence } } : State) = a ∧ ∀ p, t.port p = s.port p)) ∧
    (s.carries ch 0x0501 c → c.length = 18 → fld b 2 2 < 256 → fld b 4 1 ≤ 3 → fld b 5 1 ≤ 7 → fld b 6 1 ≤ 1 → fld b 7 1 ≤ 1 →
      s.fab.owns = [] → (∀ e ∈ s.queues, e.2.kind ≠ .fabricSend) →
      (bit (fld b 2 2) 0 = false → bit (fld b 2 2) 3 = false → bit (fld b 2 2) 2 = false ∨ fld b 6 1 = 0 ∨ s.job.state.active = false →
        ∃ t, answered (.linkCfg ch) s ch t .ok ∧
          (∀ p, p < 16 → let x := s.port p
            t.port p = if bit (fld b 0 2) p = true then { x with
              e2eClass := if bit (fld b 2 2) 1 then fld b 5 1 else x.e2eClass
              x8Test := if bit (fld b 2 2) 2 then decide (fld b 6 1 = 1) else x.x8Test
              replayNs := if bit (fld b 2 2) 4 then fld b 8 2 else x.replayNs
              nakNs := if bit (fld b 2 2) 5 then fld b 10 2 else x.nakNs
              e2eNs := if bit (fld b 2 2) 6 then fld b 12 4 else x.e2eNs
              downMs := if bit (fld b 2 2) 7 then fld b 16 2 else x.downMs } else x) ∧
          ({ t with ports := a.ports } : State) = a) ∧
      (bit (fld b 2 2) 0 = true → bit (fld b 2 2) 3 = false → bit (fld b 2 2) 2 = false →
        ∃ t, answered (.linkCfg ch) s ch t .ok ∧
          (∀ p, p < 16 → bit (fld b 0 2) p = true → (t.port p).mode = fld b 4 1 ∧
            (t.port p).state = (if fld b 4 1 = 0 then .off else .training)) ∧
          (∀ p, p < 16 → bit (fld b 0 2) p = false → t.port p = s.port p)) ∧
      (∀ p, p < 16 → fld b 0 2 = 2 ^ p → bit (fld b 2 2) 0 = false → bit (fld b 2 2) 2 = false → bit (fld b 2 2) 3 = true →
        fld b 7 1 = 1 → (s.port p).state = .active → ∃ t, answered (.linkCfg ch) s ch t .ok ∧
          (t.port p).state = .retraining ∧ (t.port p).lastCause = 3 ∧ ∀ q, q ≠ p → t.port q = s.port q) ∧
      (bit (fld b 2 2) 2 = true → fld b 6 1 = 1 → s.job.state.active = true → answered (.linkCfg ch) s ch a (.of .state))) ∧
    (s.carries ch 0x0502 c → c.length ≤ 2068 → fld b 4 2 ≤ 2048 → c.length = 20 + fld b 4 2 → b.length = c.length → zeroAt b 6 2 = true →
      fld b 0 1 ≤ 1 → fld b 1 1 ≤ 1 →
      let k := s.bank (fld b 0 1)
      (k.state = .active ∨ k.state = .draining → answered (.routeLoad ch) s ch a (.of .state)) ∧
      (k.state ≠ .active → k.state ≠ .draining → fld b 2 2 + fld b 4 2 ≤ 4096 → fld b 1 1 = 1 →
        (∀ x ∈ b.drop 8, x.toNat ≤ 15 ∨ x.toNat = 31) →
        ∃ t, answered (.routeLoad ch) s ch t .ok ∧ (t.bank (fld b 0 1)).state = .loaded ∧
          (∀ d, d < 12 → (t.bank (fld b 0 1)).dir.getD d 0 = fld b (8 + d) 1) ∧
          (∀ i, i < fld b 4 2 → (t.bank (fld b 0 1)).pod.find 0x1F (fld b 2 2 + i) = fld b (20 + i) 1) ∧
          t.bank (1 - fld b 0 1) = s.bank (1 - fld b 0 1) ∧ ({ t with fab := { t.fab with banks := a.fab.banks } } : State) = a) ∧
      (fld b 1 1 = 0 → k.state ≠ .active → k.state ≠ .draining → fld b 2 2 + fld b 4 2 ≤ 4096 →
        (∀ x ∈ b.drop 20, x.toNat ≤ 15 ∨ x.toNat = 31) →
        (k.state ≠ .loaded → answered (.routeLoad ch) s ch a (.of .state)) ∧
        (k.state = .loaded → ∃ t, answered (.routeLoad ch) s ch t .ok ∧ (t.bank (fld b 0 1)).dir = k.dir ∧
          (t.bank (fld b 0 1)).state = .loaded ∧
          ∀ i, (t.bank (fld b 0 1)).pod.find 0x1F i =
            (if fld b 2 2 ≤ i ∧ i < fld b 2 2 + fld b 4 2 then fld b (20 + i - fld b 2 2) 1 else k.pod.find 0x1F i)))) ∧
    (s.carries ch 0x0503 c → c.length = 8 →
      ((s.bank (1 - s.fab.active)).state ≠ .loaded ∨ fld b 0 8 < s.gsc + 100000 → answered (.routeSwitch ch) s ch a (.of .state)) ∧
      ((s.bank (1 - s.fab.active)).state = .loaded → s.gsc + 100000 ≤ fld b 0 8 →
        answered (.routeSwitch ch) s ch { a with fab := { a.fab with switchAt := fld b 0 8, switchDue := true } } .ok)) ∧
    (s.carries ch 0x0504 c → c.length = 6 → fld b 0 1 ≤ 1 → zeroAt b 1 1 = true → 1 ≤ fld b 4 2 → fld b 4 2 ≤ 2048 →
      fld b 2 2 + fld b 4 2 ≤ 4096 → ∃ y, answered (.routeRead ch) s ch a (.ok y) ∧ y.length = 20 + fld b 4 2 ∧
        fld y 0 1 = (s.bank (fld b 0 1)).state.code ∧ (∀ d, d < 12 → fld y (8 + d) 1 = (s.bank (fld b 0 1)).dir.getD d 0 % 256) ∧
        ∀ i, i < fld b 4 2 → fld y (20 + i) 1 = (s.bank (fld b 0 1)).pod.find 0x1F (fld b 2 2 + i) % 256) ∧
    (s.carries ch 0x0505 c → c.length = 8 → s.job.state ≠ .idle → 1 ≤ fld b 4 4 → fld b 4 4 ≤ 1016 → fld b 0 4 + fld b 4 4 ≤ 262144 →
      ∃ y, answered (.rankRead ch) s ch a (.ok y) ∧ y.length = 4 * fld b 4 4 ∧
        ∀ i, i < fld b 4 4 → fld y (4 * i) 4 =
          (if s.fab.ranks.has (fld b 0 4 + i) then s.fab.ranks.find 0 (fld b 0 4 + i) + 2 ^ 31 else 0) % 2 ^ 32)

/-! ### Jobs -/

/-- R276, R315, R329, R402, R403, R421, R431: what the commands of a loaded job write and answer. JOB_SERVE takes a configuration that
R276 allows; JOB_ARM takes the manifest and its digest; JOB_LAUNCH and JOB_RESUME fix the launch count and answer it, or in a job of several
modules announce it to every other rank and wait; JOB_PAUSE sets the pause; JOB_UNLOAD gives up the job's claims; JOB_STOP is
JOB_STOPPED (0x0C01).
Forms completed: jobServe, jobArm, jobLaunch, jobPause, jobResume, jobUnload, jobStop. -/
def Obligations.JobCommands : Prop :=
  ∀ (s : State) (ch : Nat) (c : Cmd),
    let a := s.accepted ch c
    let b := c.payload
    (s.carries ch 0x0102 c → c.length = 16 → s.job.state = .loaded → fld b 0 1 ≤ 15 → fld b 1 1 ≤ 15 → fld b 2 1 ≤ 15 ∨ fld b 2 1 = 0xFF →
      zeroAt b 3 1 = true → fld b 4 4 % 64 = 0 → 64 ≤ fld b 4 4 → fld b 4 4 ≤ 16777216 → 1 ≤ fld b 8 4 → fld b 8 4 ≤ 524288 →
      fld b 12 4 = 0 ∨ 100000 ≤ fld b 12 4 →
      let ad := if fld b 2 1 = 0xFF then none else some (fld b 2 1)
      (s.stepCount = 0 → answered (.jobServe ch) s ch a (.of .state)) ∧
      (s.stepCount ≠ 0 → s.serveOk (fld b 0 1) (fld b 1 1) ad = false → answered (.jobServe ch) s ch a (.of .range)) ∧
      (s.stepCount ≠ 0 → s.serveOk (fld b 0 1) (fld b 1 1) ad = true → answered (.jobServe ch) s ch
        { a with srv := { a.srv with cfg := some {
            serve := fld b 0 1, kv := fld b 1 1, adapters := ad, kvPerPos := fld b 4 4, vocab := fld b 8 4
            windowNs := if fld b 12 4 = 0 then 1000000 else fld b 12 4 } } } .ok)) ∧
    (∀ i, s.carries ch 0x0103 c → c.length = 0 → s.job.state = .loaded → s.image = some i →
      i.stepCount = 0 ∨ (s.srv.cfg.isSome = true ∧ s.recs.enable = true) → (∀ k ∈ i.models, (s.rmSlot k).state = .resident) →
      s.fabricReady = true → (if s.host.fenceMs = 0 then s.multi = false else s.heartbeatFresh = true) →
      ∃ t, answered (.jobArm ch) s ch t (.ok (sha384 s.manifest)) ∧ t.job.state = .armed ∧ t.recs.manifest = s.manifest ∧
        t.recs.manifestDigest = sha384 s.manifest ∧
        ({ t with recs := a.recs, job := a.job, host := { t.host with evc := a.host.evc } } : State) = a) ∧
    (let launch := s.carries ch 0x0104 c ∧ s.job.state = .armed
     let resume := s.carries ch 0x0108 c ∧ s.job.state = .paused ∧ s.job.ended = false ∧ (s.srv.cfg = none ∨ s.recs.enable = true)
     let l := s.gsc + if fld b 0 8 = 0 then 1000000 else fld b 0 8
     c.length = 8 → fld b 0 8 = 0 ∨ (100000 ≤ fld b 0 8 ∧ fld b 0 8 ≤ 1000000000) → s.pace.calValid = true →
      ∀ i : Instr, (i = .jobLaunch ch ∧ launch) ∨ (i = .jobResume ch ∧ resume) →
        (s.multi = false → answered i s ch { a with fab := { a.fab with startAt := some l, launchAt := l } } (.ok (leBytes 8 l))) ∧
        (s.multi = true → s.fab.lead = false → answered i s ch { s with host := { s.host with order := s.host.order.drop 1 } } (.of .state)) ∧
        (s.multi = true → s.fab.lead = true → completes i s fun t =>
          t.fab.startAt = some l ∧ t.fab.launchAt = l ∧
          t.fab.launch = some { at_ := l, chan := ch, accepted := [], answered := false } ∧
          (t.cmdOf ch).any (fun d => d.executing) = true ∧
          t.fab.sent = s.fab.sent ++ s.otherRanks.map fun r =>
            (r, .launch l ((s.image.map fun i => i.digest).getD []) s.recs.manifestDigest s.fab.ranksDigest))) ∧
    (s.carries ch 0x0105 c → c.length = 8 → s.job.state = .running → s.srv.cfg.isSome = true → s.job.pausePending = false →
      let t : State := { a with srv := { a.srv with pauseAt := some (fld b 0 8) }, job := { a.job with pausePending := true } }
      (s.srv.boundary = false → answered (.jobPause ch) s ch t .ok) ∧ answeredAll (.jobPause ch) s ch t.runBoundary .ok) ∧
    (s.carries ch 0x0109 c → c.length = 0 →
      s.job.state = .loaded ∨ s.job.state = .armed ∨ s.job.state = .paused ∨ s.job.state = .faulted ∨
        (s.job.state = .fenced ∧ ((s.mgmtPort 0).hbValid = true ∨ (s.mgmtPort 1).hbValid = true)) → s.image.isSome = true →
      ∃ t, answered (.jobUnload ch) s ch t .ok ∧ t.job.state = .idle ∧ t.job.fault = 0#16 ∧ t.job.ended = false ∧ t.image = none ∧
        t.queues = [] ∧ t.far.regions = [] ∧ t.stop = none ∧ t.srv.cfg = none ∧ t.srv.reqs = [] ∧ t.fab.ranks = [] ∧
        t.fab.fenceSelf = false ∧ t.far.mem = s.far.mem ∧ t.ss = s.ss ∧ t.cores = s.cores ∧ t.srv.rq = s.srv.rq ∧ t.power = s.power ∧
        t.sec = s.sec ∧ t.ports = s.ports) ∧
    (s.carries ch 0x010A c → c.length = 0 → s.job.state.active = true → s.job.fault = 0#16 →
      ∃ t, answered (.jobStop ch) s ch t .ok ∧ t.job.fault = 0x0C01#16 ∧ t.job.faultGsc = s.gsc ∧ t.stop.isSome = true ∧
        t.job.state = s.job.state ∧ t.cores = s.cores ∧ t.ss = s.ss ∧ t.far = s.far ∧ t.queues = s.queues)

/-- R238, R239, R335, R336, R380, R431: JOB_LOAD checks the rank table and the image; the first check that fails is answered with its
result, fault, SECTION and ENTRY and nothing is loaded; an image that passes is answered with its digest, the job is LOADED, its image,
queues, far regions and instruction stores are those the image gives. JOB_SAVE writes the save image to the scatter list, or answers
NO_SPACE with the size it needs; JOB_RESTORE answers the first condition that fails, or restores and the job is PAUSED.
Forms completed: jobLoad, jobSave, jobRestore. -/
def Obligations.JobImages : Prop :=
  ∀ (s : State) (ch : Nat) (c : Cmd) (v : HostView),
    let a := s.accepted ch c
    let p := c.payload
    (s.carries ch 0x0101 c → 32 ≤ c.length → c.length ≤ 1056 → c.length % 16 = 0 → (jobLoad v).fields p = true →
      s.job.state = .idle → s.pace.calValid = true → s.far.degraded = false → s.fab.addrValid = true → s.loadAllowed = true →
      v.read (fld p 16 8) 0x100000 = none → answered (.jobLoad ch v) s ch (a.event 0x0C05) (.bad .state 0x0C05)) ∧
    (∀ rt, s.carries ch 0x0101 c → 32 ≤ c.length → c.length ≤ 1056 → c.length % 16 = 0 → (jobLoad v).fields p = true →
      s.job.state = .idle → s.pace.calValid = true → s.far.degraded = false → s.fab.addrValid = true → s.loadAllowed = true →
      v.read (fld p 16 8) 0x100000 = some rt →
      (∀ e, rankBad rt (fld p 12 4) s.fab.addr = some e →
        answered (.jobLoad ch v) s ch a { result := .range, sect := 0xFE, entry := some e }) ∧
      (∀ b, rankBad rt (fld p 12 4) s.fab.addr = none → (v.scatter (fld p 0 8) (fld p 8 4)).bind v.gather = some b →
        let ranks := ranksOf rt (fld p 12 4)
        let env : LoadEnv := { grade := s.grade, gridW := s.gridW, modules := fld p 12 4, rank := rankAt ranks s.fab.addr
                               given := (List.range (fld p 28 2)).map fun i => (fld p (32 + 16 * i) 2, sgn 64 (fld p (40 + 16 * i) 8)) }
        (∀ f, a.checkImage b env = .inr f →
          answered (.jobLoad ch v) s ch a { result := f.result, fault := f.code, sect := f.sect, entry := some f.entry }) ∧
        (∀ regions, a.checkImage b env = .inl regions →
          let lead := if fld p 24 4 = 0xFFFFFFFF then lowestRank ranks else fld p 24 4
          ∃ t, answered (.jobLoad ch v) s ch t (.ok (imgDigest b)) ∧ t.job.state = .loaded ∧ t.image = some (imageOf b env lead) ∧
            t.queues = queuesOf b s.grade ∧ t.far.regions = regionTable regions ∧ t.fab.rank = env.rank ∧ t.fab.leadRank = lead ∧
            t.fab.ranks = ranks ∧ t.srv.reqs = [] ∧ t.srv.cfg = none ∧ t.srv.rq = s.srv.rq ∧ t.power = s.power ∧ t.sec = s.sec ∧
            t.ports = s.ports ∧ t.regions = s.regions ∧ t.gsc = s.gsc))) ∧
    (∀ l, s.carries ch 0x0106 c → c.length = 12 → sgFields v p = true → s.job.state = .paused → v.scatter (fld p 0 8) (fld p 8 4) = some l →
      let x := (a.putRecords.saveTraffic false).saveImage
      (scatterLen l < x.1.length → ∃ t, answered (.jobSave ch v) s ch t { result := .noSpace, payload := leBytes 8 x.1.length } ∧
        t.host = a.host ∧ t.cores = s.cores ∧ t.job = s.job) ∧
      (x.1.length ≤ scatterLen l → ∃ t, answered (.jobSave ch v) s ch t (.ok (leBytes 8 x.1.length)) ∧
        t.host.hostMem = (a.scatterWrite l x.1).host.hostMem ∧ t.cores = s.cores ∧ t.ss = s.ss ∧ t.job = s.job ∧ t.srv = s.srv ∧
        t.recs = s.recs)) ∧
    (∀ all, s.carries ch 0x0107 c → c.length = 12 → sgFields v p = true → s.job.state = .loaded →
      (v.scatter (fld p 0 8) (fld p 8 4)).bind v.gather = some all →
      let b := all.take (fld all 8 8)
      (∀ r, a.restoreCheck b = some r → answered (.jobRestore ch v) s ch a (.of r)) ∧
      (a.restoreCheck b = none → ∃ t, answered (.jobRestore ch v) s ch t .ok ∧ t.job.state = .paused ∧
        t.recs.savedTick = fld b 16 8 ∧ t.flights = [] ∧ t.ssLines = [] ∧ t.ssLost = [] ∧ (∀ r, r < 80 → (t.region r).tickCount = fld b 16 8) ∧ t.gsc = s.gsc ∧ t.power = s.power ∧
        t.sec = s.sec ∧ t.ports = s.ports))

/-- R29, R49, R94, R103, R334, R405, R410, R421, R422, R488: at the launch count an ARMED job becomes RUNNING, every region having
issued the first tick of the launch, tick 0; a PAUSED one goes on with the tick after its save tick. The save tick and the end of a job
settle every region at its last tick. The stop of a job-fatal fault fences every port, voids what is not signed, ends every command under way with STATE and leaves the job FAULTED,
or FENCED after SELF_FENCE.
Forms completed: saveTick, jobEnd, launchCount, jobFatalStop. -/
def Obligations.JobTimes : Prop :=
  ∀ (s : State) (i : Image), s.image = some i → s.power.mode = .run →
    (∀ at_, s.fab.startAt = some at_ → s.stop = none → s.launchPending = false → s.srv.cfg = none →
      (s.job.state = .armed → completes .launchCount s fun t =>
        t.job.state = .running ∧ t.gsc = max s.gsc at_ ∧ (∀ r, r < 80 → (t.region r).issued = 1 ∧ (t.region r).tickCount = 0) ∧
        t.fab.startAt = none ∧ t.recs.launchGsc = at_ ∧ t.recs.next = 0 ∧
        ∀ k, s.hasCore k = true → (t.core k).code = (s.core k).code) ∧
      (s.job.state = .paused → s.job.ended = false → completes .launchCount s fun t =>
        t.job.state = .running ∧ t.gsc = max s.gsc at_ ∧ t.fab.startAt = none ∧
        ∀ r, r < 80 → (t.region r).issued = 1 ∧ (t.region r).tickCount = s.recs.savedTick + 1)) ∧
    (s.fab.startAt = none ∨ (s.job.state ≠ .armed ∧ s.job.state ≠ .paused) ∨ s.launchPending = true → exec .launchCount s = .next s) ∧
    (s.job.state = .running → s.stop = none → s.srv.paused = true → s.srv.halted = false → s.quiet = true → s.queuesDone = true →
      completes .saveTick s fun t =>
        t.recs.savedTick = s.lastBusy ∧ (∀ r, r < 80 → (t.region r).tickCount = s.lastBusy) ∧ t.ss = s.ss ∧ (s.cas.loads = [] → t.far.mem = s.far.mem) ∧
        (s.recs.staged = [] → s.recs.opened = none → t.job.state = .paused ∧ t.job.pausePending = false) ∧
        (s.recs.staged ≠ [] ∨ s.recs.opened.isSome = true → t.job = s.job ∧ t.srv.halted = true)) ∧
    (s.job.state = .running → s.stop = none → s.srv.paused = false → s.quiet = true → s.queuesDone = true →
      completes .jobEnd s fun t =>
        t.job.state = .paused ∧ t.job.ended = true ∧ t.job.pausePending = false ∧ t.recs.savedTick = s.lastBusy ∧
        (∀ r, r < 80 → (t.region r).tickCount = s.lastBusy) ∧ t.srv.boundary = false ∧ t.ss = s.ss ∧
        (s.cas.loads = [] → t.far.mem = s.far.mem)) ∧
    (∀ x, s.stop = some x → s.job.state.active = true → completes .jobFatalStop s fun t =>
      t.job.state = (if x.selfFence then .fenced else .faulted) ∧ t.job.fault = s.job.fault ∧ t.fab.fence = 0xFFFF ∧
      t.fab.fenceSelf = true ∧ t.fab.startAt = none ∧ t.fab.launch = none ∧ t.recs.opened = none ∧ t.recs.staged = [] ∧
      t.srv.boundary = false ∧ t.cores = s.cores ∧ t.ss = s.ss ∧ (s.cas.loads = [] → t.far.mem = s.far.mem) ∧
      (∀ d, d < 10 → (t.cmdOf d).any (fun c => c.executing) = false)) ∧
    (s.stop = none → exec .jobFatalStop s = .next s)

/-- R284, R294 to R297, R330, R331, R431, R534: the commands of the customers and of the adapters of a job with a step menu. A change
waits for the boundary of a RUNNING job and takes effect at once otherwise. ADAPTER_INSTALL makes room, writes the copy and waits for its
read-back; ADAPTER_LOAD_DONE answers version and resident digest, or the failure 0x0807. AUDIT_REPLAY answers the first check that fails;
an audit that passes them all enters the request table.
Forms completed: auditReplay, customerSet, customerRead, adapterInstall, adapterLoadDone, adapterRetire. -/
def Obligations.CustomersAndAdapters : Prop :=
  ∀ (s : State) (ch : Nat) (c : Cmd),
    let a := s.accepted ch c
    let b := c.payload
    let serving := s.job.state = .loaded ∨ s.job.state = .armed ∨ s.job.state = .paused
    (s.carries ch 0x0201 c → c.length = 20 → fld b 0 2 < 4096 → fld b 2 1 ≤ 1 → zeroAt b 3 1 = true → s.stepCount ≠ 0 →
      (serving → ∃ t, answered (.customerSet ch) s ch t .ok ∧
        (∃ x, t.srv.customers.find .init (fld b 0 2) = x ∧ x.enabled = decide (fld b 2 1 = 1) ∧ x.refill = fld b 4 4 ∧ x.burst = fld b 8 4 ∧
          x.maxWaitUs = fld b 12 4 ∧ x.overdraft = fld b 16 4 ∧
          x.balance = (let o := s.srv.customers.find .init (fld b 0 2)
            if fld b 2 1 = 1 ∧ o.enabled = false then (fld b 8 4 : Int) else if fld b 8 4 < o.burst then min o.balance (fld b 8 4) else o.balance)) ∧
        (∀ k, k ≠ fld b 0 2 → t.srv.customers.find .init k = s.srv.customers.find .init k) ∧
        ({ t with srv := { t.srv with customers := a.srv.customers } } : State) = a) ∧
      (s.job.state = .running → s.srv.boundary = false → answered (.customerSet ch) s ch { a with srv := { a.srv with
        changes := a.srv.changes ++
          [.customer (fld b 0 2) (decide (fld b 2 1 = 1)) (fld b 4 4) (fld b 8 4) (fld b 12 4) (fld b 16 4)] } } .ok)) ∧
    (s.carries ch 0x0202 c → c.length = 2 → fld b 0 2 < 4096 → s.stepCount ≠ 0 → serving ∨ s.job.state = .running →
      answered (.customerRead ch) s ch a (.ok (s.srv.customers.find .init (fld b 0 2)).bytes)) ∧
    (s.carries ch 0x0204 c → c.length = 2 → fld b 0 2 < 16384 → s.stepCount ≠ 0 → s.srv.cfg.isSome = true →
      (serving → ∃ t, answered (.adapterRetire ch) s ch t .ok ∧ (t.adapter (fld b 0 2)).retired = true ∧
        (∀ v ∈ (t.adapter (fld b 0 2)).versions, v.state ≠ .current) ∧
        (∀ e ∈ t.srv.reqs, e.2.state = .waiting → e.2.par.adapter ≠ fld b 0 2) ∧ t.job = s.job ∧ t.cores = s.cores ∧ t.far = s.far) ∧
      (s.job.state = .running → s.srv.boundary = false →
        answered (.adapterRetire ch) s ch { a with srv := { a.srv with changes := a.srv.changes ++ [.retire (fld b 0 2)] } } .ok)) ∧
    (∀ (v v2 : HostView) (region : Nat) (l : List (Nat × Nat)) (m : Manifest) (bs : Map Bytes) (copy : Bytes) (base : Nat),
      s.carries ch 0x0203 c → c.length = 68 → (adapterInstall v v2).fields b = true → serving ∨ s.job.state = .running →
      s.srv.cfg.isSome = true → s.serveCfg.adapters = some region → (s.adapter (fld b 0 2)).versions.length < 4 →
      v.scatter (fld b 8 8) (fld b 4 4) = some l → a.readManifest v l (sub b 16 48) id = .ok m →
      readBlocks m v v2 l m.blocks 0 m.bytes.length [] = .inl bs →
      residentCopy m ((List.range m.blocks).flatMap fun i => bs.find [] i) s.coreCount = .inl copy →
      lowestFit s.adapterUsed 0 (s.regionBytes region) m.resSize = some base →
      completes (.adapterInstall ch v v2) s fun t => (t.cmdOf ch).any (fun d => d.executing) = true ∧
        let x := s.adapter (fld b 0 2)
        let n := if x.installed then (x.last + 1) % 65536 else 1
        (t.adapter (fld b 0 2)).last = n ∧
        (∃ v ∈ (t.adapter (fld b 0 2)).versions, v.num = n ∧ v.state = .loading ∧ v.rank = fld b 2 2 ∧ v.base = base ∧ v.size = m.resSize ∧
          v.digest = sub b 16 48) ∧
        t.far.mem = (a.farPut region base copy).far.mem ∧ (t.adapterLoad (fld b 0 2) n).isSome = true ∧ t.job = s.job ∧ t.cores = s.cores) ∧
    (∀ (slot ver region : Nat) (l : CasLoad), s.adapterLoad slot ver = some l → s.serveCfg.adapters = some region →
      (completes (.adapterLoadDone slot ver false) s fun t => t.cas.faultCode = 0x0807#16 ∧ t.cas.faultValid = true ∧
        (∀ v ∈ (t.adapter slot).versions, v.num ≠ ver) ∧ t.far = s.far ∧ t.job = s.job ∧
        ∀ d r, l.chan = some d → (s.cmdOf d).isSome = true → (t.chan d).resp = some r → r.result = 3#16 ∧ r.fault = 0x0807#16) ∧
      (∀ x, ((s.adapter slot).versions.find? fun v => v.num = ver) = some x → x.state = .loading → s.job.state ≠ .running →
        completes (.adapterLoadDone slot ver true) s fun t =>
        (∃ v ∈ (t.adapter slot).versions, v.num = ver ∧ v.state = .current ∧ (t.adapter slot).retired = false ∧
          v.resDigest = residentDigest (s.farGet region x.base x.size)) ∧
        t.job = s.job ∧ t.cores = s.cores ∧ t.far.mem = s.far.mem)) ∧
    (∀ v : HostView, s.carries ch 0x010B c → 672 ≤ c.length → c.length ≤ 1184 → (auditReplay v).fields b = true → s.job.state = .running →
      s.srv.cfg.isSome = true →
      let r := b.take 512
      let m := b.drop 544
      let j := s.recs.manifest
      (auditForm r m = false → answered (.auditReplay ch v) s ch a (.of .range)) ∧
      (auditForm r m = true → sha384 m ≠ sub r 176 48 → answered (.auditReplay ch v) s ch a (.of .digest)) ∧
      (∀ i model pb, auditForm r m = true → sha384 m = sub r 176 48 → s.image = some i → sub r 128 48 = i.digest →
        sub m 8 2 = sub j 8 2 → sub m 16 6 = sub j 16 6 → m.drop 128 = j.drop 128 → bit (fld j 9 1) 0 = true ∨ sub m 10 6 = sub j 10 6 →
        s.auditModel r m = some model → s.auditAdapter r (fld b 536 2) = true → v.read (fld b 512 8) (4 * fld r 40 4) = some pb →
        sha384 pb = sub r 416 48 →
        ((∃ e ∈ s.srv.reqs, e.2.audit.isSome = true) → answered (.auditReplay ch v) s ch a (.of .busy)) ∧
        ((∀ e ∈ s.srv.reqs, e.2.audit = none) → s.srv.boundary = false → ∃ t, answered (.auditReplay ch v) s ch t .ok ∧
          t.job = s.job ∧ t.cores = s.cores ∧
          let p := auditPar r model (fld b 536 2) (fld b 528 8) (fld b 538 1) (fld b 512 8)
          (p.ok s.serveCfg.vocab = true → p.promptLen + p.maxNew ≤ s.maxPos + 1 → lowestFree s.srv.reqs 0 < 65536 →
            (s.tokFit (p.extent s.serveCfg.vocab)).isSome = true →
            (∃ q, t.req (lowestFree s.srv.reqs 0) = some q ∧ q.par = p ∧ q.audit.isSome = true)))))

/-! ### Cassettes -/

/-- R257 to R262, R269, R270, R431: CAS_LOAD answers a model that is resident at once, refuses one that is loading, and otherwise takes the
lowest EMPTY slot: the first failure of R270, or of a DMA read, is answered and empties the slot again; without one the copy is written and
waits for its read-back; with no slot EMPTY while a serving job runs it waits for the boundary. CAS_BCAST takes a slot and waits for its
parents; CAS_CHILD, CAS_PARENT and CAS_RELEASE change the range they name, or answer RANGE; CAS_ABORT ends a load with 0x080A;
CAS_UNLOAD empties a RESIDENT slot that nothing pins. That loads take the lowest EMPTY slot is the model's choice (log entry 72).
Forms completed: casLoad, casBcast, casChild, casParent, casRelease, casAbort, casUnload. -/
def Obligations.CassetteCommands : Prop :=
  ∀ (s : State) (ch : Nat) (c : Cmd) (v v2 : HostView),
    let a := s.accepted ch c
    let b := c.payload
    let digest := b.take 48
    let onlyCas (t : State) : Prop :=
      ({ t with cas := a.cas, free := a.free, ports := a.ports, fab := a.fab
                far := { t.far with ctrls := a.far.ctrls, chans := a.far.chans } } : State) = a ∧
      ({ t.fab with owns := a.fab.owns, nextTid := a.fab.nextTid } : Fabric) = a.fab
    let executing (t : State) : Prop := (t.cmdOf ch).any (fun d => d.executing) = true
    let emptied (t : State) (i : Nat) : Prop := t.loadOf digest = none ∧ (t.rmSlot i).state = .empty ∧ ∀ k, k ≠ i → t.rmSlot k = s.rmSlot k
    let lacks (l : CasLoad) : Prop := l.phase = .receiving → l.host = [] ∧ ∀ m, l.manifest = some m → l.body m = none
    (s.carries ch 0x0301 c → c.length = 64 → (casLoad v v2).fields b = true →
      (∀ r, s.casKnown digest = some r → answered (.casLoad ch v v2) s ch a r) ∧
      (∀ i, s.casKnown digest = none → s.casNow = true → s.freeSlot = some i → v.scatter (fld b 48 8) (fld b 56 4) = none →
        ∃ t, answered (.casLoad ch v v2) s ch t { result := .state, fault := 0x0C05, entry := some casNone } ∧ emptied t i ∧
          t.cas.faultValid = s.cas.faultValid) ∧
      (∀ l i, s.casKnown digest = none → s.freeSlot = some i → v.scatter (fld b 48 8) (fld b 56 4) = some l →
        (∀ f, s.casNow = true → a.readManifest v l digest id = .bad f →
          ∃ t, answered (.casLoad ch v v2) s ch t { result := casResultOf f.code, fault := f.code, entry := some f.index } ∧ onlyCas t ∧
            emptied t i ∧ t.cas.faultCode = BitVec.ofNat 16 f.code ∧ t.cas.faultIndex = BitVec.ofNat 32 f.index ∧ t.cas.faultSlot = i) ∧
        (∀ m n, s.casNow = true → a.readManifest v l digest id = .ok m →
          readBlocks m v v2 l m.blocks 0 m.bytes.length [] = .inr (some n) →
          ∃ t, answered (.casLoad ch v v2) s ch t { result := .digest, fault := 0x0804, entry := some n } ∧ onlyCas t ∧ emptied t i ∧
            t.cas.faultCode = 0x0804#16 ∧ t.cas.faultIndex = BitVec.ofNat 32 n ∧ t.cas.faultSlot = i) ∧
        (∀ m bs copy base, a.readManifest v l digest id = .ok m → readBlocks m v v2 l m.blocks 0 m.bytes.length [] = .inl bs →
          residentCopy m ((List.range m.blocks).flatMap fun k => bs.find [] k) s.coreCount = .inl copy →
          lowestFit (a.setRmSlot i { RmSlot.init with state := .loading, digest := digest }).usedBlocks 0 s.chanBlocks
            (copyRegion 0 m.resSize).blocks = some base →
          completes (.casLoad ch v v2) s fun t => executing t ∧ (t.rmSlot i).state = .loading ∧ (t.rmSlot i).digest = digest ∧
            (t.rmSlot i).base = base ∧ (∃ x, t.loadOf digest = some x ∧ x.phase = .written ∧ x.slot = i ∧ x.chan = some ch) ∧
            t.far.mem = (a.farPutAt (copyRegion base m.resSize) 0 copy).far.mem ∧ t.job = s.job ∧ t.cores = s.cores)) ∧
      (s.casKnown digest = none → s.casNow = false → s.freeSlot = none → completes (.casLoad ch v v2) s fun t => executing t ∧ onlyCas t ∧
        t.cas.slots = s.cas.slots ∧ ∃ x ∈ t.cas.loads, x.digest = digest ∧ x.phase = .needSlot ∧ x.chan = some ch)) ∧
    (s.carries ch 0x0302 c → 80 ≤ c.length → c.length ≤ 1592 → (casBcast v v2).fields b = true →
      let n := fld b 48 2
      let l : CasLoad := { a.newLoad digest ch with ranges := (List.range n).map fun i => bcastRange b (56 + 24 * i) s.gsc }
      (∀ r, s.casKnown digest = some r → answered (.casBcast ch v v2) s ch a r) ∧
      (∀ i r code ix, s.casKnown digest = none → s.casNow = true → s.freeSlot = some i →
        (a.readRoots v v2 b (List.range n) l).failed = some (r, code, ix) →
        ∃ t, answered (.casBcast ch v v2) s ch t { result := Result.ofCode r, fault := code, entry := some ix } ∧ emptied t i ∧
          (code / 256 = 8 → t.cas.faultCode = BitVec.ofNat 16 code ∧ t.cas.faultIndex = BitVec.ofNat 32 ix)) ∧
      (s.casKnown digest = none → exec (.casBcast ch v v2) s =
        .next (State.answerUnknown 10 ((a.admitLoad (a.readRoots v v2 b (List.range n) l)).pumpDigest digest))) ∧
      (∀ i, s.casKnown digest = none → (∀ k, k < n → fld b (56 + 24 * k + 8) 1 ≠ 0x10) → (l.ranges.map fun r => r.first).Nodup →
        s.freeSlot = some i → completes (.casBcast ch v v2) s fun t => executing t ∧ onlyCas t ∧ (t.rmSlot i).state = .loading ∧
          ∃ x, t.loadOf digest = some x ∧ x.phase = .receiving ∧ x.slot = i ∧ x.chan = some ch ∧
            x.ranges.map (fun r => (r.first, r.last, r.parent)) = l.ranges.map fun r => (r.first, r.last, r.parent))) ∧
    (∀ i, (i = .casChild ch ∧ s.carries ch 0x0303 c ∧ c.length = 60 ∧ fld b 52 1 ≤ 15 ∧ zeroAt b 53 3 = true) ∨
        (i = .casParent ch ∧ s.carries ch 0x0304 c ∧ c.length = 53 ∧ fld b 52 1 ≤ 15) ∨
        (i = .casRelease ch ∧ s.carries ch 0x0305 c ∧ c.length = 52) →
      (s.rangeAt digest (fld b 48 4) = none → answered i s ch a (.of .range)) ∧
      (completes i s fun t => t.job = s.job ∧ t.cores = s.cores ∧ t.ss = s.ss ∧ t.sec = s.sec ∧ t.gsc = s.gsc) ∧
      (∀ l r, s.rangeAt digest (fld b 48 4) = some (l, r) →
        (i = .casChild ch → l.holds r (fld b 56 4) = false → answered i s ch a (.of .range)) ∧
        (i = .casChild ch → l.holds r (fld b 56 4) = true → lacks l → ∃ t, answered i s ch t .ok ∧ onlyCas t ∧
          ∃ x r', t.rangeAt digest (fld b 48 4) = some (x, r') ∧
            ∃ k ∈ r'.children, k.port = fld b 52 1 ∧ k.start = fld b 56 4 ∧ k.acked = fld b 56 4) ∧
        (i = .casParent ch → ∃ t, answered i s ch t .ok ∧ onlyCas t ∧ t.cas.slots = s.cas.slots ∧
          ∃ x, t.rangeAt digest (fld b 48 4) = some (x, { r with parent := some (fld b 52 1), parentLost := false, lastRx := s.gsc })) ∧
        (i = .casRelease ch → lacks l → ∃ t, answered i s ch t .ok ∧ onlyCas t ∧ t.cas.slots = s.cas.slots ∧
          (∀ x r', t.rangeAt digest (fld b 48 4) = some (x, r') → r'.retain = none) ∧
          (l.phase ≠ .sharing → (t.rangeAt digest (fld b 48 4)).isSome = true)))) ∧
    (s.carries ch 0x0306 c → c.length = 48 →
      (s.loadOf b = none ∨ (∃ l, s.loadOf b = some l ∧ l.phase = .sharing) → answered (.casAbort ch) s ch a (.of .range)) ∧
      (∀ l, s.loadOf b = some l → l.phase ≠ .sharing → let t := a.failLoad l .state 0x080A casNone
        answeredAll (.casAbort ch) s ch t .ok ∧ t.cas.faultCode = 0x080A#16 ∧ t.cas.faultValid = true ∧
        (s.casNow = true → t.loadOf b = none ∧ (t.rmSlot l.slot).state = .empty) ∧
        (s.casNow = false → ∃ x, t.loadOf b = some x ∧ x.phase = .failed))) ∧
    (s.carries ch 0x0307 c → c.length = 1 → let x := s.rmSlot (fld b 0 1)
      (x.state ≠ .resident ∨ x.pinned = true → answered (.casUnload ch) s ch a (.of .state)) ∧
      (x.state = .resident → x.pinned = false → s.casNow = true → ∃ t, answered (.casUnload ch) s ch t .ok ∧ onlyCas t ∧
        t.rmSlot (fld b 0 1) = .init ∧ ∀ k, k ≠ fld b 0 1 → t.rmSlot k = s.rmSlot k) ∧
      (x.state = .resident → x.pinned = false → s.casNow = false → completes (.casUnload ch) s fun t => executing t ∧ onlyCas t ∧
        t.cas.unloads = s.cas.unloads ++ [(fld b 0 1, ch)] ∧ t.cas.slots = s.cas.slots))

/-- R255, R257, R263 to R268, R270: what the messages and the timers of a broadcast do to its load. A manifest that passes is kept, and its
copy placed; a verified block is kept, and the last one has the copy written; a block that fails its digest is asked for again, and the
third failure ends the load with 0x0804; one that is held already only shows that the parent sends. A child or a parent whose messages
stall for 100 ms, or whose link is down, is lost (0x0808, 0x0809), and blocks are retained for a lost child for 10 s. A read-back without
error makes the slot RESIDENT.
Forms completed: cassetteManifest, cassetteBlock, cassetteAck, cassetteAckRepeat, childBcastTimeout, parentBcastTimeout, retainExpiry,
residentReadback. -/
def Obligations.CassetteEvents : Prop :=
  ∀ (s : State) (digest : Bytes),
    let onlyCas (t : State) : Prop :=
      ({ t with cas := s.cas, free := s.free, ports := s.ports, fab := s.fab
                far := { t.far with ctrls := s.far.ctrls, chans := s.far.chans } } : State) = s ∧
      ({ t.fab with owns := s.fab.owns, nextTid := s.fab.nextTid } : Fabric) = s.fab
    let lacks (l : CasLoad) : Prop := l.phase = .receiving → l.host = [] ∧ ∀ m, l.manifest = some m → l.body m = none
    let failed (t : State) (l : CasLoad) (code : W16) (ix : Nat) : Prop :=
      t.cas.faultCode = code ∧ t.cas.faultIndex = BitVec.ofNat 32 ix ∧ t.cas.faultValid = true ∧ t.job = s.job ∧ t.far = s.far ∧
        (s.casNow = true → t.loadOf digest = none ∧ (t.rmSlot l.slot).state = .empty) ∧
        (s.casNow = false → ∃ y, t.loadOf digest = some y ∧ y.phase = .failed)
    (∀ (p first : Nat) (x : Bytes) (l : CasLoad) (r : CasRange), s.rangeAt digest first = some (l, r) → r.parent = some p →
      l.phase ≠ .failed → l.manifest = none →
      (x.length < 256 → completes (.cassetteManifest p digest first x) s fun t => failed t l 0x0801#16 casNone) ∧
      (∀ f, 256 ≤ x.length → checkManifest x digest l.sigDemanded l.keys = .inr f → completes (.cassetteManifest p digest first x) s
        fun t => failed t l (BitVec.ofNat 16 f.code) f.index) ∧
      (∀ m, 256 ≤ x.length → checkManifest x digest l.sigDemanded l.keys = .inl m →
        (l.phase = .needSlot → completes (.cassetteManifest p digest first x) s
          fun t => onlyCas t ∧ t.cas.slots = s.cas.slots ∧ ∃ y, t.loadOf digest = some y ∧ y.manifest = some m) ∧
        (∀ base, l.phase = .receiving → l.host = [] → (∃ k, k < m.blocks ∧ l.blocks.has k = false) →
          lowestFit s.usedBlocks 0 s.chanBlocks (copyRegion 0 m.resSize).blocks = some base →
          completes (.cassetteManifest p digest first x) s fun t => onlyCas t ∧ (t.rmSlot l.slot).placed = true ∧
            (t.rmSlot l.slot).base = base ∧ ∃ y, t.loadOf digest = some y ∧ y.manifest = some m ∧ y.phase = .receiving))) ∧
    (∀ (p n : Nat) (x : Bytes) (l : CasLoad) (m : Manifest) (r : CasRange), s.loadOf digest = some l → l.manifest = some m →
      (l.ranges.find? fun r => r.first ≤ n && n ≤ r.last && r.parent = some p) = some r → l.phase = .receiving ∨ l.phase = .needSlot →
      (l.blocks.has n = true ∨ r.takes n = false → completes (.cassetteBlock p digest n x) s fun t => onlyCas t ∧ t.cas.sent = s.cas.sent ∧
        ∃ y, t.loadOf digest = some y ∧ y.blocks = l.blocks ∧ ∃ r' ∈ y.ranges, r'.first = r.first ∧ r'.lastRx = s.gsc) ∧
      (r.takes n = true → l.blocks.has n = false →
        (sha384 x = m.digests.getD n [] → x.length = m.blockLen n → l.host = [] → (∃ k, k < m.blocks ∧ k ≠ n ∧ l.blocks.has k = false) →
          completes (.cassetteBlock p digest n x) s fun t => onlyCas t ∧ ∃ y, t.loadOf digest = some y ∧ y.phase = l.phase ∧
            y.blocks.has n = true ∧ y.blocks.find [] n = x ∧ ∀ k, k ≠ n → y.blocks.has k = l.blocks.has k) ∧
        (∀ copy, sha384 x = m.digests.getD n [] → x.length = m.blockLen n → l.host = [] → l.phase = .receiving →
          (∀ k, k < m.blocks → k ≠ n → l.blocks.has k = true) →
          residentCopy m ((List.range m.blocks).flatMap fun k => if k = n then x else l.blocks.find [] k) s.coreCount = .inl copy →
          completes (.cassetteBlock p digest n x) s fun t => (∃ y, t.loadOf digest = some y ∧ y.phase = .written) ∧
            t.far.mem = (s.farPutAt (copyRegion (s.rmSlot l.slot).base m.resSize) 0 copy).far.mem ∧ t.job = s.job ∧ t.cores = s.cores) ∧
        (sha384 x ≠ m.digests.getD n [] → l.bad.find 0 n < 2 → completes (.cassetteBlock p digest n x) s fun t => onlyCas t ∧
          t.cas.sent = s.cas.sent ++ [(p, .again digest n)] ∧ ∃ y, t.loadOf digest = some y ∧ y.blocks = l.blocks) ∧
        (sha384 x ≠ m.digests.getD n [] → 2 ≤ l.bad.find 0 n → completes (.cassetteBlock p digest n x) s fun t => failed t l 0x0804#16 n))) ∧
    (∀ (first : Nat) (l : CasLoad) (r : CasRange), s.rangeAt digest first = some (l, r) →
      (∀ p next, lacks l → l.phase ≠ .sharing → completes (.cassetteAck p digest first next) s fun t => onlyCas t ∧
        t.cas.slots = s.cas.slots ∧ ∃ y r', t.rangeAt digest first = some (y, r') ∧ r.ackNext ≤ r'.ackNext ∧
          ∀ k ∈ r.children, ∃ k' ∈ r'.children, k'.port = k.port ∧
            k'.acked = (if k.port = p ∧ k.acked < next then min next (r.last + 1) else k.acked)) ∧
      (∀ p, r.parent = some p → r.ackNext ≤ r.last → l.phase ≠ .failed →
        (r.parentLost = false → completes (.cassetteAckRepeat digest first) s fun t => t.gsc = max s.gsc (r.lastAck + 10000000) ∧
          t.cas.sent = s.cas.sent ++ (if r.ackNext ≤ r.first then [] else [(p, .ack digest first r.ackNext)]) ∧
          t.cas.slots = s.cas.slots ∧ t.job = s.job) ∧
        (r.parentLost = false → completes (.parentBcastTimeout digest first) s fun t =>
          ((s.port p).state = .active → t.gsc = max s.gsc (r.lastRx + 100000000)) ∧ t.cas.faultCode = 0x0809#16 ∧ t.job = s.job ∧
          ∃ y, t.rangeAt digest first = some (y, { r with parentLost := true }))) ∧
      (∀ p k, (r.children.find? fun c => c.port = p) = some k →
        (k.acked < k.next ∨ s.linkDown p = true → completes (.childBcastTimeout digest first p) s fun t =>
          ((s.port p).state = .active → t.gsc = max s.gsc (k.since + 100000000)) ∧ t.cas.faultCode = 0x0808#16 ∧ t.job = s.job ∧
          ∃ y r' low, t.rangeAt digest first = some (y, r') ∧ (∀ c ∈ r'.children, c.port ≠ p) ∧
            r'.retain = some (low, t.gsc + 10000000000) ∧ low ≤ k.acked - 64) ∧
        (k.next ≤ k.acked → s.linkDown p = false → exec (.childBcastTimeout digest first p) s = .next s)) ∧
      (∀ low at_, r.retain = some (low, at_) → lacks l → completes (.retainExpiry digest first) s fun t => t.gsc = max s.gsc at_ ∧
        t.cas.slots = s.cas.slots ∧ t.job = s.job ∧ (∀ y r', t.rangeAt digest first = some (y, r') → r'.retain = none) ∧
        (l.phase ≠ .sharing → (t.rangeAt digest first).isSome = true))) ∧
    (∀ (i : Nat) (l : CasLoad), (s.cas.loads.find? fun l => l.slot = i && l.phase = .written && l.adapter.isNone) = some l →
      (completes (.residentReadback i false) s fun t => t.cas.faultCode = 0x0807#16 ∧ t.cas.faultValid = true ∧ t.far = s.far ∧
        t.job = s.job ∧ (s.casNow = true → (t.rmSlot i).state = .empty)) ∧
      (l.failed = none → completes (.residentReadback i true) s fun t => t.far.mem = s.far.mem ∧ t.job = s.job ∧ t.cores = s.cores ∧
        (s.casNow = true → (t.rmSlot i).state = .resident ∧
          (t.rmSlot i).resDigest = residentDigest (s.farGetAt (copyRegion (s.rmSlot i).base (s.rmSlot i).size) 0 (s.rmSlot i).size) ∧
          ∀ d r, l.chan = some d → (s.cmdOf d).isSome = true → (t.chan d).resp = some r → r.result = 0#16)))

/-! ### Security -/

/-- R463 to R468, R472, R473: the commands of owner, keys and life cycle. One that its trailer does not authorise is answered AUTH, with
0x0941 for a signature or a key and 0x0942 for a nonce, and the nonce it carries is used; one that is authorised uses it too and has its
effect. A claim registers the key that signs it, a release advances the owner epoch and zeroises the vault, a life-cycle change blows the
fuse, advances the epoch but for a claim, zeroises the vault and resets the module.
Forms completed: secNonce, secOwnerClaim, secOwnerRelease, secKeySet, secPolicy, secMgmtKey, secOwnerRead, secLcAdvance, secReset,
nonceExpiry. -/
def Obligations.OwnerCommands : Prop :=
  ∀ (s : State) (ch : Nat) (c : Cmd),
    let a := s.accepted ch c
    let b := c.payload
    let used := a.useNonce (trailerNonce b)
    let refused (i : Instr) (au : Auth) : Prop := (au = .badKey → answered i s ch used (.bad .auth 0x0941)) ∧
      (au = .badNonce → answered i s ch used (.bad .auth 0x0942))
    (s.carries ch 0x0701 c ∨ s.carriesRec ch 0x0701 c → c.length = 0 → ∃ t n, answered (.secNonce ch) s ch t (.ok n) ∧ n.length = 32 ∧
      t.sec = { s.sec with nonce := some (n, s.gsc + 60000000000) } ∧ ({ t with sec := a.sec, free := a.free } : State) = a) ∧
    (s.carries ch 0x0702 c → c.length = 424 → zeroAt b 97 3 = true → zeroAt b 197 3 = true →
      (s.lcIs 2 = true ∧ s.job.state = .idle) ∨ (s.lcIs 3 = true ∧ s.sec.owner = none) →
      let au := if s.anchorOk b then s.checkTrailer 0x0702 b (sub b 0 97) else .badKey
      let o := { OwnerBlock.init with adminKey := sub b 0 97 }
      refused (.secOwnerClaim ch) au ∧
      (au = .ok → ∃ t, answered (.secOwnerClaim ch) s ch t .ok ∧ t.sec.ownerFlash = some (a.sealedOwner o) ∧ t.sec.anchor = sha384 (sub b 0 97) ∧
        t.sec.nonce = none ∧ t.sec.fuses = { s.sec.fuses with lc := 3 } ∧ t.job = s.job ∧ t.cores = s.cores ∧
        (s.lcIs 3 = true → t.sec.owner = some o ∧ t.power = s.power ∧ t.sec.ak = s.sec.ak) ∧
        (s.lcIs 2 = true → t.sec.owner = none ∧ t.sec.ak = none ∧ t.sec.ik = none ∧ t.power.resetDue.isSome = true))) ∧
    (s.carries ch 0x0703 c → c.length = 128 → s.lcIs 3 = true → s.job.state = .idle → refused (.secOwnerRelease ch) (s.ownerAuth 0x0703 b) ∧
      (s.ownerAuth 0x0703 b = .ok → ∃ t, answered (.secOwnerRelease ch) s ch t .ok ∧ t.sec.owner = none ∧ t.sec.anchor = [] ∧
        t.sec.nonce = none ∧ t.sec.fuses = { s.sec.fuses with ownerEpoch := min 64 (s.sec.fuses.ownerEpoch + 1) } ∧
        t.recs.opened = none ∧ t.recs.staged = [] ∧ t.power = s.power ∧ t.job = s.job)) ∧
    (∀ (i : Instr) (op : Nat) (f : OwnerBlock → OwnerBlock), s.carries ch op c → s.lcIs 3 = true →
      (i = .secKeySet ch ∧ op = 0x0704 ∧ c.length = 229 ∧ fld b 0 1 ≤ 1 ∧ fld b 1 1 ≤ 15 ∧ zeroAt b 2 2 = true ∧
        f = fun o => if fld b 0 1 = 0 then { o with imageKeys := putKey o.imageKeys (fld b 1 1) (sub b 4 97) }
          else { o with casKeys := putKey o.casKeys (fld b 1 1) (sub b 4 97) }) ∨
      (i = .secPolicy ch ∧ op = 0x0705 ∧ c.length = 129 ∧ fld b 0 1 ≤ 3 ∧ f = fun o => { o with policy := fld b 0 1 }) ∨
      (i = .secMgmtKey ch ∧ op = 0x0706 ∧ c.length = 176 ∧ ch < 8 ∧ f = fun o => { o with mgmtKey := sub b 0 48 }) →
      refused i (s.ownerAuth op b) ∧
      (∀ o, s.ownerAuth op b = .ok → s.sec.owner = some o → ∃ t, answered i s ch t .ok ∧
        t.sec = { s.sec with owner := some (f o), ownerFlash := some (a.sealedOwner (f o)), nonce := none } ∧
        ({ t with sec := a.sec, free := a.free, host := { t.host with evc := a.host.evc } } : State) = a)) ∧
    (s.carries ch 0x0706 c → c.length = 176 → s.lcIs 3 = true → 8 ≤ ch → answered (.secMgmtKey ch) s ch a (.of .auth)) ∧
    (s.carries ch 0x0707 c → c.length = 0 → s.lcIs 3 = true → let o := s.sec.owner.getD .init
      answered (.secOwnerRead ch) s ch a (.ok (s.ownerDigest ++ leBytes 2 (keyMask o.imageKeys) ++ leBytes 2 (keyMask o.casKeys) ++
        leBytes 1 o.policy ++ zeros 3 ++ padTo 97 o.adminKey))) ∧
    (∀ byOwner, s.carries ch 0x070A c ∨ (s.carriesRec ch 0x070A c ∧ s.sec.fuses.lc = 0) → c.length = 129 ∨ c.length = 229 → b.length = c.length → fld b 0 1 ≤ 5 →
      (c.length = 229 → vendorForm b = true) → s.job.state = .idle → let target := fld b 0 1
      (lcStep s.sec.fuses.lc target = none → answered (.secLcAdvance ch) s ch a (.of .state)) ∧
      (lcStep s.sec.fuses.lc target = some byOwner →
        (target = 2 → s.sec.ikSealed = none ∨ s.sec.certDone = false → answered (.secLcAdvance ch) s ch a (.of .state)) ∧
        (target ≠ 2 ∨ (s.sec.ikSealed.isSome = true ∧ s.sec.certDone = true) →
          let au := if c.length = 229 then s.vendorAuth 0x070A b else if byOwner then s.ownerAuth 0x070A b else .badKey
          refused (.secLcAdvance ch) au ∧
          (au = .ok → ∃ t, answered (.secLcAdvance ch) s ch t .ok ∧ t.sec.fuses.lc = target ∧
            t.sec.fuses.ownerEpoch = min 64 (s.sec.fuses.ownerEpoch + 1) ∧ t.sec.fuses.svn = s.sec.fuses.svn ∧
            (target = 5 → t.sec.fuses.udsKill = true) ∧ (target = 4 → t.sec.anchor = []) ∧ (target = 1 → t.sec.fuses.uds.length = 48) ∧
            t.sec.owner = none ∧ t.sec.ak = none ∧ t.sec.ik = none ∧ t.sec.nonce = none ∧ t.power.resetDue.isSome = true)))) ∧
    (s.carries ch 0x070B c → c.length = 0 → s.job.state = .idle → answered (.secReset ch) s ch
      { a with power := { a.power with resetDue := some (a.power.resetDue.getD .secReset) } } .ok) ∧
    (∀ n at_, s.sec.nonce = some (n, at_) → completes .nonceExpiry s fun t =>
      t.sec = { s.sec with nonce := none } ∧ t.gsc = max s.gsc at_ ∧ t.job = s.job ∧ t.host = s.host)

/-- R452 to R455, R457, R460, R464, R473: the commands of firmware and certificates. A flash image is checked before its authority and
the failure answered with 0x0943; an image that passes is programmed, and one whose programming is cut off leaves an invalid image. The
SVN fuse never falls and never exceeds the running image's. In recovery RECOVERY_WRITE stages bytes and RECOVERY_COMMIT programs the
image they spell. That the checks of an image come before the signature is the model's reading (log entry 81).
Forms completed: secFwUpdate, secSvnCommit, secChainRead, secProvision, secCertInstall, recoveryWrite, recoveryCommit. -/
def Obligations.FirmwareCommands : Prop :=
  ∀ (s : State) (ch : Nat) (c : Cmd),
    let a := s.accepted ch c
    let b := c.payload
    let used := a.useNonce (trailerNonce b)
    let refused (i : Instr) (au : Auth) : Prop := (au = .badKey → answered i s ch used (.bad .auth 0x0941)) ∧
      (au = .badNonce → answered i s ch used (.bad .auth 0x0942))
    (∀ (v : HostView) (all : Bytes), s.carries ch 0x0708 c → s.job.state = .idle → sgFields v b = true →
      c.length = (if s.sec.owner.isSome then 140 else 12) → (v.scatter (fld b 0 8) (fld b 8 4)).bind v.gather = some all →
      let img := all.take (352 + fwBody all)
      let au := if s.sec.owner.isSome then s.ownerAuth 0x0708 b else .ok
      (s.fwCheck img ≠ 0 → ∀ e, ∃ t, answered (.secFwUpdate ch v e) s ch t (.bad (fwResult (s.fwCheck img)) 0x0943) ∧
        t.sec.fw = s.sec.fw ∧ t.sec.fwInvalid = s.sec.fwInvalid) ∧
      (s.fwCheck img = 0 → ∀ e, refused (.secFwUpdate ch v e) au) ∧
      (s.fwCheck img = 0 → au = .ok →
        (∃ t, answered (.secFwUpdate ch v .done) s ch t (.ok (fwMeasure img)) ∧ t.sec.fw = img ∧ t.sec.fwInvalid = false ∧
          t.sec.fuses = s.sec.fuses ∧ t.sec.owner = s.sec.owner ∧ t.job = s.job) ∧
        (∀ e, e ≠ .done → completes (.secFwUpdate ch v e) s fun t => t.sec.fw = [] ∧ t.sec.fwInvalid = true ∧ t.sec.fuses = s.sec.fuses))) ∧
    (s.carries ch 0x0709 c → (s.lcIs 1 = true ∧ c.length = 229 ∧ vendorForm b = true) ∨ (s.lcIs 3 = true ∧ c.length = 129) →
      b.length = c.length → fld b 0 1 ≤ 64 → let target := fld b 0 1
      let au := if c.length = 229 then s.vendorAuth 0x0709 b else s.ownerAuth 0x0709 b
      refused (.secSvnCommit ch) au ∧
      (au = .ok →
        (s.sec.runSvn < target → answered (.secSvnCommit ch) s ch used (.of .range)) ∧
        (target ≤ s.sec.runSvn → target ≤ s.sec.fuses.svn →
          answered (.secSvnCommit ch) s ch used (.ok (leBytes 1 s.sec.fuses.svn))) ∧
        (target ≤ s.sec.runSvn → s.sec.fuses.svn < target → ∃ t, answered (.secSvnCommit ch) s ch t (.ok (leBytes 1 target)) ∧
          t.sec = { used.sec with fuses := { s.sec.fuses with svn := target } }))) ∧
    (s.carries ch 0x070D c → c.length = 8 → 1 ≤ fld b 4 4 → fld b 4 4 ≤ 4064 →
      (s.slotChain.length < fld b 0 4 + fld b 4 4 → answered (.secChainRead ch) s ch a (.of .range)) ∧
      (fld b 0 4 + fld b 4 4 ≤ s.slotChain.length →
        answered (.secChainRead ch) s ch a (.ok (sub s.slotChain (fld b 0 4) (fld b 4 4))))) ∧
    (s.carries ch 0x070E c → c.length = 228 → vendorForm b = true → s.lcIs 1 = true → refused (.secProvision ch) (s.vendorAuth 0x070E b) ∧
      (s.vendorAuth 0x070E b = .ok → ∃ t k iv, answered (.secProvision ch) s ch t (.ok (ecPublic k)) ∧
        t.sec.ikSealed = some (gcmSeal s.sec.fuses.sealKey iv (beBytes 48 k)) ∧ t.sec.ik = some k ∧ t.sec.nonce = none ∧ t.sec.fuses = s.sec.fuses ∧ t.sec.fw = s.sec.fw)) ∧
    (s.carries ch 0x070F c → 236 ≤ c.length → c.length ≤ 4064 → b.length = c.length → vendorForm b = true → s.lcIs 1 = true →
      fld b 4 4 ≤ 0x40000 → fld b 0 4 + (b.length - 236) ≤ fld b 4 4 → refused (.secCertInstall ch) (s.vendorAuth 0x070F b) ∧
      (s.vendorAuth 0x070F b = .ok → ∃ t, answered (.secCertInstall ch) s ch t .ok ∧ t.sec.chain.length = fld b 4 4 ∧
        (∀ i, i < b.length - 236 → t.sec.chain.getD (fld b 0 4 + i) 0#8 = b.getD (8 + i) 0#8) ∧
        t.sec.certDone = decide (fld b 0 4 + (b.length - 236) = fld b 4 4) ∧ t.sec.fuses = s.sec.fuses)) ∧
    (s.carriesRec ch 0x0710 c → 9 ≤ c.length → c.length ≤ 4040 → b.length = 8 + fld b 4 4 → b.length = c.length → fld b 0 4 % 64 = 0 →
      1 ≤ fld b 4 4 → fld b 4 4 ≤ 4032 → fld b 0 4 + fld b 4 4 ≤ 0x1000000 → answered (.recoveryWrite ch) s ch
        { a with sec := { a.sec with staging := a.sec.staging.write (fld b 0 4) (b.drop 8) } } .ok) ∧
    (s.carriesRec ch 0x0711 c → c.length = 4 → 1 ≤ fld b 0 4 → fld b 0 4 ≤ 0x1000000 → let img := s.sec.staging.read 0 (fld b 0 4)
      (s.fwCheck img ≠ 0 → answered (.recoveryCommit ch) s ch a (.bad (fwResult (s.fwCheck img)) 0x0943)) ∧
      (s.fwCheck img = 0 → answered (.recoveryCommit ch) s ch { a with
        sec := { a.sec with fw := img, fwInvalid := false }
        power := { a.power with resetDue := some (a.power.resetDue.getD .secReset) } } .ok)) ∧
    (s.carries ch 0x0710 c → 9 ≤ c.length → c.length ≤ 4040 → (recoveryWrite).fields b = true →
      answered (.recoveryWrite ch) s ch { s with host := { s.host with order := s.host.order.drop 1 } } (.of .state))

/-- R459 to R462, R473: the SPDM 1.2 responder. GET_VERSION begins a connection and offers 1.2 alone; every later request of another
version is a mismatch, one out of order is unexpected, one of a code no row names is unsupported; digests, certificates, the challenge and the measurements are those of slot 0,
signed by the alias key over the transcript; while the signer is busy the response is withheld until RESPOND_IF_READY names it. Nothing
but the connection of the transport, the count of signatures and the free values drawn changes. The layouts are DSP0274's (log entry 85).
Forms completed: secSpdm, getVersion, getCapabilities, negotiateAlgorithms, getDigests, getCertificate, challenge, getMeasurements,
respondIfReady. -/
def Obligations.SpdmResponder : Prop :=
  ∀ (s : State) (p : SpdmPath) (q : Bytes) (busy : Bool), s.sec.boot = .running → 4 ≤ q.length →
    let x := s.conn p
    let tells (i : Instr) (out : Bytes) : Prop := completes i s fun t => (t.conn p).out = out ∧
      (∀ o : SpdmPath, o.ix ≠ p.ix → t.conn o = s.conn o) ∧ ({ t with sec := s.sec, free := s.free } : State) = s ∧
      t.sec.fuses = s.sec.fuses ∧ t.sec.owner = s.sec.owner ∧ t.sec.nonce = s.sec.nonce
    (fld q 1 1 = 0x84 → fld q 0 1 = 0x10 → tells (.getVersion p q busy) [0x10#8, 0x04#8, 0#8, 0#8, 0#8, 1#8, 0x00#8, 0x12#8] ∧
      completes (.getVersion p q busy) s fun t => (t.conn p).versioned = true ∧ (t.conn p).negotiated = false) ∧
    (∀ i, (i, fld q 1 1) ∈ [(Instr.getCapabilities p q busy, 0xE1), (.negotiateAlgorithms p q busy, 0xE3), (.getDigests p q busy, 0x81),
        (.getCertificate p q busy, 0x82), (.challenge p q busy, 0x83), (.getMeasurements p q busy, 0xE0), (.respondIfReady p q busy, 0xFF)] →
      fld q 0 1 ≠ 0x12 → tells i [0x12#8, 0x7F#8, 0x41#8, 0#8]) ∧
    (fld q 0 1 = 0x12 →
      (fld q 1 1 = 0xE1 → (x.versioned = false → tells (.getCapabilities p q busy) errUnexpected) ∧
        (x.versioned = true → 20 ≤ q.length → tells (.getCapabilities p q busy)
          ([0x12#8, 0x61#8, 0#8, 0#8, 0#8, 20#8, 0#8, 0#8, 0x16#8, 0#8, 0#8, 0#8] ++ (Config.spdmOpaque s.free).toList))) ∧
      (fld q 1 1 = 0xE3 → x.capable = true → 32 ≤ q.length → bit (fld q 8 4) 7 = true → bit (fld q 12 4) 1 = true → bit (fld q 6 1) 0 = true →
        tells (.negotiateAlgorithms p q busy) ([0x12#8, 0x63#8, 0#8, 0#8, 36#8, 0#8, 1#8, 0#8, 4#8, 0#8, 0#8, 0#8, 0x80#8, 0#8, 0#8, 0#8,
          2#8, 0#8, 0#8, 0#8] ++ zeros 16) ∧
        completes (.negotiateAlgorithms p q busy) s fun t => (t.conn p).negotiated = true) ∧
      (fld q 1 1 = 0x81 → (x.negotiated = false → tells (.getDigests p q busy) errUnexpected) ∧
        (x.negotiated = true → tells (.getDigests p q busy) ([0x12#8, 0x01#8, 0#8, 0x01#8] ++ sha384 s.spdmChain))) ∧
      (fld q 1 1 = 0x82 → (s.aliasExists = false → tells (.getCertificate p q busy) (errUnsupported 0x82)) ∧
        (s.aliasExists = true → x.negotiated = true → 8 ≤ q.length → fld q 2 1 % 16 = 0 → fld q 4 2 < s.spdmChain.length →
          let n := min (fld q 6 2) (min (s.spdmChain.length - fld q 4 2) 4056)
          tells (.getCertificate p q busy) ([0x12#8, 0x02#8, 0#8, 0#8] ++ leBytes 2 n ++ leBytes 2 (s.spdmChain.length - fld q 4 2 - n) ++
            sub s.spdmChain (fld q 4 2) n))) ∧
      (fld q 1 1 = 0x83 → (s.aliasExists = false → tells (.challenge p q busy) (errUnsupported 0x83)) ∧
        (s.aliasExists = true → x.negotiated = true → 36 ≤ q.length → fld q 2 1 % 16 = 0 → fld q 3 1 = 0 →
          let r := [0x12#8, 0x03#8, 0#8, 0x01#8] ++ sha384 s.spdmChain ++ (s.random 32).1 ++ zeros 2
          let full := r ++ s.spdmSign ctxChallenge (x.transA ++ x.transB ++ q ++ r)
          (busy = false → tells (.challenge p q busy) full) ∧
          (busy = true → completes (.challenge p q busy) s fun t => sub (t.conn p).out 0 4 = [0x12#8, 0x7F#8, 0x42#8, 0#8] ∧
            ∃ token, (t.conn p).waiting = some (0x83, token, full)))) ∧
      (fld q 1 1 = 0xE0 → x.negotiated = true → fld q 2 1 = 0 →
        (fld q 3 1 = 0 → tells (.getMeasurements p q busy) ([0x12#8, 0x60#8, 8#8, 0#8, 0#8, 0#8, 0#8, 0#8] ++ (s.random 32).1 ++ zeros 2)) ∧
        (∀ m, 1 ≤ fld q 3 1 → fld q 3 1 ≤ 8 → m = s.measBlocks.getD (fld q 3 1 - 1) [] → tells (.getMeasurements p q busy)
          ([0x12#8, 0x60#8, 0#8, 0#8, 1#8] ++ leBytes 3 m.length ++ m ++ (s.random 32).1 ++ zeros 2))) ∧
      (fld q 1 1 = 0xE0 → x.negotiated = true → fld q 2 1 = 1 → fld q 3 1 = 0xFF → 37 ≤ q.length → fld q 36 1 % 16 = 0 →
        s.sec.ak.isSome = true → busy = false → let m := s.measBlocks.flatten
        let r := [0x12#8, 0x60#8, 0#8, 0#8, 8#8] ++ leBytes 3 m.length ++ m ++ (s.random 32).1 ++ zeros 2
        tells (.getMeasurements p q busy)
          (r ++ s.spdmSign ctxMeasure ((if x.transL = [] then x.transA else x.transL) ++ q ++ r))) ∧
      (fld q 1 1 = 0xFF → (x.waiting = none → tells (.respondIfReady p q busy) errUnexpected) ∧
        (∀ code token full, x.waiting = some (code, token, full) → fld q 2 1 = code → fld q 3 1 = token →
          tells (.respondIfReady p q busy) full ∧ completes (.respondIfReady p q busy) s fun t => (t.conn p).waiting = none)) ∧
      (fld q 1 1 ≠ 0x84 → fld q 1 1 ∈ spdmCodes → exec (.getVersion p q busy) s = .next s) ∧
      (fld q 1 1 ∉ spdmCodes → ∀ i ∈ [Instr.getVersion p q busy, .getCapabilities p q busy, .negotiateAlgorithms p q busy, .getDigests p q busy,
          .getCertificate p q busy, .challenge p q busy, .getMeasurements p q busy, .respondIfReady p q busy],
        tells i (errUnsupported (fld q 1 1)))) ∧
    (∀ (ch : Nat) (c : Cmd), s.carries ch 0x070C c → c.length ≤ 4064 → let a := s.accepted ch c
      (ch < 8 → answered (.secSpdm ch busy) s ch a (.of .auth)) ∧
      (8 ≤ ch → let o := if ch = 8 then SpdmPath.mgmt0 else .mgmt1
        let t := a.spdmRequest o c.payload busy
        answered (.secSpdm ch busy) s ch t (.ok (t.conn o).out)))

/-! ### Test and debug -/

/-- R519 to R528, R532: the test commands. OBS_SET writes a pin's selection, which the pin shows from the next whole microsecond of GSC, holding its level until then;
PATTERN_SET takes the ports it names out of service; the checkers count only on locked lanes; INJECT and MARGIN need an ACTIVE port without
one of its kind; a debug stop holds every region before the tick after STOP_AT, and DEBUG_READ and DEBUG_RELEASE need it. With an owner
registered DEBUG_STOP and DEBUG_READ need its signature.

R530, R531: the test access port. An instruction selects its register and captures it: IDCODE the identification 0x10D09C55, BYPASS,
CLAMP and HIGHZ one 0 bit, the boundary instructions the pins; what is shifted out is the register's content and then what is shifted in.
While a job is ARMED, RUNNING or PAUSED the instructions that drive pins act as BYPASS and the instruction register captures 0b101. Nothing
else of the module changes.
Forms completed: obsSet, obsSelectApply, patternSet, patternRead, inject, margin, marginDwellEnd, debugStop, debugRead, debugRelease,
testLogicReset, bypass, idcode, samplePreload, extest, extestPulse, extestTrain, clamp, highz, checkerLock, checkerLockLost. -/
def Obligations.TestAndAccess : Prop :=
  (∀ (s : State) (ch : Nat) (c : Cmd),
    let a := s.accepted ch c
    let b := c.payload
    let onlyPort (t : State) (p : Nat) (x : LinkPort) : Prop := t.port p = x ∧ (∀ q, q ≠ p → t.port q = s.port q) ∧
      ({ t with ports := a.ports } : State) = a
    (∀ m, s.carries ch 0x0801 c → c.length = 4 → fld b 0 1 ≤ 7 → obsArgs (fld b 1 1) = some m → fld b 2 1 ≤ m → fld b 3 1 ≤ 15 →
      answered (.obsSet ch) s ch { a with test := { a.test with
        sel := a.test.sel.put (fld b 0 1) { signal := fld b 1 1, arg := fld b 2 1, div := fld b 3 1 }
        due := a.test.due.put (fld b 0 1) ((s.gsc / 1000 + 1) * 1000), level := a.test.level.put (fld b 0 1) (s.obsLevel (fld b 0 1)) } } .ok) ∧
    (∀ p x, (s.selectObs p x).obsLevel p = s.obsLevel p) ∧
    (∀ pin, s.test.due.has pin = true → completes (.obsSelectApply pin) s fun t =>
      t.gsc = max s.gsc (s.test.due.find 0 pin) ∧ t.test.shown.find .init pin = s.test.sel.find .init pin ∧ t.test.due.has pin = false ∧
      t.obsLevel pin = t.signal (s.test.sel.find .init pin) ∧ t.test.sel = s.test.sel ∧ ∀ q, q ≠ pin → t.test.shown.find .init q = s.test.shown.find .init q) ∧
    (s.carries ch 0x0802 c → c.length = 4 → fld b 2 1 ≤ 7 → fld b 3 1 < 32 →
      (fld b 2 1 ≠ 0 → s.job.state = .armed ∨ s.job.state = .running ∨ s.job.state = .paused → answered (.patternSet ch) s ch a (.of .state)) ∧
      (fld b 2 1 = 0 ∨ (s.job.state ≠ .armed ∧ s.job.state ≠ .running ∧ s.job.state ≠ .paused) →
        ∃ t, answered (.patternSet ch) s ch t .ok ∧ ({ t with ports := a.ports } : State) = a ∧
          ∀ p, p < 16 → let y := t.port p
            if bit (fld b 0 2) p = false then y = s.port p
            else y.pat.pattern = fld b 2 1 ∧ y.pat.tx = bit (fld b 3 1) 0 ∧ y.pat.rx = bit (fld b 3 1) 1 ∧
              y.pat.width8 = bit (fld b 3 1) 2 ∧ y.pat.wl1Rate = bit (fld b 3 1) 3 ∧ (∀ l, (y.pat.lanes.find .init l).locked = false) ∧
              (bit (fld b 3 1) 4 = true → y.pat.bits = 0 ∧ ∀ l, (y.pat.lanes.find .init l).err = 0) ∧
              (fld b 2 1 ≠ 0 → y.state = .off))) ∧
    (∀ cmp errs, s.carries ch 0x0803 c → c.length = 1 → fld b 0 1 ≤ 15 → let x := s.port (fld b 0 1)
      let y := x.pat.compare cmp errs
      ∃ t, answered (.patternRead ch cmp errs) s ch t (.ok (leBytes 2 y.lockMask ++ zeros 6 ++ leBytes 8 y.bits ++
          (List.range 16).flatMap fun l => leBytes 8 (y.lanes.find .init l).err)) ∧ onlyPort t (fld b 0 1) { x with pat := y } ∧
        (∀ l, (x.pat.lanes.find .init l).locked = false → y.lanes.find .init l = x.pat.lanes.find .init l)) ∧
    (∀ p l, p < 16 → l < 16 → let x := s.port p
      (x.state = .off → x.pat.pattern ≠ 0 → x.pat.rx = true → l < 8 ∨ x.pat.width8 = false → completes (.checkerLock p l) s fun t =>
        ((t.port p).pat.lanes.find .init l).locked = true ∧ (∀ k, k ≠ l → (t.port p).pat.lanes.find .init k = x.pat.lanes.find .init k) ∧
        (∀ q, q ≠ p → t.port q = s.port q) ∧ ({ t with ports := s.ports } : State) = s) ∧
      (x.state = .training → x.phase = 1 → (∀ k, k < x.laneCount → k ≠ l → (x.pat.lanes.find .init k).locked = true) → l < x.laneCount →
        completes (.checkerLock p l) s fun t => (t.port p).phase = 2 ∧ (t.port p).phaseAt = s.gsc ∧ (t.port p).state = .training ∧
          ∀ q, q ≠ p → t.port q = s.port q) ∧
      (∀ cmp errs, (x.pat.lanes.find .init l).locked = true → completes (.checkerLockLost p l cmp errs) s fun t =>
        ((t.port p).pat.lanes.find .init l).locked = false ∧
        ((t.port p).pat.lanes.find .init l).err = min ((x.pat.lanes.find .init l).err + errs) (2 ^ 64 - 1) ∧
        (t.port p).pat.bits = min (x.pat.bits + cmp) (2 ^ 64 - 1) ∧ (∀ q, q ≠ p → t.port q = s.port q) ∧
        ({ t with ports := s.ports } : State) = s)) ∧
    (s.carries ch 0x0804 c → c.length = 10 → inject.fields b = true → let p := fld b 0 1
      let x := s.port p
      (fld b 1 1 ≠ 3 ∨ staleOk (fld b 8 2) x.replayNs = true → x.state ≠ .active ∨ x.modeNow ≠ 1 →
        answered (.inject ch) s ch a (.of .state)) ∧
      (fld b 1 1 ≠ 3 ∨ staleOk (fld b 8 2) x.replayNs = true → x.state = .active → x.modeNow = 1 → x.inj.isSome = true →
        answered (.inject ch) s ch a (.of .busy)) ∧
      (fld b 1 1 ≠ 3 ∨ staleOk (fld b 8 2) x.replayNs = true → x.state = .active → x.modeNow = 1 → x.inj = none →
        ∃ t, answered (.inject ch) s ch t .ok ∧ onlyPort t p { x with inj := some {
          kind := fld b 1 1, cls := fld b 2 1, nsym := fld b 3 1, left := if fld b 1 1 = 3 then fld b 8 2 else fld b 4 2
          spacing := fld b 6 2, since := fld b 6 2, ack := x.ackPt } })) ∧
    (s.carries ch 0x0805 c → c.length = 12 → margin.fields b = true → let p := fld b 0 1
      let x := s.port p
      (x.marginable = false → answered (.margin ch) s ch a (.of .state)) ∧
      (x.marginable = true → x.margin.isSome = true → answered (.margin ch) s ch a (.of .busy)) ∧
      (x.marginable = true → x.margin = none → completes (.margin ch) s fun t => onlyPort t p { x with margin := some {
        lane := fld b 1 1, eye := fld b 2 1, time := fld b 4 1, volt := fld b 5 1, ends := s.gsc + 1000 * fld b 8 4, chan := ch
        aborted := false } } ∧ (t.cmdOf ch).any (fun d => d.executing) = true)) ∧
    (∀ p m, p < 16 → (s.port p).margin = some m → completes (.marginDwellEnd p) s fun t =>
      (t.port p).margin = none ∧ (∀ q, q ≠ p → t.port q = s.port q) ∧ (m.aborted = false → t.gsc = max s.gsc m.ends) ∧
      (m.aborted = true → t.gsc = s.gsc) ∧
      ∀ d, s.cmdOf m.chan = some d → ∃ r, (t.chan m.chan).resp = some r ∧ r.result = 0#16 ∧ r.payload.length = 17) ∧
    (∀ i au, (i = .debugStop ch ∧ s.carries ch 0x0806 c ∧ s.job.state = .running ∧ (if s.sec.owner.isSome then c.length = 136 else c.length = 8)) ∨
        (i = .debugRead ch ∧ s.carries ch 0x0807 c ∧ ((s.job.state = .running ∧ s.debugStopped = true) ∨ s.job.state = .faulted) ∧
          (if s.sec.owner.isSome then c.length = 140 else c.length = 12) ∧ (debugRead s).fields b = true) →
      au = (if s.sec.owner.isSome then s.ownerAuth c.opcode b else .ok) →
      (au ≠ .ok → ∃ t f, answered i s ch t (.bad .auth f) ∧ t.pace = s.pace ∧ t.cores = s.cores) ∧
      (au = .ok → i = .debugStop ch → ∃ t, answered i s ch t .ok ∧ t.pace = { s.pace with debugStop := some (fld b 0 8), debugNs := 0 } ∧
        t.cores = s.cores ∧ t.regions = s.regions ∧ t.power = s.power) ∧
      (au = .ok → i = .debugRead ch → ∃ t, answered i s ch t (.ok (sub (s.debugSection (fld b 0 2)) (fld b 4 4) (fld b 8 4))) ∧
        t.cores = s.cores ∧ t.pace = s.pace ∧ t.ss = s.ss)) ∧
    (s.carries ch 0x0808 c → c.length = 0 →
      (s.job.state ≠ .running ∨ s.debugStopped = false → answered (.debugRelease ch) s ch
        { s with host := { s.host with order := s.host.order.drop 1 } } (.of .state)) ∧
      (s.job.state = .running → s.debugStopped = true → ∃ t, answered (.debugRelease ch) s ch t .ok ∧ t.pace.debugStop = none ∧
        (∀ r, r < 80 → (t.region r).issued = (s.region r).issued ∧ (t.region r).lastIssue = s.gsc) ∧ t.cores = s.cores ∧ t.gsc = s.gsc))) ∧
  (∀ (s : State) (tdi : List Bool),
    let scans (i : Instr) (j : Jtag) : Prop := exec i s = .next { s with test := { s.test with jtag := j } }
    let old := s.test.jtag
    let ir := if s.job.state.active then 5 else 1
    let byp (i : JtagInstr) : Jtag := { instr := i, captured := ir, cells := old.cells, tdo := ([false] ++ tdi).take tdi.length, samples := old.samples }
    let pins := (List.range Config.boundaryLength).map fun k => Config.pinLevel k old.samples
    let bnd (i : JtagInstr) : Jtag := { instr := i, captured := ir, cells := (pins ++ tdi).drop tdi.length
                                        tdo := (pins ++ tdi).take tdi.length, samples := old.samples + 1 }
    let guarded (i : Instr) (j : Jtag) : Prop := (s.job.state.active = true → scans i (byp .bypass)) ∧ (s.job.state.active = false → scans i j)
    scans .testLogicReset { instr := .idcode, captured := 1, cells := [], tdo := [], samples := old.samples } ∧
    scans (.bypass tdi) (byp .bypass) ∧
    (∃ j, scans (.idcode tdi) j ∧ j.instr = .idcode ∧ j.captured = ir ∧
      ∀ k, k < 32 → k < tdi.length → j.tdo.getD k false = (0x10D09C55#32).getLsbD k) ∧
    scans (.samplePreload tdi) (bnd .samplePreload) ∧ guarded (.extest tdi) (bnd .extest) ∧
    guarded (.extestPulse tdi) (bnd .extestPulse) ∧ guarded (.extestTrain tdi) (bnd .extestTrain) ∧ guarded (.clamp tdi) (byp .clamp) ∧
    guarded (.highz tdi) (byp .highz))

/-! ### Host interface -/

/-- R416, R417, R419, R423 to R425, R427, R428, R464, R492, R504: mailboxes, the function's resets, the BAR2 window. A doorbell submits the
command in the buffer, and while BUSY only sets OVERRUN; a command past its limit is answered TIMEOUT; a watchdog restart answers RESTARTED
on every busy channel, empties the controller's stack and discards the nonce; a reset of the PCIe function returns its registers to their
reset values, discards mailbox commands and is job-fatal (0x0C03, 0x0C04) for a job under way; a refused window access reads all ones and is
counted; a module that has halted or shut down by heat answers neither a doorbell nor a window access; a failed DMA read fails the operation that issued it and raises 0x0C05.
Forms completed: mbDoorbell, commandTimeout, mpWatchdog, kick, windowAccess, pcieReset, pcieLinkLoss, perstN, hostDma. -/
def Obligations.HostFunction : Prop :=
  ∀ (s : State),
    let resetOf (t : State) : Prop := t.srv.rq = [] ∧ t.host.msix = [] ∧ t.host.win = [] ∧ t.recs.enable = false ∧ t.recs.tail = 0#32 ∧
      t.host.evc.evlEnable = false ∧ (∀ k ∈ t.host.chans, 8 ≤ k.1) ∧ (∀ k ∈ t.host.order, 8 ≤ k) ∧
      (∀ r, (t.cpl r).enable = false ∧ (t.cpl r).held = (s.cpl r).held) ∧ t.cores = s.cores ∧ t.ss = s.ss ∧ t.far.mem = s.far.mem ∧
      t.image = s.image ∧ t.host.pci = .init
    let faults (t : State) (code : W16) : Prop := (s.job.state.active = true → s.job.fault = 0#16 → t.job.fault = code ∧ t.stop.isSome = true) ∧
      (s.job.state.active = false → t.job = s.job ∧ t.stop = s.stop)
    (s.deaf = true → (∀ ch seq, ch < 8 → exec (.mbDoorbell ch seq) s = .next s) ∧ ∀ off n data, exec (.windowAccess off n data) s = .next s) ∧
    (∀ ch seq, ch < 8 → s.deaf = false → s.host.order ≠ [] → s.cmdOf (s.host.order.headD 0) ≠ none →
      (∀ d, s.cmdOf (s.host.order.headD 0) = some d → opDefined d.opcode = true) → s.host.order.headD 0 ≠ ch →
      let x := s.chan ch
      (x.busy = true → exec (.mbDoorbell ch seq) s = .next (s.setChan ch { x with overrun := true })) ∧
      (x.busy = false → completes (.mbDoorbell ch seq) s fun t =>
        t.chan ch = { x with busy := true, done := false, cmd := some {
          opcode := leNat (x.buf.read 0 2), length := leNat (x.buf.read 2 2), reserved := leNat (x.buf.read 4 4)
          tag := BitVec.ofNat 64 (leNat (x.buf.read 8 8)), payload := x.buf.read 16 (min (leNat (x.buf.read 2 2)) 4064), seq := seq
          doorbellGsc := s.gsc, executing := false } } ∧
        t.host.order = (if s.answers ch then s.host.order ++ [ch] else s.host.order) ∧ (∀ d, d ≠ ch → t.chan d = s.chan d) ∧
        ({ t with host := s.host } : State) = s)) ∧
    (∀ ch seq, ch < 8 → s.host.order = [] → (s.chan ch).busy = false → opDefined (leNat ((s.chan ch).buf.read 0 2)) = false →
      s.sec.boot = .running → completes (.mbDoorbell ch seq) s fun t =>
        (t.chan ch).busy = false ∧ (t.chan ch).done = true ∧ t.host.order = [] ∧ ∃ r, (t.chan ch).resp = some r ∧ r.result = 8#16) ∧
    (∀ ch c, ch < 10 → s.cmdOf ch = some c → s.sec.boot = .running → s.host.order = [] → s.cas.loads = [] → s.fab.launch = none →
      completes (.commandTimeout ch) s fun t => t.gsc = max s.gsc (c.doorbellGsc + c.limit) ∧ (t.chan ch).busy = false ∧ t.cmdOf ch = none ∧
        (∃ r, (t.chan ch).resp = some r ∧ r.result = 4#16 ∧ r.seq = c.seq ∧ r.tag = c.tag) ∧ t.job = s.job ∧ t.cores = s.cores ∧
        ∀ d, d ≠ ch → t.chan d = s.chan d) ∧
    (s.sec.boot = .running → completes .mpWatchdog s fun t => t.gsc = max s.gsc (s.power.kickAt + 1000000 * s.power.wdtMs) ∧
      t.power.kickAt = t.gsc ∧ t.power.lastCause = 0 ∧ t.host.mpRestarts = s.host.mpRestarts + 1 ∧ t.host.evc.stack = [] ∧
      t.host.evc.order = false ∧ t.sec.nonce = none ∧ t.job = s.job ∧ t.cores = s.cores ∧ t.sec.fuses = s.sec.fuses ∧
      ∀ ch, ch < 10 → (s.chan ch).busy = true → (s.cmdOf ch).isSome = true → (t.chan ch).busy = false) ∧
    exec .kick s = .next { s with power := { s.power with kickAt := s.gsc } } ∧
    (completes .pcieReset s fun t => resetOf t ∧ faults t 0x0C03#16) ∧
    (completes .pcieLinkLoss s fun t => resetOf t ∧ faults t 0x0C04#16 ∧ t.host.pcieUp = false) ∧
    (s.power.perstN = true → completes (.perstN false) s fun t => resetOf t ∧ faults t 0x0C04#16 ∧ t.power.perstN = false) ∧
    (s.power.perstN = false → completes (.perstN true) s fun t => t.power.perstN = true ∧ t.host.pcieUp = s.power.modReady ∧ t.job = s.job) ∧
    exec (.perstN s.power.perstN) s = .next s ∧
    (s.deaf = false → s.power.mode = .run → ∀ off n, let x := s.host.win.find .init (off / 2 ^ 30 % 16)
      let at_ := x.base * 65536 + off % 2 ^ 30
      let running := s.job.state = .armed ∨ s.job.state = .running
      let r := s.farRegion x.region
      let refused (t : State) : Prop := t.host.winRefused = min (s.host.winRefused + 1) (2 ^ 32 - 1) ∧ t.far.mem = s.far.mem ∧ t.ss = s.ss
      (x.target = 0 ∨ x.target = 3 ∨ (x.target = 1 ∧ (r.size * 65536 ≤ at_ ∨ r.valid = false ∨ (running ∧ r.host = false))) ∨
          (x.target = 2 ∧ running) →
        (completes (.windowAccess off n none) s fun t => refused t ∧ t.host.winData = List.replicate n 0xFF#8) ∧
        (∀ b, completes (.windowAccess off n (some b)) s fun t => refused t ∧ t.host.winData = s.host.winData)) ∧
      (x.target = 1 → s.image.isSome = true → r.valid = true → at_ < r.size * 65536 → ¬ running ∨ r.host = true →
        (completes (.windowAccess off n none) s fun t => t.host.winData = s.farSeen 0 x.region at_ n ∧ t.far.mem = s.far.mem) ∧
        (∀ b, completes (.windowAccess off n (some b)) s fun t => t.far.mem = (s.farPut x.region at_ b).far.mem ∧ t.ss = s.ss ∧
          t.cores = s.cores)) ∧
      (x.target = 2 → ¬ running → s.hasCore (at_ / sliceSize) = true →
        (∀ b, completes (.windowAccess off n (some b)) s fun t => t.ss = s.ss.write at_ b ∧ t.far = s.far ∧ t.cores = s.cores) ∧
        (s.ssErr = [] → completes (.windowAccess off n none) s fun t => t.host.winData = s.ss.read at_ n ∧ t.ss = s.ss))) ∧
    (∀ r, r < 64 → (s.reqRing r).enable = true → completes (.hostDma (.ring r)) s fun t =>
      (t.reqRing r).enable = false ∧ (t.reqRing r).error = true ∧ (∀ k, k ≠ r → t.reqRing k = s.reqRing k) ∧ t.job = s.job) ∧
    (∀ ch c, ch < 10 → s.cmdOf ch = some c → c.executing = false → s.sec.boot = .running → s.host.order = [ch] →
      completes (.hostDma (.command ch)) s fun t => t.cmdOf ch = none ∧ t.host.order = [] ∧
        ∃ r, (t.chan ch).resp = some r ∧ r.result = 3#16 ∧ r.fault = 0x0C05#16) ∧
    (∀ id q, s.req id = some q → q.state = .fetching → s.srv.boundary = false → completes (.hostDma (.prompt id)) s fun t =>
      (∃ q', t.req id = some q' ∧ q'.state = .ending ∧ q'.status = stHostError) ∧ t.job = s.job)

/-- R432 to R441, R490: the event controller and the event log. A raise makes an idle source pending, eligible once its raises reach
MOD_COUNT, and marks one in service AGAIN; a claim takes the presented source into service; its completion takes it off the stack and
makes it idle, or pending when it was raised meanwhile, and firmware logs an event that has a code; a completion out of order keeps the
stack for firmware, sets ORDER and raises EVC_ORDER (0x0B01). Enabling the log empties it and logs the fault of the latest reset first.
Forms completed: evlCfg, evcDoorbell, evcClaim, evcDone, evcModTime, evcAgePromotion. -/
def Obligations.EventController : Prop :=
  ∀ (s : State) (n : Nat), n < 896 →
    let x := s.source n
    let e := s.host.evc
    let only (t : State) (y : Source) : Prop := t.source n = y ∧ (∀ k, k ≠ n → t.source k = s.source k) ∧
      ({ t with host := { t.host with evc := s.host.evc } } : State) = s ∧ t.host.evc.stack = e.stack
    (∀ m, m ≥ 896 → m < 1024 → exec (.evcDoorbell m) s = .next s) ∧
    (x.state = .idle → completes (.evcDoorbell n) s fun t => only t { x with
      raises := min (x.raises + 1) 65535, info := { fault := false, gsc := s.gsc, arg0 := 0, arg1 := 0 }, since := s.gsc
      state := if max 1 x.modCount ≤ min (x.raises + 1) 65535 ∨ e.idleWait = true then .eligible else .pending }) ∧
    (x.state = .inService → completes (.evcDoorbell n) s fun t => only t { x with
      raises := min (x.raises + 1) 65535, info := { fault := false, gsc := s.gsc, arg0 := 0, arg1 := 0 }, again := true }) ∧
    (s.presented = none → exec .evcClaim s = .next { s with host := { s.host with evc := { e with lastClaim := none } } }) ∧
    (∀ l, s.presented = some (n, l) → n ≠ srcOrder → completes .evcClaim s fun t => (t.source n).state = .inService ∧
      (t.source n).raises = 0 ∧ (t.source n).claimed = x.raises ∧ t.host.evc.stack = (n, l) :: e.stack ∧
      (t.host.evc.lastClaim.map fun y => (y.1, y.2.1)) = some (n, l) ∧ (∀ k, k ≠ n → t.source k = s.source k) ∧
      ({ t with host := { t.host with evc := s.host.evc } } : State) = s) ∧
    (∀ l rest, e.stack = (n, l) :: rest → completes (.evcDone n) s fun t => t.host.evc.stack = rest ∧ t.host.evc.order = e.order ∧
      (x.again = false → (t.source n).state = .idle) ∧
      (x.again = true → (t.source n).state = .pending ∨ (t.source n).state = .eligible) ∧ (t.source n).again = false ∧
      (∀ k, k ≠ n → t.source k = s.source k) ∧ t.job = s.job ∧ t.cores = s.cores ∧
      (n < 64 → t.host.hostMem = s.host.hostMem ∧ t.host.evc.evlTail = e.evlTail) ∧
      (64 ≤ n → e.evlEnable = true → e.evlUsed < ringSize e.evlLog2 8 → (s.host.msix.find .init e.evlVector).masked = true →
        t.host.evc.evlTail = (e.evlTail + 1) % 2 ^ 32 ∧ t.host.hostMem = s.host.hostMem.write
          (e.evlBase.toNat + 32 * (e.evlTail % ringSize e.evlLog2 8))
          (logEntry (codeOf n) x.claimedInfo.fault x.claimed x.claimedInfo.gsc x.claimedInfo.arg0 x.claimedInfo.arg1)) ∧
      (64 ≤ n → e.evlEnable = true → ringSize e.evlLog2 8 ≤ e.evlUsed → t.host.evc.evlLost = min (e.evlLost + 1) 65535 ∧
        t.host.hostMem = s.host.hostMem)) ∧
    (e.stack.head?.map (fun y => y.1) ≠ some n → completes (.evcDone n) s fun t => t.host.evc.order = true ∧ t.host.evc.stack = e.stack ∧
      t.host.evc.stackLog = e.stack ∧ (t.source srcOrder).state ≠ .idle ∧ ∀ k, k ≠ srcOrder → t.source k = s.source k) ∧
    (x.state = .pending → x.modTimeUs ≠ 0 → completes (.evcModTime n) s fun t => (t.source n).state = .eligible ∧
      t.gsc = max s.gsc (x.since + 1000 * x.modTimeUs) ∧ ∀ k, k ≠ n → t.source k = s.source k) ∧
    (x.state = .eligible → x.ageUs ≠ 0 → completes (.evcAgePromotion n) s fun t => (t.source n).promoted = true ∧
      (t.source n).effLevel n t.gsc = 15 ∧ t.gsc = max s.gsc (x.since + 1000 * x.ageUs + 1) ∧ ∀ k, k ≠ n → t.source k = s.source k) ∧
    (s.deaf = true → ∀ v, exec (.evlCfg v) s = .next s) ∧
    (∀ v : W32, s.deaf = false → completes (.evlCfg v) s fun t => t.host.evc.evlEnable = v.getLsbD 5 ∧ t.host.evc.evlLog2 = v.toNat % 32 ∧
      t.host.evc.evlVector = v.toNat / 64 % 128 ∧ t.job = s.job ∧
      (v.getLsbD 5 = true → e.evlEnable = false → t.host.evc.resetLog = none ∧ t.host.evc.evlHead = 0 ∧ t.host.evc.evlLost = 0 ∧
        t.host.evc.evlTail = (if e.resetLog.isSome then 1 else 0)) ∧
      (v.getLsbD 5 = false ∨ e.evlEnable = true → t.host.evc.evlTail = e.evlTail ∧ t.host.evc.resetLog = e.resetLog))

/-- R277 to R279, R309, R311, R322, R328, R329, R339: the rings. Enabling a ring sets both its indices to 0; LOG2_SIZE changes only while
it is disabled; a producer index too far ahead stops the request ring with 0x0703; a completion or record ring writes what waits for room
when its consumer index moves; WAITING and the moderation time send the ring's interrupt for entries that are pending; the record ring's
configuration is locked while a job runs. A module that has halted or shut down by heat ignores the writes.
Forms completed: rqTail, rqCfg, cqCfg, cqHead, cqArm, completionModerationTime, recCfg, recHead. -/
def Obligations.Rings : Prop :=
  ∀ (s : State) (r : Nat) (v : W32), r < 64 →
    (s.deaf = true → ∀ i ∈ [Instr.rqTail r v, .rqCfg r v, .cqCfg r v, .cqHead r v, .cqArm r true, .cqArm r false, .recCfg v, .recHead v],
      exec i s = .next s) ∧ (s.deaf = false →
    let x := s.reqRing r
    let y := s.cpl r
    let others (t : State) : Prop := (∀ k, k ≠ r → t.reqRing k = s.reqRing k) ∧ (∀ k, k ≠ r → t.cpl k = s.cpl k)
    (s.power.mode = .run →
      (x.enable = false ∨ (v - x.head).toNat ≤ ringSize x.log2 4 → exec (.rqTail r v) s = .next (s.setReqRing r { x with tail := v })) ∧
      (x.enable = true → ringSize x.log2 4 < (v - x.head).toNat → completes (.rqTail r v) s fun t =>
        t.reqRing r = { x with tail := v, enable := false, error := true } ∧ others t ∧ t.job = s.job)) ∧
    (completes (.rqCfg r v) s fun t => let z := t.reqRing r
      others t ∧ ({ t with srv := s.srv } : State) = s ∧ z.enable = v.getLsbD 5 ∧ z.error = (x.error && !v.getLsbD 6) ∧ z.base = x.base ∧
      (x.enable = true → z.log2 = x.log2 ∧ z.head = x.head ∧ z.tail = x.tail) ∧ (x.enable = false → z.log2 = v.toNat % 32) ∧
      (x.enable = false → v.getLsbD 5 = true → z.head = 0#32 ∧ z.tail = 0#32)) ∧
    (y.held = [] → s.srv.pauseAt = none →
      (completes (.cqCfg r v) s fun t => let z := t.cpl r
        others t ∧ ({ t with srv := s.srv } : State) = s ∧ z.enable = v.getLsbD 5 ∧ z.vector = v.toNat / 128 % 128 ∧ z.base = y.base ∧
        (y.enable = true → z.log2 = y.log2 ∧ z.head = y.head ∧ z.tail = y.tail) ∧ (y.enable = false → z.log2 = v.toNat % 32) ∧
        (y.enable = false → v.getLsbD 5 = true → z.head = 0#32 ∧ z.tail = 0#32)) ∧
      exec (.cqHead r v) s = .next (s.setCpl r { y with head := v })) ∧
    (∀ h rest, y.held = h :: rest → h.ends = none → y.enable = true → (y.tail - v).toNat < ringSize y.log2 4 → rest = [] → s.srv.pauseAt = none →
      y.waiting = false → y.pend + 1 < y.modCount → completes (.cqHead r v) s fun t =>
        (t.cpl r).held = [] ∧ (t.cpl r).tail = y.tail + 1#32 ∧ (t.cpl r).pend = y.pend + 1 ∧ t.host.hostMem = s.host.hostMem.write
          (y.base + 64 * (y.tail.toNat % ringSize y.log2 4))
          (modAt h.entry 11 fun b => b ||| BitVec.ofNat 8 (bitAt 7 (y.tail.toNat / ringSize y.log2 4 % 2 = 0)))) ∧
    (∀ w, w = false ∨ y.pend = 0 → exec (.cqArm r w) s = .next (s.setCpl r { y with waiting := w })) ∧
    (0 < y.pend → completes (.cqArm r true) s fun t => (t.cpl r).pend = 0 ∧ (t.cpl r).waiting = false ∧ others t ∧
      t.host = ((s.sendVector y.vector).host)) ∧
    (0 < y.pend → y.modTimeUs ≠ 0 → completes (.completionModerationTime r) s fun t => (t.cpl r).pend = 0 ∧ others t ∧
      t.gsc = max s.gsc (y.oldest + 1000 * y.modTimeUs) ∧ t.host = ((s.sendVector y.vector).host)) ∧
    (s.recLocked = true → exec (.recCfg v) s = .next s) ∧
    (s.recLocked = false → s.recs.queue = [] → s.srv.stage4 = false → s.srv.pauseAt = none → completes (.recCfg v) s fun t =>
      t.recs.enable = v.getLsbD 5 ∧ t.recs.log2 = v.toNat % 32 ∧ t.recs.vector = v.toNat / 128 % 128 ∧ t.recs.sealMs = v.toNat / 2 ^ 14 % 1024 ∧
      t.recs.base = s.recs.base ∧ (s.recs.enable = false → v.getLsbD 5 = true → t.recs.head = 0#32 ∧ t.recs.tail = 0#32) ∧
      ({ t with recs := s.recs } : State) = s) ∧
    (s.recs.queue = [] → s.srv.stage4 = false → s.srv.pauseAt = none →
      exec (.recHead v) s = .next { s with recs := { s.recs with head := v } }) ∧
    (∀ e, s.recs.queue = [(false, e)] → s.srv.stage4 = false → s.srv.pauseAt = none → s.recs.enable = true →
      (s.recs.tail - v).toNat < ringSize s.recs.log2 12 → completes (.recHead v) s fun t =>
        t.recs.queue = [] ∧ t.recs.tail = s.recs.tail + 1#32 ∧ t.recs.head = v ∧ t.host.hostMem =
          s.host.hostMem.write (s.recs.base + 512 * (s.recs.tail.toNat % ringSize s.recs.log2 12)) e))

/-- R9, R418, R420, R442 to R449, R454: register writes and the management ports. A write that is no aligned 4 B or 8 B write is ignored;
one of a register with a row of its own does what that row does; writable fields take the value and W1C bits clear. An accepted heartbeat
restarts the fence timer and is answered by HB_REPLY; a frame that is not accepted changes nothing; the fence timer raises 0x0C13 and
fences the module of a job under way with SELF_FENCE (0x0C02). SMBus answers the defined codes at the module's own address.
Forms completed: registerWrite, heartbeat, commandFrame, fenceTimer, heartbeatWindow, smbusRead, smbusClockLowTimeout. -/
def Obligations.ManagementAndRegisters : Prop :=
  ∀ (s : State),
    (∀ host addr size v, (size ≠ 4 ∨ addr % 4 ≠ 0) → (size ≠ 8 ∨ addr % 8 ≠ 0) → exec (.registerWrite host addr size v) s = .next s) ∧
    (s.deaf = true → ∀ host addr size v, exec (.registerWrite host addr size v) s = .next s) ∧
    (∀ r (v : W64), s.deaf = false → r < 64 → let w := v.setWidth 32
      exec (.registerWrite true (0x20008 + 32 * r) 4 v) s = exec (.rqCfg r w) s ∧
      exec (.registerWrite true (0x2000C + 32 * r) 4 v) s = exec (.rqTail r w) s ∧
      exec (.registerWrite true (0x20808 + 32 * r) 4 v) s = exec (.cqCfg r w) s ∧
      exec (.registerWrite true (0x2080C + 32 * r) 4 v) s = exec (.cqHead r w) s ∧
      exec (.registerWrite true 0x21008 4 v) s = exec (.recCfg w) s ∧ exec (.registerWrite true 0x2100C 4 v) s = exec (.recHead w) s ∧
      exec (.registerWrite true 0x21808 4 v) s = exec (.evlCfg w) s) ∧
    (∀ ch (v : W64), s.deaf = false → ch < 8 → exec (.registerWrite true (0x10FF0 + 0x2000 * ch) 4 v) s = exec (.mbDoorbell ch (v.setWidth 32)) s) ∧
    (∀ v : W64, s.deaf = false → exec (.registerWrite false 0x33000008 4 v) s = .next { s with power := { s.power with wakeBoundUs := (v.setWidth 32).toNat } } ∧
      exec (.registerWrite false 0x31000050 4 v) s =
        .next ({ s with fab := { s.fab with fence := bits (v.setWidth 32).toNat 15 0 } } : State).fenceSources ∧
      exec (.registerWrite false 0x2D000008 4 v) s = .next { s with pace := { s.pace with gearLead := v.setWidth 32 } } ∧
      exec (.registerWrite false 0x2F000004 4 v) s =
        .next { s with cas := { s.cas with faultValid := s.cas.faultValid && !bit (v.setWidth 32).toNat 24 } } ∧
      exec (.registerWrite false 0x2C000000 4 v) s = .next s) ∧
    (∀ (p : Nat) (f : Bytes), p < 2 → let x := s.mgmtPort p
      (s.sec.boot ≠ .running ∨ s.frameOk p 1 f x.seqHeartbeat = false → exec (.heartbeat p f) s = .next s) ∧
      (s.sec.boot = .running → s.frameOk p 1 f x.seqHeartbeat = true → fld f 6 2 = 16 → completes (.heartbeat p f) s fun t =>
        t.host.fenceStart = s.gsc ∧ t.host.hbLost = false ∧ (t.mgmtPort p).hbValid = true ∧ (t.mgmtPort p).seqHeartbeat = fld f 24 8 ∧
        (∃ g, (t.mgmtPort p).tx = x.tx ++ [g] ∧ sub g 0 6 = mgmtMagic ++ [2#8, BitVec.ofNat 8 p] ∧ sub g 32 8 = sub f 32 8) ∧
        t.mgmtPort (1 - p) = s.mgmtPort (1 - p) ∧ ({ t with host := s.host } : State) = s) ∧
      (s.frameOk p 3 f x.seqCommand = false → exec (.commandFrame p f) s = .next s) ∧
      (s.sec.boot = .running → s.frameOk p 3 f x.seqCommand = true → let b := sub f 32 (fld f 6 2)
        16 ≤ fld f 6 2 → fld f 6 2 = 16 + fld b 2 2 → fld b 2 2 ≤ 4064 → (s.chan (8 + p)).busy = true →
        completes (.commandFrame p f) s fun t => (t.chan (8 + p)).overrun = true ∧ (t.mgmtPort p).seqCommand = fld f 24 8 ∧
          t.host.order = s.host.order ∧ t.cmdOf (8 + p) = s.cmdOf (8 + p)) ∧
      (s.sec.boot = .running → s.frameOk p 3 f x.seqCommand = true → let b := sub f 32 (fld f 6 2)
        16 ≤ fld f 6 2 → fld f 6 2 = 16 + fld b 2 2 → fld b 2 2 ≤ 4064 → (s.chan (8 + p)).busy = false → s.host.order = [] →
        opDefined (fld b 0 2) = true →
        completes (.commandFrame p f) s fun t => t.host.order = [8 + p] ∧ (t.mgmtPort p).seqCommand = fld f 24 8 ∧
          ∃ c, t.cmdOf (8 + p) = some c ∧ c.opcode = fld b 0 2 ∧ c.length = fld b 2 2 ∧ c.payload = b.drop 16 ∧ c.executing = false) ∧
      (x.hbValid = true → completes (.heartbeatWindow p) s fun t => t.gsc = max s.gsc (x.hbAt + s.hbWindow) ∧
        t.mgmtPort p = { x with hbValid := false } ∧ t.mgmtPort (1 - p) = s.mgmtPort (1 - p) ∧ t.job = s.job) ∧
      (x.hbValid = false → exec (.heartbeatWindow p) s = .next s)) ∧
    (s.host.hbLost = true → exec .fenceTimer s = .next s) ∧
    (s.host.hbLost = false → s.power.mode = .run → s.stop = none → completes .fenceTimer s fun t =>
      t.gsc = max s.gsc (s.host.fenceStart + s.hbWindow) ∧ t.host.hbLost = true ∧ (t.mgmtPort 0).hbValid = false ∧
      (t.mgmtPort 1).hbValid = false ∧ t.cores = s.cores ∧
      (s.host.fenceMs ≠ 0 → s.job.state.active = true → s.job.fault = 0#16 →
        t.job.state = .fenced ∧ t.job.fault = 0x0C02#16 ∧ t.fab.fence = 0xFFFF ∧ t.fab.fenceSelf = true) ∧
      (s.host.fenceMs = 0 ∨ s.job.state.active = false → t.job = s.job ∧ t.fab = s.fab)) ∧
    (∀ addr code k withPec, completes (.smbusRead addr code k withPec) s fun t => ({ t with host := { t.host with smbData := s.host.smbData } } : State) = s ∧
      (addr ≠ 0x58 + s.power.straps ∨ s.smbContent code = none → t.host.smbData = none) ∧
      (∀ b, addr = 0x58 + s.power.straps → s.power.supply = .on → s.smbContent code = some (k, b) →
        t.host.smbData = some (smbBytes addr code k b withPec))) ∧
    (completes .smbusClockLowTimeout s fun t => t.gsc = s.gsc + 25000000 ∧ t.host.smbData = none ∧ t.job = s.job)

/-! ### The serving engine's events and the record blocks -/

/-- R278, R281, R282, R285, R286, R292, R293: what reaches the serving engine. A round of fetches takes up to 16 entries of a ring in
order and numbers them as they arrive; a failed read stops the ring (R417). A result unit hands its tokens to the step in flight, and one
that breaks R293 is RESULT_PROTOCOL (0x0701). A prompt that has been read makes its request WAITING; a token id at or above VOCAB is
BAD_DESC, a failed read HOST_ERROR. At the next refill window each enabled customer gains REFILL per window up to BURST. An open boundary
whose stage 4 is held stays as it is.
Forms completed: ringFetch, resultUnit, promptReadDone, requestUrgent, refillWindow. -/
def Obligations.ServingEvents : Prop :=
  ∀ (s : State),
    (∀ v, s.fetching = false → exec (.ringFetch v) s = .next s) ∧
    (∀ v r, s.fetching = true → r < 64 → s.srv.boundary = false → (s.reqRing r).enable = true →
      (∀ k, k < 64 → k ≠ r → (s.reqRing k).enable = false) →
      let x := s.reqRing r
      let k := min 16 (x.tail - x.head).toNat
      let at_ := fun (i : Nat) => x.base + 128 * ((x.head.toNat + i) % ringSize x.log2 4)
      ((∀ i, i < k → (v.read (at_ i) 128).isSome = true) → completes (.ringFetch v) s fun t =>
        t.reqRing r = { x with head := x.head + BitVec.ofNat 32 k } ∧ t.srv.arrival = s.srv.arrival + k ∧
        t.srv.fetched = s.srv.fetched ++ (List.range k).map (fun i => (s.srv.arrival + i, (v.read (at_ i) 128).getD [])) ∧
        (∀ j, j ≠ r → t.reqRing j = s.reqRing j) ∧ ({ t with srv := s.srv } : State) = s) ∧
      (0 < k → v.read (at_ 0) 128 = none → completes (.ringFetch v) s fun t =>
        t.reqRing r = { x with enable := false, error := true } ∧ t.srv.fetched = s.srv.fetched ∧ t.srv.arrival = s.srv.arrival ∧
        t.job = s.job)) ∧
    (∀ c b, s.hasCore c = true → s.bound c 31 = true → (s.queue c 31).kind = .step → 128 ≤ (s.queue c 31).stage.length →
      b = (s.queue c 31).stage.take 128 → s.job.state = .running → s.stop = none → s.srv.cfg.isSome = true →
      s.multi = false ∨ s.fab.lead = true → s.power.mode = .run →
      let q := s.queue c 31
      (∀ r, s.srv.step = some r → fld b 0 4 ≠ r.seq % 2 ^ 32 ∨ fld b 4 4 ≠ r.tokens.length ∨ 28 < fld b 8 1 ∨
          r.samples.length - r.tokens.length < fld b 8 1 → s.job.fault = 0#16 →
        completes (.resultUnit c) s fun t => t.job.fault = 0x0701#16 ∧ t.stop.isSome = true ∧ t.srv = s.srv) ∧
      (∀ r, s.srv.step = some r → s.resultBad b = false → bit (fld b 9 1) 0 = false → completes (.resultUnit c) s fun t =>
        t.srv.step = some { r with tokens := r.tokens ++ (List.range (fld b 8 1)).map fun i => fld b (16 + 4 * i) 4 } ∧
        t.queue c 31 = { q with stage := q.stage.drop 128 } ∧ t.job = s.job ∧ t.cores = s.cores)) ∧
    (∀ id q v, s.req id = some q → q.state = .fetching → s.srv.boundary = false →
      (v.read q.par.promptAddr (4 * q.par.promptLen) = none → completes (.promptReadDone id v) s fun t =>
        (∃ z, t.req id = some z ∧ z.state = .ending ∧ z.status = stHostError) ∧ t.job = s.job) ∧
      (∀ b, v.read q.par.promptAddr (4 * q.par.promptLen) = some b →
        let ids := (List.range q.par.promptLen).map fun i => fld b (4 * i) 4
        ((∃ i, i ∈ ids ∧ s.serveCfg.vocab ≤ i) → completes (.promptReadDone id v) s fun t =>
          (∃ z, t.req id = some z ∧ z.state = .ending ∧ z.status = stBadDesc) ∧ t.far = s.far ∧ t.job = s.job) ∧
        ((∀ i ∈ ids, i < s.serveCfg.vocab) → completes (.promptReadDone id v) s fun t =>
          (∃ z, t.req id = some z ∧ z.state = .waiting ∧ z.tokens = ids ∧ z.waitStart = s.gsc ∧ z.gscWaiting = s.gsc ∧ z.par = q.par) ∧
          t.job = s.job ∧ t.cores = s.cores ∧ t.gsc = s.gsc))) ∧
    (∀ id q v, s.req id = some q → q.state ≠ .fetching → exec (.promptReadDone id v) s = .next s) ∧
    (∀ id q e ws z, s.req id = some q → q.state = .waiting ∨ q.state = .active → q.audit = none → s.srv.boundary = true → s.job.state = .running →
      s.srv.stage4 = true → s.srv.work = .finish e :: ws → s.req e = some z → z.built = false → z.recorded = true → s.canRecord = false →
      s.srv.pauseAt = none → s.stop = none →
      let w := (s.srv.customers.find .init q.par.customer).maxWaitUs
      (w ≠ 0 → exec (.requestUrgent id) s = .next (s.advanceTo (q.waitStart + 1000 * w + 1))) ∧
      (w = 0 → exec (.requestUrgent id) s = .next s)) ∧
    (∀ id, (s.req id = none ∨ s.srv.boundary = false) → exec (.requestUrgent id) s = .next s) ∧
    (s.srv.boundary = false → exec .refillWindow s = .next s) ∧
    (s.srv.boundary = true → s.job.state = .running → s.stop = none → s.srv.pauseAt = none → s.srv.stage4 = false → s.srv.reqs = [] →
      s.srv.fetched = [] → s.srv.changes = [] → s.srv.work = [] → s.cas.loads = [] → s.cas.unloads = [] →
      completes .refillWindow s fun t => let w := t.gsc / s.windowNs
        t.gsc = (if s.gsc / s.windowNs = s.srv.window then max s.gsc ((s.srv.window + 1) * s.windowNs) else s.gsc) ∧
        t.srv.window = w ∧ t.srv.boundary = true ∧ t.job = s.job ∧ t.cores = s.cores ∧
        ∀ c, let x := s.srv.customers.find .init c
          t.srv.customers.find .init c = if x.enabled = true ∧ x.win < w then
            { x with balance := min (x.burst : Int) (x.balance + x.refill * ((w : Int) - x.win)), served := 0, win := w } else x)

/-- R319 to R323, R338: record blocks. SEAL_MS after its first record the open block closes and is staged, unless four are staged
already: then it closes once one is signed. The oldest staged block is signed once its last step is drained, and its seal goes to the
record ring; a vault parity error is module-fatal (0x0902), a failed self-check job-fatal (0x0903), and no seal is written.
Forms completed: blockClose, blockSign. -/
def Obligations.RecordBlocks : Prop :=
  ∀ (s : State),
    (s.recs.opened = none → exec .blockClose s = .next s) ∧
    (∀ b, s.recs.opened = some b → completes .blockClose s fun t => t.gsc = max s.gsc (b.gsc + s.recs.sealNs) ∧
      (s.recs.staged.length < 4 → t.recs = { s.recs with
        opened := none, closeDue := false, staged := s.recs.staged ++ [b], blockNext := s.recs.blockNext + 1 }) ∧
      (4 ≤ s.recs.staged.length → t.recs = { s.recs with closeDue := true }) ∧ t.job = s.job ∧ t.host = s.host) ∧
    (∀ ok ok', s.recs.staged = [] → exec (.blockSign ok ok') s = .next s) ∧
    (∀ b rest, s.recs.staged = b :: rest →
      (∀ ok ok', b.drained = false → s.stepDrained b.lastStep = false → exec (.blockSign ok ok') s = .next s) ∧
      (∀ ok', s.stop = none → b.drained = true ∨ s.stepDrained b.lastStep = true → s.power.resetDue = none → completes (.blockSign false ok') s fun t =>
        t.power.resetDue = some (.moduleFatal 0x0902#16) ∧ t.recs = s.recs ∧ t.host.hostMem = s.host.hostMem) ∧
      (s.stop = none → b.drained = true ∨ s.stepDrained b.lastStep = true → s.power.mode = .run → s.job.state.active = true → s.job.fault = 0#16 →
        completes (.blockSign true false) s fun t => t.job.fault = 0x0903#16 ∧ t.recs = s.recs ∧ t.host.hostMem = s.host.hostMem) ∧
      (s.stop = none → b.drained = true ∨ s.stepDrained b.lastStep = true → s.recs.closeDue = false → s.srv.stage4 = false → s.srv.pauseAt = none →
        s.srv.halted = false → s.recs.queue = [] → s.recs.room = true → (s.host.msix.find .init s.recs.vector).masked = true →
        completes (.blockSign true true) s fun t =>
          let h := s.sealHead b none
          let g := (s.sign h).1
          t.recs.staged = rest ∧ t.recs.opened = s.recs.opened ∧ t.recs.tail = s.recs.tail + 1#32 ∧ t.recs.queue = [] ∧
          t.host.hostMem = s.host.hostMem.write (s.recs.base + 512 * (s.recs.tail.toNat % ringSize s.recs.log2 12))
            (h ++ g.1 ++ g.2 ++ zeros 160) ∧
          t.sec.signs = s.sec.signs + 1 ∧ (t.source (srcOf 0x0705)).state ≠ .idle ∧ t.job = s.job ∧ t.cores = s.cores))

/-! ### Power states, the policy cap, the sensors -/

/-- R476, R478, R480: a planned exit begins at its time and ends its state's latency later; the module is then in RUN with the far memory
out of self-refresh, and after PARK its trim words are built again, its links retrain and its far memory awaits training. A step-due hint lapses at its time.
Forms completed: powerExitPlanned, powerExitDone, stepDueLapse. -/
def Obligations.PowerStates : Prop :=
  ∀ (s : State),
    (s.power.exitPlan = none ∨ s.power.mode = .run ∨ s.power.exiting = true → exec .powerExitPlanned s = .next s) ∧
    (∀ n, s.power.exitPlan = some n → s.power.mode ≠ .run → s.power.exiting = false → completes .powerExitPlanned s fun t =>
      t.gsc = max s.gsc n ∧ t.power.exiting = true ∧ t.power.exitDone = t.gsc + s.power.mode.exitNs ∧ t.power.exitPlan = none ∧
      t.power.mode = s.power.mode ∧ t.far = s.far ∧ t.job = s.job ∧ t.cores = s.cores) ∧
    (s.power.exiting = false → exec .powerExitDone s = .next s) ∧
    (s.power.exiting = true → completes .powerExitDone s fun t => t.gsc = max s.gsc s.power.exitDone ∧ t.power.exiting = false ∧
      t.job = s.job ∧ ((s.advanceTo s.power.exitDone).toRun.idle = false → t.power.mode = .run ∧ t.far.selfRefresh = false ∧
        t.power.exitPlan = none ∧ (s.power.mode = .park → t.pace.calValid = true ∧ t.far.rate = 3 ∧
          ∀ p, (s.port p).state = .active → (t.port p).state = .retraining ∧ (t.port p).phase = 1) ∧ t.cores = s.cores ∧ t.ss = s.ss)) ∧
    (s.power.stepDue = 0 → exec .stepDueLapse s = .next s) ∧
    (s.power.stepDue ≠ 0 → completes .stepDueLapse s fun t =>
      t.gsc = max s.gsc s.power.stepDue ∧ t.power.stepDue = 0 ∧ t.job = s.job)

/-- R482 to R486, R494: each millisecond the policy cap is weighed again: lowered by 1 above 100 °C, raised by 1 after ten milliseconds in a
row at 95 °C or below, CAP under policy 1; a cap below the request for 1 s raises POLICY_LIMIT once. A sample of the sensors is taken
every 100 µs; 110 °C, the input power and the input voltage apply the brake, 120 °C is the module-fatal 0x0A03. After 10 ms of calm the
brake ends with the cap at 8, or CAP. A fault of the converter is module-fatal (0x0A04).
Forms completed: policyCap, sensorSample, brakeOff, converterFault. -/
def Obligations.PolicyAndSensors : Prop :=
  ∀ (s : State), let p := s.power
    (completes .policyCap s fun t => let q := t.power
      t.gsc = max s.gsc p.policyDue ∧ q.policyDue = t.gsc + 1000000 ∧ t.job = s.job ∧ t.cores = s.cores ∧
      (p.policy = 1 → q.policyCap = p.cap) ∧
      (p.policy = 0 →
        (100 < p.tjMax ∨ s.far.hot = true → q.policyCap = p.thermCap - 1) ∧
        (95 < p.tjMax → p.tjMax ≤ 100 → s.far.hot = false → q.policyCap = p.thermCap) ∧
        (p.tjMax ≤ 95 → s.far.hot = false → q.policyCap = if 9 ≤ p.coolMs then min 15 (p.thermCap + 1) else p.thermCap)) ∧
      (q.policyCap < p.requested → p.limitArmed = true → 999 ≤ p.limitMs → q.limitArmed = false ∧ (t.source (srcOf 0x0A06)).state ≠ .idle) ∧
      (p.requested ≤ q.policyCap → q.limitArmed = true ∧ q.limitMs = 0)) ∧
    (∀ r : Sensors, completes (.sensorSample r) s fun t => let q := t.power
      let h := (hottest r.junction).1
      let hot := 110 ≤ h ∨ 2400 < r.pin ∨ 2100 < r.pinAvg ∨ r.vin < 4000
      t.gsc = max s.gsc p.sampleDue ∧ q.sampleDue = t.gsc + 100000 ∧ q.tjMax = min 255 h ∧ q.coolantIn = min 255 r.coolant ∧
      q.vin = min 65535 r.vin ∧ q.pinW = min 65535 r.pinAvg ∧ t.job = s.job ∧ t.cores = s.cores ∧
      (¬ hot → q.brake = p.brake ∧ q.causes = p.causes ∧
        q.calm = (if h < 105 ∧ r.pinAvg < 1900 ∧ 4100 ≤ r.vin then p.calm + 1 else 0)) ∧
      (hot → q.brake = true ∧ (p.brake = false → q.causes = r.causes ∧ q.brakes = min (p.brakes + 1) (2 ^ 16 - 1) ∧
        t.pace.gearNow = 0 ∧ ∀ k, k < 80 → (t.region k).gear = 0)) ∧
      (120 ≤ h → p.thermalOff = false → p.resetDue = none → q.resetDue = some (.moduleFatal 0x0A03#16) ∧ q.thermalOff = true) ∧
      (h < 120 → q.resetDue = p.resetDue)) ∧
    (p.brake = false ∨ p.calm < 100 → exec .brakeOff s = .next s) ∧
    (p.brake = true → 100 ≤ p.calm → completes .brakeOff s fun t => t.power.brake = false ∧ t.power.causes = [] ∧
      t.power.policyCap = (if p.policy = 1 then p.cap else 8) ∧ (t.source (srcOf 0x0A02)).state ≠ .idle ∧ t.job = s.job ∧ t.gsc = s.gsc) ∧
    (completes .converterFault s fun t => (p.resetDue = none → t.power.resetDue = some (.moduleFatal 0x0A04#16)) ∧
      (p.resetDue.isSome = true → t.power.resetDue = p.resetDue) ∧ t.job = s.job ∧ t.cores = s.cores ∧
      (t.source (srcOf 0x0A04)).state ≠ .idle)

/-! ### The links -/

/-- R341, R350 to R352, R356 to R359, R362, R363: one unit time of a port's transmitter. An ACTIVE WL2 port sends a VOID that is due, else a
REPLAY, else a NEW unit that has credit and room, else an IDLE: each takes the next position and carries the ack point and a NAK or the
classes' FREED in turn; a NEW unit's cell is debited and the unit held, a REPLAY is of a held unit, and a ninth of one retrains the port.
The mode of a transfer is fixed from its first unit on. A port in training sends PRBS31 in DETECT and frames, unscrambled, from then on; an off or DOWN port sends nothing.
Forms completed: unitTime. -/
def Obligations.LinkTransmission : Prop :=
  ∀ (s : State) (p : Nat), p < 16 → (∀ e ∈ s.queues, e.2.kind = .fabricSend → (s.queue (e.1 / 32) (e.1 % 32)).stage = []) →
    let x := s.port p
    let only (t : State) : Prop := (∀ q, q ≠ p → t.port q = s.port q) ∧ ({ t with ports := s.ports } : State) = s
    let hdr (kind rseq : Nat) (u : LUnit) : UnitHdr :=
      { kind := kind, cls := u.cls, ack := x.ackPt % 65536, sbk := false, sbv := x.creditTurn % 4 + x.freed.find 0 (x.creditTurn % 4) % 1024 * 4
        rseq := rseq % 65536, dest := u.dest, epoch := u.epoch, xfer := u.xfer, half := u.half, e2e := u.e2e }
    (x.state = .off ∨ x.state = .down → x.pat.pattern = 0 → exec (.unitTime p) s = .next s) ∧
    (x.state = .active → x.modeNow = 1 → x.inj = none → x.resend = [] →
      let sends (t : State) (kind rseq : Nat) (u : LUnit) : Prop := (∀ q, q ≠ p → t.port q = s.port q) ∧
        ({ t with ports := s.ports, fab := { t.fab with owns := s.fab.owns } } : State) = s ∧ (t.port p).txPos = x.txPos + 1 ∧
        (x.naksDue = [] → (t.port p).sentUnit = unitBytes x.txPos 0 (hdr kind rseq u) u.data) ∧
        (∀ n ns, x.naksDue = n :: ns → (t.port p).naksDue = ns ∧ (t.port p).nakAt = x.nakAt.put n s.gsc)
      (x.voidsDue = [] → x.nakReplays = [] → x.timerReplays = [] → x.txq = [] → completes (.unitTime p) s fun t =>
        sends t 2 0 LUnit.none ∧ only t ∧ (t.port p).replayBuf = x.replayBuf ∧ (t.port p).out = x.out ∧
        (t.port p).history = x.history ++ [{ pos := x.txPos, replayable := false, voids := 0 }]) ∧
      (∀ it : TxItem, x.voidsDue = [] → x.nakReplays = [] → x.timerReplays = [] → x.txq = [it] → it.unit.e2e = 0 → it.src = .own →
        it.unit.cls < 4 → s.mayLeave p it.unit.cls = true → cellFits x.out it.unit.cls = true → x.bufUsed < 1024 →
        completes (.unitTime p) s fun t => sends t 0 0 it.unit ∧ (t.port p).txq = [] ∧
          t.fab.owns = s.fab.owns.filter (fun o => o.tid ≠ it.tid) ∧
          (t.port p).out.find 0 it.unit.cls = x.out.find 0 it.unit.cls + 1 ∧
          (t.port p).replayBuf = x.replayBuf ++ [{ pos := x.txPos, unit := it.unit, at_ := s.gsc, count := 0 }] ∧
          (t.port p).history = x.history ++ [{ pos := x.txPos, replayable := true, voids := 0 }]) ∧
      (∀ n ns h, x.txq = [] → x.voidsDue = [] → x.nakReplays = n :: ns → x.replayBuf.find? (fun y => y.pos = n) = some h →
        (h.count < 8 → completes (.unitTime p) s fun t => sends t 1 n h.unit ∧ only t ∧ (t.port p).nakReplays = ns ∧
          (t.port p).replayAt = some s.gsc ∧
          { h with at_ := s.gsc, count := h.count + 1 } ∈ (t.port p).replayBuf ∧ (t.port p).out = x.out) ∧
        (8 ≤ h.count → x.lastRetrain = none → completes (.unitTime p) s fun t => (t.port p).state = .retraining ∧
          (t.port p).lastCause = 0 ∧ (t.port p).retrains = min (x.retrains + 1) (2 ^ 16 - 1) ∧ t.job = s.job ∧
          ∀ q, q ≠ p → t.port q = s.port q)) ∧
      (∀ n ns, x.txq = [] → x.voidsDue = n :: ns → (∀ y ∈ x.history, y.pos = n → y.voids < 8) → completes (.unitTime p) s fun t =>
        sends t 3 n LUnit.none ∧ only t ∧
        (t.port p).replayAt = some s.gsc ∧ (t.port p).voidsDue = ns ∧ (t.port p).replayBuf = x.replayBuf)) ∧
    (x.state = .training →
      (x.phase < 2 → completes (.unitTime p) s fun t => only t ∧ (t.port p).phase = x.phase ∧
        (t.port p).wire = (prbsLanes 6 (if x.x8Test then 8 else 16) x.pat.gens).1) ∧
      (2 ≤ x.phase → completes (.unitTime p) s fun t => (t.port p).phase = x.phase ∧ t.job = s.job ∧
        (t.port p).sentUnit = (s.trainFrame p).1 ∧ (let w := if x.x8Test then 8 else 16
          (t.port p).wire = (List.range w).map (lanePlain w (s.trainFrame p).1)) ∧
        t.gsc = s.gsc ∧ ∀ q, q ≠ p → t.port q = s.port q))

/-- R345, R348 to R350, R353, R355, R356, R359, R391: what a WL2 receiver does. A good NEW unit takes a pool cell and is delivered when no
earlier position is unresolved, and is held otherwise; a unit without a cell is LINK_PROTOCOL and a retrain. A REPLAY of an unresolved
position resolves it, of another is a duplicate; a VOID resolves its position; an uncorrectable unit leaves its position unresolved and
asks for it, and the 64th in a row retrains the port.
Forms completed: newUnit, replayUnit, idleUnit, voidUnit, uncorrectableUnit. -/
def Obligations.LinkReception : Prop :=
  ∀ (s : State) (p : Nat) (u : Bytes), p < 16 → s.power.mode ≠ .park → (s.port p).state = .active → (s.port p).modeNow = 1 →
    let x := s.port p
    let only (t : State) : Prop := (∀ q, q ≠ p → t.port q = s.port q) ∧ ({ t with ports := s.ports } : State) = s
    (unitParse x.rxPos u = none →
      (∀ ok, exec (.newUnit p u ok) s = .next s) ∧ exec (.replayUnit p u) s = .next s ∧ exec (.idleUnit p u) s = .next s ∧
      exec (.voidUnit p u) s = .next s ∧
      (x.badRun < 63 → x.rxPos - x.bad.foldl min x.rxPos ≤ 16384 → completes (.uncorrectableUnit p u) s fun t => only t ∧
        (t.port p).rxPos = x.rxPos + 1 ∧ (t.port p).bad = x.bad ++ [x.rxPos] ∧ (t.port p).naksDue = x.naksDue ++ [x.rxPos] ∧
        (t.port p).badRun = x.badRun + 1 ∧ (t.port p).held = x.held ∧ (t.port p).uncorrAt = some s.gsc) ∧
      (x.badRun = 63 → x.lastRetrain = none → completes (.uncorrectableUnit p u) s fun t =>
        (t.port p).state = .retraining ∧ (t.port p).lastCause = 2 ∧ t.job = s.job ∧ ∀ q, q ≠ p → t.port q = s.port q)) ∧
    (∀ h b n a, unitParse x.rxPos u = some (h, b, n) → nearPos x.txPos h.ack = some a → h.sbk = false →
      let v := h.unit b
      exec (.uncorrectableUnit p u) s = .next s ∧
      (h.kind = 2 → x.bad = [] → x.held = [] → completes (.idleUnit p u) s fun t => only t ∧ (t.port p).rxPos = x.rxPos + 1 ∧
        (t.port p).badRun = 0 ∧ (t.port p).replayBuf = x.replayBuf.filter (fun y => a ≤ y.pos) ∧ (t.port p).cells = x.cells) ∧
      (h.kind = 0 → cellFits x.cells h.cls = true →
        (∀ m, m ∈ x.bad → m < x.rxPos → (∀ k ∈ x.bad, m ≤ k) → (∀ y ∈ x.held, m ≤ y.1) → x.rxPos - m ≤ 16384 →
          completes (.newUnit p u true) s fun t => only t ∧ (t.port p).rxPos = x.rxPos + 1 ∧ (t.port p).bad = x.bad ∧
            (t.port p).held = x.held ++ [(x.rxPos, v, true)] ∧ (t.port p).cells.find 0 h.cls = x.cells.find 0 h.cls + 1) ∧
        (x.bad = [] → x.held = [] → s.fenced p = false ∨ h.cls = 3 → s.maintOnly p = false ∨ h.cls = 3 →
          (s.bank h.epoch).state ≠ .empty → (s.bank h.epoch).state ≠ .draining → (s.bank h.epoch).state ≠ .retired →
          (h.dest = s.fab.addr → s.fab.addrValid = true → h.xfer = 0xFFFE → h.e2e = 0 → s.expected h.xfer = none →
            completes (.newUnit p u true) s fun t => (t.port p).rxPos = x.rxPos + 1 ∧ t.job = s.job ∧ t.cores = s.cores ∧
              t.fab.beacons = s.fab.beacons ++ [{ port := p, at_ := s.gsc, fresh := true, data := b }] ∧
              (t.port p).cells.find 0 h.cls = x.cells.find 0 h.cls ∧ (t.port p).freed.find 0 h.cls = x.freed.find 0 h.cls + 1) ∧
          (∀ q, h.dest ≠ s.fab.addr → h.xfer < 0xFF00 → s.egress h.cls h.dest h.xfer h.epoch = .port q →
            q ≠ p → s.fenced q = false → completes (.newUnit p u true) s fun t =>
              (t.port q).txq = (s.port q).txq ++ [{ unit := v, src := .pool p, seg := 0, tid := 0 }] ∧ t.fab = s.fab ∧ t.job = s.job ∧
              (t.port p).cells.find 0 h.cls = x.cells.find 0 h.cls + 1))) ∧
      (h.kind = 0 → cellFits x.cells h.cls = false → x.lastRetrain = none → completes (.newUnit p u true) s fun t =>
        (t.port p).state = .retraining ∧ (t.port p).lastCause = 1 ∧ (t.port p).held = x.held ∧ (t.source (srcOf 0x0503)).state ≠ .idle ∧
        t.job = s.job) ∧
      (∀ k, h.kind = 1 → nearPos (x.rxPos - 1) h.rseq = some k →
        (x.bad = [] → x.held = [] → completes (.replayUnit p u) s fun t => only t ∧ (t.port p).rxPos = x.rxPos + 1 ∧
          (t.port p).count.find 0 11 = min (x.count.find 0 11 + 1) (2 ^ 64 - 1) ∧ (t.port p).cells = x.cells) ∧
        (∀ m, cellFits x.cells h.cls = true → k ∈ x.bad → m ∈ x.bad → m ≠ k → m < x.rxPos → (∀ j ∈ x.bad, m ≤ j) →
          (∀ y ∈ x.held, m ≤ y.1) → x.rxPos - m ≤ 16384 → completes (.replayUnit p u) s fun t => only t ∧
            (t.port p).bad = x.bad.erase k ∧ (t.port p).held = x.held ++ [(k, v, false)] ∧ (t.port p).rxPos = x.rxPos + 1)) ∧
      (∀ k, h.kind = 3 → nearPos (x.rxPos - 1) h.rseq = some k → x.bad = [k] → x.held = [] → completes (.voidUnit p u) s fun t =>
        only t ∧ (t.port p).bad = [] ∧ (t.port p).rxPos = x.rxPos + 1 ∧ (t.port p).cells = x.cells))

/-- R350, R352, R360 to R365, R376: timers and training. A held unit is sent again REPLAY_NS after it was last sent, a NAK repeated NAK_NS
after the last; the eighth equal frame ends a phase, once the peer shows that it has taken frames of it; a retrain drops the held units before its cells are told; the exchange makes the port ACTIVE in the mode both ends allow, with positions from
0; a phase past its limit, lanes that do not come into order, or no common mode takes the port DOWN, which is LINK_DOWN (0x0501) for a job
under way.
Forms completed: replayTimer, nakRepeat, trainingFrame, trainingTimeout. -/
def Obligations.LinkTraining : Prop :=
  ∀ (s : State) (p : Nat), p < 16 → s.power.mode = .run →
    let x := s.port p
    let only (t : State) : Prop := (∀ q, q ≠ p → t.port q = s.port q) ∧ t.cores = s.cores ∧ t.fab = s.fab
    let isDown (t : State) : Prop := (t.port p).state = .down ∧ (t.port p).downSeen = true ∧ only t ∧
      (s.job.state.active = false → t.job = s.job) ∧
      (s.job.state.active = true → s.job.fault = 0#16 → t.job.fault = 0x0501#16 ∧ t.stop.isSome = true)
    (x.replayBuf = [] → ∀ ok, exec (.replayTimer p ok) s = .next s) ∧
    (∀ h, x.state = .active → x.replayBuf = [h] → x.timerReplays = [] → x.nakReplays = [] →
      (x.modeNow = 1 ∨ x.wl1Resends.find 0 h.pos < 8 → completes (.replayTimer p true) s fun t =>
        t.gsc = max s.gsc (h.at_ + timerNs x.replayNs) ∧ only t ∧ t.job = s.job ∧
        (x.modeNow ≠ 2 → t.port p = { x with timerReplays := [h.pos] }) ∧ (x.modeNow = 2 → x.wl1Resends.find 0 h.pos < 8 → t.port p = { x with
          wl1Next := some h.pos, wl1Resends := x.wl1Resends.put h.pos (x.wl1Resends.find 0 h.pos + 1) })) ∧
      (s.job.state.active = true → s.job.fault = 0#16 → completes (.replayTimer p false) s fun t => t.job.fault = 0x0506#16 ∧ only t)) ∧
    (x.state = .active → x.modeNow = 1 → x.bad = [] → exec (.nakRepeat p) s = .next s) ∧
    (x.state = .active → x.modeNow = 1 → x.bad ≠ [] → x.naksDue = [] → completes (.nakRepeat p) s fun t =>
      t.gsc = max s.gsc (x.nakAt.find 0 x.ackPt + timerNs x.nakNs) ∧ t.port p = { x with naksDue := [x.ackPt] } ∧ only t ∧ t.job = s.job) ∧
    (∀ u ok, (x.state ≠ .training ∧ x.state ≠ .retraining) ∨ x.phase < 2 → exec (.trainingFrame p u ok) s = .next s) ∧
    (∀ u ok, x.state = .training → 2 ≤ x.phase → frameParse u = none → exec (.trainingFrame p u ok) s =
      .next (s.setPort p { x with frameRun := 0, frameKey := [] })) ∧
    (∀ u ok f, x.state = .training → 2 ≤ x.phase → frameParse u = some f → sub f 4 44 = x.frameKey →
      (x.frameRun < 7 → exec (.trainingFrame p u ok) s = .next (s.setPort p { x with frameRun := x.frameRun + 1 })) ∧
      let has := x.phase < fld f 4 1 ∨ (fld f 4 1 = x.phase ∧ fld f 56 8 ≠ 0 ∧ x.phaseAt ≤ fld f 56 8)
      (x.frameRun = 7 → ¬ has → completes (.trainingFrame p u ok) s fun t => only t ∧ t.job = s.job ∧ (t.port p).phase = x.phase ∧
        (t.port p).echo = fld f 48 8 ∧ (t.port p).state = .training) ∧
      (x.frameRun = 7 → has →
        (x.phase = 2 ∨ (x.phase = 3 ∧ ok = true) → completes (.trainingFrame p u ok) s fun t => only t ∧ t.job = s.job ∧
          (t.port p).phase = x.phase + 1 ∧ (t.port p).phaseAt = s.gsc ∧ (t.port p).frameRun = 0 ∧ (t.port p).echo = fld f 48 8 ∧
          (t.port p).state = .training) ∧
        (x.phase = 3 → ok = false → completes (.trainingFrame p u ok) s isDown) ∧
        (x.phase = 4 → x.choose (fld f 5 1) = 0 → completes (.trainingFrame p u ok) s isDown) ∧
        (x.phase = 4 → x.choose (fld f 5 1) ≠ 0 → fld f 56 8 ≠ 0 → s.fab.addrValid = false → completes (.trainingFrame p u ok) s fun t =>
          only t ∧ t.job = s.job ∧ (t.port p).state = .active ∧ (t.port p).modeNow = x.choose (fld f 5 1) ∧ (t.port p).txPos = 0 ∧
          (t.port p).rxPos = 0 ∧ (t.port p).peerAddr = fld f 8 4 % 2 ^ 18 ∧ (t.port p).peerPort = fld f 6 1 ∧
          (t.port p).peerValid = true ∧ (t.port p).miswired = false))) ∧
    (∀ u f, x.state = .retraining → x.phase = 3 → frameParse u = some f → sub f 4 44 = x.frameKey → x.frameRun = 7 → fld f 4 1 = 4 →
      completes (.trainingFrame p u true) s fun t => only t ∧ (t.port p).phase = 4 ∧ (t.port p).held = [] ∧ (t.port p).state = .retraining) ∧
    (x.state = .training → completes (.trainingTimeout p) s fun t => isDown t ∧ t.gsc = max s.gsc (x.phaseAt + phaseLimit false x.phase)) ∧
    (x.state = .retraining → completes (.trainingTimeout p) s fun t => isDown t ∧
      t.gsc = max s.gsc (min (x.phaseAt + phaseLimit true x.phase) (x.trainAt + 200000))) ∧
    (x.state ≠ .training → x.state ≠ .retraining → exec (.trainingTimeout p) s = .next s)

/-- R366, R367, R370 to R372: WL1 packets and end-to-end segments. A packet that cannot be decoded, or is ahead of the SEQ expected, is
asked for again by NAK, one that is behind is a duplicate, the one expected is taken. A trailer's segment is acknowledged by its digest,
its count and its number; RESULT 0 releases the segment at its source, another result or E2E_NS without an answer has it sent again, and
after four resends it fails: job-fatal (0x0502) but for MAINT. A MAINT segment takes the route of its destination anew; without one it is
discarded, counted, and held.
Forms completed: wl1Packet, e2eTrailer, e2eAcknowledgement, e2eTimeout. -/
def Obligations.PacketsAndSegments : Prop :=
  ∀ (s : State) (p : Nat), p < 16 → s.power.mode = .run →
    let x := s.port p
    let only (t : State) : Prop := (∀ q, q ≠ p → t.port q = s.port q) ∧ ({ t with ports := s.ports } : State) = s
    (∀ b fec, x.state ≠ .active ∨ x.modeNow ≠ 2 → exec (.wl1Packet p b fec) s = .next s) ∧
    (x.state = .active → x.modeNow = 2 → ∀ b,
      (x.badRun < 63 → x.wl1Nak = none → completes (.wl1Packet p b none) s fun t => only t ∧ (t.port p).badRun = x.badRun + 1 ∧
        (t.port p).naksDue = [x.seqRx] ∧ (t.port p).wl1Nak = some s.gsc ∧ (t.port p).seqRx = x.seqRx) ∧
      (∀ h d, ∀ fec, packetParse b = some (h, d) → h.kind = 0 → h.sbk = false → let ahead := (h.rseq + 65536 - x.seqRx) % 65536
        (32768 ≤ ahead → completes (.wl1Packet p b (some fec)) s fun t => only t ∧ (t.port p).seqRx = x.seqRx ∧ (t.port p).badRun = 0 ∧
          (t.port p).count.find 0 11 = min (x.count.find 0 11 + 1) (2 ^ 64 - 1) ∧ (t.port p).cells = x.cells) ∧
        (0 < ahead → ahead < 32768 → x.wl1Nak = none → completes (.wl1Packet p b (some fec)) s fun t => only t ∧
          (t.port p).naksDue = [x.seqRx] ∧ (t.port p).seqRx = x.seqRx ∧ (t.port p).cells = x.cells) ∧
        (ahead = 0 → cellFits x.cells h.cls = true → s.fenced p = false → s.maintOnly p = false → h.dest = s.fab.addr → h.xfer = 0xFFFE →
          h.e2e = 0 → s.expected h.xfer = none → (s.bank h.epoch).state ≠ .empty → (s.bank h.epoch).state ≠ .draining → (s.bank h.epoch).state ≠ .retired →
          completes (.wl1Packet p b (some fec)) s fun t => (t.port p).seqRx = (x.seqRx + 1) % 65536 ∧ (t.port p).wl1Nak = none ∧
            t.fab.beacons = s.fab.beacons ++ [{ port := p, at_ := s.gsc, fresh := true, data := d }] ∧ t.job = s.job))) ∧
    (s.fab.trailers = [] → exec .e2eTrailer s = .next s) ∧
    (∀ u rest q, s.fab.trailers = u :: rest → sub u.data 0 4 = [0x57#8, 0x4C#8, 0x45#8, 0x54#8] →
      let src := fld u.data 4 4 % 2 ^ 18; let xfer := fld u.data 8 2; let seg := fld u.data 10 2
      let e := s.e2eRxOf xfer u.cls
      let b := e.held.flatMap fun i => i.unit.bytes
      let seen := s.e2eSeenOf src xfer u.cls
      let cls := if u.cls = 3 then 3 else 2
      s.ownPort cls src xfer s.fab.active = some (.inl q) → seen.whole = false ∨ seg ≠ 0 →
      let answers (t : State) (res : Nat) : Prop := t.fab.trailers = rest ∧ t.job = s.job ∧ t.cores = s.cores ∧
        (t.e2eRxOf xfer u.cls).held = [] ∧
        (t.port q).txq = (s.port q).txq ++ (cutUnits cls src s.fab.active xfer 3 (padTo 256 ([0x57#8, 0x4C#8, 0x45#8, 0x41#8] ++
          leBytes 4 s.fab.addr ++ leBytes 2 xfer ++ leBytes 2 seg ++ leBytes 4 res))).map fun v => { unit := v, src := .own, seg := 0, tid := 0 }
      (seg = seen.next → b.length = fld u.data 12 4 → sha384 b = sub u.data 16 48 → completes .e2eTrailer s fun t => answers t 0 ∧
        (t.e2eSeenOf src xfer u.cls).next = seen.next + 1 ∧ (t.e2eSeenOf src xfer u.cls).got = seen.got + b.length) ∧
      (seg < seen.next → completes .e2eTrailer s fun t => answers t 0 ∧ t.e2eSeenOf src xfer u.cls = seen) ∧
      (seg = seen.next → b.length = fld u.data 12 4 → sha384 b ≠ sub u.data 16 48 → completes .e2eTrailer s fun t => answers t 1 ∧
        t.e2eSeenOf src xfer u.cls = seen) ∧
      (seen.next < seg ∨ (seg = seen.next ∧ b.length ≠ fld u.data 12 4) → completes .e2eTrailer s fun t => answers t 2 ∧
        t.e2eSeenOf src xfer u.cls = seen)) ∧
    (∀ u rest, s.fab.trailers = u :: rest → sub u.data 0 4 ≠ [0x57#8, 0x4C#8, 0x45#8, 0x54#8] →
      exec .e2eTrailer s = .next { s with fab := { s.fab with trailers := rest } }) ∧
    (s.fab.acks = [] → exec .e2eAcknowledgement s = .next s) ∧
    (∀ u rest g, s.fab.acks = u :: rest → sub u.data 0 4 = [0x57#8, 0x4C#8, 0x45#8, 0x41#8] → x.segs = [g] →
      (∀ k, k < 16 → k ≠ p → (s.port k).segs = []) → g.dest = fld u.data 4 4 % 2 ^ 18 → g.xfer = fld u.data 8 2 →
      g.num = fld u.data 10 2 → g.sentAt.isSome = true →
      let again := g.units.map fun v => { unit := v, src := .own, seg := g.num, tid := g.tid }
      (fld u.data 12 4 = 0 → completes .e2eAcknowledgement s fun t => t.fab.acks = rest ∧ t.cores = s.cores ∧ t.job = s.job ∧
        t.port p = { x with segs := [] } ∧ ∀ k, k ≠ p → t.port k = s.port k) ∧
      (fld u.data 12 4 ≠ 0 → g.resends < 4 → g.cls ≠ 3 → completes .e2eAcknowledgement s fun t => t.fab.acks = rest ∧ t.cores = s.cores ∧
        t.job = s.job ∧ (t.port p).segs = [{ g with resends := g.resends + 1, sentAt := none }] ∧ (t.port p).txq = x.txq ++ again ∧
        ∀ k, k ≠ p → t.port k = s.port k) ∧
      (fld u.data 12 4 ≠ 0 → g.resends < 4 → g.cls = 3 →
        (∀ q, q ≠ p → s.maintRoute g.dest s.fab.active = .port q → completes .e2eAcknowledgement s fun t => t.fab.acks = rest ∧
          t.job = s.job ∧ (t.port p).segs = [] ∧ (t.port p).txq = x.txq ∧ (t.port q).txq = (s.port q).txq ++ again ∧
          (t.port q).segs = (s.port q).segs ++ [{ g with resends := g.resends + 1, sentAt := none }]) ∧
        (s.maintRoute g.dest s.fab.active = .discard → completes .e2eAcknowledgement s fun t => t.fab.acks = rest ∧ t.job = s.job ∧
          (t.port p).segs = [{ g with resends := g.resends + 1, sentAt := some s.gsc }] ∧ (t.port p).txq = x.txq ∧
          t.fab.discards = min (s.fab.discards + 1) (2 ^ 64 - 1)))) ∧
    (x.segs = [] → exec (.e2eTimeout p) s = .next s) ∧
    (∀ g n, x.segs = [g] → g.sentAt = some n → completes (.e2eTimeout p) s fun t => t.gsc = max s.gsc (n + max 5000 x.e2eNs) ∧ t.cores = s.cores ∧
      (g.cls ≠ 3 ∨ 4 ≤ g.resends → ∀ k, k ≠ p → t.port k = s.port k) ∧
      (g.resends < 4 → g.cls ≠ 3 → (t.port p).segs = [{ g with resends := g.resends + 1, sentAt := none }] ∧ t.job = s.job) ∧
      (4 ≤ g.resends → (t.port p).segs = [] ∧ (t.source (srcOf 0x0502)).state ≠ .idle ∧ (g.cls = 3 → t.job = s.job) ∧
        (g.cls ≠ 3 → s.job.state.active = true → s.job.fault = 0#16 → t.job.fault = 0x0502#16 ∧ t.stop.isSome = true)))

/-! ### The fabric's events -/

/-- R398 to R401: beacons. The lead sends one on each child port every BEACON_US with its SEQ and GSC; a module that receives one as a NEW
unit on its parent port takes its offset from it, is aligned after eight in a row within 3 ns, steps GSC forward outside a job when it is
more than 1 µs behind and no reference loss forbids it, slews GSC toward offset 0 otherwise, and sends the beacon on; a hundred periods without one during a job are GSC_UNSYNC (0x0603).
Forms completed: beaconPeriod, beacon, gscUnsync. -/
def Obligations.Beacons : Prop :=
  ∀ (s : State), let f := s.fab
    let gets (t : State) (p : Nat) (b : Bytes) : Prop := ∃ tid, (t.port p).txq = (s.port p).txq ++
      if p ∈ s.childPorts then ownItems f.addr 1 (s.port p).peerAddr f.active 0xFFFE tid false b else []
    (f.lead = false ∨ s.image = none ∨ f.moduleCount ≤ 1 → exec .beaconPeriod s = .next s) ∧
    (f.lead = true → s.image.isSome = true → 1 < f.moduleCount → completes .beaconPeriod s fun t => t.gsc = max s.gsc f.beaconDue ∧
      ({ t.fab with owns := f.owns, nextTid := f.nextTid } : Fabric) = { f with beaconSeq := f.beaconSeq + 1, beaconDue := t.gsc + f.beaconNs } ∧ t.job = s.job ∧ t.cores = s.cores ∧
      ∀ p, p < 16 → gets t p (beaconBytes f.addr f.beaconSeq t.gsc 0)) ∧
    (f.beacons = [] → exec .beacon s = .next s) ∧
    (∀ r rest, f.beacons = r :: rest →
      (r.fresh = false ∨ s.parentPort ≠ some r.port ∨ fld r.data 4 4 ≠ f.leadAddr →
        exec .beacon s = .next { s with fab := { f with beacons := rest } }) ∧
      (r.fresh = true → s.parentPort = some r.port → sub r.data 0 4 = [0x57#8, 0x4C#8, 0x47#8, 0x42#8] → fld r.data 4 4 = f.leadAddr →
        let d := (s.port r.port).delayPs
        let off : Int := (r.at_ : Int) * 1000 - (fld r.data 16 8 : Int) * 1000 - (fld r.data 24 8 : Int) - (d : Int)
        completes .beacon s fun t => t.fab.offsetPs = off ∧ t.fab.beacons = rest ∧ t.fab.beaconAt = s.gsc ∧
          t.fab.good = (if -3000 ≤ off ∧ off ≤ 3000 then min 8 (f.good + 1) else 0) ∧ t.fab.aligned = decide (t.fab.good = 8) ∧
          t.gsc = (if off < -1000000 ∧ s.job.state.active = false ∧ f.slewOnly = false then s.gsc + (-off).toNat / 1000 else s.gsc) ∧ t.job = s.job ∧
          t.fab.slewLeft = (if off < -1000000 ∧ s.job.state.active = false ∧ f.slewOnly = false then 0 else -1000 * off) ∧
          (t.fab.slewOnly = true ↔ f.slewOnly = true ∧ t.fab.good ≠ 8) ∧
          ∀ p, p < 16 → gets t p
            (beaconBytes (fld r.data 4 4) (fld r.data 8 8) (fld r.data 16 8) (fld r.data 24 8 + d + (s.gsc - r.at_) * 1000)))) ∧
    (s.multi = true → s.job.state.active = true → f.lead = false → s.power.mode = .run → s.job.fault = 0#16 →
      completes .gscUnsync s fun t => t.gsc = max s.gsc (f.beaconAt + 100 * f.beaconNs) ∧ t.job.fault = 0x0603#16 ∧
        t.stop.isSome = true ∧ t.fab = f) ∧
    (s.multi = false ∨ s.job.state.active = false ∨ f.lead = true → exec .gscUnsync s = .next s)

/-- R403 to R405, R489: launch and job stop between the ranks. A rank accepts a launch unit when its job is ready, it is aligned, the three
digests are its own and the count lies 10 µs ahead, and answers either way; the lead answers the launching command once every rank has
accepted, and a refusal, or one that is missing 5 µs before the count, is LAUNCH_FAILED (0x0604). A job-stop unit stops the job with the
origin's code and rank.
Forms completed: launchUnit, launchAck, launchFailed, jobStopUnit. -/
def Obligations.LaunchAndStop : Prop :=
  ∀ (s : State), let f := s.fab
    (s.multi = false ∨ f.lead = true → ∀ n a b c, exec (.launchUnit n a b c) s = .next s) ∧
    (s.multi = true → f.lead = false → s.power.mode = .run → ∀ n im man rk,
      let ok := s.startable = true ∧ s.alignedNow = true ∧ s.image.map (fun i => i.digest) = some im ∧ s.recs.manifestDigest = man ∧
        f.ranksDigest = rk ∧ s.gsc + 10000 ≤ n
      completes (.launchUnit n im man rk) s fun t => t.job = s.job ∧ t.gsc = s.gsc ∧ t.cores = s.cores ∧
        (ok → t.fab.startAt = some n ∧ t.fab.launchAt = n ∧ t.fab.sent = f.sent ++ [(f.leadRank, .answer true)]) ∧
        (¬ ok → t.fab.startAt = f.startAt ∧ t.fab.launchAt = f.launchAt ∧ t.fab.sent = f.sent ++ [(f.leadRank, .answer false)])) ∧
    (f.launch = none → exec .launchFailed s = .next s ∧ ∀ r a, exec (.launchAck r a) s = .next s) ∧
    (∀ l, f.launch = some l →
      (∀ r, r ∈ s.otherRanks → r ∉ l.accepted → (∃ k, k ∈ s.otherRanks ∧ k ≠ r ∧ k ∉ l.accepted) →
        exec (.launchAck r true) s = .next { s with fab := { f with launch := some { l with accepted := r :: l.accepted } } }) ∧
      (∀ r, r ∈ s.otherRanks → r ∉ l.accepted → (∀ k ∈ s.otherRanks, k ≠ r → k ∈ l.accepted) → l.answered = false →
        exec (.launchAck r true) s = .next (({ s with fab := { f with
          launch := some { l with accepted := r :: l.accepted, answered := true } } } : State).respond l.chan (.ok (leBytes 8 l.at_)))) ∧
      (∀ r, s.power.mode = .run → s.job.state.active = true → s.job.fault = 0#16 → completes (.launchAck r false) s fun t =>
        t.fab.launch = none ∧ t.job.fault = 0x0604#16 ∧ t.stop.isSome = true ∧ t.gsc = s.gsc) ∧
      ((∀ k ∈ s.otherRanks, k ∈ l.accepted) → exec .launchFailed s = .next s) ∧
      ((∃ k, k ∈ s.otherRanks ∧ k ∉ l.accepted) → s.power.mode = .run → s.job.state.active = true → s.job.fault = 0#16 →
        l.answered = false → ∀ c, s.cmdOf l.chan = some c → completes .launchFailed s fun t =>
          t.gsc = max s.gsc (l.at_ - 5000) ∧ t.fab.launch = none ∧ t.job.fault = 0x0604#16 ∧ t.stop.isSome = true ∧
          t.cmdOf l.chan = none ∧ ∃ z, (t.chan l.chan).resp = some z ∧ z.result = 3#16 ∧ z.fault = 0x0604#16)) ∧
    (∀ r code, s.multi = true → s.job.state.active = true → s.stop = none → s.job.fault = 0#16 → s.power.mode = .run → code < 2 ^ 16 →
      completes (.jobStopUnit r code) s fun t => t.job.fault = BitVec.ofNat 16 code ∧ t.job.faultRank = BitVec.ofNat 32 r ∧
        t.stop = some { region := none, jobStopped := true, selfFence := false } ∧ t.fab = f ∧ t.cores = s.cores ∧ t.gsc = s.gsc) ∧
    (∀ r code, s.multi = false ∨ s.job.state.active = false ∨ s.stop.isSome = true → exec (.jobStopUnit r code) s = .next s)

/-- R321, R406, R407: the lead counts a rank's report, and the step drained at every rank is cleared; a rank keeps the highest step
cleared. A descriptor from the lead reaches the landing area of q31 of every core that binds it, in order.

R389, R394, R395: at the switch count the LOADED bank becomes ACTIVE and the other DRAINING; a DRAINING bank of which the module holds
no unit any more is RETIRED.
Forms completed: stepDrained, stepClear, leadStepDescriptor, epochSwitch, bankDrained. -/
def Obligations.StepsAndBanks : Prop :=
  (∀ (s : State), let f := s.fab
    (∀ r n, s.multi = true → f.lead = true → s.job.state.active = true → s.stop = none → r < f.moduleCount →
      completes (.stepDrained r n) s fun t =>
        let rep := fun k => if k = r then max (f.reports.find 0 r) (n + 1) else f.reports.find 0 k
        (∀ k, t.fab.reports.find 0 k = rep k) ∧ t.cores = s.cores ∧
        ((∀ k ∈ s.otherRanks, ∀ c, s.ownPort 2 (f.ranks.find 0 k) 0xFFFC f.active ≠ some (.inr c)) → t.job = s.job ∧ t.gsc = s.gsc) ∧
        (∀ low, low ≤ n → (∀ k, k < f.moduleCount → low + 1 ≤ rep k) → (low = n ∨ ∃ k, k < f.moduleCount ∧ rep k = low + 1) →
          t.fab.clearStep = match f.clearStep with | some c => some (max c low) | none => some low)) ∧
    (∀ r n, s.multi = false ∨ f.lead = false ∨ s.job.state.active = false ∨ s.stop.isSome = true →
      exec (.stepDrained r n) s = .next s) ∧
    (∀ n, s.multi = true → f.lead = false → s.job.state.active = true → exec (.stepClear n) s = .next { s with fab := { f with
      clearStep := some (max n (f.clearStep.getD 0)) } }) ∧
    (∀ n, s.multi = false ∨ f.lead = true ∨ s.job.state.active = false → exec (.stepClear n) s = .next s) ∧
    (∀ b, s.multi = false ∨ f.lead = true ∨ s.job.state ≠ .running ∨ s.stop.isSome = true → exec (.leadStepDescriptor b) s = .next s) ∧
    (∀ b, s.multi = true → f.lead = false → s.job.state = .running → s.stop = none → s.power.mode = .run →
      (∀ c, s.ownPort 2 (f.ranks.find 0 f.leadRank) 0xFFFC f.active ≠ some (.inr c)) → s.srv.changes = [] → s.cas.loads = [] → s.cas.unloads = [] → Map.sorted s.queues = true →
      completes (.leadStepDescriptor b) s fun t => t.job = s.job ∧ t.cores = s.cores ∧ t.gsc = s.gsc ∧
        (fld b 0 8 = ones64 → t.srv.paused = true ∧ t.srv.stepSeq = s.srv.stepSeq) ∧
        (fld b 0 8 ≠ ones64 → t.srv.stepSeq = fld b 0 8 + 1 ∧ t.srv.paused = s.srv.paused) ∧
        ∀ c h, h < 32 → s.bound c h = true → let q := s.queue c h
          (q.kind ≠ .step → t.queue c h = q) ∧
          (q.kind = .step → t.queue c h = { q with
            land := landPut q.land (q.done + (q.land.filter fun x => q.done < x.1).length + 1) b }))) ∧
  (∀ (s : State), let f := s.fab
    (f.switchDue = false → exec .epochSwitch s = .next s) ∧
    (f.switchDue = true → f.active ≤ 1 → (s.bank f.active).state = .active → completes .epochSwitch s fun t =>
      t.gsc = max s.gsc f.switchAt ∧ t.fab.active = 1 - f.active ∧ t.fab.switchDue = false ∧
      t.bank (1 - f.active) = { s.bank (1 - f.active) with state := .active } ∧
      t.bank f.active = { s.bank f.active with state := .draining, oldSeen := 0 } ∧ (t.source (srcOf 0x0608)).state ≠ .idle ∧
      t.cores = s.cores ∧
      (f.owns = [] → (∀ e ∈ s.queues, e.2.kind ≠ .fabricSend) → t.ports = s.ports ∧ t.job = s.job)) ∧
    (∀ b, b < 2 → (s.bank b).state ≠ .draining ∨ s.drain b ≠ 0 → exec (.bankDrained b) s = .next s) ∧
    (∀ b, b < 2 → (s.bank b).state = .draining → s.drain b = 0 → completes (.bankDrained b) s fun t =>
      t.bank b = { s.bank b with state := .retired } ∧ t.bank (1 - b) = s.bank (1 - b) ∧ (t.source (srcOf 0x0609)).state ≠ .idle ∧
      t.ports = s.ports ∧ t.job = s.job ∧ t.gsc = s.gsc))

/-! ### Reset -/

/-- R9, R14, R48, R56, R92, R94, R217, R311, R376, R389, R412, R414, R424, R436, R441, R446, R496: what State.reset leaves in the registers the spec
gives a reset value: no job, rings disabled, ports off, no fault. That GSC and the register files are 0, that the supply is on, and that
unwritten bytes of the stacked store and the far memory read 0 is the model's choice (log entries 4, 5, 6).

R25 at reset: no region has issued a tick, no token is held, no region is held before a gate. -/
def Obligations.ResetValues : Prop :=
  (
  let s := State.reset
  s.gsc = 0 ∧ s.job.state = .idle ∧ s.image = none ∧ s.stop = none ∧ s.pending = [] ∧ s.power.mode = .run ∧ s.power.brake = false ∧
  s.power.wdtTimeoutMs = 1000 ∧ s.power.wakeBoundUs = 2000 ∧ s.power.stepDue = 0 ∧ s.power.resetDue = none ∧ s.host.fenceMs = 400 ∧
  s.host.udpPort = 50910 ∧ s.host.order = [] ∧ s.host.evc.stack = [] ∧ s.host.evc.order = false ∧ s.host.evc.evlEnable = false ∧
  s.host.pci.vendor = 0x1F7E#16 ∧ s.host.pci.device = 0x0D09#16 ∧ s.host.pci.revision = 0xB1#8 ∧ s.host.pci.classCode = 0x120000#24 ∧
  s.host.pci.subVendor = 0x1F7E#16 ∧ s.allHeld = false ∧ s.far.bgEnlarged = false ∧
  s.recs.enable = false ∧ s.fab.addrValid = false ∧ s.fab.fence = 0 ∧ s.fab.active = 0 ∧ s.fab.beaconUs = 10 ∧ s.coreRegs.faultValid = false ∧
  (∀ c, (s.core c) = Core.init ∧ (s.chan c).busy = false ∧ (s.reqRing c).enable = false ∧ (s.cpl c).enable = false ∧
    (s.source c).state = .idle ∧ (s.port c).replayNs = 2000 ∧ (s.port c).nakNs = 2000 ∧ (s.port c).e2eNs = 20000 ∧
    (s.port c).downMs = 1000 ∧ (s.bank c).state = .empty ∧ (s.bank c).dir = List.range 12 ∧ s.ss.get c = 0#8 ∧ s.far.mem.get c = 0#8)) ∧
  (
 State.reset.leadLimit ∧ State.reset.tokensIssued ∧ State.reset.gatesHold)

/-- R490, R491, R453, R494: a module-fatal reset ends the job and clears cores, stores, queues, serving state and far memory; GSC, fuses
and what the host has received stay, PWR_LAST_RESET holds the kind and the code, and the fault waits to be logged first. A SEC_RESET does
the same without a fault. With none due nothing happens; a reset by heat keeps the module off until it has been below 90 °C for 10 s.
Forms completed: moduleFatalReset, thermalRestart. -/
def Obligations.ModuleReset : Prop :=
  ∀ (s : State),
    let cleared (t : State) : Prop := t.job = .init ∧ t.image = none ∧ t.stop = none ∧ t.cores = [] ∧ t.ss = [] ∧ t.queues = [] ∧
      t.regions = [] ∧ t.flights = [] ∧ t.far = .init ∧ t.srv = .init ∧ t.recs = .init ∧ t.coreRegs = .init ∧ t.sec.fuses = s.sec.fuses ∧
      t.sec.fw = s.sec.fw ∧ t.power.resetDue = none ∧ t.host.order = [] ∧ t.host.hostMem = s.host.hostMem ∧
      t.host.winRefused = s.host.winRefused ∧ t.pending = s.pending ∧ t.fab.addrValid = false
    (s.power.resetDue = none → exec .moduleFatalReset s = .next s) ∧
    (∀ c, s.power.resetDue = some (.moduleFatal c) → completes .moduleFatalReset s fun t => cleared t ∧ t.gsc = s.gsc ∧
      t.power.lastResetKind = 1 ∧ t.power.lastResetCode = c ∧ t.host.evc.resetLog = some (c.toNat, s.gsc) ∧
      (s.power.thermalOff = true → t.sec.boot = .thermalOff) ∧
      (s.power.thermalOff = false → s.sec.fuses.lc ≠ 0 → s.sec.fuses.lc ≠ 5 → s.fwCheck s.sec.fw = 0 → t.sec.boot = .running ∧
        ∀ p, p < 16 → (t.port p).state = .training)) ∧
    (s.power.resetDue = some .secReset → completes .moduleFatalReset s fun t => cleared t ∧ t.gsc = s.gsc ∧ t.power.lastResetKind = 2 ∧
      t.host.evc.resetLog = none) ∧
    (s.power.coldSince = none ∨ s.sec.boot ≠ .thermalOff → exec .thermalRestart s = .next s) ∧
    (∀ n, s.power.coldSince = some n → s.sec.boot = .thermalOff → completes .thermalRestart s fun t => cleared t ∧
      t.gsc = max s.gsc (n + 10000000000) ∧ t.power.thermalOff = false ∧ t.power.lastResetKind = 1 ∧
      t.power.lastResetCode = s.power.lastResetCode)

/-- R465, R471, R497 to R499, R503, R505: supply and tampering. The rails come up when PWR_EN has risen with the input in range, go down
when it falls or the input leaves its range, and after a lockout once the input has been good for 10 ms; with the power go all registers
and memories but fuses and flash. A tamper advances OWNER_EPOCH, zeroises the vault and is the module-fatal 0x0901.
Forms completed: tamperDetection, pwrEnRise, powerOnReset, pwrEnFall, undervoltageLockout, overvoltageLockout, vinTurnOn. -/
def Obligations.PowerSequence : Prop :=
  ∀ (s : State), let w := s.power
    let lost (t : State) : Prop := t.gsc = 0 ∧ t.job = .init ∧ t.image = none ∧ t.cores = [] ∧ t.ss = [] ∧ t.far = .init ∧ t.queues = [] ∧
      t.recs = .init ∧ t.sec.boot = .rom ∧ t.sec.fuses = s.sec.fuses ∧ t.sec.fw = s.sec.fw ∧ t.host.hostMem = s.host.hostMem ∧
      t.power.residency = [] ∧ t.power.modReady = false ∧ t.power.perstN = w.perstN
    (w.pwrEn = true → exec .pwrEnRise s = .next s) ∧
    (w.pwrEn = false → w.supply = .off → completes .pwrEnRise s fun t => lost t ∧ t.power.supply = .on ∧ t.power.pwrEn = true) ∧
    (w.pwrEn = false → w.supply ≠ .off → exec .pwrEnRise s = .next { s with power := { w with pwrEn := true } }) ∧
    (∀ x, w.supply ≠ .on ∨ s.sec.boot ≠ .rom → exec (.powerOnReset x) s = .next s) ∧
    (∀ x : BitVec 2, w.supply = .on → s.sec.boot = .rom → completes (.powerOnReset x) s fun t =>
      t.power.straps = x.toNat ∧ t.power.modReady = true ∧ t.gsc = s.gsc ∧ t.sec.fuses = s.sec.fuses ∧
      (s.sec.fuses.lc = 5 → t.sec.boot = .halted) ∧ (s.sec.fuses.lc = 0 → t.sec.boot = .recovery ∧ t.sec.recCause = 5) ∧
      (s.sec.fuses.lc ≠ 0 → s.sec.fuses.lc ≠ 5 → s.fwCheck s.sec.fw ≠ 0 → t.sec.boot = .recovery ∧ t.sec.recCause = s.fwCheck s.sec.fw) ∧
      (s.sec.fuses.lc ≠ 0 → s.sec.fuses.lc ≠ 5 → s.fwCheck s.sec.fw = 0 → t.sec.boot = .running ∧ t.sec.udsLocked = true ∧
        ∀ p, p < 16 → (t.port p).state = if (s.port p).mode = 0 then .off else .training)) ∧
    (w.pwrEn = false → exec .pwrEnFall s = .next s) ∧
    (w.pwrEn = true → w.supply ≠ .lockedOut → completes .pwrEnFall s fun t => lost t ∧ t.power.supply = .off ∧ t.power.pwrEn = false) ∧
    (w.pwrEn = true → w.supply = .lockedOut → exec .pwrEnFall s = .next { s with power := { w with pwrEn := false } }) ∧
    (∀ i ∈ [Instr.undervoltageLockout, Instr.overvoltageLockout],
      (w.supply ≠ .on → exec i s = .next s) ∧
      (w.supply = .on → completes i s fun t => lost t ∧ t.power.supply = .lockedOut ∧ t.power.pwrEn = w.pwrEn)) ∧
    (w.supply ≠ .lockedOut → exec .vinTurnOn s = .next s) ∧
    (w.supply = .lockedOut → exec .vinTurnOn s = .next { s with power := { w with supply := if w.pwrEn then .on else .off } }) ∧
    (∀ c, 1 ≤ c → c ≤ 4 → w.supply = .on → completes (.tamperDetection c) s fun t => t.sec.owner = none ∧ t.sec.ak = none ∧
      t.sec.ik = none ∧ t.sec.nonce = none ∧ t.sec.fuses.ownerEpoch = min 64 (s.sec.fuses.ownerEpoch + 1) ∧
      t.sec.tamperDue = some (c, s.gsc) ∧ t.recs.staged = [] ∧ t.recs.opened = none ∧ t.cores = s.cores ∧ t.gsc = s.gsc ∧
      (w.resetDue = none → t.power.resetDue = some (.moduleFatal 0x0901#16)))

/-! ### The slot encodings -/

/-- R95, R127, R128, R129, R138, R142, R155, R157, R170, R177: in each of the six slot languages a word decodes to an instruction exactly
when it is that instruction's word: every operand field reaches its instruction whole, and a word with a reserved bit set, or of an opcode
no table defines, is no instruction.

R95: the six instructions of a bundle are decoded each from its own slot: the bundle of six instructions decodes to them in order. -/
def Obligations.SlotEncodings : Prop :=
  ((∀ w h o, w < 2 ^ 48 → (decodeCt w = some (h, o) ↔ w = encodeCt h o)) ∧
  (∀ w h o, w < 2 ^ 40 → (decodeMx w = some (h, o) ↔ w = encodeMx h o)) ∧
  (∀ w h o, w < 2 ^ 48 → (decodeVx w = some (h, o) ↔ w = encodeVx h o)) ∧
  (∀ w h o, w < 2 ^ 40 → (decodeLs w = some (h, o) ↔ w = encodeLs h o)) ∧
  (∀ w h o, w < 2 ^ 40 → (decodeMv w = some (h, o) ↔ w = encodeMv h o)) ∧
  (∀ w h o, w < 2 ^ 40 → (decodeQx w = some (h, o) ↔ w = encodeQx h o))) ∧
  (∀ (h0 h1 h2 h3 h4 h5 : Hdr) (ct : CtOp) (mx : MxOp) (vx : VxOp) (ls : LsOp) (mv : MvOp) (qx : QxOp),
    decodeBundle (encodeSlot (.ct h0 ct) + encodeSlot (.mx h1 mx) + encodeSlot (.vx h2 vx) + encodeSlot (.ls h3 ls) +
      encodeSlot (.mv h4 mv) + encodeSlot (.qx h5 qx)) =
    [some (.ct h0 ct), some (.mx h1 mx), some (.vx h2 vx), some (.ls h3 ls), some (.mv h4 mv), some (.qx h5 qx)])

/-- R129, R138, R142, R157, R170, R177: words written out from the encoding tables. PRED 0 with PN 0 is always enabled, for p0 reads 1. -/
def Obligations.SlotWordsDecode : Prop :=
  let always : Hdr := ⟨0#3, false⟩
  decodeCt 0b000010_000_0_00011_00001_0_0_00010_000000000000000000000 = some (always, .add ⟨3#5, 1#5, .reg 2#5, false⟩) ∧
  decodeLs 0b00001_000_0_000101_0010_0000_00_000000010000000 = some (always, .vld ⟨5#6, 2#4, 0#4, 0#2, 128#15⟩) ∧
  decodeMx 0b00010_000_0_01_0_0000000000000100_000000000000 = some (always, .mma ⟨1#2, .imm 4#16⟩) ∧
  decodeVx 0b000011_000_0_000001_000010_000011_000100_00_000_000_000000 =
    some (always, .vfma ⟨1#6, 2#6, 3#6, 4#6, 0#2, 0#3, 0#3⟩) ∧
  decodeMv 0b00100_000_0_101_0011_000000000000000000000000 = some (always, .mrecv 5#3 3#4) ∧
  decodeQx 0b00011_000_0_110_0000000000000000000000000000 = some (always, .qwait 6#3)
end

