-- ==== Sys2Proof/Laws/Bytes.lean ====
section
/-! SUPPORT. Lengths and parts of byte strings: fields, padding, digests. -/
namespace Sys2Proof.Machine

@[simp] theorem leBytes_length (n x : Nat) : (leBytes n x).length = n := by
  induction n generalizing x with
  | zero => rfl
  | succ n ih => simp [leBytes, ih]

@[simp] theorem beBytes_length (n x : Nat) : (beBytes n x).length = n := by simp [beBytes]

@[simp] theorem zeros_length (n : Nat) : (zeros n).length = n := by simp [zeros]

@[simp] theorem padTo_length (n : Nat) (b : Bytes) : (padTo n b).length = n := by simp [padTo]; omega

/-- A little-endian field of `n` bytes holds what fits in them. -/
theorem leNat_leBytes (n x : Nat) : leNat (leBytes n x) = x % 256 ^ n := by
  induction n generalizing x with
  | zero => simp [leBytes, leNat, Nat.mod_one]
  | succ n ih =>
    simp only [leBytes, leNat, ih, BitVec.toNat_ofNat]
    rw [show (256 : Nat) ^ (n + 1) = 256 * 256 ^ n from Nat.pow_succ', Nat.mod_mul]; omega

/-- A part of the first of two joined strings. -/
theorem sub_append_left {a b : Bytes} {o n : Nat} (h : o + n ≤ a.length) : sub (a ++ b) o n = sub a o n := by
  simp only [sub]
  rw [List.drop_append_of_le_length (by omega), List.take_append_of_le_length (by simp; omega)]

/-- A part of the second of two joined strings. -/
theorem sub_append_right {a b : Bytes} {m o n : Nat} (h : m = a.length + o) : sub (a ++ b) m n = sub b o n := by
  subst h
  simp only [sub, List.drop_append, Nat.add_sub_cancel_left]
  rw [List.drop_eq_nil_of_le (by omega), List.nil_append]

/-- A part that lies within a string has its length. -/
theorem sub_length {b : Bytes} {o n : Nat} (h : o + n ≤ b.length) : (sub b o n).length = n := by
  simp [sub]; omega

theorem shaRound_length (h : List W64) (x : W64 × W64) : (shaRound h x).length = h.length := by
  unfold shaRound
  split <;> rfl

theorem shaBlock_length (h : List W64) (b : Bytes) : (shaBlock h b).length = h.length := by
  have : ∀ (l : List (W64 × W64)) (g : List W64), (l.foldl shaRound g).length = g.length := by
    intro l
    induction l with
    | nil => intro g; rfl
    | cons x l ih => intro g; rw [List.foldl_cons, ih, shaRound_length]
  simp [shaBlock, this]

theorem shaBlocks_length (n : Nat) (m : Bytes) (h : List W64) : (shaBlocks n m h).length = h.length := by
  induction n generalizing m h with
  | zero => rfl
  | succ n ih => rw [shaBlocks, ih, shaBlock_length]

/-- A SHA-384 digest is 48 bytes. -/
@[simp] theorem sha384_length (m : Bytes) : (sha384 m).length = 48 := by
  have h : ∀ l : List W64, (l.flatMap fun x => beBytes 8 x.toNat).length = 8 * l.length := by
    intro l
    induction l with
    | nil => rfl
    | cons x l ih => simp only [List.flatMap_cons, List.length_append, List.length_cons, ih, beBytes_length]; omega
  simp only [sha384, h, List.length_take, shaBlocks_length]
  rfl

/-- A signature is two numbers of 48 bytes. -/
theorem ecdsaSign_length (d k : Nat) (h : Bytes) : (ecdsaSign d k h).1.length = 48 ∧ (ecdsaSign d k h).2.length = 48 := by
  simp [ecdsaSign]

end Sys2Proof.Machine
end

