-- ==== Sys2Proof/Laws/Map.lean ====
section
/-! SUPPORT. Laws of finite tables and byte memories: read after write, and the canonical form every operation keeps. -/
namespace Sys2Proof

/-! ### Reading after writing -/

theorem Map.find_del_same {α : Type} (m : Map α) (d : α) (k : Nat) : (Map.del m k).find d k = d := by
  induction m with
  | nil => rfl
  | cons e m ih => obtain ⟨a, v⟩ := e; by_cases h : a = k <;> simp [Map.del, Map.find, h, ih]

theorem Map.find_del_other {α : Type} (m : Map α) (d : α) {k j : Nat} (h : j ≠ k) :
    (Map.del m k).find d j = m.find d j := by
  induction m with
  | nil => rfl
  | cons e m ih =>
    obtain ⟨a, v⟩ := e
    by_cases ha : a = k
    · subst ha; simp [Map.del, Map.find, ih, Ne.symm h]
    · simp [Map.del, Map.find, ha, ih]

theorem Map.find_ins_same {α : Type} (m : Map α) (d : α) (k : Nat) (x : α) (h : Map.has m k = false) :
    (Map.ins m k x).find d k = x := by
  induction m with
  | nil => simp [Map.ins, Map.find]
  | cons e m ih =>
    obtain ⟨a, v⟩ := e
    simp only [Map.has, Bool.or_eq_false_iff, beq_eq_false_iff_ne] at h
    by_cases hk : k < a
    · simp [Map.ins, Map.find, hk]
    · simp [Map.ins, Map.find, hk, h.1, ih h.2]

theorem Map.find_ins_other {α : Type} (m : Map α) (d : α) {k j : Nat} (x : α) (h : j ≠ k) :
    (Map.ins m k x).find d j = m.find d j := by
  induction m with
  | nil => simp [Map.ins, Map.find, Ne.symm h]
  | cons e m ih =>
    obtain ⟨a, v⟩ := e
    by_cases hk : k < a
    · simp [Map.ins, Map.find, hk, Ne.symm h]
    · simp [Map.ins, Map.find, hk, ih]

theorem Map.has_del {α : Type} (m : Map α) (k j : Nat) : (Map.del m k).has j = (m.has j && j != k) := by
  induction m with
  | nil => rfl
  | cons e m ih =>
    obtain ⟨a, v⟩ := e
    by_cases ha : a = k
    · subst ha
      simp only [Map.del, if_true, ih, Map.has]
      by_cases hj : j = a
      · subst hj; simp
      · rw [show (a == j) = false by simpa using Ne.symm hj]; simp
    · simp only [Map.del, ha, if_false, Map.has, ih]
      by_cases haj : a = j
      · subst haj; simp [ha]
      · rw [show (a == j) = false by simpa using haj]; simp

theorem Map.has_ins {α : Type} (m : Map α) (k j : Nat) (x : α) : (Map.ins m k x).has j = (m.has j || k == j) := by
  induction m with
  | nil => simp [Map.ins, Map.has]
  | cons e m ih =>
    obtain ⟨a, v⟩ := e
    by_cases hk : k < a
    · simp [Map.ins, Map.has, hk, Bool.or_comm]
    · simp [Map.ins, Map.has, hk, ih, Bool.or_assoc]

/-- What is written is what is read. -/
@[simp] theorem Map.find_put_same {α : Type} (m : Map α) (d : α) (k : Nat) (x : α) : (m.put k x).find d k = x :=
  Map.find_ins_same _ _ _ _ (by simp [Map.has_del])

/-- A write leaves every other key alone. -/
theorem Map.find_put_other {α : Type} (m : Map α) (d : α) {k j : Nat} (x : α) (h : j ≠ k) :
    (m.put k x).find d j = m.find d j := by
  rw [Map.put, Map.find_ins_other _ _ _ h, Map.find_del_other _ _ h]

theorem Map.find_put {α : Type} (m : Map α) (d : α) (k j : Nat) (x : α) :
    (m.put k x).find d j = if j = k then x else m.find d j := by
  by_cases h : j = k
  · subst h; simp
  · simp [h, Map.find_put_other]

@[simp] theorem Map.has_put {α : Type} (m : Map α) (k j : Nat) (x : α) : (m.put k x).has j = (m.has j || k == j) := by
  rw [Map.put, Map.has_ins, Map.has_del]
  by_cases h : k = j
  · subst h; simp
  · rw [show (k == j) = false by simpa using h, show (j != k) = true by simpa using Ne.symm h]; simp

/-! ### Strictly rising keys -/

theorem Map.sorted_tail {α : Type} {e : Nat × α} {m : Map α} (h : Map.sorted (e :: m) = true) : Map.sorted m = true := by
  cases m with
  | nil => rfl
  | cons f m => simp [Map.sorted] at h; exact h.2

/-- Strictly rising, as a statement about every later entry. -/
theorem Map.sorted_cons {α : Type} (a : Nat) (v : α) (m : Map α) :
    Map.sorted ((a, v) :: m) = true ↔ (∀ e ∈ m, a < e.1) ∧ Map.sorted m = true := by
  induction m generalizing a v with
  | nil => simp [Map.sorted]
  | cons e m ih =>
    obtain ⟨b, w⟩ := e
    simp only [Map.sorted, Bool.and_eq_true, decide_eq_true_eq, List.mem_cons, forall_eq_or_imp]
    constructor
    · rintro ⟨h, hs⟩
      exact ⟨⟨h, fun e he => Nat.lt_trans h (((ih b w).1 hs).1 e he)⟩, hs⟩
    · rintro ⟨⟨h, _⟩, hs⟩
      exact ⟨h, hs⟩

theorem Map.mem_del {α : Type} (m : Map α) (k : Nat) (e : Nat × α) (h : e ∈ Map.del m k) : e ∈ m := by
  induction m with
  | nil => simp [Map.del] at h
  | cons f m ih =>
    obtain ⟨a, v⟩ := f
    by_cases ha : a = k
    · simp only [Map.del, ha, if_true] at h; exact List.mem_cons_of_mem _ (ih h)
    · simp only [Map.del, ha, if_false, List.mem_cons] at h
      rcases h with h | h
      · exact h ▸ List.mem_cons_self ..
      · exact List.mem_cons_of_mem _ (ih h)

theorem Map.mem_ins {α : Type} (m : Map α) (k : Nat) (x : α) (e : Nat × α) (h : e ∈ Map.ins m k x) : e = (k, x) ∨ e ∈ m := by
  induction m with
  | nil => simpa [Map.ins] using h
  | cons f m ih =>
    obtain ⟨a, v⟩ := f
    by_cases hk : k < a
    · simpa [Map.ins, hk] using h
    · simp only [Map.ins, hk, if_false, List.mem_cons] at h
      rcases h with h | h
      · exact .inr (h ▸ List.mem_cons_self ..)
      · rcases ih h with h | h
        · exact .inl h
        · exact .inr (List.mem_cons_of_mem _ h)

theorem Map.sorted_del {α : Type} (m : Map α) (k : Nat) (h : Map.sorted m = true) : Map.sorted (Map.del m k) = true := by
  induction m with
  | nil => rfl
  | cons e m ih =>
    obtain ⟨a, v⟩ := e
    by_cases ha : a = k
    · simp only [Map.del, ha, if_true]; exact ih (Map.sorted_tail h)
    · simp only [Map.del, ha, if_false]
      exact (Map.sorted_cons a v _).2 ⟨fun e he => ((Map.sorted_cons a v m).1 h).1 e (Map.mem_del m k e he), ih (Map.sorted_tail h)⟩

theorem Map.sorted_ins {α : Type} (m : Map α) (k : Nat) (x : α) (h : Map.sorted m = true) (hn : Map.has m k = false) :
    Map.sorted (Map.ins m k x) = true := by
  induction m with
  | nil => rfl
  | cons e m ih =>
    obtain ⟨a, v⟩ := e
    have hs := (Map.sorted_cons a v m).1 h
    simp only [Map.has, Bool.or_eq_false_iff, beq_eq_false_iff_ne] at hn
    by_cases hk : k < a
    · simp only [Map.ins, hk, if_true]
      refine (Map.sorted_cons k x _).2 ⟨fun e he => ?_, h⟩
      rcases List.mem_cons.1 he with rfl | he
      · exact hk
      · exact Nat.lt_trans hk (hs.1 e he)
    · simp only [Map.ins, hk, if_false]
      refine (Map.sorted_cons a v _).2 ⟨fun e he => ?_, ih hs.2 hn.2⟩
      rcases Map.mem_ins m k x e he with rfl | he
      · exact Nat.lt_of_le_of_ne (Nat.le_of_not_lt hk) hn.1
      · exact hs.1 e he

/-- A write keeps the keys strictly rising. -/
theorem Map.sorted_put {α : Type} (m : Map α) (k : Nat) (x : α) (h : Map.sorted m = true) : Map.sorted (m.put k x) = true :=
  Map.sorted_ins _ _ _ (Map.sorted_del m k h) (by simp [Map.has_del])

/-! ### Byte memories -/

@[simp] theorem Mem.get_set_same (m : Mem) (a : Nat) (b : Byte) : (m.set a b).get a = b := by
  unfold Mem.set Mem.get
  split
  · next h => subst h; exact Map.find_del_same ..
  · simp

theorem Mem.get_set_other (m : Mem) {a x : Nat} (b : Byte) (h : x ≠ a) : (m.set a b).get x = m.get x := by
  unfold Mem.set Mem.get
  split
  · exact Map.find_del_other _ _ h
  · exact Map.find_put_other _ _ _ h

/-- A write of bytes leaves every address outside its range alone. -/
theorem Mem.get_write_outside (m : Mem) (a : Nat) (b : Bytes) {x : Nat} (h : x < a ∨ a + b.length ≤ x) :
    (m.write a b).get x = m.get x := by
  induction b generalizing m a with
  | nil => rfl
  | cons y ys ih =>
    simp only [List.length_cons] at h
    rw [Mem.write, ih _ _ (by omega), Mem.get_set_other _ _ (by omega)]

/-- A byte of the range reads as it was written. -/
theorem Mem.get_write_inside (m : Mem) (a i : Nat) (b : Bytes) (h : i < b.length) : (m.write a b).get (a + i) = b.getD i 0#8 := by
  induction b generalizing m a i with
  | nil => simp at h
  | cons y ys ih =>
    cases i with
    | zero => rw [Mem.write, Nat.add_zero, Mem.get_write_outside _ _ _ (by omega)]; simp
    | succ i =>
      simp only [List.length_cons] at h
      rw [Mem.write, show a + (i + 1) = a + 1 + i by omega, ih _ _ _ (by omega)]; simp

theorem Mem.wf_iff (m : Mem) : m.wf = true ↔ Map.sorted m = true ∧ ∀ e ∈ m, e.2 ≠ 0#8 := by
  simp [Mem.wf]

@[simp] theorem Mem.wf_nil : Mem.wf [] = true := rfl

/-- Writing a byte keeps the canonical form. -/
theorem Mem.wf_set (m : Mem) (a : Nat) (b : Byte) (h : m.wf = true) : (m.set a b).wf = true := by
  rw [Mem.wf_iff] at h ⊢
  unfold Mem.set
  split
  · exact ⟨Map.sorted_del m a h.1, fun e he => h.2 e (Map.mem_del m a e he)⟩
  · next hb =>
    refine ⟨Map.sorted_put m a b h.1, fun e he => ?_⟩
    rcases Map.mem_ins _ a b e he with rfl | he
    · exact hb
    · exact h.2 e (Map.mem_del m a e he)

/-- Writing bytes keeps the canonical form. -/
theorem Mem.wf_write (m : Mem) (a : Nat) (b : Bytes) (h : m.wf = true) : (m.write a b).wf = true := by
  induction b generalizing m a with
  | nil => exact h
  | cons y ys ih => exact ih _ _ (Mem.wf_set m a y h)

theorem Map.sorted_filter {α : Type} (m : Map α) (p : Nat × α → Bool) (h : Map.sorted m = true) :
    Map.sorted (List.filter p m) = true := by
  induction m with
  | nil => rfl
  | cons e m ih =>
    obtain ⟨a, v⟩ := e
    have hs := (Map.sorted_cons a v m).1 h
    by_cases hp : p (a, v) = true
    · rw [List.filter_cons_of_pos hp]
      exact (Map.sorted_cons a v _).2 ⟨fun e he => hs.1 e (List.mem_of_mem_filter he), ih hs.2⟩
    · rw [List.filter_cons_of_neg hp]; exact ih hs.2

/-- Zeroing a range keeps the canonical form. -/
theorem Mem.wf_clear (m : Mem) (a n : Nat) (h : m.wf = true) : (m.clear a n).wf = true := by
  rw [Mem.wf_iff] at h ⊢
  exact ⟨Map.sorted_filter m _ h.1, fun e he => h.2 e (List.mem_of_mem_filter he)⟩

/-! ### Folds -/

/-- What every pass of a fold keeps, the fold keeps. -/
theorem foldl_keeps {α β γ : Type} (v : α → γ) (f : α → β → α) (h : ∀ a b, v (f a b) = v a) (l : List β) (a : α) :
    v (l.foldl f a) = v a := by
  induction l generalizing a with
  | nil => rfl
  | cons b l ih => rw [List.foldl_cons, ih, h]

end Sys2Proof
end

