-- ==== Sys2Proof/Laws/State.lean ====
section
/-! SUPPORT. One lemma per field per update of the state: what an update leaves, and what it writes. -/
namespace Sys2Proof.Machine

/-! ### setCore -/

@[simp] theorem State.setCore_part (s : State) (c : Nat) (k : Core) : (s.setCore c k).part = s.part := rfl
@[simp] theorem State.setCore_gsc (s : State) (c : Nat) (k : Core) : (s.setCore c k).gsc = s.gsc := rfl
@[simp] theorem State.setCore_free (s : State) (c : Nat) (k : Core) : (s.setCore c k).free = s.free := rfl
@[simp] theorem State.setCore_pace (s : State) (c : Nat) (k : Core) : (s.setCore c k).pace = s.pace := rfl
@[simp] theorem State.setCore_regions (s : State) (c : Nat) (k : Core) : (s.setCore c k).regions = s.regions := rfl
@[simp] theorem State.setCore_coreRegs (s : State) (c : Nat) (k : Core) : (s.setCore c k).coreRegs = s.coreRegs := rfl
@[simp] theorem State.setCore_flights (s : State) (c : Nat) (k : Core) : (s.setCore c k).flights = s.flights := rfl
@[simp] theorem State.setCore_ss (s : State) (c : Nat) (k : Core) : (s.setCore c k).ss = s.ss := rfl
@[simp] theorem State.setCore_ssErr (s : State) (c : Nat) (k : Core) : (s.setCore c k).ssErr = s.ssErr := rfl
@[simp] theorem State.setCore_ssLines (s : State) (c : Nat) (k : Core) : (s.setCore c k).ssLines = s.ssLines := rfl
@[simp] theorem State.setCore_ssLost (s : State) (c : Nat) (k : Core) : (s.setCore c k).ssLost = s.ssLost := rfl
@[simp] theorem State.setCore_far (s : State) (c : Nat) (k : Core) : (s.setCore c k).far = s.far := rfl
@[simp] theorem State.setCore_queues (s : State) (c : Nat) (k : Core) : (s.setCore c k).queues = s.queues := rfl
@[simp] theorem State.setCore_image (s : State) (c : Nat) (k : Core) : (s.setCore c k).image = s.image := rfl
@[simp] theorem State.setCore_job (s : State) (c : Nat) (k : Core) : (s.setCore c k).job = s.job := rfl
@[simp] theorem State.setCore_stop (s : State) (c : Nat) (k : Core) : (s.setCore c k).stop = s.stop := rfl
@[simp] theorem State.setCore_stopTicks (s : State) (c : Nat) (k : Core) : (s.setCore c k).stopTicks = s.stopTicks := rfl
@[simp] theorem State.setCore_host (s : State) (c : Nat) (k : Core) : (s.setCore c k).host = s.host := rfl
@[simp] theorem State.setCore_power (s : State) (c : Nat) (k : Core) : (s.setCore c k).power = s.power := rfl
@[simp] theorem State.setCore_sec (s : State) (c : Nat) (k : Core) : (s.setCore c k).sec = s.sec := rfl
@[simp] theorem State.setCore_cas (s : State) (c : Nat) (k : Core) : (s.setCore c k).cas = s.cas := rfl
@[simp] theorem State.setCore_srv (s : State) (c : Nat) (k : Core) : (s.setCore c k).srv = s.srv := rfl
@[simp] theorem State.setCore_recs (s : State) (c : Nat) (k : Core) : (s.setCore c k).recs = s.recs := rfl
@[simp] theorem State.setCore_ports (s : State) (c : Nat) (k : Core) : (s.setCore c k).ports = s.ports := rfl
@[simp] theorem State.setCore_fab (s : State) (c : Nat) (k : Core) : (s.setCore c k).fab = s.fab := rfl
@[simp] theorem State.setCore_test (s : State) (c : Nat) (k : Core) : (s.setCore c k).test = s.test := rfl
@[simp] theorem State.setCore_pending (s : State) (c : Nat) (k : Core) : (s.setCore c k).pending = s.pending := rfl

/-! ### setRegion -/

@[simp] theorem State.setRegion_part (s : State) (r : Nat) (x : Region) : (s.setRegion r x).part = s.part := rfl
@[simp] theorem State.setRegion_gsc (s : State) (r : Nat) (x : Region) : (s.setRegion r x).gsc = s.gsc := rfl
@[simp] theorem State.setRegion_free (s : State) (r : Nat) (x : Region) : (s.setRegion r x).free = s.free := rfl
@[simp] theorem State.setRegion_pace (s : State) (r : Nat) (x : Region) : (s.setRegion r x).pace = s.pace := rfl
@[simp] theorem State.setRegion_cores (s : State) (r : Nat) (x : Region) : (s.setRegion r x).cores = s.cores := rfl
@[simp] theorem State.setRegion_coreRegs (s : State) (r : Nat) (x : Region) : (s.setRegion r x).coreRegs = s.coreRegs := rfl
@[simp] theorem State.setRegion_flights (s : State) (r : Nat) (x : Region) : (s.setRegion r x).flights = s.flights := rfl
@[simp] theorem State.setRegion_ss (s : State) (r : Nat) (x : Region) : (s.setRegion r x).ss = s.ss := rfl
@[simp] theorem State.setRegion_ssErr (s : State) (r : Nat) (x : Region) : (s.setRegion r x).ssErr = s.ssErr := rfl
@[simp] theorem State.setRegion_ssLines (s : State) (r : Nat) (x : Region) : (s.setRegion r x).ssLines = s.ssLines := rfl
@[simp] theorem State.setRegion_ssLost (s : State) (r : Nat) (x : Region) : (s.setRegion r x).ssLost = s.ssLost := rfl
@[simp] theorem State.setRegion_far (s : State) (r : Nat) (x : Region) : (s.setRegion r x).far = s.far := rfl
@[simp] theorem State.setRegion_queues (s : State) (r : Nat) (x : Region) : (s.setRegion r x).queues = s.queues := rfl
@[simp] theorem State.setRegion_image (s : State) (r : Nat) (x : Region) : (s.setRegion r x).image = s.image := rfl
@[simp] theorem State.setRegion_job (s : State) (r : Nat) (x : Region) : (s.setRegion r x).job = s.job := rfl
@[simp] theorem State.setRegion_stop (s : State) (r : Nat) (x : Region) : (s.setRegion r x).stop = s.stop := rfl
@[simp] theorem State.setRegion_stopTicks (s : State) (r : Nat) (x : Region) : (s.setRegion r x).stopTicks = s.stopTicks := rfl
@[simp] theorem State.setRegion_host (s : State) (r : Nat) (x : Region) : (s.setRegion r x).host = s.host := rfl
@[simp] theorem State.setRegion_power (s : State) (r : Nat) (x : Region) : (s.setRegion r x).power = s.power := rfl
@[simp] theorem State.setRegion_sec (s : State) (r : Nat) (x : Region) : (s.setRegion r x).sec = s.sec := rfl
@[simp] theorem State.setRegion_cas (s : State) (r : Nat) (x : Region) : (s.setRegion r x).cas = s.cas := rfl
@[simp] theorem State.setRegion_srv (s : State) (r : Nat) (x : Region) : (s.setRegion r x).srv = s.srv := rfl
@[simp] theorem State.setRegion_recs (s : State) (r : Nat) (x : Region) : (s.setRegion r x).recs = s.recs := rfl
@[simp] theorem State.setRegion_ports (s : State) (r : Nat) (x : Region) : (s.setRegion r x).ports = s.ports := rfl
@[simp] theorem State.setRegion_fab (s : State) (r : Nat) (x : Region) : (s.setRegion r x).fab = s.fab := rfl
@[simp] theorem State.setRegion_test (s : State) (r : Nat) (x : Region) : (s.setRegion r x).test = s.test := rfl
@[simp] theorem State.setRegion_pending (s : State) (r : Nat) (x : Region) : (s.setRegion r x).pending = s.pending := rfl

/-! ### setQueue -/

@[simp] theorem State.setQueue_part (s : State) (c h : Nat) (q : Queue) : (s.setQueue c h q).part = s.part := rfl
@[simp] theorem State.setQueue_gsc (s : State) (c h : Nat) (q : Queue) : (s.setQueue c h q).gsc = s.gsc := rfl
@[simp] theorem State.setQueue_free (s : State) (c h : Nat) (q : Queue) : (s.setQueue c h q).free = s.free := rfl
@[simp] theorem State.setQueue_pace (s : State) (c h : Nat) (q : Queue) : (s.setQueue c h q).pace = s.pace := rfl
@[simp] theorem State.setQueue_regions (s : State) (c h : Nat) (q : Queue) : (s.setQueue c h q).regions = s.regions := rfl
@[simp] theorem State.setQueue_cores (s : State) (c h : Nat) (q : Queue) : (s.setQueue c h q).cores = s.cores := rfl
@[simp] theorem State.setQueue_coreRegs (s : State) (c h : Nat) (q : Queue) : (s.setQueue c h q).coreRegs = s.coreRegs := rfl
@[simp] theorem State.setQueue_flights (s : State) (c h : Nat) (q : Queue) : (s.setQueue c h q).flights = s.flights := rfl
@[simp] theorem State.setQueue_ss (s : State) (c h : Nat) (q : Queue) : (s.setQueue c h q).ss = s.ss := rfl
@[simp] theorem State.setQueue_ssErr (s : State) (c h : Nat) (q : Queue) : (s.setQueue c h q).ssErr = s.ssErr := rfl
@[simp] theorem State.setQueue_ssLines (s : State) (c h : Nat) (q : Queue) : (s.setQueue c h q).ssLines = s.ssLines := rfl
@[simp] theorem State.setQueue_ssLost (s : State) (c h : Nat) (q : Queue) : (s.setQueue c h q).ssLost = s.ssLost := rfl
@[simp] theorem State.setQueue_far (s : State) (c h : Nat) (q : Queue) : (s.setQueue c h q).far = s.far := rfl
@[simp] theorem State.setQueue_image (s : State) (c h : Nat) (q : Queue) : (s.setQueue c h q).image = s.image := rfl
@[simp] theorem State.setQueue_job (s : State) (c h : Nat) (q : Queue) : (s.setQueue c h q).job = s.job := rfl
@[simp] theorem State.setQueue_stop (s : State) (c h : Nat) (q : Queue) : (s.setQueue c h q).stop = s.stop := rfl
@[simp] theorem State.setQueue_stopTicks (s : State) (c h : Nat) (q : Queue) : (s.setQueue c h q).stopTicks = s.stopTicks := rfl
@[simp] theorem State.setQueue_host (s : State) (c h : Nat) (q : Queue) : (s.setQueue c h q).host = s.host := rfl
@[simp] theorem State.setQueue_power (s : State) (c h : Nat) (q : Queue) : (s.setQueue c h q).power = s.power := rfl
@[simp] theorem State.setQueue_sec (s : State) (c h : Nat) (q : Queue) : (s.setQueue c h q).sec = s.sec := rfl
@[simp] theorem State.setQueue_cas (s : State) (c h : Nat) (q : Queue) : (s.setQueue c h q).cas = s.cas := rfl
@[simp] theorem State.setQueue_srv (s : State) (c h : Nat) (q : Queue) : (s.setQueue c h q).srv = s.srv := rfl
@[simp] theorem State.setQueue_recs (s : State) (c h : Nat) (q : Queue) : (s.setQueue c h q).recs = s.recs := rfl
@[simp] theorem State.setQueue_ports (s : State) (c h : Nat) (q : Queue) : (s.setQueue c h q).ports = s.ports := rfl
@[simp] theorem State.setQueue_fab (s : State) (c h : Nat) (q : Queue) : (s.setQueue c h q).fab = s.fab := rfl
@[simp] theorem State.setQueue_test (s : State) (c h : Nat) (q : Queue) : (s.setQueue c h q).test = s.test := rfl
@[simp] theorem State.setQueue_pending (s : State) (c h : Nat) (q : Queue) : (s.setQueue c h q).pending = s.pending := rfl

/-! ### setChan -/

@[simp] theorem State.setChan_part (s : State) (c : Nat) (x : Channel) : (s.setChan c x).part = s.part := rfl
@[simp] theorem State.setChan_gsc (s : State) (c : Nat) (x : Channel) : (s.setChan c x).gsc = s.gsc := rfl
@[simp] theorem State.setChan_free (s : State) (c : Nat) (x : Channel) : (s.setChan c x).free = s.free := rfl
@[simp] theorem State.setChan_pace (s : State) (c : Nat) (x : Channel) : (s.setChan c x).pace = s.pace := rfl
@[simp] theorem State.setChan_regions (s : State) (c : Nat) (x : Channel) : (s.setChan c x).regions = s.regions := rfl
@[simp] theorem State.setChan_cores (s : State) (c : Nat) (x : Channel) : (s.setChan c x).cores = s.cores := rfl
@[simp] theorem State.setChan_coreRegs (s : State) (c : Nat) (x : Channel) : (s.setChan c x).coreRegs = s.coreRegs := rfl
@[simp] theorem State.setChan_flights (s : State) (c : Nat) (x : Channel) : (s.setChan c x).flights = s.flights := rfl
@[simp] theorem State.setChan_ss (s : State) (c : Nat) (x : Channel) : (s.setChan c x).ss = s.ss := rfl
@[simp] theorem State.setChan_ssErr (s : State) (c : Nat) (x : Channel) : (s.setChan c x).ssErr = s.ssErr := rfl
@[simp] theorem State.setChan_ssLines (s : State) (c : Nat) (x : Channel) : (s.setChan c x).ssLines = s.ssLines := rfl
@[simp] theorem State.setChan_ssLost (s : State) (c : Nat) (x : Channel) : (s.setChan c x).ssLost = s.ssLost := rfl
@[simp] theorem State.setChan_far (s : State) (c : Nat) (x : Channel) : (s.setChan c x).far = s.far := rfl
@[simp] theorem State.setChan_queues (s : State) (c : Nat) (x : Channel) : (s.setChan c x).queues = s.queues := rfl
@[simp] theorem State.setChan_image (s : State) (c : Nat) (x : Channel) : (s.setChan c x).image = s.image := rfl
@[simp] theorem State.setChan_job (s : State) (c : Nat) (x : Channel) : (s.setChan c x).job = s.job := rfl
@[simp] theorem State.setChan_stop (s : State) (c : Nat) (x : Channel) : (s.setChan c x).stop = s.stop := rfl
@[simp] theorem State.setChan_stopTicks (s : State) (c : Nat) (x : Channel) : (s.setChan c x).stopTicks = s.stopTicks := rfl
@[simp] theorem State.setChan_power (s : State) (c : Nat) (x : Channel) : (s.setChan c x).power = s.power := rfl
@[simp] theorem State.setChan_sec (s : State) (c : Nat) (x : Channel) : (s.setChan c x).sec = s.sec := rfl
@[simp] theorem State.setChan_cas (s : State) (c : Nat) (x : Channel) : (s.setChan c x).cas = s.cas := rfl
@[simp] theorem State.setChan_srv (s : State) (c : Nat) (x : Channel) : (s.setChan c x).srv = s.srv := rfl
@[simp] theorem State.setChan_recs (s : State) (c : Nat) (x : Channel) : (s.setChan c x).recs = s.recs := rfl
@[simp] theorem State.setChan_ports (s : State) (c : Nat) (x : Channel) : (s.setChan c x).ports = s.ports := rfl
@[simp] theorem State.setChan_fab (s : State) (c : Nat) (x : Channel) : (s.setChan c x).fab = s.fab := rfl
@[simp] theorem State.setChan_test (s : State) (c : Nat) (x : Channel) : (s.setChan c x).test = s.test := rfl
@[simp] theorem State.setChan_pending (s : State) (c : Nat) (x : Channel) : (s.setChan c x).pending = s.pending := rfl

/-! ### setSource -/

@[simp] theorem State.setSource_part (s : State) (n : Nat) (x : Source) : (s.setSource n x).part = s.part := rfl
@[simp] theorem State.setSource_gsc (s : State) (n : Nat) (x : Source) : (s.setSource n x).gsc = s.gsc := rfl
@[simp] theorem State.setSource_free (s : State) (n : Nat) (x : Source) : (s.setSource n x).free = s.free := rfl
@[simp] theorem State.setSource_pace (s : State) (n : Nat) (x : Source) : (s.setSource n x).pace = s.pace := rfl
@[simp] theorem State.setSource_regions (s : State) (n : Nat) (x : Source) : (s.setSource n x).regions = s.regions := rfl
@[simp] theorem State.setSource_cores (s : State) (n : Nat) (x : Source) : (s.setSource n x).cores = s.cores := rfl
@[simp] theorem State.setSource_coreRegs (s : State) (n : Nat) (x : Source) : (s.setSource n x).coreRegs = s.coreRegs := rfl
@[simp] theorem State.setSource_flights (s : State) (n : Nat) (x : Source) : (s.setSource n x).flights = s.flights := rfl
@[simp] theorem State.setSource_ss (s : State) (n : Nat) (x : Source) : (s.setSource n x).ss = s.ss := rfl
@[simp] theorem State.setSource_ssErr (s : State) (n : Nat) (x : Source) : (s.setSource n x).ssErr = s.ssErr := rfl
@[simp] theorem State.setSource_ssLines (s : State) (n : Nat) (x : Source) : (s.setSource n x).ssLines = s.ssLines := rfl
@[simp] theorem State.setSource_ssLost (s : State) (n : Nat) (x : Source) : (s.setSource n x).ssLost = s.ssLost := rfl
@[simp] theorem State.setSource_far (s : State) (n : Nat) (x : Source) : (s.setSource n x).far = s.far := rfl
@[simp] theorem State.setSource_queues (s : State) (n : Nat) (x : Source) : (s.setSource n x).queues = s.queues := rfl
@[simp] theorem State.setSource_image (s : State) (n : Nat) (x : Source) : (s.setSource n x).image = s.image := rfl
@[simp] theorem State.setSource_job (s : State) (n : Nat) (x : Source) : (s.setSource n x).job = s.job := rfl
@[simp] theorem State.setSource_stop (s : State) (n : Nat) (x : Source) : (s.setSource n x).stop = s.stop := rfl
@[simp] theorem State.setSource_stopTicks (s : State) (n : Nat) (x : Source) : (s.setSource n x).stopTicks = s.stopTicks := rfl
@[simp] theorem State.setSource_power (s : State) (n : Nat) (x : Source) : (s.setSource n x).power = s.power := rfl
@[simp] theorem State.setSource_sec (s : State) (n : Nat) (x : Source) : (s.setSource n x).sec = s.sec := rfl
@[simp] theorem State.setSource_cas (s : State) (n : Nat) (x : Source) : (s.setSource n x).cas = s.cas := rfl
@[simp] theorem State.setSource_srv (s : State) (n : Nat) (x : Source) : (s.setSource n x).srv = s.srv := rfl
@[simp] theorem State.setSource_recs (s : State) (n : Nat) (x : Source) : (s.setSource n x).recs = s.recs := rfl
@[simp] theorem State.setSource_ports (s : State) (n : Nat) (x : Source) : (s.setSource n x).ports = s.ports := rfl
@[simp] theorem State.setSource_fab (s : State) (n : Nat) (x : Source) : (s.setSource n x).fab = s.fab := rfl
@[simp] theorem State.setSource_test (s : State) (n : Nat) (x : Source) : (s.setSource n x).test = s.test := rfl
@[simp] theorem State.setSource_pending (s : State) (n : Nat) (x : Source) : (s.setSource n x).pending = s.pending := rfl

/-! ### setMgmtPort -/

@[simp] theorem State.setMgmtPort_part (s : State) (p : Nat) (x : MgmtPort) : (s.setMgmtPort p x).part = s.part := rfl
@[simp] theorem State.setMgmtPort_gsc (s : State) (p : Nat) (x : MgmtPort) : (s.setMgmtPort p x).gsc = s.gsc := rfl
@[simp] theorem State.setMgmtPort_free (s : State) (p : Nat) (x : MgmtPort) : (s.setMgmtPort p x).free = s.free := rfl
@[simp] theorem State.setMgmtPort_pace (s : State) (p : Nat) (x : MgmtPort) : (s.setMgmtPort p x).pace = s.pace := rfl
@[simp] theorem State.setMgmtPort_regions (s : State) (p : Nat) (x : MgmtPort) : (s.setMgmtPort p x).regions = s.regions := rfl
@[simp] theorem State.setMgmtPort_cores (s : State) (p : Nat) (x : MgmtPort) : (s.setMgmtPort p x).cores = s.cores := rfl
@[simp] theorem State.setMgmtPort_coreRegs (s : State) (p : Nat) (x : MgmtPort) : (s.setMgmtPort p x).coreRegs = s.coreRegs := rfl
@[simp] theorem State.setMgmtPort_flights (s : State) (p : Nat) (x : MgmtPort) : (s.setMgmtPort p x).flights = s.flights := rfl
@[simp] theorem State.setMgmtPort_ss (s : State) (p : Nat) (x : MgmtPort) : (s.setMgmtPort p x).ss = s.ss := rfl
@[simp] theorem State.setMgmtPort_ssErr (s : State) (p : Nat) (x : MgmtPort) : (s.setMgmtPort p x).ssErr = s.ssErr := rfl
@[simp] theorem State.setMgmtPort_ssLines (s : State) (p : Nat) (x : MgmtPort) : (s.setMgmtPort p x).ssLines = s.ssLines := rfl
@[simp] theorem State.setMgmtPort_ssLost (s : State) (p : Nat) (x : MgmtPort) : (s.setMgmtPort p x).ssLost = s.ssLost := rfl
@[simp] theorem State.setMgmtPort_far (s : State) (p : Nat) (x : MgmtPort) : (s.setMgmtPort p x).far = s.far := rfl
@[simp] theorem State.setMgmtPort_queues (s : State) (p : Nat) (x : MgmtPort) : (s.setMgmtPort p x).queues = s.queues := rfl
@[simp] theorem State.setMgmtPort_image (s : State) (p : Nat) (x : MgmtPort) : (s.setMgmtPort p x).image = s.image := rfl
@[simp] theorem State.setMgmtPort_job (s : State) (p : Nat) (x : MgmtPort) : (s.setMgmtPort p x).job = s.job := rfl
@[simp] theorem State.setMgmtPort_stop (s : State) (p : Nat) (x : MgmtPort) : (s.setMgmtPort p x).stop = s.stop := rfl
@[simp] theorem State.setMgmtPort_stopTicks (s : State) (p : Nat) (x : MgmtPort) : (s.setMgmtPort p x).stopTicks = s.stopTicks := rfl
@[simp] theorem State.setMgmtPort_power (s : State) (p : Nat) (x : MgmtPort) : (s.setMgmtPort p x).power = s.power := rfl
@[simp] theorem State.setMgmtPort_sec (s : State) (p : Nat) (x : MgmtPort) : (s.setMgmtPort p x).sec = s.sec := rfl
@[simp] theorem State.setMgmtPort_cas (s : State) (p : Nat) (x : MgmtPort) : (s.setMgmtPort p x).cas = s.cas := rfl
@[simp] theorem State.setMgmtPort_srv (s : State) (p : Nat) (x : MgmtPort) : (s.setMgmtPort p x).srv = s.srv := rfl
@[simp] theorem State.setMgmtPort_recs (s : State) (p : Nat) (x : MgmtPort) : (s.setMgmtPort p x).recs = s.recs := rfl
@[simp] theorem State.setMgmtPort_ports (s : State) (p : Nat) (x : MgmtPort) : (s.setMgmtPort p x).ports = s.ports := rfl
@[simp] theorem State.setMgmtPort_fab (s : State) (p : Nat) (x : MgmtPort) : (s.setMgmtPort p x).fab = s.fab := rfl
@[simp] theorem State.setMgmtPort_test (s : State) (p : Nat) (x : MgmtPort) : (s.setMgmtPort p x).test = s.test := rfl
@[simp] theorem State.setMgmtPort_pending (s : State) (p : Nat) (x : MgmtPort) : (s.setMgmtPort p x).pending = s.pending := rfl

/-! ### withEvc -/

@[simp] theorem State.withEvc_part (s : State) (e : Evc) : (s.withEvc e).part = s.part := rfl
@[simp] theorem State.withEvc_gsc (s : State) (e : Evc) : (s.withEvc e).gsc = s.gsc := rfl
@[simp] theorem State.withEvc_free (s : State) (e : Evc) : (s.withEvc e).free = s.free := rfl
@[simp] theorem State.withEvc_pace (s : State) (e : Evc) : (s.withEvc e).pace = s.pace := rfl
@[simp] theorem State.withEvc_regions (s : State) (e : Evc) : (s.withEvc e).regions = s.regions := rfl
@[simp] theorem State.withEvc_cores (s : State) (e : Evc) : (s.withEvc e).cores = s.cores := rfl
@[simp] theorem State.withEvc_coreRegs (s : State) (e : Evc) : (s.withEvc e).coreRegs = s.coreRegs := rfl
@[simp] theorem State.withEvc_flights (s : State) (e : Evc) : (s.withEvc e).flights = s.flights := rfl
@[simp] theorem State.withEvc_ss (s : State) (e : Evc) : (s.withEvc e).ss = s.ss := rfl
@[simp] theorem State.withEvc_ssErr (s : State) (e : Evc) : (s.withEvc e).ssErr = s.ssErr := rfl
@[simp] theorem State.withEvc_ssLines (s : State) (e : Evc) : (s.withEvc e).ssLines = s.ssLines := rfl
@[simp] theorem State.withEvc_ssLost (s : State) (e : Evc) : (s.withEvc e).ssLost = s.ssLost := rfl
@[simp] theorem State.withEvc_far (s : State) (e : Evc) : (s.withEvc e).far = s.far := rfl
@[simp] theorem State.withEvc_queues (s : State) (e : Evc) : (s.withEvc e).queues = s.queues := rfl
@[simp] theorem State.withEvc_image (s : State) (e : Evc) : (s.withEvc e).image = s.image := rfl
@[simp] theorem State.withEvc_job (s : State) (e : Evc) : (s.withEvc e).job = s.job := rfl
@[simp] theorem State.withEvc_stop (s : State) (e : Evc) : (s.withEvc e).stop = s.stop := rfl
@[simp] theorem State.withEvc_stopTicks (s : State) (e : Evc) : (s.withEvc e).stopTicks = s.stopTicks := rfl
@[simp] theorem State.withEvc_power (s : State) (e : Evc) : (s.withEvc e).power = s.power := rfl
@[simp] theorem State.withEvc_sec (s : State) (e : Evc) : (s.withEvc e).sec = s.sec := rfl
@[simp] theorem State.withEvc_cas (s : State) (e : Evc) : (s.withEvc e).cas = s.cas := rfl
@[simp] theorem State.withEvc_srv (s : State) (e : Evc) : (s.withEvc e).srv = s.srv := rfl
@[simp] theorem State.withEvc_recs (s : State) (e : Evc) : (s.withEvc e).recs = s.recs := rfl
@[simp] theorem State.withEvc_ports (s : State) (e : Evc) : (s.withEvc e).ports = s.ports := rfl
@[simp] theorem State.withEvc_fab (s : State) (e : Evc) : (s.withEvc e).fab = s.fab := rfl
@[simp] theorem State.withEvc_test (s : State) (e : Evc) : (s.withEvc e).test = s.test := rfl
@[simp] theorem State.withEvc_pending (s : State) (e : Evc) : (s.withEvc e).pending = s.pending := rfl

/-! ### withHost -/

@[simp] theorem State.withHost_part (s : State) (h : HostBlk) : (s.withHost h).part = s.part := rfl
@[simp] theorem State.withHost_gsc (s : State) (h : HostBlk) : (s.withHost h).gsc = s.gsc := rfl
@[simp] theorem State.withHost_free (s : State) (h : HostBlk) : (s.withHost h).free = s.free := rfl
@[simp] theorem State.withHost_pace (s : State) (h : HostBlk) : (s.withHost h).pace = s.pace := rfl
@[simp] theorem State.withHost_regions (s : State) (h : HostBlk) : (s.withHost h).regions = s.regions := rfl
@[simp] theorem State.withHost_cores (s : State) (h : HostBlk) : (s.withHost h).cores = s.cores := rfl
@[simp] theorem State.withHost_coreRegs (s : State) (h : HostBlk) : (s.withHost h).coreRegs = s.coreRegs := rfl
@[simp] theorem State.withHost_flights (s : State) (h : HostBlk) : (s.withHost h).flights = s.flights := rfl
@[simp] theorem State.withHost_ss (s : State) (h : HostBlk) : (s.withHost h).ss = s.ss := rfl
@[simp] theorem State.withHost_ssErr (s : State) (h : HostBlk) : (s.withHost h).ssErr = s.ssErr := rfl
@[simp] theorem State.withHost_ssLines (s : State) (h : HostBlk) : (s.withHost h).ssLines = s.ssLines := rfl
@[simp] theorem State.withHost_ssLost (s : State) (h : HostBlk) : (s.withHost h).ssLost = s.ssLost := rfl
@[simp] theorem State.withHost_far (s : State) (h : HostBlk) : (s.withHost h).far = s.far := rfl
@[simp] theorem State.withHost_queues (s : State) (h : HostBlk) : (s.withHost h).queues = s.queues := rfl
@[simp] theorem State.withHost_image (s : State) (h : HostBlk) : (s.withHost h).image = s.image := rfl
@[simp] theorem State.withHost_job (s : State) (h : HostBlk) : (s.withHost h).job = s.job := rfl
@[simp] theorem State.withHost_stop (s : State) (h : HostBlk) : (s.withHost h).stop = s.stop := rfl
@[simp] theorem State.withHost_stopTicks (s : State) (h : HostBlk) : (s.withHost h).stopTicks = s.stopTicks := rfl
@[simp] theorem State.withHost_host (s : State) (h : HostBlk) : (s.withHost h).host = h := rfl
@[simp] theorem State.withHost_power (s : State) (h : HostBlk) : (s.withHost h).power = s.power := rfl
@[simp] theorem State.withHost_sec (s : State) (h : HostBlk) : (s.withHost h).sec = s.sec := rfl
@[simp] theorem State.withHost_cas (s : State) (h : HostBlk) : (s.withHost h).cas = s.cas := rfl
@[simp] theorem State.withHost_srv (s : State) (h : HostBlk) : (s.withHost h).srv = s.srv := rfl
@[simp] theorem State.withHost_recs (s : State) (h : HostBlk) : (s.withHost h).recs = s.recs := rfl
@[simp] theorem State.withHost_ports (s : State) (h : HostBlk) : (s.withHost h).ports = s.ports := rfl
@[simp] theorem State.withHost_fab (s : State) (h : HostBlk) : (s.withHost h).fab = s.fab := rfl
@[simp] theorem State.withHost_test (s : State) (h : HostBlk) : (s.withHost h).test = s.test := rfl
@[simp] theorem State.withHost_pending (s : State) (h : HostBlk) : (s.withHost h).pending = s.pending := rfl

/-! ### withPower -/

@[simp] theorem State.withPower_part (s : State) (p : Power) : (s.withPower p).part = s.part := rfl
@[simp] theorem State.withPower_gsc (s : State) (p : Power) : (s.withPower p).gsc = s.gsc := rfl
@[simp] theorem State.withPower_free (s : State) (p : Power) : (s.withPower p).free = s.free := rfl
@[simp] theorem State.withPower_pace (s : State) (p : Power) : (s.withPower p).pace = s.pace := rfl
@[simp] theorem State.withPower_regions (s : State) (p : Power) : (s.withPower p).regions = s.regions := rfl
@[simp] theorem State.withPower_cores (s : State) (p : Power) : (s.withPower p).cores = s.cores := rfl
@[simp] theorem State.withPower_coreRegs (s : State) (p : Power) : (s.withPower p).coreRegs = s.coreRegs := rfl
@[simp] theorem State.withPower_flights (s : State) (p : Power) : (s.withPower p).flights = s.flights := rfl
@[simp] theorem State.withPower_ss (s : State) (p : Power) : (s.withPower p).ss = s.ss := rfl
@[simp] theorem State.withPower_ssErr (s : State) (p : Power) : (s.withPower p).ssErr = s.ssErr := rfl
@[simp] theorem State.withPower_ssLines (s : State) (p : Power) : (s.withPower p).ssLines = s.ssLines := rfl
@[simp] theorem State.withPower_ssLost (s : State) (p : Power) : (s.withPower p).ssLost = s.ssLost := rfl
@[simp] theorem State.withPower_far (s : State) (p : Power) : (s.withPower p).far = s.far := rfl
@[simp] theorem State.withPower_queues (s : State) (p : Power) : (s.withPower p).queues = s.queues := rfl
@[simp] theorem State.withPower_image (s : State) (p : Power) : (s.withPower p).image = s.image := rfl
@[simp] theorem State.withPower_job (s : State) (p : Power) : (s.withPower p).job = s.job := rfl
@[simp] theorem State.withPower_stop (s : State) (p : Power) : (s.withPower p).stop = s.stop := rfl
@[simp] theorem State.withPower_stopTicks (s : State) (p : Power) : (s.withPower p).stopTicks = s.stopTicks := rfl
@[simp] theorem State.withPower_host (s : State) (p : Power) : (s.withPower p).host = s.host := rfl
@[simp] theorem State.withPower_power (s : State) (p : Power) : (s.withPower p).power = p := rfl
@[simp] theorem State.withPower_sec (s : State) (p : Power) : (s.withPower p).sec = s.sec := rfl
@[simp] theorem State.withPower_cas (s : State) (p : Power) : (s.withPower p).cas = s.cas := rfl
@[simp] theorem State.withPower_srv (s : State) (p : Power) : (s.withPower p).srv = s.srv := rfl
@[simp] theorem State.withPower_recs (s : State) (p : Power) : (s.withPower p).recs = s.recs := rfl
@[simp] theorem State.withPower_ports (s : State) (p : Power) : (s.withPower p).ports = s.ports := rfl
@[simp] theorem State.withPower_fab (s : State) (p : Power) : (s.withPower p).fab = s.fab := rfl
@[simp] theorem State.withPower_test (s : State) (p : Power) : (s.withPower p).test = s.test := rfl
@[simp] theorem State.withPower_pending (s : State) (p : Power) : (s.withPower p).pending = s.pending := rfl

/-! ### withCas -/

@[simp] theorem State.withCas_part (s : State) (x : Cas) : (s.withCas x).part = s.part := rfl
@[simp] theorem State.withCas_gsc (s : State) (x : Cas) : (s.withCas x).gsc = s.gsc := rfl
@[simp] theorem State.withCas_free (s : State) (x : Cas) : (s.withCas x).free = s.free := rfl
@[simp] theorem State.withCas_pace (s : State) (x : Cas) : (s.withCas x).pace = s.pace := rfl
@[simp] theorem State.withCas_regions (s : State) (x : Cas) : (s.withCas x).regions = s.regions := rfl
@[simp] theorem State.withCas_cores (s : State) (x : Cas) : (s.withCas x).cores = s.cores := rfl
@[simp] theorem State.withCas_coreRegs (s : State) (x : Cas) : (s.withCas x).coreRegs = s.coreRegs := rfl
@[simp] theorem State.withCas_flights (s : State) (x : Cas) : (s.withCas x).flights = s.flights := rfl
@[simp] theorem State.withCas_ss (s : State) (x : Cas) : (s.withCas x).ss = s.ss := rfl
@[simp] theorem State.withCas_ssErr (s : State) (x : Cas) : (s.withCas x).ssErr = s.ssErr := rfl
@[simp] theorem State.withCas_ssLines (s : State) (x : Cas) : (s.withCas x).ssLines = s.ssLines := rfl
@[simp] theorem State.withCas_ssLost (s : State) (x : Cas) : (s.withCas x).ssLost = s.ssLost := rfl
@[simp] theorem State.withCas_far (s : State) (x : Cas) : (s.withCas x).far = s.far := rfl
@[simp] theorem State.withCas_queues (s : State) (x : Cas) : (s.withCas x).queues = s.queues := rfl
@[simp] theorem State.withCas_image (s : State) (x : Cas) : (s.withCas x).image = s.image := rfl
@[simp] theorem State.withCas_job (s : State) (x : Cas) : (s.withCas x).job = s.job := rfl
@[simp] theorem State.withCas_stop (s : State) (x : Cas) : (s.withCas x).stop = s.stop := rfl
@[simp] theorem State.withCas_stopTicks (s : State) (x : Cas) : (s.withCas x).stopTicks = s.stopTicks := rfl
@[simp] theorem State.withCas_host (s : State) (x : Cas) : (s.withCas x).host = s.host := rfl
@[simp] theorem State.withCas_power (s : State) (x : Cas) : (s.withCas x).power = s.power := rfl
@[simp] theorem State.withCas_sec (s : State) (x : Cas) : (s.withCas x).sec = s.sec := rfl
@[simp] theorem State.withCas_cas (s : State) (x : Cas) : (s.withCas x).cas = x := rfl
@[simp] theorem State.withCas_srv (s : State) (x : Cas) : (s.withCas x).srv = s.srv := rfl
@[simp] theorem State.withCas_recs (s : State) (x : Cas) : (s.withCas x).recs = s.recs := rfl
@[simp] theorem State.withCas_ports (s : State) (x : Cas) : (s.withCas x).ports = s.ports := rfl
@[simp] theorem State.withCas_fab (s : State) (x : Cas) : (s.withCas x).fab = s.fab := rfl
@[simp] theorem State.withCas_test (s : State) (x : Cas) : (s.withCas x).test = s.test := rfl
@[simp] theorem State.withCas_pending (s : State) (x : Cas) : (s.withCas x).pending = s.pending := rfl

/-! ### setRmSlot -/

@[simp] theorem State.setRmSlot_part (s : State) (i : Nat) (x : RmSlot) : (s.setRmSlot i x).part = s.part := rfl
@[simp] theorem State.setRmSlot_gsc (s : State) (i : Nat) (x : RmSlot) : (s.setRmSlot i x).gsc = s.gsc := rfl
@[simp] theorem State.setRmSlot_free (s : State) (i : Nat) (x : RmSlot) : (s.setRmSlot i x).free = s.free := rfl
@[simp] theorem State.setRmSlot_pace (s : State) (i : Nat) (x : RmSlot) : (s.setRmSlot i x).pace = s.pace := rfl
@[simp] theorem State.setRmSlot_regions (s : State) (i : Nat) (x : RmSlot) : (s.setRmSlot i x).regions = s.regions := rfl
@[simp] theorem State.setRmSlot_cores (s : State) (i : Nat) (x : RmSlot) : (s.setRmSlot i x).cores = s.cores := rfl
@[simp] theorem State.setRmSlot_coreRegs (s : State) (i : Nat) (x : RmSlot) : (s.setRmSlot i x).coreRegs = s.coreRegs := rfl
@[simp] theorem State.setRmSlot_flights (s : State) (i : Nat) (x : RmSlot) : (s.setRmSlot i x).flights = s.flights := rfl
@[simp] theorem State.setRmSlot_ss (s : State) (i : Nat) (x : RmSlot) : (s.setRmSlot i x).ss = s.ss := rfl
@[simp] theorem State.setRmSlot_ssErr (s : State) (i : Nat) (x : RmSlot) : (s.setRmSlot i x).ssErr = s.ssErr := rfl
@[simp] theorem State.setRmSlot_ssLines (s : State) (i : Nat) (x : RmSlot) : (s.setRmSlot i x).ssLines = s.ssLines := rfl
@[simp] theorem State.setRmSlot_ssLost (s : State) (i : Nat) (x : RmSlot) : (s.setRmSlot i x).ssLost = s.ssLost := rfl
@[simp] theorem State.setRmSlot_far (s : State) (i : Nat) (x : RmSlot) : (s.setRmSlot i x).far = s.far := rfl
@[simp] theorem State.setRmSlot_queues (s : State) (i : Nat) (x : RmSlot) : (s.setRmSlot i x).queues = s.queues := rfl
@[simp] theorem State.setRmSlot_image (s : State) (i : Nat) (x : RmSlot) : (s.setRmSlot i x).image = s.image := rfl
@[simp] theorem State.setRmSlot_job (s : State) (i : Nat) (x : RmSlot) : (s.setRmSlot i x).job = s.job := rfl
@[simp] theorem State.setRmSlot_stop (s : State) (i : Nat) (x : RmSlot) : (s.setRmSlot i x).stop = s.stop := rfl
@[simp] theorem State.setRmSlot_stopTicks (s : State) (i : Nat) (x : RmSlot) : (s.setRmSlot i x).stopTicks = s.stopTicks := rfl
@[simp] theorem State.setRmSlot_host (s : State) (i : Nat) (x : RmSlot) : (s.setRmSlot i x).host = s.host := rfl
@[simp] theorem State.setRmSlot_power (s : State) (i : Nat) (x : RmSlot) : (s.setRmSlot i x).power = s.power := rfl
@[simp] theorem State.setRmSlot_sec (s : State) (i : Nat) (x : RmSlot) : (s.setRmSlot i x).sec = s.sec := rfl
@[simp] theorem State.setRmSlot_srv (s : State) (i : Nat) (x : RmSlot) : (s.setRmSlot i x).srv = s.srv := rfl
@[simp] theorem State.setRmSlot_recs (s : State) (i : Nat) (x : RmSlot) : (s.setRmSlot i x).recs = s.recs := rfl
@[simp] theorem State.setRmSlot_ports (s : State) (i : Nat) (x : RmSlot) : (s.setRmSlot i x).ports = s.ports := rfl
@[simp] theorem State.setRmSlot_fab (s : State) (i : Nat) (x : RmSlot) : (s.setRmSlot i x).fab = s.fab := rfl
@[simp] theorem State.setRmSlot_test (s : State) (i : Nat) (x : RmSlot) : (s.setRmSlot i x).test = s.test := rfl
@[simp] theorem State.setRmSlot_pending (s : State) (i : Nat) (x : RmSlot) : (s.setRmSlot i x).pending = s.pending := rfl

/-! ### setCtrl -/

@[simp] theorem State.setCtrl_part (s : State) (c : Nat) (x : FarCtrl) : (s.setCtrl c x).part = s.part := rfl
@[simp] theorem State.setCtrl_gsc (s : State) (c : Nat) (x : FarCtrl) : (s.setCtrl c x).gsc = s.gsc := rfl
@[simp] theorem State.setCtrl_free (s : State) (c : Nat) (x : FarCtrl) : (s.setCtrl c x).free = s.free := rfl
@[simp] theorem State.setCtrl_pace (s : State) (c : Nat) (x : FarCtrl) : (s.setCtrl c x).pace = s.pace := rfl
@[simp] theorem State.setCtrl_regions (s : State) (c : Nat) (x : FarCtrl) : (s.setCtrl c x).regions = s.regions := rfl
@[simp] theorem State.setCtrl_cores (s : State) (c : Nat) (x : FarCtrl) : (s.setCtrl c x).cores = s.cores := rfl
@[simp] theorem State.setCtrl_coreRegs (s : State) (c : Nat) (x : FarCtrl) : (s.setCtrl c x).coreRegs = s.coreRegs := rfl
@[simp] theorem State.setCtrl_flights (s : State) (c : Nat) (x : FarCtrl) : (s.setCtrl c x).flights = s.flights := rfl
@[simp] theorem State.setCtrl_ss (s : State) (c : Nat) (x : FarCtrl) : (s.setCtrl c x).ss = s.ss := rfl
@[simp] theorem State.setCtrl_ssErr (s : State) (c : Nat) (x : FarCtrl) : (s.setCtrl c x).ssErr = s.ssErr := rfl
@[simp] theorem State.setCtrl_ssLines (s : State) (c : Nat) (x : FarCtrl) : (s.setCtrl c x).ssLines = s.ssLines := rfl
@[simp] theorem State.setCtrl_ssLost (s : State) (c : Nat) (x : FarCtrl) : (s.setCtrl c x).ssLost = s.ssLost := rfl
@[simp] theorem State.setCtrl_queues (s : State) (c : Nat) (x : FarCtrl) : (s.setCtrl c x).queues = s.queues := rfl
@[simp] theorem State.setCtrl_image (s : State) (c : Nat) (x : FarCtrl) : (s.setCtrl c x).image = s.image := rfl
@[simp] theorem State.setCtrl_job (s : State) (c : Nat) (x : FarCtrl) : (s.setCtrl c x).job = s.job := rfl
@[simp] theorem State.setCtrl_stop (s : State) (c : Nat) (x : FarCtrl) : (s.setCtrl c x).stop = s.stop := rfl
@[simp] theorem State.setCtrl_stopTicks (s : State) (c : Nat) (x : FarCtrl) : (s.setCtrl c x).stopTicks = s.stopTicks := rfl
@[simp] theorem State.setCtrl_host (s : State) (c : Nat) (x : FarCtrl) : (s.setCtrl c x).host = s.host := rfl
@[simp] theorem State.setCtrl_power (s : State) (c : Nat) (x : FarCtrl) : (s.setCtrl c x).power = s.power := rfl
@[simp] theorem State.setCtrl_sec (s : State) (c : Nat) (x : FarCtrl) : (s.setCtrl c x).sec = s.sec := rfl
@[simp] theorem State.setCtrl_cas (s : State) (c : Nat) (x : FarCtrl) : (s.setCtrl c x).cas = s.cas := rfl
@[simp] theorem State.setCtrl_srv (s : State) (c : Nat) (x : FarCtrl) : (s.setCtrl c x).srv = s.srv := rfl
@[simp] theorem State.setCtrl_recs (s : State) (c : Nat) (x : FarCtrl) : (s.setCtrl c x).recs = s.recs := rfl
@[simp] theorem State.setCtrl_ports (s : State) (c : Nat) (x : FarCtrl) : (s.setCtrl c x).ports = s.ports := rfl
@[simp] theorem State.setCtrl_fab (s : State) (c : Nat) (x : FarCtrl) : (s.setCtrl c x).fab = s.fab := rfl
@[simp] theorem State.setCtrl_test (s : State) (c : Nat) (x : FarCtrl) : (s.setCtrl c x).test = s.test := rfl
@[simp] theorem State.setCtrl_pending (s : State) (c : Nat) (x : FarCtrl) : (s.setCtrl c x).pending = s.pending := rfl

/-! ### setFarChan -/

@[simp] theorem State.setFarChan_part (s : State) (c k : Nat) (x : FarChan) : (s.setFarChan c k x).part = s.part := rfl
@[simp] theorem State.setFarChan_gsc (s : State) (c k : Nat) (x : FarChan) : (s.setFarChan c k x).gsc = s.gsc := rfl
@[simp] theorem State.setFarChan_free (s : State) (c k : Nat) (x : FarChan) : (s.setFarChan c k x).free = s.free := rfl
@[simp] theorem State.setFarChan_pace (s : State) (c k : Nat) (x : FarChan) : (s.setFarChan c k x).pace = s.pace := rfl
@[simp] theorem State.setFarChan_regions (s : State) (c k : Nat) (x : FarChan) : (s.setFarChan c k x).regions = s.regions := rfl
@[simp] theorem State.setFarChan_cores (s : State) (c k : Nat) (x : FarChan) : (s.setFarChan c k x).cores = s.cores := rfl
@[simp] theorem State.setFarChan_coreRegs (s : State) (c k : Nat) (x : FarChan) : (s.setFarChan c k x).coreRegs = s.coreRegs := rfl
@[simp] theorem State.setFarChan_flights (s : State) (c k : Nat) (x : FarChan) : (s.setFarChan c k x).flights = s.flights := rfl
@[simp] theorem State.setFarChan_ss (s : State) (c k : Nat) (x : FarChan) : (s.setFarChan c k x).ss = s.ss := rfl
@[simp] theorem State.setFarChan_ssErr (s : State) (c k : Nat) (x : FarChan) : (s.setFarChan c k x).ssErr = s.ssErr := rfl
@[simp] theorem State.setFarChan_ssLines (s : State) (c k : Nat) (x : FarChan) : (s.setFarChan c k x).ssLines = s.ssLines := rfl
@[simp] theorem State.setFarChan_ssLost (s : State) (c k : Nat) (x : FarChan) : (s.setFarChan c k x).ssLost = s.ssLost := rfl
@[simp] theorem State.setFarChan_queues (s : State) (c k : Nat) (x : FarChan) : (s.setFarChan c k x).queues = s.queues := rfl
@[simp] theorem State.setFarChan_image (s : State) (c k : Nat) (x : FarChan) : (s.setFarChan c k x).image = s.image := rfl
@[simp] theorem State.setFarChan_job (s : State) (c k : Nat) (x : FarChan) : (s.setFarChan c k x).job = s.job := rfl
@[simp] theorem State.setFarChan_stop (s : State) (c k : Nat) (x : FarChan) : (s.setFarChan c k x).stop = s.stop := rfl
@[simp] theorem State.setFarChan_stopTicks (s : State) (c k : Nat) (x : FarChan) : (s.setFarChan c k x).stopTicks = s.stopTicks := rfl
@[simp] theorem State.setFarChan_host (s : State) (c k : Nat) (x : FarChan) : (s.setFarChan c k x).host = s.host := rfl
@[simp] theorem State.setFarChan_power (s : State) (c k : Nat) (x : FarChan) : (s.setFarChan c k x).power = s.power := rfl
@[simp] theorem State.setFarChan_sec (s : State) (c k : Nat) (x : FarChan) : (s.setFarChan c k x).sec = s.sec := rfl
@[simp] theorem State.setFarChan_cas (s : State) (c k : Nat) (x : FarChan) : (s.setFarChan c k x).cas = s.cas := rfl
@[simp] theorem State.setFarChan_srv (s : State) (c k : Nat) (x : FarChan) : (s.setFarChan c k x).srv = s.srv := rfl
@[simp] theorem State.setFarChan_recs (s : State) (c k : Nat) (x : FarChan) : (s.setFarChan c k x).recs = s.recs := rfl
@[simp] theorem State.setFarChan_ports (s : State) (c k : Nat) (x : FarChan) : (s.setFarChan c k x).ports = s.ports := rfl
@[simp] theorem State.setFarChan_fab (s : State) (c k : Nat) (x : FarChan) : (s.setFarChan c k x).fab = s.fab := rfl
@[simp] theorem State.setFarChan_test (s : State) (c k : Nat) (x : FarChan) : (s.setFarChan c k x).test = s.test := rfl
@[simp] theorem State.setFarChan_pending (s : State) (c k : Nat) (x : FarChan) : (s.setFarChan c k x).pending = s.pending := rfl

/-! ### withSrv -/

@[simp] theorem State.withSrv_part (s : State) (x : Serve) : (s.withSrv x).part = s.part := rfl
@[simp] theorem State.withSrv_gsc (s : State) (x : Serve) : (s.withSrv x).gsc = s.gsc := rfl
@[simp] theorem State.withSrv_free (s : State) (x : Serve) : (s.withSrv x).free = s.free := rfl
@[simp] theorem State.withSrv_pace (s : State) (x : Serve) : (s.withSrv x).pace = s.pace := rfl
@[simp] theorem State.withSrv_regions (s : State) (x : Serve) : (s.withSrv x).regions = s.regions := rfl
@[simp] theorem State.withSrv_cores (s : State) (x : Serve) : (s.withSrv x).cores = s.cores := rfl
@[simp] theorem State.withSrv_coreRegs (s : State) (x : Serve) : (s.withSrv x).coreRegs = s.coreRegs := rfl
@[simp] theorem State.withSrv_flights (s : State) (x : Serve) : (s.withSrv x).flights = s.flights := rfl
@[simp] theorem State.withSrv_ss (s : State) (x : Serve) : (s.withSrv x).ss = s.ss := rfl
@[simp] theorem State.withSrv_ssErr (s : State) (x : Serve) : (s.withSrv x).ssErr = s.ssErr := rfl
@[simp] theorem State.withSrv_ssLines (s : State) (x : Serve) : (s.withSrv x).ssLines = s.ssLines := rfl
@[simp] theorem State.withSrv_ssLost (s : State) (x : Serve) : (s.withSrv x).ssLost = s.ssLost := rfl
@[simp] theorem State.withSrv_far (s : State) (x : Serve) : (s.withSrv x).far = s.far := rfl
@[simp] theorem State.withSrv_queues (s : State) (x : Serve) : (s.withSrv x).queues = s.queues := rfl
@[simp] theorem State.withSrv_image (s : State) (x : Serve) : (s.withSrv x).image = s.image := rfl
@[simp] theorem State.withSrv_job (s : State) (x : Serve) : (s.withSrv x).job = s.job := rfl
@[simp] theorem State.withSrv_stop (s : State) (x : Serve) : (s.withSrv x).stop = s.stop := rfl
@[simp] theorem State.withSrv_stopTicks (s : State) (x : Serve) : (s.withSrv x).stopTicks = s.stopTicks := rfl
@[simp] theorem State.withSrv_host (s : State) (x : Serve) : (s.withSrv x).host = s.host := rfl
@[simp] theorem State.withSrv_power (s : State) (x : Serve) : (s.withSrv x).power = s.power := rfl
@[simp] theorem State.withSrv_sec (s : State) (x : Serve) : (s.withSrv x).sec = s.sec := rfl
@[simp] theorem State.withSrv_cas (s : State) (x : Serve) : (s.withSrv x).cas = s.cas := rfl
@[simp] theorem State.withSrv_srv (s : State) (x : Serve) : (s.withSrv x).srv = x := rfl
@[simp] theorem State.withSrv_recs (s : State) (x : Serve) : (s.withSrv x).recs = s.recs := rfl
@[simp] theorem State.withSrv_ports (s : State) (x : Serve) : (s.withSrv x).ports = s.ports := rfl
@[simp] theorem State.withSrv_fab (s : State) (x : Serve) : (s.withSrv x).fab = s.fab := rfl
@[simp] theorem State.withSrv_test (s : State) (x : Serve) : (s.withSrv x).test = s.test := rfl
@[simp] theorem State.withSrv_pending (s : State) (x : Serve) : (s.withSrv x).pending = s.pending := rfl

/-! ### withRecs -/

@[simp] theorem State.withRecs_part (s : State) (x : Records) : (s.withRecs x).part = s.part := rfl
@[simp] theorem State.withRecs_gsc (s : State) (x : Records) : (s.withRecs x).gsc = s.gsc := rfl
@[simp] theorem State.withRecs_free (s : State) (x : Records) : (s.withRecs x).free = s.free := rfl
@[simp] theorem State.withRecs_pace (s : State) (x : Records) : (s.withRecs x).pace = s.pace := rfl
@[simp] theorem State.withRecs_regions (s : State) (x : Records) : (s.withRecs x).regions = s.regions := rfl
@[simp] theorem State.withRecs_cores (s : State) (x : Records) : (s.withRecs x).cores = s.cores := rfl
@[simp] theorem State.withRecs_coreRegs (s : State) (x : Records) : (s.withRecs x).coreRegs = s.coreRegs := rfl
@[simp] theorem State.withRecs_flights (s : State) (x : Records) : (s.withRecs x).flights = s.flights := rfl
@[simp] theorem State.withRecs_ss (s : State) (x : Records) : (s.withRecs x).ss = s.ss := rfl
@[simp] theorem State.withRecs_ssErr (s : State) (x : Records) : (s.withRecs x).ssErr = s.ssErr := rfl
@[simp] theorem State.withRecs_ssLines (s : State) (x : Records) : (s.withRecs x).ssLines = s.ssLines := rfl
@[simp] theorem State.withRecs_ssLost (s : State) (x : Records) : (s.withRecs x).ssLost = s.ssLost := rfl
@[simp] theorem State.withRecs_far (s : State) (x : Records) : (s.withRecs x).far = s.far := rfl
@[simp] theorem State.withRecs_queues (s : State) (x : Records) : (s.withRecs x).queues = s.queues := rfl
@[simp] theorem State.withRecs_image (s : State) (x : Records) : (s.withRecs x).image = s.image := rfl
@[simp] theorem State.withRecs_job (s : State) (x : Records) : (s.withRecs x).job = s.job := rfl
@[simp] theorem State.withRecs_stop (s : State) (x : Records) : (s.withRecs x).stop = s.stop := rfl
@[simp] theorem State.withRecs_stopTicks (s : State) (x : Records) : (s.withRecs x).stopTicks = s.stopTicks := rfl
@[simp] theorem State.withRecs_host (s : State) (x : Records) : (s.withRecs x).host = s.host := rfl
@[simp] theorem State.withRecs_power (s : State) (x : Records) : (s.withRecs x).power = s.power := rfl
@[simp] theorem State.withRecs_sec (s : State) (x : Records) : (s.withRecs x).sec = s.sec := rfl
@[simp] theorem State.withRecs_cas (s : State) (x : Records) : (s.withRecs x).cas = s.cas := rfl
@[simp] theorem State.withRecs_srv (s : State) (x : Records) : (s.withRecs x).srv = s.srv := rfl
@[simp] theorem State.withRecs_recs (s : State) (x : Records) : (s.withRecs x).recs = x := rfl
@[simp] theorem State.withRecs_ports (s : State) (x : Records) : (s.withRecs x).ports = s.ports := rfl
@[simp] theorem State.withRecs_fab (s : State) (x : Records) : (s.withRecs x).fab = s.fab := rfl
@[simp] theorem State.withRecs_test (s : State) (x : Records) : (s.withRecs x).test = s.test := rfl
@[simp] theorem State.withRecs_pending (s : State) (x : Records) : (s.withRecs x).pending = s.pending := rfl

/-! ### setCpl -/

@[simp] theorem State.setCpl_part (s : State) (r : Nat) (x : CplRing) : (s.setCpl r x).part = s.part := rfl
@[simp] theorem State.setCpl_gsc (s : State) (r : Nat) (x : CplRing) : (s.setCpl r x).gsc = s.gsc := rfl
@[simp] theorem State.setCpl_free (s : State) (r : Nat) (x : CplRing) : (s.setCpl r x).free = s.free := rfl
@[simp] theorem State.setCpl_pace (s : State) (r : Nat) (x : CplRing) : (s.setCpl r x).pace = s.pace := rfl
@[simp] theorem State.setCpl_regions (s : State) (r : Nat) (x : CplRing) : (s.setCpl r x).regions = s.regions := rfl
@[simp] theorem State.setCpl_cores (s : State) (r : Nat) (x : CplRing) : (s.setCpl r x).cores = s.cores := rfl
@[simp] theorem State.setCpl_coreRegs (s : State) (r : Nat) (x : CplRing) : (s.setCpl r x).coreRegs = s.coreRegs := rfl
@[simp] theorem State.setCpl_flights (s : State) (r : Nat) (x : CplRing) : (s.setCpl r x).flights = s.flights := rfl
@[simp] theorem State.setCpl_ss (s : State) (r : Nat) (x : CplRing) : (s.setCpl r x).ss = s.ss := rfl
@[simp] theorem State.setCpl_ssErr (s : State) (r : Nat) (x : CplRing) : (s.setCpl r x).ssErr = s.ssErr := rfl
@[simp] theorem State.setCpl_ssLines (s : State) (r : Nat) (x : CplRing) : (s.setCpl r x).ssLines = s.ssLines := rfl
@[simp] theorem State.setCpl_ssLost (s : State) (r : Nat) (x : CplRing) : (s.setCpl r x).ssLost = s.ssLost := rfl
@[simp] theorem State.setCpl_far (s : State) (r : Nat) (x : CplRing) : (s.setCpl r x).far = s.far := rfl
@[simp] theorem State.setCpl_queues (s : State) (r : Nat) (x : CplRing) : (s.setCpl r x).queues = s.queues := rfl
@[simp] theorem State.setCpl_image (s : State) (r : Nat) (x : CplRing) : (s.setCpl r x).image = s.image := rfl
@[simp] theorem State.setCpl_job (s : State) (r : Nat) (x : CplRing) : (s.setCpl r x).job = s.job := rfl
@[simp] theorem State.setCpl_stop (s : State) (r : Nat) (x : CplRing) : (s.setCpl r x).stop = s.stop := rfl
@[simp] theorem State.setCpl_stopTicks (s : State) (r : Nat) (x : CplRing) : (s.setCpl r x).stopTicks = s.stopTicks := rfl
@[simp] theorem State.setCpl_host (s : State) (r : Nat) (x : CplRing) : (s.setCpl r x).host = s.host := rfl
@[simp] theorem State.setCpl_power (s : State) (r : Nat) (x : CplRing) : (s.setCpl r x).power = s.power := rfl
@[simp] theorem State.setCpl_sec (s : State) (r : Nat) (x : CplRing) : (s.setCpl r x).sec = s.sec := rfl
@[simp] theorem State.setCpl_cas (s : State) (r : Nat) (x : CplRing) : (s.setCpl r x).cas = s.cas := rfl
@[simp] theorem State.setCpl_recs (s : State) (r : Nat) (x : CplRing) : (s.setCpl r x).recs = s.recs := rfl
@[simp] theorem State.setCpl_ports (s : State) (r : Nat) (x : CplRing) : (s.setCpl r x).ports = s.ports := rfl
@[simp] theorem State.setCpl_fab (s : State) (r : Nat) (x : CplRing) : (s.setCpl r x).fab = s.fab := rfl
@[simp] theorem State.setCpl_test (s : State) (r : Nat) (x : CplRing) : (s.setCpl r x).test = s.test := rfl
@[simp] theorem State.setCpl_pending (s : State) (r : Nat) (x : CplRing) : (s.setCpl r x).pending = s.pending := rfl

/-! ### setReqRing -/

@[simp] theorem State.setReqRing_part (s : State) (r : Nat) (x : ReqRing) : (s.setReqRing r x).part = s.part := rfl
@[simp] theorem State.setReqRing_gsc (s : State) (r : Nat) (x : ReqRing) : (s.setReqRing r x).gsc = s.gsc := rfl
@[simp] theorem State.setReqRing_free (s : State) (r : Nat) (x : ReqRing) : (s.setReqRing r x).free = s.free := rfl
@[simp] theorem State.setReqRing_pace (s : State) (r : Nat) (x : ReqRing) : (s.setReqRing r x).pace = s.pace := rfl
@[simp] theorem State.setReqRing_regions (s : State) (r : Nat) (x : ReqRing) : (s.setReqRing r x).regions = s.regions := rfl
@[simp] theorem State.setReqRing_cores (s : State) (r : Nat) (x : ReqRing) : (s.setReqRing r x).cores = s.cores := rfl
@[simp] theorem State.setReqRing_coreRegs (s : State) (r : Nat) (x : ReqRing) : (s.setReqRing r x).coreRegs = s.coreRegs := rfl
@[simp] theorem State.setReqRing_flights (s : State) (r : Nat) (x : ReqRing) : (s.setReqRing r x).flights = s.flights := rfl
@[simp] theorem State.setReqRing_ss (s : State) (r : Nat) (x : ReqRing) : (s.setReqRing r x).ss = s.ss := rfl
@[simp] theorem State.setReqRing_ssErr (s : State) (r : Nat) (x : ReqRing) : (s.setReqRing r x).ssErr = s.ssErr := rfl
@[simp] theorem State.setReqRing_ssLines (s : State) (r : Nat) (x : ReqRing) : (s.setReqRing r x).ssLines = s.ssLines := rfl
@[simp] theorem State.setReqRing_ssLost (s : State) (r : Nat) (x : ReqRing) : (s.setReqRing r x).ssLost = s.ssLost := rfl
@[simp] theorem State.setReqRing_far (s : State) (r : Nat) (x : ReqRing) : (s.setReqRing r x).far = s.far := rfl
@[simp] theorem State.setReqRing_queues (s : State) (r : Nat) (x : ReqRing) : (s.setReqRing r x).queues = s.queues := rfl
@[simp] theorem State.setReqRing_image (s : State) (r : Nat) (x : ReqRing) : (s.setReqRing r x).image = s.image := rfl
@[simp] theorem State.setReqRing_job (s : State) (r : Nat) (x : ReqRing) : (s.setReqRing r x).job = s.job := rfl
@[simp] theorem State.setReqRing_stop (s : State) (r : Nat) (x : ReqRing) : (s.setReqRing r x).stop = s.stop := rfl
@[simp] theorem State.setReqRing_stopTicks (s : State) (r : Nat) (x : ReqRing) : (s.setReqRing r x).stopTicks = s.stopTicks := rfl
@[simp] theorem State.setReqRing_host (s : State) (r : Nat) (x : ReqRing) : (s.setReqRing r x).host = s.host := rfl
@[simp] theorem State.setReqRing_power (s : State) (r : Nat) (x : ReqRing) : (s.setReqRing r x).power = s.power := rfl
@[simp] theorem State.setReqRing_sec (s : State) (r : Nat) (x : ReqRing) : (s.setReqRing r x).sec = s.sec := rfl
@[simp] theorem State.setReqRing_cas (s : State) (r : Nat) (x : ReqRing) : (s.setReqRing r x).cas = s.cas := rfl
@[simp] theorem State.setReqRing_recs (s : State) (r : Nat) (x : ReqRing) : (s.setReqRing r x).recs = s.recs := rfl
@[simp] theorem State.setReqRing_ports (s : State) (r : Nat) (x : ReqRing) : (s.setReqRing r x).ports = s.ports := rfl
@[simp] theorem State.setReqRing_fab (s : State) (r : Nat) (x : ReqRing) : (s.setReqRing r x).fab = s.fab := rfl
@[simp] theorem State.setReqRing_test (s : State) (r : Nat) (x : ReqRing) : (s.setReqRing r x).test = s.test := rfl
@[simp] theorem State.setReqRing_pending (s : State) (r : Nat) (x : ReqRing) : (s.setReqRing r x).pending = s.pending := rfl

/-! ### setReq -/

@[simp] theorem State.setReq_part (s : State) (i : Nat) (q : Req) : (s.setReq i q).part = s.part := rfl
@[simp] theorem State.setReq_gsc (s : State) (i : Nat) (q : Req) : (s.setReq i q).gsc = s.gsc := rfl
@[simp] theorem State.setReq_free (s : State) (i : Nat) (q : Req) : (s.setReq i q).free = s.free := rfl
@[simp] theorem State.setReq_pace (s : State) (i : Nat) (q : Req) : (s.setReq i q).pace = s.pace := rfl
@[simp] theorem State.setReq_regions (s : State) (i : Nat) (q : Req) : (s.setReq i q).regions = s.regions := rfl
@[simp] theorem State.setReq_cores (s : State) (i : Nat) (q : Req) : (s.setReq i q).cores = s.cores := rfl
@[simp] theorem State.setReq_coreRegs (s : State) (i : Nat) (q : Req) : (s.setReq i q).coreRegs = s.coreRegs := rfl
@[simp] theorem State.setReq_flights (s : State) (i : Nat) (q : Req) : (s.setReq i q).flights = s.flights := rfl
@[simp] theorem State.setReq_ss (s : State) (i : Nat) (q : Req) : (s.setReq i q).ss = s.ss := rfl
@[simp] theorem State.setReq_ssErr (s : State) (i : Nat) (q : Req) : (s.setReq i q).ssErr = s.ssErr := rfl
@[simp] theorem State.setReq_ssLines (s : State) (i : Nat) (q : Req) : (s.setReq i q).ssLines = s.ssLines := rfl
@[simp] theorem State.setReq_ssLost (s : State) (i : Nat) (q : Req) : (s.setReq i q).ssLost = s.ssLost := rfl
@[simp] theorem State.setReq_far (s : State) (i : Nat) (q : Req) : (s.setReq i q).far = s.far := rfl
@[simp] theorem State.setReq_queues (s : State) (i : Nat) (q : Req) : (s.setReq i q).queues = s.queues := rfl
@[simp] theorem State.setReq_image (s : State) (i : Nat) (q : Req) : (s.setReq i q).image = s.image := rfl
@[simp] theorem State.setReq_job (s : State) (i : Nat) (q : Req) : (s.setReq i q).job = s.job := rfl
@[simp] theorem State.setReq_stop (s : State) (i : Nat) (q : Req) : (s.setReq i q).stop = s.stop := rfl
@[simp] theorem State.setReq_stopTicks (s : State) (i : Nat) (q : Req) : (s.setReq i q).stopTicks = s.stopTicks := rfl
@[simp] theorem State.setReq_host (s : State) (i : Nat) (q : Req) : (s.setReq i q).host = s.host := rfl
@[simp] theorem State.setReq_power (s : State) (i : Nat) (q : Req) : (s.setReq i q).power = s.power := rfl
@[simp] theorem State.setReq_sec (s : State) (i : Nat) (q : Req) : (s.setReq i q).sec = s.sec := rfl
@[simp] theorem State.setReq_cas (s : State) (i : Nat) (q : Req) : (s.setReq i q).cas = s.cas := rfl
@[simp] theorem State.setReq_recs (s : State) (i : Nat) (q : Req) : (s.setReq i q).recs = s.recs := rfl
@[simp] theorem State.setReq_ports (s : State) (i : Nat) (q : Req) : (s.setReq i q).ports = s.ports := rfl
@[simp] theorem State.setReq_fab (s : State) (i : Nat) (q : Req) : (s.setReq i q).fab = s.fab := rfl
@[simp] theorem State.setReq_test (s : State) (i : Nat) (q : Req) : (s.setReq i q).test = s.test := rfl
@[simp] theorem State.setReq_pending (s : State) (i : Nat) (q : Req) : (s.setReq i q).pending = s.pending := rfl

/-! ### setAdapter -/

@[simp] theorem State.setAdapter_part (s : State) (i : Nat) (x : AdapterSlot) : (s.setAdapter i x).part = s.part := rfl
@[simp] theorem State.setAdapter_gsc (s : State) (i : Nat) (x : AdapterSlot) : (s.setAdapter i x).gsc = s.gsc := rfl
@[simp] theorem State.setAdapter_free (s : State) (i : Nat) (x : AdapterSlot) : (s.setAdapter i x).free = s.free := rfl
@[simp] theorem State.setAdapter_pace (s : State) (i : Nat) (x : AdapterSlot) : (s.setAdapter i x).pace = s.pace := rfl
@[simp] theorem State.setAdapter_regions (s : State) (i : Nat) (x : AdapterSlot) : (s.setAdapter i x).regions = s.regions := rfl
@[simp] theorem State.setAdapter_cores (s : State) (i : Nat) (x : AdapterSlot) : (s.setAdapter i x).cores = s.cores := rfl
@[simp] theorem State.setAdapter_coreRegs (s : State) (i : Nat) (x : AdapterSlot) : (s.setAdapter i x).coreRegs = s.coreRegs := rfl
@[simp] theorem State.setAdapter_flights (s : State) (i : Nat) (x : AdapterSlot) : (s.setAdapter i x).flights = s.flights := rfl
@[simp] theorem State.setAdapter_ss (s : State) (i : Nat) (x : AdapterSlot) : (s.setAdapter i x).ss = s.ss := rfl
@[simp] theorem State.setAdapter_ssErr (s : State) (i : Nat) (x : AdapterSlot) : (s.setAdapter i x).ssErr = s.ssErr := rfl
@[simp] theorem State.setAdapter_ssLines (s : State) (i : Nat) (x : AdapterSlot) : (s.setAdapter i x).ssLines = s.ssLines := rfl
@[simp] theorem State.setAdapter_ssLost (s : State) (i : Nat) (x : AdapterSlot) : (s.setAdapter i x).ssLost = s.ssLost := rfl
@[simp] theorem State.setAdapter_far (s : State) (i : Nat) (x : AdapterSlot) : (s.setAdapter i x).far = s.far := rfl
@[simp] theorem State.setAdapter_queues (s : State) (i : Nat) (x : AdapterSlot) : (s.setAdapter i x).queues = s.queues := rfl
@[simp] theorem State.setAdapter_image (s : State) (i : Nat) (x : AdapterSlot) : (s.setAdapter i x).image = s.image := rfl
@[simp] theorem State.setAdapter_job (s : State) (i : Nat) (x : AdapterSlot) : (s.setAdapter i x).job = s.job := rfl
@[simp] theorem State.setAdapter_stop (s : State) (i : Nat) (x : AdapterSlot) : (s.setAdapter i x).stop = s.stop := rfl
@[simp] theorem State.setAdapter_stopTicks (s : State) (i : Nat) (x : AdapterSlot) : (s.setAdapter i x).stopTicks = s.stopTicks := rfl
@[simp] theorem State.setAdapter_host (s : State) (i : Nat) (x : AdapterSlot) : (s.setAdapter i x).host = s.host := rfl
@[simp] theorem State.setAdapter_power (s : State) (i : Nat) (x : AdapterSlot) : (s.setAdapter i x).power = s.power := rfl
@[simp] theorem State.setAdapter_sec (s : State) (i : Nat) (x : AdapterSlot) : (s.setAdapter i x).sec = s.sec := rfl
@[simp] theorem State.setAdapter_cas (s : State) (i : Nat) (x : AdapterSlot) : (s.setAdapter i x).cas = s.cas := rfl
@[simp] theorem State.setAdapter_recs (s : State) (i : Nat) (x : AdapterSlot) : (s.setAdapter i x).recs = s.recs := rfl
@[simp] theorem State.setAdapter_ports (s : State) (i : Nat) (x : AdapterSlot) : (s.setAdapter i x).ports = s.ports := rfl
@[simp] theorem State.setAdapter_fab (s : State) (i : Nat) (x : AdapterSlot) : (s.setAdapter i x).fab = s.fab := rfl
@[simp] theorem State.setAdapter_test (s : State) (i : Nat) (x : AdapterSlot) : (s.setAdapter i x).test = s.test := rfl
@[simp] theorem State.setAdapter_pending (s : State) (i : Nat) (x : AdapterSlot) : (s.setAdapter i x).pending = s.pending := rfl

/-! ### setPort -/

@[simp] theorem State.setPort_part (s : State) (p : Nat) (x : LinkPort) : (s.setPort p x).part = s.part := rfl
@[simp] theorem State.setPort_gsc (s : State) (p : Nat) (x : LinkPort) : (s.setPort p x).gsc = s.gsc := rfl
@[simp] theorem State.setPort_free (s : State) (p : Nat) (x : LinkPort) : (s.setPort p x).free = s.free := rfl
@[simp] theorem State.setPort_pace (s : State) (p : Nat) (x : LinkPort) : (s.setPort p x).pace = s.pace := rfl
@[simp] theorem State.setPort_regions (s : State) (p : Nat) (x : LinkPort) : (s.setPort p x).regions = s.regions := rfl
@[simp] theorem State.setPort_cores (s : State) (p : Nat) (x : LinkPort) : (s.setPort p x).cores = s.cores := rfl
@[simp] theorem State.setPort_coreRegs (s : State) (p : Nat) (x : LinkPort) : (s.setPort p x).coreRegs = s.coreRegs := rfl
@[simp] theorem State.setPort_flights (s : State) (p : Nat) (x : LinkPort) : (s.setPort p x).flights = s.flights := rfl
@[simp] theorem State.setPort_ss (s : State) (p : Nat) (x : LinkPort) : (s.setPort p x).ss = s.ss := rfl
@[simp] theorem State.setPort_ssErr (s : State) (p : Nat) (x : LinkPort) : (s.setPort p x).ssErr = s.ssErr := rfl
@[simp] theorem State.setPort_ssLines (s : State) (p : Nat) (x : LinkPort) : (s.setPort p x).ssLines = s.ssLines := rfl
@[simp] theorem State.setPort_ssLost (s : State) (p : Nat) (x : LinkPort) : (s.setPort p x).ssLost = s.ssLost := rfl
@[simp] theorem State.setPort_far (s : State) (p : Nat) (x : LinkPort) : (s.setPort p x).far = s.far := rfl
@[simp] theorem State.setPort_queues (s : State) (p : Nat) (x : LinkPort) : (s.setPort p x).queues = s.queues := rfl
@[simp] theorem State.setPort_image (s : State) (p : Nat) (x : LinkPort) : (s.setPort p x).image = s.image := rfl
@[simp] theorem State.setPort_job (s : State) (p : Nat) (x : LinkPort) : (s.setPort p x).job = s.job := rfl
@[simp] theorem State.setPort_stop (s : State) (p : Nat) (x : LinkPort) : (s.setPort p x).stop = s.stop := rfl
@[simp] theorem State.setPort_stopTicks (s : State) (p : Nat) (x : LinkPort) : (s.setPort p x).stopTicks = s.stopTicks := rfl
@[simp] theorem State.setPort_host (s : State) (p : Nat) (x : LinkPort) : (s.setPort p x).host = s.host := rfl
@[simp] theorem State.setPort_power (s : State) (p : Nat) (x : LinkPort) : (s.setPort p x).power = s.power := rfl
@[simp] theorem State.setPort_sec (s : State) (p : Nat) (x : LinkPort) : (s.setPort p x).sec = s.sec := rfl
@[simp] theorem State.setPort_cas (s : State) (p : Nat) (x : LinkPort) : (s.setPort p x).cas = s.cas := rfl
@[simp] theorem State.setPort_srv (s : State) (p : Nat) (x : LinkPort) : (s.setPort p x).srv = s.srv := rfl
@[simp] theorem State.setPort_recs (s : State) (p : Nat) (x : LinkPort) : (s.setPort p x).recs = s.recs := rfl
@[simp] theorem State.setPort_fab (s : State) (p : Nat) (x : LinkPort) : (s.setPort p x).fab = s.fab := rfl
@[simp] theorem State.setPort_test (s : State) (p : Nat) (x : LinkPort) : (s.setPort p x).test = s.test := rfl
@[simp] theorem State.setPort_pending (s : State) (p : Nat) (x : LinkPort) : (s.setPort p x).pending = s.pending := rfl

/-! ### withFab -/

@[simp] theorem State.withFab_part (s : State) (f : Fabric) : (s.withFab f).part = s.part := rfl
@[simp] theorem State.withFab_gsc (s : State) (f : Fabric) : (s.withFab f).gsc = s.gsc := rfl
@[simp] theorem State.withFab_free (s : State) (f : Fabric) : (s.withFab f).free = s.free := rfl
@[simp] theorem State.withFab_pace (s : State) (f : Fabric) : (s.withFab f).pace = s.pace := rfl
@[simp] theorem State.withFab_regions (s : State) (f : Fabric) : (s.withFab f).regions = s.regions := rfl
@[simp] theorem State.withFab_cores (s : State) (f : Fabric) : (s.withFab f).cores = s.cores := rfl
@[simp] theorem State.withFab_coreRegs (s : State) (f : Fabric) : (s.withFab f).coreRegs = s.coreRegs := rfl
@[simp] theorem State.withFab_flights (s : State) (f : Fabric) : (s.withFab f).flights = s.flights := rfl
@[simp] theorem State.withFab_ss (s : State) (f : Fabric) : (s.withFab f).ss = s.ss := rfl
@[simp] theorem State.withFab_ssErr (s : State) (f : Fabric) : (s.withFab f).ssErr = s.ssErr := rfl
@[simp] theorem State.withFab_ssLines (s : State) (f : Fabric) : (s.withFab f).ssLines = s.ssLines := rfl
@[simp] theorem State.withFab_ssLost (s : State) (f : Fabric) : (s.withFab f).ssLost = s.ssLost := rfl
@[simp] theorem State.withFab_far (s : State) (f : Fabric) : (s.withFab f).far = s.far := rfl
@[simp] theorem State.withFab_queues (s : State) (f : Fabric) : (s.withFab f).queues = s.queues := rfl
@[simp] theorem State.withFab_image (s : State) (f : Fabric) : (s.withFab f).image = s.image := rfl
@[simp] theorem State.withFab_job (s : State) (f : Fabric) : (s.withFab f).job = s.job := rfl
@[simp] theorem State.withFab_stop (s : State) (f : Fabric) : (s.withFab f).stop = s.stop := rfl
@[simp] theorem State.withFab_stopTicks (s : State) (f : Fabric) : (s.withFab f).stopTicks = s.stopTicks := rfl
@[simp] theorem State.withFab_host (s : State) (f : Fabric) : (s.withFab f).host = s.host := rfl
@[simp] theorem State.withFab_power (s : State) (f : Fabric) : (s.withFab f).power = s.power := rfl
@[simp] theorem State.withFab_sec (s : State) (f : Fabric) : (s.withFab f).sec = s.sec := rfl
@[simp] theorem State.withFab_cas (s : State) (f : Fabric) : (s.withFab f).cas = s.cas := rfl
@[simp] theorem State.withFab_srv (s : State) (f : Fabric) : (s.withFab f).srv = s.srv := rfl
@[simp] theorem State.withFab_recs (s : State) (f : Fabric) : (s.withFab f).recs = s.recs := rfl
@[simp] theorem State.withFab_ports (s : State) (f : Fabric) : (s.withFab f).ports = s.ports := rfl
@[simp] theorem State.withFab_fab (s : State) (f : Fabric) : (s.withFab f).fab = f := rfl
@[simp] theorem State.withFab_test (s : State) (f : Fabric) : (s.withFab f).test = s.test := rfl
@[simp] theorem State.withFab_pending (s : State) (f : Fabric) : (s.withFab f).pending = s.pending := rfl

/-! ### setBank -/

@[simp] theorem State.setBank_part (s : State) (b : Nat) (x : Bank) : (s.setBank b x).part = s.part := rfl
@[simp] theorem State.setBank_gsc (s : State) (b : Nat) (x : Bank) : (s.setBank b x).gsc = s.gsc := rfl
@[simp] theorem State.setBank_free (s : State) (b : Nat) (x : Bank) : (s.setBank b x).free = s.free := rfl
@[simp] theorem State.setBank_pace (s : State) (b : Nat) (x : Bank) : (s.setBank b x).pace = s.pace := rfl
@[simp] theorem State.setBank_regions (s : State) (b : Nat) (x : Bank) : (s.setBank b x).regions = s.regions := rfl
@[simp] theorem State.setBank_cores (s : State) (b : Nat) (x : Bank) : (s.setBank b x).cores = s.cores := rfl
@[simp] theorem State.setBank_coreRegs (s : State) (b : Nat) (x : Bank) : (s.setBank b x).coreRegs = s.coreRegs := rfl
@[simp] theorem State.setBank_flights (s : State) (b : Nat) (x : Bank) : (s.setBank b x).flights = s.flights := rfl
@[simp] theorem State.setBank_ss (s : State) (b : Nat) (x : Bank) : (s.setBank b x).ss = s.ss := rfl
@[simp] theorem State.setBank_ssErr (s : State) (b : Nat) (x : Bank) : (s.setBank b x).ssErr = s.ssErr := rfl
@[simp] theorem State.setBank_ssLines (s : State) (b : Nat) (x : Bank) : (s.setBank b x).ssLines = s.ssLines := rfl
@[simp] theorem State.setBank_ssLost (s : State) (b : Nat) (x : Bank) : (s.setBank b x).ssLost = s.ssLost := rfl
@[simp] theorem State.setBank_far (s : State) (b : Nat) (x : Bank) : (s.setBank b x).far = s.far := rfl
@[simp] theorem State.setBank_queues (s : State) (b : Nat) (x : Bank) : (s.setBank b x).queues = s.queues := rfl
@[simp] theorem State.setBank_image (s : State) (b : Nat) (x : Bank) : (s.setBank b x).image = s.image := rfl
@[simp] theorem State.setBank_job (s : State) (b : Nat) (x : Bank) : (s.setBank b x).job = s.job := rfl
@[simp] theorem State.setBank_stop (s : State) (b : Nat) (x : Bank) : (s.setBank b x).stop = s.stop := rfl
@[simp] theorem State.setBank_stopTicks (s : State) (b : Nat) (x : Bank) : (s.setBank b x).stopTicks = s.stopTicks := rfl
@[simp] theorem State.setBank_host (s : State) (b : Nat) (x : Bank) : (s.setBank b x).host = s.host := rfl
@[simp] theorem State.setBank_power (s : State) (b : Nat) (x : Bank) : (s.setBank b x).power = s.power := rfl
@[simp] theorem State.setBank_sec (s : State) (b : Nat) (x : Bank) : (s.setBank b x).sec = s.sec := rfl
@[simp] theorem State.setBank_cas (s : State) (b : Nat) (x : Bank) : (s.setBank b x).cas = s.cas := rfl
@[simp] theorem State.setBank_srv (s : State) (b : Nat) (x : Bank) : (s.setBank b x).srv = s.srv := rfl
@[simp] theorem State.setBank_recs (s : State) (b : Nat) (x : Bank) : (s.setBank b x).recs = s.recs := rfl
@[simp] theorem State.setBank_ports (s : State) (b : Nat) (x : Bank) : (s.setBank b x).ports = s.ports := rfl
@[simp] theorem State.setBank_test (s : State) (b : Nat) (x : Bank) : (s.setBank b x).test = s.test := rfl
@[simp] theorem State.setBank_pending (s : State) (b : Nat) (x : Bank) : (s.setBank b x).pending = s.pending := rfl

/-! ### withSec -/

@[simp] theorem State.withSec_part (s : State) (x : Sec) : (s.withSec x).part = s.part := rfl
@[simp] theorem State.withSec_gsc (s : State) (x : Sec) : (s.withSec x).gsc = s.gsc := rfl
@[simp] theorem State.withSec_free (s : State) (x : Sec) : (s.withSec x).free = s.free := rfl
@[simp] theorem State.withSec_pace (s : State) (x : Sec) : (s.withSec x).pace = s.pace := rfl
@[simp] theorem State.withSec_regions (s : State) (x : Sec) : (s.withSec x).regions = s.regions := rfl
@[simp] theorem State.withSec_cores (s : State) (x : Sec) : (s.withSec x).cores = s.cores := rfl
@[simp] theorem State.withSec_coreRegs (s : State) (x : Sec) : (s.withSec x).coreRegs = s.coreRegs := rfl
@[simp] theorem State.withSec_flights (s : State) (x : Sec) : (s.withSec x).flights = s.flights := rfl
@[simp] theorem State.withSec_ss (s : State) (x : Sec) : (s.withSec x).ss = s.ss := rfl
@[simp] theorem State.withSec_ssErr (s : State) (x : Sec) : (s.withSec x).ssErr = s.ssErr := rfl
@[simp] theorem State.withSec_ssLines (s : State) (x : Sec) : (s.withSec x).ssLines = s.ssLines := rfl
@[simp] theorem State.withSec_ssLost (s : State) (x : Sec) : (s.withSec x).ssLost = s.ssLost := rfl
@[simp] theorem State.withSec_far (s : State) (x : Sec) : (s.withSec x).far = s.far := rfl
@[simp] theorem State.withSec_queues (s : State) (x : Sec) : (s.withSec x).queues = s.queues := rfl
@[simp] theorem State.withSec_image (s : State) (x : Sec) : (s.withSec x).image = s.image := rfl
@[simp] theorem State.withSec_job (s : State) (x : Sec) : (s.withSec x).job = s.job := rfl
@[simp] theorem State.withSec_stop (s : State) (x : Sec) : (s.withSec x).stop = s.stop := rfl
@[simp] theorem State.withSec_stopTicks (s : State) (x : Sec) : (s.withSec x).stopTicks = s.stopTicks := rfl
@[simp] theorem State.withSec_host (s : State) (x : Sec) : (s.withSec x).host = s.host := rfl
@[simp] theorem State.withSec_power (s : State) (x : Sec) : (s.withSec x).power = s.power := rfl
@[simp] theorem State.withSec_sec (s : State) (x : Sec) : (s.withSec x).sec = x := rfl
@[simp] theorem State.withSec_cas (s : State) (x : Sec) : (s.withSec x).cas = s.cas := rfl
@[simp] theorem State.withSec_srv (s : State) (x : Sec) : (s.withSec x).srv = s.srv := rfl
@[simp] theorem State.withSec_recs (s : State) (x : Sec) : (s.withSec x).recs = s.recs := rfl
@[simp] theorem State.withSec_ports (s : State) (x : Sec) : (s.withSec x).ports = s.ports := rfl
@[simp] theorem State.withSec_fab (s : State) (x : Sec) : (s.withSec x).fab = s.fab := rfl
@[simp] theorem State.withSec_test (s : State) (x : Sec) : (s.withSec x).test = s.test := rfl
@[simp] theorem State.withSec_pending (s : State) (x : Sec) : (s.withSec x).pending = s.pending := rfl

/-! ### setOwner -/

@[simp] theorem State.setOwner_part (s : State) (o : OwnerBlock) : (s.setOwner o).part = s.part := rfl
@[simp] theorem State.setOwner_gsc (s : State) (o : OwnerBlock) : (s.setOwner o).gsc = s.gsc := rfl
@[simp] theorem State.setOwner_free (s : State) (o : OwnerBlock) : (s.setOwner o).free = s.free + 1 := rfl
@[simp] theorem State.setOwner_pace (s : State) (o : OwnerBlock) : (s.setOwner o).pace = s.pace := rfl
@[simp] theorem State.setOwner_regions (s : State) (o : OwnerBlock) : (s.setOwner o).regions = s.regions := rfl
@[simp] theorem State.setOwner_cores (s : State) (o : OwnerBlock) : (s.setOwner o).cores = s.cores := rfl
@[simp] theorem State.setOwner_coreRegs (s : State) (o : OwnerBlock) : (s.setOwner o).coreRegs = s.coreRegs := rfl
@[simp] theorem State.setOwner_flights (s : State) (o : OwnerBlock) : (s.setOwner o).flights = s.flights := rfl
@[simp] theorem State.setOwner_ss (s : State) (o : OwnerBlock) : (s.setOwner o).ss = s.ss := rfl
@[simp] theorem State.setOwner_ssErr (s : State) (o : OwnerBlock) : (s.setOwner o).ssErr = s.ssErr := rfl
@[simp] theorem State.setOwner_ssLines (s : State) (o : OwnerBlock) : (s.setOwner o).ssLines = s.ssLines := rfl
@[simp] theorem State.setOwner_ssLost (s : State) (o : OwnerBlock) : (s.setOwner o).ssLost = s.ssLost := rfl
@[simp] theorem State.setOwner_far (s : State) (o : OwnerBlock) : (s.setOwner o).far = s.far := rfl
@[simp] theorem State.setOwner_queues (s : State) (o : OwnerBlock) : (s.setOwner o).queues = s.queues := rfl
@[simp] theorem State.setOwner_image (s : State) (o : OwnerBlock) : (s.setOwner o).image = s.image := rfl
@[simp] theorem State.setOwner_job (s : State) (o : OwnerBlock) : (s.setOwner o).job = s.job := rfl
@[simp] theorem State.setOwner_stop (s : State) (o : OwnerBlock) : (s.setOwner o).stop = s.stop := rfl
@[simp] theorem State.setOwner_stopTicks (s : State) (o : OwnerBlock) : (s.setOwner o).stopTicks = s.stopTicks := rfl
@[simp] theorem State.setOwner_host (s : State) (o : OwnerBlock) : (s.setOwner o).host = s.host := rfl
@[simp] theorem State.setOwner_power (s : State) (o : OwnerBlock) : (s.setOwner o).power = s.power := rfl
@[simp] theorem State.setOwner_cas (s : State) (o : OwnerBlock) : (s.setOwner o).cas = s.cas := rfl
@[simp] theorem State.setOwner_srv (s : State) (o : OwnerBlock) : (s.setOwner o).srv = s.srv := rfl
@[simp] theorem State.setOwner_recs (s : State) (o : OwnerBlock) : (s.setOwner o).recs = s.recs := rfl
@[simp] theorem State.setOwner_ports (s : State) (o : OwnerBlock) : (s.setOwner o).ports = s.ports := rfl
@[simp] theorem State.setOwner_fab (s : State) (o : OwnerBlock) : (s.setOwner o).fab = s.fab := rfl
@[simp] theorem State.setOwner_test (s : State) (o : OwnerBlock) : (s.setOwner o).test = s.test := rfl
@[simp] theorem State.setOwner_pending (s : State) (o : OwnerBlock) : (s.setOwner o).pending = s.pending := rfl

/-! ### setConn -/

@[simp] theorem State.setConn_part (s : State) (p : SpdmPath) (x : Spdm) : (s.setConn p x).part = s.part := rfl
@[simp] theorem State.setConn_gsc (s : State) (p : SpdmPath) (x : Spdm) : (s.setConn p x).gsc = s.gsc := rfl
@[simp] theorem State.setConn_free (s : State) (p : SpdmPath) (x : Spdm) : (s.setConn p x).free = s.free := rfl
@[simp] theorem State.setConn_pace (s : State) (p : SpdmPath) (x : Spdm) : (s.setConn p x).pace = s.pace := rfl
@[simp] theorem State.setConn_regions (s : State) (p : SpdmPath) (x : Spdm) : (s.setConn p x).regions = s.regions := rfl
@[simp] theorem State.setConn_cores (s : State) (p : SpdmPath) (x : Spdm) : (s.setConn p x).cores = s.cores := rfl
@[simp] theorem State.setConn_coreRegs (s : State) (p : SpdmPath) (x : Spdm) : (s.setConn p x).coreRegs = s.coreRegs := rfl
@[simp] theorem State.setConn_flights (s : State) (p : SpdmPath) (x : Spdm) : (s.setConn p x).flights = s.flights := rfl
@[simp] theorem State.setConn_ss (s : State) (p : SpdmPath) (x : Spdm) : (s.setConn p x).ss = s.ss := rfl
@[simp] theorem State.setConn_ssErr (s : State) (p : SpdmPath) (x : Spdm) : (s.setConn p x).ssErr = s.ssErr := rfl
@[simp] theorem State.setConn_ssLines (s : State) (p : SpdmPath) (x : Spdm) : (s.setConn p x).ssLines = s.ssLines := rfl
@[simp] theorem State.setConn_ssLost (s : State) (p : SpdmPath) (x : Spdm) : (s.setConn p x).ssLost = s.ssLost := rfl
@[simp] theorem State.setConn_far (s : State) (p : SpdmPath) (x : Spdm) : (s.setConn p x).far = s.far := rfl
@[simp] theorem State.setConn_queues (s : State) (p : SpdmPath) (x : Spdm) : (s.setConn p x).queues = s.queues := rfl
@[simp] theorem State.setConn_image (s : State) (p : SpdmPath) (x : Spdm) : (s.setConn p x).image = s.image := rfl
@[simp] theorem State.setConn_job (s : State) (p : SpdmPath) (x : Spdm) : (s.setConn p x).job = s.job := rfl
@[simp] theorem State.setConn_stop (s : State) (p : SpdmPath) (x : Spdm) : (s.setConn p x).stop = s.stop := rfl
@[simp] theorem State.setConn_stopTicks (s : State) (p : SpdmPath) (x : Spdm) : (s.setConn p x).stopTicks = s.stopTicks := rfl
@[simp] theorem State.setConn_host (s : State) (p : SpdmPath) (x : Spdm) : (s.setConn p x).host = s.host := rfl
@[simp] theorem State.setConn_power (s : State) (p : SpdmPath) (x : Spdm) : (s.setConn p x).power = s.power := rfl
@[simp] theorem State.setConn_cas (s : State) (p : SpdmPath) (x : Spdm) : (s.setConn p x).cas = s.cas := rfl
@[simp] theorem State.setConn_srv (s : State) (p : SpdmPath) (x : Spdm) : (s.setConn p x).srv = s.srv := rfl
@[simp] theorem State.setConn_recs (s : State) (p : SpdmPath) (x : Spdm) : (s.setConn p x).recs = s.recs := rfl
@[simp] theorem State.setConn_ports (s : State) (p : SpdmPath) (x : Spdm) : (s.setConn p x).ports = s.ports := rfl
@[simp] theorem State.setConn_fab (s : State) (p : SpdmPath) (x : Spdm) : (s.setConn p x).fab = s.fab := rfl
@[simp] theorem State.setConn_test (s : State) (p : SpdmPath) (x : Spdm) : (s.setConn p x).test = s.test := rfl
@[simp] theorem State.setConn_pending (s : State) (p : SpdmPath) (x : Spdm) : (s.setConn p x).pending = s.pending := rfl

/-! ### withTest -/

@[simp] theorem State.withTest_part (s : State) (x : TestBlk) : (s.withTest x).part = s.part := rfl
@[simp] theorem State.withTest_gsc (s : State) (x : TestBlk) : (s.withTest x).gsc = s.gsc := rfl
@[simp] theorem State.withTest_free (s : State) (x : TestBlk) : (s.withTest x).free = s.free := rfl
@[simp] theorem State.withTest_pace (s : State) (x : TestBlk) : (s.withTest x).pace = s.pace := rfl
@[simp] theorem State.withTest_regions (s : State) (x : TestBlk) : (s.withTest x).regions = s.regions := rfl
@[simp] theorem State.withTest_cores (s : State) (x : TestBlk) : (s.withTest x).cores = s.cores := rfl
@[simp] theorem State.withTest_coreRegs (s : State) (x : TestBlk) : (s.withTest x).coreRegs = s.coreRegs := rfl
@[simp] theorem State.withTest_flights (s : State) (x : TestBlk) : (s.withTest x).flights = s.flights := rfl
@[simp] theorem State.withTest_ss (s : State) (x : TestBlk) : (s.withTest x).ss = s.ss := rfl
@[simp] theorem State.withTest_ssErr (s : State) (x : TestBlk) : (s.withTest x).ssErr = s.ssErr := rfl
@[simp] theorem State.withTest_ssLines (s : State) (x : TestBlk) : (s.withTest x).ssLines = s.ssLines := rfl
@[simp] theorem State.withTest_ssLost (s : State) (x : TestBlk) : (s.withTest x).ssLost = s.ssLost := rfl
@[simp] theorem State.withTest_far (s : State) (x : TestBlk) : (s.withTest x).far = s.far := rfl
@[simp] theorem State.withTest_queues (s : State) (x : TestBlk) : (s.withTest x).queues = s.queues := rfl
@[simp] theorem State.withTest_image (s : State) (x : TestBlk) : (s.withTest x).image = s.image := rfl
@[simp] theorem State.withTest_job (s : State) (x : TestBlk) : (s.withTest x).job = s.job := rfl
@[simp] theorem State.withTest_stop (s : State) (x : TestBlk) : (s.withTest x).stop = s.stop := rfl
@[simp] theorem State.withTest_stopTicks (s : State) (x : TestBlk) : (s.withTest x).stopTicks = s.stopTicks := rfl
@[simp] theorem State.withTest_host (s : State) (x : TestBlk) : (s.withTest x).host = s.host := rfl
@[simp] theorem State.withTest_power (s : State) (x : TestBlk) : (s.withTest x).power = s.power := rfl
@[simp] theorem State.withTest_sec (s : State) (x : TestBlk) : (s.withTest x).sec = s.sec := rfl
@[simp] theorem State.withTest_cas (s : State) (x : TestBlk) : (s.withTest x).cas = s.cas := rfl
@[simp] theorem State.withTest_srv (s : State) (x : TestBlk) : (s.withTest x).srv = s.srv := rfl
@[simp] theorem State.withTest_recs (s : State) (x : TestBlk) : (s.withTest x).recs = s.recs := rfl
@[simp] theorem State.withTest_ports (s : State) (x : TestBlk) : (s.withTest x).ports = s.ports := rfl
@[simp] theorem State.withTest_fab (s : State) (x : TestBlk) : (s.withTest x).fab = s.fab := rfl
@[simp] theorem State.withTest_test (s : State) (x : TestBlk) : (s.withTest x).test = x := rfl
@[simp] theorem State.withTest_pending (s : State) (x : TestBlk) : (s.withTest x).pending = s.pending := rfl

/-! ### elapse -/

@[simp] theorem State.elapse_part (s : State) (n : Nat) : (s.elapse n).part = s.part := rfl
@[simp] theorem State.elapse_gsc (s : State) (n : Nat) : (s.elapse n).gsc = s.gsc + n := rfl
@[simp] theorem State.elapse_free (s : State) (n : Nat) : (s.elapse n).free = s.free := rfl
@[simp] theorem State.elapse_regions (s : State) (n : Nat) : (s.elapse n).regions = s.regions := rfl
@[simp] theorem State.elapse_cores (s : State) (n : Nat) : (s.elapse n).cores = s.cores := rfl
@[simp] theorem State.elapse_coreRegs (s : State) (n : Nat) : (s.elapse n).coreRegs = s.coreRegs := rfl
@[simp] theorem State.elapse_flights (s : State) (n : Nat) : (s.elapse n).flights = s.flights := rfl
@[simp] theorem State.elapse_ss (s : State) (n : Nat) : (s.elapse n).ss = s.ss := rfl
@[simp] theorem State.elapse_ssErr (s : State) (n : Nat) : (s.elapse n).ssErr = s.ssErr := rfl
@[simp] theorem State.elapse_ssLines (s : State) (n : Nat) : (s.elapse n).ssLines = s.ssLines := rfl
@[simp] theorem State.elapse_ssLost (s : State) (n : Nat) : (s.elapse n).ssLost = s.ssLost := rfl
@[simp] theorem State.elapse_far (s : State) (n : Nat) : (s.elapse n).far = s.far := rfl
@[simp] theorem State.elapse_queues (s : State) (n : Nat) : (s.elapse n).queues = s.queues := rfl
@[simp] theorem State.elapse_image (s : State) (n : Nat) : (s.elapse n).image = s.image := rfl
@[simp] theorem State.elapse_job (s : State) (n : Nat) : (s.elapse n).job = s.job := rfl
@[simp] theorem State.elapse_stop (s : State) (n : Nat) : (s.elapse n).stop = s.stop := rfl
@[simp] theorem State.elapse_stopTicks (s : State) (n : Nat) : (s.elapse n).stopTicks = s.stopTicks := rfl
@[simp] theorem State.elapse_host (s : State) (n : Nat) : (s.elapse n).host = s.host := rfl
@[simp] theorem State.elapse_sec (s : State) (n : Nat) : (s.elapse n).sec = s.sec := rfl
@[simp] theorem State.elapse_cas (s : State) (n : Nat) : (s.elapse n).cas = s.cas := rfl
@[simp] theorem State.elapse_srv (s : State) (n : Nat) : (s.elapse n).srv = s.srv := rfl
@[simp] theorem State.elapse_recs (s : State) (n : Nat) : (s.elapse n).recs = s.recs := rfl
@[simp] theorem State.elapse_ports (s : State) (n : Nat) : (s.elapse n).ports = s.ports := rfl
@[simp] theorem State.elapse_fab (s : State) (n : Nat) : (s.elapse n).fab = s.fab := rfl
@[simp] theorem State.elapse_test (s : State) (n : Nat) : (s.elapse n).test = s.test := rfl
@[simp] theorem State.elapse_pending (s : State) (n : Nat) : (s.elapse n).pending = s.pending := rfl

/-! ### Read after write -/

@[simp] theorem State.core_setCore (s : State) (c : Nat) (k : Core) : (s.setCore c k).core c = k := by
  simp [State.core, State.setCore]
theorem State.core_setCore_other (s : State) {c d : Nat} (k : Core) (h : d ≠ c) : (s.setCore c k).core d = s.core d :=
  Map.find_put_other _ _ _ h
@[simp] theorem State.region_setRegion (s : State) (r : Nat) (x : Region) : (s.setRegion r x).region r = x := by
  simp [State.region, State.setRegion]
theorem State.region_setRegion_other (s : State) {r q : Nat} (x : Region) (h : q ≠ r) :
    (s.setRegion r x).region q = s.region q := Map.find_put_other _ _ _ h
@[simp] theorem State.queue_setQueue (s : State) (c h : Nat) (q : Queue) : (s.setQueue c h q).queue c h = q := by
  simp [State.queue, State.setQueue]
theorem State.queue_setQueue_other (s : State) {c h d i : Nat} (q : Queue) (n : qKey d i ≠ qKey c h) :
    (s.setQueue c h q).queue d i = s.queue d i := Map.find_put_other _ _ _ n
@[simp] theorem State.chan_setChan (s : State) (c : Nat) (x : Channel) : (s.setChan c x).chan c = x := by
  simp [State.chan, State.setChan]
theorem State.chan_setChan_other (s : State) {c d : Nat} (x : Channel) (h : d ≠ c) : (s.setChan c x).chan d = s.chan d :=
  Map.find_put_other _ _ _ h
@[simp] theorem State.source_setSource (s : State) (n : Nat) (x : Source) : (s.setSource n x).source n = x := by
  simp [State.source, State.setSource]
theorem State.source_setSource_other (s : State) {n m : Nat} (x : Source) (h : m ≠ n) :
    (s.setSource n x).source m = s.source m := Map.find_put_other _ _ _ h
@[simp] theorem State.mgmtPort_setMgmtPort (s : State) (p : Nat) (x : MgmtPort) : (s.setMgmtPort p x).mgmtPort p = x := by
  simp [State.mgmtPort, State.setMgmtPort]
theorem State.mgmtPort_setMgmtPort_other (s : State) {p q : Nat} (x : MgmtPort) (h : q ≠ p) :
    (s.setMgmtPort p x).mgmtPort q = s.mgmtPort q := Map.find_put_other _ _ _ h

/-! ### Reads through tables that an update leaves -/

theorem State.core_eq (s t : State) (h : t.cores = s.cores) (c : Nat) : t.core c = s.core c := by simp [State.core, h]
theorem State.region_eq (s t : State) (h : t.regions = s.regions) (r : Nat) : t.region r = s.region r := by
  simp [State.region, h]
theorem State.queue_eq (s t : State) (h : t.queues = s.queues) (c i : Nat) : t.queue c i = s.queue c i := by
  simp [State.queue, h]
@[simp] theorem State.hasCore_setCore (s : State) (c d : Nat) (k : Core) : (s.setCore c k).hasCore d = s.hasCore d := rfl
@[simp] theorem State.regionOf_setCore (s : State) (c d : Nat) (k : Core) : (s.setCore c k).regionOf d = s.regionOf d := rfl
@[simp] theorem State.tickOf_setCore (s : State) (c d : Nat) (k : Core) : (s.setCore c k).tickOf d = s.tickOf d := rfl
@[simp] theorem State.exact_setCore (s : State) (c : Nat) (k : Core) : (s.setCore c k).exact = s.exact := rfl
@[simp] theorem State.region_setCore (s : State) (c r : Nat) (k : Core) : (s.setCore c k).region r = s.region r := rfl
@[simp] theorem State.queue_setCore (s : State) (c d h : Nat) (k : Core) : (s.setCore c k).queue d h = s.queue d h := rfl

end Sys2Proof.Machine
end

