-- ==== Sys2Proof/Laws/Ops.lean ====
section
/-! SUPPORT. What the shared operations do and what they leave: time, events, faults, job states, host writes, answers. -/
namespace Sys2Proof.Machine
section
set_option Elab.async false


/-! ### Time -/

@[simp] theorem State.advanceTo_part (s : State) (n : Nat) : (s.advanceTo n).part = s.part := by unfold State.advanceTo; split <;> rfl
@[simp] theorem State.advanceTo_free (s : State) (n : Nat) : (s.advanceTo n).free = s.free := by unfold State.advanceTo; split <;> rfl
@[simp] theorem State.advanceTo_regions (s : State) (n : Nat) : (s.advanceTo n).regions = s.regions := by unfold State.advanceTo; split <;> rfl
@[simp] theorem State.advanceTo_cores (s : State) (n : Nat) : (s.advanceTo n).cores = s.cores := by unfold State.advanceTo; split <;> rfl
@[simp] theorem State.advanceTo_coreRegs (s : State) (n : Nat) : (s.advanceTo n).coreRegs = s.coreRegs := by unfold State.advanceTo; split <;> rfl
@[simp] theorem State.advanceTo_flights (s : State) (n : Nat) : (s.advanceTo n).flights = s.flights := by unfold State.advanceTo; split <;> rfl
@[simp] theorem State.advanceTo_ss (s : State) (n : Nat) : (s.advanceTo n).ss = s.ss := by unfold State.advanceTo; split <;> rfl
@[simp] theorem State.advanceTo_ssErr (s : State) (n : Nat) : (s.advanceTo n).ssErr = s.ssErr := by unfold State.advanceTo; split <;> rfl
@[simp] theorem State.advanceTo_ssLines (s : State) (n : Nat) : (s.advanceTo n).ssLines = s.ssLines := by unfold State.advanceTo; split <;> rfl
@[simp] theorem State.advanceTo_ssLost (s : State) (n : Nat) : (s.advanceTo n).ssLost = s.ssLost := by unfold State.advanceTo; split <;> rfl
@[simp] theorem State.advanceTo_far (s : State) (n : Nat) : (s.advanceTo n).far = s.far := by unfold State.advanceTo; split <;> rfl
@[simp] theorem State.advanceTo_queues (s : State) (n : Nat) : (s.advanceTo n).queues = s.queues := by unfold State.advanceTo; split <;> rfl
@[simp] theorem State.advanceTo_image (s : State) (n : Nat) : (s.advanceTo n).image = s.image := by unfold State.advanceTo; split <;> rfl
@[simp] theorem State.advanceTo_job (s : State) (n : Nat) : (s.advanceTo n).job = s.job := by unfold State.advanceTo; split <;> rfl
@[simp] theorem State.advanceTo_stop (s : State) (n : Nat) : (s.advanceTo n).stop = s.stop := by unfold State.advanceTo; split <;> rfl
@[simp] theorem State.advanceTo_stopTicks (s : State) (n : Nat) : (s.advanceTo n).stopTicks = s.stopTicks := by unfold State.advanceTo; split <;> rfl
@[simp] theorem State.advanceTo_host (s : State) (n : Nat) : (s.advanceTo n).host = s.host := by unfold State.advanceTo; split <;> rfl
@[simp] theorem State.advanceTo_sec (s : State) (n : Nat) : (s.advanceTo n).sec = s.sec := by unfold State.advanceTo; split <;> rfl
@[simp] theorem State.advanceTo_cas (s : State) (n : Nat) : (s.advanceTo n).cas = s.cas := by unfold State.advanceTo; split <;> rfl
@[simp] theorem State.advanceTo_srv (s : State) (n : Nat) : (s.advanceTo n).srv = s.srv := by unfold State.advanceTo; split <;> rfl
@[simp] theorem State.advanceTo_recs (s : State) (n : Nat) : (s.advanceTo n).recs = s.recs := by unfold State.advanceTo; split <;> rfl
@[simp] theorem State.advanceTo_ports (s : State) (n : Nat) : (s.advanceTo n).ports = s.ports := by unfold State.advanceTo; split <;> rfl
@[simp] theorem State.advanceTo_fab (s : State) (n : Nat) : (s.advanceTo n).fab = s.fab := by unfold State.advanceTo; split <;> rfl
@[simp] theorem State.advanceTo_test (s : State) (n : Nat) : (s.advanceTo n).test = s.test := by unfold State.advanceTo; split <;> rfl
@[simp] theorem State.advanceTo_pending (s : State) (n : Nat) : (s.advanceTo n).pending = s.pending := by unfold State.advanceTo; split <;> rfl

/-- GSC ends at the later of the two (R48: it never steps backward). -/
@[simp] theorem State.advanceTo_gsc (s : State) (n : Nat) : (s.advanceTo n).gsc = max s.gsc n := by
  unfold State.advanceTo; split
  · rw [State.elapse_gsc]; omega
  · omega

@[simp] theorem State.toRun_part (s : State)  : (s.toRun ).part = s.part := rfl
@[simp] theorem State.toRun_gsc (s : State)  : (s.toRun ).gsc = s.gsc := rfl
@[simp] theorem State.toRun_free (s : State)  : (s.toRun ).free = s.free := rfl
@[simp] theorem State.toRun_regions (s : State)  : (s.toRun ).regions = s.regions := rfl
@[simp] theorem State.toRun_cores (s : State)  : (s.toRun ).cores = s.cores := rfl
@[simp] theorem State.toRun_coreRegs (s : State)  : (s.toRun ).coreRegs = s.coreRegs := rfl
@[simp] theorem State.toRun_flights (s : State)  : (s.toRun ).flights = s.flights := rfl
@[simp] theorem State.toRun_ss (s : State)  : (s.toRun ).ss = s.ss := rfl
@[simp] theorem State.toRun_ssErr (s : State)  : (s.toRun ).ssErr = s.ssErr := rfl
@[simp] theorem State.toRun_ssLines (s : State)  : (s.toRun ).ssLines = s.ssLines := rfl
@[simp] theorem State.toRun_ssLost (s : State)  : (s.toRun ).ssLost = s.ssLost := rfl
@[simp] theorem State.toRun_queues (s : State)  : (s.toRun ).queues = s.queues := rfl
@[simp] theorem State.toRun_image (s : State)  : (s.toRun ).image = s.image := rfl
@[simp] theorem State.toRun_job (s : State)  : (s.toRun ).job = s.job := rfl
@[simp] theorem State.toRun_stop (s : State)  : (s.toRun ).stop = s.stop := rfl
@[simp] theorem State.toRun_stopTicks (s : State)  : (s.toRun ).stopTicks = s.stopTicks := rfl
@[simp] theorem State.toRun_host (s : State)  : (s.toRun ).host = s.host := rfl
@[simp] theorem State.toRun_sec (s : State)  : (s.toRun ).sec = s.sec := rfl
@[simp] theorem State.toRun_cas (s : State)  : (s.toRun ).cas = s.cas := rfl
@[simp] theorem State.toRun_srv (s : State)  : (s.toRun ).srv = s.srv := rfl
@[simp] theorem State.toRun_recs (s : State)  : (s.toRun ).recs = s.recs := rfl
@[simp] theorem State.toRun_fab (s : State)  : (s.toRun ).fab = s.fab := rfl
@[simp] theorem State.toRun_test (s : State)  : (s.toRun ).test = s.test := rfl
@[simp] theorem State.toRun_pending (s : State)  : (s.toRun ).pending = s.pending := rfl
@[simp] theorem State.wake_part (s : State)  : (s.wake ).part = s.part := by unfold State.wake; (repeat' split) <;> simp
@[simp] theorem State.wake_free (s : State)  : (s.wake ).free = s.free := by unfold State.wake; (repeat' split) <;> simp
@[simp] theorem State.wake_regions (s : State)  : (s.wake ).regions = s.regions := by unfold State.wake; (repeat' split) <;> simp
@[simp] theorem State.wake_cores (s : State)  : (s.wake ).cores = s.cores := by unfold State.wake; (repeat' split) <;> simp
@[simp] theorem State.wake_coreRegs (s : State)  : (s.wake ).coreRegs = s.coreRegs := by unfold State.wake; (repeat' split) <;> simp
@[simp] theorem State.wake_flights (s : State)  : (s.wake ).flights = s.flights := by unfold State.wake; (repeat' split) <;> simp
@[simp] theorem State.wake_ss (s : State)  : (s.wake ).ss = s.ss := by unfold State.wake; (repeat' split) <;> simp
@[simp] theorem State.wake_ssErr (s : State)  : (s.wake ).ssErr = s.ssErr := by unfold State.wake; (repeat' split) <;> simp
@[simp] theorem State.wake_ssLines (s : State)  : (s.wake ).ssLines = s.ssLines := by unfold State.wake; (repeat' split) <;> simp
@[simp] theorem State.wake_ssLost (s : State)  : (s.wake ).ssLost = s.ssLost := by unfold State.wake; (repeat' split) <;> simp
@[simp] theorem State.wake_queues (s : State)  : (s.wake ).queues = s.queues := by unfold State.wake; (repeat' split) <;> simp
@[simp] theorem State.wake_image (s : State)  : (s.wake ).image = s.image := by unfold State.wake; (repeat' split) <;> simp
@[simp] theorem State.wake_job (s : State)  : (s.wake ).job = s.job := by unfold State.wake; (repeat' split) <;> simp
@[simp] theorem State.wake_stop (s : State)  : (s.wake ).stop = s.stop := by unfold State.wake; (repeat' split) <;> simp
@[simp] theorem State.wake_stopTicks (s : State)  : (s.wake ).stopTicks = s.stopTicks := by unfold State.wake; (repeat' split) <;> simp
@[simp] theorem State.wake_host (s : State)  : (s.wake ).host = s.host := by unfold State.wake; (repeat' split) <;> simp
@[simp] theorem State.wake_sec (s : State)  : (s.wake ).sec = s.sec := by unfold State.wake; (repeat' split) <;> simp
@[simp] theorem State.wake_cas (s : State)  : (s.wake ).cas = s.cas := by unfold State.wake; (repeat' split) <;> simp
@[simp] theorem State.wake_srv (s : State)  : (s.wake ).srv = s.srv := by unfold State.wake; (repeat' split) <;> simp
@[simp] theorem State.wake_recs (s : State)  : (s.wake ).recs = s.recs := by unfold State.wake; (repeat' split) <;> simp
@[simp] theorem State.wake_fab (s : State)  : (s.wake ).fab = s.fab := by unfold State.wake; (repeat' split) <;> simp
@[simp] theorem State.wake_test (s : State)  : (s.wake ).test = s.test := by unfold State.wake; (repeat' split) <;> simp
@[simp] theorem State.wake_pending (s : State)  : (s.wake ).pending = s.pending := by unfold State.wake; (repeat' split) <;> simp

/-- A module in RUN has nothing to leave. -/
theorem State.wake_run (s : State) (h : s.power.mode = .run) : s.wake = s := by simp [State.wake, h]


/-! ### Events -/

@[simp] theorem State.raiseSource_part (s : State) (n : Nat) (i : RaiseInfo) : (s.raiseSource n i).part = s.part := by unfold State.raiseSource; split <;> rfl
@[simp] theorem State.raiseSource_gsc (s : State) (n : Nat) (i : RaiseInfo) : (s.raiseSource n i).gsc = s.gsc := by unfold State.raiseSource; split <;> rfl
@[simp] theorem State.raiseSource_free (s : State) (n : Nat) (i : RaiseInfo) : (s.raiseSource n i).free = s.free := by unfold State.raiseSource; split <;> rfl
@[simp] theorem State.raiseSource_pace (s : State) (n : Nat) (i : RaiseInfo) : (s.raiseSource n i).pace = s.pace := by unfold State.raiseSource; split <;> rfl
@[simp] theorem State.raiseSource_regions (s : State) (n : Nat) (i : RaiseInfo) : (s.raiseSource n i).regions = s.regions := by unfold State.raiseSource; split <;> rfl
@[simp] theorem State.raiseSource_cores (s : State) (n : Nat) (i : RaiseInfo) : (s.raiseSource n i).cores = s.cores := by unfold State.raiseSource; split <;> rfl
@[simp] theorem State.raiseSource_coreRegs (s : State) (n : Nat) (i : RaiseInfo) : (s.raiseSource n i).coreRegs = s.coreRegs := by unfold State.raiseSource; split <;> rfl
@[simp] theorem State.raiseSource_flights (s : State) (n : Nat) (i : RaiseInfo) : (s.raiseSource n i).flights = s.flights := by unfold State.raiseSource; split <;> rfl
@[simp] theorem State.raiseSource_ss (s : State) (n : Nat) (i : RaiseInfo) : (s.raiseSource n i).ss = s.ss := by unfold State.raiseSource; split <;> rfl
@[simp] theorem State.raiseSource_ssErr (s : State) (n : Nat) (i : RaiseInfo) : (s.raiseSource n i).ssErr = s.ssErr := by unfold State.raiseSource; split <;> rfl
@[simp] theorem State.raiseSource_ssLines (s : State) (n : Nat) (i : RaiseInfo) : (s.raiseSource n i).ssLines = s.ssLines := by unfold State.raiseSource; split <;> rfl
@[simp] theorem State.raiseSource_ssLost (s : State) (n : Nat) (i : RaiseInfo) : (s.raiseSource n i).ssLost = s.ssLost := by unfold State.raiseSource; split <;> rfl
@[simp] theorem State.raiseSource_far (s : State) (n : Nat) (i : RaiseInfo) : (s.raiseSource n i).far = s.far := by unfold State.raiseSource; split <;> rfl
@[simp] theorem State.raiseSource_queues (s : State) (n : Nat) (i : RaiseInfo) : (s.raiseSource n i).queues = s.queues := by unfold State.raiseSource; split <;> rfl
@[simp] theorem State.raiseSource_image (s : State) (n : Nat) (i : RaiseInfo) : (s.raiseSource n i).image = s.image := by unfold State.raiseSource; split <;> rfl
@[simp] theorem State.raiseSource_job (s : State) (n : Nat) (i : RaiseInfo) : (s.raiseSource n i).job = s.job := by unfold State.raiseSource; split <;> rfl
@[simp] theorem State.raiseSource_stop (s : State) (n : Nat) (i : RaiseInfo) : (s.raiseSource n i).stop = s.stop := by unfold State.raiseSource; split <;> rfl
@[simp] theorem State.raiseSource_stopTicks (s : State) (n : Nat) (i : RaiseInfo) : (s.raiseSource n i).stopTicks = s.stopTicks := by unfold State.raiseSource; split <;> rfl
@[simp] theorem State.raiseSource_power (s : State) (n : Nat) (i : RaiseInfo) : (s.raiseSource n i).power = s.power := by unfold State.raiseSource; split <;> rfl
@[simp] theorem State.raiseSource_sec (s : State) (n : Nat) (i : RaiseInfo) : (s.raiseSource n i).sec = s.sec := by unfold State.raiseSource; split <;> rfl
@[simp] theorem State.raiseSource_cas (s : State) (n : Nat) (i : RaiseInfo) : (s.raiseSource n i).cas = s.cas := by unfold State.raiseSource; split <;> rfl
@[simp] theorem State.raiseSource_srv (s : State) (n : Nat) (i : RaiseInfo) : (s.raiseSource n i).srv = s.srv := by unfold State.raiseSource; split <;> rfl
@[simp] theorem State.raiseSource_recs (s : State) (n : Nat) (i : RaiseInfo) : (s.raiseSource n i).recs = s.recs := by unfold State.raiseSource; split <;> rfl
@[simp] theorem State.raiseSource_ports (s : State) (n : Nat) (i : RaiseInfo) : (s.raiseSource n i).ports = s.ports := by unfold State.raiseSource; split <;> rfl
@[simp] theorem State.raiseSource_fab (s : State) (n : Nat) (i : RaiseInfo) : (s.raiseSource n i).fab = s.fab := by unfold State.raiseSource; split <;> rfl
@[simp] theorem State.raiseSource_test (s : State) (n : Nat) (i : RaiseInfo) : (s.raiseSource n i).test = s.test := by unfold State.raiseSource; split <;> rfl
@[simp] theorem State.raiseSource_pending (s : State) (n : Nat) (i : RaiseInfo) : (s.raiseSource n i).pending = s.pending := by unfold State.raiseSource; split <;> rfl
@[simp] theorem State.raiseCode_part (s : State) (c : Nat) (f : Bool) (a b : W64) : (s.raiseCode c f a b).part = s.part := by unfold State.raiseCode; split <;> simp
@[simp] theorem State.raiseCode_gsc (s : State) (c : Nat) (f : Bool) (a b : W64) : (s.raiseCode c f a b).gsc = s.gsc := by unfold State.raiseCode; split <;> simp
@[simp] theorem State.raiseCode_free (s : State) (c : Nat) (f : Bool) (a b : W64) : (s.raiseCode c f a b).free = s.free := by unfold State.raiseCode; split <;> simp
@[simp] theorem State.raiseCode_pace (s : State) (c : Nat) (f : Bool) (a b : W64) : (s.raiseCode c f a b).pace = s.pace := by unfold State.raiseCode; split <;> simp
@[simp] theorem State.raiseCode_regions (s : State) (c : Nat) (f : Bool) (a b : W64) : (s.raiseCode c f a b).regions = s.regions := by unfold State.raiseCode; split <;> simp
@[simp] theorem State.raiseCode_cores (s : State) (c : Nat) (f : Bool) (a b : W64) : (s.raiseCode c f a b).cores = s.cores := by unfold State.raiseCode; split <;> simp
@[simp] theorem State.raiseCode_coreRegs (s : State) (c : Nat) (f : Bool) (a b : W64) : (s.raiseCode c f a b).coreRegs = s.coreRegs := by unfold State.raiseCode; split <;> simp
@[simp] theorem State.raiseCode_flights (s : State) (c : Nat) (f : Bool) (a b : W64) : (s.raiseCode c f a b).flights = s.flights := by unfold State.raiseCode; split <;> simp
@[simp] theorem State.raiseCode_ss (s : State) (c : Nat) (f : Bool) (a b : W64) : (s.raiseCode c f a b).ss = s.ss := by unfold State.raiseCode; split <;> simp
@[simp] theorem State.raiseCode_ssErr (s : State) (c : Nat) (f : Bool) (a b : W64) : (s.raiseCode c f a b).ssErr = s.ssErr := by unfold State.raiseCode; split <;> simp
@[simp] theorem State.raiseCode_ssLines (s : State) (c : Nat) (f : Bool) (a b : W64) : (s.raiseCode c f a b).ssLines = s.ssLines := by unfold State.raiseCode; split <;> simp
@[simp] theorem State.raiseCode_ssLost (s : State) (c : Nat) (f : Bool) (a b : W64) : (s.raiseCode c f a b).ssLost = s.ssLost := by unfold State.raiseCode; split <;> simp
@[simp] theorem State.raiseCode_far (s : State) (c : Nat) (f : Bool) (a b : W64) : (s.raiseCode c f a b).far = s.far := by unfold State.raiseCode; split <;> simp
@[simp] theorem State.raiseCode_queues (s : State) (c : Nat) (f : Bool) (a b : W64) : (s.raiseCode c f a b).queues = s.queues := by unfold State.raiseCode; split <;> simp
@[simp] theorem State.raiseCode_image (s : State) (c : Nat) (f : Bool) (a b : W64) : (s.raiseCode c f a b).image = s.image := by unfold State.raiseCode; split <;> simp
@[simp] theorem State.raiseCode_job (s : State) (c : Nat) (f : Bool) (a b : W64) : (s.raiseCode c f a b).job = s.job := by unfold State.raiseCode; split <;> simp
@[simp] theorem State.raiseCode_stop (s : State) (c : Nat) (f : Bool) (a b : W64) : (s.raiseCode c f a b).stop = s.stop := by unfold State.raiseCode; split <;> simp
@[simp] theorem State.raiseCode_stopTicks (s : State) (c : Nat) (f : Bool) (a b : W64) : (s.raiseCode c f a b).stopTicks = s.stopTicks := by unfold State.raiseCode; split <;> simp
@[simp] theorem State.raiseCode_power (s : State) (c : Nat) (f : Bool) (a b : W64) : (s.raiseCode c f a b).power = s.power := by unfold State.raiseCode; split <;> simp
@[simp] theorem State.raiseCode_sec (s : State) (c : Nat) (f : Bool) (a b : W64) : (s.raiseCode c f a b).sec = s.sec := by unfold State.raiseCode; split <;> simp
@[simp] theorem State.raiseCode_cas (s : State) (c : Nat) (f : Bool) (a b : W64) : (s.raiseCode c f a b).cas = s.cas := by unfold State.raiseCode; split <;> simp
@[simp] theorem State.raiseCode_srv (s : State) (c : Nat) (f : Bool) (a b : W64) : (s.raiseCode c f a b).srv = s.srv := by unfold State.raiseCode; split <;> simp
@[simp] theorem State.raiseCode_recs (s : State) (c : Nat) (f : Bool) (a b : W64) : (s.raiseCode c f a b).recs = s.recs := by unfold State.raiseCode; split <;> simp
@[simp] theorem State.raiseCode_ports (s : State) (c : Nat) (f : Bool) (a b : W64) : (s.raiseCode c f a b).ports = s.ports := by unfold State.raiseCode; split <;> simp
@[simp] theorem State.raiseCode_fab (s : State) (c : Nat) (f : Bool) (a b : W64) : (s.raiseCode c f a b).fab = s.fab := by unfold State.raiseCode; split <;> simp
@[simp] theorem State.raiseCode_test (s : State) (c : Nat) (f : Bool) (a b : W64) : (s.raiseCode c f a b).test = s.test := by unfold State.raiseCode; split <;> simp
@[simp] theorem State.raiseCode_pending (s : State) (c : Nat) (f : Bool) (a b : W64) : (s.raiseCode c f a b).pending = s.pending := by unfold State.raiseCode; split <;> simp
@[simp] theorem State.event_part (s : State) (c : Nat) (a b : W64) : (s.event c a b).part = s.part := by unfold State.event; simp
@[simp] theorem State.event_gsc (s : State) (c : Nat) (a b : W64) : (s.event c a b).gsc = s.gsc := by unfold State.event; simp
@[simp] theorem State.event_free (s : State) (c : Nat) (a b : W64) : (s.event c a b).free = s.free := by unfold State.event; simp
@[simp] theorem State.event_pace (s : State) (c : Nat) (a b : W64) : (s.event c a b).pace = s.pace := by unfold State.event; simp
@[simp] theorem State.event_regions (s : State) (c : Nat) (a b : W64) : (s.event c a b).regions = s.regions := by unfold State.event; simp
@[simp] theorem State.event_cores (s : State) (c : Nat) (a b : W64) : (s.event c a b).cores = s.cores := by unfold State.event; simp
@[simp] theorem State.event_coreRegs (s : State) (c : Nat) (a b : W64) : (s.event c a b).coreRegs = s.coreRegs := by unfold State.event; simp
@[simp] theorem State.event_flights (s : State) (c : Nat) (a b : W64) : (s.event c a b).flights = s.flights := by unfold State.event; simp
@[simp] theorem State.event_ss (s : State) (c : Nat) (a b : W64) : (s.event c a b).ss = s.ss := by unfold State.event; simp
@[simp] theorem State.event_ssErr (s : State) (c : Nat) (a b : W64) : (s.event c a b).ssErr = s.ssErr := by unfold State.event; simp
@[simp] theorem State.event_ssLines (s : State) (c : Nat) (a b : W64) : (s.event c a b).ssLines = s.ssLines := by unfold State.event; simp
@[simp] theorem State.event_ssLost (s : State) (c : Nat) (a b : W64) : (s.event c a b).ssLost = s.ssLost := by unfold State.event; simp
@[simp] theorem State.event_far (s : State) (c : Nat) (a b : W64) : (s.event c a b).far = s.far := by unfold State.event; simp
@[simp] theorem State.event_queues (s : State) (c : Nat) (a b : W64) : (s.event c a b).queues = s.queues := by unfold State.event; simp
@[simp] theorem State.event_image (s : State) (c : Nat) (a b : W64) : (s.event c a b).image = s.image := by unfold State.event; simp
@[simp] theorem State.event_job (s : State) (c : Nat) (a b : W64) : (s.event c a b).job = s.job := by unfold State.event; simp
@[simp] theorem State.event_stop (s : State) (c : Nat) (a b : W64) : (s.event c a b).stop = s.stop := by unfold State.event; simp
@[simp] theorem State.event_stopTicks (s : State) (c : Nat) (a b : W64) : (s.event c a b).stopTicks = s.stopTicks := by unfold State.event; simp
@[simp] theorem State.event_power (s : State) (c : Nat) (a b : W64) : (s.event c a b).power = s.power := by unfold State.event; simp
@[simp] theorem State.event_sec (s : State) (c : Nat) (a b : W64) : (s.event c a b).sec = s.sec := by unfold State.event; simp
@[simp] theorem State.event_cas (s : State) (c : Nat) (a b : W64) : (s.event c a b).cas = s.cas := by unfold State.event; simp
@[simp] theorem State.event_srv (s : State) (c : Nat) (a b : W64) : (s.event c a b).srv = s.srv := by unfold State.event; simp
@[simp] theorem State.event_recs (s : State) (c : Nat) (a b : W64) : (s.event c a b).recs = s.recs := by unfold State.event; simp
@[simp] theorem State.event_ports (s : State) (c : Nat) (a b : W64) : (s.event c a b).ports = s.ports := by unfold State.event; simp
@[simp] theorem State.event_fab (s : State) (c : Nat) (a b : W64) : (s.event c a b).fab = s.fab := by unfold State.event; simp
@[simp] theorem State.event_test (s : State) (c : Nat) (a b : W64) : (s.event c a b).test = s.test := by unfold State.event; simp
@[simp] theorem State.event_pending (s : State) (c : Nat) (a b : W64) : (s.event c a b).pending = s.pending := by unfold State.event; simp

@[simp] theorem State.raiseSource_host_chans (s : State) (n : Nat) (i : RaiseInfo) : (s.raiseSource n i).host.chans = s.host.chans := by unfold State.raiseSource; split <;> rfl
@[simp] theorem State.raiseSource_host_order (s : State) (n : Nat) (i : RaiseInfo) : (s.raiseSource n i).host.order = s.host.order := by unfold State.raiseSource; split <;> rfl
@[simp] theorem State.raiseSource_host_msix (s : State) (n : Nat) (i : RaiseInfo) : (s.raiseSource n i).host.msix = s.host.msix := by unfold State.raiseSource; split <;> rfl
@[simp] theorem State.raiseSource_host_win (s : State) (n : Nat) (i : RaiseInfo) : (s.raiseSource n i).host.win = s.host.win := by unfold State.raiseSource; split <;> rfl
@[simp] theorem State.raiseSource_host_winRefused (s : State) (n : Nat) (i : RaiseInfo) : (s.raiseSource n i).host.winRefused = s.host.winRefused := by unfold State.raiseSource; split <;> rfl
@[simp] theorem State.raiseSource_host_hostMem (s : State) (n : Nat) (i : RaiseInfo) : (s.raiseSource n i).host.hostMem = s.host.hostMem := by unfold State.raiseSource; split <;> rfl
@[simp] theorem State.raiseSource_host_hostWin (s : State) (n : Nat) (i : RaiseInfo) : (s.raiseSource n i).host.hostWin = s.host.hostWin := by unfold State.raiseSource; split <;> rfl
@[simp] theorem State.raiseSource_host_pcieUp (s : State) (n : Nat) (i : RaiseInfo) : (s.raiseSource n i).host.pcieUp = s.host.pcieUp := by unfold State.raiseSource; split <;> rfl
@[simp] theorem State.raiseSource_host_mgmt (s : State) (n : Nat) (i : RaiseInfo) : (s.raiseSource n i).host.mgmt = s.host.mgmt := by unfold State.raiseSource; split <;> rfl
@[simp] theorem State.raiseSource_host_hbLost (s : State) (n : Nat) (i : RaiseInfo) : (s.raiseSource n i).host.hbLost = s.host.hbLost := by unfold State.raiseSource; split <;> rfl
@[simp] theorem State.raiseSource_host_fenceStart (s : State) (n : Nat) (i : RaiseInfo) : (s.raiseSource n i).host.fenceStart = s.host.fenceStart := by unfold State.raiseSource; split <;> rfl
@[simp] theorem State.raiseSource_host_hbEver (s : State) (n : Nat) (i : RaiseInfo) : (s.raiseSource n i).host.hbEver = s.host.hbEver := by unfold State.raiseSource; split <;> rfl
@[simp] theorem State.raiseSource_host_fenceMs (s : State) (n : Nat) (i : RaiseInfo) : (s.raiseSource n i).host.fenceMs = s.host.fenceMs := by unfold State.raiseSource; split <;> rfl
@[simp] theorem State.raiseSource_host_udpPort (s : State) (n : Nat) (i : RaiseInfo) : (s.raiseSource n i).host.udpPort = s.host.udpPort := by unfold State.raiseSource; split <;> rfl
@[simp] theorem State.raiseSource_host_mpRestarts (s : State) (n : Nat) (i : RaiseInfo) : (s.raiseSource n i).host.mpRestarts = s.host.mpRestarts := by unfold State.raiseSource; split <;> rfl
@[simp] theorem State.raiseSource_host_winData (s : State) (n : Nat) (i : RaiseInfo) : (s.raiseSource n i).host.winData = s.host.winData := by unfold State.raiseSource; split <;> rfl
@[simp] theorem State.raiseSource_host_smbData (s : State) (n : Nat) (i : RaiseInfo) : (s.raiseSource n i).host.smbData = s.host.smbData := by unfold State.raiseSource; split <;> rfl
@[simp] theorem State.raiseCode_host_chans (s : State) (c : Nat) (f : Bool) (a b : W64) : (s.raiseCode c f a b).host.chans = s.host.chans := by unfold State.raiseCode; split <;> simp
@[simp] theorem State.raiseCode_host_order (s : State) (c : Nat) (f : Bool) (a b : W64) : (s.raiseCode c f a b).host.order = s.host.order := by unfold State.raiseCode; split <;> simp
@[simp] theorem State.raiseCode_host_msix (s : State) (c : Nat) (f : Bool) (a b : W64) : (s.raiseCode c f a b).host.msix = s.host.msix := by unfold State.raiseCode; split <;> simp
@[simp] theorem State.raiseCode_host_win (s : State) (c : Nat) (f : Bool) (a b : W64) : (s.raiseCode c f a b).host.win = s.host.win := by unfold State.raiseCode; split <;> simp
@[simp] theorem State.raiseCode_host_winRefused (s : State) (c : Nat) (f : Bool) (a b : W64) : (s.raiseCode c f a b).host.winRefused = s.host.winRefused := by unfold State.raiseCode; split <;> simp
@[simp] theorem State.raiseCode_host_hostMem (s : State) (c : Nat) (f : Bool) (a b : W64) : (s.raiseCode c f a b).host.hostMem = s.host.hostMem := by unfold State.raiseCode; split <;> simp
@[simp] theorem State.raiseCode_host_hostWin (s : State) (c : Nat) (f : Bool) (a b : W64) : (s.raiseCode c f a b).host.hostWin = s.host.hostWin := by unfold State.raiseCode; split <;> simp
@[simp] theorem State.raiseCode_host_pcieUp (s : State) (c : Nat) (f : Bool) (a b : W64) : (s.raiseCode c f a b).host.pcieUp = s.host.pcieUp := by unfold State.raiseCode; split <;> simp
@[simp] theorem State.raiseCode_host_mgmt (s : State) (c : Nat) (f : Bool) (a b : W64) : (s.raiseCode c f a b).host.mgmt = s.host.mgmt := by unfold State.raiseCode; split <;> simp
@[simp] theorem State.raiseCode_host_hbLost (s : State) (c : Nat) (f : Bool) (a b : W64) : (s.raiseCode c f a b).host.hbLost = s.host.hbLost := by unfold State.raiseCode; split <;> simp
@[simp] theorem State.raiseCode_host_fenceStart (s : State) (c : Nat) (f : Bool) (a b : W64) : (s.raiseCode c f a b).host.fenceStart = s.host.fenceStart := by unfold State.raiseCode; split <;> simp
@[simp] theorem State.raiseCode_host_hbEver (s : State) (c : Nat) (f : Bool) (a b : W64) : (s.raiseCode c f a b).host.hbEver = s.host.hbEver := by unfold State.raiseCode; split <;> simp
@[simp] theorem State.raiseCode_host_fenceMs (s : State) (c : Nat) (f : Bool) (a b : W64) : (s.raiseCode c f a b).host.fenceMs = s.host.fenceMs := by unfold State.raiseCode; split <;> simp
@[simp] theorem State.raiseCode_host_udpPort (s : State) (c : Nat) (f : Bool) (a b : W64) : (s.raiseCode c f a b).host.udpPort = s.host.udpPort := by unfold State.raiseCode; split <;> simp
@[simp] theorem State.raiseCode_host_mpRestarts (s : State) (c : Nat) (f : Bool) (a b : W64) : (s.raiseCode c f a b).host.mpRestarts = s.host.mpRestarts := by unfold State.raiseCode; split <;> simp
@[simp] theorem State.raiseCode_host_winData (s : State) (c : Nat) (f : Bool) (a b : W64) : (s.raiseCode c f a b).host.winData = s.host.winData := by unfold State.raiseCode; split <;> simp
@[simp] theorem State.raiseCode_host_smbData (s : State) (c : Nat) (f : Bool) (a b : W64) : (s.raiseCode c f a b).host.smbData = s.host.smbData := by unfold State.raiseCode; split <;> simp
@[simp] theorem State.event_host_chans (s : State) (c : Nat) (a b : W64) : (s.event c a b).host.chans = s.host.chans := by unfold State.event; simp
@[simp] theorem State.event_host_order (s : State) (c : Nat) (a b : W64) : (s.event c a b).host.order = s.host.order := by unfold State.event; simp
@[simp] theorem State.event_host_msix (s : State) (c : Nat) (a b : W64) : (s.event c a b).host.msix = s.host.msix := by unfold State.event; simp
@[simp] theorem State.event_host_win (s : State) (c : Nat) (a b : W64) : (s.event c a b).host.win = s.host.win := by unfold State.event; simp
@[simp] theorem State.event_host_winRefused (s : State) (c : Nat) (a b : W64) : (s.event c a b).host.winRefused = s.host.winRefused := by unfold State.event; simp
@[simp] theorem State.event_host_hostMem (s : State) (c : Nat) (a b : W64) : (s.event c a b).host.hostMem = s.host.hostMem := by unfold State.event; simp
@[simp] theorem State.event_host_hostWin (s : State) (c : Nat) (a b : W64) : (s.event c a b).host.hostWin = s.host.hostWin := by unfold State.event; simp
@[simp] theorem State.event_host_pcieUp (s : State) (c : Nat) (a b : W64) : (s.event c a b).host.pcieUp = s.host.pcieUp := by unfold State.event; simp
@[simp] theorem State.event_host_mgmt (s : State) (c : Nat) (a b : W64) : (s.event c a b).host.mgmt = s.host.mgmt := by unfold State.event; simp
@[simp] theorem State.event_host_hbLost (s : State) (c : Nat) (a b : W64) : (s.event c a b).host.hbLost = s.host.hbLost := by unfold State.event; simp
@[simp] theorem State.event_host_fenceStart (s : State) (c : Nat) (a b : W64) : (s.event c a b).host.fenceStart = s.host.fenceStart := by unfold State.event; simp
@[simp] theorem State.event_host_hbEver (s : State) (c : Nat) (a b : W64) : (s.event c a b).host.hbEver = s.host.hbEver := by unfold State.event; simp
@[simp] theorem State.event_host_fenceMs (s : State) (c : Nat) (a b : W64) : (s.event c a b).host.fenceMs = s.host.fenceMs := by unfold State.event; simp
@[simp] theorem State.event_host_udpPort (s : State) (c : Nat) (a b : W64) : (s.event c a b).host.udpPort = s.host.udpPort := by unfold State.event; simp
@[simp] theorem State.event_host_mpRestarts (s : State) (c : Nat) (a b : W64) : (s.event c a b).host.mpRestarts = s.host.mpRestarts := by unfold State.event; simp
@[simp] theorem State.event_host_winData (s : State) (c : Nat) (a b : W64) : (s.event c a b).host.winData = s.host.winData := by unfold State.event; simp
@[simp] theorem State.event_host_smbData (s : State) (c : Nat) (a b : W64) : (s.event c a b).host.smbData = s.host.smbData := by unfold State.event; simp

/-! ### Faults and job states -/

@[simp] theorem State.setJob_part (s : State) (j : JobState) : (s.setJob j).part = s.part := by unfold State.setJob; split <;> simp
@[simp] theorem State.setJob_gsc (s : State) (j : JobState) : (s.setJob j).gsc = s.gsc := by unfold State.setJob; split <;> simp
@[simp] theorem State.setJob_free (s : State) (j : JobState) : (s.setJob j).free = s.free := by unfold State.setJob; split <;> simp
@[simp] theorem State.setJob_pace (s : State) (j : JobState) : (s.setJob j).pace = s.pace := by unfold State.setJob; split <;> simp
@[simp] theorem State.setJob_regions (s : State) (j : JobState) : (s.setJob j).regions = s.regions := by unfold State.setJob; split <;> simp
@[simp] theorem State.setJob_cores (s : State) (j : JobState) : (s.setJob j).cores = s.cores := by unfold State.setJob; split <;> simp
@[simp] theorem State.setJob_coreRegs (s : State) (j : JobState) : (s.setJob j).coreRegs = s.coreRegs := by unfold State.setJob; split <;> simp
@[simp] theorem State.setJob_flights (s : State) (j : JobState) : (s.setJob j).flights = s.flights := by unfold State.setJob; split <;> simp
@[simp] theorem State.setJob_ss (s : State) (j : JobState) : (s.setJob j).ss = s.ss := by unfold State.setJob; split <;> simp
@[simp] theorem State.setJob_ssErr (s : State) (j : JobState) : (s.setJob j).ssErr = s.ssErr := by unfold State.setJob; split <;> simp
@[simp] theorem State.setJob_ssLines (s : State) (j : JobState) : (s.setJob j).ssLines = s.ssLines := by unfold State.setJob; split <;> simp
@[simp] theorem State.setJob_ssLost (s : State) (j : JobState) : (s.setJob j).ssLost = s.ssLost := by unfold State.setJob; split <;> simp
@[simp] theorem State.setJob_far (s : State) (j : JobState) : (s.setJob j).far = s.far := by unfold State.setJob; split <;> simp
@[simp] theorem State.setJob_queues (s : State) (j : JobState) : (s.setJob j).queues = s.queues := by unfold State.setJob; split <;> simp
@[simp] theorem State.setJob_image (s : State) (j : JobState) : (s.setJob j).image = s.image := by unfold State.setJob; split <;> simp
@[simp] theorem State.setJob_stop (s : State) (j : JobState) : (s.setJob j).stop = s.stop := by unfold State.setJob; split <;> simp
@[simp] theorem State.setJob_stopTicks (s : State) (j : JobState) : (s.setJob j).stopTicks = s.stopTicks := by unfold State.setJob; split <;> simp
@[simp] theorem State.setJob_power (s : State) (j : JobState) : (s.setJob j).power = s.power := by unfold State.setJob; split <;> simp
@[simp] theorem State.setJob_sec (s : State) (j : JobState) : (s.setJob j).sec = s.sec := by unfold State.setJob; split <;> simp
@[simp] theorem State.setJob_cas (s : State) (j : JobState) : (s.setJob j).cas = s.cas := by unfold State.setJob; split <;> simp
@[simp] theorem State.setJob_srv (s : State) (j : JobState) : (s.setJob j).srv = s.srv := by unfold State.setJob; split <;> simp
@[simp] theorem State.setJob_recs (s : State) (j : JobState) : (s.setJob j).recs = s.recs := by unfold State.setJob; split <;> simp
@[simp] theorem State.setJob_ports (s : State) (j : JobState) : (s.setJob j).ports = s.ports := by unfold State.setJob; split <;> simp
@[simp] theorem State.setJob_fab (s : State) (j : JobState) : (s.setJob j).fab = s.fab := by unfold State.setJob; split <;> simp
@[simp] theorem State.setJob_test (s : State) (j : JobState) : (s.setJob j).test = s.test := by unfold State.setJob; split <;> simp
@[simp] theorem State.setJob_pending (s : State) (j : JobState) : (s.setJob j).pending = s.pending := by unfold State.setJob; split <;> simp
@[simp] theorem State.moduleFatal_part (s : State) (c : Nat) (a : W64) : (s.moduleFatal c a).part = s.part := by unfold State.moduleFatal; simp
@[simp] theorem State.moduleFatal_gsc (s : State) (c : Nat) (a : W64) : (s.moduleFatal c a).gsc = s.gsc := by unfold State.moduleFatal; simp
@[simp] theorem State.moduleFatal_free (s : State) (c : Nat) (a : W64) : (s.moduleFatal c a).free = s.free := by unfold State.moduleFatal; simp
@[simp] theorem State.moduleFatal_pace (s : State) (c : Nat) (a : W64) : (s.moduleFatal c a).pace = s.pace := by unfold State.moduleFatal; simp
@[simp] theorem State.moduleFatal_regions (s : State) (c : Nat) (a : W64) : (s.moduleFatal c a).regions = s.regions := by unfold State.moduleFatal; simp
@[simp] theorem State.moduleFatal_cores (s : State) (c : Nat) (a : W64) : (s.moduleFatal c a).cores = s.cores := by unfold State.moduleFatal; simp
@[simp] theorem State.moduleFatal_coreRegs (s : State) (c : Nat) (a : W64) : (s.moduleFatal c a).coreRegs = s.coreRegs := by unfold State.moduleFatal; simp
@[simp] theorem State.moduleFatal_flights (s : State) (c : Nat) (a : W64) : (s.moduleFatal c a).flights = s.flights := by unfold State.moduleFatal; simp
@[simp] theorem State.moduleFatal_ss (s : State) (c : Nat) (a : W64) : (s.moduleFatal c a).ss = s.ss := by unfold State.moduleFatal; simp
@[simp] theorem State.moduleFatal_ssErr (s : State) (c : Nat) (a : W64) : (s.moduleFatal c a).ssErr = s.ssErr := by unfold State.moduleFatal; simp
@[simp] theorem State.moduleFatal_ssLines (s : State) (c : Nat) (a : W64) : (s.moduleFatal c a).ssLines = s.ssLines := by unfold State.moduleFatal; simp
@[simp] theorem State.moduleFatal_ssLost (s : State) (c : Nat) (a : W64) : (s.moduleFatal c a).ssLost = s.ssLost := by unfold State.moduleFatal; simp
@[simp] theorem State.moduleFatal_far (s : State) (c : Nat) (a : W64) : (s.moduleFatal c a).far = s.far := by unfold State.moduleFatal; simp
@[simp] theorem State.moduleFatal_queues (s : State) (c : Nat) (a : W64) : (s.moduleFatal c a).queues = s.queues := by unfold State.moduleFatal; simp
@[simp] theorem State.moduleFatal_image (s : State) (c : Nat) (a : W64) : (s.moduleFatal c a).image = s.image := by unfold State.moduleFatal; simp
@[simp] theorem State.moduleFatal_job (s : State) (c : Nat) (a : W64) : (s.moduleFatal c a).job = s.job := by unfold State.moduleFatal; simp
@[simp] theorem State.moduleFatal_stop (s : State) (c : Nat) (a : W64) : (s.moduleFatal c a).stop = s.stop := by unfold State.moduleFatal; simp
@[simp] theorem State.moduleFatal_stopTicks (s : State) (c : Nat) (a : W64) : (s.moduleFatal c a).stopTicks = s.stopTicks := by unfold State.moduleFatal; simp
@[simp] theorem State.moduleFatal_sec (s : State) (c : Nat) (a : W64) : (s.moduleFatal c a).sec = s.sec := by unfold State.moduleFatal; simp
@[simp] theorem State.moduleFatal_cas (s : State) (c : Nat) (a : W64) : (s.moduleFatal c a).cas = s.cas := by unfold State.moduleFatal; simp
@[simp] theorem State.moduleFatal_srv (s : State) (c : Nat) (a : W64) : (s.moduleFatal c a).srv = s.srv := by unfold State.moduleFatal; simp
@[simp] theorem State.moduleFatal_recs (s : State) (c : Nat) (a : W64) : (s.moduleFatal c a).recs = s.recs := by unfold State.moduleFatal; simp
@[simp] theorem State.moduleFatal_ports (s : State) (c : Nat) (a : W64) : (s.moduleFatal c a).ports = s.ports := by unfold State.moduleFatal; simp
@[simp] theorem State.moduleFatal_fab (s : State) (c : Nat) (a : W64) : (s.moduleFatal c a).fab = s.fab := by unfold State.moduleFatal; simp
@[simp] theorem State.moduleFatal_test (s : State) (c : Nat) (a : W64) : (s.moduleFatal c a).test = s.test := by unfold State.moduleFatal; simp
@[simp] theorem State.moduleFatal_pending (s : State) (c : Nat) (a : W64) : (s.moduleFatal c a).pending = s.pending := by unfold State.moduleFatal; simp
@[simp] theorem State.jobFatal_part (s : State) (c : Nat) (r : Option Nat) (a b : W64) (k n : Option Nat) : (s.jobFatal c r a b k n).part = s.part := by unfold State.jobFatal; dsimp only; split <;> simp
@[simp] theorem State.jobFatal_free (s : State) (c : Nat) (r : Option Nat) (a b : W64) (k n : Option Nat) : (s.jobFatal c r a b k n).free = s.free := by unfold State.jobFatal; dsimp only; split <;> simp
@[simp] theorem State.jobFatal_regions (s : State) (c : Nat) (r : Option Nat) (a b : W64) (k n : Option Nat) : (s.jobFatal c r a b k n).regions = s.regions := by unfold State.jobFatal; dsimp only; split <;> simp
@[simp] theorem State.jobFatal_cores (s : State) (c : Nat) (r : Option Nat) (a b : W64) (k n : Option Nat) : (s.jobFatal c r a b k n).cores = s.cores := by unfold State.jobFatal; dsimp only; split <;> simp
@[simp] theorem State.jobFatal_coreRegs (s : State) (c : Nat) (r : Option Nat) (a b : W64) (k n : Option Nat) : (s.jobFatal c r a b k n).coreRegs = s.coreRegs := by unfold State.jobFatal; dsimp only; split <;> simp
@[simp] theorem State.jobFatal_flights (s : State) (c : Nat) (r : Option Nat) (a b : W64) (k n : Option Nat) : (s.jobFatal c r a b k n).flights = s.flights := by unfold State.jobFatal; dsimp only; split <;> simp
@[simp] theorem State.jobFatal_ss (s : State) (c : Nat) (r : Option Nat) (a b : W64) (k n : Option Nat) : (s.jobFatal c r a b k n).ss = s.ss := by unfold State.jobFatal; dsimp only; split <;> simp
@[simp] theorem State.jobFatal_ssErr (s : State) (c : Nat) (r : Option Nat) (a b : W64) (k n : Option Nat) : (s.jobFatal c r a b k n).ssErr = s.ssErr := by unfold State.jobFatal; dsimp only; split <;> simp
@[simp] theorem State.jobFatal_ssLines (s : State) (c : Nat) (r : Option Nat) (a b : W64) (k n : Option Nat) : (s.jobFatal c r a b k n).ssLines = s.ssLines := by unfold State.jobFatal; dsimp only; split <;> simp
@[simp] theorem State.jobFatal_ssLost (s : State) (c : Nat) (r : Option Nat) (a b : W64) (k n : Option Nat) : (s.jobFatal c r a b k n).ssLost = s.ssLost := by unfold State.jobFatal; dsimp only; split <;> simp
@[simp] theorem State.jobFatal_queues (s : State) (c : Nat) (r : Option Nat) (a b : W64) (k n : Option Nat) : (s.jobFatal c r a b k n).queues = s.queues := by unfold State.jobFatal; dsimp only; split <;> simp
@[simp] theorem State.jobFatal_image (s : State) (c : Nat) (r : Option Nat) (a b : W64) (k n : Option Nat) : (s.jobFatal c r a b k n).image = s.image := by unfold State.jobFatal; dsimp only; split <;> simp
@[simp] theorem State.jobFatal_sec (s : State) (c : Nat) (r : Option Nat) (a b : W64) (k n : Option Nat) : (s.jobFatal c r a b k n).sec = s.sec := by unfold State.jobFatal; dsimp only; split <;> simp
@[simp] theorem State.jobFatal_cas (s : State) (c : Nat) (r : Option Nat) (a b : W64) (k n : Option Nat) : (s.jobFatal c r a b k n).cas = s.cas := by unfold State.jobFatal; dsimp only; split <;> simp
@[simp] theorem State.jobFatal_srv (s : State) (c : Nat) (r : Option Nat) (a b : W64) (k n : Option Nat) : (s.jobFatal c r a b k n).srv = s.srv := by unfold State.jobFatal; dsimp only; split <;> simp
@[simp] theorem State.jobFatal_recs (s : State) (c : Nat) (r : Option Nat) (a b : W64) (k n : Option Nat) : (s.jobFatal c r a b k n).recs = s.recs := by unfold State.jobFatal; dsimp only; split <;> simp
@[simp] theorem State.jobFatal_fab (s : State) (c : Nat) (r : Option Nat) (a b : W64) (k n : Option Nat) : (s.jobFatal c r a b k n).fab = s.fab := by unfold State.jobFatal; dsimp only; split <;> simp
@[simp] theorem State.jobFatal_test (s : State) (c : Nat) (r : Option Nat) (a b : W64) (k n : Option Nat) : (s.jobFatal c r a b k n).test = s.test := by unfold State.jobFatal; dsimp only; split <;> simp
@[simp] theorem State.jobFatal_pending (s : State) (c : Nat) (r : Option Nat) (a b : W64) (k n : Option Nat) : (s.jobFatal c r a b k n).pending = s.pending := by unfold State.jobFatal; dsimp only; split <;> simp
@[simp] theorem State.coreFault_part (s : State) (c i n : Nat) : (s.coreFault c i n).part = s.part := by unfold State.coreFault; dsimp only; split <;> simp
@[simp] theorem State.coreFault_free (s : State) (c i n : Nat) : (s.coreFault c i n).free = s.free := by unfold State.coreFault; dsimp only; split <;> simp
@[simp] theorem State.coreFault_regions (s : State) (c i n : Nat) : (s.coreFault c i n).regions = s.regions := by unfold State.coreFault; dsimp only; split <;> simp
@[simp] theorem State.coreFault_flights (s : State) (c i n : Nat) : (s.coreFault c i n).flights = s.flights := by unfold State.coreFault; dsimp only; split <;> simp
@[simp] theorem State.coreFault_ss (s : State) (c i n : Nat) : (s.coreFault c i n).ss = s.ss := by unfold State.coreFault; dsimp only; split <;> simp
@[simp] theorem State.coreFault_ssErr (s : State) (c i n : Nat) : (s.coreFault c i n).ssErr = s.ssErr := by unfold State.coreFault; dsimp only; split <;> simp
@[simp] theorem State.coreFault_ssLines (s : State) (c i n : Nat) : (s.coreFault c i n).ssLines = s.ssLines := by unfold State.coreFault; dsimp only; split <;> simp
@[simp] theorem State.coreFault_ssLost (s : State) (c i n : Nat) : (s.coreFault c i n).ssLost = s.ssLost := by unfold State.coreFault; dsimp only; split <;> simp
@[simp] theorem State.coreFault_queues (s : State) (c i n : Nat) : (s.coreFault c i n).queues = s.queues := by unfold State.coreFault; dsimp only; split <;> simp
@[simp] theorem State.coreFault_image (s : State) (c i n : Nat) : (s.coreFault c i n).image = s.image := by unfold State.coreFault; dsimp only; split <;> simp
@[simp] theorem State.coreFault_sec (s : State) (c i n : Nat) : (s.coreFault c i n).sec = s.sec := by unfold State.coreFault; dsimp only; split <;> simp
@[simp] theorem State.coreFault_cas (s : State) (c i n : Nat) : (s.coreFault c i n).cas = s.cas := by unfold State.coreFault; dsimp only; split <;> simp
@[simp] theorem State.coreFault_srv (s : State) (c i n : Nat) : (s.coreFault c i n).srv = s.srv := by unfold State.coreFault; dsimp only; split <;> simp
@[simp] theorem State.coreFault_recs (s : State) (c i n : Nat) : (s.coreFault c i n).recs = s.recs := by unfold State.coreFault; dsimp only; split <;> simp
@[simp] theorem State.coreFault_fab (s : State) (c i n : Nat) : (s.coreFault c i n).fab = s.fab := by unfold State.coreFault; dsimp only; split <;> simp
@[simp] theorem State.coreFault_test (s : State) (c i n : Nat) : (s.coreFault c i n).test = s.test := by unfold State.coreFault; dsimp only; split <;> simp
@[simp] theorem State.coreFault_pending (s : State) (c i n : Nat) : (s.coreFault c i n).pending = s.pending := by unfold State.coreFault; dsimp only; split <;> simp

/-! ### Host memory and interrupts -/

@[simp] theorem State.dmaWrite_part (s : State) (a : Nat) (b : Bytes) : (s.dmaWrite a b).part = s.part := rfl
@[simp] theorem State.dmaWrite_gsc (s : State) (a : Nat) (b : Bytes) : (s.dmaWrite a b).gsc = s.gsc := rfl
@[simp] theorem State.dmaWrite_free (s : State) (a : Nat) (b : Bytes) : (s.dmaWrite a b).free = s.free := rfl
@[simp] theorem State.dmaWrite_pace (s : State) (a : Nat) (b : Bytes) : (s.dmaWrite a b).pace = s.pace := rfl
@[simp] theorem State.dmaWrite_regions (s : State) (a : Nat) (b : Bytes) : (s.dmaWrite a b).regions = s.regions := rfl
@[simp] theorem State.dmaWrite_cores (s : State) (a : Nat) (b : Bytes) : (s.dmaWrite a b).cores = s.cores := rfl
@[simp] theorem State.dmaWrite_coreRegs (s : State) (a : Nat) (b : Bytes) : (s.dmaWrite a b).coreRegs = s.coreRegs := rfl
@[simp] theorem State.dmaWrite_flights (s : State) (a : Nat) (b : Bytes) : (s.dmaWrite a b).flights = s.flights := rfl
@[simp] theorem State.dmaWrite_ss (s : State) (a : Nat) (b : Bytes) : (s.dmaWrite a b).ss = s.ss := rfl
@[simp] theorem State.dmaWrite_ssErr (s : State) (a : Nat) (b : Bytes) : (s.dmaWrite a b).ssErr = s.ssErr := rfl
@[simp] theorem State.dmaWrite_ssLines (s : State) (a : Nat) (b : Bytes) : (s.dmaWrite a b).ssLines = s.ssLines := rfl
@[simp] theorem State.dmaWrite_ssLost (s : State) (a : Nat) (b : Bytes) : (s.dmaWrite a b).ssLost = s.ssLost := rfl
@[simp] theorem State.dmaWrite_far (s : State) (a : Nat) (b : Bytes) : (s.dmaWrite a b).far = s.far := rfl
@[simp] theorem State.dmaWrite_queues (s : State) (a : Nat) (b : Bytes) : (s.dmaWrite a b).queues = s.queues := rfl
@[simp] theorem State.dmaWrite_image (s : State) (a : Nat) (b : Bytes) : (s.dmaWrite a b).image = s.image := rfl
@[simp] theorem State.dmaWrite_job (s : State) (a : Nat) (b : Bytes) : (s.dmaWrite a b).job = s.job := rfl
@[simp] theorem State.dmaWrite_stop (s : State) (a : Nat) (b : Bytes) : (s.dmaWrite a b).stop = s.stop := rfl
@[simp] theorem State.dmaWrite_stopTicks (s : State) (a : Nat) (b : Bytes) : (s.dmaWrite a b).stopTicks = s.stopTicks := rfl
@[simp] theorem State.dmaWrite_power (s : State) (a : Nat) (b : Bytes) : (s.dmaWrite a b).power = s.power := rfl
@[simp] theorem State.dmaWrite_sec (s : State) (a : Nat) (b : Bytes) : (s.dmaWrite a b).sec = s.sec := rfl
@[simp] theorem State.dmaWrite_cas (s : State) (a : Nat) (b : Bytes) : (s.dmaWrite a b).cas = s.cas := rfl
@[simp] theorem State.dmaWrite_srv (s : State) (a : Nat) (b : Bytes) : (s.dmaWrite a b).srv = s.srv := rfl
@[simp] theorem State.dmaWrite_recs (s : State) (a : Nat) (b : Bytes) : (s.dmaWrite a b).recs = s.recs := rfl
@[simp] theorem State.dmaWrite_ports (s : State) (a : Nat) (b : Bytes) : (s.dmaWrite a b).ports = s.ports := rfl
@[simp] theorem State.dmaWrite_fab (s : State) (a : Nat) (b : Bytes) : (s.dmaWrite a b).fab = s.fab := rfl
@[simp] theorem State.dmaWrite_test (s : State) (a : Nat) (b : Bytes) : (s.dmaWrite a b).test = s.test := rfl
@[simp] theorem State.dmaWrite_pending (s : State) (a : Nat) (b : Bytes) : (s.dmaWrite a b).pending = s.pending := rfl
@[simp] theorem State.sendVector_part (s : State) (v : Nat) : (s.sendVector v).part = s.part := by unfold State.sendVector; dsimp only; split <;> rfl
@[simp] theorem State.sendVector_gsc (s : State) (v : Nat) : (s.sendVector v).gsc = s.gsc := by unfold State.sendVector; dsimp only; split <;> rfl
@[simp] theorem State.sendVector_free (s : State) (v : Nat) : (s.sendVector v).free = s.free := by unfold State.sendVector; dsimp only; split <;> rfl
@[simp] theorem State.sendVector_pace (s : State) (v : Nat) : (s.sendVector v).pace = s.pace := by unfold State.sendVector; dsimp only; split <;> rfl
@[simp] theorem State.sendVector_regions (s : State) (v : Nat) : (s.sendVector v).regions = s.regions := by unfold State.sendVector; dsimp only; split <;> rfl
@[simp] theorem State.sendVector_cores (s : State) (v : Nat) : (s.sendVector v).cores = s.cores := by unfold State.sendVector; dsimp only; split <;> rfl
@[simp] theorem State.sendVector_coreRegs (s : State) (v : Nat) : (s.sendVector v).coreRegs = s.coreRegs := by unfold State.sendVector; dsimp only; split <;> rfl
@[simp] theorem State.sendVector_flights (s : State) (v : Nat) : (s.sendVector v).flights = s.flights := by unfold State.sendVector; dsimp only; split <;> rfl
@[simp] theorem State.sendVector_ss (s : State) (v : Nat) : (s.sendVector v).ss = s.ss := by unfold State.sendVector; dsimp only; split <;> rfl
@[simp] theorem State.sendVector_ssErr (s : State) (v : Nat) : (s.sendVector v).ssErr = s.ssErr := by unfold State.sendVector; dsimp only; split <;> rfl
@[simp] theorem State.sendVector_ssLines (s : State) (v : Nat) : (s.sendVector v).ssLines = s.ssLines := by unfold State.sendVector; dsimp only; split <;> rfl
@[simp] theorem State.sendVector_ssLost (s : State) (v : Nat) : (s.sendVector v).ssLost = s.ssLost := by unfold State.sendVector; dsimp only; split <;> rfl
@[simp] theorem State.sendVector_far (s : State) (v : Nat) : (s.sendVector v).far = s.far := by unfold State.sendVector; dsimp only; split <;> rfl
@[simp] theorem State.sendVector_queues (s : State) (v : Nat) : (s.sendVector v).queues = s.queues := by unfold State.sendVector; dsimp only; split <;> rfl
@[simp] theorem State.sendVector_image (s : State) (v : Nat) : (s.sendVector v).image = s.image := by unfold State.sendVector; dsimp only; split <;> rfl
@[simp] theorem State.sendVector_job (s : State) (v : Nat) : (s.sendVector v).job = s.job := by unfold State.sendVector; dsimp only; split <;> rfl
@[simp] theorem State.sendVector_stop (s : State) (v : Nat) : (s.sendVector v).stop = s.stop := by unfold State.sendVector; dsimp only; split <;> rfl
@[simp] theorem State.sendVector_stopTicks (s : State) (v : Nat) : (s.sendVector v).stopTicks = s.stopTicks := by unfold State.sendVector; dsimp only; split <;> rfl
@[simp] theorem State.sendVector_power (s : State) (v : Nat) : (s.sendVector v).power = s.power := by unfold State.sendVector; dsimp only; split <;> rfl
@[simp] theorem State.sendVector_sec (s : State) (v : Nat) : (s.sendVector v).sec = s.sec := by unfold State.sendVector; dsimp only; split <;> rfl
@[simp] theorem State.sendVector_cas (s : State) (v : Nat) : (s.sendVector v).cas = s.cas := by unfold State.sendVector; dsimp only; split <;> rfl
@[simp] theorem State.sendVector_srv (s : State) (v : Nat) : (s.sendVector v).srv = s.srv := by unfold State.sendVector; dsimp only; split <;> rfl
@[simp] theorem State.sendVector_recs (s : State) (v : Nat) : (s.sendVector v).recs = s.recs := by unfold State.sendVector; dsimp only; split <;> rfl
@[simp] theorem State.sendVector_ports (s : State) (v : Nat) : (s.sendVector v).ports = s.ports := by unfold State.sendVector; dsimp only; split <;> rfl
@[simp] theorem State.sendVector_fab (s : State) (v : Nat) : (s.sendVector v).fab = s.fab := by unfold State.sendVector; dsimp only; split <;> rfl
@[simp] theorem State.sendVector_test (s : State) (v : Nat) : (s.sendVector v).test = s.test := by unfold State.sendVector; dsimp only; split <;> rfl
@[simp] theorem State.sendVector_pending (s : State) (v : Nat) : (s.sendVector v).pending = s.pending := by unfold State.sendVector; dsimp only; split <;> rfl
@[simp] theorem State.sendFrame_part (s : State) (p t : Nat) (b : Bytes) : (s.sendFrame p t b).part = s.part := by unfold State.sendFrame; dsimp only; split <;> rfl
@[simp] theorem State.sendFrame_gsc (s : State) (p t : Nat) (b : Bytes) : (s.sendFrame p t b).gsc = s.gsc := by unfold State.sendFrame; dsimp only; split <;> rfl
@[simp] theorem State.sendFrame_free (s : State) (p t : Nat) (b : Bytes) : (s.sendFrame p t b).free = s.free := by unfold State.sendFrame; dsimp only; split <;> rfl
@[simp] theorem State.sendFrame_pace (s : State) (p t : Nat) (b : Bytes) : (s.sendFrame p t b).pace = s.pace := by unfold State.sendFrame; dsimp only; split <;> rfl
@[simp] theorem State.sendFrame_regions (s : State) (p t : Nat) (b : Bytes) : (s.sendFrame p t b).regions = s.regions := by unfold State.sendFrame; dsimp only; split <;> rfl
@[simp] theorem State.sendFrame_cores (s : State) (p t : Nat) (b : Bytes) : (s.sendFrame p t b).cores = s.cores := by unfold State.sendFrame; dsimp only; split <;> rfl
@[simp] theorem State.sendFrame_coreRegs (s : State) (p t : Nat) (b : Bytes) : (s.sendFrame p t b).coreRegs = s.coreRegs := by unfold State.sendFrame; dsimp only; split <;> rfl
@[simp] theorem State.sendFrame_flights (s : State) (p t : Nat) (b : Bytes) : (s.sendFrame p t b).flights = s.flights := by unfold State.sendFrame; dsimp only; split <;> rfl
@[simp] theorem State.sendFrame_ss (s : State) (p t : Nat) (b : Bytes) : (s.sendFrame p t b).ss = s.ss := by unfold State.sendFrame; dsimp only; split <;> rfl
@[simp] theorem State.sendFrame_ssErr (s : State) (p t : Nat) (b : Bytes) : (s.sendFrame p t b).ssErr = s.ssErr := by unfold State.sendFrame; dsimp only; split <;> rfl
@[simp] theorem State.sendFrame_ssLines (s : State) (p t : Nat) (b : Bytes) : (s.sendFrame p t b).ssLines = s.ssLines := by unfold State.sendFrame; dsimp only; split <;> rfl
@[simp] theorem State.sendFrame_ssLost (s : State) (p t : Nat) (b : Bytes) : (s.sendFrame p t b).ssLost = s.ssLost := by unfold State.sendFrame; dsimp only; split <;> rfl
@[simp] theorem State.sendFrame_far (s : State) (p t : Nat) (b : Bytes) : (s.sendFrame p t b).far = s.far := by unfold State.sendFrame; dsimp only; split <;> rfl
@[simp] theorem State.sendFrame_queues (s : State) (p t : Nat) (b : Bytes) : (s.sendFrame p t b).queues = s.queues := by unfold State.sendFrame; dsimp only; split <;> rfl
@[simp] theorem State.sendFrame_image (s : State) (p t : Nat) (b : Bytes) : (s.sendFrame p t b).image = s.image := by unfold State.sendFrame; dsimp only; split <;> rfl
@[simp] theorem State.sendFrame_job (s : State) (p t : Nat) (b : Bytes) : (s.sendFrame p t b).job = s.job := by unfold State.sendFrame; dsimp only; split <;> rfl
@[simp] theorem State.sendFrame_stop (s : State) (p t : Nat) (b : Bytes) : (s.sendFrame p t b).stop = s.stop := by unfold State.sendFrame; dsimp only; split <;> rfl
@[simp] theorem State.sendFrame_stopTicks (s : State) (p t : Nat) (b : Bytes) : (s.sendFrame p t b).stopTicks = s.stopTicks := by unfold State.sendFrame; dsimp only; split <;> rfl
@[simp] theorem State.sendFrame_power (s : State) (p t : Nat) (b : Bytes) : (s.sendFrame p t b).power = s.power := by unfold State.sendFrame; dsimp only; split <;> rfl
@[simp] theorem State.sendFrame_sec (s : State) (p t : Nat) (b : Bytes) : (s.sendFrame p t b).sec = s.sec := by unfold State.sendFrame; dsimp only; split <;> rfl
@[simp] theorem State.sendFrame_cas (s : State) (p t : Nat) (b : Bytes) : (s.sendFrame p t b).cas = s.cas := by unfold State.sendFrame; dsimp only; split <;> rfl
@[simp] theorem State.sendFrame_srv (s : State) (p t : Nat) (b : Bytes) : (s.sendFrame p t b).srv = s.srv := by unfold State.sendFrame; dsimp only; split <;> rfl
@[simp] theorem State.sendFrame_recs (s : State) (p t : Nat) (b : Bytes) : (s.sendFrame p t b).recs = s.recs := by unfold State.sendFrame; dsimp only; split <;> rfl
@[simp] theorem State.sendFrame_ports (s : State) (p t : Nat) (b : Bytes) : (s.sendFrame p t b).ports = s.ports := by unfold State.sendFrame; dsimp only; split <;> rfl
@[simp] theorem State.sendFrame_fab (s : State) (p t : Nat) (b : Bytes) : (s.sendFrame p t b).fab = s.fab := by unfold State.sendFrame; dsimp only; split <;> rfl
@[simp] theorem State.sendFrame_test (s : State) (p t : Nat) (b : Bytes) : (s.sendFrame p t b).test = s.test := by unfold State.sendFrame; dsimp only; split <;> rfl
@[simp] theorem State.sendFrame_pending (s : State) (p t : Nat) (b : Bytes) : (s.sendFrame p t b).pending = s.pending := by unfold State.sendFrame; dsimp only; split <;> rfl
@[simp] theorem State.respond_part (s : State) (ch : Nat) (r : Reply) : (s.respond ch r).part = s.part := by unfold State.respond; dsimp only; cases (s.chan ch).cmd <;> dsimp only <;> (repeat' split) <;> simp
@[simp] theorem State.respond_gsc (s : State) (ch : Nat) (r : Reply) : (s.respond ch r).gsc = s.gsc := by unfold State.respond; dsimp only; cases (s.chan ch).cmd <;> dsimp only <;> (repeat' split) <;> simp
@[simp] theorem State.respond_free (s : State) (ch : Nat) (r : Reply) : (s.respond ch r).free = s.free := by unfold State.respond; dsimp only; cases (s.chan ch).cmd <;> dsimp only <;> (repeat' split) <;> simp
@[simp] theorem State.respond_pace (s : State) (ch : Nat) (r : Reply) : (s.respond ch r).pace = s.pace := by unfold State.respond; dsimp only; cases (s.chan ch).cmd <;> dsimp only <;> (repeat' split) <;> simp
@[simp] theorem State.respond_regions (s : State) (ch : Nat) (r : Reply) : (s.respond ch r).regions = s.regions := by unfold State.respond; dsimp only; cases (s.chan ch).cmd <;> dsimp only <;> (repeat' split) <;> simp
@[simp] theorem State.respond_cores (s : State) (ch : Nat) (r : Reply) : (s.respond ch r).cores = s.cores := by unfold State.respond; dsimp only; cases (s.chan ch).cmd <;> dsimp only <;> (repeat' split) <;> simp
@[simp] theorem State.respond_coreRegs (s : State) (ch : Nat) (r : Reply) : (s.respond ch r).coreRegs = s.coreRegs := by unfold State.respond; dsimp only; cases (s.chan ch).cmd <;> dsimp only <;> (repeat' split) <;> simp
@[simp] theorem State.respond_flights (s : State) (ch : Nat) (r : Reply) : (s.respond ch r).flights = s.flights := by unfold State.respond; dsimp only; cases (s.chan ch).cmd <;> dsimp only <;> (repeat' split) <;> simp
@[simp] theorem State.respond_ss (s : State) (ch : Nat) (r : Reply) : (s.respond ch r).ss = s.ss := by unfold State.respond; dsimp only; cases (s.chan ch).cmd <;> dsimp only <;> (repeat' split) <;> simp
@[simp] theorem State.respond_ssErr (s : State) (ch : Nat) (r : Reply) : (s.respond ch r).ssErr = s.ssErr := by unfold State.respond; dsimp only; cases (s.chan ch).cmd <;> dsimp only <;> (repeat' split) <;> simp
@[simp] theorem State.respond_ssLines (s : State) (ch : Nat) (r : Reply) : (s.respond ch r).ssLines = s.ssLines := by unfold State.respond; dsimp only; cases (s.chan ch).cmd <;> dsimp only <;> (repeat' split) <;> simp
@[simp] theorem State.respond_ssLost (s : State) (ch : Nat) (r : Reply) : (s.respond ch r).ssLost = s.ssLost := by unfold State.respond; dsimp only; cases (s.chan ch).cmd <;> dsimp only <;> (repeat' split) <;> simp
@[simp] theorem State.respond_far (s : State) (ch : Nat) (r : Reply) : (s.respond ch r).far = s.far := by unfold State.respond; dsimp only; cases (s.chan ch).cmd <;> dsimp only <;> (repeat' split) <;> simp
@[simp] theorem State.respond_queues (s : State) (ch : Nat) (r : Reply) : (s.respond ch r).queues = s.queues := by unfold State.respond; dsimp only; cases (s.chan ch).cmd <;> dsimp only <;> (repeat' split) <;> simp
@[simp] theorem State.respond_image (s : State) (ch : Nat) (r : Reply) : (s.respond ch r).image = s.image := by unfold State.respond; dsimp only; cases (s.chan ch).cmd <;> dsimp only <;> (repeat' split) <;> simp
@[simp] theorem State.respond_job (s : State) (ch : Nat) (r : Reply) : (s.respond ch r).job = s.job := by unfold State.respond; dsimp only; cases (s.chan ch).cmd <;> dsimp only <;> (repeat' split) <;> simp
@[simp] theorem State.respond_stop (s : State) (ch : Nat) (r : Reply) : (s.respond ch r).stop = s.stop := by unfold State.respond; dsimp only; cases (s.chan ch).cmd <;> dsimp only <;> (repeat' split) <;> simp
@[simp] theorem State.respond_stopTicks (s : State) (ch : Nat) (r : Reply) : (s.respond ch r).stopTicks = s.stopTicks := by unfold State.respond; dsimp only; cases (s.chan ch).cmd <;> dsimp only <;> (repeat' split) <;> simp
@[simp] theorem State.respond_power (s : State) (ch : Nat) (r : Reply) : (s.respond ch r).power = s.power := by unfold State.respond; dsimp only; cases (s.chan ch).cmd <;> dsimp only <;> (repeat' split) <;> simp
@[simp] theorem State.respond_sec (s : State) (ch : Nat) (r : Reply) : (s.respond ch r).sec = s.sec := by unfold State.respond; dsimp only; cases (s.chan ch).cmd <;> dsimp only <;> (repeat' split) <;> simp
@[simp] theorem State.respond_cas (s : State) (ch : Nat) (r : Reply) : (s.respond ch r).cas = s.cas := by unfold State.respond; dsimp only; cases (s.chan ch).cmd <;> dsimp only <;> (repeat' split) <;> simp
@[simp] theorem State.respond_srv (s : State) (ch : Nat) (r : Reply) : (s.respond ch r).srv = s.srv := by unfold State.respond; dsimp only; cases (s.chan ch).cmd <;> dsimp only <;> (repeat' split) <;> simp
@[simp] theorem State.respond_recs (s : State) (ch : Nat) (r : Reply) : (s.respond ch r).recs = s.recs := by unfold State.respond; dsimp only; cases (s.chan ch).cmd <;> dsimp only <;> (repeat' split) <;> simp
@[simp] theorem State.respond_ports (s : State) (ch : Nat) (r : Reply) : (s.respond ch r).ports = s.ports := by unfold State.respond; dsimp only; cases (s.chan ch).cmd <;> dsimp only <;> (repeat' split) <;> simp
@[simp] theorem State.respond_fab (s : State) (ch : Nat) (r : Reply) : (s.respond ch r).fab = s.fab := by unfold State.respond; dsimp only; cases (s.chan ch).cmd <;> dsimp only <;> (repeat' split) <;> simp
@[simp] theorem State.respond_test (s : State) (ch : Nat) (r : Reply) : (s.respond ch r).test = s.test := by unfold State.respond; dsimp only; cases (s.chan ch).cmd <;> dsimp only <;> (repeat' split) <;> simp
@[simp] theorem State.respond_pending (s : State) (ch : Nat) (r : Reply) : (s.respond ch r).pending = s.pending := by unfold State.respond; dsimp only; cases (s.chan ch).cmd <;> dsimp only <;> (repeat' split) <;> simp
@[simp] theorem State.answerUnknown_part (n : Nat) (s : State) : (State.answerUnknown n s).part = s.part := by
  induction n generalizing s with
  | zero => rfl
  | succ n ih => unfold State.answerUnknown; (repeat' split) <;> simp [ih]
@[simp] theorem State.answerUnknown_gsc (n : Nat) (s : State) : (State.answerUnknown n s).gsc = s.gsc := by
  induction n generalizing s with
  | zero => rfl
  | succ n ih => unfold State.answerUnknown; (repeat' split) <;> simp [ih]
@[simp] theorem State.answerUnknown_free (n : Nat) (s : State) : (State.answerUnknown n s).free = s.free := by
  induction n generalizing s with
  | zero => rfl
  | succ n ih => unfold State.answerUnknown; (repeat' split) <;> simp [ih]
@[simp] theorem State.answerUnknown_pace (n : Nat) (s : State) : (State.answerUnknown n s).pace = s.pace := by
  induction n generalizing s with
  | zero => rfl
  | succ n ih => unfold State.answerUnknown; (repeat' split) <;> simp [ih]
@[simp] theorem State.answerUnknown_regions (n : Nat) (s : State) : (State.answerUnknown n s).regions = s.regions := by
  induction n generalizing s with
  | zero => rfl
  | succ n ih => unfold State.answerUnknown; (repeat' split) <;> simp [ih]
@[simp] theorem State.answerUnknown_cores (n : Nat) (s : State) : (State.answerUnknown n s).cores = s.cores := by
  induction n generalizing s with
  | zero => rfl
  | succ n ih => unfold State.answerUnknown; (repeat' split) <;> simp [ih]
@[simp] theorem State.answerUnknown_coreRegs (n : Nat) (s : State) : (State.answerUnknown n s).coreRegs = s.coreRegs := by
  induction n generalizing s with
  | zero => rfl
  | succ n ih => unfold State.answerUnknown; (repeat' split) <;> simp [ih]
@[simp] theorem State.answerUnknown_flights (n : Nat) (s : State) : (State.answerUnknown n s).flights = s.flights := by
  induction n generalizing s with
  | zero => rfl
  | succ n ih => unfold State.answerUnknown; (repeat' split) <;> simp [ih]
@[simp] theorem State.answerUnknown_ss (n : Nat) (s : State) : (State.answerUnknown n s).ss = s.ss := by
  induction n generalizing s with
  | zero => rfl
  | succ n ih => unfold State.answerUnknown; (repeat' split) <;> simp [ih]
@[simp] theorem State.answerUnknown_ssErr (n : Nat) (s : State) : (State.answerUnknown n s).ssErr = s.ssErr := by
  induction n generalizing s with
  | zero => rfl
  | succ n ih => unfold State.answerUnknown; (repeat' split) <;> simp [ih]
@[simp] theorem State.answerUnknown_ssLines (n : Nat) (s : State) : (State.answerUnknown n s).ssLines = s.ssLines := by
  induction n generalizing s with
  | zero => rfl
  | succ n ih => unfold State.answerUnknown; (repeat' split) <;> simp [ih]
@[simp] theorem State.answerUnknown_ssLost (n : Nat) (s : State) : (State.answerUnknown n s).ssLost = s.ssLost := by
  induction n generalizing s with
  | zero => rfl
  | succ n ih => unfold State.answerUnknown; (repeat' split) <;> simp [ih]
@[simp] theorem State.answerUnknown_far (n : Nat) (s : State) : (State.answerUnknown n s).far = s.far := by
  induction n generalizing s with
  | zero => rfl
  | succ n ih => unfold State.answerUnknown; (repeat' split) <;> simp [ih]
@[simp] theorem State.answerUnknown_queues (n : Nat) (s : State) : (State.answerUnknown n s).queues = s.queues := by
  induction n generalizing s with
  | zero => rfl
  | succ n ih => unfold State.answerUnknown; (repeat' split) <;> simp [ih]
@[simp] theorem State.answerUnknown_image (n : Nat) (s : State) : (State.answerUnknown n s).image = s.image := by
  induction n generalizing s with
  | zero => rfl
  | succ n ih => unfold State.answerUnknown; (repeat' split) <;> simp [ih]
@[simp] theorem State.answerUnknown_job (n : Nat) (s : State) : (State.answerUnknown n s).job = s.job := by
  induction n generalizing s with
  | zero => rfl
  | succ n ih => unfold State.answerUnknown; (repeat' split) <;> simp [ih]
@[simp] theorem State.answerUnknown_stop (n : Nat) (s : State) : (State.answerUnknown n s).stop = s.stop := by
  induction n generalizing s with
  | zero => rfl
  | succ n ih => unfold State.answerUnknown; (repeat' split) <;> simp [ih]
@[simp] theorem State.answerUnknown_stopTicks (n : Nat) (s : State) : (State.answerUnknown n s).stopTicks = s.stopTicks := by
  induction n generalizing s with
  | zero => rfl
  | succ n ih => unfold State.answerUnknown; (repeat' split) <;> simp [ih]
@[simp] theorem State.answerUnknown_power (n : Nat) (s : State) : (State.answerUnknown n s).power = s.power := by
  induction n generalizing s with
  | zero => rfl
  | succ n ih => unfold State.answerUnknown; (repeat' split) <;> simp [ih]
@[simp] theorem State.answerUnknown_sec (n : Nat) (s : State) : (State.answerUnknown n s).sec = s.sec := by
  induction n generalizing s with
  | zero => rfl
  | succ n ih => unfold State.answerUnknown; (repeat' split) <;> simp [ih]
@[simp] theorem State.answerUnknown_cas (n : Nat) (s : State) : (State.answerUnknown n s).cas = s.cas := by
  induction n generalizing s with
  | zero => rfl
  | succ n ih => unfold State.answerUnknown; (repeat' split) <;> simp [ih]
@[simp] theorem State.answerUnknown_srv (n : Nat) (s : State) : (State.answerUnknown n s).srv = s.srv := by
  induction n generalizing s with
  | zero => rfl
  | succ n ih => unfold State.answerUnknown; (repeat' split) <;> simp [ih]
@[simp] theorem State.answerUnknown_recs (n : Nat) (s : State) : (State.answerUnknown n s).recs = s.recs := by
  induction n generalizing s with
  | zero => rfl
  | succ n ih => unfold State.answerUnknown; (repeat' split) <;> simp [ih]
@[simp] theorem State.answerUnknown_ports (n : Nat) (s : State) : (State.answerUnknown n s).ports = s.ports := by
  induction n generalizing s with
  | zero => rfl
  | succ n ih => unfold State.answerUnknown; (repeat' split) <;> simp [ih]
@[simp] theorem State.answerUnknown_fab (n : Nat) (s : State) : (State.answerUnknown n s).fab = s.fab := by
  induction n generalizing s with
  | zero => rfl
  | succ n ih => unfold State.answerUnknown; (repeat' split) <;> simp [ih]
@[simp] theorem State.answerUnknown_test (n : Nat) (s : State) : (State.answerUnknown n s).test = s.test := by
  induction n generalizing s with
  | zero => rfl
  | succ n ih => unfold State.answerUnknown; (repeat' split) <;> simp [ih]
@[simp] theorem State.answerUnknown_pending (n : Nat) (s : State) : (State.answerUnknown n s).pending = s.pending := by
  induction n generalizing s with
  | zero => rfl
  | succ n ih => unfold State.answerUnknown; (repeat' split) <;> simp [ih]

end

end Sys2Proof.Machine
end

