-- ==== Sys2Proof/Laws/Command.lean ====
section
/-! SUPPORT. What the row of a Lumoz command does, said once: it answers what its rules answer, or refuses, and leaves the commands behind it. -/
namespace Sys2Proof.Machine

/-- A command of a defined opcode at the head of the order is not answered as unknown. -/
theorem State.answerUnknown_id (n : Nat) (s : State)
    (h : s.host.order = [] ∨ ∃ x rest d, s.host.order = x :: rest ∧ s.cmdOf x = some d ∧ opDefined d.opcode = true) :
    State.answerUnknown n s = s := by
  cases n with
  | zero => rfl
  | succ n =>
    unfold State.answerUnknown
    rcases h with h | ⟨x, rest, d, h, hd, ho⟩
    · rw [h]
    · rw [h]; dsimp only; rw [hd]; dsimp only; rw [ho]; simp

/-- A response leaves the order of acceptance and the other channels' commands as they are. -/
theorem State.respond_order (s : State) (ch : Nat) (r : Reply) : (s.respond ch r).host.order = s.host.order := by
  unfold State.respond; dsimp only
  split
  · rfl
  · split
    · rfl
    · split
      · unfold State.sendVector; dsimp only; split <;> rfl
      · rfl

theorem State.respond_cmdOf (s : State) (ch x : Nat) (r : Reply) (h : x ≠ ch) : (s.respond ch r).cmdOf x = s.cmdOf x := by
  have key : ∀ y : Channel, (s.setChan ch y).cmdOf x = s.cmdOf x := by
    intro y; simp [State.cmdOf, State.chan, State.setChan, Map.find_put_other _ _ _ h]
  unfold State.respond; dsimp only
  split
  · rfl
  · rw [← key]
    split
    · rfl
    · split
      · unfold State.sendVector; dsimp only; split <;> rfl
      · rfl

/-- The order and the other channels' commands, as a command that executes leaves them. -/
def State.keepsOrder (s t : State) (ch : Nat) : Prop :=
  t.host.order = s.host.order.drop 1 ∧ ∀ x, x ≠ ch → t.cmdOf x = s.cmdOf x

/-- What a verdict leaves, with its response. -/
def Verdict.state (ch : Nat) : Verdict → State
  | .done s r => s.respond ch r
  | .goOn s => s

/-- A row whose command's turn has come, which the checks of R425 let through, does what its rules say. -/
theorem CmdSpec.row_eq (p : CmdSpec) {s : State} {ch : Nat} {c : Cmd} (h : s.carries ch p.op c) (hl : p.len c.length = true)
    (hf : p.fields c.payload = true) (ha : p.allowed { s with host := { s.host with order := s.host.order.drop 1 } } = true) :
    p.row ch s = .next (State.answerUnknown 10 ((p.act (s.accepted ch c) ch c.payload).state ch)) := by
  obtain ⟨hch, hb, hc, ho, he, hr, hx, hp, rest, hord, hrest⟩ := h
  have hx' : ({ s with host := { s.host with order := s.host.order.drop 1 } } : State).exclusiveBusy ch = false := hx
  have hck : p.check { s with host := { s.host with order := s.host.order.drop 1 } } ch c = none := by
    unfold CmdSpec.check; rw [hl, hf, ha, hr, hx']; simp [hb]
  have hw : (if p.wakes then ({ s with host := { s.host with order := s.host.order.drop 1 } } : State).wake
      else { s with host := { s.host with order := s.host.order.drop 1 } })
      = { s with host := { s.host with order := s.host.order.drop 1 } } := by
    split
    · exact State.wake_run _ hp
    · rfl
  have hcond : (decide (c.opcode ≠ p.op) || c.executing || decide (s.host.order.head? ≠ some ch) || !s.answers ch) = false := by
    simp [ho, he, hord, State.answers, hb]
  unfold CmdSpec.row
  rw [if_neg (by omega)]
  unfold CmdSpec.run
  rw [hc]; dsimp only
  rw [hcond, if_neg (by decide), hck]; dsimp only; rw [hw]
  change Host.Outcome.next (State.answerUnknown 10 (match p.act (s.accepted ch c) ch c.payload with
    | .done s r => s.respond ch r
    | .goOn s => s)) = _
  cases p.act (s.accepted ch c) ch c.payload <;> rfl

/-- A command that is answered at once. -/
theorem CmdSpec.row_done (p : CmdSpec) {s : State} {ch : Nat} {c : Cmd} (h : s.carries ch p.op c) (hl : p.len c.length = true)
    (hf : p.fields c.payload = true) (ha : p.allowed { s with host := { s.host with order := s.host.order.drop 1 } } = true)
    {t : State} {r : Reply} (act : p.act (s.accepted ch c) ch c.payload = .done t r) (k : s.keepsOrder t ch) :
    p.row ch s = .next (t.respond ch r) := by
  rw [p.row_eq h hl hf ha, act]
  obtain ⟨-, -, -, -, -, -, -, -, rest, hord, hrest⟩ := h
  congr 1
  apply State.answerUnknown_id
  simp only [Verdict.state]
  rw [State.respond_order, k.1, hord]
  cases rest with
  | nil => exact .inl rfl
  | cons x xs =>
    obtain ⟨hne, d, hd, hod⟩ := hrest x (by simp)
    exact .inr ⟨x, xs, d, rfl, by rw [State.respond_cmdOf _ _ _ _ hne, k.2 x hne]; exact hd, hod⟩

/-- A command whose execution goes on. -/
theorem CmdSpec.row_goOn (p : CmdSpec) {s : State} {ch : Nat} {c : Cmd} (h : s.carries ch p.op c) (hl : p.len c.length = true)
    (hf : p.fields c.payload = true) (ha : p.allowed { s with host := { s.host with order := s.host.order.drop 1 } } = true)
    {t : State} (act : p.act (s.accepted ch c) ch c.payload = .goOn t) (k : s.keepsOrder t ch) :
    p.row ch s = .next t := by
  rw [p.row_eq h hl hf ha, act]
  obtain ⟨-, -, -, -, -, -, -, -, rest, hord, hrest⟩ := h
  congr 1
  apply State.answerUnknown_id
  simp only [Verdict.state]
  rw [k.1, hord]
  cases rest with
  | nil => exact .inl rfl
  | cons x xs =>
    obtain ⟨hne, d, hd, hod⟩ := hrest x (by simp)
    exact .inr ⟨x, xs, d, rfl, by rw [k.2 x hne]; exact hd, hod⟩

/-- What leaves the order and the channels' table as acceptance leaves them keeps the order. -/
theorem State.keepsOrder_of {s t : State} {ch : Nat} {c : Cmd} (ho : t.host.order = s.host.order.drop 1)
    (hc : t.host.chans = (s.accepted ch c).host.chans) : s.keepsOrder t ch := by
  refine ⟨ho, fun x hx => ?_⟩
  simp only [State.cmdOf, State.chan, hc]
  simp [State.accepted, State.setChan, State.chan, Map.find_put_other _ _ _ hx]

end Sys2Proof.Machine
end

