-- ==== Sys2Proof/Laws/Issue.lean ====
section
/-! SUPPORT. What issuing one slot instruction can do, said once: nothing, a fault, or the instruction's effect; and the frame of a
change to one core. -/
namespace Sys2Proof.Machine

/-- A command about an enabled core answers the state it computes. -/
theorem onCore_next (s : State) (c : Nat) (t : State) (h : s.hasCore c = true) : onCore s c t = .next t := by simp [onCore, h]

/-- An instruction that issues has its own check's fault, or no fault. -/
theorem issueFault_of_issues {s : State} {c : Nat} {op : SlotOp} (h : issues s c op) (chk : Option Nat) :
    issueFault (s.core c) s.exact op chk = chk := by
  obtain ⟨_, _, hl, he, hp⟩ := h
  have : (op.reads.any fun r => (s.core c).parity.contains r) = false := by
    simpa [List.any_eq_false] using hp
  rw [issueFault, hl, he, this]; rfl

/-- An instruction that issues and whose own check finds nothing has its effect. -/
theorem issueSlot_act {s : State} {c : Nat} {op : SlotOp} (h : issues s c op) (act : State) : issueSlot s c op none act = act := by
  have hf := issueFault_of_issues h none
  obtain ⟨_, hv, _, he, _⟩ := h
  simp [issueSlot, hv, hf, he]

/-- An instruction that issues and whose own check finds a fault raises it, and has no effect. -/
theorem issueSlot_fault {s : State} {c : Nat} {op : SlotOp} (h : issues s c op) (act : State) (code : Nat) :
    issueSlot s c op (some code) act = s.coreFault c (slotNum op.slot) code := by
  have hf := issueFault_of_issues h (some code)
  obtain ⟨_, hv, _, he, _⟩ := h
  simp [issueSlot, hv, hf]

/-- The row of an instruction that issues: the effect. -/
theorem row_act {s : State} {c : Nat} {op : SlotOp} (h : issues s c op) {chk : Option Nat} (hc : chk = none) (act : State) :
    onCore s c (issueSlot s c op chk act) = .next act := by
  subst hc; rw [onCore_next _ _ _ h.1, issueSlot_act h]

/-- The row of an instruction that issues: the fault. -/
theorem row_fault {s : State} {c : Nat} {op : SlotOp} (h : issues s c op) {chk : Option Nat} {code : Nat} (hc : chk = some code)
    (act : State) : onCore s c (issueSlot s c op chk act) = .next (s.coreFault c (slotNum op.slot) code) := by
  subst hc; rw [onCore_next _ _ _ h.1, issueSlot_fault h]

/-- Writing one core changes that core alone. -/
theorem onlyCore_setCore (s : State) (c : Nat) (k : Core) : onlyCore s (s.setCore c k) c k :=
  ⟨State.core_setCore s c k, fun _ h => State.core_setCore_other s k h, rfl⟩

/-- Writing one core twice changes that core alone. -/
theorem onlyCore_setCore2 (s : State) (c : Nat) (j k : Core) : onlyCore s ((s.setCore c j).setCore c k) c k :=
  ⟨State.core_setCore _ c k, fun _ h => by rw [State.core_setCore_other _ k h, State.core_setCore_other s j h], rfl⟩

/-- `Core.result` puts the result on its way as `withResult` says. -/
theorem result_eq (s : State) (c : Nat) (k : Core) (r : Reg) (v : RegVal) (lat slot : Nat) :
    k.result r v (s.tickOf c + lat) (s.tickOf c) slot = withResult s c k r v lat slot := by
  simp [Core.result, withResult]

/-! A result on its way changes nothing of the core but the list of results. -/

@[simp] theorem Core.result_s (k : Core) (r : Reg) (v : RegVal) (d i n : Nat) : (k.result r v d i n).s = k.s := by
  unfold Core.result; split <;> rfl
@[simp] theorem Core.result_a (k : Core) (r : Reg) (v : RegVal) (d i n : Nat) : (k.result r v d i n).a = k.a := by
  unfold Core.result; split <;> rfl
@[simp] theorem Core.result_p (k : Core) (r : Reg) (v : RegVal) (d i n : Nat) : (k.result r v d i n).p = k.p := by
  unfold Core.result; split <;> rfl
@[simp] theorem Core.result_v (k : Core) (r : Reg) (v : RegVal) (d i n : Nat) : (k.result r v d i n).v = k.v := by
  unfold Core.result; split <;> rfl
@[simp] theorem Core.result_acc (k : Core) (r : Reg) (v : RegVal) (d i n : Nat) : (k.result r v d i n).acc = k.acc := by
  unfold Core.result; split <;> rfl
@[simp] theorem Core.result_work (k : Core) (r : Reg) (v : RegVal) (d i n : Nat) : (k.result r v d i n).work = k.work := by
  unfold Core.result; split <;> rfl
@[simp] theorem Core.result_pc (k : Core) (r : Reg) (v : RegVal) (d i n : Nat) : (k.result r v d i n).pc = k.pc := by
  unfold Core.result; split <;> rfl
@[simp] theorem Core.result_loops (k : Core) (r : Reg) (v : RegVal) (d i n : Nat) : (k.result r v d i n).loops = k.loops := by
  unfold Core.result; split <;> rfl
@[simp] theorem Core.result_branch (k : Core) (r : Reg) (v : RegVal) (d i n : Nat) : (k.result r v d i n).branch = k.branch := by
  unfold Core.result; split <;> rfl
@[simp] theorem Core.result_next (k : Core) (r : Reg) (v : RegVal) (d i n : Nat) : (k.result r v d i n).next = k.next := by
  unfold Core.result; split <;> rfl
@[simp] theorem Core.result_halted (k : Core) (r : Reg) (v : RegVal) (d i n : Nat) : (k.result r v d i n).halted = k.halted := by
  unfold Core.result; split <;> rfl
@[simp] theorem Core.result_stopped (k : Core) (r : Reg) (v : RegVal) (d i n : Nat) : (k.result r v d i n).stopped = k.stopped := by
  unfold Core.result; split <;> rfl
@[simp] theorem Core.result_units (k : Core) (r : Reg) (v : RegVal) (d i n : Nat) : (k.result r v d i n).units = k.units := by
  unfold Core.result; split <;> rfl
@[simp] theorem Core.result_feedCfg (k : Core) (r : Reg) (v : RegVal) (d i n : Nat) : (k.result r v d i n).feedCfg = k.feedCfg := by
  unfold Core.result; split <;> rfl
@[simp] theorem Core.result_feed (k : Core) (r : Reg) (v : RegVal) (d i n : Nat) : (k.result r v d i n).feed = k.feed := by
  unfold Core.result; split <;> rfl
@[simp] theorem Core.result_mKey (k : Core) (r : Reg) (v : RegVal) (d i n : Nat) : (k.result r v d i n).mKey = k.mKey := by
  unfold Core.result; split <;> rfl
@[simp] theorem Core.result_mPos (k : Core) (r : Reg) (v : RegVal) (d i n : Nat) : (k.result r v d i n).mPos = k.mPos := by
  unfold Core.result; split <;> rfl
@[simp] theorem Core.result_mSid (k : Core) (r : Reg) (v : RegVal) (d i n : Nat) : (k.result r v d i n).mSid = k.mSid := by
  unfold Core.result; split <;> rfl
@[simp] theorem Core.result_mDraw (k : Core) (r : Reg) (v : RegVal) (d i n : Nat) : (k.result r v d i n).mDraw = k.mDraw := by
  unfold Core.result; split <;> rfl
@[simp] theorem Core.result_sel (k : Core) (r : Reg) (v : RegVal) (d i n : Nat) : (k.result r v d i n).sel = k.sel := by
  unfold Core.result; split <;> rfl
@[simp] theorem Core.result_pieces (k : Core) (r : Reg) (v : RegVal) (d i n : Nat) : (k.result r v d i n).pieces = k.pieces := by
  unfold Core.result; split <;> rfl
@[simp] theorem Core.result_lost (k : Core) (r : Reg) (v : RegVal) (d i n : Nat) : (k.result r v d i n).lost = k.lost := by
  unfold Core.result; split <;> rfl
@[simp] theorem Core.result_ops (k : Core) (r : Reg) (v : RegVal) (d i n : Nat) : (k.result r v d i n).ops = k.ops := by
  unfold Core.result; split <;> rfl
@[simp] theorem Core.result_nextOp (k : Core) (r : Reg) (v : RegVal) (d i n : Nat) : (k.result r v d i n).nextOp = k.nextOp := by
  unfold Core.result; split <;> rfl
@[simp] theorem Core.result_gather (k : Core) (r : Reg) (v : RegVal) (d i n : Nat) : (k.result r v d i n).gather = k.gather := by
  unfold Core.result; split <;> rfl
@[simp] theorem Core.result_ports (k : Core) (r : Reg) (v : RegVal) (d i n : Nat) : (k.result r v d i n).ports = k.ports := by
  unfold Core.result; split <;> rfl
@[simp] theorem Core.result_waits (k : Core) (r : Reg) (v : RegVal) (d i n : Nat) : (k.result r v d i n).waits = k.waits := by
  unfold Core.result; split <;> rfl
@[simp] theorem Core.result_ws (k : Core) (r : Reg) (v : RegVal) (d i n : Nat) : (k.result r v d i n).ws = k.ws := by
  unfold Core.result; split <;> rfl
@[simp] theorem Core.result_wsErr (k : Core) (r : Reg) (v : RegVal) (d i n : Nat) : (k.result r v d i n).wsErr = k.wsErr := by
  unfold Core.result; split <;> rfl
@[simp] theorem Core.result_parity (k : Core) (r : Reg) (v : RegVal) (d i n : Nat) : (k.result r v d i n).parity = k.parity := by
  unfold Core.result; split <;> rfl
@[simp] theorem Core.result_code (k : Core) (r : Reg) (v : RegVal) (d i n : Nat) : (k.result r v d i n).code = k.code := by
  unfold Core.result; split <;> rfl
@[simp] theorem Core.result_codeLen (k : Core) (r : Reg) (v : RegVal) (d i n : Nat) : (k.result r v d i n).codeLen = k.codeLen := by
  unfold Core.result; split <;> rfl
@[simp] theorem Core.result_role (k : Core) (r : Reg) (v : RegVal) (d i n : Nat) : (k.result r v d i n).role = k.role := by
  unfold Core.result; split <;> rfl
@[simp] theorem Core.result_busyTo (k : Core) (r : Reg) (v : RegVal) (d i n : Nat) : (k.result r v d i n).busyTo = k.busyTo := by
  unfold Core.result; split <;> rfl

/-! ### A job-fatal fault in a module in RUN -/

section jobFatal
variable (s : State) (code : Nat) (r : Option Nat) (a b : W64) (k n : Option Nat) (h : s.power.mode = .run)
include h

theorem State.jobFatal_far : (s.jobFatal code r a b k n).far = s.far := by
  unfold State.jobFatal; rw [State.wake_run s h]; dsimp only; split <;> simp
theorem State.jobFatal_gsc : (s.jobFatal code r a b k n).gsc = s.gsc := by
  unfold State.jobFatal; rw [State.wake_run s h]; dsimp only; split <;> simp
theorem State.jobFatal_power : (s.jobFatal code r a b k n).power = s.power := by
  unfold State.jobFatal; rw [State.wake_run s h]; dsimp only; split <;> simp

/-- With a job ARMED, RUNNING or PAUSED the fault is noted and a pending pause ends. -/
theorem State.jobFatal_job : (s.jobFatal code r a b k n).job =
    if s.job.state.active then { s.job.note (n.getD code) (k.getD s.rank) s.gsc with pausePending := false } else s.job := by
  unfold State.jobFatal; rw [State.wake_run s h]; dsimp only; split <;> simp_all [State.rank]

/-- With a job ARMED, RUNNING or PAUSED a stop is under way. -/
theorem State.jobFatal_stop : (s.jobFatal code r a b k n).stop =
    if s.job.state.active then
      (match s.stop with
       | some x => some { x with selfFence := x.selfFence || code == 0x0C02 }
       | none => some { region := r, jobStopped := code == 0x0605, selfFence := code == 0x0C02 })
    else s.stop := by
  unfold State.jobFatal; rw [State.wake_run s h]; dsimp only; split
  · cases h' : s.stop <;> simp_all
  · simp_all

end jobFatal

/-- A fault found at issue stops its core and changes no other. -/
theorem State.coreFault_core (s : State) (c slot code : Nat) (h : slot ≠ 6) :
    (s.coreFault c slot code).core c = { s.core c with stopped := true } := by
  unfold State.coreFault; simp only [h, if_false]
  rw [State.core_eq _ _ (State.jobFatal_cores ..)]; exact State.core_setCore ..

theorem State.coreFault_core_other (s : State) (c d slot code : Nat) (h : d ≠ c) :
    (s.coreFault c slot code).core d = s.core d := by
  unfold State.coreFault; dsimp only
  rw [State.core_eq _ _ (State.jobFatal_cores ..)]
  split
  · rfl
  · exact State.core_setCore_other _ _ h

/-- What a fault captures (R125). -/
theorem State.coreFault_coreRegs (s : State) (c slot code : Nat) :
    (s.coreFault c slot code).coreRegs = s.coreRegs.capture code c slot (s.tickOf c) (s.core c).pc := by
  unfold State.coreFault; dsimp only; rw [State.jobFatal_coreRegs]; split <;> rfl

end Sys2Proof.Machine
end

