-- ==== Sys2Proof/Laws/Tick.lean ====
section
/-! SUPPORT. What the tick of a core may not touch: the paceline's regions, the queue of commands, what manufacture fixed, and the
blocks outside the fabric of cores. Every slot, every store and mesh event, and the issue of a bundle keep them. -/
namespace Sys2Proof.Machine

/-- What no tick of a core changes. -/
def State.outside (s : State) : Map Region × Part × List Instr × Sec × Cas × Serve × Records × Fabric × TestBlk :=
  (s.regions, s.part, s.pending, s.sec, s.cas, s.srv, s.recs, s.fab, s.test)

@[simp] theorem State.setCore_outside (s : State) (c : Nat) (k : Core) : (s.setCore c k).outside = s.outside := rfl
@[simp] theorem State.setQueue_outside (s : State) (c h : Nat) (q : Queue) : (s.setQueue c h q).outside = s.outside := rfl
@[simp] theorem State.jobFatal_outside (s : State) (c : Nat) (r : Option Nat) (a b : W64) (k n : Option Nat) :
    (s.jobFatal c r a b k n).outside = s.outside := by simp [State.outside]
@[simp] theorem State.coreFault_outside (s : State) (c i n : Nat) : (s.coreFault c i n).outside = s.outside := by
  simp [State.outside]
@[simp] theorem State.lateFault_outside (s : State) (c n t : Nat) : (s.lateFault c n t).outside = s.outside := by
  unfold State.lateFault; rw [State.jobFatal_outside]; rfl

/-! ### The slots -/

@[simp] theorem ctDo_outside (c : Nat) (s : State) (o : CtOp) : (ctDo c s o).outside = s.outside := by
  cases o <;> rfl

@[simp] theorem lsDo_outside (c : Nat) (s : State) (o : LsOp) : (lsDo c s o).outside = s.outside := by
  cases o <;> rfl

@[simp] theorem startFeed_outside (a : Nat) (l : Option (List Nat)) (k c : Nat) (s : State) :
    (startFeed a l k c s).outside = s.outside := by
  unfold startFeed; dsimp only; split <;> rfl

@[simp] theorem mxDo_outside (c : Nat) (s : State) (o : MxOp) : (mxDo c s o).outside = s.outside := by
  cases o <;> simp [mxDo, doMma, doMmag] <;> rfl

@[simp] theorem vxDo_outside (c : Nat) (s : State) (o : VxOp) : (vxDo c s o).outside = s.outside := by
  cases o <;> rfl

@[simp] theorem mvDo_outside (c : Nat) (s : State) (o : MvOp) : (mvDo c s o).outside = s.outside := by
  cases o with
  | nop => rfl
  | ssr f => simp only [mvDo, doSsr]; (repeat' split) <;> rfl
  | ssw f => simp only [mvDo, doSsw]; (repeat' split) <;> rfl
  | msend f => rfl
  | mrecv p a => simp only [mvDo, doMrecv]; split <;> rfl
  | gath d a => rfl

@[simp] theorem qxDo_outside (c : Nat) (s : State) (o : QxOp) : (qxDo c s o).outside = s.outside := by
  cases o <;> rfl

@[simp] theorem slotDo_outside (c : Nat) (s : State) (o : SlotOp) : (slotDo c s o).outside = s.outside := by
  cases o <;> simp [slotDo]

/-! ### Stores, mesh and landings -/

@[simp] theorem State.wsReads_outside (s : State) (c t : Nat) (l : List (Nat × Nat)) : (s.wsReads c t l).outside = s.outside := by
  unfold State.wsReads; dsimp only; split
  · rw [State.lateFault_outside]; rfl
  · rfl

@[simp] theorem State.sendUnit_outside (s : State) (c r i : Nat) (b : Bytes) : (s.sendUnit c r i b).outside = s.outside := by
  unfold State.sendUnit; split <;> rfl

@[simp] theorem State.finishOp_outside (s : State) (c : Nat) (o : Op) : (s.finishOp c o).outside = s.outside := by
  unfold State.finishOp; split <;> first | rfl | simp

@[simp] theorem State.bankTick_outside (s : State) (c t : Nat) : (s.bankTick c t).outside = s.outside := by
  unfold State.bankTick; dsimp only
  rw [foldl_keeps State.outside _ (fun a _ => State.lateFault_outside ..),
    foldl_keeps State.outside _ (fun a _ => State.finishOp_outside ..)]
  simp

@[simp] theorem State.requeueLines_outside (s : State) (c t : Nat) : (s.requeueLines c t).outside = s.outside := rfl

@[simp] theorem State.ssRead_outside (s : State) (l a n t : Nat) : (s.ssRead l a n t).outside = s.outside := by
  unfold State.ssRead; dsimp only; split
  · rw [State.lateFault_outside]; rfl
  · rfl

@[simp] theorem State.lineRead_outside (s : State) (l : SsLine) (b : Bytes) : (s.lineRead l b).outside = s.outside := by
  unfold State.lineRead; dsimp only
  split
  · rfl
  · split
    · rfl
    · split <;> rfl

@[simp] theorem State.lineDo_outside (ss0 : Mem) (t : Nat) (s : State) (l : SsLine) : (State.lineDo ss0 t s l).outside = s.outside := by
  unfold State.lineDo; dsimp only; split
  · rfl
  · rw [State.lineRead_outside]; exact State.ssRead_outside ..

@[simp] theorem State.sliceTick_outside (s : State) (c t : Nat) : (s.sliceTick c t).outside = s.outside := by
  unfold State.sliceTick; dsimp only
  rw [foldl_keeps State.outside _ (fun a _ => State.lateFault_outside ..),
    foldl_keeps State.outside _ (fun a b => State.lineDo_outside _ _ a b)]
  rfl

@[simp] theorem State.gatherOne_outside (s : State) (c t : Nat) (g : Gather) : (s.gatherOne c t g).1.outside = s.outside := by
  unfold State.gatherOne; dsimp only; split
  · rfl
  · split
    · rfl
    · exact State.ssRead_outside ..

@[simp] theorem State.gatherTick_outside (s : State) (c t : Nat) : (s.gatherTick c t).outside = s.outside := by
  unfold State.gatherTick; dsimp only
  rw [State.setCore_outside, foldl_keeps (fun p : State × List Gather => p.1.outside) _
    (fun a b => State.gatherOne_outside ..)]

@[simp] theorem State.landOne_outside (s : State) (i t : Nat) : (s.landOne i t).outside = s.outside := by
  unfold State.landOne
  split
  · rfl
  · split
    · rfl
    · split
      · rfl
      · split
        · dsimp only; split
          · rw [State.lateFault_outside]; rfl
          · rfl
        · rfl

@[simp] theorem State.landAll_outside (s : State) (c t : Nat) : (s.landAll c t).outside = s.outside := by
  unfold State.landAll
  split
  · rfl
  · refine foldl_keeps State.outside _ (fun a b => ?_) _ _
    split
    · split
      · exact State.landOne_outside ..
      · rfl
    · rfl

@[simp] theorem State.arrive_outside (s : State) (c t : Nat) : (s.arrive c t).outside = s.outside := rfl

@[simp] theorem State.unclaimed_outside (s : State) (c t : Nat) : (s.unclaimed c t).outside = s.outside := by
  unfold State.unclaimed; dsimp only
  rw [foldl_keeps State.outside _ (fun a _ => State.lateFault_outside ..)]; rfl

@[simp] theorem State.noteBusy_outside (s : State) (c t : Nat) : (s.noteBusy c t).outside = s.outside := by
  unfold State.noteBusy; split <;> rfl

/-! ### The tick of a core -/

@[simp] theorem State.issueBundle_outside (s : State) (c : Nat) : (s.issueBundle c).outside = s.outside := by
  unfold State.issueBundle; dsimp only
  split
  · rfl
  · split
    · refine foldl_keeps State.outside _ (fun a b => ?_) _ _
      split
      · split
        · exact slotDo_outside ..
        · rfl
      · rfl
    · exact foldl_keeps State.outside _ (fun a b => State.coreFault_outside ..) _ _

@[simp] theorem State.coreStart_outside (s : State) (c t : Nat) : (s.coreStart c t).outside = s.outside := by
  unfold State.coreStart; simp

@[simp] theorem State.coreStores_outside (s : State) (c t : Nat) : (s.coreStores c t).outside = s.outside := by
  unfold State.coreStores; simp

@[simp] theorem State.coreIssue_outside (s : State) (c : Nat) (f : Bool) : (s.coreIssue c f).outside = s.outside := by
  unfold State.coreIssue; dsimp only; rw [State.issueBundle_outside]; split <;> rfl

@[simp] theorem State.passGate_outside (s : State) (w : Nat × Nat × Wait) : (s.passGate w).outside = s.outside := rfl

/-! ### The skid buffers -/

/-- Region `q` but for its skid buffers. -/
def State.noSkid (s : State) (q : Nat) : Region := { s.region q with skid := [] }

theorem State.noSkid_setSkid (s : State) (n q : Nat) (m : Map (List Nat)) :
    (s.setRegion n { s.region n with skid := m }).noSkid q = s.noSkid q := by
  by_cases h : q = n
  · subst h; simp [State.noSkid]
  · rw [State.noSkid, State.region_setRegion_other _ _ h]; rfl

/-- The skid buffers change no other field of a region. -/
theorem State.skidTick_noSkid (s : State) (r t q : Nat) : (s.skidTick r t).noSkid q = s.noSkid q := by
  unfold State.skidTick; dsimp only
  rw [foldl_keeps (fun x => State.noSkid x q) _ (fun a d => by split <;> first | rfl | exact State.noSkid_setSkid ..)]
  exact State.noSkid_setSkid ..

/-- The skid buffers change nothing but the regions. -/
theorem State.skidTick_frame (s : State) (r t : Nat) : ({ s.skidTick r t with regions := s.regions } : State) = s := by
  unfold State.skidTick; dsimp only
  rw [foldl_keeps (fun x : State => ({ x with regions := s.regions } : State)) _ (fun a d => by split <;> rfl)]
  rfl

@[simp] theorem State.skidTick_issued (s : State) (r t q : Nat) : ((s.skidTick r t).region q).issued = (s.region q).issued := by
  have h := congrArg Region.issued (State.skidTick_noSkid s r t q)
  exact h
@[simp] theorem State.skidTick_tokens (s : State) (r t q : Nat) : ((s.skidTick r t).region q).tokens = (s.region q).tokens := by
  have h := congrArg Region.tokens (State.skidTick_noSkid s r t q)
  exact h
@[simp] theorem State.skidTick_gate (s : State) (r t q : Nat) : ((s.skidTick r t).region q).gate = (s.region q).gate := by
  have h := congrArg Region.gate (State.skidTick_noSkid s r t q)
  exact h
@[simp] theorem State.skidTick_gsc (s : State) (r t : Nat) : (s.skidTick r t).gsc = s.gsc := by
  have h := congrArg State.gsc (State.skidTick_frame s r t)
  exact h

/-- A region's tick touches nothing outside the cores but the regions: the skid buffers, and its own region. -/
theorem State.regionTick_outside (s : State) (r t : Nat) (first : Bool) :
    (s.regionTick r t first).outside = ((s.skidTick r t).setRegion r { (s.skidTick r t).region r with
      issued := (s.region r).issued + 1, tickCount := t, elapsed := false, gate := none, stretch := 0, lastIssue := s.gsc }).outside := by
  unfold State.regionTick; dsimp only
  rw [foldl_keeps State.outside _ (fun a b => State.coreIssue_outside ..),
    foldl_keeps State.outside _ (fun a b => State.coreStores_outside ..),
    foldl_keeps State.outside _ (fun a b => State.passGate_outside ..),
    foldl_keeps State.outside _ (fun a b => State.coreStart_outside ..), State.skidTick_issued, State.skidTick_gsc]

/-- The regions after one region's tick. -/
theorem State.regionTick_regions (s : State) (r t : Nat) (first : Bool) :
    (s.regionTick r t first).regions = ((s.skidTick r t).setRegion r { (s.skidTick r t).region r with
      issued := (s.region r).issued + 1, tickCount := t, elapsed := false, gate := none, stretch := 0, lastIssue := s.gsc }).regions :=
  congrArg Prod.fst (State.regionTick_outside s r t first)

end Sys2Proof.Machine
end

