-- ==== Sys2Proof/Tests/Slice0.lean ====
section
/-! SUPPORT. Tests of the model: each witness names a state and operands that meet a statement's hypotheses together, and most also
check what the spec gives as the result there. Expected values are worked out by hand from the rules named. -/
namespace Sys2Proof.Tests
open Sys2Proof Sys2Proof.Machine
set_option Elab.async false

/-- Whether a command answers a next state of which `p` holds. -/
def after (i : Instr) (s : State) (p : State → Bool) : Bool :=
  match exec i s with
  | .next t => p t
  | _ => false

/-- `t` is `s` but for core `c`, which is `k`. -/
def oneCore (s t : State) (c : Nat) (k : Core) : Bool := t.core c == k && ({ t with cores := s.cores } : State) == s

/-- `issues` as a test that computes. -/
def issuesB (s : State) (c : Nat) (op : SlotOp) : Bool :=
  s.hasCore c && (s.core c).live && !slotIllegal op (s.core c) s.exact && (s.core c).enabled op.hdr &&
    op.reads.all fun r => !(s.core c).parity.contains r

theorem issues_all {s : State} {c : Nat} (ops : List SlotOp) (h : ops.all (issuesB s c) = true) : ∀ op ∈ ops, issues s c op := by
  intro op hop
  have := List.all_eq_true.mp h op hop
  simpa [issuesB, issues, and_assoc] using this

/-! ### Slots -/

/-- A header that always enables: p0 reads 1 and PN is 0 (R92, R127). -/
def on : Hdr := { pred := 0#3, pn := false }

/-- A header that never does. -/
def off : Hdr := { pred := 0#3, pn := true }

/-- Core 3 in region 1, tick 100, bundle 10 of 64. -/
def k0 : Core :=
  { Core.init with
    s := [(1, 5#64), (2, 0xFFFFFFFFFFFFFFFD#64), (3, 0x100#64)], a := [(1, 0x1010#40), (2, 0x240#40), (3, 0x1FFFC0#40)]
    v := [(1, (List.range 64).map fun i => BitVec.ofNat 32 (i + 1)), (2, List.replicate 64 0x40000000#32)]
    pc := 10, codeLen := 64 }

def withCore (k : Core) : State :=
  { State.reset with cores := [(3, k)], regions := [(1, { Region.init with tickCount := 100 })] }

def s0 : State := withCore k0

/-- The same state with core 3 changed. -/
def s0With (f : Core → Core) : State := withCore (f k0)

/-- Slot 0's result `v` for a scalar register, visible `lat` ticks after tick 100. -/
def sOut (k : Core) (r : Nat) (v : W64) (lat slot : Nat) : Core := { k with wb := k.wb ++ [⟨.s r, .s v, 100 + lat, 100, slot⟩] }

/-- Witness of SlotsGuarded: a disabled legal slot, an illegal one (CMP COND 7), and a parity error in a register that is read. -/
theorem witness_slotsGuarded :
    (slotIllegal (.ct off .halt) (s0.core 3) s0.exact = false ∧ (s0.core 3).enabled off = false) ∧
    ((s0.core 3).live = true ∧ slotIllegal (.ct off (.cmp ⟨1#3, 1#5, 7#3, .reg 2#5⟩)) (s0.core 3) s0.exact = true) ∧
    (let s := s0With fun k => { k with parity := [.s 2] }
     (s.core 3).live = true ∧ slotIllegal (.ct on (.add ⟨4#5, 1#5, .reg 2#5, false⟩)) (s.core 3) s.exact = false ∧
     (s.core 3).enabled on = true ∧ Reg.s 2 ∈ SlotOp.reads (.ct on (.add ⟨4#5, 1#5, .reg 2#5, false⟩)) ∧ Reg.s 2 ∈ (s.core 3).parity) := by
  decide +kernel

/-- R124, R125, R422 on a running job. -/
theorem test_coreFault :
    (let s : State := { s0 with job := { s0.job with state := .running } }
     let t := s.coreFault 3 5 0x0110
     s.coreRegs.faultValid = false ∧ s.power.mode = .run ∧ t.coreRegs.faultCore = 3 ∧ t.coreRegs.faultTick = 100 ∧
     t.coreRegs.faultPc = 10 ∧ t.stop.isSome = true ∧ t.job.fault = 0x0110#16) := by decide +kernel

/-- Witness of RegistersReadAndWritten: no result of s4 on its way. -/
theorem witness_resultVisible :
    (0 < 4 ∧ ∀ w ∈ k0.wb, w.reg ≠ .s 4) ∧ ((sOut k0 4 7#64 3 0).commitWb 102).rs 4 = 0#64 ∧
    ((sOut k0 4 7#64 3 0).commitWb 103).rs 4 = 7#64 := by decide +kernel

def aluF (b : Src) (u : Bool) : Alu := ⟨4#5, 1#5, b, u⟩

/-- Witness of ScalarArithmetic, every clause. -/
theorem witness_scalarArithmetic :
    (∀ op ∈ ([.li ⟨4#5, true, 7#32⟩, .add (aluF (.reg 2#5) false), .sub (aluF (.imm 1#26) false), .and (aluF (.reg 2#5) false),
      .or (aluF (.reg 2#5) false), .xor (aluF (.reg 2#5) false), .shl (aluF (.reg 2#5) false), .shr (aluF (.imm 63#26) false),
      .sra (aluF (.reg 2#5) false), .mul (aluF (.reg 2#5) false), .min (aluF (.reg 2#5) true), .max (aluF (.reg 2#5) false),
      .cmp ⟨7#3, 1#5, 6#3, .imm 0x3FFFFFF#26⟩].map (SlotOp.ct on)), issues s0 3 op) ∧
    (s0.core 3).unitBusy unitMul (s0.tickOf 3) = false := ⟨issues_all _ (by decide +kernel), by decide +kernel⟩

/-- R130, R131: sums wrap, counts are the low 6 bits, MIN is unsigned with U, an immediate is sign-extended. -/
theorem test_alu :
    after (.add 3 on (aluF (.reg 2#5) false)) s0 (fun t => oneCore s0 t 3 (sOut k0 4 2#64 1 0)) ∧
    after (.sub 3 on (aluF (.imm 0x3FFFFFE#26) false)) s0 (fun t => oneCore s0 t 3 (sOut k0 4 7#64 1 0)) ∧
    after (.shl 3 on (aluF (.imm 65#26) false)) s0 (fun t => oneCore s0 t 3 (sOut k0 4 10#64 1 0)) ∧
    after (.sra 3 on ⟨4#5, 2#5, .imm 1#26, false⟩) s0 (fun t => oneCore s0 t 3 (sOut k0 4 0xFFFFFFFFFFFFFFFE#64 1 0)) ∧
    after (.min 3 on (aluF (.reg 2#5) true)) s0 (fun t => oneCore s0 t 3 (sOut k0 4 5#64 1 0)) ∧
    after (.min 3 on (aluF (.reg 2#5) false)) s0 (fun t => oneCore s0 t 3 (sOut k0 4 0xFFFFFFFFFFFFFFFD#64 1 0)) ∧
    after (.add 3 on ⟨0#5, 1#5, .reg 2#5, false⟩) s0 (fun t => oneCore s0 t 3 k0) ∧
    after (.add 3 off (aluF (.reg 2#5) false)) s0 (fun t => t == s0) := by decide +kernel

/-- R131: LI with HI keeps the low half. R131: the product's low 64 bits, three ticks later. -/
theorem test_liMul :
    after (.li 3 on ⟨1#5, true, 7#32⟩) s0 (fun t => oneCore s0 t 3 (sOut k0 1 0x700000005#64 1 0)) ∧
    after (.li 3 on ⟨4#5, false, 0x80000000#32⟩) s0 (fun t => oneCore s0 t 3 (sOut k0 4 0xFFFFFFFF80000000#64 1 0)) ∧
    after (.mul 3 on (aluF (.reg 2#5) false)) s0 (fun t => (t.core 3).wb = [⟨.s 4, .s 0xFFFFFFFFFFFFFFF1#64, 103, 100, 0⟩]) := by
  decide +kernel

/-- R132. -/
theorem test_cmp :
    after (.cmp 3 on ⟨2#3, 2#5, 2#3, .reg 1#5⟩) s0 (fun t => (t.core 3).wb = [⟨.p 2, .p true, 101, 100, 0⟩]) ∧
    after (.cmp 3 on ⟨2#3, 2#5, 4#3, .reg 1#5⟩) s0 (fun t => (t.core 3).wb = [⟨.p 2, .p false, 101, 100, 0⟩]) := by decide +kernel

def kLoop : Core := { k0 with loops := [⟨8, 10, 3, 0⟩, ⟨4, 20, 0, 2⟩] }

/-- Witness of ControlFlow, every clause; the boundary: an END one below the code's length, four loops open with a count of 0. -/
theorem witness_controlFlow :
    (s0.hasCore 3 = true ∧ Reg.p on.pred.toNat ∉ (s0.core 3).parity) ∧
    (∀ op ∈ ([.br ⟨5#5, .imm 63#12⟩, .loop ⟨63#12, .imm 2#16⟩, .halt].map (SlotOp.ct on)), issues s0 3 op) ∧
    (k0.branch = none ∧ (∀ l ∈ k0.loops, l.last ≠ k0.pc) ∧ k0.tgt (.imm 63#12) < k0.codeLen ∧
      (63#12).toNat < k0.codeLen ∧ k0.loops.length < 4) ∧
    (∀ op ∈ [SlotOp.ct on (.loop ⟨11#12, .reg 0#5⟩)], issues (withCore { k0 with loops := List.replicate 4 ⟨4, 20, 0, 2⟩ }) 3 op) ∧
    k0.cnt (.reg 0#5) = 0 ∧
    (let s := withCore kLoop
     s.hasCore 3 = true ∧ (s.core 3).live = true ∧ (s.core 3).next = none ∧ (s.core 3).branch = none ∧
     (s.core 3).loops = ⟨8, 10, 3, 0⟩ :: [⟨4, 20, 0, 2⟩] ∧ 10 = (s.core 3).pc ∧ 0 < 3) :=
  ⟨by decide +kernel, issues_all _ (by decide +kernel), by decide +kernel, issues_all _ (by decide +kernel), by decide +kernel, by decide +kernel⟩

/-- R133: the link is pc + 3, two delay bundles. R136. R103. -/
theorem test_control :
    after (.br 3 on ⟨5#5, .imm 63#12⟩) s0 (fun t => oneCore s0 t 3 { sOut k0 5 13#64 1 0 with branch := some (63, 2) }) ∧
    after (.loop 3 on ⟨63#12, .imm 2#16⟩) s0 (fun t => (t.core 3).loops = [⟨11, 63, 1, 0⟩] ∧ (t.core 3).next = some 11) ∧
    after (.loop 3 on ⟨63#12, .imm 0#16⟩) s0 (fun t => (t.core 3).loops = [] ∧ (t.core 3).next = some 64) ∧
    after (.loopEnd 3) (withCore kLoop) (fun t => (t.core 3).loops = [⟨8, 10, 2, 1⟩, ⟨4, 20, 0, 2⟩] ∧ (t.core 3).next = some 8) ∧
    after (.halt 3 on) s0 (fun t => (t.core 3).halted = true ∧ t.coreRegs.haltCount = 1) := by decide +kernel

/-- R136: two loops of one END close and the third runs its next pass. -/
theorem witness_loopsClose :
    (∀ l ∈ [Loop.mk 8 10 0 3, Loop.mk 6 10 0 1], l.last = 10 ∧ l.left = 0) ∧ (∀ l ∈ [Loop.mk 2 20 1 1].head?, l.last ≠ 10) ∧
    loopNext 10 [⟨8, 10, 0, 3⟩, ⟨6, 10, 0, 1⟩, ⟨2, 20, 1, 1⟩] = (11, [⟨2, 20, 1, 1⟩]) ∧
    loopNext 10 [⟨8, 10, 0, 3⟩, ⟨6, 10, 2, 1⟩] = (6, [⟨6, 10, 1, 2⟩]) := by decide +kernel

/-- A loaded image: cores 3 and 4 may use their stacked slices, core 3 has a route to core 4, L 12, P 4. -/
def im0 : Image :=
  { digest := [], numericMode := 0, lookahead := 12, period := 4, stepCount := 10, moduleCount := 1, rank := 0, leadRank := 0
    params := [], roles := [], landings := [], steps := [], decls := [], inits := []
    routes := [(3 * 256 + 1, { ep := false, yFirst := false, edgeLane := false, mirror := false, dest := 4, queue := 0, phase := 2
                               ewLanes := 0 })]
    stack := [{ core := 255, ro := false, sliceLo := 0, sliceHi := 7, offLo := 0, offHi := 0x6000000 }] }

/-- Core 3 with the image; s5 holds a far address in region 1, s6 its length. -/
def kI : Core :=
  { k0 with
    a := [(1, 0x1010#40), (2, BitVec.ofNat 40 (3 * 2 ^ 27 + 0x340)), (4, BitVec.ofNat 40 (4 * 2 ^ 27 + 0x5FFFF80))]
    s := [(5, BitVec.ofNat 64 (2 ^ 44 + 64)), (6, 256#64)]
    v := [(1, (List.range 64).map fun i => BitVec.ofNat 32 (4 * i)), (2, List.replicate 64 0xFFFFFFFF#32)]
    ports := [(2, (100, List.replicate 128 7#8))]
    waits := [(1, { queue := 2, target := 3#32, armTick := 88, passed := true })] }

/-- A far-read queue with 15 of its 16 places taken. -/
def qFar : Queue :=
  { Queue.init with
    ranges := [{ type := 0, region := 1, offset := 0, length := 320, aux := 0 }], pushed := 20#32, at_ := 18#32, gated := 5#32
    done := 20 }

def sI : State :=
  { withCore kI with
    image := some im0
    far := { Far.init with regions := [(1, { FarRegion.init with valid := true, size := 1, ctrlCount := 36 })] }
    queues := [(qKey 3 2, qFar)] }

/-- Witness of CountersAndAddresses. -/
theorem witness_countersAndAddresses :
    (∀ op ∈ ([.tickrd 4#5, .gscrd 4#5, .param ⟨4#5, 11#6⟩].map (SlotOp.ct on)) ++
      ([.aadd ⟨4#4, 1#4, .imm 0x3FFFFF#22⟩, .asub ⟨4#4, 1#4, .reg 2#4⟩, .ali 4#4 0x7FFFFFF#27, .aset 4#4 5#5, .aget 4#5 1#4].map
        (SlotOp.ls on)), issues sI 3 op) ∧ sI.image = some im0 := ⟨issues_all _ (by decide +kernel), rfl⟩

/-- R50, R93, R138. -/
theorem test_counters :
    after (.tickrd 3 on 4#5) sI (fun t => oneCore sI t 3 (sOut kI 4 100#64 1 0)) ∧
    after (.param 3 on ⟨4#5, 3#6⟩) sI (fun t => oneCore sI t 3 (sOut kI 4 256#64 1 0)) ∧
    after (.param 3 on ⟨4#5, 9#6⟩) sI (fun t => oneCore sI t 3 (sOut kI 4 12#64 1 0)) ∧
    after (.aadd 3 on ⟨4#4, 1#4, .imm 0x3FFFFF#22⟩) sI (fun t => (t.core 3).wb = [⟨.a 4, .a 0x100F#40, 101, 100, 3⟩]) ∧
    after (.ali 3 on 4#4 0x7FFFFFF#27) sI (fun t => (t.core 3).wb = [⟨.a 4, .a 0xFFFFFFFFFF#40, 101, 100, 3⟩]) := by decide +kernel

/-- A whole vector register at the working store's end: the last of its four lines ends there. -/
def vEnd : MemF 6 := ⟨1#6, 5#4, 0#4, 0#2, 0x7FFC#15⟩

def sEnd : State := s0With fun k => { k with a := [(5, 0x200000#40)] }

/-- Witness of LoadsAndStores, at the end of the working store; and of the clause that raises ADDRESS_RANGE just beyond it. -/
theorem witness_loadsAndStores :
    (∀ op ∈ [SlotOp.ls on (.vld vEnd), .ls on (.vst vEnd), .ls on (.sld ⟨4#5, 5#4, 0#4, 0#2, 0x7FFF#15⟩),
      .ls on (.sst ⟨1#5, 5#4, 0#4, 0#2, 0x7FFF#15⟩), .ls on (.vst { vEnd with off := 0x7FFD#15 })], issues sEnd 3 op) ∧
    (∀ x ∈ vecLines (sEnd.core 3) vEnd, 0 ≤ x ∧ x + 64 ≤ 0x200000) ∧
    (0 ≤ sclAddr (sEnd.core 3) ⟨4#5, 5#4, 0#4, 0#2, 0x7FFF#15⟩ ∧ sclAddr (sEnd.core 3) ⟨4#5, 5#4, 0#4, 0#2, 0x7FFF#15⟩ + 8 ≤ 0x200000) ∧
    (∃ x ∈ vecLines (sEnd.core 3) { vEnd with off := 0x7FFD#15 }, x < 0 ∨ 0x200000 < x + 64) :=
  ⟨issues_all _ (by decide +kernel), by decide +kernel, by decide +kernel, by decide +kernel⟩

/-- R139, R140: the base is cleared to 64 B; R141: an SST's bytes are s[SD], little-endian, at the next bank tick. -/
theorem test_loads :
    (vecLines k0 ⟨1#6, 1#4, 0#4, 0#2, 1#15⟩ = [0x1040, 0x1080, 0x10C0, 0x1100]) ∧
    (vecLines k0 ⟨1#6, 1#4, 2#4, 1#2, 0#15⟩ = [0x1000, 0x1240, 0x1480, 0x16C0]) ∧
    after (.sst 3 on ⟨1#5, 1#4, 0#4, 0#2, 0x7FFF#15⟩) s0 (fun t => (t.core 3).pieces =
      [⟨0, 101, .ls, 100, 0x1008, 8, some [5#8, 0#8, 0#8, 0#8, 0#8, 0#8, 0#8, 0#8], 0, 0⟩]) ∧
    after (.vst 3 on { vEnd with off := 0x7FFD#15 }) sEnd (fun t => t == sEnd.coreFault 3 3 0x0102) := by decide +kernel

def opSt : Op := { kind := .store, issue := 100, slot := 3, left := 1, delay := 0, data := [] }

/-- Witness of StoreAccesses: a store's piece, and a load's. -/
theorem witness_storeAccesses :
    (let k := { k0 with ops := [(0, opSt)] }
     k.opAt 0 = some opSt ∧
     (k.perform [] ⟨0, 101, .ls, 100, 0x1008, 2, some [1#8, 2#8], 0, 0⟩).ws = [(0x1008, 1#8), (0x1009, 2#8)]) := by decide +kernel

/-- R147's selectors. -/
def kMx : Core :=
  { k0 with feedCfg := { FeedCfg.init with lfmt := 6, rfmt := 6, fl := 0x100, fr := 0x1000, fls := 0x8000, frs := 0x9000 } }

def sMx : State := withCore kMx

/-- Witness of MatrixMultiply: nothing in the array, one k-group, and a chain that goes on at the tick it ended; the last line ends at
the end of the working store. -/
theorem witness_matrixMultiply :
    (∀ op ∈ ([.mma ⟨1#2, .imm 1#16⟩, .mma ⟨1#2, .reg 0#5⟩, .mmag ⟨1#2, 1#6, .imm 3#16⟩, .mmag ⟨1#2, 1#6, .reg 0#5⟩].map (SlotOp.mx on)),
      issues sMx 3 op) ∧
    kMx.cnt (.reg 0#5) = 0 ∧ (kMx.feed = none ∧ kMx.workOf 1 = none ∧ feedInWs kMx.feedCfg 1 1 = true ∧ feedInWs kMx.feedCfg 4 3 = true) ∧
    (∃ w, ({ kMx with work := [(1, { elts := [], ends := some 100 })] } : Core).workOf 1 = some w ∧ w.ends = some (sMx.tickOf 3)) ∧
    ([Instr.mma 3 on ⟨1#2, .imm 1#16⟩, .mmag 3 on ⟨1#2, 1#6, .imm 3#16⟩].all fun i =>
      after i (withCore { kMx with parity := [.acc 1] }) fun t => t == (withCore { kMx with parity := [.acc 1] }).coreFault 3 1 0x0108) = true ∧
    (feedInWs { kMx.feedCfg with fl := 0x200000 - 64 } 1 1 = true ∧ feedInWs { kMx.feedCfg with fl := 0x200000 - 63 } 1 1 = false) :=
  ⟨issues_all _ (by decide +kernel), by decide +kernel, by decide +kernel, ⟨{ elts := [], ends := some 100 }, by decide +kernel⟩,
    by decide +kernel, by decide +kernel⟩

/-- Witness of MatrixStateAndReadout: MCFG, MCLR, MMODE, MOUT to registers, to the working store's end, and an exact readout; a chain
that commits six ticks after its end and one that does not yet. -/
theorem witness_matrixState :
    (∀ op ∈ ([.mcfg ⟨7#3, 7#3, 1#4, 2#4, 3#4, 0#4⟩, .mclr 0xF#4, .mmode ⟨1#5, 2#5, 3#5, 0#5⟩, .mout ⟨1#2, 63#6, 1#6, false, 5#4, 2#2, 63#6, 0#4⟩,
      .mout ⟨1#2, 0#6, 1#6, true, 0#4, 0#2, 2#6, 15#4⟩].map (SlotOp.mx on)), issues s0 3 op) ∧
    (∀ a, a < 4 → (0xF#4).getLsbD a = true → k0.work.has a = false) ∧
    (let k := { k0 with work := [(1, { elts := [], ends := some 94 })] }
     (withCore k).hasCore 3 = true ∧ k.workOf 1 = some { elts := [], ends := some 94 } ∧ 94 + 6 ≤ (withCore k).tickOf 3) ∧
    (s0.core 3).unitBusy unitReadout 100 = false ∧
    (∀ r, r < (MoutF.mk 1#2 0#6 1#6 true 0#4 0#2 2#6 15#4).rows → (k0.ra 2).toNat / 64 * 64 + r * 64 * 2 ^ 15 + moutBytes 0 ≤ 0x200000) :=
  ⟨issues_all _ (by decide +kernel), by decide +kernel, by decide +kernel, by decide +kernel, by decide +kernel⟩

/-- R124, R148: what a MCLR and a commit write is good again. -/
theorem test_accumulatorParity :
    after (.mclr 3 on 2#4) (withCore { k0 with parity := [.acc 1, .acc 2] }) (fun t => (t.core 3).parity = [.acc 2]) ∧
    after (.accumulatorCommit 3 1) (withCore { k0 with work := [(1, { elts := [], ends := some 94 })], parity := [.acc 1, .s 4] }) (fun t =>
      (t.core 3).parity = [.s 4]) := by decide +kernel

/-- R143, R148, R114. -/
theorem test_matrix :
    after (.mcfg 3 on ⟨7#3, 7#3, 1#4, 2#4, 3#4, 0#4⟩) s0 (fun t => (t.core 3).feedCfg = ⟨7, 7, 0x1000, 0x240, 0x1FFFC0, 0, 0⟩) ∧
    after (.mma 3 on ⟨1#2, .imm 2#16⟩) sMx (fun t =>
      (t.core 3).feedCfg = ⟨6, 6, 0x180, 0x1080, 0x8000, 0x9000, 2⟩ ∧ (t.core 3).work.has 1 = true) ∧
    after (.mmag 3 on ⟨1#2, 1#6, .imm 2#16⟩) sMx (fun t => (t.core 3).feedCfg = ⟨6, 6, 0x180, 0x1200, 0x8000, 0x9000, 2⟩) ∧
    after (.accumulatorCommit 3 1) (withCore { k0 with work := [(1, { elts := [], ends := some 94 })] }) (fun t =>
      (t.core 3).work = []) ∧
    after (.mout 3 on ⟨1#2, 62#6, 2#6, false, 0#4, 0#2, 9#6, 0#4⟩) s0 (fun t =>
      (t.core 3).wb.map (fun w => (w.reg, w.due)) = [(.v 9, 104), (.v 10, 105)]) := by decide +kernel

def lf (t : Nat) : LaneF := ⟨3#6, 1#6, 2#6, 0#6, BitVec.ofNat 2 t, 0#3, 0#3⟩

/-- Witness of VectorLanes: a free pipe, every instruction. -/
theorem witness_vectorLanes :
    (s0.core 3).unitBusy unitPipe (s0.tickOf 3) = false ∧
    (∀ op ∈ ([.vadd (lf 1), .vmul (lf 0), .vfma { lf 1 with vc := 63#6 }, .vmin (lf 2), .vmax (lf 1), .vsel { lf 0 with vc := 1#6 },
      .vcmp { lf 2 with cond := 5#3, pd := 7#3 }, .vshuf ⟨3#6, 1#6, 2#6, 0#2, 0#6, 0#5⟩, .vshuf ⟨3#6, 1#6, 0#6, 1#2, 63#6, 0#5⟩,
      .vshuf ⟨3#6, 1#6, 0#6, 2#2, 0#6, 1#5⟩, .vshuf ⟨3#6, 0#6, 0#6, 3#2, 0#6, 1#5⟩, .vred ⟨3#6, 1#6, 2#2, 1#2⟩].map (SlotOp.vx on)),
      issues s0 3 op) := ⟨by decide +kernel, issues_all _ (by decide +kernel)⟩

/-- The vector of a VX result that lane `l` of `v3` takes. -/
def vLane (t : State) (l : Nat) : W32 :=
  match ((t.core 3).wb.getD 0 ⟨.s 0, .s 0, 0, 0, 0⟩).val with
  | .v x => lane x l
  | _ => 0#32

/-- R158 to R161: 2.0 added and multiplied as words, sums modulo 2³², the selected lane, the sum of 1 to 64. -/
theorem test_vector :
    after (.vadd 3 on (lf 1)) s0 (fun t => vLane t 63 = 0x40000040#32 ∧ (t.core 3).wb.map Wb.due = [104]) ∧
    after (.vadd 3 on { lf 0 with va := 2#6 }) s0 (fun t => vLane t 0 = 0x40800000#32) ∧
    after (.vmul 3 on { lf 0 with va := 2#6 }) s0 (fun t => vLane t 7 = 0x40800000#32) ∧
    after (.vshuf 3 on ⟨3#6, 1#6, 0#6, 1#2, 63#6, 0#5⟩) s0 (fun t => vLane t 0 = 64#32) ∧
    after (.vsel 3 on { lf 0 with vc := 1#6 }) s0 (fun t => vLane t 0 = 1#32 ∧ vLane t 1 = 0x40000000#32) ∧
    after (.vred 3 on ⟨3#6, 1#6, 0#2, 1#2⟩) s0 (fun t => vLane t 63 = 2080#32 ∧ (t.core 3).wb.map Wb.due = [112]) ∧
    (k0.rv 1).length = 64 := by decide +kernel

/-- Witness of VectorConversions. -/
theorem witness_vectorConversions :
    (∀ op ∈ ([.vcvt ⟨3#6, 2#6, 0#4, 8#4, 0#2, 0#5, 0#5, 0#5⟩, .vqnt ⟨3#6, 2#6, 7#4, 0#4, 2#2, 1#5, 2#5, 3#5⟩, .vfn ⟨3#6, 2#6, 6#3⟩].map
      (SlotOp.vx on)), issues s0 3 op) ∧
    ((s0.core 3).unitBusy unitPipe (s0.tickOf 3) = false ∧ (s0.core 3).unitBusy unitFn (s0.tickOf 3) = false) :=
  ⟨issues_all _ (by decide +kernel), by decide +kernel⟩

/-- Witness of SelectUnit: a free unit, every instruction, a selection made and none. -/
theorem witness_selectUnit :
    (s0.core 3).unitBusy unitSelect (s0.tickOf 3) = false ∧
    (∀ op ∈ ([.topkInit ⟨0#6, 0#6, 0#6, false, 1#5⟩, .topkMerge ⟨0#6, 2#6, 1#6, true, 0#5⟩, .topkRead ⟨62#6, 0#6, 0#6, false, 1#5⟩,
      .vpen ⟨3#6, 2#6, 1#6, 1#6, 1#5, 2#5⟩, .draw ⟨3#6, 1#5, 2#5, 3#5⟩, .select ⟨3#6, 2#6, 1#6, 0#6⟩, .clrsel].map (SlotOp.vx on)),
      issues s0 3 op) ∧
    (k0.sel.sel = false ∧ lane (k0.rv 1) 0 ≠ 0xFFFFFFFF#32 ∧ flt (lane (k0.rv 0) 0) (lane (k0.rv 2) 0) = true) ∧
    (let e : Select := { k0.sel with kcap := 2, list := [(0x40000000#32, 1#32), (0x3F800000#32, 9#32)] }
     e.list.Pairwise (fun a b => candBefore a b = true) ∧
     mergeList e false [0x40000000#32] [0#32] = [(0x40000000#32, 0#32), (0x40000000#32, 1#32)]) :=
  ⟨by decide +kernel, issues_all _ (by decide +kernel), by decide +kernel, by decide +kernel⟩

/-- R167: KCAP at its bounds. R169: the first lane whose weight exceeds the threshold. -/
theorem test_select :
    after (.vtopkInit 3 on ⟨0#6, 0#6, 0#6, false, 1#5⟩) s0 (fun t => (t.core 3).sel.kcap = 5) ∧
    after (.vtopkInit 3 on ⟨0#6, 0#6, 0#6, false, 2#5⟩) s0 (fun t => (t.core 3).sel.kcap = 1024) ∧
    after (.vtopkInit 3 on ⟨0#6, 0#6, 0#6, false, 0#5⟩) s0 (fun t => (t.core 3).sel.kcap = 1) ∧
    after (.vdrawSelect 3 on ⟨3#6, 2#6, 1#6, 0#6⟩) s0 (fun t => (t.core 3).sel.selIx = 0 ∧ (t.core 3).sel.selId = 1#32 ∧ vLane t 1 = 1#32) ∧
    after (.vdrawSelect 3 on ⟨3#6, 2#6, 1#6, 2#6⟩) s0 (fun t => (t.core 3).sel.sel = false ∧ vLane t 0 = 0xFFFFFFFF#32) := by
  decide +kernel

/-- Witness of Movers: own lines, a remote line at the end of its slice, a send, a receive, a gather with a lane that reads nothing. -/
theorem witness_movers :
    (∀ op ∈ ([.ssr ⟨6#3, false, 1#4, 2#4, 0#8⟩, .ssr ⟨1#3, true, 1#4, 4#4, 1#8⟩, .ssw ⟨3#3, false, 1#4, 2#4, 0#8⟩,
      .ssw ⟨1#3, true, 1#4, 4#4, 1#8⟩, .msend ⟨1#4, 1#8, 0x7FF#11⟩, .mrecv 2#3 1#4, .gath 3#6 1#6, .gath 3#6 2#6].map (SlotOp.mv on)),
      issues sI 3 op) ∧
    (sI.stackOk 3 3 0x300 (128 * 6) false = true ∧ sI.stackOk 3 4 0x5FFFF80 128 true = true ∧ sI.routeOk 3 1 = true ∧
      (∃ r, sI.route 3 1 = some r ∧ r.ep = false ∧ r.dest = 4)) ∧
    (0 ≤ msendAddr kI ⟨1#4, 1#8, 0x7FF#11⟩ ∧ msendAddr kI ⟨1#4, 1#8, 0x7FF#11⟩ + 128 ≤ 0x200000) ∧
    (kI.unitAt 2 100 = some (List.replicate 128 7#8) ∧ (kI.ra 1).toNat / 128 * 128 + 128 ≤ 0x200000) ∧
    (kI.unitBusy unitGather 100 = false ∧ (∀ l, l < 64 → gathOk sI 3 (lane (kI.rv 1) l) = true) ∧
      (∀ l, l < 64 → gathOk sI 3 (lane (kI.rv 2) l) = true)) :=
  ⟨issues_all _ (by decide +kernel), ⟨by decide +kernel, by decide +kernel, by decide +kernel, ⟨_, rfl, by decide +kernel⟩⟩,
    by decide +kernel, by decide +kernel, by decide +kernel⟩

/-- R172 to R174, R91, R119: cores 3 and 4 lie in different regions, one hop of spacing 5 apart. -/
theorem test_movers :
    after (.ssr 3 on ⟨2#3, false, 1#4, 2#4, 0#8⟩) sI (fun t => t.ssLines.map (fun l => (l.slice, l.tick, l.off)) =
      [(3, 104, 0x300), (3, 104, 0x380)]) ∧
    after (.ssr 3 on ⟨1#3, true, 1#4, 4#4, 1#8⟩) sI (fun t => t.ssLines.map (fun l => (l.slice, l.tick, l.off)) = [(4, 109, 0x5FFFF80)]) ∧
    after (.mrecv 3 on 2#3 1#4) sI (fun t => (t.core 3).ports = [] ∧ (t.core 3).pieces.map Piece.addr = [0x1000, 0x1040]) ∧
    after (.msend 3 on ⟨1#4, 1#8, 0x7FF#11⟩) sI (fun t => (t.core 3).pieces.map Piece.addr = [0xF80, 0xFC0]) := by decide +kernel

/-- Witness of QueueInstructions: one place left, a count that reaches PUSHED, a wait whose lookahead has just passed. -/
theorem witness_queueInstructions :
    (∀ op ∈ ([.qpush ⟨2#5, 5#5, 6#5⟩, .qarm ⟨0#3, 2#5, .imm 2#16⟩, .qwait 1#3, .qstat ⟨4#5, 2#5, 3#2⟩].map (SlotOp.qx on)),
      issues sI 3 op) ∧
    (sI.stop = none ∧ sI.bound 3 2 = true ∧ (sI.queue 3 2).kind.pushes = true ∧ (qFar.pushed - qFar.gated).toNat < qFar.kind.depth ∧
      qFar.reqOk sI (kI.rs 5) 256 = true) ∧
    (kI.waits.has 0 = false ∧ (2#32).toNat ≤ (qFar.pushed - qFar.at_).toNat) ∧
    (kI.waits.has 1 = true ∧ 88 + sI.lookahead ≤ sI.tickOf 3) :=
  ⟨issues_all _ (by decide +kernel), by decide +kernel, by decide +kernel, by decide +kernel⟩

/-- R179, R181, R182, R183. -/
theorem test_queues :
    after (.qpush 3 on ⟨2#5, 5#5, 6#5⟩) sI (fun t => (t.queue 3 2).pushed = 21#32 ∧ (t.queue 3 2).reqs.map QReq.seq = [21]) ∧
    after (.qarm 3 on ⟨0#3, 2#5, .imm 2#16⟩) sI (fun t => (t.queue 3 2).at_ = 20#32 ∧ (t.core 3).waits.has 0 = true) ∧
    after (.qwait 3 on 1#3) sI (fun t => (t.core 3).waits = []) ∧
    after (.qstat 3 on ⟨4#5, 2#5, 3#2⟩) sI (fun t => (t.core 3).wb = [⟨.s 4, .s 1#64, 102, 100, 5⟩]) := by decide +kernel

/-! ### The tick domain and the paceline -/

/-- A running job. -/
def running (s : State) : State := { s with job := { s.job with state := .running } }

def lostPiece : Piece := ⟨4, 100, .ls, 99, 0x40, 8, none, 0, 1⟩
def lostLine : SsLine := ⟨3, 100, 2, 96, 3, 4, 0x80, none, 0, 1⟩

/-- R107, R190. -/
theorem test_deferrals :
    (let s : State := { s0With fun k => { k with lost := [lostPiece] } with ssLost := [lostLine] }
     s.hasCore 3 = true ∧ after (.pieceDeferral 3) s (fun t => (t.core 3).lost = [] ∧ (t.core 3).pieces.map Piece.tick = [101]) ∧
     after (.lineDeferral 3) s (fun t => t.ssLost = [] ∧ t.ssLines.map SsLine.tick = [101])) := by decide +kernel

def fl0 : Flight := ⟨.port 3 2, List.replicate 128 9#8, 101, 4, [4, 3]⟩
def sFly : State := { running s0 with flights := [fl0] }

/-- Witness of UnitsArrive, the mesh: a unit due in the next tick, alone at its port. -/
theorem witness_meshArrival :
    (sFly.hasCore 3 = true ∧ fl0 ∈ sFly.flights ∧ fl0.dest = .port 3 2 ∧ fl0.due = sFly.tickOf 3 + 1 ∧
      (∀ g ∈ sFly.flights, g.dest = .port 3 2 → g.due ≤ sFly.tickOf 3 + 1 → g = fl0)) ∧
    (sFly.power.mode = .run ∧ sFly.job.state = .running ∧ sFly.job.fault = 0#16) ∧
    after (.meshUnitArrival 3 none) sFly (fun t => (t.core 3).unitAt 2 101 = some fl0.data ∧ t.flights = []) ∧
    (sFly.flights[0]? = some fl0 ∧ 3 ∈ fl0.path) ∧
    after (.meshUnitArrival 3 (some 0)) sFly (fun t => t.job.fault = 0x0404#16 ∧ t.flights = []) ∧
    (let s := { running s0 with flights := [{ fl0 with path := [4] }] }
     s.flights[0]?.isSome = true ∧ after (.meshUnitArrival 3 (some 0)) s (fun t => t.job.fault = 0#16 ∧ t.flights = [])) := by
  decide +kernel

def land0 : Landing :=
  { endpoint := 0, core := 3, queue := 2, edgeLane := false, required := true, phase := 1, ewLanes := 0, ringBase := 0x400
    ringUnits := 2, doneTick := 0, cursor := 1 }

def sLand : State :=
  { running sI with
    image := some { im0 with landings := [land0] }
    queues := [(qKey 3 2, { qFar with land := [(5, List.replicate 256 3#8)] })] }

/-- Witness of UnitsArrive, the landings (tick 101 is on phase 1 of 4): the cursor wraps around the ring. -/
theorem witness_landing :
    (sLand.job.state = .running ∧ 101 % sLand.period = land0.phase ∧ land0.doneTick ≠ 102 ∧
      (sLand.queue 3 2).take = some (List.replicate 128 3#8, { qFar with land := [(5, List.replicate 128 3#8)] }) ∧ 0 < land0.ringUnits) ∧
    after (.landingTransfer 0) sLand (fun t => (t.core 3).pieces.map Piece.addr = [0x480, 0x4C0] ∧
      (t.image.map fun i => i.landings.map Landing.cursor) = some [0]) := by decide +kernel

def flS : Flight := ⟨.stage 3 2, List.replicate 128 9#8, 0, 3, [3]⟩
def sStage (n : Nat) : State :=
  { running sI with flights := [flS], queues := [(qKey 3 2, { qFar with kind := .farWrite, stageSize := n, stage := List.replicate 128 1#8 })] }

/-- Witness of UnitsArrive, the staging areas: just enough room, and one byte too little. -/
theorem witness_staging :
    (let s := sStage 256
     s.flights = [flS] ∧ s.stop = none ∧ flS.due ≤ s.tickOf (edgeCore s.gridW 3 (epEdge (s.queue 3 2).endpoint)) ∧ flS.data.length = 128 ∧
     (∀ e ∈ s.queues, e.2.kind ≠ .fabricSend) ∧ (s.queue 3 2).kind ≠ .fabricSend ∧ s.power.mode = .run ∧
     s.job.state = .running ∧ s.job.fault = 0#16) ∧
    after (.endpointUnit 3 2) (sStage 256) (fun t => (t.queue 3 2).stage.length = 256 ∧ t.job.fault = 0#16) ∧
    after (.endpointUnit 3 2) (sStage 255) (fun t => (t.queue 3 2).stage.length = 128 ∧ t.job.fault = 0x0407#16) := by decide +kernel

def rq0 : QReq :=
  { seq := 20, addr := BitVec.ofNat 64 (2 ^ 44 + 64), len := 256, accepted := [1, 2, 3, 4], left := 0, data := [(0, 5#8)], got := 256, sent := 0
    mode := none, tid := 0 }

/-- `sI` with one request in the queue of kind `k` and controllers 0 to 35 in region 1. -/
def sReq (k : QKind) (r : QReq) : State :=
  { running sI with
    queues := [(qKey 3 2, { qFar with kind := k, reqs := [r], landSize := 256, land := if k = .step then [(21, [1#8])] else [] })]
    far := { sI.far with rate := 0 } }

/-- Witness of QueueCompletions, each clause; a granule not yet moved. -/
theorem witness_queueCompletions :
    (let s := sReq .farRead rq0
     s.bound 3 2 = true ∧ s.fab.switch = [] ∧ s.recs.marks = [] ∧
     (∀ e ∈ s.queues, e.2.kind = .fabricSend → (s.queue (e.1 / 32) (e.1 % 32)).stage = []) ∧ s.allAccepted rq0 = true ∧
     (s.queue 3 2).landed + rq0.len ≤ (s.queue 3 2).landSize) ∧
    after (.queueCompletion 3 2) (sReq .farRead rq0) (fun t => (t.queue 3 2).cc = 1#32 ∧ (t.queue 3 2).land.map (·.1) = [20]) ∧
    after (.queueCompletion 3 2) (sReq .farRead { rq0 with left := 1 }) (fun t => (t.queue 3 2).cc = 0#32) ∧
    after (.queueCompletion 3 2) (sReq .farWrite rq0) (fun t => (t.queue 3 2).cc = 1#32 ∧ (t.queue 3 2).reqs = []) ∧
    after (.queueCompletion 3 2) (sReq .farWrite { rq0 with got := 128 }) (fun t => (t.queue 3 2).cc = 0#32) ∧
    after (.queueCompletion 3 2) (sReq .step rq0) (fun t => (t.queue 3 2).cc = 1#32) := by decide +kernel

/-- Witness of FarRequests: granule 1 of region 1 lies on controller 1. -/
theorem witness_farRequests :
    (let s := sReq .farWrite { rq0 with accepted := [0] }
     s.bound 3 2 = true ∧ s.stop = none ∧ s.far.selfRefresh = false ∧ s.far.rate ≠ 3 ∧ s.power.mode = .run ∧ (s.queue 3 2).reqs = [{ rq0 with accepted := [0] }] ∧
     ((s.farRegion rq0.region).grans rq0.off rq0.len 1) ≠ [] ∧ (s.queue 3 2).stage = []) ∧
    after (.farRequest 3 2 1) (sReq .farWrite { rq0 with accepted := [0] }) (fun t => t.farGet 1 64 2 = [5#8, 0#8] ∧
      (t.queue 3 2).reqs.map QReq.accepted = [[0, 1]]) ∧
    after (.farRequest 3 2 1) (sReq .farRead { rq0 with accepted := [] }) (fun t => t.far.mem = [] ∧
      (t.queue 3 2).reqs.map QReq.accepted = [[1]]) ∧
    (let r : FarRegion := { FarRegion.init with ctrlCount := 36, valid := true, size := 1 }
     0 < r.ctrlCount ∧ r.localBase + 64 / 64 + 65535 / 64 < 2 ^ 25 ∧ (r.map 64).key ≠ (r.map 65535).key) := by decide +kernel

def sFar (slot : Nat) : State :=
  { State.reset with far := { Far.init with
      rate := 0, chans := [(0, { FarChan.init with slot := slot, oscDue := 1000000 })]
      ctrls := [(0, { FarCtrl.init with bg := [{ src := .serve, at_ := 5, urgent := false, begun := false, write := false, grans := [⟨0, 7, false⟩] }] })] } }

/-- Witness of FarMemoryUpkeep: the last slot of the frame, a refresh-window slot, an aged request, 101 °C, the three trainings. -/
theorem witness_farUpkeep :
    (State.reset.far.rate = 3 ∧ (sFar 4095).far.rate ≠ 3 ∧ (sFar 4095).far.selfRefresh = false ∧ slotClass false 9 = .window) ∧
    after (.channelSlot 0 0 { demand := none, err := .clean }) (sFar 4095) (fun t => (t.farChan 0 0).slot = 0) ∧
    ((sFar 9).gsc < ((sFar 9).farChan 0 0).oscDue ∧ ((sFar 9).farChan 0 0).fixes = []) ∧
    after (.channelSlot 0 0 { demand := none, err := { GranErr.clean with corrected := true } }) (sFar 9) (fun t => (t.farChan 0 0).slot = 10 ∧
      (t.farChan 0 0).scrub = 1 ∧ (t.farChan 0 0).fixes = [0] ∧ (t.ctrl 0).corr = 1) ∧
    after (.channelSlot 0 0 { demand := some .zqLatch, err := .clean }) (sFar 9) (fun t => (t.farChan 0 0).scrub = 0 ∧
      (t.farChan 0 0).cmds.find 0 WinCmd.zqLatch.code = 1) ∧
    after (.backgroundUrgent 0) (sFar 0) (fun t => t.gsc = 50000006 ∧ (t.ctrl 0).urgent = 1) ∧
    after (.mr4Poll (List.replicate 36 (101, 3))) (running (sFar 0)) (fun t => t.far.hot = true ∧ t.job.fault = 0x0304#16) ∧
    after (.mr4Poll (List.replicate 36 (95, 3))) (running (sFar 0)) (fun t => t.far.hot = false ∧ t.job.fault = 0#16) ∧
    after (.farTraining true false) State.reset (fun t => t.far.rate = 1 ∧ t.far.degraded = false) ∧
    after (.farTraining true false) (running (sFar 0)) (fun t => t.far.rate = 0 ∧ t.job.fault = 0x0303#16) ∧
    after (.farTraining false true) (running (sFar 0)) (fun t => t.far.rate = 0 ∧ t.job.fault = 0x0303#16) ∧
    after (.farTraining false false) (running (sFar 0)) (fun t => t == running (sFar 0)) := by decide +kernel

/-- All regions have issued ticks 0 to 4; region 0, a corner, holds both its tokens. -/
def sPace : State :=
  { running State.reset with regions := (List.range 80).map fun r =>
      (r, { Region.init with issued := 5, tickCount := 4, elapsed := r == 0, tokens := if r = 0 then [(1, 5), (3, 5)] else [] }) }

/-- Witness of TickIssue. -/
theorem witness_tickIssue :
    (0 < (sPace.region 0).issued ∧ (sPace.region 0).elapsed = true ∧ (sPace.region 0).hasTokens 0 = true ∧ (sPace.region 0).gate = none ∧
      sPace.mayIssue 0 5 = true ∧ sPace.unmet 0 5 = [] ∧ sPace.otherHold 0 5 = false) ∧
    after (.tickIssue 0) sPace (fun t => (t.region 0).issued = 6 ∧ (t.region 0).tickCount = 5 ∧ (t.region 1).issued = 5 ∧
      (t.region 1).skid.find [] 0 = [5]) ∧
    ((sPace.region 1).elapsed = false ∧ after (.tickIssue 1) sPace (fun t => t == sPace)) ∧
    (neighbour 1 0 = some 0 ∧ neighbour 0 0 = none) ∧
    after (.tickToken 1 0 true) sPace (fun t => (t.region 1).tokens.find 0 0 = 1) ∧
    after (.tickToken 0 1 true) sPace (fun t => (t.region 0).tokens.find 0 1 = 5) ∧
    after (.periodElapsed 1) sPace (fun t => (t.region 1).elapsed = true) := by decide +kernel

def hold0 : GateHold := { queue := 2, core := 0, kind := .fabricReceive, since := 7 }

/-- Region 0 is in tick 8, and a wait its core 0 armed in tick 0 has its gate at tick 9. -/
def sGate (cc : W32) (g : Option GateHold) : State :=
  { sPace with
    regions := sPace.regions.put 0 { sPace.region 0 with tickCount := 8, gate := g }
    cores := [(0, { k0 with waits := [(1, { queue := 2, target := 3#32, armTick := 0, passed := false })] })]
    queues := [(qKey 0 2, { qFar with kind := .fabricReceive, cc := cc })] }

/-- Witness of TrackStands: the completion one short, and just reached. -/
theorem witness_trackStands :
    ((sGate 2#32 none).unmet 0 9 ≠ [] ∧ (sGate 2#32 none).mayIssue 0 9 = true) ∧
    after (.tickIssue 0) (sGate 2#32 none) (fun t => (t.region 0).gate.isSome = true ∧ (t.region 0).tickCount = 8 ∧ t.pace.tsCount = 1) ∧
    after (.gateRelease 0) (sGate 2#32 (some hold0)) (fun t => t == sGate 2#32 (some hold0)) ∧
    ((sGate 3#32 (some hold0)).unmet 0 9 = [] ∧ (sGate 3#32 (some hold0)).mayIssue 0 9 = true ∧
      (sGate 3#32 (some hold0)).otherHold 0 9 = false) ∧
    after (.gateRelease 0) (sGate 3#32 (some hold0)) (fun t => (t.region 0).gate = none ∧ (t.region 0).tickCount = 9) := by decide +kernel

/-- `leadLimit`, `tokensIssued` and `gatesHold` as one test that computes. -/
def paceOk (s : State) : Bool :=
  (List.range 80).all fun r => ((s.region r).gate.isNone || (s.region r).hasTokens r) && (List.range 4).all fun d =>
    match neighbour r d with
    | none => true
    | some q => (s.region r).issued ≤ (s.region q).issued + 1 && (s.region r).tokens.find 0 d ≤ (s.region q).issued

/-- Witness of LeadLimitKept, where a region holds and where one leads by a tick: the invariants hold before and after. -/
theorem witness_leadLimit :
    paceOk (sGate 2#32 none) = true ∧
    after (.tickIssue 0) sPace (fun t => paceOk t ∧ after (.tickIssue 0) t (fun u => u == t)) := by decide +kernel

theorem witness_leadLimit' : sPace.leadLimit ∧ sPace.tokensIssued ∧ sPace.gatesHold := by
  have h : paceOk sPace = true := by decide +kernel
  simp only [paceOk, List.all_eq_true, List.mem_range, Bool.and_eq_true] at h
  refine ⟨fun r d q hr hd hq => ?_, fun r d q hr hd hq => ?_, fun r hr hg => ?_⟩
  · have := (h r hr).2 d hd; simp only [hq, Bool.and_eq_true, decide_eq_true_eq] at this; exact this.1
  · have := (h r hr).2 d hd; simp only [hq, Bool.and_eq_true, decide_eq_true_eq] at this; exact this.2
  · have := (h r hr).1
    rcases hx : (sPace.region r).gate with _ | g
    · simp [hx] at hg
    · simpa [hx] using this

def sGear (stop : Bool) : State :=
  { sPace with
    regions := sPace.regions.put 7 { sPace.region 7 with retuning := stop }
    pace := { Pace.init with change := some { target := 3, regionStop := stop, started := 10 }, gearAt := 6000, calValid := true }
    power := { State.reset.power with requested := 3 } }

/-- Witness of GearsAndReference, the gears: a stretch at its limit and one beyond, a change by count and by region stop. -/
theorem witness_gears :
    after (.supplyDroop 7 200) sPace (fun t => (t.region 7).stretch = 200 ∧ t.pace.stretchMax = 200 ∧ t.power.brake = false) ∧
    (sPace.power.brake = false ∧ after (.supplyDroop 7 201) (sGear true) (fun t => t.power.brake = true ∧ t.pace.change = none ∧
      (t.region 7).retuning = false)) ∧
    (min (sGear false).power.requested (sGear false).effCap = 3 ∧ after .gearSwitchCount (sGear false) (fun t =>
      t.gsc = 6000 ∧ t.pace.gearNow = 3 ∧ (t.region 79).gear = 3)) ∧
    ((sGear true).region 7).retuning = true ∧ after (.regionRetuneDone 7) (sGear true) (fun t => t.pace.gearNow = 3 ∧ t.pace.change = none) := by
  decide +kernel

def sCal : State := { sPace with pace := { Pace.init with calValid := true, calDue := 900, calGear := 15, gearNow := 2 }, gsc := 800 }
def sLost : State := { sCal with pace := { sCal.pace with refLost := true, lostAt := 100, capRef := some 2 }, image := some { im0 with moduleCount := 2 } }

/-- Witness of GearsAndReference, the reference. -/
theorem witness_reference :
    after (.calibration true) sCal (fun t => t.gsc = 900 ∧ t.pace.calGear = 0 ∧ t.pace.calErr = true ∧ t.pace.calDue = 1000900) ∧
    (State.reset.pace.calValid = false ∧ State.reset.pace.change = none ∧ State.reset.power.mode = .run) ∧
    after .trimBuild State.reset (fun t => t.pace.calValid = true) ∧
    after .refLossEvent sCal (fun t => t.pace.capRef = some 2 ∧ t.effCap = 2) ∧
    after .refLoss sLost (fun t => t.gsc = 10000101 ∧ t.job.fault = 0x0D02#16) ∧
    after .refRestored { sLost with gsc := 5000100 } (fun t => t.pace.lossMs = 5 ∧ t.pace.refLost = false ∧ t.gsc = 5000100) := by
  decide +kernel

/-- Witness of PacelineLimits. -/
theorem witness_pacelineLimits :
    (0 < (sPace.region 0).issued ∧ sPace.anyHold = false ∧ sPace.power.mode = .run ∧ sPace.job.state = .running ∧ sPace.job.fault = 0#16) ∧
    after (.paceStall 0) sPace (fun t => t.job.fault = 0x0D01#16 ∧ t.gsc = 100000) ∧
    (let s := sGate 2#32 (some hold0)
     (s.region 0).gate = some hold0 ∧ s.debugStopped = false ∧ after (.tsTimeoutFabric 0) s (fun t => t.job.fault = 0x0D04#16 ∧ t.gsc = 100000008)) ∧
    (let s := { sGate 2#32 (some hold0) with queues := [(qKey 0 2, { qFar with kind := .farRead, cc := 2#32 })] }
     after (.tsTimeoutFar 0) s (fun t => t.job.fault = 0x0D03#16 ∧ t.gsc = 10000008)) ∧
    ((sGear true).pace.change = some { target := 3, regionStop := true, started := 10 } ∧
     after (.retuneTimeout 7) (sGear true) (fun t => t.job.fault = 0x0D06#16 ∧ t.gsc = 2011)) := by decide +kernel

/-! ### Lumoz commands -/

/-- A command of opcode `op` with payload `b`. -/
def cmd (op : Nat) (b : Bytes) : Cmd :=
  { opcode := op, length := b.length, reserved := 0, tag := 7#64, payload := b, seq := 1#32, doorbellGsc := 0, executing := false }

/-- Channel `ch` of `s` carries `c`, and nothing waits before or behind it. -/
def send (s : State) (ch : Nat) (c : Cmd) : State :=
  { s with
    sec := { s.sec with boot := .running }
    host := { s.host with order := [ch], chans := s.host.chans.put ch { s.chan ch with busy := true, cmd := some c } } }

/-- `State.carries` with nothing waiting behind, as a test that computes. -/
def carriesB (s : State) (ch op : Nat) (c : Cmd) : Bool :=
  decide (ch < 10) && s.sec.boot == .running && s.cmdOf ch == some c && c.opcode == op && !c.executing && c.reserved == 0 &&
    !s.exclusiveBusy ch && s.power.mode == .run && s.host.order == [ch]

theorem carries_of {s : State} {ch op : Nat} {c : Cmd} (h : carriesB s ch op c = true) : s.carries ch op c := by
  simp only [carriesB, Bool.and_eq_true, decide_eq_true_eq, beq_iff_eq, Bool.not_eq_true'] at h
  exact ⟨h.1.1.1.1.1.1.1.1, h.1.1.1.1.1.1.1.2, h.1.1.1.1.1.1.2, h.1.1.1.1.1.2, h.1.1.1.1.2, h.1.1.1.2, h.1.1.2, h.1.2, [], h.2, by simp⟩

/-- The command's row answers with result `code`, and of the next state and the response's payload `p` holds. -/
def ans (i : Instr) (s : State) (ch code : Nat) (p : State → Bytes → Bool := fun _ _ => true) : Bool :=
  after i s fun t =>
    match (t.chan ch).resp with
    | some r => r.result == BitVec.ofNat 16 code && !(t.chan ch).busy && p t r.payload
    | none => false

def noView : HostView := { segs := [], bad := [] }

/-- Witness of CommandsCheckedAndAnswered: every row with a LENGTH one too long, and with a reserved byte set, is answered RANGE. -/
theorem witness_commandsChecked : ((commandLengths noView noView).all fun row =>
    let c := cmd row.2.1 (zeros (row.2.2 + 1))
    let d := { cmd row.2.1 (zeros row.2.2) with reserved := 1 }
    carriesB (send State.reset 9 c) 9 row.2.1 c && c.length != row.2.2 &&
      ans (row.1 9) (send State.reset 9 c) 9 2 && ans (row.1 0) (send State.reset 0 d) 0 2) = true := by decide +kernel

/-- R423, R424: a response with its vector unmasked, and one on a management channel. -/
theorem test_answer :
    (let s := send State.reset 0 (cmd 0x0001 [])
     let s := { s with host := { s.host with
       chans := s.host.chans.put 0 { s.chan 0 with vecEn := true, vector := 5 }
       msix := [(5, { addr := 0x1000#64, data := 0x11223344#32, masked := false, pend := false, sent := 0 })] } }
     let t := s.respond 0 (.ok [9#8])
     t.host.hostMem = [(0x1000, 0x44#8), (0x1001, 0x33#8), (0x1002, 0x22#8), (0x1003, 0x11#8)] ∧ (t.chan 0).done = true) ∧
    (let t := (send State.reset 8 (cmd 0x0001 [])).respond 8 (.ok [9#8])
     (t.mgmtPort 0).tx.length = 1) := by decide +kernel

/-- A calibrated module with gears 0 to 15 free. -/
def sRun : State := { State.reset with gsc := 1000, pace := { Pace.init with calValid := true } }

def at_ (s : State) (op : Nat) (b : Bytes) : State := send s 0 (cmd op b)

/-- Witness of PaceCommands: the five ways of a GEAR_SET, and the other rows at their bounds. -/
theorem witness_paceCommands :
    (let s := at_ { sRun with pace := { sRun.pace with change := some ⟨3, false, 0⟩ } } 0x0401 [15#8, 0#8]
     carriesB s 0 0x0401 (cmd 0x0401 [15#8, 0#8]) ∧ ans (.gearSet 0) s 0 1) ∧
    ans (.gearSet 0) (at_ { sRun with power := { sRun.power with brake := true } } 0x0401 [15#8, 0xFF#8]) 0 0 (fun t _ => t.pace.change = none ∧
      t.power.requested = 15) ∧
    ans (.gearSet 0) (at_ sRun 0x0401 [15#8, 0#8]) 0 0 (fun t p => t.pace.gearAt = 21000 ∧ fld p 0 8 = 21000 ∧ fld p 8 1 = 15 ∧
      t.pace.change = some ⟨15, false, 1000⟩) ∧
    ans (.gearSet 0) (at_ { sRun with power := { sRun.power with policyCap := 4 } } 0x0401 [15#8, 1#8]) 0 0 (fun t p => fld p 8 1 = 4 ∧
      t.pace.clamped = true ∧ (t.region 79).retuning = true) ∧
    ans (.gearPolicy 0) (at_ sRun 0x0402 ([2#8, 15#8] ++ leBytes 2 2100)) 0 0 (fun t _ => t.power.powerCapW = 2100) ∧
    ans (.gearPolicy 0) (at_ sRun 0x0402 ([2#8, 15#8] ++ leBytes 2 299)) 0 2 ∧
    ans (.powerPolicy 0) (at_ sRun 0x0403 ([1#8, 0#8, 0#8, 0#8] ++ leBytes 4 77)) 0 0 (fun t _ => t.power.wakeBoundUs = 77) ∧
    ans (.stepHint 0) (at_ sRun 0x0404 (leBytes 8 1000)) 0 0 (fun t _ => t.power.stepDue = 0) ∧
    ans (.stepHint 0) (at_ sRun 0x0404 (leBytes 8 1001)) 0 0 (fun t _ => t.power.stepDue = 1001) ∧
    ans (.tsLimits 0) (at_ sRun 0x0405 (leBytes 2 5 ++ leBytes 2 6)) 0 0 (fun t _ => t.pace.farLimitUs = 5 ∧ t.pace.fabLimitMs = 6) ∧
    ans (.telemetrySnap 0) (at_ sRun 0x0406 []) 0 0 (fun t p => t.pace.snapGsc = 1000 ∧ p = leBytes 8 1000) := by decide +kernel

/-- A port 3 that is up. -/
def sPort : State := { sRun with ports := [(3, { LinkPort.init with state := .active, mode := 1 })], job := { sRun.job with state := .idle } }

def bk : Bank := { state := .loaded, dir := List.replicate 12 5, pod := [(7, 9)], oldSeen := 0 }

/-- Witness of FabricCommands: the module's and the ports' commands, at their bounds. -/
theorem witness_fabricCommands :
    ans (.ident 9) (send sRun 9 (cmd 0x0001 [])) 9 0 (fun _ p => p.length = 36) ∧
    ans (.mgmtCfg 0) (at_ sRun 0x0601 (leBytes 2 200 ++ leBytes 2 1024)) 0 0 (fun t _ => t.host.fenceMs = 200) ∧
    ans (.mgmtCfg 0) (at_ sRun 0x0601 (leBytes 2 2001 ++ leBytes 2 1024)) 0 2 ∧
    ans (.fabAddrSet 7) (send sRun 7 (cmd 0x0602 (leBytes 4 262143))) 7 5 ∧
    ans (.fabAddrSet 8) (send sRun 8 (cmd 0x0602 (leBytes 4 262143))) 8 0 (fun t _ => t.fab.addr = 262143 ∧ t.fab.addrValid = true) ∧
    ans (.syncCfg 0) (at_ sRun 0x0507 (leBytes 2 9)) 0 0 (fun t _ => t.fab.beaconUs = 9) ∧
    ans (.fence 0) (at_ sRun 0x0506 (leBytes 2 0xF0 ++ leBytes 2 0x8010)) 0 0 (fun t _ => t.fab.fence = 0x8010) := by decide +kernel

/-- Witness of FabricCommands: LINK_CFG's clauses. -/
theorem witness_linkCfg :
    ans (.linkCfg 0) (at_ sPort 0x0501 (leBytes 2 8 ++ leBytes 2 0xF2 ++ [3#8, 7#8, 0#8, 1#8] ++ leBytes 2 11 ++ leBytes 2 12 ++ leBytes 4 13 ++ leBytes 2 14))
      0 0 (fun t _ => (t.port 3).e2eClass = 7 ∧ (t.port 3).e2eNs = 13 ∧ (t.port 3).downMs = 14 ∧ (t.port 3).state = .active) ∧
    ans (.linkCfg 0) (at_ sPort 0x0501 (leBytes 2 8 ++ leBytes 2 1 ++ [0#8] ++ zeros 13)) 0 0 (fun t _ => (t.port 3).state = .off) ∧
    ans (.linkCfg 0) (at_ sPort 0x0501 (leBytes 2 8 ++ leBytes 2 1 ++ [3#8] ++ zeros 13)) 0 0 (fun t _ => (t.port 3).state = .training) ∧
    ans (.linkCfg 0) (at_ sPort 0x0501 (leBytes 2 8 ++ leBytes 2 8 ++ [0#8, 0#8, 0#8, 1#8] ++ zeros 10)) 0 0 (fun t _ =>
      (t.port 3).state = .retraining ∧ (t.port 3).lastCause = 3) ∧
    ans (.linkCfg 0) (at_ (running sPort) 0x0501 (leBytes 2 8 ++ leBytes 2 4 ++ [0#8, 0#8, 1#8, 0#8] ++ zeros 10)) 0 3 := by decide +kernel

/-- Witness of FabricCommands: the route banks and tables, at their bounds. -/
theorem witness_routeCommands :
    (let s := { sRun with fab := { sRun.fab with banks := [(1, bk)] } }
     ans (.routeLoad 0) (at_ { sRun with fab := { sRun.fab with banks := [(1, { bk with state := .active })] } }
       0x0502 ([1#8, 1#8] ++ leBytes 2 4095 ++ leBytes 2 1 ++ zeros 2 ++ List.replicate 12 3#8 ++ [31#8])) 0 3 ∧
     ans (.routeLoad 0) (at_ s 0x0502 ([1#8, 1#8] ++ leBytes 2 4095 ++ leBytes 2 1 ++ zeros 2 ++ List.replicate 12 3#8 ++ [15#8])) 0 0
       (fun t _ => (t.bank 1).pod.find 0x1F 4095 = 15 ∧ (t.bank 1).pod.find 0x1F 7 = 31 ∧ (t.bank 1).dir = List.replicate 12 3) ∧
     ans (.routeLoad 0) (at_ s 0x0502 ([1#8, 0#8] ++ leBytes 2 4095 ++ leBytes 2 1 ++ zeros 2 ++ List.replicate 12 0xFF#8 ++ [15#8])) 0 0
       (fun t _ => (t.bank 1).pod.find 0x1F 4095 = 15 ∧ (t.bank 1).pod.find 0x1F 7 = 9 ∧ (t.bank 1).dir = List.replicate 12 5) ∧
     ans (.routeLoad 0) (at_ s 0x0502 ([0#8, 0#8] ++ leBytes 2 0 ++ leBytes 2 0 ++ zeros 14)) 0 3 ∧
     ans (.routeSwitch 0) (at_ s 0x0503 (leBytes 8 101000)) 0 0 (fun t _ => t.fab.switchAt = 101000 ∧ t.fab.switchDue = true) ∧
     ans (.routeSwitch 0) (at_ s 0x0503 (leBytes 8 100999)) 0 3 ∧
     ans (.routeRead 0) (at_ s 0x0504 ([1#8, 0#8] ++ leBytes 2 7 ++ leBytes 2 2)) 0 0 (fun _ p => fld p 0 1 = 1 ∧ fld p 20 1 = 9 ∧ fld p 21 1 = 31) ∧
     ans (.rankRead 0) (at_ { running s with fab := { s.fab with ranks := [(2, 77)] } } 0x0505 (leBytes 4 2 ++ leBytes 4 1)) 0 0
       (fun _ p => fld p 0 4 = 2 ^ 31 + 77)) := by decide +kernel

/-! ### Jobs -/

/-- The smallest program image for 256 cores: one role of one bundle, no route, no queue, no landing, no stacked range (R219 to R224). -/
def imgBody : Bytes :=
  let head := [0x4E#8, 0x44#8, 0x49#8, 0x4D#8] ++ leBytes 2 1 ++ leBytes 2 128 ++ leBytes 8 736 ++ [1#8, 0#8, 2#8, 0#8] ++ leBytes 4 0 ++
    leBytes 4 32 ++ leBytes 2 1 ++ [1#8, 0#8] ++ leBytes 2 6 ++ zeros 2 ++ leBytes 4 128
  let sect := fun (t a o n : Nat) => leBytes 2 t ++ leBytes 2 a ++ leBytes 4 o ++ leBytes 4 n ++ leBytes 4 0
  let table := sect 1 0 256 48 ++ sect 2 256 320 256 ++ [5, 6, 7, 10].flatMap fun t => sect t 256 576 0
  padTo 128 head ++ padTo 128 table ++ padTo 64 (leBytes 2 0 ++ leBytes 2 1) ++ zeros 256

def img0 : Bytes := imgBody ++ sha384 imgBody ++ zeros 112

/-- A rank table of one rank: this module at address 5. -/
def rankTable : Bytes := leBytes 4 (2 ^ 31 + 5) ++ zeros 1048572

/-- What host memory holds: a scatter list of one entry, the image `b`, the rank table. -/
def loadView (b : Bytes) : HostView :=
  { segs := [(0x1000, leBytes 8 0x2000 ++ leBytes 4 b.length ++ leBytes 4 0), (0x2000, b), (0x100000, rankTable)], bad := [] }

/-- Image and rank table in one module. -/
def loadPay : Bytes := leBytes 8 0x1000 ++ leBytes 4 1 ++ leBytes 4 1 ++ leBytes 8 0x100000 ++ leBytes 4 0xFFFFFFFF ++ zeros 4

/-- A module in service, calibrated, with its fabric address, and no job. -/
def sIdle : State :=
  { sRun with fab := { sRun.fab with addr := 5, addrValid := true }, sec := { sRun.sec with fuses := { sRun.sec.fuses with lc := 1 } } }

def sLoad : State := at_ sIdle 0x0101 loadPay

theorem rankTable_entry (i : Nat) (hi : 0 < i) : fld rankTable (4 * i) 4 = 0 := by
  have zero : ∀ n m : Nat, leNat (List.take m (List.replicate n 0#8)) = 0 := by
    intro n m
    rw [List.take_replicate]
    induction min m n with
    | zero => rfl
    | succ k ih => simp [List.replicate_succ, leNat, ih]
  have hd : List.drop (4 * i) rankTable = List.replicate (1048572 - (4 * i - 4)) 0#8 := by
    have : (leBytes 4 (2 ^ 31 + 5)).length = 4 := rfl
    unfold rankTable zeros
    rw [List.drop_append, this, List.drop_eq_nil_of_le (by rw [this]; omega), List.drop_replicate]; rfl
  simp only [fld, sub, hd, zero]

theorem rankTable_first : fld rankTable (4 * 0) 4 = 2 ^ 31 + 5 := by
  have h : (leBytes 4 (2 ^ 31 + 5)).length = 4 := by decide +kernel
  have : sub rankTable (4 * 0) 4 = leBytes 4 (2 ^ 31 + 5) := by
    unfold sub rankTable
    rw [Nat.mul_zero, List.drop_zero]
    exact List.take_left' h
  rw [fld, this]; decide +kernel

theorem rankBad_first (b : Bytes) (x own : Nat) (h0 : fld b 0 4 = 2 ^ 31 + x) (h : ∀ i, 0 < i → fld b (4 * i) 4 = 0) (hx : x < 2 ^ 18) :
    rankBad b 1 own = if x = own then none else some 0xFFFFFFFF := by
  have ht : (2 ^ 31 + x) % 2 ^ 18 = x := by omega
  have ha : (List.range 1).any (fun i => fld b (4 * i) 4 % 2 ^ 18 = own) = decide (x = own) := by
    simp only [List.range_one, List.any_cons, List.any_nil, Nat.mul_zero, h0, ht, Bool.or_false]
  unfold rankBad
  generalize List.range 262144 = l
  have hf : l.find? (fun i =>
      if i < 1 then !bit (fld b (4 * i) 4) 31 || (List.range i).any fun j => fld b (4 * j) 4 % 2 ^ 18 = fld b (4 * i) 4 % 2 ^ 18
      else bit (fld b (4 * i) 4) 31) = none := by
    rw [List.find?_eq_none]
    intro i _
    rcases Nat.eq_zero_or_pos i with rfl | hi
    · simp [h0, bit]; omega
    · simp [h i hi, bit]; omega
  simp only [hf, ha]
  by_cases hx : x = own <;> simp [hx]

theorem read_table (e b rt : Bytes) (he : e.length = 16) (hb : b.length < 0x1000) (hr : rt.length = 0x100000) :
    HostView.read { segs := [(0x1000, e), (0x2000, b), (0x100000, rt)], bad := [] } 0x100000 0x100000 = some rt := by
  have hs : List.take 0x100000 rt = rt := List.take_of_length_le (by omega)
  have h2 : (decide (0x2000 ≤ 0x100000) && decide (0x100000 + 0x100000 ≤ 0x2000 + b.length)) = false := by
    simp only [Bool.and_eq_false_iff, decide_eq_false_iff_not]; right; omega
  have h1 : (decide (0x1000 ≤ 0x100000) && decide (0x100000 + 0x100000 ≤ 0x1000 + e.length)) = false := by
    simp only [Bool.and_eq_false_iff, decide_eq_false_iff_not]; right; omega
  have h3 : (decide (0x100000 ≤ 0x100000) && decide (0x100000 + 0x100000 ≤ 0x100000 + rt.length)) = true := by
    rw [hr]; decide
  simp only [HostView.read, List.any_nil, Bool.false_eq_true, if_false, List.find?_cons, h1, h2, h3, sub, Nat.sub_self, List.drop_zero, hs]

theorem rankTable_length : rankTable.length = 0x100000 := by
  rw [rankTable, List.length_append, zeros, List.length_replicate]; decide +kernel

theorem rankTable_bad : rankBad rankTable 1 5 = none ∧ rankBad rankTable 1 6 = some 0xFFFFFFFF :=
  ⟨(rankBad_first rankTable 5 5 rankTable_first rankTable_entry (by decide)).trans (if_pos rfl),
   (rankBad_first rankTable 5 6 rankTable_first rankTable_entry (by decide)).trans (if_neg (by decide))⟩
/-- The loader's setting for that table. -/
def env0 : LoadEnv := { grade := 256, gridW := 16, modules := 1, rank := 0, given := [] }

/-- Witness of JobImages, JOB_LOAD: an image that passes every check, one that fails the first, a rank table that fails, a failed read. -/
theorem witness_jobLoad :
    (sLoad.carries 0 0x0101 (cmd 0x0101 loadPay) ∧ (jobLoad (loadView img0)).fields loadPay = true ∧ sLoad.job.state = .idle ∧
      sLoad.pace.calValid = true ∧ sLoad.far.degraded = false ∧ sLoad.fab.addrValid = true ∧ sLoad.loadAllowed = true) ∧
    ((loadView img0).read 0x100000 0x100000 = some rankTable ∧ rankBad rankTable 1 5 = none ∧ rankBad rankTable 1 6 = some 0xFFFFFFFF) ∧
    ((loadView img0).scatter 0x1000 1).bind (loadView img0).gather = some img0 ∧ (sLoad.grade = 256 ∧ sLoad.gridW = 16) ∧
    (∃ r, (sLoad.accepted 0 (cmd 0x0101 loadPay)).checkImage img0 env0 = .inl r) ∧
    (∃ f, (sLoad.accepted 0 (cmd 0x0101 loadPay)).checkImage [0#8] env0 = .inr f) ∧
    ({ loadView img0 with bad := [(0x100000, 1)] } : HostView).read 0x100000 0x100000 = none :=
  ⟨⟨carries_of (by decide +kernel), by decide +kernel⟩,
    ⟨read_table _ _ _ (by decide +kernel) (by decide +kernel) rankTable_length, rankTable_bad⟩, by decide +kernel, by decide +kernel,
    Sum.isLeft_iff.mp (by decide +kernel), Sum.isRight_iff.mp (by decide +kernel), by decide +kernel⟩

/-- A serving job of one module: region 2 the keys, region 3 the engine's, region 4 the adapters'. -/
def im1 : Image :=
  { im0 with
    digest := zeros 48
    decls := [⟨2, 0, 0⟩, ⟨3, 3, 0⟩, ⟨4, 1, 0⟩]
    steps := [{ kind := 2, rowsMax := 16, posMax := 64, adaptersMax := 2, classMax := 4, stepTicks := 100, descSize := 4096 }] }

def regs1 : Map FarRegion :=
  [2, 3, 4].map fun r => (r, { FarRegion.init with ctrlCount := 36, valid := true, localBase := r * 4096, size := 1024 })

def cfg1 : ServeCfg := { serve := 3, kv := 2, adapters := some 4, kvPerPos := 64, vocab := 100, windowNs := 1000000 }

/-- A module in service with the job in state `j`, its serving configuration taken, its records kept. -/
def sJob (j : JobState) : State :=
  { sIdle with
    image := some im1, job := { sIdle.job with state := j }, far := { sIdle.far with regions := regs1, rate := 0 }
    srv := { sIdle.srv with cfg := some cfg1 }, recs := { sIdle.recs with enable := true }
    host := { sIdle.host with hbEver := true, fenceStart := 1000 } }

def servePay (serve kv ad : Nat) : Bytes :=
  leBytes 1 serve ++ leBytes 1 kv ++ leBytes 1 ad ++ zeros 1 ++ leBytes 4 64 ++ leBytes 4 524288 ++ leBytes 4 100000

/-- Witness of JobCommands: JOB_SERVE's three answers, JOB_ARM, JOB_PAUSE, JOB_UNLOAD, JOB_STOP. -/
theorem witness_jobCommands :
    ((sJob .loaded).serveOk 3 2 (some 4) = true ∧ (sJob .loaded).serveOk 3 4 (some 4) = false ∧ (sJob .loaded).stepCount ≠ 0) ∧
    ans (.jobServe 0) (at_ (sJob .loaded) 0x0102 (servePay 3 2 4)) 0 0 (fun t _ => t.srv.cfg = some { cfg1 with vocab := 524288, windowNs := 100000 }) ∧
    ans (.jobServe 0) (at_ (sJob .loaded) 0x0102 (servePay 3 4 4)) 0 2 ∧
    ans (.jobServe 0) (at_ { sJob .loaded with image := some { im1 with stepCount := 0 } } 0x0102 (servePay 3 2 0xFF)) 0 3 ∧
    ((∀ k ∈ im1.models, ((sJob .loaded).rmSlot k).state = .resident) ∧ (sJob .loaded).fabricReady = true ∧ (sJob .loaded).heartbeatFresh = true) ∧
    ans (.jobArm 0) (at_ (sJob .loaded) 0x0103 []) 0 0 (fun t p => t.job.state = .armed ∧ p.length = 48) ∧
    ans (.jobPause 0) (at_ (sJob .running) 0x0105 (leBytes 8 9)) 0 0 (fun t _ => t.srv.pauseAt = some 9 ∧ t.job.pausePending = true) ∧
    ans (.jobUnload 0) (at_ (sJob .faulted) 0x0109 []) 0 0 (fun t _ => t.job.state = .idle ∧ t.image = none) ∧
    ans (.jobStop 0) (at_ (sJob .armed) 0x010A []) 0 0 (fun t _ => t.job.fault = 0x0C01#16 ∧ t.stop.isSome = true) := by decide +kernel

/-- Witness of JobCommands: launches and resumes at their bounds, of one module, of a lead and of another rank. -/
theorem witness_launch :
    ans (.jobLaunch 0) (at_ (sJob .armed) 0x0104 (leBytes 8 100000)) 0 0 (fun t p => t.fab.startAt = some 101000 ∧ p = leBytes 8 101000) ∧
    ans (.jobLaunch 0) (at_ (sJob .armed) 0x0104 (leBytes 8 99999)) 0 2 ∧
    ans (.jobResume 0) (at_ (sJob .paused) 0x0108 (leBytes 8 0)) 0 0 (fun t _ => t.fab.startAt = some 1001000) ∧
    (let s := { sJob .armed with image := some { im1 with moduleCount := 2 }, fab := { sIdle.fab with moduleCount := 2 } }
     s.multi = true ∧ s.fab.lead = false ∧ ans (.jobLaunch 0) (at_ s 0x0104 (leBytes 8 0)) 0 3) ∧
    (let s := { sJob .armed with image := some { im1 with moduleCount := 2 }, fab := { sIdle.fab with moduleCount := 2, lead := true } }
     after (.jobLaunch 0) (at_ s 0x0104 (leBytes 8 1000000000)) fun t => t.fab.sent.length = 1 ∧ (t.cmdOf 0).any fun d => d.executing) := by
  decide +kernel

/-- Every core has halted, with its last work in tick 7. -/
def halted (s : State) : State :=
  { s with cores := (List.range 256).map fun c => (c, { Core.init with halted := true, busyTo := 7, pc := 4, codeLen := 9 }) }

def idleServe : Serve := { Serve.init with paused := true }

/-- Witness of JobTimes: a launch, a resume, a pause with and without a staged block, an end, the two stops. -/
theorem witness_jobTimes :
    (let s := { sJob .armed with srv := .init, fab := { sIdle.fab with startAt := some 5000 } }
     s.image = some im1 ∧ s.power.mode = .run ∧ s.fab.startAt = some 5000 ∧ s.stop = none ∧ s.launchPending = false ∧ s.srv.cfg = none) ∧
    (let s := { sJob .paused with srv := .init, fab := { sIdle.fab with startAt := some 5000 } }
     s.job.ended = false ∧ s.launchPending = false) ∧
    (let s := halted { sJob .running with srv := idleServe }
     s.quiet = true ∧ s.queuesDone = true ∧ s.lastBusy = 7 ∧ after .saveTick s fun t => t.job.state = .paused ∧ t.recs.savedTick = 7) ∧
    (let s := halted { sJob .running with srv := .init }
     s.quiet = true ∧ after .jobEnd s fun t => t.job.state = .paused ∧ t.job.ended = true ∧ (t.region 79).tickCount = 7) ∧
    after .jobFatalStop { sJob .running with stop := some ⟨none, true, false⟩ } (fun t => t.job.state = .faulted ∧ t.fab.fence = 0xFFFF) ∧
    after .jobFatalStop { sJob .running with stop := some ⟨none, false, true⟩ } (fun t => t.job.state = .fenced ∧ t.fab.fenceSelf = true) := by
  decide +kernel

def cusPay (c e burst : Nat) : Bytes := leBytes 2 c ++ leBytes 1 e ++ zeros 1 ++ leBytes 4 10 ++ leBytes 4 burst ++ leBytes 4 0 ++ leBytes 4 5

def ver1 : Version :=
  { num := 1, state := .loading, rank := 8, base := 0, size := 64, digest := zeros 48, resDigest := [], loaded := false }

def sAd (j : JobState) : State :=
  { sJob j with
    srv := { (sJob j).srv with adapters := [(9, { last := 1, installed := true, retired := false, versions := [ver1] })] }
    cas := { (sJob j).cas with loads := [{ (sJob j).newLoad (zeros 48) 1 with adapter := some (9, 1) }] } }

/-- Witness of CustomersAndAdapters: the customers, the retirements, the ends of a load, at their bounds. -/
theorem witness_customers :
    ans (.customerSet 0) (at_ (sJob .loaded) 0x0201 (cusPay 4095 1 77)) 0 0 (fun t _ => (t.srv.customers.find .init 4095).balance = 77) ∧
    ans (.customerSet 0) (at_ (sJob .running) 0x0201 (cusPay 4095 1 77)) 0 0 (fun t _ => t.srv.changes.length = 1 ∧ t.srv.customers = []) ∧
    ans (.customerSet 0) (at_ (sJob .loaded) 0x0201 (cusPay 4096 1 77)) 0 2 ∧
    ans (.customerRead 0) (at_ (sJob .running) 0x0202 (leBytes 2 4095)) 0 0 (fun _ p => p.length = 64) ∧
    ans (.adapterRetire 0) (at_ (sAd .loaded) 0x0204 (leBytes 2 9)) 0 0 (fun t _ => (t.adapter 9).retired = true) ∧
    ans (.adapterRetire 0) (at_ (sAd .running) 0x0204 (leBytes 2 16383)) 0 0 (fun t _ => t.srv.changes = [.retire 16383]) ∧
    ((sAd .loaded).adapterLoad 9 1).isSome = true ∧ (sAd .loaded).serveCfg.adapters = some 4 ∧
    after (.adapterLoadDone 9 1 false) (sAd .loaded) (fun t => t.cas.faultCode = 0x0807#16 ∧ (t.adapter 9).versions = []) ∧
    after (.adapterLoadDone 9 1 true) (sAd .loaded) (fun t => (t.adapter 9).versions.map Version.state = [.current]) := by decide +kernel

/-! ### Cassettes -/

/-- A cassette of one int8 tensor of 1 × 4, stored raw in one block, unsigned (R243 to R248). -/
def casBlk : Bytes := [1#8, 2#8, 3#8, 4#8]
def manHead : Bytes :=
  padTo 256 ([0x4E#8, 0x44#8, 0x43#8, 0x53#8] ++ leBytes 2 1 ++ leBytes 2 256 ++ leBytes 8 544 ++ leBytes 8 4 ++ leBytes 4 1 ++ leBytes 4 1 ++
    leBytes 4 0 ++ leBytes 4 256 ++ leBytes 4 320 ++ leBytes 4 320 ++ leBytes 4 384) ++
  padTo 64 (zeros 4 ++ [5#8, 5#8, 0#8, 0#8] ++ zeros 8 ++ leBytes 4 1 ++ leBytes 4 4 ++ leBytes 8 0 ++ leBytes 8 4)
def casRoot : Bytes := merkleRoot [sha384 manHead, sha384 casBlk]
def manBytes : Bytes := manHead ++ sha384 casBlk ++ zeros 16 ++ casRoot ++ zeros 112

def man0 : Manifest :=
  { bytes := manBytes, bodyLen := 4, blocks := 1, tensors := [⟨5, 5, 0, 0, 0, false, 1, 4, 0, 4⟩], tables := [], digests := [sha384 casBlk]
    resSize := 65536 }

theorem test_manifest : checkManifest manBytes casRoot false [] = .inl man0 := by decide +kernel

/-- Host memory with a scatter list of one entry that names manifest and body. -/
def casView (b : Bytes) : HostView :=
  { segs := [(0x1000, leBytes 8 0x2000 ++ leBytes 4 (544 + b.length) ++ leBytes 4 0), (0x2000, manBytes ++ b)], bad := [] }
def casPay (d : Bytes) : Bytes := d ++ leBytes 8 0x1000 ++ leBytes 4 1 ++ leBytes 4 3600
def sCas : State := at_ sIdle 0x0301 (casPay casRoot)
def aCas : State := sCas.accepted 0 (cmd 0x0301 (casPay casRoot))

/-- Witness of CassetteCommands, CAS_LOAD: a model that is resident, one that loads, a manifest that fails, a block that fails twice. -/
theorem witness_casLoad :
    (sCas.carries 0 0x0301 (cmd 0x0301 (casPay casRoot)) ∧ (casLoad (casView casBlk) noView).fields (casPay casRoot) = true ∧
      sCas.casKnown casRoot = none ∧ sCas.freeSlot = some 0) ∧
    ((casView casBlk).scatter 0x1000 1 = some [(0x2000, 548)] ∧ aCas.readManifest (casView casBlk) [(0x2000, 548)] casRoot id = .ok man0 ∧
      aCas.readManifest (casView casBlk) [(0x2000, 548)] (zeros 48) id = .bad ⟨0x0802, casNone⟩) ∧
    (readBlocks man0 (casView casBlk) noView [(0x2000, 548)] 1 0 544 [] = .inl [(0, casBlk)] ∧
      readBlocks man0 (casView (zeros 4)) noView [(0x2000, 548)] 1 0 544 [] = .inr (some 0)) ∧
    (∃ y, residentCopy man0 casBlk sCas.coreCount = .inl y) ∧
    lowestFit (aCas.setRmSlot 0 { RmSlot.init with state := .loading, digest := casRoot }).usedBlocks 0 sCas.chanBlocks
      (copyRegion 0 man0.resSize).blocks = some 0 :=
  ⟨⟨carries_of (by decide +kernel), by decide +kernel⟩, by decide +kernel, by decide +kernel, Sum.isLeft_iff.mp (by decide +kernel),
    by decide +kernel⟩

def slot1 : RmSlot := { RmSlot.init with state := .resident, digest := casRoot, resDigest := zeros 48, placed := true, size := 65536 }

/-- R258, R269, R270: the answers of CAS_LOAD and CAS_UNLOAD on a resident model, on a pinned one, and to a wrong digest. -/
theorem test_cas :
    (let s := { sIdle with cas := { sIdle.cas with slots := [(7, slot1)] } }
     ans (.casLoad 0 (casView casBlk) noView) (at_ s 0x0301 (casPay casRoot)) 0 0 (fun _ p => fld p 0 1 = 7) ∧
     ans (.casUnload 0) (at_ s 0x0307 [7#8]) 0 0 (fun t _ => (t.rmSlot 7).state = .empty) ∧
     ans (.casUnload 0) (at_ { s with cas := { s.cas with slots := [(7, { slot1 with pins := 1 })] } } 0x0307 [7#8]) 0 3 ∧
     after (.casUnload 0) (at_ { sJob .running with cas := s.cas } 0x0307 [7#8]) (fun t => t.cas.unloads = [(7, 0)])) ∧
    ans (.casLoad 0 (casView casBlk) noView) (at_ sIdle 0x0301 (casPay (zeros 48))) 0 9 (fun t _ => t.cas.faultCode = 0x0802#16) := by
  decide +kernel

def kid0 : CasChild := { port := 3, start := 0, acked := 0, next := 2, since := 50, manifest := true }
def rng0 : CasRange :=
  { first := 0, last := 1, parent := some 5, children := [kid0], ackNext := 1, retain := some (0, 90000), lastRx := 60, lastAck := 70
    parentLost := false, stopped := false }
def man2 : Manifest := { man0 with bodyLen := 1048580, blocks := 2, digests := [zeros 48, sha384 casBlk] }

/-- A load under way by broadcast: of two blocks none is verified, block 1 has failed `bad` times. -/
def ldB (ph : LoadPhase) (m : Option Manifest) (bad : Nat) : CasLoad :=
  { sIdle.newLoad casRoot 1 with slot := 7, phase := ph, manifest := m, ranges := [rng0], bad := [(1, bad)] }
def sB (l : CasLoad) : State :=
  { sIdle with
    cas := { sIdle.cas with loads := [l], slots := [(7, { RmSlot.init with state := .loading, digest := casRoot, size := 64 })] }
    ports := [(3, { LinkPort.init with state := .active }), (5, { LinkPort.init with state := .active })] }

def bcastPay (d : Bytes) (parent : Nat) : Bytes :=
  d ++ leBytes 2 1 ++ zeros 2 ++ leBytes 4 0 ++ (leBytes 4 0 ++ leBytes 4 0 ++ leBytes 1 parent ++ zeros 1 ++ leBytes 2 8 ++ leBytes 4 1 ++ leBytes 8 0x1000)

/-- Witness of CassetteCommands, the broadcasts: a root, a root whose manifest fails, a range with a parent; the three rows on a range. -/
theorem witness_casBcast :
    ((casBcast (casView casBlk) noView).fields (bcastPay casRoot 16) = true ∧ (casBcast noView noView).fields (bcastPay casRoot 5) = true) ∧
    (let b := bcastPay casRoot 16
     let l : CasLoad := { aCas.newLoad casRoot 0 with ranges := [bcastRange b 56 1000] }
     (aCas.readRoots (casView casBlk) noView b [0] l).failed = none ∧ (aCas.readRoots (casView casBlk) noView b [0] l).host = [(0, casBlk)] ∧
     (aCas.readRoots (casView casBlk) noView b [0] { l with digest := zeros 48 }).failed = some (9, 0x0802, casNone)) ∧
    after (.casBcast 0 noView noView) (at_ sIdle 0x0302 (bcastPay casRoot 5)) (fun t => (t.rmSlot 0).state = .loading ∧
      (t.cmdOf 0).any fun d => d.executing) ∧
    (let l := { ldB .receiving (some man2) 0 with blocks := [(0, casBlk)] }
     let s := sB l
     (s.rangeAt casRoot 0).isSome = true ∧ s.rangeAt casRoot 1 = none ∧ l.holds rng0 0 = true ∧ l.holds rng0 1 = false ∧
     l.host = [] ∧ l.body man2 = none ∧
     ans (.casChild 0) (at_ s 0x0303 (casRoot ++ leBytes 4 0 ++ [15#8, 0#8, 0#8, 0#8] ++ leBytes 4 0)) 0 0 ∧
     ans (.casChild 0) (at_ s 0x0303 (casRoot ++ leBytes 4 0 ++ [15#8, 0#8, 0#8, 0#8] ++ leBytes 4 1)) 0 2 ∧
     ans (.casParent 0) (at_ s 0x0304 (casRoot ++ leBytes 4 0 ++ [15#8])) 0 0 ∧
     ans (.casRelease 0) (at_ s 0x0305 (casRoot ++ leBytes 4 0)) 0 0 ∧ ans (.casRelease 0) (at_ s 0x0305 (casRoot ++ leBytes 4 1)) 0 2 ∧
     ans (.casAbort 0) (at_ s 0x0306 casRoot) 0 0 (fun t _ => t.cas.faultCode = 0x080A#16 ∧ (t.rmSlot 7).state = .empty) ∧
     ans (.casAbort 0) (at_ s 0x0306 (zeros 48)) 0 2) := by decide +kernel

/-- Witness of CassetteEvents, each clause; the third failure of a block. -/
theorem witness_cassetteEvents :
    after (.cassetteManifest 5 casRoot 0 manBytes) (sB (ldB .needSlot none 0)) (fun t => (t.loadOf casRoot).any fun y => y.manifest = some man0) ∧
    after (.cassetteManifest 5 casRoot 0 (zeros 256)) (sB (ldB .needSlot none 0)) (fun t => t.cas.faultCode = 0x0801#16) ∧
    after (.cassetteManifest 5 casRoot 0 manBytes) (sB (ldB .receiving none 0)) (fun t => (t.rmSlot 7).placed ∧ (t.rmSlot 7).base = 0) ∧
    (rng0.takes 1 = true ∧ man2.blockLen 1 = 4) ∧
    (kid0.acked < kid0.next ∧ (sB (ldB .receiving (some man2) 0)).linkDown 3 = false) ∧
    (let s := sB { ldB .receiving (some man2) 0 with ranges := [{ rng0 with children := [{ kid0 with acked := 2 }], ackNext := 0 }] }
     after (.childBcastTimeout casRoot 0 3) s (fun t => t == s) ∧
     after (.cassetteAckRepeat casRoot 0) s (fun t => t.gsc = 10000070 ∧ t.cas.sent = [])) ∧
    after (.cassetteBlock 5 casRoot 1 casBlk) (sB (ldB .receiving (some man2) 2)) (fun t => (t.loadOf casRoot).any fun y => y.blocks = [(1, casBlk)]) ∧
    after (.cassetteBlock 5 casRoot 1 (zeros 4)) (sB (ldB .receiving (some man2) 1)) (fun t => t.cas.sent = [(5, .again casRoot 1)]) ∧
    after (.cassetteBlock 5 casRoot 1 (zeros 4)) (sB (ldB .receiving (some man2) 2)) (fun t => t.cas.faultCode = 0x0804#16 ∧ t.cas.loads = []) ∧
    after (.cassetteAck 3 casRoot 0 2) (sB (ldB .receiving (some man2) 0)) (fun t =>
      (t.rangeAt casRoot 0).any fun y => y.2.children.map CasChild.acked = [2]) ∧
    after (.cassetteAckRepeat casRoot 0) (sB (ldB .receiving (some man2) 0)) (fun t => t.gsc = 10000070 ∧ t.cas.sent = [(5, .ack casRoot 0 1)]) ∧
    after (.parentBcastTimeout casRoot 0) (sB (ldB .receiving (some man2) 0)) (fun t => t.gsc = 100000060 ∧ t.cas.faultCode = 0x0809#16) ∧
    after (.childBcastTimeout casRoot 0 3) (sB (ldB .receiving (some man2) 0)) (fun t => t.gsc = 100000050 ∧ t.cas.faultCode = 0x0808#16) ∧
    after (.retainExpiry casRoot 0) (sB (ldB .receiving (some man2) 0)) (fun t => t.gsc = 90000) ∧
    after (.residentReadback 7 false) (sB (ldB .written (some man2) 0)) (fun t => t.cas.faultCode = 0x0807#16 ∧ (t.rmSlot 7).state = .empty) ∧
    after (.residentReadback 7 true) (sB (ldB .written (some man2) 0)) (fun t => (t.rmSlot 7).state = .resident) := by decide +kernel

def adPay : Bytes := leBytes 2 9 ++ leBytes 2 256 ++ leBytes 4 1 ++ leBytes 8 0x1000 ++ casRoot ++ leBytes 4 3600

/-- Witness of CustomersAndAdapters, ADAPTER_INSTALL, with the same cassette. -/
theorem witness_adapterInstall :
    (let s := at_ (sJob .loaded) 0x0203 adPay
     (adapterInstall (casView casBlk) noView).fields adPay = true ∧ s.serveCfg.adapters = some 4 ∧ (s.adapter 9).versions.length < 4 ∧
     (s.accepted 0 (cmd 0x0203 adPay)).readManifest (casView casBlk) [(0x2000, 548)] casRoot id = .ok man0 ∧
     lowestFit s.adapterUsed 0 (s.regionBytes 4) man0.resSize = some 0) := by decide +kernel

/-- The serving job with model region 1 in slot 7, running, with the manifest it took at ARMED. -/
def sAudit0 : State :=
  let s := sJob .running
  let s := { s with image := some { im1 with decls := [⟨2, 0, 0⟩, ⟨3, 3, 0⟩, ⟨4, 1, 0⟩, ⟨1, 2, 7⟩] }, cas := { s.cas with slots := [(7, slot1)] } }
  { s with recs := { s.recs with manifest := s.manifest } }

/-- A record of one prompt token and one output token, made with that manifest, that image and that model (R316). -/
def audRec : Bytes :=
  padTo 128 (padTo 92 (padTo 76 (padTo 64 (padTo 52 (padTo 40 ([0x4E#8, 0x44#8, 0x44#8, 0x52#8] ++ leBytes 2 1 ++ leBytes 2 0 ++ leBytes 2 0 ++
    leBytes 2 3) ++ leBytes 4 1 ++ leBytes 4 1 ++ leBytes 4 1) ++ leBytes 4 0 ++ leBytes 4 0x3F800000 ++ leBytes 2 1) ++ leBytes 4 0x3F800000) )) ++
  zeros 48 ++ sha384 sAudit0.recs.manifest ++ padTo 192 (casRoot ++ zeros 48) ++ sha384 (leBytes 4 9) ++ zeros 48

def audPay (ad : Nat) : Bytes := audRec ++ leBytes 8 0x3000 ++ leBytes 8 0x4000 ++ leBytes 8 77 ++ leBytes 2 ad ++ leBytes 1 63 ++ zeros 5 ++ sAudit0.recs.manifest
def audView : HostView := { segs := [(0x3000, leBytes 4 9)], bad := [] }

/-- Witness of CustomersAndAdapters, AUDIT_REPLAY: a replay that enters, a record that is malformed, a manifest with another digest. -/
theorem witness_audit :
    (auditReplay audView).fields (audPay 0xFFFF) = true ∧ audRec.length = 512 ∧ auditForm audRec sAudit0.recs.manifest = true ∧
    sha384 sAudit0.recs.manifest = sub audRec 176 48 ∧ sAudit0.auditModel audRec sAudit0.recs.manifest = some 1 ∧
    sAudit0.auditAdapter audRec 0xFFFF = true ∧ audView.read 0x3000 4 = some (leBytes 4 9) ∧ sha384 (leBytes 4 9) = sub audRec 416 48 ∧
    (let p := auditPar audRec 1 0xFFFF 77 63 0x3000
     p.ok 100 = true ∧ p.promptLen + p.maxNew ≤ sAudit0.maxPos + 1 ∧ (sAudit0.tokFit (p.extent 100)).isSome = true) ∧
    after (.auditReplay 0 audView) (at_ sAudit0 0x010B (audPay 0xFFFF)) (fun t => (t.req 0).any fun q => q.audit.isSome ∧ q.par.tag = 77) ∧
    auditForm (zeros 512) sAudit0.recs.manifest = false ∧
    sha384 (sAudit0.manifest ++ [0#8]) ≠ sub audRec 176 48 := by decide +kernel

/-! ### Save images -/

/-- A paused job whose image is gone: its save image has no section. -/
def sBare : State := { sJob .paused with image := none, srv := .init }
def pSave : Bytes := leBytes 8 0x1000 ++ leBytes 4 1
def vSave (n : Nat) : HostView := { segs := [(0x1000, leBytes 8 0x2000 ++ leBytes 4 n ++ zeros 4)], bad := [] }
def tSave : State := (at_ sBare 0x0106 pSave).accepted 0 (cmd 0x0106 pSave)

theorem saveImage_len : tSave.putRecords.saveImage.1.length = 288 := by
  have hb : up64 tSave.putRecords.saveBody.length = 128 := by decide +kernel
  simp only [State.saveImage, State.sign, List.length_append, hb, padTo_length, sha384_length, zeros_length, (ecdsaSign_length _ _ _).1,
    (ecdsaSign_length _ _ _).2]

/-- Witness of JobImages, JOB_SAVE: room that is one byte short and room that suffices. -/
theorem witness_jobSave :
    ((at_ sBare 0x0106 pSave).carries 0 0x0106 (cmd 0x0106 pSave) ∧ pSave.length = 12 ∧ sgFields (vSave 287) pSave = true ∧
      sgFields (vSave 288) pSave = true ∧ sBare.job.state = .paused) ∧
    ((vSave 287).scatter 0x1000 1 = some [(0x2000, 287)] ∧ (vSave 288).scatter 0x1000 1 = some [(0x2000, 288)] ∧
      scatterLen [(0x2000, 287)] < tSave.putRecords.saveImage.1.length ∧ tSave.putRecords.saveImage.1.length ≤ scatterLen [(0x2000, 288)]) := by
  rw [saveImage_len]
  exact ⟨⟨carries_of (by decide +kernel), by decide +kernel⟩, by decide +kernel⟩

/-! A save image for a job of no region: the sections of the 256 cores, of the engine and of the models lie over one another. -/

def imR : Image := { im1 with decls := [], stack := [] }
def sR : State := { sJob .loaded with image := some imR }
def manR : Bytes := sR.manifest
def engLen : Nat := 64 + 4096 * 64 + 16384 * 576
def coreLen : Nat := 26176 + eltSize sR.exact * 16384 + 2097152
/-- Type, argument, offset and length of section `i`. -/
def sectR (i : Nat) : Nat × Nat × Nat × Nat :=
  if i < 256 then (1, i, 0, coreLen) else if i = 256 then (4, 0, 0, engLen) else if i = 257 then (5, 0, 0, 0) else (6, 0, 6344, 128)
def entR (i : Nat) : Bytes := leBytes 2 (sectR i).1 ++ leBytes 2 (sectR i).2.1 ++ zeros 4 ++ leBytes 8 (sectR i).2.2.1 ++ leBytes 8 (sectR i).2.2.2
def bodyLen : Nat := 6472 + engLen
def headR : Bytes :=
  [0x4E#8, 0x44#8, 0x53#8, 0x56#8] ++ leBytes 2 1 ++ leBytes 2 259 ++ leBytes 8 (bodyLen + 160) ++ leBytes 8 77 ++ leBytes 8 3 ++
    imR.digest ++ sha384 manR
def tableR : Bytes := (List.range 259).flatMap entR
def bodyR : Bytes := headR ++ (tableR ++ (manR ++ zeros engLen))
def saveR : Bytes := bodyR ++ (sha384 bodyR ++ zeros 112)

theorem sub_entry {f : Nat → Bytes} {r : Bytes} {k : Nat} (hf : ∀ i, (f i).length = k) :
    ∀ (l : List Nat) (i o n : Nat) (h : i < l.length), o + n ≤ k → sub (l.flatMap f ++ r) (k * i + o) n = sub (f l[i]) o n
  | x :: l, 0, o, n, _, hn => by
    simp only [List.flatMap_cons, List.append_assoc, Nat.mul_zero, Nat.zero_add, List.getElem_cons_zero]
    exact sub_append_left (by rw [hf]; exact hn)
  | x :: l, i + 1, o, n, h, hn => by
    simp only [List.flatMap_cons, List.append_assoc, List.getElem_cons_succ]
    rw [sub_append_right (o := k * i + o) (by rw [hf, Nat.mul_succ]; omega)]
    exact sub_entry hf l i o n (by simpa using h) hn

theorem entR_len (i : Nat) : (entR i).length = 24 := by simp [entR]
theorem headR_len : headR.length = 128 := by decide +kernel
theorem manR_len : manR.length = 128 := by decide +kernel
theorem tableR_len : tableR.length = 6216 := by
  have h : ∀ l : List Nat, (l.flatMap entR).length = 24 * l.length := by
    intro l
    induction l with
    | nil => rfl
    | cons x l ih => rw [List.flatMap_cons, List.length_append, ih, entR_len, List.length_cons]; omega
  rw [tableR, h, List.length_range]

theorem bodyR_len : bodyR.length = bodyLen := by
  rw [bodyR, List.length_append, List.length_append, List.length_append, headR_len, tableR_len, manR_len, zeros_length, bodyLen]; omega

theorem saveR_len : saveR.length = bodyLen + 160 := by
  rw [saveR, List.length_append, List.length_append, bodyR_len, sha384_length, zeros_length]

theorem sub_head {o n : Nat} (h : o + n ≤ 128) : sub saveR o n = sub headR o n := by
  rw [saveR, sub_append_left (by rw [bodyR_len, bodyLen]; omega), bodyR, sub_append_left (by rw [headR_len]; exact h)]

theorem sub_table {i o n : Nat} (hi : i < 259) (h : o + n ≤ 24) : sub saveR (128 + 24 * i + o) n = sub (entR i) o n := by
  rw [saveR, sub_append_left (by rw [bodyR_len, bodyLen]; omega), bodyR, sub_append_right (o := 24 * i + o) (by rw [headR_len]; omega), tableR,
    sub_entry entR_len _ _ _ _ (by rw [List.length_range]; exact hi) h, List.getElem_range]

/-- The fields of every table entry. -/
theorem entR_fields : ∀ i ∈ List.range 259, fld (entR i) 0 2 = (sectR i).1 ∧ fld (entR i) 2 2 = (sectR i).2.1 ∧ fld (entR i) 8 8 = (sectR i).2.2.1 ∧
    fld (entR i) 16 8 = (sectR i).2.2.2 ∧ (sectR i).2.2.1 + (sectR i).2.2.2 ≤ bodyLen := by decide +kernel

theorem fld_table {i : Nat} (hi : i < 259) : fld saveR (128 + 24 * i) 2 = (sectR i).1 ∧ fld saveR (130 + 24 * i) 2 = (sectR i).2.1 ∧
    fld saveR (136 + 24 * i) 8 = (sectR i).2.2.1 ∧ fld saveR (144 + 24 * i) 8 = (sectR i).2.2.2 ∧ (sectR i).2.2.1 + (sectR i).2.2.2 ≤ bodyLen := by
  have h := entR_fields i (List.mem_range.mpr hi)
  have e : ∀ o n, o + n ≤ 24 → fld saveR (128 + 24 * i + o) n = fld (entR i) o n := fun o n ho => by rw [fld, sub_table hi ho, fld]
  rw [show 128 + 24 * i = 128 + 24 * i + 0 by omega, show 130 + 24 * i = 128 + 24 * i + 2 by omega,
    show 136 + 24 * i = 128 + 24 * i + 8 by omega, show 144 + 24 * i = 128 + 24 * i + 16 by omega,
    e _ _ (by omega), e _ _ (by omega), e _ _ (by omega), e _ _ (by omega)]
  exact h

theorem count_head : fld saveR 6 2 = 259 := by rw [fld, sub_head (by omega)]; decide +kernel

/-- Section `i` is what its type and argument find. -/
theorem sect_find {t a i : Nat} (hi : i < 259) (h : (List.range 259).find? (fun j => (sectR j).1 == t && (sectR j).2.1 == a) = some i) :
    saveSect saveR t a = some (sub saveR (sectR i).2.2.1 (sectR i).2.2.2) := by
  have hf : (List.range 259).find? (fun j => fld saveR (128 + 24 * j) 2 = t && fld saveR (130 + 24 * j) 2 = a) = some i := by
    rw [← h]
    refine List.find?_congr ?_
    intro j hj
    have := fld_table (List.mem_range.mp hj)
    rw [this.1, this.2.1]
    rfl
  rw [saveSect, count_head, hf, Option.map_some, (fld_table hi).2.2.1, (fld_table hi).2.2.2.1]

theorem sect_core (c : Nat) (hc : c < 256) : saveSect saveR 1 c = some (sub saveR 0 coreLen) := by
  have h : ∀ c ∈ List.range 256, (List.range 259).find? (fun j => (sectR j).1 == 1 && (sectR j).2.1 == c) = some c := by decide +kernel
  have := sect_find (by omega) (h c (List.mem_range.mpr hc))
  simpa [sectR, hc] using this

theorem sect_eng : saveSect saveR 4 0 = some (sub saveR 0 engLen) := sect_find (i := 256) (by omega) (by decide +kernel)
theorem sect_models : saveSect saveR 5 0 = some [] := by
  rw [sect_find (i := 257) (by omega) (by decide +kernel)]
  rfl
theorem sect_manifest : saveSect saveR 6 0 = some manR := by
  rw [sect_find (i := 258) (by omega) (by decide +kernel)]
  show some (sub saveR 6344 128) = _
  have hm : sub manR 0 128 = manR := by decide +kernel
  rw [saveR, sub_append_left (by rw [bodyR_len, bodyLen]; omega), bodyR, sub_append_right (o := 6216) (by rw [headR_len]),
    sub_append_right (o := 0) (by rw [tableR_len]), sub_append_left (by rw [manR_len]), hm]
theorem sect_none (c : Nat) : saveSect saveR 2 c = none := by
  have h : ∀ j ∈ List.range 259, (sectR j).1 ≠ 2 := by decide +kernel
  rw [saveSect, count_head, Option.map_eq_none_iff, List.find?_eq_none]
  intro j hj
  rw [(fld_table (List.mem_range.mp hj)).1]
  simp [h j hj]

def pRest : Bytes := leBytes 8 0x1000 ++ leBytes 4 1
def aRest : State := (at_ sR 0x0107 pRest).accepted 0 (cmd 0x0107 pRest)
def vRest : HostView := { segs := [(0x1000, leBytes 8 0x10000 ++ leBytes 4 (bodyLen + 160) ++ zeros 4), (0x10000, saveR)], bad := [] }

theorem form_head : (288 ≤ saveR.length && sub saveR 0 4 = [0x4E#8, 0x44#8, 0x53#8, 0x56#8] && fld saveR 4 2 = 1 && fld saveR 8 8 = saveR.length &&
    128 + 24 * fld saveR 6 2 ≤ saveR.length - 160) = true := by
  rw [saveR_len, count_head, fld, fld, sub_head (by omega), sub_head (by omega), sub_head (by omega)]; decide +kernel

theorem form_table : (List.range (fld saveR 6 2)).all (fun i => fld saveR (136 + 24 * i) 8 + fld saveR (144 + 24 * i) 8 ≤ saveR.length - 160) = true := by
  rw [count_head, saveR_len, List.all_eq_true]
  intro i hi
  have := fld_table (List.mem_range.mp hi)
  rw [this.2.2.1, this.2.2.2.1]
  simpa using this.2.2.2.2

theorem cores_plain : ∀ c ∈ aRest.coreList, c < 256 ∧ aRest.sliceOffs c = [] ∧ (imR.cursors c).length = 0 := by
  have h : ∀ c ∈ aRest.coreList, c < 256 ∧ (imR.cursors c).length = 0 := by decide +kernel
  intro c hc
  refine ⟨(h c hc).1, ?_, (h c hc).2⟩
  have him : aRest.image = some imR := by decide +kernel
  have hst : imR.stack = [] := by decide +kernel
  simp only [State.sliceOffs, him, List.filter_eq_nil_iff, Image.binds, hst, List.any_nil]
  simp

theorem form_cores : aRest.coreList.all (fun c => (saveSect saveR 1 c).any fun x =>
    x.length = 26176 + eltSize aRest.exact * 16384 + 2097152 + 2 * (imR.cursors c).length) = true := by
  rw [List.all_eq_true]
  intro c hc
  have h := cores_plain c hc
  have hs : (sub saveR 0 coreLen).length = coreLen := sub_length (by rw [saveR_len]; decide +kernel)
  have he : coreLen = 26176 + eltSize aRest.exact * 16384 + 2097152 + 2 * 0 := by decide +kernel
  rw [sect_core c h.1, h.2.2, Option.any_some, hs, he, decide_eq_true_eq]

theorem form_slices : aRest.coreList.all (fun c => ((saveSect saveR 2 c).getD []).length = (aRest.sliceOffs c).length) = true := by
  rw [List.all_eq_true]
  intro c hc
  rw [sect_none, (cores_plain c hc).2.1]; decide +kernel

theorem form_engine : (saveSect saveR 4 0).any (fun x => x.length = 64 + 4096 * 64 + 16384 * 576) = true := by
  have hs : (sub saveR 0 engLen).length = engLen := sub_length (by rw [saveR_len]; decide +kernel)
  rw [sect_eng, Option.any_some, hs]; decide +kernel

theorem form_rest : (saveSect saveR 5 0).any (fun x => x.length % 52 = 0) = true ∧ (saveSect saveR 6 0).isSome = true := by
  rw [sect_models, sect_manifest]; decide +kernel

theorem form_ok : aRest.saveForm saveR = true := by
  have him : aRest.image = some imR := by decide +kernel
  have hd : imR.decls = [] := by decide +kernel
  simp only [State.saveForm, him, hd, form_head, form_table, form_cores, form_slices, form_engine, form_rest, Bool.true_and, List.all_nil]

theorem digest_ok : sha384 (saveR.take (saveR.length - 160)) = sub saveR (saveR.length - 160) 48 := by
  rw [saveR_len, Nat.add_sub_cancel]
  have : saveR.take bodyLen = bodyR := by rw [saveR, ← bodyR_len]; exact List.take_left
  rw [this, saveR, sub_append_right (o := 0) (by rw [bodyR_len, Nat.add_zero]), sub_append_left (by rw [sha384_length])]
  simp only [sub, List.drop_zero]
  rw [List.take_of_length_le (by rw [sha384_length])]

theorem restore_ok : aRest.restoreCheck saveR = none := by
  have him : aRest.image = some imR := by decide +kernel
  have hi : imR.digest = sub saveR 32 48 := by rw [sub_head (by omega)]; decide +kernel
  have hm : sha384 manR = sub saveR 80 48 := by rw [sub_head (by omega)]; decide +kernel
  have hs : aRest.saveModels saveR = true := by rw [State.saveModels, sect_models]; decide +kernel
  have he : aRest.manifest = manR := by decide +kernel
  rw [State.restoreCheck, form_ok, hs, digest_ok, sect_manifest, he, him, Option.getD_some, hm]
  simp only [hi, Bool.not_true, Bool.false_eq_true, if_false, ne_eq, not_true_eq_false, decide_false, Bool.or_self]

theorem read_second (e b : Bytes) (n : Nat) (he : e.length = 16) (hb : b.length = n) (hn : 0 < n) :
    HostView.read { segs := [(0x1000, e), (0x10000, b)], bad := [] } 0x10000 n = some b := by
  have hs : List.take n b = b := List.take_of_length_le (by omega)
  have h1 : (decide (0x1000 ≤ 0x10000) && decide (0x10000 + n ≤ 0x1000 + e.length)) = false := by
    simp only [Bool.and_eq_false_iff, decide_eq_false_iff_not]; right; omega
  have h2 : (decide (0x10000 ≤ 0x10000) && decide (0x10000 + n ≤ 0x10000 + b.length)) = true := by
    simp only [Bool.and_eq_true, decide_eq_true_eq]; omega
  simp only [HostView.read, List.any_nil, Bool.false_eq_true, if_false, List.find?_cons, h1, h2, sub, Nat.sub_self, List.drop_zero, hs]

theorem restore_read : vRest.read 0x10000 (bodyLen + 160) = some saveR :=
  read_second _ _ _ (by decide +kernel) saveR_len (by omega)

theorem restore_scatter : vRest.scatter 0x1000 1 = some [(0x10000, bodyLen + 160)] := by decide +kernel

theorem restore_gather : (vRest.scatter 0x1000 1).bind vRest.gather = some saveR := by
  have h : ∀ (v : HostView) (a n : Nat) (b : Bytes), v.read a n = some b → v.gather [(a, n)] = some b := by
    intro v a n b h; simp [HostView.gather, h]
  rw [restore_scatter, Option.bind_some]
  exact h _ _ _ _ restore_read

theorem restore_whole : saveR.take (fld saveR 8 8) = saveR := by
  have : fld saveR 8 8 = saveR.length := by rw [saveR_len, fld, sub_head (by omega)]; decide +kernel
  rw [this, List.take_length]

/-- Witness of JobImages, JOB_RESTORE: an image that passes, and one that is not a save image. -/
theorem witness_jobRestore :
    ((at_ sR 0x0107 pRest).carries 0 0x0107 (cmd 0x0107 pRest) ∧ (pRest.length = 12 ∧ sgFields vRest pRest = true ∧ sR.job.state = .loaded)) ∧
    (((vRest.scatter 0x1000 1).bind vRest.gather = some saveR ∧ saveR.take (fld saveR 8 8) = saveR) ∧ aRest.restoreCheck saveR = none) ∧
    aRest.restoreCheck [] = some .range := by
  have h : aRest.restoreCheck [] = some .range := by
    have : aRest.saveForm [] = false := by rw [State.saveForm]; rfl
    rw [State.restoreCheck, this]; exact if_pos rfl
  exact ⟨⟨carries_of (by decide +kernel), by decide +kernel⟩, ⟨⟨restore_gather, restore_whole⟩, restore_ok⟩, h⟩

/-! ### Signatures: the verification with a faster power, for the kernel's evaluation -/

/-- `b^e` modulo `m` for `e` below 16^n, four bits a step. -/
def fastPow (m n : Nat) : Nat → Nat → Nat :=
  Nat.rec (motive := fun _ => Nat → Nat → Nat) (fun _ _ => 1 % m)
    (fun _ r b e => Nat.mod (Nat.mul (r (Nat.mod (Nat.pow b 16) m) (Nat.div e 16)) (Nat.mod (Nat.pow b (Nat.mod e 16)) m)) m) n

theorem fastPow_succ (m n b e : Nat) :
    fastPow m (n + 1) b e = fastPow m n (b ^ 16 % m) (e / 16) * (b ^ (e % 16) % m) % m := rfl

theorem powMod_eq (m : Nat) : ∀ n b e, e < 2 ^ n → powMod m n b e = b ^ e % m
  | 0, b, e, h => by have : e = 0 := by simpa using h
                     simp [powMod, this]
  | n + 1, b, e, h => by
    have h2 : e / 2 < 2 ^ n := by rw [Nat.pow_succ] at h; omega
    simp only [powMod, powMod_eq m n _ _ h2, ← Nat.pow_mod]
    have he : b ^ e = (b * b) ^ (e / 2) * b ^ (e % 2) := by
      rw [← pow_two, ← pow_mul, ← pow_add, Nat.div_add_mod]
    split
    · next h1 => rw [he, h1, pow_one]; simp [Nat.mul_mod]
    · next h1 => rw [he, show e % 2 = 0 by omega]; simp

theorem fastPow_eq (m : Nat) : ∀ n b e, e < 16 ^ n → fastPow m n b e = b ^ e % m
  | 0, b, e, h => by have : e = 0 := by simpa using h
                     simp [fastPow, this]
  | n + 1, b, e, h => by
    have h2 : e / 16 < 16 ^ n := by rw [Nat.pow_succ] at h; omega
    have he : b ^ e = (b ^ 16) ^ (e / 16) * b ^ (e % 16) := by rw [← pow_mul, ← pow_add, Nat.div_add_mod]
    simp only [fastPow_succ, fastPow_eq m n _ _ h2, ← Nat.pow_mod]
    rw [he]; simp [Nat.mul_mod]

def fastInv (m x : Nat) : Nat := fastPow m 96 (x % m) (m - 2)

theorem fastInv_eq (m x : Nat) (h : m < 2 ^ 384) : invMod m x = fastInv m x := by
  rw [invMod, fastInv, powMod_eq _ _ _ _ (by omega), fastPow_eq _ _ _ _ (by norm_num; omega)]

def fastAdd (a b : Option (Nat × Nat)) : Option (Nat × Nat) :=
  match a, b with
  | none, q => q
  | q, none => q
  | some (x1, y1), some (x2, y2) =>
    let p := p384P
    if x1 = x2 && (y1 + y2) % p = 0 then none
    else
      let l := if x1 = x2 then (3 * x1 * x1 + p - 3) * fastInv p (2 * y1) % p else (y2 + p - y1) * fastInv p (x2 + p - x1) % p
      let x := (l * l + 2 * p - x1 - x2) % p
      some (x, (l * (x1 + p - x) + p - y1) % p)

theorem fastAdd_eq (a b : Option (Nat × Nat)) : ecAdd a b = fastAdd a b := by
  rcases a with _ | ⟨x1, y1⟩ <;> rcases b with _ | ⟨x2, y2⟩ <;> simp only [ecAdd, fastAdd, fastInv_eq p384P _ (by decide +kernel)]

def fastMul : Nat → Nat → Option (Nat × Nat) → Option (Nat × Nat)
  | 0, _, _ => none
  | n + 1, k, q => let r := fastMul n (k / 2) (fastAdd q q); if k % 2 = 1 then fastAdd r q else r

theorem fastMul_eq : ∀ n k q, ecMul n k q = fastMul n k q
  | 0, _, _ => rfl
  | n + 1, k, q => by simp only [ecMul, fastMul, fastMul_eq n, fastAdd_eq]

/-- The point that decides a verification. -/
def fastPoint (q : Nat × Nat) (h r s : Nat) : Option (Nat × Nat) :=
  let w := fastInv p384N s
  fastAdd (fastMul 384 (h * w % p384N) (some p384G)) (fastMul 384 (r * w % p384N) (some q))

/-- A signature is good if its numbers are in range and the point's x is r. -/
theorem ecdsa_good {key h r s : Bytes} {q : Nat × Nat}
    (hk : (ecPoint key = some q ∧ beNat r ≠ 0 ∧ beNat r < p384N ∧ beNat s ≠ 0 ∧ beNat s < p384N) ∧
      (fastPoint q (beNat h) (beNat r) (beNat s)).any (fun p => p.1 % p384N == beNat r) = true) : ecdsaVerify key h r s = true := by
  obtain ⟨⟨h1, h2, h3, h4, h5⟩, h6⟩ := hk
  have hN : p384N < 2 ^ 384 := by decide +kernel
  simp only [ecdsaVerify, h1, fastInv_eq _ _ hN, fastMul_eq, fastAdd_eq]
  rw [if_neg (by simp [h2, h4]; omega)]
  simp only [fastPoint] at h6
  split
  · next h7 => simp [h7] at h6
  · next x _ h7 => simpa [h7] using h6

/-! ### Security -/

/-- A message's nonce byte and a key under which (h, h) is a signature of its hash h: the point of x-coordinate h less the generator. -/
def secKey (q : Nat × Nat × Nat) : Bytes := 0x04#8 :: beBytes 48 q.2.1 ++ beBytes 48 q.2.2
def qRelease : Nat × Nat × Nat :=
  (1, 0x33ce71df982f3a864e6db8f4cb0269973f4ecf2b4adba46796e3e82ffe59fcac6f3fe3265b3610da24e07bd59b01bec5,
   0x111495877d72864f6b8d2a9a77997cde608f678036cc322a6904e3b2f01a415fd7827246ee50beb10298e82c6beb6c74)
def qKey0 : Nat × Nat × Nat :=
  (2, 0x90886ecf924883ec0bf6ab120de0375d11645d8673e92099d3d66ab51c8203269d37c7e58d955ef89b84a8c1ab520de3,
   0x98d24546c1075abe1dda352a212d3ff7ecc6621114c2eeecdd407ddc028f7ffb393f6b6be12db042a9a4d99e37caada9)
def qKey1 : Nat × Nat × Nat :=
  (1, 0x9b68366900b9751d1d9b908271bc6365595ee5743dacf2a413cc9e17a50531289293314c010104a4e6bc990bee648ea8,
   0x3bc925640f92e87b53f8b822675b01dea2e9a97cf80e277f03be891df10e30522a655c487f9f1f258eb97fd95ed4f6fa)
def qPolicy : Nat × Nat × Nat :=
  (2, 0x5a6426923b2d7772e4da0208f15e38f2041442e5e48060dc9402b8843ceec8148c2874c30d73f0e6053a47bf190848d1,
   0xb091b9a8e5292aaf764cd5211bd68427b76155a490994abcbe00ee267d9d32146ec18e67e6aea7bc38a549dae4d1ba78)
def qMgmt : Nat × Nat × Nat :=
  (3, 0xb9098fe357f3bab45fbc20d30a54f83962f913b45e2defa525e8cf02a6a2dbcd435c2ad1be33ad383a8b5582cdf4f7e4,
   0xb84646cb65bb00fb7327cd8e28ed50412b9def865e033a027c820fe3c87222aa0eaeb1cdd1981ed291e3ab39f9bc22af)
def qSvn : Nat × Nat × Nat :=
  (3, 0xb136a6735512110b1e40a1798cd4b78331ca4780173a4fd347eca04e06ba6033032c38e30b732fc763ff59a76a4245fc,
   0x15c4201ccebecfe00697e8ca3925ec022d042ce66feec0bb1e06f1ae2bb0a1cce5c69c00bda470ddc920879622db47d2)
def qLc4 : Nat × Nat × Nat :=
  (2, 0xfecce7569c29472f5407d76f5ac24a8999df2d411ee6bff07480571d52dfbb818b0387290e8de34b9ac3d538bd557747,
   0xaa71d870c684091f27e6ed9b2df219305a7282d8d81f04d79037d0a82be8a77c35fa99b7d0838a5e5b8f7a0a4b68100d)
def qLc5 : Nat × Nat × Nat :=
  (1, 0x026983156deb6782be94ad8be10dbc03116f35f4716701a52fde9234b5053511e654902c3649a35c6105db49d668505d,
   0x60255bc4ed1c9a12cf5dd7fcedf806a50b2df0c25576916c33b6a9cf02eafd7c7d16b4973c8f75f2c6e9a858745bea8b)
def qStop : Nat × Nat × Nat :=
  (1, 0x587e0a6e46829857da79480239459f5c22f2e12877822527b2fe411c3ac57d3783b448632d27244de9fffc37cd8c4a43,
   0x8fd431ed8f1c7476028774e1cbb53038366420634f7a3094033156ebfbfa31f6a351ae57fef0274c200940a1e4a738e4)
def qRead : Nat × Nat × Nat :=
  (1, 0xf146d28c2e0ce2d7904393f0f09a99a8d10b6a590c769de88a09406d47a388c80b9b0f2550c174af3d01f2f70cd2f00b,
   0x60b28383f1bf2f075037741b8564d31ca41ba9454d19711dab6b79282c0e124092f9673be708d46b18149094985be0d3)
def qFw : Nat × Nat × Nat :=
  (1, 0xd24543ebf8f3cb3823c17f02e388e471ba90401e31d641b1822fb23d97af62113890019ef1de3365dec66befb3abdc95,
   0x759b9d93ca48b5f4f955c4c431fa82f6e26ba65e357f5a9fa7bc53a82b42777320284a17dddeeae1b126bf424f3979d9)
def sigClaim : Nat × Nat :=
  (0xef47a151ed7f1b9e9db39a17228fa708a8614bd6c6101a75535784029b7cf36d3f5f98f958c8d1cbd5ec5d0013a90e77,
   0x96401baae613dbd31d0539a9691aca85e350410af269d3d84cac51d029e56ae70ac691468fd28502603be7c56eb0e32c)
def sigProv : Nat × Nat :=
  (0xef47a151ed7f1b9e9db39a17228fa708a8614bd6c6101a75535784029b7cf36d3f5f98f958c8d1cbd5ec5d0013a90e77,
   0xbfda7f018dc42c2c8653cfe09def339946cff34166bfdaf22570a59fb2ffb59d867c26b31146f9a5b1a697456a224ad0)
def sigCert : Nat × Nat :=
  (0xef47a151ed7f1b9e9db39a17228fa708a8614bd6c6101a75535784029b7cf36d3f5f98f958c8d1cbd5ec5d0013a90e77,
   0xbd59a9de8f15e99e98c5e5bb2a561311a3df47c72e66a9e55004f4b2a9ee8c07c8119460888afb21bce826449565c86c)
def sigLc1 : Nat × Nat :=
  (0xef47a151ed7f1b9e9db39a17228fa708a8614bd6c6101a75535784029b7cf36d3f5f98f958c8d1cbd5ec5d0013a90e77,
   0x0fabf31f22980495d96ba7d3aef462d49e16595e0d636810b2382af55e22d13effa18af602c891a797698245b7f88981)
def sigFw : Nat × Nat :=
  (0xef47a151ed7f1b9e9db39a17228fa708a8614bd6c6101a75535784029b7cf36d3f5f98f958c8d1cbd5ec5d0013a90e77,
   0x1db4879bb96f603f6bfebb18f86ea98ed506023ba44a82d26ef5506028eaf8aa4800e470d5057d3bad39021f7a4fb0b2)
def vKey : Bytes := 0x04#8 :: beBytes 48 0x08d999057ba3d2d969260045c55b97f089025959a6f434d651d207d19fb96e9e4fe0e86ebe0e64f85b96a9c75295df61 ++
  beBytes 48 0x8e80f1fa5b1b3cedb7bfe8dffd6dba74b275d875bc6cc43e904e505f256ab4255ffd43e94d39e22d61501e700a940e80

/-- A module in life-cycle state `lc`, with an owner whose admin key is `k` if `owned` and with the nonce of 32 bytes `n`. -/
def sSec (lc : Nat) (owned : Bool) (k : Bytes) (n : Nat) : State :=
  { sRun with job := { sRun.job with state := .idle }, sec := { sRun.sec with
      fuses := { sRun.sec.fuses with lc := lc }, nonce := some (List.replicate 32 (BitVec.ofNat 8 n), 1001)
      owner := if owned then some { OwnerBlock.init with adminKey := k } else none } }

/-- The state an owner signs for, and its payload: BODY, the nonce, a signature. -/
def sOwn (q : Nat × Nat × Nat) : State := sSec 3 true (secKey q) q.1
def pOwn (q : Nat × Nat × Nat) (op : Nat) (body : Bytes) : Bytes :=
  let n := List.replicate 32 (BitVec.ofNat 8 q.1)
  let h := (sOwn q).signedMsg op body n
  body ++ n ++ h ++ h
def aOwn (q : Nat × Nat × Nat) (op : Nat) (body : Bytes) (f : State → State := id) : State := at_ (f (sOwn q)) op (pOwn q op body)

/-- Owner command `i` succeeds; it is AUTH under another key, and AUTH once its nonce has expired. -/
def ownRow (i : Instr) (q : Nat × Nat × Nat) (op : Nat) (body : Bytes) (p : State → Bytes → Bool) : Bool :=
  ans i (aOwn q op body) 0 0 p &&
  ans i (aOwn q op body fun s => { s with sec := { s.sec with owner := some { OwnerBlock.init with adminKey := secKey (1, 2, 3) } } }) 0 5
    (fun t _ => (t.chan 0).resp.any (fun r => r.fault == 0x0941#16) && t.sec.nonce.isNone) &&
  ans i (aOwn q op body fun s => { s with gsc := 1001 }) 0 5 (fun t _ => (t.chan 0).resp.any (fun r => r.fault == 0x0942#16))

/-- Witness of OwnerCommands: the rows an owner signs. -/
theorem witness_ownerRows :
    ownRow (.secOwnerRelease 0) qRelease 0x0703 [] (fun t _ => t.sec.owner.isNone && t.sec.fuses.ownerEpoch == 1) = true ∧
    ans (.secKeySet 0) (aOwn qKey0 0x0704 ([0#8, 15#8, 0#8, 0#8] ++ List.replicate 97 4#8)) 0 0
      (fun t _ => t.sec.owner.any fun o => o.imageKeys == [(15, List.replicate 97 4#8)]) = true ∧
    ans (.secKeySet 0) (aOwn qKey1 0x0704 ([1#8, 15#8, 0#8, 0#8] ++ zeros 97)) 0 0 (fun t _ => t.sec.owner.any fun o => o.casKeys == []) = true ∧
    ans (.secPolicy 0) (aOwn qPolicy 0x0705 [3#8]) 0 0 (fun t _ => t.sec.owner.any fun o => o.policy == 3) = true ∧
    ans (.secMgmtKey 0) (aOwn qMgmt 0x0706 (List.replicate 48 0xAA#8)) 0 0
      (fun t _ => t.sec.ownerFlash.isSome && t.sec.owner.any fun o => o.mgmtKey == List.replicate 48 0xAA#8) = true ∧
    ans (.secLcAdvance 0) (aOwn qLc4 0x070A [4#8]) 0 0
      (fun t _ => t.sec.fuses.lc == 4 && t.power.resetDue.isSome && t.sec.fuses.ownerEpoch == 1) = true ∧
    ans (.secLcAdvance 0) (aOwn qLc5 0x070A [5#8]) 0 0 (fun t _ => t.sec.fuses.udsKill) = true := by decide +kernel

/-- The same of FirmwareCommands and TestCommands: SEC_SVN_COMMIT's three cases, DEBUG_STOP. -/
theorem witness_ownerRows2 :
    (let r := fun (run fuse : Nat) (s : State) => { s with sec := { s.sec with runSvn := run, fuses := { s.sec.fuses with svn := fuse } } }
     ans (.secSvnCommit 0) (aOwn qSvn 0x0709 [5#8] (r 5 4)) 0 0 (fun t b => t.sec.fuses.svn == 5 && b == [5#8] && t.sec.nonce.isNone) = true ∧
     ans (.secSvnCommit 0) (aOwn qSvn 0x0709 [5#8] (r 9 7)) 0 0 (fun t b => t.sec.fuses.svn == 7 && b == [7#8]) = true ∧
     ans (.secSvnCommit 0) (aOwn qSvn 0x0709 [5#8] (r 4 4)) 0 2 = true) ∧
    ans (.debugStop 0) (aOwn qStop 0x0806 (leBytes 8 5) fun s => { s with job := { s.job with state := .running } }) 0 0
      (fun t _ => t.pace.debugStop == some 5) = true := by decide +kernel

theorem test_ecdsaRejects : ecdsaVerify (secKey qRelease) (zeros 48) (zeros 48) (zeros 48) = false := by decide +kernel

/-! A signature of private number 2: its key, and the commands that carry their key in what they sign. -/

def pSig (body : Bytes) (g : Nat × Nat) : Bytes := body ++ List.replicate 32 9#8 ++ beBytes 48 g.1 ++ beBytes 48 g.2

/-- The hash a trailer signs on a module without a serial number, and the verification of it. -/
def vMsg (op : Nat) (b : Bytes) : Bytes :=
  sha384 (leBytes 2 op ++ zeros 16 ++ b.take (b.length - 128) ++ sub b (b.length - 128) 32)
def vSigned (op : Nat) (b : Bytes) : Bool :=
  ecdsaVerify vKey (vMsg op b) (sub b (b.length - 128 + 32) 48) (sub b (b.length - 128 + 80) 48)

/-- A trailer of this key is good if its signature is and its nonce is the module's. -/
theorem trailer_ok {s : State} {op : Nat} {b : Bytes} (h : vSigned op b = true)
    (hn : padTo 16 s.part.serial = zeros 16 ∧ s.nonceGood (sub b (b.length - 128) 32) = true) : s.checkTrailer op b vKey = .ok := by
  have h : ecdsaVerify vKey (s.signedMsg op (b.take (b.length - 128)) (sub b (b.length - 128) 32)) (sub b (b.length - 128 + 32) 48)
      (sub b (b.length - 128 + 80) 48) = true := by rw [State.signedMsg, hn.1]; exact h
  simp only [State.checkTrailer, h, hn.2]; rfl

def vPoint : Nat × Nat := (beNat (sub vKey 1 48), beNat (sub vKey 49 48))

def bClaim : Bytes := pSig (vKey ++ zeros 3 ++ zeros 196) sigClaim
def bProv : Bytes := pSig (vKey ++ zeros 3) sigProv
def bCert : Bytes := pSig (leBytes 4 0 ++ leBytes 4 8 ++ List.replicate 8 0xC1#8 ++ vKey ++ zeros 3) sigCert
def bLc1 : Bytes := pSig ([1#8] ++ vKey ++ zeros 3) sigLc1

theorem claim_signed : vSigned 0x0702 bClaim = true := ecdsa_good (q := vPoint) (by decide +kernel)
theorem prov_signed : vSigned 0x070E bProv = true := ecdsa_good (q := vPoint) (by decide +kernel)
theorem cert_signed : vSigned 0x070F bCert = true := ecdsa_good (q := vPoint) (by decide +kernel)
theorem lc1_signed : vSigned 0x070A bLc1 = true := ecdsa_good (q := vPoint) (by decide +kernel)

/-- A module whose VENDOR_AUTH fuse names this key. -/
def sVendor (lc : Nat) : State :=
  let s := sSec lc false [] 9
  { s with sec := { s.sec with fuses := { s.sec.fuses with vendorAuthHash := sha384 vKey } } }

def inRec (s : State) : State := { s with sec := { s.sec with boot := .recovery } }

/-- Witness of OwnerCommands: a claim in UNOWNED, and one in DEPLOYED without an owner. -/
theorem witness_claim : ∀ lc ∈ [2, 3], let s := at_ (sVendor lc) 0x0702 bClaim
    s.carries 0 0x0702 (cmd 0x0702 bClaim) ∧ (bClaim.length = 424 ∧ zeroAt bClaim 97 3 = true ∧
      zeroAt bClaim 197 3 = true ∧ s.lcIs lc = true ∧ s.job.state = .idle ∧ s.sec.owner = none ∧ s.anchorOk bClaim = true) ∧
      s.checkTrailer 0x0702 bClaim (sub bClaim 0 97) = .ok := by
  have h0 : sub bClaim 0 97 = vKey := by decide +kernel
  intro lc hlc
  rw [h0]
  exact ⟨carries_of (by fin_cases hlc <;> decide +kernel), by fin_cases hlc <;> decide +kernel,
    trailer_ok claim_signed (by fin_cases hlc <;> decide +kernel)⟩

theorem vendor_ok {s : State} {op : Nat} {b : Bytes} (h : vSigned op b = true)
    (hn : sub b (b.length - 228) 97 = vKey ∧ s.sec.fuses.vendorAuthHash = sha384 vKey ∧ (sha384 vKey = []) = False ∧
      padTo 16 s.part.serial = zeros 16 ∧ s.nonceGood (sub b (b.length - 128) 32) = true) : s.vendorAuth op b = .ok := by
  simp only [State.vendorAuth, hn.1, hn.2.1, hn.2.2.1]
  simpa using trailer_ok h hn.2.2.2

/-- Witness of FirmwareCommands and OwnerCommands: the commands a vendor signs. -/
theorem witness_vendor :
    (let s := at_ (sVendor 1) 0x070E bProv
     s.carries 0 0x070E (cmd 0x070E bProv) ∧ (bProv.length = 228 ∧ vendorForm bProv = true ∧ s.lcIs 1 = true) ∧ s.vendorAuth 0x070E bProv = .ok) ∧
    (let s := at_ (sVendor 1) 0x070F bCert
     s.carries 0 0x070F (cmd 0x070F bCert) ∧ (bCert.length = 236 + 8 ∧ vendorForm bCert = true ∧ s.lcIs 1 = true ∧ fld bCert 4 4 = 8 ∧
       fld bCert 0 4 + (bCert.length - 236) = fld bCert 4 4) ∧ s.vendorAuth 0x070F bCert = .ok) ∧
    (let s := inRec (at_ (sVendor 0) 0x070A bLc1)
     s.carriesRec 0 0x070A (cmd 0x070A bLc1) ∧ (bLc1.length = 229 ∧ vendorForm bLc1 = true ∧ s.sec.fuses.lc = 0 ∧ fld bLc1 0 1 = 1 ∧
       s.job.state = .idle ∧ lcStep 0 1 = some false) ∧ s.vendorAuth 0x070A bLc1 = .ok) :=
  ⟨⟨carries_of (by decide +kernel), by decide +kernel, vendor_ok prov_signed (by decide +kernel)⟩,
    ⟨carries_of (by decide +kernel), by decide +kernel, vendor_ok cert_signed (by decide +kernel)⟩,
    ⟨by simp only [State.carriesRec]; decide +kernel, by decide +kernel, vendor_ok lc1_signed (by decide +kernel)⟩⟩

/-- The other rows of OwnerCommands: a nonce with firmware and in recovery, an owner's keys read, a step the life cycle does not take,
one to UNOWNED without an identity, a key from a mailbox refused on a management channel, a reset, an expiry. -/
theorem witness_ownerOthers :
    ans (.secNonce 3) (send sRun 3 (cmd 0x0701 [])) 3 0 (fun t _ => t.sec.nonce.any fun n => n.2 == 60000001000) = true ∧
    ans (.secNonce 8) (inRec (send sRun 8 (cmd 0x0701 []))) 8 0 = true ∧
    ans (.secOwnerRead 0) (at_ (sSec 3 true vKey 9) 0x0707 []) 0 0 (fun _ p => p.length == 153 && sub p 56 97 == vKey) = true ∧
    ans (.secLcAdvance 0) (at_ (sSec 3 true vKey 9) 0x070A (2#8 :: zeros 128)) 0 3 = true ∧
    ans (.secLcAdvance 0) (at_ (sSec 1 false [] 9) 0x070A (2#8 :: zeros 228)) 0 3 = true ∧
    ans (.secMgmtKey 9) (send (sSec 3 true vKey 9) 9 (cmd 0x0706 (zeros 176))) 9 5 = true ∧
    ans (.secReset 0) (at_ (sSec 3 true vKey 9) 0x070B []) 0 0 (fun t _ => t.power.resetDue.isSome) = true ∧
    after .nonceExpiry (sSec 3 true vKey 9) (fun t => t.gsc == 1001 && t.sec.nonce.isNone) = true := by
  simp only [ans]; decide +kernel

/-! Firmware images (R452). -/

def fwImg : Bytes := padTo 256 (fwMagic ++ leBytes 2 1 ++ [3#8, 7#8] ++ [0x44#8, 0x33#8, 0x22#8, 0x11#8] ++ leBytes 4 1 ++ vKey) ++ [0x5A#8] ++
  beBytes 48 sigFw.1 ++ beBytes 48 sigFw.2

/-- The same module with key slot 3 fused; `svn` is the SVN fuse. -/
def sFw (owned : Option (Nat × Nat × Nat)) (svn : Nat) : State :=
  let s := match owned with | some q => sOwn q | none => sSec 3 false [] 9
  { s with sec := { s.sec with fuses := { s.sec.fuses with vendorKeyHash := [(3, sha384 vKey)], svn := svn } } }

theorem fw_signed : ecdsaVerify vKey (fwMeasure fwImg) (sub fwImg (256 + 1) 48) (sub fwImg (304 + 1) 48) = true :=
  ecdsa_good (q := vPoint) (by decide +kernel)

theorem fw_ok {s : State} (h : fwBody fwImg = 1 ∧ sub fwImg 16 97 = vKey ∧ (sub fwImg 0 4 ≠ fwMagic || fld fwImg 4 2 ≠ 1 || 1 = 0 ||
      0x00C00000 < 1 || fwImg.length < 352 + 1) = false ∧ (4 ≤ fld fwImg 6 1 || bit s.sec.fuses.vendorKeyRevoke (fld fwImg 6 1) ||
      !s.sec.fuses.vendorKeyHash.has (fld fwImg 6 1) || sha384 vKey ≠ s.sec.fuses.vendorKeyHash.find [] (fld fwImg 6 1)) = false ∧
      ¬ fld fwImg 7 1 < s.sec.fuses.svn) : s.fwCheck fwImg = 0 := by
  obtain ⟨h1, h2, h3, h4, h5⟩ := h
  simp only [State.fwCheck, h1, h2, h3, h4, h5, fw_signed]; rfl

def fwView (b : Bytes) : HostView := { segs := [(0x1000, leBytes 8 0x2000 ++ leBytes 4 b.length ++ zeros 4), (0x2000, b)], bad := [] }
def fwPay : Bytes := leBytes 8 0x1000 ++ leBytes 4 1
def pFw : Bytes := pOwn qFw 0x0708 fwPay
def sRev (s : State) : State := { s with sec := { s.sec with fuses := { s.sec.fuses with vendorKeyRevoke := 8 } } }

/-- Witness of FirmwareCommands, SEC_FW_UPDATE: an image that passes, with an owner's authority and on a module without an owner; one whose
key slot is revoked. -/
theorem witness_fwUpdate :
    (let s := at_ (sFw (some qFw) 7) 0x0708 pFw
     s.carries 0 0x0708 (cmd 0x0708 pFw) ∧ (s.job.state = .idle ∧ sgFields (fwView fwImg) pFw = true ∧ pFw.length = 140 ∧
       ((fwView fwImg).scatter (fld pFw 0 8) (fld pFw 8 4)).bind (fwView fwImg).gather = some fwImg ∧
       fwImg.take (352 + fwBody fwImg) = fwImg ∧ s.ownerAuth 0x0708 pFw = .ok) ∧ s.fwCheck fwImg = 0) ∧
    (let s := at_ (sFw none 7) 0x0708 fwPay
     s.carries 0 0x0708 (cmd 0x0708 fwPay) ∧ (s.job.state = .idle ∧ sgFields (fwView fwImg) fwPay = true ∧ fwPay.length = 12 ∧
       s.sec.owner = none) ∧ s.fwCheck fwImg = 0) ∧
    ans (.secFwUpdate 0 (fwView fwImg) .done) (at_ (sRev (sFw (some qFw) 7)) 0x0708 pFw) 0 9 = true :=
  ⟨⟨carries_of (by decide +kernel), by decide +kernel, fw_ok (by decide +kernel)⟩,
    ⟨carries_of (by decide +kernel), by decide +kernel, fw_ok (by decide +kernel)⟩, by decide +kernel⟩

/-- Recovery has staged `b`. -/
def sStaged (s : State) (b : Bytes) : State := { s with sec := { s.sec with staging := s.sec.staging.write 0 b } }

/-- Witness of FirmwareCommands: recovery and the certificate chain, at their bounds. -/
theorem witness_recovery :
    (let s := sStaged (inRec (at_ (sFw none 7) 0x0711 (leBytes 4 353))) fwImg
     s.carriesRec 0 0x0711 (cmd 0x0711 (leBytes 4 353)) ∧ s.sec.staging.read 0 353 = fwImg ∧ s.fwCheck fwImg = 0) ∧
    ans (.recoveryCommit 0) (inRec (at_ (sFw none 7) 0x0711 (leBytes 4 64))) 0 2 (fun t _ => t.sec.fw == []) = true ∧
    (let p := leBytes 4 0xFFFFC0 ++ leBytes 4 64 ++ List.replicate 64 7#8
     ans (.recoveryWrite 0) (inRec (at_ sRun 0x0710 p)) 0 0 (fun t _ => t.sec.staging.read 0xFFFFC0 64 == List.replicate 64 7#8) = true ∧
     ans (.recoveryWrite 0) (at_ sRun 0x0710 p) 0 3 = true) ∧
    (let s := { sRun with sec := { sRun.sec with chain := [1#8, 2#8, 3#8] } }
     ans (.secChainRead 0) (at_ s 0x070D (leBytes 4 1 ++ leBytes 4 2)) 0 0 (fun _ p => p == [2#8, 3#8]) = true ∧
     ans (.secChainRead 0) (at_ s 0x070D (leBytes 4 1 ++ leBytes 4 3)) 0 2 = true) := by
  refine ⟨⟨by simp only [State.carriesRec]; decide +kernel, by decide +kernel, fw_ok (by decide +kernel)⟩, by decide +kernel⟩

/-! ### SPDM -/

/-- Running firmware in DEPLOYED whose identity and alias keys exist, with a connection `x` on every transport. -/
def sSpdm (x : Spdm) : State :=
  { sRun with sec := { sRun.sec with boot := .running, fuses := { sRun.sec.fuses with lc := 3 }, ik := some 5, ak := some 7
                                     spdm := [(0, x), (1, x), (2, x)] } }
def xVer : Spdm := { Spdm.init with versioned := true }
def xCap : Spdm := { xVer with capable := true }
def xNeg : Spdm := { xCap with negotiated := true }
def q4 (v c a b : Nat) : Bytes := leBytes 1 v ++ leBytes 1 c ++ leBytes 1 a ++ leBytes 1 b

/-- Firmware runs and `q` is a request of at least 4 bytes with version `v` and code `c`. -/
def spdmReq (s : State) (q : Bytes) (v c : Nat) : Bool := s.sec.boot == .running && 4 ≤ q.length && fld q 0 1 == v && fld q 1 1 == c

def spdmOut (i : Instr) (s : State) (p : SpdmPath) (out : Bytes) : Bool := after i s fun t => (t.conn p).out == out

def qNeg : Bytes := q4 0x12 0xE3 0 0 ++ [32#8, 0#8, 1#8, 0#8, 0x80#8, 0#8, 0#8, 0#8, 2#8, 0#8, 0#8, 0#8] ++ zeros 16

/-- Witness of SpdmResponder: the requests whose answers no free value enters. -/
theorem witness_spdm :
    spdmReq (sSpdm .init) (q4 0x10 0x84 0 0) 0x10 0x84 = true ∧
    spdmOut (.getVersion .doe (q4 0x10 0x84 0 0) true) (sSpdm .init) .doe [0x10#8, 0x04#8, 0#8, 0#8, 0#8, 1#8, 0x00#8, 0x12#8] = true ∧
    after (.getVersion .doe (q4 0x10 0x84 0 0) true) (sSpdm xNeg) (fun t => (t.conn .doe).versioned && !(t.conn .doe).negotiated &&
      (t.conn .mgmt0).negotiated) = true ∧
    ([(Instr.getCapabilities .mgmt1 (q4 0x11 0xE1 0 0) false, 0xE1), (.negotiateAlgorithms .mgmt1 (q4 0x13 0xE3 0 0) false, 0xE3),
      (.getDigests .mgmt1 (q4 0x10 0x81 0 0) false, 0x81), (.getCertificate .mgmt1 (q4 0x11 0x82 0 0) false, 0x82),
      (.challenge .mgmt1 (q4 0x11 0x83 0 0) false, 0x83), (.getMeasurements .mgmt1 (q4 0x11 0xE0 0 0) false, 0xE0),
      (.respondIfReady .mgmt1 (q4 0x11 0xFF 0 0) false, 0xFF)].all fun r => spdmOut r.1 (sSpdm xNeg) .mgmt1 [0x12#8, 0x7F#8, 0x41#8, 0#8]) = true ∧
    (spdmReq (sSpdm .init) (q4 0x12 0xE1 0 0) 0x12 0xE1 = true ∧
     spdmOut (.getCapabilities .doe (q4 0x12 0xE1 0 0) false) (sSpdm .init) .doe errUnexpected = true) ∧
    (spdmReq (sSpdm xVer) (q4 0x12 0xE1 0 0 ++ zeros 16) 0x12 0xE1 = true ∧ ((sSpdm xVer).conn .doe).versioned = true ∧
     20 ≤ (q4 0x12 0xE1 0 0 ++ zeros 16).length) ∧
    (spdmReq (sSpdm xCap) qNeg 0x12 0xE3 = true ∧ 32 ≤ qNeg.length ∧ bit (fld qNeg 8 4) 7 = true ∧ bit (fld qNeg 12 4) 1 = true ∧
     bit (fld qNeg 6 1) 0 = true ∧ after (.negotiateAlgorithms .doe qNeg false) (sSpdm xCap) (fun t => (t.conn .doe).negotiated) = true) ∧
    spdmOut (.getDigests .doe (q4 0x12 0x81 0 0) false) (sSpdm xCap) .doe errUnexpected = true ∧
    (spdmReq (sSpdm xNeg) (q4 0x12 0x81 0 0) 0x12 0x81 = true ∧
     spdmOut (.getDigests .doe (q4 0x12 0x81 0 0) false) { sSpdm xNeg with sec := { (sSpdm xNeg).sec with ak := none, chain := [0x30#8, 0#8] } }
       .doe ([0x12#8, 0x01#8, 0#8, 0x01#8] ++ sha384 ([54#8, 0#8, 0#8, 0#8] ++ sha384 [0x30#8, 0#8] ++ [0x30#8, 0#8])) = true) ∧
    spdmOut (.getCertificate .doe (q4 0x12 0x82 0 0) false) { sSpdm xNeg with sec := { (sSpdm xNeg).sec with ak := none } } .doe
      [0x12#8, 0x7F#8, 0x07#8, 0x82#8] = true ∧
    spdmOut (.challenge .doe (q4 0x12 0x83 0 0) false) { sSpdm xNeg with sec := { (sSpdm xNeg).sec with ik := none } } .doe
      [0x12#8, 0x7F#8, 0x07#8, 0x83#8] = true ∧
    spdmOut (.respondIfReady .doe (q4 0x12 0xFF 0x83 4) false) (sSpdm xNeg) .doe errUnexpected = true ∧
    (let s := sSpdm { xNeg with waiting := some (0x83, 4, [1#8, 2#8]) }
     spdmReq s (q4 0x12 0xFF 0x83 4) 0x12 0xFF = true ∧ spdmOut (.respondIfReady .doe (q4 0x12 0xFF 0x83 4) false) s .doe [1#8, 2#8] = true) ∧
    after (.getVersion .doe (q4 0x12 0xE1 0 0) false) (sSpdm xNeg) (fun t => t == sSpdm xNeg) = true ∧
    (0xE4 ∉ spdmCodes ∧ spdmOut (.getDigests .doe (q4 0x12 0xE4 0 0) false) (sSpdm xNeg) .doe [0x12#8, 0x7F#8, 0x07#8, 0xE4#8] = true) := by
  decide +kernel

/-- Witness of SpdmResponder: the hypotheses of the requests whose answers carry certificates, signatures or random bytes. -/
theorem witness_spdmSigned :
    (sSpdm xNeg).aliasExists = true ∧ ((sSpdm xNeg).conn .mgmt0).negotiated = true ∧
    (let q := q4 0x12 0x82 0 0 ++ [0#8, 0#8, 0xFF#8, 0xFF#8]
     (spdmReq (sSpdm xNeg) q 0x12 0x82 = true ∧ 8 ≤ q.length ∧ fld q 2 1 % 16 = 0) ∧ fld q 4 2 < (sSpdm xNeg).spdmChain.length) ∧
    (let q := q4 0x12 0x83 0 0 ++ zeros 32
     spdmReq (sSpdm xNeg) q 0x12 0x83 = true ∧ 36 ≤ q.length ∧ fld q 2 1 % 16 = 0 ∧ fld q 3 1 = 0) ∧
    (∀ op ∈ [0, 1, 8], spdmReq (sSpdm xNeg) (q4 0x12 0xE0 0 op) 0x12 0xE0 = true ∧ fld (q4 0x12 0xE0 0 op) 2 1 = 0 ∧ fld (q4 0x12 0xE0 0 op) 3 1 = op) ∧
    (let q := q4 0x12 0xE0 1 0xFF ++ zeros 33
     spdmReq (sSpdm xNeg) q 0x12 0xE0 = true ∧ fld q 2 1 = 1 ∧ fld q 3 1 = 0xFF ∧ 37 ≤ q.length ∧ fld q 36 1 % 16 = 0 ∧
       (sSpdm xNeg).sec.ak.isSome = true) := by
  refine ⟨by decide +kernel, by decide +kernel, ⟨by decide +kernel, ?_⟩, by decide +kernel, by decide +kernel, by decide +kernel⟩
  rw [show fld (q4 0x12 0x82 0 0 ++ [0#8, 0#8, 0xFF#8, 0xFF#8]) 4 2 = 0 by decide +kernel]
  simp [State.spdmChain, leBytes]

/-- Witness of SpdmResponder: SEC_SPDM on a mailbox channel and on both management channels. -/
theorem witness_secSpdm :
    ans (.secSpdm 7 false) (send (sSpdm xNeg) 7 (cmd 0x070C (q4 0x10 0x84 0 0))) 7 5 = true ∧
    ∀ ch ∈ [8, 9], ans (.secSpdm ch false) (send (sSpdm xNeg) ch (cmd 0x070C (q4 0x10 0x84 0 0))) ch 0
      (fun _ p => p == [0x10#8, 0x04#8, 0#8, 0#8, 0#8, 1#8, 0x00#8, 0x12#8]) = true := by decide +kernel

/-! ### Test and debug -/

def p3 (x : LinkPort) : State := { sRun with ports := [(3, x)], job := { sRun.job with state := .idle } }
def lck : Checker := { locked := true, err := 4 }
/-- A port that runs pattern 7, lanes 0 and 15 locked. -/
def xPat : LinkPort :=
  { LinkPort.init with state := .off, pat := { LinkPort.init.pat with pattern := 7, rx := true, bits := 100, lanes := [(0, lck), (15, lck)] } }
def xAct : LinkPort := { LinkPort.init with state := .active, modeNow := 1, replayNs := 200 }
/-- A port in DETECT, every lane but 15 locked. -/
def xDet : LinkPort :=
  { LinkPort.init with state := .training, phase := 1, pat := { LinkPort.init.pat with lanes := (List.range 15).map fun i => (i, lck) } }
def inj0 (kind stale : Nat) : Bytes := leBytes 1 3 ++ leBytes 1 kind ++ [4#8, 16#8] ++ leBytes 2 1024 ++ leBytes 2 64 ++ leBytes 2 stale
def mar0 : Bytes := [3#8, 15#8, 2#8, 0#8, 32#8, 224#8, 0#8, 0#8] ++ leBytes 4 1000000
def marg : Margin := { lane := 1, eye := 0, time := 0, volt := 0, ends := 5000, chan := 0, aborted := false }

/-- Witness of TestCommands: pins, patterns and checkers. -/
theorem witness_testPatterns :
    ans (.obsSet 0) (at_ sRun 0x0801 [7#8, 0x0B#8, 35#8, 15#8]) 0 0 (fun t _ => t.test.due.find 0 7 == 2000 && (t.test.sel.find .init 7).arg == 35) = true ∧
    after (.obsSelectApply 7) { sRun with test := { sRun.test with sel := [(7, ⟨2, 79, 4⟩)], due := [(7, 2000)] } }
      (fun t => t.gsc == 2000 && t.test.shown.find .init 7 == ⟨2, 79, 4⟩) = true ∧
    ans (.patternSet 0) (at_ (p3 xPat) 0x0802 (leBytes 2 0x8008 ++ [7#8, 31#8])) 0 0 (fun t _ => (t.port 3).pat.bits == 0 &&
      !((t.port 3).pat.lanes.find .init 15).locked && (t.port 15).pat.pattern == 7 && (t.port 4) == (p3 xPat).port 4) = true ∧
    ans (.patternSet 0) (at_ (running (p3 xPat)) 0x0802 (leBytes 2 8 ++ [1#8, 0#8])) 0 3 = true ∧
    ans (.patternSet 0) (at_ (running (p3 xAct)) 0x0802 (leBytes 2 8 ++ [0#8, 0#8])) 0 0 (fun t _ => (t.port 3).state == .active) = true ∧
    ans (.patternRead 0 144 [1, 9]) (at_ (p3 xPat) 0x0803 [3#8]) 0 0 (fun _ p => fld p 0 2 == 0x8001 && fld p 8 8 == 244 &&
      fld p 16 8 == 5 && fld p 136 8 == 4) = true ∧
    after (.checkerLock 3 14) (p3 xPat) (fun t => ((t.port 3).pat.lanes.find .init 14).locked) = true ∧
    after (.checkerLock 3 15) (p3 xDet) (fun t => (t.port 3).phase == 2 && (t.port 3).phaseAt == 1000 && (t.port 3).state == .training) = true ∧
    after (.checkerLockLost 3 15 144 3) (p3 xPat) (fun t => (t.port 3).pat.lanes.find .init 15 == ⟨false, 7⟩ && (t.port 3).pat.bits == 244) = true := by
  decide +kernel

/-- Witness of TestCommands: injection and margining. -/
theorem witness_inject :
    (inject.fields (inj0 3 1) = true ∧ inject.fields (inj0 0 0) = true ∧ staleOk 1 xAct.replayNs = true) ∧
    ans (.inject 0) (at_ (p3 xAct) 0x0804 (inj0 3 1)) 0 0 (fun t _ => (t.port 3).inj.any fun j => j.left == 1) = true ∧
    ans (.inject 0) (at_ (p3 xAct) 0x0804 (inj0 0 0)) 0 0 (fun t _ => (t.port 3).inj.any fun j => j.left == 1024 && j.since == 64) = true ∧
    ans (.inject 0) (at_ (p3 xPat) 0x0804 (inj0 0 0)) 0 3 = true ∧
    ans (.inject 0) (at_ (p3 { xAct with inj := some ⟨0, 0, 1, 1, 64, 64, 0⟩ }) 0x0804 (inj0 0 0)) 0 1 = true ∧
    (margin.fields mar0 = true ∧ xPat.marginable = true ∧ xAct.marginable = true) ∧
    ans (.margin 0) (at_ (p3 LinkPort.init) 0x0805 mar0) 0 3 = true ∧
    ans (.margin 0) (at_ (p3 { xAct with margin := some marg }) 0x0805 mar0) 0 1 = true ∧
    after (.margin 0) (at_ (p3 xAct) 0x0805 mar0) (fun t => (t.port 3).margin.any (fun m => m.ends == 1000001000) &&
      (t.cmdOf 0).any (fun d => d.executing)) = true ∧
    (∀ ab ∈ [true, false], (p3 { xAct with margin := some { marg with aborted := ab } }).port 3 = { xAct with margin := some { marg with aborted := ab } }) ∧
    (at_ (p3 { xAct with margin := some marg }) 0x0805 mar0).cmdOf 0 = some (cmd 0x0805 mar0) := by decide +kernel

/-- A running job at a debug stop. -/
def sStop : State :=
  let s := running sRun
  { s with pace := { s.pace with debugStop := some 0, debugNs := 30 }
           regions := (List.range 80).map fun r => (r, { Region.init with tickCount := 1 }) }

/-- Witness of TestCommands: the debug stop. -/
theorem witness_debugStop :
    sStop.debugStopped = true ∧
    ans (.debugStop 0) (at_ (running sRun) 0x0806 (leBytes 8 (2 ^ 64 - 1))) 0 0 (fun t _ => t.pace.debugStop == some (2 ^ 64 - 1)) = true ∧
    ans (.debugStop 0) (at_ (running (sSec 3 true vKey 9)) 0x0806 (zeros 136)) 0 5 = true ∧
    ans (.debugRelease 0) (at_ sStop 0x0808 []) 0 0 (fun t _ => t.pace.debugStop == none && (t.region 79).lastIssue == 1000) = true ∧
    ans (.debugRelease 0) (at_ (running sRun) 0x0808 []) 0 3 = true := by decide +kernel

/-- Witness of TestCommands: DEBUG_READ of a job that has faulted, without an owner and with an owner's authority. -/
theorem witness_debugRead :
    let b : Bytes := zeros 8 ++ leBytes 4 64
    let p := pOwn qRead 0x0807 b
    let f := fun (s : State) => { s with job := { s.job with state := .faulted } }
    let s := at_ (f sRun) 0x0807 b
    let t := at_ (f (sOwn qRead)) 0x0807 p
    (s.carries 0 0x0807 (cmd 0x0807 b) ∧ s.job.state = .faulted ∧ b.length = 12 ∧ s.sec.owner = none ∧ (debugRead s).fields b = true) ∧
    (t.carries 0 0x0807 (cmd 0x0807 p) ∧ t.job.state = .faulted ∧ p.length = 140 ∧ t.sec.owner.isSome = true ∧ (debugRead t).fields p = true ∧
      t.ownerAuth 0x0807 p = .ok) := by
  have h : ∀ (u : State) (c : Nat), 64 ≤ (u.coreSection c).length := by
    intro u c; simp only [State.coreSection, List.length_append, padTo_length]; omega
  have hf : ∀ (u : State) (d : Bytes), (zeroAt d 2 2 && 1 ≤ fld d 8 4 && fld d 8 4 ≤ 4032 && u.hasCore (fld d 0 2) && fld d 4 4 + fld d 8 4 = 64) = true →
      (debugRead u).fields d = true := by
    intro u d hd
    simp only [Bool.and_eq_true, decide_eq_true_eq] at hd
    simp only [debugRead, Bool.and_eq_true, decide_eq_true_eq]
    exact ⟨hd.1, hd.2 ▸ h u _⟩
  exact ⟨⟨carries_of (by decide +kernel), by decide +kernel, by decide +kernel, by decide +kernel, hf _ _ (by decide +kernel)⟩,
    carries_of (by decide +kernel), by decide +kernel, by decide +kernel, by decide +kernel, hf _ _ (by decide +kernel), by decide +kernel⟩

/-- AccessPort: what IDCODE shifts out, and a guarded instruction while a job runs. -/
theorem test_accessPort :
    after (.idcode (List.replicate 33 true)) sRun (fun t => t.test.jtag.tdo == ((List.range 32).map (fun k => (0x10D09C55#32).getLsbD k)) ++ [true]) = true ∧
    after (.highz [true, false]) (running sRun) (fun t => t.test.jtag == { instr := .bypass, captured := 5, cells := [], tdo := [false, true], samples := 0 }) = true ∧
    after (.clamp [true]) { sRun with job := { sRun.job with state := .idle } } (fun t => t.test.jtag.instr == .clamp && t.test.jtag.captured == 1) = true := by
  decide +kernel

/-! ### Host interface -/

/-- Firmware runs in a module whose job is in state `j`. -/
def sHost (j : JobState) : State := { sJob j with sec := { sIdle.sec with boot := .running } }
def withHost (s : State) (f : HostBlk → HostBlk) : State := { s with host := f s.host }

/-- The command buffer of channel 2 holds `b`. -/
def inBuf (s : State) (b : Bytes) : State :=
  withHost s fun h => { h with chans := h.chans.put 2 { s.chan 2 with buf := (s.chan 2).buf.write 0 b } }
def sBuf : State := inBuf (at_ (sHost .loaded) 0x0001 []) (leBytes 2 0x0406 ++ leBytes 2 0 ++ zeros 4 ++ leBytes 8 9)
def busy2 (s : State) (c : Cmd) : State := withHost s fun h => { h with chans := h.chans.put 2 { s.chan 2 with busy := true, cmd := some c } }

/-- Witness of HostFunction: doorbells behind a waiting command, on a busy channel, of an undefined opcode; a limit; the watchdog. -/
theorem witness_doorbell :
    (sBuf.deaf = false ∧ sBuf.host.order = [0] ∧ sBuf.cmdOf 0 = some (cmd 0x0001 []) ∧ opDefined 0x0001 = true ∧ (sBuf.chan 2).busy = false ∧
      (sBuf.chan 0).busy = true) ∧
    after (.mbDoorbell 2 5#32) sBuf (fun t => t.host.order == [0, 2] && (t.cmdOf 2).any fun c => c.opcode == 0x0406 && c.tag == 9#64) = true ∧
    (let s := busy2 sBuf (cmd 0x0406 [])
     (s.chan 2).busy = true ∧ after (.mbDoorbell 2 5#32) s (fun t => (t.chan 2).overrun && t.host.order == [0]) = true) ∧
    (let s := inBuf (sHost .loaded) (leBytes 2 0xFFFF)
     (s.host.order = [] ∧ opDefined (leNat ((s.chan 2).buf.read 0 2)) = false) ∧
     after (.mbDoorbell 2 5#32) s (fun t => (t.chan 2).done && (t.chan 2).resp.any fun r => r.result == 8#16) = true) ∧
    (let s := busy2 (sHost .loaded) { cmd 0x0406 [] with executing := true, doorbellGsc := 500 }
     (s.host.order = [] ∧ s.cas.loads = [] ∧ s.fab.launch = none ∧ (s.cmdOf 2).isSome = true) ∧
     after (.commandTimeout 2) s (fun t => t.gsc == 10000500 && (t.chan 2).resp.any fun r => r.result == 4#16) = true ∧
     after .mpWatchdog s (fun t => t.host.mpRestarts == 1 && (t.chan 2).resp.any fun r => r.result == 7#16) = true) := by decide +kernel

/-- A module halted by its life cycle answers no access (HostFunction, EventController, Rings, ManagementAndRegisters). -/
theorem witness_deaf :
    (let s := { sHost .loaded with sec := { sIdle.sec with boot := .halted } }
     s.deaf = true ∧ ([Instr.mbDoorbell 2 5#32, .windowAccess 0 4 none, .evlCfg 0x20#32, .rqCfg 63 0x20#32, .registerWrite false 0x33000008 4 9#64].all fun i =>
       after i s (fun t => t == s)) = true) := by decide +kernel

/-- Witness of HostFunction: the resets of the function, with and without a job under way. -/
theorem witness_resets :
    (∀ i ∈ [Instr.pcieReset, .pcieLinkLoss],
      after i (sHost .running) (fun t => t.stop.isSome && (t.job.fault == (if i = .pcieReset then 0x0C03#16 else 0x0C04#16))) = true ∧
      after i (sHost .loaded) (fun t => t.stop.isNone && t.job == (sHost .loaded).job) = true) ∧
    after (.perstN true) (sHost .loaded) (fun t => t.power.perstN) = true ∧
    after (.perstN false) { sHost .armed with power := { sIdle.power with perstN := true } } (fun t => !t.power.perstN && t.job.fault == 0x0C04#16) = true ∧
    after (.perstN false) (sHost .loaded) (fun t => t == sHost .loaded) = true := by decide +kernel

/-- Aperture 15 maps to `target`, region 3, at byte `base` × 65,536. -/
def sWin (j : JobState) (target base : Nat) : State := withHost (sHost j) fun h => { h with win := [(15, ⟨target, 3, base⟩)] }
def off15 (n : Nat) : Nat := 15 * 2 ^ 30 + n

/-- Witness of HostFunction: the window's refusals and its accesses to far memory and to the stacked store, at their bounds. -/
theorem witness_window :
    (sWin .loaded 1 0).deaf = false ∧ (sWin .loaded 1 0).power.mode = .run ∧ ((sWin .loaded 1 0).farRegion 3).size * 65536 = 67108864 ∧ ((sWin .loaded 1 0).farRegion 3).host = false ∧ (sWin .loaded 1 0).hasCore 255 = true ∧
    [(sWin .loaded 0 0, 0), (sWin .loaded 3 0, 0), (sWin .loaded 1 0, 67108864), (sWin .running 1 0, 0), (sWin .running 2 0, 0)].all (fun a =>
      after (.windowAccess (off15 a.2) 4 none) a.1 (fun t => t.host.winRefused == 1 && t.host.winData == List.replicate 4 0xFF#8) &&
      after (.windowAccess (off15 a.2) 4 (some [1#8])) a.1 (fun t => t.host.winRefused == 1)) = true ∧
    after (.windowAccess (off15 67108860) 4 (some [1#8, 2#8])) (sWin .loaded 1 0) (fun t => t.farGet 3 67108860 2 == [1#8, 2#8] && t.host.winRefused == 0) = true ∧
    after (.windowAccess (off15 67108860) 4 none) (sWin .loaded 1 0) (fun t => t.host.winData == zeros 4) = true ∧
    after (.windowAccess (off15 5) 4 (some [1#8, 2#8])) (sWin .loaded 2 0) (fun t => t.ss.read 5 2 == [1#8, 2#8]) = true ∧
    after (.windowAccess (off15 5) 2 none) { sWin .paused 2 0 with ss := [(6, 7#8)] } (fun t => t.host.winData == [0#8, 7#8]) = true := by decide +kernel

/-- Parameters of a request: four prompt tokens at host address 0x3000, completion ring 5, customer 1. -/
def par0 : ReqPar :=
  { stream := false, ring := 5, modelIx := 0, customer := 1, adapter := 0, tag := 3, seed := 0, promptAddr := 0x3000, promptLen := 4, maxNew := 8
    outAddr := 0x4000, temp := 0, topP := 0, topK := 0, stops := [], rep := 0, freq := 0, pres := 0 }
def req0 (st : ReqState) : Req :=
  { state := st, par := par0, arrival := 0, tokOff := 0, tokSize := 48, kv := none, np := 0, waitStart := 400, gscWaiting := 0, tokens := [], pen := []
    bound := none, first := none, last := none, built := false, gained := false, status := 0, stopped := false, late := false, wasActive := false
    audit := none }
def withSrv (s : State) (f : Serve → Serve) : State := { s with srv := f s.srv }

/-- Witness of HostFunction: failed DMA reads. -/
theorem witness_hostDma :
    after (.hostDma (.ring 63)) (withSrv (sHost .running) fun x => { x with rq := [(63, { ReqRing.init with enable := true })] })
      (fun t => !(t.reqRing 63).enable && (t.reqRing 63).error) = true ∧
    (let s := at_ (sHost .running) 0x0101 []
     s.cmdOf 0 = some (cmd 0x0101 []) ∧ s.host.order = [0] ∧
     after (.hostDma (.command 0)) s (fun t => (t.chan 0).resp.any fun r => r.result == 3#16 && r.fault == 0x0C05#16) = true) ∧
    after (.hostDma (.prompt 9)) (withSrv (sHost .running) fun x => { x with reqs := [(9, req0 .fetching)] })
      (fun t => (t.req 9).any fun q => q.state == .ending && q.status == stHostError) = true := by decide +kernel

/-! Event controller and event log. -/

def src (st : SourceState) : Source := { Source.init with level := 3, enable := true, modCount := 2, modTimeUs := 5, ageUs := 7, state := st, since := 100 }
def withEv (s : State) (f : Evc → Evc) : State := withHost s fun h => { h with evc := f h.evc }
def sEv (n : Nat) (x : Source) : State := withEv (sHost .running) fun e => { e with sources := [(n, x)] }

/-- Witness of EventController: doorbells, claims, completions, moderation, age, EVL_CFG. -/
theorem witness_events :
    after (.evcDoorbell 896) (sEv 5 (src .idle)) (fun t => t == sEv 5 (src .idle)) = true ∧
    after (.evcDoorbell 5) (sEv 5 (src .idle)) (fun t => (t.source 5).state == .pending) = true ∧
    after (.evcDoorbell 5) (sEv 5 { src .idle with raises := 1 }) (fun t => (t.source 5).state == .eligible) = true ∧
    after (.evcDoorbell 895) (sEv 895 (src .inService)) (fun t => (t.source 895).again && (t.source 895).state == .inService) = true ∧
    (sEv 5 (src .idle)).presented = none ∧
    ((sEv 5 (src .eligible)).presented = some (5, 3) ∧ 5 ≠ srcOrder ∧
      after .evcClaim (sEv 5 { src .eligible with raises := 4 }) (fun t => (t.source 5).claimed == 4 && t.host.evc.stack == [(5, 3)]) = true) ∧
    (∀ ag ∈ [true, false], after (.evcDone 5) (withEv (sEv 5 { src .inService with again := ag, raises := 1 }) fun e => { e with stack := [(5, 3)] })
      (fun t => (t.source 5).state == (if ag then .pending else .idle) && t.host.evc.stack == []) = true) ∧
    (let s := withEv (sEv 64 (src .inService)) fun e => { e with stack := [(64, 3)], evlEnable := true }
     (s.host.evc.evlUsed < ringSize s.host.evc.evlLog2 8 ∧ (s.host.msix.find .init s.host.evc.evlVector).masked = true) ∧
     after (.evcDone 64) s (fun t => t.host.evc.evlTail == 1) = true) ∧
    (let s := withEv (sEv 64 (src .inService)) fun e => { e with stack := [(64, 3)], evlEnable := true, evlTail := 256 }
     ringSize s.host.evc.evlLog2 8 ≤ s.host.evc.evlUsed ∧ after (.evcDone 64) s (fun t => t.host.evc.evlLost == 1) = true) ∧
    after (.evcDone 6) (withEv (sEv 5 (src .inService)) fun e => { e with stack := [(5, 3)] }) (fun t => t.host.evc.order &&
      t.host.evc.stackLog == [(5, 3)] && (t.source srcOrder).state == .eligible) = true ∧
    after (.evcModTime 5) (sEv 5 (src .pending)) (fun t => t.gsc == 5100 && (t.source 5).state == .eligible) = true ∧
    after (.evcAgePromotion 5) (sEv 5 (src .eligible)) (fun t => t.gsc == 7101 && (t.source 5).effLevel 5 t.gsc == 15) = true ∧
    after (.evlCfg 0x2C8#32) (sEv 5 (src .idle)) (fun t => !t.host.evc.evlEnable && t.host.evc.evlLog2 == 8 && t.host.evc.evlVector == 11) = true ∧
    after (.evlCfg 0x2E8#32) (withEv (sEv 5 (src .idle)) fun e => { e with resetLog := some (0x902, 7), evlHead := 4 })
      (fun t => t.host.evc.evlEnable && t.host.evc.evlTail == 1 && t.host.evc.evlHead == 0) = true := by decide +kernel

/-! Rings. -/

def ring0 : ReqRing := { ReqRing.init with enable := true, head := 0xFFFFFFF8#32, tail := 0xFFFFFFF9#32 }
def cpl0 : CplRing := { CplRing.init with base := 0x8000, enable := true, tail := 15#32, pend := 1, oldest := 900, modCount := 9, modTimeUs := 2 }
def heldE : HeldCpl := { entry := zeros 64, ends := none }
def sRing (x : ReqRing) (y : CplRing) : State := withSrv (sHost .running) fun z => { z with rq := [(63, x)], cq := [(63, y)] }

/-- Witness of Rings: producer indices at their bound, configurations, completion entries that wait, moderation. -/
theorem witness_rings :
    after (.rqTail 63 8#32) (sRing ring0 cpl0) (fun t => t.reqRing 63 == { ring0 with tail := 8#32 }) = true ∧
    after (.rqTail 63 9#32) (sRing ring0 cpl0) (fun t => (t.reqRing 63).error && !(t.reqRing 63).enable) = true ∧
    after (.rqCfg 63 0x6A#32) (sRing { ring0 with enable := false, error := true } cpl0) (fun t => t.reqRing 63 == { ReqRing.init with enable := true, log2 := 10 }) = true ∧
    after (.rqCfg 63 0x0A#32) (sRing ring0 cpl0) (fun t => t.reqRing 63 == { ring0 with enable := false }) = true ∧
    after (.cqCfg 63 0x1A8#32) (sRing ring0 cpl0) (fun t => (t.cpl 63).vector == 3 && (t.cpl 63).enable && (t.cpl 63).tail == 15#32) = true ∧
    after (.cqHead 63 15#32) (sRing ring0 cpl0) (fun t => (t.cpl 63).head == 15#32) = true ∧
    after (.cqHead 63 0#32) (sRing ring0 { cpl0 with held := [heldE] }) (fun t => (t.cpl 63).held == [] && (t.cpl 63).tail == 16#32 &&
      t.host.hostMem.read 0x83CB 1 == [0x80#8]) = true ∧
    (0xFFFFFFF8#32 - 0xFFFFFFF7#32).toNat < ringSize cpl0.log2 4 ∧ (0#32 : W32) = 0 ∧
    after (.cqArm 63 true) (sRing ring0 cpl0) (fun t => (t.cpl 63).pend == 0 && !(t.cpl 63).waiting) = true ∧
    after (.cqArm 63 true) (sRing ring0 { cpl0 with pend := 0 }) (fun t => (t.cpl 63).waiting) = true ∧
    after (.completionModerationTime 63) (sRing ring0 cpl0) (fun t => t.gsc == 2900 && (t.cpl 63).pend == 0) = true ∧
    ((sHost .running).recLocked = true ∧ (sHost .loaded).recLocked = false) ∧
    after (.recCfg 0x8225#32) { sHost .loaded with recs := { Records.init with head := 5#32, tail := 5#32 } } (fun t => t.recs.enable && t.recs.sealMs == 2 &&
      t.recs.vector == 4 && t.recs.tail == 0#32) = true ∧
    after (.recHead 5#32) (sHost .running) (fun t => t.recs.head == 5#32) = true ∧
    after (.recHead 1#32) { sHost .running with recs := { Records.init with enable := true, base := 0x9000, queue := [(false, [1#8])], tail := 4096#32 } }
      (fun t => t.recs.queue == [] && t.recs.tail == 4097#32 && t.host.hostMem.read 0x9000 1 == [1#8]) = true := by decide +kernel

/-! Registers and management ports. -/

/-- An authentic frame of type `typ` with body `b`, SEQ 7, on a module without serial number. -/
def mkFrame (s : State) (p typ : Nat) (b : Bytes) : Bytes :=
  let f := mgmtMagic ++ leBytes 1 typ ++ leBytes 1 p ++ leBytes 2 b.length ++ zeros 16 ++ leBytes 8 7 ++ b
  f ++ hmac384 s.mgmtKey f

def cmdBody (n : Nat) : Bytes := leBytes 2 0x0406 ++ leBytes 2 n ++ zeros 4 ++ leBytes 8 9 ++ List.replicate n 5#8
def noMail (s : State) : State := withHost s fun h => { h with order := [], chans := [] }

/-- Witness of ManagementAndRegisters: frames that are accepted and one that is not, a command to a busy and to a free channel. -/
theorem witness_frames :
    (let s := noMail (sHost .running)
     let hb := mkFrame s 0 1 (leBytes 8 77 ++ zeros 8)
     s.sec.boot = .running ∧ s.frameOk 0 1 (hb.take 90) (s.mgmtPort 0).seqHeartbeat = false ∧ fld hb 6 2 = 16 ∧
       after (.heartbeat 0 hb) s (fun t => (t.mgmtPort 0).hbValid && (t.mgmtPort 0).tx.any fun g => sub g 32 8 == leBytes 8 77) = true) ∧
    (let s := noMail (sHost .running)
     let cf := mkFrame s 1 3 (cmdBody 3)
     (s.host.order = [] ∧ fld cf 6 2 = 16 + 3 ∧ fld (sub cf 32 19) 2 2 = 3 ∧ opDefined 0x0406 = true ∧
       after (.commandFrame 1 cf) s (fun t => t.host.order == [9] && (t.cmdOf 9).any fun c => c.opcode == 0x0406 && c.payload == [5#8, 5#8, 5#8]) = true) ∧
     after (.commandFrame 1 cf) (withHost s fun h => { h with chans := [(9, { Channel.init with busy := true })] }) (fun t => (t.chan 9).overrun) = true) ∧
    after (.heartbeatWindow 1) (withHost (sHost .running) fun h => { h with mgmt := [(1, { MgmtPort.init with hbValid := true, hbAt := 5 })] })
      (fun t => t.gsc == 400000005 && !(t.mgmtPort 1).hbValid) = true := by decide +kernel

/-- Witness of ManagementAndRegisters: register writes, the fence timer with and without a fence, SMBus. -/
theorem witness_registers :
    after (.registerWrite true 0x20009 4 1#64) (sHost .running) (fun t => t == sHost .running) = true ∧
    after (.registerWrite true (0x20008 + 32 * 63) 4 0x6A#64) (sHost .running) (fun t => (t.reqRing 63).enable && (t.reqRing 63).log2 == 10) = true ∧
    after (.registerWrite false 0x33000008 4 0xFFFFFFFF#64) (sHost .running) (fun t => t.power.wakeBoundUs == 0xFFFFFFFF) = true ∧
    after (.registerWrite false 0x2F000004 4 0x1000000#64) { sHost .running with cas := { (sHost .running).cas with faultValid := true } }
      (fun t => !t.cas.faultValid) = true ∧
    ((sHost .running).host.hbLost = false ∧ (sHost .running).power.mode = .run ∧ (sHost .running).stop = none ∧ (sHost .running).host.fenceMs = 400) ∧
    after .fenceTimer (sHost .running) (fun t => t.gsc == 400001000 && t.job.state == .fenced && t.fab.fence == 0xFFFF) = true ∧
    after .fenceTimer (withHost (sHost .running) fun h => { h with fenceMs := 0 }) (fun t => t.host.hbLost && t.job.state == .running) = true ∧
    after .fenceTimer (withHost (sHost .running) fun h => { h with hbLost := true }) (fun t => t.gsc == 1000) = true ∧
    after (.smbusRead (0x58 + (sHost .running).power.straps) 0x01 .byte false) (sHost .running) (fun t => t.host.smbData == some [0xB1#8]) = true ∧
    after (.smbusRead 0x10 0x01 .byte false) (sHost .running) (fun t => t.host.smbData == none) = true ∧
    ((sHost .running).smbContent 0x99 = none ∧ (sHost .running).smbContent 0x01 = some (.byte, [0xB1#8]) ∧ (sHost .running).power.supply = .on) := by
  decide +kernel

/-! ### The serving engine's events and the record blocks -/

/-- A request ring with two entries from 15 on, at host address 0x10000. -/
def ring1 : ReqRing := { ReqRing.init with base := 0x10000, enable := true, head := 15#32, tail := 17#32 }
def vRing : HostView := { segs := [(0x10780, List.replicate 128 1#8), (0x10000, List.replicate 128 2#8)], bad := [] }
def sFetch : State := withSrv (sHost .running) fun x => { x with rq := [(63, ring1)], arrival := 7 }

/-- Host memory whose reads fail. -/
def badView : HostView := { segs := [], bad := [(0, 2 ^ 40)] }

/-- Witness of ServingEvents: fetches that wrap, that fail, and none. -/
theorem witness_ringFetch :
    (sFetch.fetching = true ∧ sFetch.srv.boundary = false ∧ (∀ k ∈ List.range 63, (sFetch.reqRing k).enable = false) ∧
      (∀ i ∈ [0, 1], (vRing.read (ring1.base + 128 * ((ring1.head.toNat + i) % ringSize ring1.log2 4)) 128).isSome = true)) ∧
    after (.ringFetch vRing) sFetch (fun t => t.srv.fetched == [(7, List.replicate 128 1#8), (8, List.replicate 128 2#8)] && t.srv.arrival == 9 &&
      (t.reqRing 63).head == 17#32) = true ∧
    (badView.read 0x10780 128 = none ∧ after (.ringFetch badView) sFetch (fun t => (t.reqRing 63).error && t.srv.fetched == []) = true) ∧
    ((sHost .loaded).fetching = false ∧ after (.ringFetch vRing) (sHost .loaded) (fun t => t == sHost .loaded) = true) := by decide +kernel

/-- Core 3's result queue holds unit `b` of a step 9 with two sampling rows and no token yet. -/
def sRes (b : Bytes) : State :=
  { withSrv (sHost .running) (fun x => { x with step := some ⟨9, [4, 5], []⟩ }) with
    queues := [(qKey 3 31, { Queue.init with kind := .step, stage := padTo 128 b })] }
def resB (seq base n last : Nat) : Bytes := leBytes 4 seq ++ leBytes 4 base ++ leBytes 1 n ++ leBytes 1 last ++ zeros 6 ++ leBytes 4 99 ++ leBytes 4 7

/-- Witness of ServingEvents: a result unit that stands, and those that break R293. -/
theorem witness_resultUnit :
    (let s := sRes (resB 9 0 1 0)
     (s.hasCore 3 = true ∧ s.bound 3 31 = true ∧ (s.queue 3 31).kind = .step ∧ s.multi = false) ∧
     s.resultBad (padTo 128 (resB 9 0 1 0)) = false ∧
     after (.resultUnit 3) s (fun t => t.srv.step == some ⟨9, [4, 5], [99]⟩ && (t.queue 3 31).stage == []) = true) ∧
    (∀ b ∈ [resB 8 0 1 0, resB 9 1 1 0, resB 9 0 29 0, resB 9 0 3 0],
      after (.resultUnit 3) (sRes b) (fun t => t.job.fault == 0x0701#16 && t.stop.isSome) = true) := by decide +kernel

def vPrompt (id : Nat) : HostView := { segs := [(0x3000, [1, 2, id, 3].flatMap (leBytes 4))], bad := [] }
def sFet : State := withSrv (sHost .running) fun x => { x with reqs := [(9, req0 .fetching)] }
/-- An open boundary whose stage 4 waits for room in the record ring. -/
def sHeld (w : Nat) : State :=
  { withSrv (sHost .running) fun x => { x with
      reqs := [(3, req0 .waiting), (4, { req0 .ending with wasActive := true, first := some 3 })], boundary := true, stage4 := true, work := [.finish 4]
      customers := [(1, { Customer.init with enabled := true, maxWaitUs := w })] } with recs := { Records.init with enable := false } }
def sRefill : State :=
  withSrv (sHost .running) fun x => { x with boundary := true, window := 0, customers := [(1, { Customer.init with enabled := true, refill := 6, burst := 10, balance := 5 })] }

/-- Witness of ServingEvents: prompts, an urgent request while stage 4 is held, a refill. -/
theorem witness_prompts :
    ((sFet.req 9).any (fun q => q.state = .fetching) ∧ sFet.srv.boundary = false ∧ sFet.serveCfg.vocab = 100) ∧
    after (.promptReadDone 9 (vPrompt 99)) sFet (fun t => (t.req 9).any fun q => q.state == .waiting && q.tokens == [1, 2, 99, 3]) = true ∧
    after (.promptReadDone 9 (vPrompt 100)) sFet (fun t => (t.req 9).any fun q => q.state == .ending && q.status == stBadDesc) = true ∧
    after (.promptReadDone 9 badView) sFet (fun t => (t.req 9).any fun q => q.state == .ending && q.status == stHostError) = true ∧
    after (.promptReadDone 3 noView) (sHeld 0) (fun t => t == sHeld 0) = true ∧
    (∀ w ∈ [0, 20], ((sHeld w).req 3).any (fun q => q.state = .waiting ∧ q.audit = none) ∧ (sHeld w).srv.work = [.finish 4] ∧
      ((sHeld w).req 4).any (fun z => z.built = false ∧ z.recorded = true) ∧ (sHeld w).canRecord = false ∧
      after (.requestUrgent 3) (sHeld w) (fun t => t.gsc == if w = 0 then 1000 else 20401) = true) ∧
    after (.requestUrgent 3) (withSrv (sHeld 20) fun x => { x with reqs := x.reqs.put 3 (req0 .active) }) (fun t => t.gsc == 20401) = true ∧
    (sRefill.windowNs = 1000000 ∧ sRefill.gsc / sRefill.windowNs = sRefill.srv.window ∧
      after .refillWindow sRefill (fun t => t.gsc == 1000000 && (t.srv.customers.find .init 1).balance == 10) = true) := by decide +kernel

def blk0 : Block := { seq := 4, first := 9, gsc := 500, launch := 0, drained := false, firstStep := 3, lastStep := 6, leaves := [zeros 48] }
def sBlk (f : Records → Records) : State := { sHost .running with recs := f { Records.init with enable := true, drainedTo := some 6, manifest := [1#8] } }

/-- Witness of RecordBlocks: blocks that close, that wait, that fail, and the hypotheses of one that is signed. -/
theorem witness_blocks :
    after .blockClose (sBlk fun r => { r with opened := some blk0 }) (fun t => t.gsc == 10000500 && t.recs.staged == [blk0] && t.recs.opened.isNone) = true ∧
    after .blockClose (sBlk fun r => { r with opened := some blk0, staged := List.replicate 4 blk0 }) (fun t => t.recs.closeDue && t.recs.opened.isSome) = true ∧
    after .blockClose (sBlk id) (fun t => t == sBlk id) = true ∧
    (let s := sBlk fun r => { r with staged := [{ blk0 with lastStep := 7 }] }
     s.stepDrained 7 = false ∧ after (.blockSign true true) s (fun t => t == s) = true) ∧
    (let s := sBlk fun r => { r with staged := [blk0] }
     (s.stop = none ∧ s.stepDrained 6 = true ∧ s.power.resetDue = none ∧ s.power.mode = .run ∧ s.job.state.active = true ∧ s.job.fault = 0#16 ∧
       s.recs.closeDue = false ∧ s.srv.stage4 = false ∧ s.srv.pauseAt = none ∧ s.srv.halted = false ∧ s.recs.queue = [] ∧ s.recs.room = true ∧
       (s.host.msix.find .init s.recs.vector).masked = true) ∧
     after (.blockSign true true) (sBlk fun r => { r with staged := [{ blk0 with lastStep := 7, drained := true }] }) (fun t => t.recs.staged == []) = true ∧
     after (.blockSign false true) s (fun t => t.power.resetDue == some (.moduleFatal 0x0902#16)) = true ∧
     after (.blockSign true false) s (fun t => t.job.fault == 0x0903#16 && t.recs.staged == [blk0]) = true) := by decide +kernel

/-! ### Power states, the policy cap, the sensors -/

def withPow (s : State) (f : Power → Power) : State := { s with power := f s.power }

/-- Witness of PowerStates: exits planned and done, with work to go on with, and a hint that lapses. -/
theorem witness_power :
    (let s := withPow (sHost .loaded) fun p => { p with mode := .park, exitPlan := some 9000 }
     s.power.exiting = false ∧ after .powerExitPlanned s (fun t => t.power.exiting && t.power.exitDone == 9000 + PowerMode.park.exitNs && t.power.mode == .park) = true) ∧
    after .powerExitPlanned (withPow (sHost .loaded) fun p => { p with mode := .run, exitPlan := some 9000 }) (fun t => t.gsc == 1000) = true ∧
    (let s := withPow (sHost .running) fun p => { p with mode := .park, exiting := true, exitDone := 12000 }
     (s.advanceTo s.power.exitDone).toRun.idle = false ∧
     after .powerExitDone s (fun t => t.gsc == 12000 && t.power.mode == .run && t.pace.calValid && !t.far.selfRefresh) = true) ∧
    after .powerExitDone (sHost .loaded) (fun t => t.gsc == 1000) = true ∧
    after .stepDueLapse (withPow (sHost .loaded) fun p => { p with stepDue := 3000 }) (fun t => t.gsc == 3000 && t.power.stepDue == 0) = true ∧
    after .stepDueLapse (sHost .loaded) (fun t => t.gsc == 1000) = true := by decide +kernel

def sens0 : Sensors := { junction := List.replicate 9 60, coolant := 25, pin := 900, pinAvg := 800, vin := 4800 }
def sPow (f : Power → Power) : State := withPow { sHost .loaded with power := { sIdle.power with supply := .on } } f

/-- Witness of PolicyAndSensors: the cap at its bounds, samples at theirs, a brake that ends, a converter fault. -/
theorem witness_policy :
    after .policyCap (sPow fun p => { p with policy := 1, cap := 6, tjMax := 120 }) (fun t => t.power.policyCap == 6 && t.power.policyDue == t.gsc + 1000000) = true ∧
    after .policyCap (sPow fun p => { p with tjMax := 101, thermCap := 9 }) (fun t => t.power.policyCap == 8) = true ∧
    after .policyCap (sPow fun p => { p with tjMax := 100, thermCap := 9 }) (fun t => t.power.policyCap == 9) = true ∧
    after .policyCap (sPow fun p => { p with tjMax := 95, thermCap := 9, coolMs := 9 }) (fun t => t.power.policyCap == 10) = true ∧
    after .policyCap (sPow fun p => { p with tjMax := 95, thermCap := 9, coolMs := 8 }) (fun t => t.power.policyCap == 9) = true ∧
    after .policyCap (sPow fun p => { p with tjMax := 96, thermCap := 3, requested := 4, limitArmed := true, limitMs := 999 })
      (fun t => !t.power.limitArmed && (t.source (srcOf 0x0A06)).state != .idle) = true ∧
    after .policyCap (sPow fun p => { p with tjMax := 96, thermCap := 4, requested := 4 }) (fun t => t.power.limitArmed && t.power.limitMs == 0) = true ∧
    after (.sensorSample sens0) (sPow fun p => { p with calm := 99 }) (fun t => !t.power.brake && t.power.calm == 100 && t.power.tjMax == 60) = true ∧
    after (.sensorSample { sens0 with vin := 4099 }) (sPow fun p => { p with calm := 99 }) (fun t => !t.power.brake && t.power.calm == 0) = true ∧
    [{ sens0 with junction := [60, 110] }, { sens0 with pin := 2401 }, { sens0 with pinAvg := 2101 }, { sens0 with vin := 3999 }].all (fun r =>
      after (.sensorSample r) (sPow id) fun t => t.power.brake && t.power.brakes == 1 && t.pace.gearNow == 0) = true ∧
    after (.sensorSample { sens0 with junction := [60, 120] }) (sPow id) (fun t => t.power.resetDue == some (.moduleFatal 0x0A03#16) && t.power.thermalOff) = true ∧
    after .brakeOff (sPow fun p => { p with brake := true, calm := 100 }) (fun t => !t.power.brake && t.power.policyCap == 8) = true ∧
    after .brakeOff (sPow fun p => { p with brake := true, calm := 100, policy := 1, cap := 3 }) (fun t => t.power.policyCap == 3) = true ∧
    after .brakeOff (sPow fun p => { p with brake := true, calm := 99 }) (fun t => t.power.brake) = true ∧
    after .converterFault (sPow id) (fun t => t.power.resetDue == some (.moduleFatal 0x0A04#16)) = true ∧
    after .converterFault (sPow fun p => { p with resetDue := some .secReset }) (fun t => t.power.resetDue == some .secReset) = true := by decide +kernel

/-! ### Flow units: the syndromes with numbers, for the kernel's evaluation -/

def natX (a : Nat) : Nat := Nat.xor (a * 2 % 256) (if a / 128 % 2 = 1 then 0x1D else 0)

def natMul (n : Nat) : Nat → Nat → Nat :=
  Nat.rec (motive := fun _ => Nat → Nat → Nat) (fun _ _ => 0) (fun _ r a b => Nat.xor (Nat.mul (Nat.mod b 2) a) (r (natX a) (Nat.div b 2))) n

theorem natX_eq : ∀ a : Gf, (gfX a).toNat = natX a.toNat := by decide +kernel

theorem natMul_eq : ∀ n (a b : Gf), (gfMulN n a b).toNat = natMul n a.toNat b.toNat
  | 0, _, _ => rfl
  | n + 1, a, b => by
    have h : natMul (n + 1) a.toNat b.toNat = b.toNat % 2 * a.toNat ^^^ natMul n (natX a.toNat) (b.toNat / 2) := rfl
    rw [h, gfMulN, BitVec.toNat_xor, natMul_eq n, natX_eq, BitVec.toNat_ushiftRight]
    congr 1
    have hb : b.getLsbD 0 = decide (b.toNat % 2 = 1) := by simp [BitVec.getLsbD, Nat.testBit_zero]
    rw [hb]
    by_cases h2 : b.toNat % 2 = 1
    · simp [h2]
    · have : b.toNat % 2 = 0 := by omega
      simp [this]

def natEval (p : List Nat) (x : Nat) : Nat :=
  List.rec (motive := fun _ => Nat) 0 (fun c _ r => Nat.xor c (natMul 8 x r)) p

theorem natEval_eq (x : Gf) : ∀ p : List Gf, (gfEval p x).toNat = natEval (p.map BitVec.toNat) x.toNat
  | [] => rfl
  | c :: p => by
    have h : natEval ((c :: p).map BitVec.toNat) x.toNat = c.toNat ^^^ natMul 8 x.toNat (natEval (p.map BitVec.toNat) x.toNat) := rfl
    have h' : gfEval (c :: p) x = c ^^^ gfMul x (gfEval p x) := rfl
    rw [h, h', BitVec.toNat_xor, gfMul, natMul_eq, natEval_eq x p]

def natGood (r : List Gf) : Bool := (List.range 8).all fun i => natEval (r.reverse.map BitVec.toNat) (gfAlpha i).toNat == 0

theorem rsCorrect_good {r : List Gf} (h : natGood r = true) : rsCorrect r = some (r, 0) := by
  have : (rsSyndromes r).all (fun x => x == 0#8) = true := by
    simp only [rsSyndromes, List.all_map, natGood, List.all_eq_true, Function.comp, beq_iff_eq] at h ⊢
    intro i hi
    apply BitVec.eq_of_toNat_eq
    rw [natEval_eq]; exact h i hi
  simp [rsCorrect, this]

theorem rsDecode_good {u : Bytes} (h : (natGood (evens 0 u) && natGood (evens 1 u)) = true) :
    rsDecode u = some ((interleave (evens 0 u) (evens 1 u)).take 272, 0) := by
  simp only [Bool.and_eq_true] at h
  simp [rsDecode, rsCorrect_good h.1, rsCorrect_good h.2]

theorem unitParse_good {pos : Nat} {u d : Bytes} {h : UnitHdr} {b : Bytes} (hg : (natGood (evens 0 u) && natGood (evens 1 u)) = true)
    (hd : (interleave (evens 0 u) (evens 1 u)).take 272 = d ∧ fld d 268 4 = unitCrc pos (d.take 268) ∧ unitHdrOf (fld d 0 12) = h ∧ sub d 12 256 = b) :
    unitParse pos u = some (h, b, 0) := by
  simp [unitParse, rsDecode_good hg, hd.1, ← hd.2.1, hd.2.2.1, hd.2.2.2]

theorem frameParse_good {u d : Bytes} (hg : (natGood (evens 0 u) && natGood (evens 1 u)) = true)
    (hd : (interleave (evens 0 u) (evens 1 u)).take 272 = d ∧
      (fld d 268 4 = (crc32c (d.take 268)).toNat && sub d 0 4 = [0x57#8, 0x4C#8, 0x54#8, 0x53#8]) = true) : frameParse u = some (d.take 268) := by
  simp only [frameParse, rsDecode_good hg, hd.1]
  rw [if_pos hd.2]

/-! ### The links -/

def hdrW (kind rseq xf : Nat) : UnitHdr :=
  { kind := kind, cls := 1, ack := 100, sbk := false, sbv := 0, rseq := rseq, dest := 77, epoch := 1, xfer := xf, half := false, e2e := 0 }
def pay1 : Bytes := 0x55#8 :: zeros 255

/-! Units at position 20, the header of R346 and a payload 0x55, their CRC and parity; a training frame of phase 4 offering WL2, port 9. -/

def uBeacon : Bytes := beBytes 13 0x440600000000a00980feff0055 ++ zeros 255 ++ beBytes 20 0x816a1c02af8548da7416b0222fd41f5e7a1b3a63
def uNew : Bytes := beBytes 13 0x440600000000a0098034120055 ++ zeros 255 ++ beBytes 20 0x71bc75e74516f26f30bc602637c2c38a79f14d3a
def uReplay : Bytes := beBytes 13 0x450600002002a0098034120055 ++ zeros 255 ++ beBytes 20 0x052e6515d4644e0f9cdb1e80907027330b0dc67c
def uIdle : Bytes := beBytes 13 0x460600000000a0098034120055 ++ zeros 255 ++ beBytes 20 0xbd8a5132db3c90d27f4a934de1f75522dd3f0380
def uVoid : Bytes := beBytes 13 0x470600002002a0098034120055 ++ zeros 255 ++ beBytes 20 0xc91841c04a4e2cb2d32dedeb4645b19bafc388c6
def uFrame : Bytes := beBytes 64 0x574c5453040109007b00000000000000000000000000000000000000000000000000000000000000000000000000000011110000000000002222000000000000 ++ zeros 204 ++ beBytes 20 0x644e559f4eb33289ac3e5b941f1b3da7809f5e4f


set_option maxRecDepth 100000 in
theorem uBeacon_parse : unitParse 20 uBeacon = some (hdrW 0 0 0xFFFE, pay1, 0) := by decide +kernel
set_option maxRecDepth 100000 in
theorem uNew_parse : unitParse 20 uNew = some (hdrW 0 0 0x1234, pay1, 0) := by decide +kernel
set_option maxRecDepth 100000 in
theorem uReplay_parse : unitParse 20 uReplay = some (hdrW 1 17 0x1234, pay1, 0) := by decide +kernel
set_option maxRecDepth 100000 in
theorem uIdle_parse : unitParse 20 uIdle = some (hdrW 2 0 0x1234, pay1, 0) := by decide +kernel
set_option maxRecDepth 100000 in
theorem uVoid_parse : unitParse 20 uVoid = some (hdrW 3 17 0x1234, pay1, 0) := by decide +kernel
set_option maxRecDepth 100000 in
theorem uFrame_parse : frameParse uFrame = some (uFrame.take 268) := by decide +kernel

def xUp : LinkPort := { LinkPort.init with state := .active, modeNow := 1, txPos := 100, rxPos := 20 }
def sPt (j : JobState) (x : LinkPort) : State := { sHost j with ports := [(3, x)] }
def u0 (c : Nat) : LUnit := { cls := c, dest := 77, epoch := 1, xfer := 0x1234, half := false, e2e := 0, data := [1#8] }
def it0 : TxItem := { unit := u0 1, src := .own, seg := 0, tid := 0 }
def hold3 (n : Nat) : Hold := { pos := 60, unit := u0 1, at_ := 700, count := n }

/-- Witness of LinkTransmission: what a port has to send in each case, and the cases that end in a retrain or send nothing. -/
theorem witness_transmission :
    ((sPt .running xUp).queues = [] ∧ xUp.inj = none ∧ xUp.resend = [] ∧ xUp.voidsDue = [] ∧ xUp.nakReplays = [] ∧ xUp.timerReplays = [] ∧ xUp.txq = []) ∧
    after (.unitTime 3) (sPt .running { xUp with state := .down }) (fun t => t == sPt .running { xUp with state := .down }) = true ∧
    (let s := sPt .running { xUp with txq := [it0] }
     (s.port 3).txq = [it0] ∧ it0.unit.e2e = 0 ∧ it0.src = .own ∧ it0.unit.cls < 4 ∧ s.mayLeave 3 1 = true ∧ cellFits xUp.out 1 = true ∧ (s.port 3).bufUsed < 1024) ∧
    ((hold3 7).count < 8 ∧ (sPt .running { xUp with nakReplays := [60, 61], replayBuf := [hold3 7] }).port 3 =
      { xUp with nakReplays := [60, 61], replayBuf := [hold3 7] } ∧ [hold3 7].find? (fun y => y.pos = 60) = some (hold3 7)) ∧
    after (.unitTime 3) (sPt .running { xUp with nakReplays := [60], replayBuf := [hold3 8] }) (fun t => (t.port 3).state == .retraining && (t.port 3).retrains == 1) = true ∧
    (∀ y ∈ [(⟨60, false, 7⟩ : SentPos)], y.pos = 60 → y.voids < 8) ∧
    after (.unitTime 3) (sPt .running { LinkPort.init with state := .training, phase := 1, x8Test := true }) (fun t => (t.port 3).wire.length == 8) = true ∧
    (sPt .running { LinkPort.init with state := .training, phase := 2 }).port 3 = { LinkPort.init with state := .training, phase := 2 } := by decide +kernel

/-- Position 17 is not resolved, and 18, at hand, waits for it. -/
def xBad : LinkPort := { xUp with bad := [17], held := [(18, u0 1, true)] }
def xBads : LinkPort := { xUp with bad := [15, 17], held := [(18, u0 1, true)] }
def withFabric (s : State) (f : Fabric → Fabric) : State := { s with fab := f s.fab }
def sAddr (a : Nat) (x : LinkPort) : State :=
  withFabric (sPt .running x) fun b => { b with addr := a, addrValid := true, banks := [(1, { bk with state := .active })] }

/-- Witness of LinkReception: a unit that is not good, and each good one with what its clause asks for. -/
theorem witness_reception :
    ((sPt .running xUp).power.mode ≠ .park ∧ unitParse 20 [] = none ∧
      after (.uncorrectableUnit 3 []) (sPt .running { xUp with badRun := 62 }) (fun t => (t.port 3).bad == [20] && (t.port 3).naksDue == [20]) = true ∧
      after (.uncorrectableUnit 3 []) (sPt .running { xUp with badRun := 63 }) (fun t => (t.port 3).state == .retraining && (t.port 3).lastCause == 2) = true) ∧
    (nearPos xUp.txPos (hdrW 0 0 0x1234).ack = some 100 ∧ xUp.bad = [] ∧ xUp.held = []) ∧
    (cellFits xBad.cells 1 = true ∧ (∀ k ∈ xBad.bad, 17 ≤ k) ∧ (∀ y ∈ xBad.held, 17 ≤ y.1) ∧ xBad.rxPos + 1 - 17 ≤ 16384) ∧
    (let s := sAddr 77 xUp
     s.fenced 3 = false ∧ s.maintOnly 3 = false ∧ (s.bank 1).state = .active ∧ s.fab.addrValid = true ∧ (hdrW 0 0 0xFFFE).dest = s.fab.addr ∧ s.expected 0xFFFE = none) ∧
    (let s := sAddr 70 xUp
     (hdrW 0 0 0x1234).dest ≠ s.fab.addr ∧ s.egress 1 77 0x1234 1 = .port 5 ∧ s.fenced 5 = false) ∧
    (let x := { xUp with cells := [(1, 2000)] }
     cellFits x.cells 1 = false ∧ x.lastRetrain = none) ∧
    (nearPos (xUp.rxPos - 1) 17 = some 17 ∧ 17 ∈ xBads.bad ∧ 15 ∈ xBads.bad ∧ (∀ j ∈ xBads.bad, 15 ≤ j) ∧ (∀ y ∈ xBads.held, 15 ≤ y.1)) := by decide +kernel

/-- A port in phase `ph` that has seen `n` frames equal to the test's. -/
def xTr (ph n : Nat) : LinkPort := { LinkPort.init with state := .training, phase := ph, frameKey := sub uFrame 4 44, frameRun := n }

/-- Witness of LinkTraining: the timers and the limits at their values, the frames' fields. -/
theorem witness_training :
    after (.replayTimer 3 true) (sPt .running { xUp with replayBuf := [hold3 1] }) (fun t => t.gsc == 2700 && (t.port 3).timerReplays == [60]) = true ∧
    after (.replayTimer 3 true) (sPt .running { xUp with modeNow := 2, replayBuf := [hold3 1] }) (fun t => (t.port 3).wl1Next == some 60) = true ∧
    after (.replayTimer 3 false) (sPt .running { xUp with replayBuf := [hold3 1] }) (fun t => t.job.fault == 0x0506#16) = true ∧
    after (.nakRepeat 3) (sPt .running { xBad with nakAt := [(17, 100), (18, 900)] }) (fun t => t.gsc == 2100 && (t.port 3).naksDue == [17]) = true ∧
    frameParse [] = none ∧ after (.trainingFrame 3 [] true) (sPt .loaded (xTr 2 5)) (fun t => (t.port 3).frameRun == 0) = true ∧
    (let f := uFrame.take 268
     sub f 4 44 = (xTr 4 7).frameKey ∧ fld f 4 1 = 4 ∧ (xTr 4 7).choose (fld f 5 1) = 1 ∧ { xTr 4 7 with mode := 3 }.choose (fld f 5 1) = 0 ∧
       fld f 56 8 ≠ 0 ∧ (withFabric (sPt .loaded (xTr 4 7)) fun b => { b with addrValid := false }).fab.addrValid = false) ∧
    (let x := { xTr 3 7 with state := .retraining, held := [(18, u0 1, true)] }
     x.state = .retraining ∧ x.phase = 3 ∧ sub (uFrame.take 268) 4 44 = x.frameKey ∧ x.frameRun = 7 ∧ fld (uFrame.take 268) 4 1 = 4) ∧
    (∀ j ∈ [JobState.loaded, .running], ∀ st ∈ [PortState.training, .retraining],
      after (.trainingTimeout 3) (sPt j { LinkPort.init with state := st, phase := 2, phaseAt := 900, trainAt := 900 })
        (fun t => (t.port 3).state == .down && (t.job.fault == (if j = .running then 0x0501#16 else 0#16))) = true) ∧
    after (.trainingTimeout 3) (sPt .running xUp) (fun t => t.gsc == 1000) = true := by decide +kernel

/-- A WL1 port that expects SEQ `n`, and a packet of SEQ 9 (its CRC-32C written out); its CRC in steps of 51 bytes. -/
def xW1 (n : Nat) : LinkPort := { xUp with modeNow := 2, seqRx := n }
def pkt9 : Bytes := beBytes 13 0x440600002001a00980feff0055 ++ zeros 255 ++ beBytes 4 0xbea77243
theorem pkt9_crc1 : (zeros 51).foldl crcByte 0xa189e034#32 = 0x94be1b76#32 := by decide +kernel
theorem pkt9_crc2 : (zeros 51).foldl crcByte 0x94be1b76#32 = 0xb79f8334#32 := by decide +kernel
theorem pkt9_crc3 : (zeros 51).foldl crcByte 0xb79f8334#32 = 0x0c3624f3#32 := by decide +kernel
theorem pkt9_crc4 : (zeros 51).foldl crcByte 0x0c3624f3#32 = 0x7ae4e5bd#32 := by decide +kernel
theorem pkt9_crc5 : (zeros 51).foldl crcByte 0x7ae4e5bd#32 = 0xbc8d5841#32 := by decide +kernel

theorem pkt9_parse : packetParse pkt9 = some (hdrW 0 9 0xFFFE, pay1) := by
  have h : crc32c (pkt9.take 268) = 0x4372a7be#32 := by
    rw [show pkt9.take 268 = beBytes 13 0x440600002001a00980feff0055 ++ (zeros 51 ++ (zeros 51 ++ (zeros 51 ++ (zeros 51 ++ zeros 51)))) by
      decide +kernel, crc32c]
    simp only [List.foldl_append]
    rw [show (beBytes 13 0x440600002001a00980feff0055).foldl crcByte 0xFFFFFFFF#32 = 0xa189e034#32 by decide +kernel,
      pkt9_crc1, pkt9_crc2, pkt9_crc3, pkt9_crc4, pkt9_crc5]
    decide
  rw [packetParse, h]
  decide +kernel

def seg0 (n : Nat) : Seg := { tid := 0, num := 6, cls := 1, dest := 40, xfer := 0xFF01, units := [u0 1], sentAt := some 100, resends := n }
/-- A trailer of segment `n` for `len` bytes of digest `d`, from module 40; an acknowledgement with result `r`. -/
def trl (n len : Nat) (d : Bytes) : LUnit :=
  { u0 1 with e2e := 2, data := [0x57#8, 0x4C#8, 0x45#8, 0x54#8] ++ leBytes 4 40 ++ leBytes 2 0xFF01 ++ leBytes 2 n ++ leBytes 4 len ++ d }
def ack0 (r : Nat) : LUnit :=
  { u0 1 with e2e := 3, data := [0x57#8, 0x4C#8, 0x45#8, 0x41#8] ++ leBytes 4 40 ++ leBytes 2 0xFF01 ++ leBytes 2 6 ++ leBytes 4 r }
def sE2e (f : Fabric → Fabric) (x : LinkPort) : State :=
  withFabric (sPt .running x) fun b => f { b with banks := [(1, { bk with state := .active })], active := 1 }
def got : E2eRx := { xfer := 0xFF01, cls := 1, held := [it0] }
def gotBytes : Bytes := got.held.flatMap fun i => i.unit.bytes
def seen0 : E2eSeen := { src := 40, xfer := 0xFF01, cls := 1, next := 6, got := 0, whole := false, first := [] }
def answersB (t : State) (res : Nat) : Bool :=
  t.fab.trailers == [] && (t.port 5).txq.any fun i => i.unit.e2e == 3 && i.unit.dest == 40 && fld i.unit.data 12 4 == res

/-- Packets behind, ahead and expected, for any bytes that parse so. -/
theorem packets_of_parse (b : Bytes) (h : packetParse b = some (hdrW 0 9 0xFFFE, pay1)) :
    after (.wl1Packet 3 b (some 0)) (sPt .running (xW1 10)) (fun t => (t.port 3).seqRx == 10 && (t.port 3).count.find 0 11 == 1) = true ∧
    after (.wl1Packet 3 b (some 0)) (sPt .running (xW1 8)) (fun t => (t.port 3).naksDue == [8]) = true ∧
    after (.wl1Packet 3 b (some 0)) (sAddr 77 (xW1 9)) (fun t => t.fab.beacons.any (fun b => b.port == 3 && b.data == pay1) && (t.port 3).seqRx == 10) = true := by
  refine ⟨?_, ?_, ?_⟩ <;> simp only [after, exec, execWl1Packet, h] <;> decide +kernel

/-- Witness of PacketsAndSegments: packets behind, ahead and expected. -/
theorem witness_packets :
    after (.wl1Packet 3 [] none) (sPt .running { xW1 9 with badRun := 62 }) (fun t => (t.port 3).naksDue == [9] && (t.port 3).badRun == 63) = true ∧
    packetParse pkt9 = some (hdrW 0 9 0xFFFE, pay1) ∧
    after (.wl1Packet 3 pkt9 (some 0)) (sPt .running (xW1 10)) (fun t => (t.port 3).seqRx == 10 && (t.port 3).count.find 0 11 == 1) = true ∧
    after (.wl1Packet 3 pkt9 (some 0)) (sPt .running (xW1 8)) (fun t => (t.port 3).naksDue == [8]) = true ∧
    after (.wl1Packet 3 pkt9 (some 0)) (sAddr 77 (xW1 9)) (fun t => t.fab.beacons.any (fun b => b.port == 3 && b.data == pay1) && (t.port 3).seqRx == 10) = true :=
  ⟨by decide +kernel, pkt9_parse, packets_of_parse pkt9 pkt9_parse⟩

/-- Witness of PacketsAndSegments: a segment that ends whole, with another length or digest, and with nothing held. -/
theorem witness_trailers :
    (let s := sE2e (fun b => { b with e2eRx := [got], e2eSeen := [seen0] }) xUp
     (s.ownPort 2 40 0xFF01 1 = some (.inl 5) ∧ s.e2eRxOf 0xFF01 1 = got ∧ s.e2eSeenOf 40 0xFF01 1 = seen0) ∧
     [(trl 6 gotBytes.length (sha384 gotBytes), 0), (trl 5 9 [], 0), (trl 6 gotBytes.length (zeros 48), 1), (trl 7 2 [], 2), (trl 6 3 [], 2)].all (fun e =>
       after .e2eTrailer (withFabric s fun b => { b with trailers := [e.1] }) fun t => answersB t e.2) = true) := by
  decide +kernel

/-- Witness of PacketsAndSegments: acknowledgements and the end-to-end timer. -/
theorem witness_segments :
    after .e2eTrailer (sE2e id xUp) (fun t => t.gsc == 1000) = true ∧
    (let s := fun (r n : Nat) => sE2e (fun b => { b with acks := [ack0 r] }) { xUp with segs := [seg0 n] }
     (∀ k ∈ List.range 16, k ≠ 3 → ((s 0 0).port k).segs = []) ∧
     after .e2eAcknowledgement (s 0 0) (fun t => (t.port 3).segs == []) = true ∧
     after .e2eAcknowledgement (s 2 3) (fun t => (t.port 3).segs == [{ seg0 4 with sentAt := none }] && (t.port 3).txq.length == 1) = true) ∧
    (let g := { seg0 0 with cls := 3 }
     let s := fun (b : Bank) => withFabric (sE2e (fun f => { f with acks := [{ ack0 1 with cls := 3 }] }) { xUp with segs := [g] }) fun f =>
       { f with banks := [(1, b)] }
     after .e2eAcknowledgement (s Bank.init) (fun t => (t.port 3).segs.all (fun g => g.resends == 1) && (t.port 3).segs.length == 1) = true) ∧
    after (.e2eTimeout 3) (sPt .running { xUp with segs := [seg0 3] }) (fun t => t.gsc == 20100 && (t.port 3).segs == [{ seg0 4 with sentAt := none }]) = true ∧
    after (.e2eTimeout 3) (sPt .running { xUp with segs := [seg0 4] }) (fun t => t.job.fault == 0x0502#16 && (t.port 3).segs == []) = true ∧
    after (.e2eTimeout 3) (sPt .running { xUp with segs := [{ seg0 4 with cls := 3 }] }) (fun t => t.job.fault == 0#16 && (t.port 3).segs == []) = true := by
  decide +kernel

/-! ### The fabric's events -/

def im2 : Image := { im1 with moduleCount := 3 }
/-- A module of a job of three modules at address 70, rank 1; port 5 leads to the lead, at address 200. -/
def sFab (j : JobState) (f : Fabric → Fabric) : State :=
  { sPt j LinkPort.init with
    image := some im2, ports := [(5, { xUp with delayPs := 500, peerAddr := 200, peerPort := 2, peerValid := true })]
    fab := f { sIdle.fab with addr := 70, leadAddr := 200, moduleCount := 3, rank := 1, banks := [(0, { bk with state := .active, pod := [(3, 5)] })] } }
def bcn (at_ : Nat) (fresh : Bool) : BeaconRx := { port := 5, at_ := at_, fresh := fresh, data := beaconBytes 200 3 900 0 }

/-- Witness of Beacons: the lead's period, beacons used, not used, and late, a period without any. -/
theorem witness_beacons :
    (let s := { sFab .running (fun f => { f with lead := true, beaconDue := 5000 }) with ports := [] }
     s.image.isSome = true ∧ after .beaconPeriod s (fun t => t.gsc == 5000 && t.fab.beaconSeq == 1) = true) ∧
    after .beaconPeriod (sFab .running id) (fun t => t.gsc == 1000) = true ∧
    ((sFab .running id).parentPort = some 5 ∧ fld (bcn 901 true).data 4 4 = 200 ∧ sub (bcn 901 true).data 0 4 = [0x57#8, 0x4C#8, 0x47#8, 0x42#8]) ∧
    after .beacon (sFab .running fun f => { f with beacons := [bcn 901 true], good := 7 }) (fun t => t.fab.offsetPs == 500 && t.fab.aligned && t.gsc == 1000) = true ∧
    after .beacon (sFab .running fun f => { f with beacons := [bcn 904 true], good := 8 }) (fun t => t.fab.offsetPs == 3500 && !t.fab.aligned) = true ∧
    after .beacon (sFab .running fun f => { f with beacons := [bcn 901 true], good := 7, slewOnly := true })
      (fun t => !t.fab.slewOnly && t.fab.slewLeft == -500000) = true ∧
    after .beacon (sFab .loaded fun f => { f with slewOnly := true, beacons := [{ bcn 901 true with data := beaconBytes 200 3 9000 0 }] })
      (fun t => t.gsc == 1000 && t.fab.slewOnly && t.fab.slewLeft == 8099500000) = true ∧
    after .beacon (sFab .loaded fun f => { f with beacons := [{ bcn 901 true with data := beaconBytes 200 3 9000 0 }] })
      (fun t => t.gsc == 9099 && t.fab.good == 0) = true ∧
    after .beacon (sFab .running fun f => { f with beacons := [bcn 901 false] }) (fun t => t.fab.beacons.isEmpty && t.fab.offsetPs == 0) = true ∧
    ((sFab .running id).multi = true ∧ (sFab .running id).job.fault = 0#16 ∧ (sFab .running id).power.mode = .run ∧
      after .gscUnsync (sFab .running fun f => { f with beaconAt := 400 }) (fun t => t.job.fault == 0x0603#16 && t.gsc == 1000400) = true) ∧
    after .gscUnsync (sFab .loaded id) (fun t => t.gsc == 1000) = true := by decide +kernel

def sLead (l : Launch) : State :=
  let s := sFab .armed fun f => { f with lead := true, rank := 0, launch := some l }
  { s with host := { s.host with chans := [(0, { Channel.init with busy := true, cmd := some { cmd 0x0104 (leBytes 8 0) with executing := true } })] } }
def la (acc : List Nat) : Launch := { at_ := 50000, chan := 0, accepted := acc, answered := false }

/-- Witness of LaunchAndStop: launch units accepted and refused, answers and their absence, a job stop. -/
theorem witness_launchAndStop :
    (let s := sFab .armed fun f => { f with aligned := true, ranksDigest := [2#8] }
     after (.launchUnit 11000 im2.digest s.recs.manifestDigest [2#8]) s (fun t => t.fab.startAt == some 11000 && t.fab.sent == [(0, .answer true)]) = true ∧
     after (.launchUnit 10999 im2.digest s.recs.manifestDigest [2#8]) s (fun t => t.fab.startAt == none && t.fab.sent == [(0, .answer false)]) = true) ∧
    after (.launchUnit 11000 [] [] []) (sLead (la [])) (fun t => t == sLead (la [])) = true ∧
    ((sLead (la [])).otherRanks = [1, 2] ∧ (sLead (la [])).fab.launch = some (la []) ∧ (sLead (la [])).power.mode = .run ∧
      (sLead (la [])).job.state.active = true ∧ (sLead (la [])).job.fault = 0#16) ∧
    after (.launchAck 2 true) (sLead (la [])) (fun t => t.fab.launch == some (la [2])) = true ∧
    after (.launchAck 2 true) (sLead (la [1])) (fun t => (t.chan 0).resp.any fun r => r.result == 0#16 && r.payload == leBytes 8 50000) = true ∧
    after (.launchAck 2 false) (sLead (la [1])) (fun t => t.fab.launch.isNone && t.job.fault == 0x0604#16) = true ∧
    after .launchFailed (sLead (la [1, 2])) (fun t => t.gsc == 1000 && t.fab.launch.isSome) = true ∧
    after .launchFailed (sLead (la [1])) (fun t => t.gsc == 45000 && (t.chan 0).resp.any fun r => r.result == 3#16 && r.fault == 0x0604#16) = true ∧
    after .launchFailed (sFab .running id) (fun t => t == sFab .running id) = true ∧
    after (.jobStopUnit 2 0x0701) (sFab .running id) (fun t => t.job.fault == 0x0701#16 && t.job.faultRank == 2#32 && t.stop.isSome) = true ∧
    after (.jobStopUnit 2 0x0701) (sFab .loaded id) (fun t => t == sFab .loaded id) = true := by decide +kernel

def stepQ : Queue := { Queue.init with kind := .step }
def desc (n : Nat) : Bytes := leBytes 8 n ++ zeros 8

/-- Witness of StepsAndBanks: reports that clear a step and that do not, a clear, descriptors, a switch, a bank that is drained. -/
theorem witness_stepsAndBanks :
    (let s := sFab .running fun f => { f with lead := true, rank := 0, reports := [(0, 4), (1, 3), (2, 3)] }
     after (.stepDrained 2 5) s (fun t => t.fab.reports.find 0 2 == 6 && t.fab.clearStep == some 2) = true ∧
     after (.stepDrained 2 5) (sFab .running id) (fun t => t == sFab .running id) = true) ∧
    after (.stepClear 8) (sFab .running fun f => { f with clearStep := some 9 }) (fun t => t.fab.clearStep == some 9) = true ∧
    after (.stepClear 8) (sFab .loaded id) (fun t => t == sFab .loaded id) = true ∧
    (let s := { sFab .running id with queues := [(qKey 3 31, stepQ)] }
     (s.srv.changes = [] ∧ s.cas.loads = [] ∧ s.cas.unloads = [] ∧ Map.sorted s.queues = true ∧ s.bound 3 31 = true) ∧
     after (.leadStepDescriptor (desc 6)) s (fun t => t.srv.stepSeq == 7 && (t.queue 3 31).land == [(1, desc 6)]) = true ∧
     after (.leadStepDescriptor (desc (2 ^ 64 - 1))) s (fun t => t.srv.paused) = true) ∧
    after (.leadStepDescriptor (desc 6)) (sFab .loaded id) (fun t => t == sFab .loaded id) = true ∧
    (∀ a ∈ [0, 1], let s := sFab .running fun f => { f with active := a, switchDue := true, switchAt := 7000, banks := [(a, { bk with state := .active }), (1 - a, bk)] }
     after .epochSwitch s (fun t => t.gsc == 7000 && t.fab.active == 1 - a && (t.bank a).state == .draining && (t.bank (1 - a)).state == .active) = true) ∧
    after .epochSwitch (sFab .running id) (fun t => t.gsc == 1000) = true ∧
    (let s := sFab .running fun f => { f with banks := [(1, { bk with state := .draining })] }
     s.drain 1 = 0 ∧ after (.bankDrained 1) s (fun t => (t.bank 1).state == .retired) = true) ∧
    (let s := { sFab .running fun f => { f with banks := [(1, { bk with state := .draining })] } with ports := [(5, { xUp with txq := [it0] })] }
     s.drain 1 = 1 ∧ after (.bankDrained 1) s (fun t => t == s) = true) := by decide +kernel

/-! ### Reset and supply -/

/-- Witness of ModuleReset: a fault's reset, a SEC_RESET, one by heat, a restart, and nothing due. -/
theorem witness_reset :
    (let s := withPow (sHost .running) fun p => { p with resetDue := some (.moduleFatal 0x902#16) }
     after .moduleFatalReset s (fun t => t.job.state == .idle && t.image.isNone && t.host.evc.resetLog == some (0x902, 1000) && t.gsc == 1000) = true ∧
     after .moduleFatalReset (withPow s fun p => { p with thermalOff := true }) (fun t => t.sec.boot == .thermalOff) = true) ∧
    after .moduleFatalReset (withPow (sHost .loaded) fun p => { p with resetDue := some .secReset }) (fun t => t.power.lastResetKind == 2) = true ∧
    after .moduleFatalReset (sHost .loaded) (fun t => t == sHost .loaded) = true ∧
    after .thermalRestart (sHost .loaded) (fun t => t == sHost .loaded) = true ∧
    (let s := withPow (sHost .loaded) fun p => { p with coldSince := some 300 }
     after .thermalRestart { s with sec := { s.sec with boot := .thermalOff } } (fun t => t.gsc == 10000000300 && !t.power.thermalOff) = true) := by decide +kernel

/-- The same of a reset that firmware follows, and of a power-on with each outcome of the boot ROM. -/
theorem witness_boot :
    (let s := withPow { sFw none 7 with sec := { (sFw none 7).sec with fw := fwImg } } fun p => { p with resetDue := some (.moduleFatal 0x902#16) }
     (s.power.thermalOff = false ∧ s.sec.fuses.lc = 3 ∧ s.sec.fw = fwImg) ∧ s.fwCheck s.sec.fw = 0) ∧
    (let s := { sFw none 7 with sec := { (sFw none 7).sec with fw := fwImg, boot := .rom } }
     (s.power.supply = .on ∧ s.sec.boot = .rom) ∧ s.fwCheck s.sec.fw = 0) ∧
    after (.powerOnReset 2#2) State.reset (fun t => t.power.straps == 2 && t.sec.boot == .recovery && t.sec.recCause == 5) = true ∧
    (∀ lc ∈ [1, 4, 5], after (.powerOnReset 0#2) { State.reset with sec := { State.reset.sec with fuses := { State.reset.sec.fuses with lc := lc } } }
      (fun t => t.sec.boot == (if lc = 5 then .halted else .recovery)) = true) :=
  ⟨⟨by decide +kernel, fw_ok (by decide +kernel)⟩, ⟨by decide +kernel, fw_ok (by decide +kernel)⟩, by decide +kernel, by decide +kernel⟩

/-- Witness of PowerSequence: PWR_EN and the input in each state of the supply, a tamper. -/
theorem witness_supply :
    (let s := fun (en : Bool) (w : Supply) => withPow (sHost .running) fun p => { p with pwrEn := en, supply := w }
     after .pwrEnRise (s false .off) (fun t => t.power.supply == .on && t.gsc == 0 && t.sec.boot == .rom) = true ∧
     after .pwrEnRise (s false .lockedOut) (fun t => t.power.pwrEn && t.power.supply == .lockedOut) = true ∧
     after .pwrEnRise (s true .on) (fun t => t == s true .on) = true ∧
     after .pwrEnFall (s true .on) (fun t => t.power.supply == .off && t.image.isNone) = true ∧
     after .pwrEnFall (s true .lockedOut) (fun t => !t.power.pwrEn && t.power.supply == .lockedOut) = true ∧
     after .pwrEnFall (s false .off) (fun t => t == s false .off) = true ∧
     (∀ i ∈ [Instr.undervoltageLockout, Instr.overvoltageLockout], after i (s true .on) (fun t => t.power.supply == .lockedOut && t.image.isNone) = true ∧
       after i (s false .off) (fun t => t == s false .off) = true) ∧
     after .vinTurnOn (s true .lockedOut) (fun t => t.power.supply == .on) = true ∧
     after .vinTurnOn (s false .lockedOut) (fun t => t.power.supply == .off) = true ∧
     after .vinTurnOn (s true .on) (fun t => t == s true .on) = true ∧
     after (.powerOnReset 0#2) (s true .on) (fun t => t == s true .on) = true) ∧
    (∀ c ∈ [1, 4], after (.tamperDetection c) (withPow (sHost .running) fun p => { p with supply := .on }) (fun t => t.sec.fuses.ownerEpoch == 1 &&
      t.power.resetDue == some (.moduleFatal 0x0901#16) && t.sec.tamperDue == some (c, 1000)) = true) := by decide +kernel

/-! ### Slot words and legal fields -/

/-- R127, R129, R130: CT words written out field by field: OP, PRED, PN, then SD, SA, I, U, SB or the immediate. -/
theorem test_ctWords :
    decodeCt 0 = some (⟨0#3, false⟩, .nop) ∧
    decodeCt 0b000010_001_1_11111_00010_1_0_11_1111_1111_1111_1111_1111_1111 = some (⟨1#3, true⟩, .add ⟨31#5, 2#5, .imm 0x3FFFFFF#26, false⟩) ∧
    decodeCt 0b000010_000_0_00011_00001_0_0_00010_000000000000000000001 = none ∧ decodeCt (0b111111 * 2 ^ 42) = none := by decide +kernel

/-- R129, R139, R142, R155, R170, R177: a word of each other slot, its opcode field one that no table defines, and a reserved bit set. -/
theorem test_otherWords :
    (∀ f ∈ [decodeLs (31 * 2 ^ 35) |>.isNone, decodeMx (31 * 2 ^ 35) |>.isNone, decodeVx (63 * 2 ^ 42) |>.isNone, decodeMv (31 * 2 ^ 35) |>.isNone,
      decodeQx (31 * 2 ^ 35) |>.isNone], f = true) ∧
    decodeMv 0b00100_000_0_101_0011_000000000000000000000001 = none ∧ decodeQx 0b00011_000_0_110_0000000000000000000000000001 = none ∧
    decodeLs 0 = some (⟨0#3, false⟩, .nop) ∧ decodeMx 0 = some (⟨0#3, false⟩, .nop) ∧ decodeVx 0 = some (⟨0#3, false⟩, .nop) ∧
    decodeMv 0 = some (⟨0#3, false⟩, .nop) ∧ decodeQx 0 = some (⟨0#3, false⟩, .nop) := by decide +kernel

/-- What R129, R93 and R139 name as illegal. -/
theorem test_illegalCtLs :
    (CtOp.wf (.add ⟨3#5, 1#5, .reg 2#5, true⟩) = false ∧ CtOp.wf (.sub ⟨3#5, 1#5, .reg 2#5, true⟩) = false ∧
      CtOp.wf (.mul ⟨3#5, 1#5, .reg 2#5, true⟩) = false ∧ CtOp.wf (.min ⟨3#5, 1#5, .reg 2#5, true⟩) = true) ∧
    CtOp.wf (.cmp ⟨1#3, 2#5, 7#3, .reg 3#5⟩) = false ∧ CtOp.wf (.param ⟨3#5, 12#6⟩) = false ∧ CtOp.wf (.param ⟨3#5, 11#6⟩) = true ∧
    LsOp.wf (.vld ⟨5#6, 2#4, 3#4, 3#2, 0#15⟩) = false ∧ LsOp.wf (.vst ⟨5#6, 2#4, 1#4, 0#2, 0#15⟩) = false ∧
    LsOp.wf (.sld ⟨5#5, 2#4, 2#4, 1#2, 0#15⟩) = false ∧ LsOp.wf (.sst ⟨5#5, 2#4, 2#4, 1#2, 0#15⟩) = false := by decide +kernel

def mout0 : MoutF := { acc := 0#2, row0 := 0#6, n := 0#6, dst := true, fmt := 0#4, rm := 0#2, d := 3#6, pitch := 2#4 }

/-- What R74, R143, R146, R147, R149 to R151 name as illegal. -/
theorem test_illegalMx :
    (MxOp.wf false (.mcfg ⟨1#3, 2#3, 0#4, 0#4, 0#4, 0#4⟩) = true ∧ MxOp.wf false (.mcfg ⟨5#3, 6#3, 0#4, 0#4, 0#4, 0#4⟩) = false ∧
      MxOp.wf false (.mcfg ⟨0#3, 0#3, 0#4, 0#4, 0#4, 0#4⟩) = false) ∧
    MxOp.wf false (.mma ⟨1#2, .imm 0#16⟩) = false ∧ MxOp.wf false (.mmag ⟨1#2, 2#6, .imm 0#16⟩) = false ∧
    MxOp.wf false (.mout mout0) = true ∧ MxOp.wf false (.mout { mout0 with row0 := 1#6 }) = false ∧
    MxOp.wf false (.mout { mout0 with fmt := 8#4 }) = false ∧ MxOp.wf true (.mout { mout0 with fmt := 8#4 }) = true ∧
    MxOp.wf true (.mout { mout0 with fmt := 9#4 }) = false ∧ MxOp.wf false (.mout { mout0 with rm := 3#2 }) = false ∧
    MxOp.wf false (.mout { mout0 with d := 16#6 }) = false ∧
    MxOp.wf false (.mout { mout0 with dst := false, pitch := 0#4 }) = false ∧
    MxOp.wf false (.mout { mout0 with dst := false, n := 61#6, pitch := 0#4 }) = true ∧
    MxOp.wf false (.mout { mout0 with dst := false, n := 61#6, pitch := 1#4 }) = false ∧
    MxOp.wf false (.mout { mout0 with dst := false, n := 61#6, pitch := 0#4, fmt := 6#4 }) = false := by decide +kernel

def lane0 : LaneF := { vd := 1#6, va := 2#6, vb := 3#6, vc := 0#6, t := 0#2, cond := 0#3, pd := 0#3 }
def cvt0 : CvtF := { vd := 1#6, va := 2#6, sf := 0#4, df := 0#4, rm := 0#2, sk := 0#5, sp := 0#5, ss := 0#5 }
def shuf0 : ShufF := { vd := 1#6, va := 2#6, vb := 0#6, mode := 1#2, ln := 4#6, sa := 0#5 }
def topk0 : TopkF := { vd := 0#6, va := 0#6, vb := 0#6, skip := false, sa := 0#5 }

/-- What R158 to R169 name as illegal. -/
theorem test_illegalVx :
    (VxOp.wf (.vadd lane0) = true ∧ VxOp.wf (.vadd { lane0 with t := 2#2 }) = false ∧ VxOp.wf (.vadd { lane0 with vc := 1#6 }) = false ∧
      VxOp.wf (.vadd { lane0 with cond := 1#3 }) = false ∧ VxOp.wf (.vmul { lane0 with pd := 1#3 }) = false ∧
      VxOp.wf (.vfma { lane0 with t := 2#2 }) = false ∧ VxOp.wf (.vmin { lane0 with t := 3#2 }) = false ∧ VxOp.wf (.vsel { lane0 with t := 1#2 }) = false ∧
      VxOp.wf (.vcmp { lane0 with cond := 6#3 }) = false ∧ VxOp.wf (.vcmp { lane0 with cond := 5#3, t := 2#2 }) = true) ∧
    (VxOp.wf (.vshuf shuf0) = true ∧ VxOp.wf (.vshuf { shuf0 with vb := 1#6 }) = false ∧ VxOp.wf (.vshuf { shuf0 with mode := 2#2 }) = false ∧
      VxOp.wf (.vshuf { shuf0 with sa := 1#5 }) = false) ∧
    (VxOp.wf (.vred ⟨1#6, 2#6, 3#2, 0#2⟩) = false ∧ VxOp.wf (.vred ⟨1#6, 2#6, 0#2, 2#2⟩) = false) ∧
    (VxOp.wf (.vcvt cvt0) = true ∧ VxOp.wf (.vcvt { cvt0 with df := 6#4 }) = false ∧ VxOp.wf (.vcvt { cvt0 with sf := 9#4 }) = false ∧
      VxOp.wf (.vcvt { cvt0 with sf := 6#4, df := 1#4 }) = false ∧ VxOp.wf (.vcvt { cvt0 with rm := 3#2 }) = false) ∧
    (VxOp.wf (.vqnt { cvt0 with sf := 6#4 }) = true ∧ VxOp.wf (.vqnt cvt0) = false ∧ VxOp.wf (.vqnt { cvt0 with sf := 7#4, df := 1#4 }) = false ∧
      VxOp.wf (.vqnt { cvt0 with sf := 7#4, rm := 3#2 }) = false) ∧
    VxOp.wf (.vfn ⟨1#6, 2#6, 7#3⟩) = false ∧
    (VxOp.wf (.topkInit { topk0 with vd := 1#6 }) = false ∧ VxOp.wf (.topkInit { topk0 with skip := true }) = false ∧
      VxOp.wf (.topkMerge { topk0 with vd := 1#6 }) = false ∧ VxOp.wf (.topkMerge { topk0 with sa := 1#5 }) = false ∧
      VxOp.wf (.topkRead { topk0 with va := 1#6 }) = false ∧ VxOp.wf (.topkRead { topk0 with vd := 63#6 }) = false) := by decide +kernel

/-- What R172 to R174 name as illegal, and R128: such an instruction raises ILLEGAL_ENCODING in a core. -/
theorem test_illegalMv :
    (MvOp.wf (.ssr ⟨0#3, false, 1#4, 2#4, 0#8⟩) = false ∧ MvOp.wf (.ssr ⟨7#3, false, 1#4, 2#4, 0#8⟩) = false ∧
      MvOp.wf (.ssr ⟨2#3, true, 1#4, 2#4, 9#8⟩) = false ∧ MvOp.wf (.ssr ⟨2#3, false, 1#4, 2#4, 9#8⟩) = false) ∧
    (MvOp.wf (.ssw ⟨4#3, false, 1#4, 2#4, 0#8⟩) = false ∧ MvOp.wf (.ssw ⟨3#3, false, 1#4, 2#4, 0#8⟩) = true ∧
      MvOp.wf (.ssw ⟨2#3, true, 1#4, 2#4, 9#8⟩) = false) ∧
    MvOp.wf (.mrecv 6#3 1#4) = false ∧ MvOp.wf (.mrecv 5#3 1#4) = true ∧
    SlotOp.wf false (.mv on (.mrecv 7#3 1#4)) = false ∧ SlotOp.wf false (.qx on .nop) = true := by decide +kernel

/-- An error that arises lets no time pass. -/
theorem upsets_gsc (l : List Config.Upset) (s : State) : (l.foldl State.upset s).gsc = s.gsc := by
  have one : ∀ (s : State) u, (s.upset u).gsc = s.gsc := by
    intro s u; cases u <;> simp only [State.upset, State.upsetReg] <;> split <;> rfl
  induction l generalizing s with
  | nil => rfl
  | cons u l ih => exact (ih _).trans (one s u)

/-- Witness of OnlyMissingUnitsStop: the last core and one beyond it. -/
theorem witness_missing :
    missing (.nop 255 .ct on) sRun = none ∧ after (.nop 255 .ct on) sRun (fun _ => true) = true ∧
    missing (.nop 256 .ct on) sRun = some .noSuchCore ∧ (match exec (.nop 256 .ct on) sRun with | .fault f => f == .noSuchCore | _ => false) = true := by
  decide +kernel

/-- Witness of StepRunsFront: a step runs the command in front, and the queue's rest remains; on an empty queue time passes. -/
theorem witness_step :
    (match step { sRun with pending := [.kick, .brakeOff] } with | .next t => t.power.kickAt == 1000 && t.pending == [.brakeOff] | _ => false) = true ∧
    (∃ t, step { sRun with pending := [] } = .next t ∧ t.gsc = 1001) := by
  refine ⟨by decide +kernel, _, rfl, ?_⟩
  have h : sRun.power.supply = .on := by decide +kernel
  simp only [State.nanosecond, h, if_true, upsets_gsc]
  decide +kernel

end Sys2Proof.Tests
end

/-! PROOF. TICKRD, GSCRD, PARAM and the address instructions (R50, R51, R93, R138): each is one result, visible a tick later. -/
namespace Sys2Proof.Machine

/-- A command whose row puts one result on its way at t + 1, and nothing else: when its instruction issues it completes, and its core
alone differs. -/
theorem completes_result {i : Instr} {s : State} {c : Nat} {op : SlotOp} {r : Reg} {v : RegVal} {slot : Nat} (h : issues s c op)
    (row : exec i s = onCore s c (issueSlot s c op none
      (s.setCore c ((s.core c).result r v (s.tickOf c + 1) (s.tickOf c) slot)))) :
    completes i s fun t => onlyCore s t c (withResult s c (s.core c) r v 1 slot) :=
  ⟨_, row.trans (row_act h rfl _), by rw [result_eq]; exact onlyCore_setCore s c _⟩

/-- A PARAM that issues names one of the twelve parameters: any other number is an illegal encoding (R93). -/
theorem param_num_lt {s : State} {c : Nat} {h : Hdr} {f : ParamF} (hi : issues s c (.ct h (.param f))) : f.num.toNat < 12 := by
  obtain ⟨_, _, legal, _, _⟩ := hi
  simpa [slotIllegal, SlotOp.wf, CtOp.wf] using legal

/-- The table of R93 with an image loaded. -/
theorem paramVal_eq_getD {s : State} {i : Image} (himg : s.image = some i) (c : Nat) {n : Nat} (hn : n < 12) :
    paramVal n c s = [c, c % 16, c / 16, s.gridW * 16, s.gridW, 16, i.moduleCount, i.rank, i.numericMode, i.lookahead, i.period,
      (s.core c).role].getD n 0 := by
  interval_cases n <;> simp [paramVal, State.coreCount, State.rank, himg]

/-- Settles O8: every form is one result on its way; PARAM's value is the entry of R93's table, its number being legal. -/
theorem countersAndAddresses : Obligations.CountersAndAddresses := by
  refine ⟨fun s c h => ⟨?tickrd, ?gscrd, ?param⟩, fun s c h => ⟨fun f => ⟨?aadd, ?asub⟩, ?ali, ?aset, ?aget⟩⟩
  case tickrd | gscrd => exact fun _ hi => completes_result hi rfl
  case param =>
    intro f i hi himg
    rw [← paramVal_eq_getD himg c (param_num_lt hi)]
    exact completes_result hi rfl
  case aadd | asub => exact fun hi => completes_result hi rfl
  case ali | aset | aget => exact fun _ _ hi => completes_result hi rfl

end Sys2Proof.Machine

/-! PROOF. The guard of a slot (R99, R124, R127, R128): legality before the predicate, and the predicate before the registers' parity. The
order of the three is log entry 44. -/
namespace Sys2Proof.Machine

/-! ### The fault of a slot, one case per guard -/

/-- Legality comes first: neither the predicate nor the instruction's own check is asked (R128). -/
theorem issueFault_of_illegal {k : Core} {exact : Bool} {op : SlotOp} (illegal : slotIllegal op k exact = true) (chk : Option Nat) :
    issueFault k exact op chk = some fIllegal := by
  simp [issueFault, illegal]

/-- A legal instruction that is not enabled raises no fault, whatever the parity of its registers (R99, R127). -/
theorem issueFault_of_disabled {k : Core} {exact : Bool} {op : SlotOp} (legal : slotIllegal op k exact = false)
    (disabled : k.enabled op.hdr = false) (chk : Option Nat) : issueFault k exact op chk = none := by
  simp [issueFault, legal, disabled]

/-- The parity of what it reads comes before the instruction's own check (log entry 44). -/
theorem issueFault_of_parity {k : Core} {exact : Bool} {op : SlotOp} (legal : slotIllegal op k exact = false)
    (enabled : k.enabled op.hdr = true) (bad : ∃ r ∈ op.reads, r ∈ k.parity) (chk : Option Nat) :
    issueFault k exact op chk = some fRegParity := by
  have reads_bad : (op.reads.any fun r => k.parity.contains r) = true := by simpa using bad
  rw [issueFault, legal, enabled, reads_bad]; rfl

/-! ### What the slot then does -/

/-- In a core that issues, the fault found is all that happens: the effect is suppressed. -/
theorem issueSlot_of_issueFault {s : State} {c : Nat} {op : SlotOp} {chk : Option Nat} {code : Nat} (live : (s.core c).live = true)
    (fault : issueFault (s.core c) s.exact op chk = some code) (act : State) :
    issueSlot s c op chk act = s.coreFault c (slotNum op.slot) code := by
  simp [issueSlot, live, fault]

/-- Without a fault, an instruction that is not enabled does nothing, be its core live or not. -/
theorem issueSlot_of_disabled {s : State} {c : Nat} {op : SlotOp} {chk : Option Nat} (disabled : (s.core c).enabled op.hdr = false)
    (noFault : issueFault (s.core c) s.exact op chk = none) (act : State) : issueSlot s c op chk act = s := by
  simp [issueSlot, disabled, noFault]

/-- Settles O3: the three guards, each by the fault it gives the slot. -/
theorem slotsGuarded : Obligations.SlotsGuarded := by
  refine ⟨?disabled, ?illegal, ?parity⟩
  case disabled =>
    intro s c op chk act legal disabled
    exact issueSlot_of_disabled disabled (issueFault_of_disabled legal disabled chk) act
  case illegal =>
    intro s c op chk act live illegal
    exact issueSlot_of_issueFault live (issueFault_of_illegal illegal chk) act
  case parity =>
    intro s c op chk act live legal enabled bad
    exact issueSlot_of_issueFault live (issueFault_of_parity legal enabled bad chk) act

end Sys2Proof.Machine

/-! PROOF. LI, the ALU group and CMP (R129, R130, R131, R132, R104): each is one result on its way. Most values are R130's
word for word; the lemmas here are about LI, MIN, MAX and CMP, whose values the model writes in another form, and about MUL's second effect,
on its unit. -/
namespace Sys2Proof.Machine

/-! ### The values -/

/-- A word above the low half of another: the first one shifted, or-ed with the second one masked. -/
theorem append_low_eq_shiftLeft_or_and {v w : Nat} (x : BitVec v) (y : BitVec (v + w)) :
    x ++ y.extractLsb' 0 w = x.setWidth (v + w) <<< w ||| y &&& (BitVec.allOnes w).setWidth (v + w) := by
  ext i hi
  by_cases low : i < w
  · simp [BitVec.getElem_append, BitVec.getLsbD_eq_getElem, low, hi]
  · have high : i - w < v := by omega
    simp [BitVec.getElem_append, BitVec.getLsbD_eq_getElem, low, high]

/-- LI with HI = 1 puts IMM above the low half of s[SD] (R131). -/
theorem liVal_eq (k : Core) (f : LiF) :
    liVal k f = if f.hi then f.imm.setWidth 64 <<< 32 ||| k.rs f.sd.toNat &&& 0xFFFFFFFF#64 else f.imm.signExtend 64 := by
  unfold liVal
  split
  case isTrue => exact append_low_eq_shiftLeft_or_and (w := 32) f.imm _
  case isFalse => rfl

/-- MIN chooses by the unsigned order with U and by the signed order without (R130). -/
theorem minVal_eq (k : Core) (f : Alu) :
    minVal k f =
      let x := k.rs f.sa.toNat
      let b := k.src f.b
      if (if f.u then b < x else b.slt x) then b else x := by
  cases hu : f.u <;> simp [minVal, hu, BitVec.slt, BitVec.lt_def]

/-- MAX chooses by the same orders, the other way round (R130). -/
theorem maxVal_eq (k : Core) (f : Alu) :
    maxVal k f =
      let x := k.rs f.sa.toNat
      let b := k.src f.b
      if (if f.u then x < b else x.slt b) then b else x := by
  cases hu : f.u <;> simp [maxVal, hu, BitVec.slt, BitVec.lt_def]

/-- The table of R132: the condition of each of the seven numbers. -/
theorem cmpCond_eq_getD {cond : Nat} (legal : cond < 7) (x b : W64) :
    cmpCond cond x b = [decide (x = b), decide (x ≠ b), x.slt b, b.sle x, x.ult b, b.ule x, decide (x &&& b ≠ 0#64)].getD cond false := by
  interval_cases cond <;> rfl

/-- A CMP that issues names one of the seven conditions: COND 7 is an illegal encoding (R132). -/
theorem cmp_cond_lt {s : State} {c : Nat} {h : Hdr} {f : CmpF} (hi : issues s c (.ct h (.cmp f))) : f.cond.toNat < 7 := by
  obtain ⟨_, _, legal, _, _⟩ := hi
  have ne_seven : f.cond ≠ 7#3 := by simpa [slotIllegal, SlotOp.wf, CtOp.wf] using legal
  bv_omega

/-! ### The multiplier -/

/-- MUL's own check finds nothing while the multiplier is free (R102). -/
theorem chkMul_of_free {s : State} {c : Nat} (free : (s.core c).unitBusy unitMul (s.tickOf c) = false) : chkMul c s = none := by
  simp [chkMul, free]

/-- MUL changes its core alone: the product on its way, three ticks long, and the multiplier taken for one tick (R104). -/
theorem onlyCore_doMul (f : Alu) (c : Nat) (s : State) :
    onlyCore s (doMul f c s) c
      { withResult s c (s.core c) (.s f.sd.toNat) (.s (mulVal (s.core c) f)) 3 0 with
        units := (s.core c).units.put unitMul (s.tickOf c, 1) } := by
  have core : ((putS s c f.sd 3 (mulVal (s.core c) f)).core c).useUnit unitMul (s.tickOf c) 1 =
      { withResult s c (s.core c) (.s f.sd.toNat) (.s (mulVal (s.core c) f)) 3 0 with
        units := (s.core c).units.put unitMul (s.tickOf c, 1) } := by
    rw [putS, State.core_setCore, Core.useUnit, Core.result_units, result_eq]
  rw [← core]
  exact onlyCore_setCore2 s c _ _

/-! ### The statement -/

/-- Settles O6: every form but MUL is one result on its way, whose value is the spec's by the lemmas above; MUL also takes its unit. -/
theorem scalarArithmetic : Obligations.ScalarArithmetic := by
  refine ⟨?li, fun s c h f => ⟨?add, ?sub, ?and, ?or, ?xor, ?shl, ?shr, ?sra, ?mul, ?min, ?max⟩, ?cmp⟩
  case li =>
    intro s c h f hi
    rw [← liVal_eq]
    exact completes_result hi rfl
  case add | sub | and | or | xor | shl | shr | sra => exact fun hi => completes_result hi rfl
  case mul => exact fun hi free => ⟨_, row_act hi (chkMul_of_free free) _, onlyCore_doMul f c s⟩
  case min =>
    intro hi
    rw [← minVal_eq]
    exact completes_result hi rfl
  case max =>
    intro hi
    rw [← maxVal_eq]
    exact completes_result hi rfl
  case cmp =>
    intro s c h f hi k x b v
    have value : cmpVal k f = v := cmpCond_eq_getD (cmp_cond_lt hi) x b
    rw [← value]
    exact completes_result hi rfl

end Sys2Proof.Machine

/-! PROOF. QPUSH, QARM, QWAIT and QSTAT (R179, R181, R182, R183). Each form's checks find nothing exactly under the conditions its rule
lists; its effect is then one queue, one core or both, written once. -/
namespace Sys2Proof

/-- For a listed key the value read does not depend on the default. -/
theorem Map.find_eq_find_of_has {α : Type} {m : Map α} {k : Nat} (listed : m.has k = true) (d e : α) : m.find d k = m.find e k := by
  induction m with
  | nil => simp [Map.has] at listed
  | cons entry m ih =>
    obtain ⟨a, v⟩ := entry
    by_cases here : a = k
    · simp [Map.find, here]
    · have later : Map.has m k = true := by simpa [Map.has, here] using listed
      simpa [Map.find, here] using ih later

/-- A key that has been deleted is not listed. -/
theorem Map.has_del_same {α : Type} (m : Map α) (k : Nat) : (Map.del m k).has k = false := by
  simp [Map.has_del]

end Sys2Proof

namespace Sys2Proof.Machine

/-! ### The checks -/

/-- Checks in their order find nothing when the first does not fail and the rest find nothing. -/
theorem ite_some_eq_none_iff {α : Type} {fails : Prop} [Decidable fails] {code : α} {rest : Option α} :
    (if fails then some code else rest) = none ↔ ¬fails ∧ rest = none := by
  by_cases fails <;> simp [*]

/-- QPUSH's four checks find nothing: the handle is bound, its kind takes pushes, a place is left, and the request is one it can make
(R179). -/
theorem chkQpush_eq_none_iff (f : QpushF) (c : Nat) (s : State) :
    chkQpush f c s = none ↔
      let q := s.queue c f.q.toNat
      s.bound c f.q.toNat = true ∧ q.kind.pushes = true ∧ (q.pushed - q.gated).toNat < q.kind.depth ∧
        q.reqOk s ((s.core c).rs f.sa.toNat) (((s.core c).rs f.sb.toNat).toNat % 2 ^ 32) = true := by
  simp only [chkQpush, ite_some_eq_none_iff]
  simp [Queue.inUse]

/-- QARM's three checks find nothing: the handle is bound, the slot is free, and a kind that takes pushes is not armed beyond PUSHED
(R181). -/
theorem chkQarm_eq_none_iff (f : QarmF) (c : Nat) (s : State) :
    chkQarm f c s = none ↔
      let q := s.queue c f.q.toNat
      s.bound c f.q.toNat = true ∧ (s.core c).waits.has f.w.toNat = false ∧
        (q.kind.pushes = true → (qarmN (s.core c) f).toNat ≤ (q.pushed - q.at_).toNat) := by
  simp [chkQarm, ite_some_eq_none_iff]

/-- QWAIT's two checks find nothing: the slot is armed, with the entry `x`, and its lookahead has passed (R182). -/
theorem chkQwait_eq_none {w : BitVec 3} {c : Nat} {s : State} {x : Wait} (armed : (s.core c).waits.has w.toNat = true)
    (entry : (s.core c).waits.find x w.toNat = x) (passed : x.armTick + s.lookahead ≤ s.tickOf c) : chkQwait w c s = none := by
  have read : ∀ d, (s.core c).waits.find d w.toNat = x := fun d => (Map.find_eq_find_of_has armed d x).trans entry
  simp [chkQwait, armed, read, passed]

/-- QSTAT's check finds nothing when the handle is bound (R183). -/
theorem chkQstat_eq_none_iff (f : QstatF) (c : Nat) (s : State) : chkQstat f c s = none ↔ s.bound c f.q.toNat = true := by
  simp [chkQstat]

/-! ### The effects -/

/-- What QPUSH does while no job stops: the request enters behind those that wait, and PUSHED rises by 1 (R179). -/
theorem doQpush_of_no_stop (f : QpushF) (c : Nat) {s : State} (running : s.stop = none) :
    doQpush f c s =
      let q := s.queue c f.q.toNat
      s.setQueue c f.q.toNat { q with
        pushed := q.pushed + 1#32
        reqs := q.reqs ++ [{ seq := q.done + q.reqs.length + 1, addr := (s.core c).rs f.sa.toNat
                             len := ((s.core c).rs f.sb.toNat).toNat % 2 ^ 32, accepted := [], left := 0, data := [], got := 0
                             sent := 0, mode := none, tid := 0 }] } := by
  simp [doQpush, running]

/-- The table of R183: the value of each of the four selections. -/
theorem qstatVal_eq_getD (f : QstatF) (q : Queue) :
    qstatVal f q =
      [q.gated.zeroExtend 64, q.at_.zeroExtend 64, q.pushed.zeroExtend 64,
        if q.kind.pushes then BitVec.ofNat 64 (q.kind.depth - (q.pushed - q.gated).toNat) else 0#64].getD f.sel.toNat 0#64 := by
  have sel_lt : f.sel.toNat < 4 := f.sel.isLt
  unfold qstatVal
  generalize f.sel.toNat = sel at sel_lt ⊢
  interval_cases sel <;> rfl

/-! ### The statement -/

/-- Settles O17: the checks of each form find nothing, so it has its effect; what the effect leaves unchanged is what the laws of
`setQueue` and `setCore` leave. -/
theorem queueInstructions : Obligations.QueueInstructions := by
  intro s c h k T
  refine ⟨?qpush, ?qarm, ?qwait, ?qstat⟩
  case qpush =>
    intro f hi running q len bound pushes place request
    refine ⟨_, row_act hi ((chkQpush_eq_none_iff f c s).2 ⟨bound, pushes, place, request⟩) _, ?_⟩
    rw [doQpush_of_no_stop f c running]
    exact ⟨⟨_, rfl, rfl, rfl, rfl, rfl, rfl, s.queue_setQueue c _ _⟩, fun d i other => s.queue_setQueue_other _ other, rfl⟩
  case qarm =>
    intro f hi q bound free covered
    exact ⟨_, row_act hi ((chkQarm_eq_none_iff f c s).2 ⟨bound, free, covered⟩) _,
      s.queue_setQueue c _ _, State.core_setCore _ c _, fun d other => State.core_setCore_other _ _ other,
      fun d i other => s.queue_setQueue_other _ other, rfl⟩
  case qwait =>
    intro w x hi armed entry passed
    refine ⟨_, row_act hi (chkQwait_eq_none armed entry passed) _, onlyCore_setCore s c _, ?_⟩
    rw [doQwait, State.core_setCore]
    exact Map.has_del_same _ _
  case qstat =>
    intro f hi bound
    refine ⟨_, row_act hi ((chkQstat_eq_none_iff f c s).2 bound) _, ?_⟩
    rw [doQstat, result_eq, qstatVal_eq_getD]
    exact onlyCore_setCore s c _

end Sys2Proof.Machine

/-! PROOF. The lead limit (R25). What the three conditions speak of is, of each region, its count of issued ticks, its tokens and its
gate; a command of the paceline keeps these of every region, takes one token, holds one region, lets one go, or issues one tick. -/
namespace Sys2Proof.Machine

/-! ### What the lead limit speaks of -/

/-- The count of issued ticks, the tokens and the gate of a region. -/
def Region.ticks (x : Region) : Nat × Map Nat × Option GateHold := (x.issued, x.tokens, x.gate)

/-- The lead limit with the two conditions that keep it. -/
def State.leadSafe (s : State) : Prop := s.leadLimit ∧ s.tokensIssued ∧ s.gatesHold

/-- No region's count of ticks, tokens or gate differs between two states. -/
def State.keepsTicks (s t : State) : Prop := ∀ q, (t.region q).ticks = (s.region q).ticks

theorem Region.ticks_eq {x y : Region} (h : x.ticks = y.ticks) : x.issued = y.issued ∧ x.tokens = y.tokens ∧ x.gate = y.gate := by
  simpa [Region.ticks] using h

/-- R23 (b) asks the region's own count and tokens alone. -/
theorem Region.hasTokens_iff (x : Region) (r : Nat) :
    x.hasTokens r = true ↔ ∀ d, d < 4 → neighbour r d ≠ none → x.issued ≤ x.tokens.find 0 d := by
  simp only [Region.hasTokens, List.all_eq_true, List.mem_range, Bool.or_eq_true, Option.isNone_iff_eq_none, decide_eq_true_eq,
    or_iff_not_imp_left, ne_eq]

theorem State.leadSafe_of_keepsTicks {s t : State} (kept : s.keepsTicks t) (safe : s.leadSafe) : t.leadSafe := by
  obtain ⟨lead, tokens, gates⟩ := safe
  refine ⟨fun r d q hr hd hq => ?_, fun r d q hr hd hq => ?_, fun r hr held => ?_⟩
  · rw [(Region.ticks_eq (kept r)).1, (Region.ticks_eq (kept q)).1]; exact lead r d q hr hd hq
  · rw [(Region.ticks_eq (kept r)).2.1, (Region.ticks_eq (kept q)).1]; exact tokens r d q hr hd hq
  · obtain ⟨issued, toks, gate⟩ := Region.ticks_eq (kept r)
    rw [gate] at held
    simpa [Region.hasTokens, issued, toks] using gates r hr held

/-! ### What keeps every region's ticks -/

theorem State.keepsTicks_refl (s : State) : s.keepsTicks s := fun _ => rfl

theorem State.keepsTicks.trans {s t u : State} (h : s.keepsTicks t) (k : t.keepsTicks u) : s.keepsTicks u :=
  fun q => (k q).trans (h q)

theorem State.keepsTicks_of_regions {s t : State} (h : t.regions = s.regions) : s.keepsTicks t :=
  fun q => by rw [State.region_eq _ _ h]

theorem State.setRegion_keepsTicks (s : State) (r : Nat) {x : Region} (h : x.ticks = (s.region r).ticks) :
    s.keepsTicks (s.setRegion r x) := by
  intro q
  by_cases same : q = r
  · subst same; rw [State.region_setRegion, h]
  · rw [State.region_setRegion_other _ _ same]

theorem State.mapRegions_keepsTicks {s t : State} {f : Region → Region} (kept : s.keepsTicks t) (h : ∀ x, (f x).ticks = x.ticks) :
    s.keepsTicks (t.mapRegions f) := by
  intro q
  unfold State.mapRegions
  exact (foldl_keeps (fun t : State => (t.region q).ticks) (fun t r => t.setRegion r (f (t.region r)))
    (fun t r => t.setRegion_keepsTicks r (h _) q) _ t).trans (kept q)

theorem State.startGear_keepsTicks (s : State) (g : Nat) : s.keepsTicks (s.startGear g) := by
  unfold State.startGear
  split
  · exact s.keepsTicks_refl
  · dsimp only
    split
    · refine State.mapRegions_keepsTicks (State.keepsTicks_of_regions ?_) ?_
      · rfl
      · exact fun _ => rfl
    · exact State.keepsTicks_of_regions rfl

theorem State.followGear_keepsTicks (s : State) : s.keepsTicks s.followGear := by
  unfold State.followGear
  dsimp only
  split
  · exact s.keepsTicks_refl
  · exact s.startGear_keepsTicks _

theorem State.endGear_keepsTicks (s : State) (g : Nat) : s.keepsTicks (s.endGear g) :=
  (State.keepsTicks_of_regions rfl).trans (State.followGear_keepsTicks _)

theorem State.applyBrake_keepsTicks (s : State) (c : BrakeCause) : s.keepsTicks (s.applyBrake c) := by
  unfold State.applyBrake
  split
  · exact State.keepsTicks_of_regions rfl
  · refine State.keepsTicks.trans ?_ (State.keepsTicks_of_regions (State.event_regions ..))
    refine State.mapRegions_keepsTicks (State.keepsTicks_of_regions ?_) ?_
    · rfl
    · exact fun _ => rfl

theorem State.stretchPeriod_keepsTicks (s : State) (r p : Nat) : s.keepsTicks (s.stretchPeriod r p) := by
  have set : s.keepsTicks (s.setRegion r { s.region r with stretch := p }) := s.setRegion_keepsTicks r rfl
  unfold State.stretchPeriod
  dsimp only
  split
  · exact set.trans (State.keepsTicks_of_regions rfl)
  · exact set

theorem State.jobFatal_keepsTicks (s : State) (n code : Nat) (r : Option Nat) : s.keepsTicks ((s.advanceTo n).jobFatal code r) :=
  State.keepsTicks_of_regions (by simp)

/-! ### A tick of a region -/

/-- Issuing a tick counts it in its region, and ends the region's hold. -/
theorem State.regionTick_ticks (s : State) (r t : Nat) (first : Bool) :
    ((s.regionTick r t first).region r).ticks = ((s.region r).issued + 1, (s.region r).tokens, none) := by
  rw [State.region_eq _ _ (s.regionTick_regions r t first), State.region_setRegion]
  simp [Region.ticks]

theorem State.regionTick_ticks_other (s : State) {r q : Nat} (t : Nat) (first : Bool) (h : q ≠ r) :
    ((s.regionTick r t first).region q).ticks = (s.region q).ticks := by
  rw [State.region_eq _ _ (s.regionTick_regions r t first), State.region_setRegion_other _ _ h]
  simp [Region.ticks]

/-- A region that holds every token of its tick in progress may issue the next: its neighbours have issued as many ticks (R24). -/
theorem State.leadSafe_regionTick {s : State} {r : Nat} (hr : r < 80) (has : (s.region r).hasTokens r = true) (t : Nat) (first : Bool)
    (safe : s.leadSafe) : (s.regionTick r t first).leadSafe := by
  obtain ⟨lead, tokens, gates⟩ := safe
  obtain ⟨issued_r, tokens_r, gate_r⟩ : _ ∧ _ ∧ _ := by simpa [Region.ticks] using s.regionTick_ticks r t first
  have other : ∀ q, q ≠ r → _ := fun q h => Region.ticks_eq (s.regionTick_ticks_other t first h)
  have issued_le : ∀ q, (s.region q).issued ≤ ((s.regionTick r t first).region q).issued := by
    intro q
    by_cases same : q = r
    · subst same; omega
    · exact (other q same).1.ge
  have tokens_eq : ∀ q, ((s.regionTick r t first).region q).tokens = (s.region q).tokens := by
    intro q
    by_cases same : q = r
    · subst same; exact tokens_r
    · exact (other q same).2.1
  refine ⟨fun a d q ha hd hq => ?_, fun a d q ha hd hq => ?_, fun a ha held => ?_⟩
  · by_cases same : a = r
    · subst same
      have covered := (Region.hasTokens_iff _ _).1 has d hd (by simp [hq])
      have behind := tokens a d q ha hd hq
      have := issued_le q
      omega
    · rw [(other a same).1]
      exact (lead a d q ha hd hq).trans (Nat.succ_le_succ (issued_le q))
  · rw [tokens_eq]
    exact (tokens a d q ha hd hq).trans (issued_le q)
  · by_cases same : a = r
    · subst same; simp [gate_r] at held
    · obtain ⟨issued, toks, gate⟩ := other a same
      rw [gate] at held
      simpa [Region.hasTokens, issued, toks] using gates a ha held

/-! ### One region's token or hold -/

/-- A region may take any token its neighbour has issued, and may be held while it holds the tokens of its tick. -/
theorem State.leadSafe_setRegion {s : State} {r : Nat} {x : Region} (safe : s.leadSafe) (issued : x.issued = (s.region r).issued)
    (tokens : ∀ d q, d < 4 → neighbour r d = some q → x.tokens.find 0 d ≤ (s.region q).issued)
    (gate : x.gate.isSome = true → x.hasTokens r = true) : (s.setRegion r x).leadSafe := by
  obtain ⟨lead, toks, gates⟩ := safe
  have issued_eq : ∀ q, ((s.setRegion r x).region q).issued = (s.region q).issued := by
    intro q
    by_cases same : q = r
    · subst same; rw [State.region_setRegion, issued]
    · rw [State.region_setRegion_other _ _ same]
  refine ⟨fun a d q ha hd hq => ?_, fun a d q ha hd hq => ?_, fun a ha held => ?_⟩
  · rw [issued_eq, issued_eq]; exact lead a d q ha hd hq
  · rw [issued_eq]
    by_cases same : a = r
    · subst same; rw [State.region_setRegion]; exact tokens d q hd hq
    · rw [State.region_setRegion_other _ _ same]; exact toks a d q ha hd hq
  · by_cases same : a = r
    · subst same; rw [State.region_setRegion] at held ⊢; exact gate held
    · rw [State.region_setRegion_other _ _ same] at held ⊢; exact gates a ha held

theorem State.leadSafe_tickToken {s : State} {r dir : Nat} (hr : r < 80) (parityOk : Bool) (safe : s.leadSafe) :
    (s.tickToken r dir parityOk).leadSafe := by
  unfold State.tickToken
  split
  case h_1 => exact safe
  case h_2 n towards =>
    dsimp only
    split
    · exact safe
    · rename_i behind
      split
      · obtain ⟨-, toks, gates⟩ := id safe
        refine State.leadSafe_setRegion safe rfl (fun d q hd hq => ?_) (fun held => ?_)
        · rw [Map.find_put]
          split
          · subst d; obtain rfl : n = q := by simpa [towards] using hq
            omega
          · exact toks r d q hr hd hq
        · refine (Region.hasTokens_iff _ _).2 fun d hd hn => ?_
          have before := (Region.hasTokens_iff _ _).1 (gates r hr held) d hd hn
          simp only [Map.find_put]
          split
          · subst d; omega
          · exact before
      · exact State.leadSafe_of_keepsTicks (State.keepsTicks_of_regions (by simp)) safe

theorem State.leadSafe_beginHold {s : State} {r : Nat} (hr : r < 80) (has : (s.region r).hasTokens r = true)
    (ws : List (Nat × Nat × Wait)) (safe : s.leadSafe) : (s.beginHold r ws).leadSafe := by
  unfold State.beginHold
  split
  · exact safe
  · dsimp only
    refine State.leadSafe_of_keepsTicks (State.keepsTicks_of_regions rfl)
      (State.leadSafe_setRegion (r := r) (x := { s.region r with gate := some _ }) safe rfl (fun d q hd hq => ?_) fun _ => has)
    exact safe.2.1 r d q hr hd hq

theorem State.leadSafe_tickIssue {s : State} {r : Nat} (hr : r < 80) (safe : s.leadSafe) : (s.tickIssue r).leadSafe := by
  unfold State.tickIssue
  dsimp only
  split
  · exact safe
  · rename_i may
    have has : (s.region r).hasTokens r = true := by simp_all
    split
    · split
      · exact safe
      · exact State.leadSafe_regionTick hr has _ _ safe
    · exact State.leadSafe_beginHold hr has _ safe

theorem State.leadSafe_gateRelease {s : State} {r : Nat} (hr : r < 80) (safe : s.leadSafe) : (s.gateRelease r).leadSafe := by
  unfold State.gateRelease
  dsimp only
  split
  · exact safe
  · rename_i held
    split
    · exact State.leadSafe_setRegion safe rfl (fun d q hd hq => safe.2.1 r d q hr hd hq) (by simp)
    · have has : (s.region r).hasTokens r = true := safe.2.2 r hr (by cases h : (s.region r).gate <;> simp_all)
      exact State.leadSafe_regionTick hr has _ _ safe

/-! ### The rows -/

/-- A row about a region that answers a next state names one of the 80, and answers the state it computes. -/
theorem onRegion_eq_next {r : Nat} {t u s : State} (h : onRegion r t s = .next u) : r < 80 ∧ u = t := by
  unfold onRegion at h
  split at h
  · exact ⟨‹_›, (by simpa using h.symm)⟩
  · cases h

/-- The rows of the gears and of the time limits change no region's ticks. -/
theorem gearSwitchCount_keepsTicks {s t : State} (h : execGearSwitchCount s = .next t) : s.keepsTicks t := by
  unfold execGearSwitchCount at h
  split at h
  · split at h
    · cases h; exact s.keepsTicks_refl
    · cases h
      refine State.keepsTicks.trans (State.mapRegions_keepsTicks (State.keepsTicks_of_regions ?_) ?_) (State.endGear_keepsTicks _ _)
      · exact State.advanceTo_regions ..
      · exact fun _ => rfl
  · cases h; exact s.keepsTicks_refl

theorem regionRetuneDone_keepsTicks {s t : State} {r : Nat} (h : execRegionRetuneDone r s = .next t) : s.keepsTicks t := by
  obtain ⟨-, rfl⟩ := onRegion_eq_next (s := s) h
  split
  · split
    · dsimp only
      split
      · exact s.setRegion_keepsTicks r rfl
      · refine State.keepsTicks.trans ?_ (State.endGear_keepsTicks _ _)
        exact s.setRegion_keepsTicks r rfl
    · exact s.keepsTicks_refl
  · exact s.keepsTicks_refl

theorem supplyDroop_keepsTicks {s t : State} {r p : Nat} (h : execSupplyDroop r p s = .next t) : s.keepsTicks t := by
  obtain ⟨-, rfl⟩ := onRegion_eq_next (s := s) h
  split
  · exact (s.stretchPeriod_keepsTicks r 200).trans (State.applyBrake_keepsTicks _ _)
  · exact s.stretchPeriod_keepsTicks r p

theorem periodElapsed_keepsTicks {s t : State} {r : Nat} (h : execPeriodElapsed r s = .next t) : s.keepsTicks t := by
  obtain ⟨-, rfl⟩ := onRegion_eq_next (s := s) h
  split
  · exact s.keepsTicks_refl
  · exact s.setRegion_keepsTicks r rfl

theorem timeLimit_keepsTicks {s t : State} {r : Nat} {i : Instr}
    (limit : i = .retuneTimeout r ∨ i = .paceStall r ∨ i = .tsTimeoutFar r ∨ i = .tsTimeoutFabric r) (h : exec i s = .next t) :
    s.keepsTicks t := by
  obtain rfl | rfl | rfl | rfl := limit <;>
  · obtain ⟨-, rfl⟩ := onRegion_eq_next (s := s) h
    (repeat' split) <;> first | exact s.keepsTicks_refl | exact s.jobFatal_keepsTicks _ _ _

/-- Settles O24: a row keeps every region's ticks, or is a token, a tick or a hold, of which the lemmas above speak. -/
theorem leadLimitKept : Obligations.LeadLimitKept := by
  intro s t i row lead tokens gates next
  have safe : s.leadSafe := ⟨lead, tokens, gates⟩
  have kept : s.keepsTicks t → t.leadSafe := fun h => State.leadSafe_of_keepsTicks h safe
  obtain ⟨r, rfl⟩ | ⟨r, d, p, rfl⟩ | ⟨r, rfl⟩ | ⟨r, rfl⟩ | ⟨r, p, rfl⟩ | rfl | ⟨r, rfl⟩ | ⟨r, rfl⟩ | ⟨r, rfl⟩ | ⟨r, rfl⟩ | ⟨r, rfl⟩ := row
  · obtain ⟨hr, rfl⟩ := onRegion_eq_next (s := s) next
    exact State.leadSafe_tickIssue hr safe
  · obtain ⟨hr, rfl⟩ := onRegion_eq_next (s := s) next
    exact State.leadSafe_tickToken hr p safe
  · exact kept (periodElapsed_keepsTicks next)
  · obtain ⟨hr, rfl⟩ := onRegion_eq_next (s := s) next
    exact State.leadSafe_gateRelease hr safe
  · exact kept (supplyDroop_keepsTicks next)
  · exact kept (gearSwitchCount_keepsTicks next)
  · exact kept (regionRetuneDone_keepsTicks next)
  · exact kept (timeLimit_keepsTicks (.inl rfl) next)
  · exact kept (timeLimit_keepsTicks (.inr (.inl rfl)) next)
  · exact kept (timeLimit_keepsTicks (.inr (.inr (.inl rfl))) next)
  · exact kept (timeLimit_keepsTicks (.inr (.inr (.inr rfl))) next)

end Sys2Proof.Machine

/-! PROOF. The six slot languages decode and encode exactly (R95, R127, R128). A word is the sum of its fields in their places; a field
reads back because what stands below it does not reach its place. Per slot: what a decoded word spells, and what a spelt word decodes to. -/
namespace Sys2Proof

/-! ### Fields -/

theorem bits_lt (s h l : Nat) : bits s h l < 2 ^ (h + 1 - l) := Nat.mod_lt _ (by positivity)

theorem toNat_fieldOf {w s h l : Nat} (fits : h + 1 - l = w) : (fieldOf w s h l).toNat = bits s h l := by
  subst fits
  exact (BitVec.toNat_ofNat ..).trans (Nat.mod_eq_of_lt (bits_lt s h l))

theorem fieldOf_eq_iff {w s h l : Nat} (fits : h + 1 - l = w) (v : BitVec w) : fieldOf w s h l = v ↔ bits s h l = v.toNat := by
  rw [← BitVec.toNat_inj, toNat_fieldOf fits]

theorem bits_flag (s i : Nat) : bits s i i = (flagOf s i).toNat := by
  have := bits_lt s i i
  unfold flagOf
  by_cases set : bits s i i = 1
  · simp [set]
  · simp [set]; simp at this; omega

theorem flagOf_eq_iff (s i : Nat) (b : Bool) : flagOf s i = b ↔ bits s i i = b.toNat := by
  rw [bits_flag]
  cases b <;> cases flagOf s i <;> decide

theorem bitAt_eq (i : Nat) (b : Bool) : bitAt i b = b.toNat * 2 ^ i := by cases b <;> simp [bitAt]

theorem whenZero_eq_some {α : Type} {n : Nat} {x y : α} : whenZero n x = some y ↔ n = 0 ∧ x = y := by
  unfold whenZero; split <;> simp [*]

theorem whenZero_zero {α : Type} {n : Nat} {x : α} (h : n = 0) : whenZero n x = some x := if_pos h

/-! ### The header -/

theorem enc_hdrOf (s p : Nat) : (hdrOf s (p + 1)).enc (p + 1) = bits s (p + 3) p * 2 ^ p := by
  have split : s / 2 ^ p % 2 ^ 4 = s / 2 ^ p / 2 ^ 1 % 2 ^ 3 * 2 + s / 2 ^ p % 2 ^ 1 := by omega
  have width : p + 3 + 1 - p = 4 := by omega
  have width3 : p + 1 + 2 + 1 - (p + 1) = 3 := by omega
  simp only [hdrOf, Hdr.enc, bitAt_eq, ← bits_flag]
  rw [toNat_fieldOf (by omega)]
  simp only [bits, Nat.add_sub_cancel, width, width3, split, Nat.add_sub_cancel_left, Nat.div_div_eq_div_mul, ← Nat.pow_add]
  ring

/-- A word is its opcode, its header and its operands: 48 bits in the CT and VX slots, 40 in the others. -/
theorem word48_eq {s op x : Nat} (size : s < 2 ^ 48) (opcode : bits s 47 42 = op) (operands : x = bits s 37 0) :
    s = op * 2 ^ 42 + (hdrOf s 39).enc 39 + x := by
  rw [enc_hdrOf s 38, operands, ← opcode]
  simp only [bits]
  omega

theorem word40_eq {s op x : Nat} (size : s < 2 ^ 40) (opcode : bits s 39 35 = op) (operands : x = bits s 30 0) :
    s = op * 2 ^ 35 + (hdrOf s 32).enc 32 + x := by
  rw [enc_hdrOf s 31, operands, ← opcode]
  simp only [bits]
  omega

theorem Hdr.enc_eq (h : Hdr) (p : Nat) : h.enc (p + 1) = h.pred.toNat * 2 ^ (p + 1) + h.pn.toNat * 2 ^ p := by
  rw [Hdr.enc, bitAt_eq, Nat.add_sub_cancel]

theorem hdrOf_eq_iff (s p : Nat) (h : Hdr) : hdrOf s (p + 1) = h ↔ bits s (p + 3) (p + 1) = h.pred.toNat ∧ bits s p p = h.pn.toNat := by
  obtain ⟨pred, pn⟩ := h
  simp only [hdrOf, Hdr.mk.injEq, Nat.add_sub_cancel, flagOf_eq_iff, fieldOf_eq_iff (show p + 1 + 2 + 1 - (p + 1) = 3 by omega)]

/-- Of a word put together from its parts, each part reads back, and below the header it reads as its operands do. -/
theorem word48_parts {s op x : Nat} {h : Hdr} (word : s = op * 2 ^ 42 + h.enc 39 + x) (op_lt : op < 2 ^ 6) (x_lt : x < 2 ^ 38) :
    s < 2 ^ 48 ∧ bits s 47 42 = op ∧ hdrOf s 39 = h ∧ bits s 37 0 = x := by
  have pn_lt := h.pn.toNat_lt
  have pred_lt := h.pred.isLt
  rw [hdrOf_eq_iff s 38, word, h.enc_eq 38]
  simp only [bits]
  omega

theorem word40_parts {s op x : Nat} {h : Hdr} (word : s = op * 2 ^ 35 + h.enc 32 + x) (op_lt : op < 2 ^ 5) (x_lt : x < 2 ^ 31) :
    s < 2 ^ 40 ∧ bits s 39 35 = op ∧ hdrOf s 32 = h ∧ bits s 30 0 = x := by
  have pn_lt := h.pn.toNat_lt
  have pred_lt := h.pred.isLt
  rw [hdrOf_eq_iff s 31, word, h.enc_eq 31]
  simp only [bits]
  omega

theorem whenZero_pair {n : Nat} {α : Type} {h k : Hdr} {o q : α} (d : whenZero n (h, o) = some (k, q)) : n = 0 ∧ h = k ∧ o = q := by
  simpa [whenZero_eq_some] using d

/-! ### The CT slot -/

theorem aluOf_enc {s : Nat} {f : Alu} (h : aluOf s = some f) : f.enc = bits s 37 0 := by
  unfold aluOf aluSrc at h
  have flag := bits_flag s 27
  split at h <;>
  · simp_all [whenZero_eq_some]
    obtain ⟨z, rfl⟩ := h
    simp [Alu.enc, Src.enc, bitAt_eq, toNat_fieldOf, ← bits_flag]
    simp [bits] at *
    omega

theorem aluSrc_enc {s : Nat} {b : Src} (h : aluSrc s 26 = some b) : b.enc 26 = bits s 26 0 := by
  unfold aluSrc at h
  have flag := bits_flag s 26
  split at h
  · simp_all
    subst h
    simp [Src.enc, toNat_fieldOf]
    simp [bits] at *
    omega
  · simp_all [whenZero_eq_some]
    obtain ⟨z, rfl⟩ := h
    simp [Src.enc, toNat_fieldOf]
    simp [bits] at *
    omega

theorem decodeCt_sound {s : Nat} {h : Hdr} {o : CtOp} (size : s < 2 ^ 48) (d : decodeCt s = some (h, o)) : s = encodeCt h o := by
  unfold decodeCt at d
  have set25 := bits_flag s 25
  have set37 := bits_flag s 37
  split at d
  case h_1 | h_17 =>
    obtain ⟨zero, rfl, rfl⟩ := whenZero_pair d
    exact word48_eq size ‹_› zero.symm
  case h_18 | h_19 | h_20 =>
    obtain ⟨zero, rfl, rfl⟩ := whenZero_pair d
    refine word48_eq size ‹_› ?_
    simp [toNat_fieldOf]
    simp [bits] at zero ⊢
    omega
  case h_2 =>
    obtain ⟨rfl, rfl⟩ : _ ∧ _ := by simpa using d
    refine word48_eq size ‹_› ?_
    simp [toNat_fieldOf, bitAt_eq, ← bits_flag]
    simp [bits]
    omega
  case h_14 =>
    obtain ⟨b, src, rfl, rfl⟩ : ∃ b, aluSrc s 26 = some b ∧ _ ∧ _ := by simpa using d
    refine word48_eq size ‹_› ?_
    simp [toNat_fieldOf, aluSrc_enc src]
    simp [bits]
    omega
  case h_15 | h_16 =>
    split at d <;>
    · obtain ⟨zero, rfl, rfl⟩ := whenZero_pair d
      refine word48_eq size ‹_› ?_
      simp_all [toNat_fieldOf]
      simp [bits] at *
      omega
  case h_21 => cases d
  all_goals
    obtain ⟨f, layout, rfl, rfl⟩ : ∃ f, aluOf s = some f ∧ _ ∧ _ := by simpa using d
    exact word48_eq size ‹_› (aluOf_enc layout)

theorem Alu.enc_lt (f : Alu) : f.enc < 2 ^ 38 := by
  obtain ⟨sd, sa, b | b, u⟩ := f <;>
  · have := u.toNat_lt
    simp only [Alu.enc, Src.enc, bitAt_eq]
    omega

theorem aluSrc_of_enc {s i : Nat} (place : i = 26 ∨ i = 27) {b : Src} (flag : bits s i i = if b matches .imm _ then 1 else 0)
    (operand : bits s 25 0 = b.enc i % 2 ^ 26) : aluSrc s i = some b := by
  obtain rfl | rfl := place <;> obtain b | b := b <;>
  · simp only [Src.enc, bits] at operand
    simp at flag
    simp [aluSrc, flagOf, flag, fieldOf_eq_iff, whenZero_eq_some]
    simp only [bits]
    omega

theorem aluOf_of_enc {s : Nat} {f : Alu} (operands : bits s 37 0 = f.enc) : aluOf s = some f := by
  obtain ⟨sd, sa, b, u⟩ := f
  have u_lt := u.toNat_lt
  have src : aluSrc s 27 = some b := by
    obtain b | b := b <;> refine aluSrc_of_enc (.inr rfl) ?_ ?_ <;>
    · simp [Alu.enc, Src.enc, bitAt_eq, bits] at operands ⊢
      omega
  rw [aluOf, src]
  simp [fieldOf_eq_iff, flagOf_eq_iff]
  obtain b | b := b <;>
  · simp only [Alu.enc, Src.enc, bitAt_eq, bits] at operands ⊢
    omega
theorem decodeCt_encodeCt (h : Hdr) (o : CtOp) : encodeCt h o < 2 ^ 48 ∧ decodeCt (encodeCt h o) = some (h, o) := by
  obtain ⟨s, word⟩ : ∃ s, s = encodeCt h o := ⟨_, rfl⟩
  rw [← word]
  cases o
  case nop | halt =>
    obtain ⟨size, opcode, header, operands⟩ := word48_parts word (by decide) (by decide)
    refine ⟨size, ?_⟩
    simp [decodeCt, opcode, header]
    exact whenZero_zero operands
  case li f =>
    obtain ⟨sd, hi, imm⟩ := f
    have set := hi.toNat_lt
    simp only [encodeCt, bitAt_eq] at word
    obtain ⟨size, opcode, header, operands⟩ := word48_parts word (by decide) (by omega)
    refine ⟨size, ?_⟩
    simp [decodeCt, opcode, header, fieldOf_eq_iff, flagOf_eq_iff]
    simp only [bits] at operands ⊢
    omega
  case cmp f => 
    obtain ⟨pd, sa, cond, b⟩ := f
    have b_lt : b.enc 26 < 2 ^ 27 := by cases b <;> simp only [Src.enc] <;> omega
    obtain ⟨size, opcode, header, operands⟩ := word48_parts word (by decide) (by simp only; omega)
    refine ⟨size, ?_⟩
    have src : aluSrc s 26 = some b := by
      obtain b | b := b <;> refine aluSrc_of_enc (.inl rfl) ?_ ?_ <;>
      · simp [Src.enc, bits] at operands ⊢
        omega
    simp [decodeCt, opcode, header, src, fieldOf_eq_iff]
    simp only [bits] at operands ⊢
    omega
  case br f =>
    obtain ⟨sl, t | sb⟩ := f <;>
    · simp only [encodeCt] at word
      obtain ⟨size, opcode, header, operands⟩ := word48_parts word (by decide) (by omega)
      refine ⟨size, ?_⟩
      simp [decodeCt, opcode, header, fieldOf_eq_iff, flagOf, ite_eq_iff, whenZero_eq_some]
      simp only [bits] at operands ⊢
      omega
  case loop f =>
    obtain ⟨sl, t | sb⟩ := f <;>
    · simp only [encodeCt] at word
      obtain ⟨size, opcode, header, operands⟩ := word48_parts word (by decide) (by omega)
      refine ⟨size, ?_⟩
      simp [decodeCt, opcode, header, fieldOf_eq_iff, flagOf, ite_eq_iff, whenZero_eq_some]
      simp only [bits] at operands ⊢
      omega
  case param f =>
    obtain ⟨sd, num⟩ := f
    simp only [encodeCt] at word
    obtain ⟨size, opcode, header, operands⟩ := word48_parts word (by decide) (by omega)
    refine ⟨size, ?_⟩
    simp [decodeCt, opcode, header, fieldOf_eq_iff, whenZero_eq_some]
    simp only [bits] at operands ⊢
    omega
  case tickrd sd | gscrd sd =>
    simp only [encodeCt] at word
    obtain ⟨size, opcode, header, operands⟩ := word48_parts word (by decide) (by omega)
    refine ⟨size, ?_⟩
    simp [decodeCt, opcode, header, fieldOf_eq_iff, whenZero_eq_some]
    simp only [bits] at operands ⊢
    omega
  all_goals
    obtain ⟨size, opcode, header, operands⟩ := word48_parts word (by decide) (Alu.enc_lt _)
    refine ⟨size, ?_⟩
    simp [decodeCt, opcode, header, aluOf_of_enc operands]

/-! ### The MX slot -/

theorem decodeMx_sound {s : Nat} {h : Hdr} {o : MxOp} (size : s < 2 ^ 40) (d : decodeMx s = some (h, o)) : s = encodeMx h o := by
  unfold decodeMx at d
  have set28 := bits_flag s 28
  split at d
  case h_1 =>
    obtain ⟨zero, rfl, rfl⟩ := whenZero_pair d
    exact word40_eq size ‹_› zero.symm
  case h_2 | h_5 | h_7 =>
    obtain ⟨zero, rfl, rfl⟩ := whenZero_pair d
    refine word40_eq size ‹_› ?_
    simp [toNat_fieldOf]
    simp [bits] at zero ⊢
    omega
  case h_3 | h_4 =>
    split at d <;>
    · obtain ⟨zero, rfl, rfl⟩ := whenZero_pair d
      refine word40_eq size ‹_› ?_
      simp_all [toNat_fieldOf]
      simp [bits] at *
      omega
  case h_6 =>
    obtain ⟨rfl, rfl⟩ : _ ∧ _ := by simpa using d
    refine word40_eq size ‹_› ?_
    simp [toNat_fieldOf, bitAt_eq, ← bits_flag]
    simp [bits]
    omega
  case h_8 => cases d

theorem decodeMx_encodeMx (h : Hdr) (o : MxOp) : encodeMx h o < 2 ^ 40 ∧ decodeMx (encodeMx h o) = some (h, o) := by
  obtain ⟨s, word⟩ : ∃ s, s = encodeMx h o := ⟨_, rfl⟩
  rw [← word]
  cases o
  case nop =>
    obtain ⟨size, opcode, header, operands⟩ := word40_parts word (by decide) (by decide)
    refine ⟨size, ?_⟩
    simp [decodeMx, opcode, header]
    exact whenZero_zero operands
  case mcfg f | mmode f =>
    obtain ⟨⟩ := f
    simp only [encodeMx] at word
    obtain ⟨size, opcode, header, operands⟩ := word40_parts word (by decide) (by omega)
    refine ⟨size, ?_⟩
    simp [decodeMx, opcode, header, fieldOf_eq_iff, whenZero_eq_some]
    simp only [bits] at operands ⊢
    omega
  case mout f =>
    obtain ⟨acc, row0, n, dst, fmt, rm, d, pitch⟩ := f
    have dst_lt := dst.toNat_lt
    simp only [encodeMx, bitAt_eq] at word
    obtain ⟨size, opcode, header, operands⟩ := word40_parts word (by decide) (by omega)
    refine ⟨size, ?_⟩
    simp [decodeMx, opcode, header, fieldOf_eq_iff, flagOf_eq_iff]
    simp only [bits] at operands ⊢
    omega
  case mma f | mmag f =>
    cases f
    next k =>
    obtain k | k := k <;>
    · simp only [encodeMx] at word
      obtain ⟨size, opcode, header, operands⟩ := word40_parts word (by decide) (by omega)
      refine ⟨size, ?_⟩
      simp [decodeMx, opcode, header, fieldOf_eq_iff, flagOf, ite_eq_iff, whenZero_eq_some]
      simp only [bits] at operands ⊢
      omega
  case mclr m =>
    simp only [encodeMx] at word
    obtain ⟨size, opcode, header, operands⟩ := word40_parts word (by decide) (by omega)
    refine ⟨size, ?_⟩
    simp [decodeMx, opcode, header, fieldOf_eq_iff, whenZero_eq_some]
    simp only [bits] at operands ⊢
    omega

/-! ### The LS slot -/

theorem aaluOf_enc {s : Nat} {f : AAlu} (h : aaluOf s = some f) : f.enc = bits s 30 0 := by
  unfold aaluOf at h
  have flag := bits_flag s 22
  split at h
  · simp_all
    subst h
    simp [AAlu.enc, toNat_fieldOf]
    simp [bits] at *
    omega
  · simp_all [whenZero_eq_some]
    obtain ⟨zero, rfl⟩ := h
    simp [AAlu.enc, toNat_fieldOf]
    simp [bits] at *
    omega

theorem AAlu.enc_lt (f : AAlu) : f.enc < 2 ^ 31 := by
  obtain ⟨ad, aa, b | b⟩ := f <;>
  · simp only [AAlu.enc]
    omega

theorem aaluOf_of_enc {s : Nat} {f : AAlu} (operands : bits s 30 0 = f.enc) : aaluOf s = some f := by
  obtain ⟨ad, aa, b | b⟩ := f <;>
  · simp [AAlu.enc] at operands
    simp [aaluOf, fieldOf_eq_iff, flagOf, ite_eq_iff, whenZero_eq_some]
    simp only [bits] at operands ⊢
    omega

theorem decodeLs_sound {s : Nat} {h : Hdr} {o : LsOp} (size : s < 2 ^ 40) (d : decodeLs s = some (h, o)) : s = encodeLs h o := by
  unfold decodeLs at d
  split at d
  case h_1 =>
    obtain ⟨zero, rfl, rfl⟩ := whenZero_pair d
    exact word40_eq size ‹_› zero.symm
  case h_2 | h_3 =>
    obtain ⟨rfl, rfl⟩ : _ ∧ _ := by simpa using d
    refine word40_eq size ‹_› ?_
    simp [memOf, MemF.enc, toNat_fieldOf]
    simp [bits]
    omega
  case h_4 | h_5 =>
    obtain ⟨zero, rfl, rfl⟩ := whenZero_pair d
    refine word40_eq size ‹_› ?_
    simp [memOf, MemF.enc, toNat_fieldOf]
    simp [bits] at zero ⊢
    omega
  case h_6 | h_7 =>
    obtain ⟨f, layout, rfl, rfl⟩ : ∃ f, aaluOf s = some f ∧ _ ∧ _ := by simpa using d
    exact word40_eq size ‹_› (aaluOf_enc layout)
  case h_8 =>
    obtain ⟨rfl, rfl⟩ : _ ∧ _ := by simpa using d
    refine word40_eq size ‹_› ?_
    simp [toNat_fieldOf]
    simp [bits]
    omega
  case h_9 | h_10 =>
    obtain ⟨zero, rfl, rfl⟩ := whenZero_pair d
    refine word40_eq size ‹_› ?_
    simp [toNat_fieldOf]
    simp [bits] at zero ⊢
    omega
  case h_11 => cases d

theorem decodeLs_encodeLs (h : Hdr) (o : LsOp) : encodeLs h o < 2 ^ 40 ∧ decodeLs (encodeLs h o) = some (h, o) := by
  obtain ⟨s, word⟩ : ∃ s, s = encodeLs h o := ⟨_, rfl⟩
  rw [← word]
  cases o
  case nop =>
    obtain ⟨size, opcode, header, operands⟩ := word40_parts word (by decide) (by decide)
    refine ⟨size, ?_⟩
    simp [decodeLs, opcode, header]
    exact whenZero_zero operands
  case vld f | vst f | sld f | sst f =>
    obtain ⟨⟩ := f
    simp only [encodeLs, MemF.enc] at word
    obtain ⟨size, opcode, header, operands⟩ := word40_parts word (by decide) (by omega)
    refine ⟨size, ?_⟩
    simp [decodeLs, opcode, header, fieldOf_eq_iff, whenZero_eq_some, memOf]
    simp only [bits] at operands ⊢
    omega
  case aadd f | asub f =>
    obtain ⟨size, opcode, header, operands⟩ := word40_parts word (by decide) f.enc_lt
    refine ⟨size, ?_⟩
    simp [decodeLs, opcode, header, aaluOf_of_enc operands]
  case ali | aset | aget =>
    simp only [encodeLs] at word
    obtain ⟨size, opcode, header, operands⟩ := word40_parts word (by decide) (by omega)
    refine ⟨size, ?_⟩
    simp [decodeLs, opcode, header, fieldOf_eq_iff, whenZero_eq_some]
    simp only [bits] at operands ⊢
    omega

/-! ### The VX slot -/

theorem laneOf_enc {s : Nat} (zero : bits s 5 0 = 0) : (laneOf s).enc = bits s 37 0 := by
  simp [laneOf, LaneF.enc, toNat_fieldOf]
  simp [bits] at zero ⊢
  omega

theorem LaneF.enc_lt (f : LaneF) : f.enc < 2 ^ 38 := by
  simp only [LaneF.enc]
  omega

theorem laneOf_of_enc {s : Nat} {f : LaneF} (operands : bits s 37 0 = f.enc) : bits s 5 0 = 0 ∧ laneOf s = f := by
  obtain ⟨⟩ := f
  simp [laneOf, fieldOf_eq_iff]
  simp only [LaneF.enc, bits] at operands ⊢
  omega

theorem cvtOf_enc {s : Nat} (zero : bits s 0 0 = 0) : (cvtOf s).enc = bits s 37 0 := by
  simp [cvtOf, CvtF.enc, toNat_fieldOf]
  simp [bits] at zero ⊢
  omega

theorem CvtF.enc_lt (f : CvtF) : f.enc < 2 ^ 38 := by
  simp only [CvtF.enc]
  omega

theorem cvtOf_of_enc {s : Nat} {f : CvtF} (operands : bits s 37 0 = f.enc) : bits s 0 0 = 0 ∧ cvtOf s = f := by
  obtain ⟨⟩ := f
  simp [cvtOf, fieldOf_eq_iff]
  simp only [CvtF.enc, bits] at operands ⊢
  omega

theorem topkOf_enc {s : Nat} (zero : bits s 11 0 = 0) : (topkOf s).enc (bits s 19 18) = bits s 37 0 := by
  simp [topkOf, TopkF.enc, toNat_fieldOf, bitAt_eq, ← bits_flag]
  simp [bits] at zero ⊢
  omega

theorem TopkF.enc_lt (f : TopkF) {n : Nat} (n_lt : n < 4) : f.enc n < 2 ^ 38 := by
  have skip_lt := f.skip.toNat_lt
  simp only [TopkF.enc, bitAt_eq]
  omega

theorem topkOf_of_enc {s n : Nat} (n_lt : n < 4) {f : TopkF} (operands : bits s 37 0 = f.enc n) :
    bits s 19 18 = n ∧ bits s 11 0 = 0 ∧ topkOf s = f := by
  obtain ⟨vd, va, vb, skip, sa⟩ := f
  have skip_lt := skip.toNat_lt
  simp [topkOf, fieldOf_eq_iff, flagOf_eq_iff]
  simp only [TopkF.enc, bitAt_eq, bits] at operands ⊢
  omega

theorem decodeVx_sound {s : Nat} {h : Hdr} {o : VxOp} (size : s < 2 ^ 48) (d : decodeVx s = some (h, o)) : s = encodeVx h o := by
  unfold decodeVx at d
  split at d
  case h_1 =>
    obtain ⟨zero, rfl, rfl⟩ := whenZero_pair d
    exact word48_eq size ‹_› zero.symm
  case h_9 | h_10 | h_13 | h_15 =>
    obtain ⟨zero, rfl, rfl⟩ := whenZero_pair d
    refine word48_eq size ‹_› ?_
    simp [toNat_fieldOf]
    simp [bits] at zero ⊢
    omega
  case h_11 | h_12 =>
    obtain ⟨zero, rfl, rfl⟩ := whenZero_pair d
    exact word48_eq size ‹_› (cvtOf_enc zero)
  case h_14 =>
    split at d
    case h_4 => cases d
    all_goals
      next sub =>
      obtain ⟨zero, rfl, rfl⟩ := whenZero_pair d
      exact word48_eq size ‹_› (sub ▸ topkOf_enc zero)
  case h_16 =>
    split at d
    case h_4 => cases d
    all_goals
      next sub =>
      obtain ⟨zero, rfl, rfl⟩ := whenZero_pair d
      refine word48_eq size ‹_› ?_
      simp [toNat_fieldOf] at sub ⊢
      simp [bits] at sub zero ⊢
      omega
  case h_17 => cases d
  all_goals
    obtain ⟨zero, rfl, rfl⟩ := whenZero_pair d
    exact word48_eq size ‹_› (laneOf_enc zero)

theorem decodeVx_encodeVx (h : Hdr) (o : VxOp) : encodeVx h o < 2 ^ 48 ∧ decodeVx (encodeVx h o) = some (h, o) := by
  obtain ⟨s, word⟩ : ∃ s, s = encodeVx h o := ⟨_, rfl⟩
  rw [← word]
  cases o
  case nop =>
    obtain ⟨size, opcode, header, operands⟩ := word48_parts word (by decide) (by decide)
    refine ⟨size, ?_⟩
    simp [decodeVx, opcode, header]
    exact whenZero_zero operands
  case clrsel =>
    obtain ⟨size, opcode, header, operands⟩ := word48_parts word (by decide) (by decide)
    refine ⟨size, ?_⟩
    have sub : bits s 37 36 = 2 := by simp only [bits] at operands ⊢; omega
    simp [decodeVx, opcode, header, sub, whenZero_eq_some]
    simp only [bits] at operands ⊢
    omega
  case topkInit f | topkMerge f | topkRead f =>
    obtain ⟨size, opcode, header, operands⟩ := word48_parts word (by decide) (f.enc_lt (by decide))
    obtain ⟨sub, zero, layout⟩ := topkOf_of_enc (by decide) operands
    exact ⟨size, by simp [decodeVx, opcode, header, sub, layout, whenZero_zero zero]⟩
  case draw f =>
    obtain ⟨⟩ := f
    simp only [encodeVx] at word
    obtain ⟨size, opcode, header, operands⟩ := word48_parts word (by decide) (by omega)
    refine ⟨size, ?_⟩
    have sub : bits s 37 36 = 0 := by simp only [bits] at operands ⊢; omega
    simp [decodeVx, opcode, header, sub, fieldOf_eq_iff, whenZero_eq_some]
    simp only [bits] at operands ⊢
    omega
  case select f =>
    obtain ⟨⟩ := f
    simp only [encodeVx] at word
    obtain ⟨size, opcode, header, operands⟩ := word48_parts word (by decide) (by omega)
    refine ⟨size, ?_⟩
    have sub : bits s 37 36 = 1 := by simp only [bits] at operands ⊢; omega
    simp [decodeVx, opcode, header, sub, fieldOf_eq_iff, whenZero_eq_some]
    simp only [bits] at operands ⊢
    omega
  case vshuf f | vred f | vfn f | vpen f =>
    obtain ⟨⟩ := f
    simp only [encodeVx] at word
    obtain ⟨size, opcode, header, operands⟩ := word48_parts word (by decide) (by omega)
    refine ⟨size, ?_⟩
    simp [decodeVx, opcode, header, fieldOf_eq_iff, whenZero_eq_some]
    simp only [bits] at operands ⊢
    omega
  case vcvt f | vqnt f =>
    obtain ⟨size, opcode, header, operands⟩ := word48_parts word (by decide) f.enc_lt
    obtain ⟨zero, layout⟩ := cvtOf_of_enc operands
    exact ⟨size, by simp [decodeVx, opcode, header, layout, whenZero_zero zero]⟩
  all_goals
    next f =>
    obtain ⟨size, opcode, header, operands⟩ := word48_parts word (by decide) f.enc_lt
    obtain ⟨zero, layout⟩ := laneOf_of_enc operands
    exact ⟨size, by simp [decodeVx, opcode, header, layout, whenZero_zero zero]⟩

/-! ### The MV slot -/

theorem decodeMv_sound {s : Nat} {h : Hdr} {o : MvOp} (size : s < 2 ^ 40) (d : decodeMv s = some (h, o)) : s = encodeMv h o := by
  unfold decodeMv at d
  split at d
  case h_1 =>
    obtain ⟨zero, rfl, rfl⟩ := whenZero_pair d
    exact word40_eq size ‹_› zero.symm
  case h_2 | h_3 =>
    obtain ⟨zero, rfl, rfl⟩ := whenZero_pair d
    refine word40_eq size ‹_› ?_
    simp [ssOf, SsF.enc, toNat_fieldOf, bitAt_eq, ← bits_flag]
    simp [bits] at zero ⊢
    omega
  case h_4 | h_5 | h_6 =>
    obtain ⟨zero, rfl, rfl⟩ := whenZero_pair d
    refine word40_eq size ‹_› ?_
    simp [toNat_fieldOf]
    simp [bits] at zero ⊢
    omega
  case h_7 => cases d

theorem decodeMv_encodeMv (h : Hdr) (o : MvOp) : encodeMv h o < 2 ^ 40 ∧ decodeMv (encodeMv h o) = some (h, o) := by
  obtain ⟨s, word⟩ : ∃ s, s = encodeMv h o := ⟨_, rfl⟩
  rw [← word]
  cases o
  case nop =>
    obtain ⟨size, opcode, header, operands⟩ := word40_parts word (by decide) (by decide)
    refine ⟨size, ?_⟩
    simp [decodeMv, opcode, header]
    exact whenZero_zero operands
  case ssr f | ssw f =>
    obtain ⟨nl, rem, aw, as, rt⟩ := f
    have rem_lt := rem.toNat_lt
    simp only [encodeMv, SsF.enc, bitAt_eq] at word
    obtain ⟨size, opcode, header, operands⟩ := word40_parts word (by decide) (by omega)
    refine ⟨size, ?_⟩
    simp [decodeMv, opcode, header, fieldOf_eq_iff, whenZero_eq_some, ssOf, flagOf_eq_iff]
    simp only [bits] at operands ⊢
    omega
  case msend f =>
    obtain ⟨⟩ := f
    simp only [encodeMv] at word
    obtain ⟨size, opcode, header, operands⟩ := word40_parts word (by decide) (by omega)
    refine ⟨size, ?_⟩
    simp [decodeMv, opcode, header, fieldOf_eq_iff, whenZero_eq_some]
    simp only [bits] at operands ⊢
    omega
  case mrecv | gath =>
    simp only [encodeMv] at word
    obtain ⟨size, opcode, header, operands⟩ := word40_parts word (by decide) (by omega)
    refine ⟨size, ?_⟩
    simp [decodeMv, opcode, header, fieldOf_eq_iff, whenZero_eq_some]
    simp only [bits] at operands ⊢
    omega

/-! ### The QX slot -/

theorem decodeQx_sound {s : Nat} {h : Hdr} {o : QxOp} (size : s < 2 ^ 40) (d : decodeQx s = some (h, o)) : s = encodeQx h o := by
  unfold decodeQx at d
  have set22 := bits_flag s 22
  split at d
  case h_1 =>
    obtain ⟨zero, rfl, rfl⟩ := whenZero_pair d
    exact word40_eq size ‹_› zero.symm
  case h_3 =>
    split at d <;>
    · obtain ⟨zero, rfl, rfl⟩ := whenZero_pair d
      refine word40_eq size ‹_› ?_
      simp_all [toNat_fieldOf]
      simp [bits] at *
      omega
  case h_2 | h_4 | h_5 =>
    obtain ⟨zero, rfl, rfl⟩ := whenZero_pair d
    refine word40_eq size ‹_› ?_
    simp [toNat_fieldOf]
    simp [bits] at zero ⊢
    omega
  case h_6 => cases d

theorem decodeQx_encodeQx (h : Hdr) (o : QxOp) : encodeQx h o < 2 ^ 40 ∧ decodeQx (encodeQx h o) = some (h, o) := by
  obtain ⟨s, word⟩ : ∃ s, s = encodeQx h o := ⟨_, rfl⟩
  rw [← word]
  cases o
  case nop =>
    obtain ⟨size, opcode, header, operands⟩ := word40_parts word (by decide) (by decide)
    refine ⟨size, ?_⟩
    simp [decodeQx, opcode, header]
    exact whenZero_zero operands
  case qarm f =>
    obtain ⟨w, q, n | n⟩ := f <;>
    · simp only [encodeQx] at word
      obtain ⟨size, opcode, header, operands⟩ := word40_parts word (by decide) (by omega)
      refine ⟨size, ?_⟩
      simp [decodeQx, opcode, header, fieldOf_eq_iff, flagOf, ite_eq_iff, whenZero_eq_some]
      simp only [bits] at operands ⊢
      omega
  case qpush f | qstat f =>
    obtain ⟨⟩ := f
    simp only [encodeQx] at word
    obtain ⟨size, opcode, header, operands⟩ := word40_parts word (by decide) (by omega)
    refine ⟨size, ?_⟩
    simp [decodeQx, opcode, header, fieldOf_eq_iff, whenZero_eq_some]
    simp only [bits] at operands ⊢
    omega
  case qwait =>
    simp only [encodeQx] at word
    obtain ⟨size, opcode, header, operands⟩ := word40_parts word (by decide) (by omega)
    refine ⟨size, ?_⟩
    simp [decodeQx, opcode, header, fieldOf_eq_iff, whenZero_eq_some]
    simp only [bits] at operands ⊢
    omega

/-! ### The six slots of a bundle -/

/-- Six slots put side by side read back each from its place (R95). -/
theorem bundle_slots {ct mx vx ls mv qx b : Nat} (ct_lt : ct < 2 ^ 48) (mx_lt : mx < 2 ^ 40) (vx_lt : vx < 2 ^ 48) (ls_lt : ls < 2 ^ 40)
    (mv_lt : mv < 2 ^ 40) (qx_lt : qx < 2 ^ 40)
    (bundle : b = ct * 2 ^ 208 + mx * 2 ^ 168 + vx * 2 ^ 120 + ls * 2 ^ 80 + mv * 2 ^ 40 + qx) :
    bits b 255 208 = ct ∧ bits b 207 168 = mx ∧ bits b 167 120 = vx ∧ bits b 119 80 = ls ∧ bits b 79 40 = mv ∧ bits b 39 0 = qx := by
  simp only [bits]
  omega

/-- Settles O58: what a slot decodes to spells the slot's word, and an instruction's word decodes to it. -/
theorem slotEncodings : Obligations.SlotEncodings := by
  refine ⟨⟨fun w h o size => ⟨decodeCt_sound size, ?_⟩, fun w h o size => ⟨decodeMx_sound size, ?_⟩,
    fun w h o size => ⟨decodeVx_sound size, ?_⟩, fun w h o size => ⟨decodeLs_sound size, ?_⟩,
    fun w h o size => ⟨decodeMv_sound size, ?_⟩, fun w h o size => ⟨decodeQx_sound size, ?_⟩⟩, ?bundle⟩
  · rintro rfl; exact (decodeCt_encodeCt h o).2
  · rintro rfl; exact (decodeMx_encodeMx h o).2
  · rintro rfl; exact (decodeVx_encodeVx h o).2
  · rintro rfl; exact (decodeLs_encodeLs h o).2
  · rintro rfl; exact (decodeMv_encodeMv h o).2
  · rintro rfl; exact (decodeQx_encodeQx h o).2
  case bundle =>
    intro h0 h1 h2 h3 h4 h5 ct mx vx ls mv qx
    obtain ⟨ct_lt, ct_eq⟩ := decodeCt_encodeCt h0 ct
    obtain ⟨mx_lt, mx_eq⟩ := decodeMx_encodeMx h1 mx
    obtain ⟨vx_lt, vx_eq⟩ := decodeVx_encodeVx h2 vx
    obtain ⟨ls_lt, ls_eq⟩ := decodeLs_encodeLs h3 ls
    obtain ⟨mv_lt, mv_eq⟩ := decodeMv_encodeMv h4 mv
    obtain ⟨qx_lt, qx_eq⟩ := decodeQx_encodeQx h5 qx
    obtain ⟨ct_at, mx_at, vx_at, ls_at, mv_at, qx_at⟩ := bundle_slots ct_lt mx_lt vx_lt ls_lt mv_lt qx_lt rfl
    simp only [decodeBundle, encodeSlot, ct_at, mx_at, vx_at, ls_at, mv_at, qx_at, ct_eq, mx_eq, vx_eq, ls_eq, mv_eq, qx_eq, Option.map_some]

end Sys2Proof

/-! PROOF. Every command answers a next state, unless it names a unit the module lacks (R10, R22, R90, R195, R277, R423, R445; log
entries 8 and 9). A row is one of a few shapes, of which each settles the question at once, or a choice between next states. -/
namespace Sys2Proof.Machine

/-- An outcome that is a next state. -/
def answersNext (o : Out State) : Prop := ∃ t, o = .next t

theorem answersNext_next (t : State) : answersNext (.next t) := ⟨t, rfl⟩

theorem answersNext_ite {p : Prop} [Decidable p] {a b : Out State} (ha : answersNext a) (hb : answersNext b) :
    answersNext (if p then a else b) := by
  split
  · exact ha
  · exact hb

/-- Command `i` stops in `s` with the name of the unit it lacks, and answers a next state when it lacks none. -/
def stopsAsMissing (i : Instr) (s : State) : Prop :=
  (∀ f, missing i s = some f → exec i s = .fault f) ∧ (missing i s = none → answersNext (exec i s))

/-! ### The shapes of the rows -/

/-- A row that stops with `f` exactly when the unit it names is not there. -/
theorem stopsAsMissing_of_guard {i : Instr} {s : State} {there : Prop} [Decidable there] {f : Fault} {o : Out State}
    (names : missing i s = if there then none else some f) (row : exec i s = if there then o else .fault f)
    (next : there → answersNext o) : stopsAsMissing i s := by
  unfold stopsAsMissing
  rw [names, row]
  by_cases h : there
  · simpa [h] using next h
  · simp [h]

/-- A row that names no unit. -/
theorem stopsAsMissing_of_next {i : Instr} {s : State} (names : missing i s = none) (next : answersNext (exec i s)) :
    stopsAsMissing i s := by
  simpa [stopsAsMissing, names] using next

theorem stopsAsMissing_onCore {i : Instr} {s t : State} {c : Nat} (names : missing i s = if s.hasCore c then none else some .noSuchCore)
    (row : exec i s = onCore s c t) : stopsAsMissing i s :=
  stopsAsMissing_of_guard names row fun _ => answersNext_next t

theorem stopsAsMissing_onRegion {i : Instr} {s t : State} {r : Nat} (names : missing i s = if r < 80 then none else some .noSuchRegion)
    (row : exec i s = onRegion r t s) : stopsAsMissing i s :=
  stopsAsMissing_of_guard names row fun _ => answersNext_next t

/-- A row whose guard is put the other way round. -/
theorem stopsAsMissing_of_limit {i : Instr} {s : State} {n k : Nat} {f : Fault} {o : Out State}
    (names : missing i s = if k < n then none else some f) (row : exec i s = if n ≤ k then .fault f else o) (next : answersNext o) :
    stopsAsMissing i s := by
  refine stopsAsMissing_of_guard names (o := o) ?_ fun _ => next
  rw [row]
  by_cases h : n ≤ k <;> simp [h]

theorem stopsAsMissing_row {i : Instr} {s : State} {ch : Nat} {p : CmdSpec}
    (names : missing i s = if ch < 10 then none else some .noSuchMailbox) (row : exec i s = p.row ch s) : stopsAsMissing i s :=
  stopsAsMissing_of_limit names row (answersNext_next _)

theorem answersNext_heard {s : State} {o : Out State} (next : answersNext o) : answersNext (s.heard o) :=
  answersNext_ite (answersNext_next s) next

theorem stopsAsMissing_ringWrite {i : Instr} {s t : State} {r : Nat}
    (names : missing i s = if r < 64 then none else some .noSuchRing) (row : exec i s = s.ringWrite r t) : stopsAsMissing i s :=
  stopsAsMissing_of_guard names row fun _ => answersNext_heard (answersNext_next t)

/-! ### Register writes -/

theorem answersNext_mailboxWrite {c : Nat} (there : c < 8) (o : Nat) (v : W32) (s : State) : answersNext (mailboxWrite c o v s) := by
  unfold mailboxWrite execMbDoorbell
  rw [if_neg (by omega : ¬ 8 ≤ c)]
  dsimp only
  split
  · exact answersNext_next _
  · split
    · exact answersNext_heard (answersNext_next _)
    all_goals exact answersNext_next _

theorem answersNext_ringWrite {r : Nat} (there : r < 64) (s t : State) : answersNext (s.ringWrite r t) := by
  unfold State.ringWrite
  rw [if_pos there]
  exact answersNext_heard (answersNext_next t)

theorem answersNext_rqWrite {r : Nat} (there : r < 64) (o : Nat) (v : W32) (s : State) : answersNext (rqWrite r o v s) := by
  unfold rqWrite
  dsimp only
  split
  case h_3 | h_4 => exact answersNext_ringWrite there _ _
  all_goals exact answersNext_next _

theorem answersNext_cqWrite {r : Nat} (there : r < 64) (o : Nat) (v : W32) (s : State) : answersNext (cqWrite r o v s) := by
  unfold cqWrite
  dsimp only
  split
  case h_3 | h_4 | h_5 => exact answersNext_ringWrite there _ _
  all_goals exact answersNext_next _

theorem answersNext_recCfg (v : W32) (s : State) : answersNext (execRecCfg v s) :=
  answersNext_ite (answersNext_next _) (answersNext_next _)

theorem answersNext_recHead (v : W32) (s : State) : answersNext (execRecHead v s) := answersNext_heard (answersNext_next _)

theorem answersNext_evlCfg (v : W32) (s : State) : answersNext (execEvlCfg v s) := by
  refine answersNext_heard ?_
  extract_lets e en e' s'
  split
  · split <;> exact answersNext_next _
  · exact answersNext_next _

theorem answersNext_evcDone (n : Nat) (s : State) : answersNext (execEvcDone n s) := by
  unfold execEvcDone
  extract_lets e
  split
  · exact answersNext_ite (answersNext_next _) (answersNext_next _)
  · exact answersNext_next _

theorem answersNext_bar0Write (o : Nat) (v : W32) (s : State) : answersNext (bar0Write o v s) := by
  unfold bar0Write
  simp only [Bool.and_eq_true, decide_eq_true_eq]
  split
  · exact answersNext_mailboxWrite (by omega) _ _ _
  split
  · exact answersNext_rqWrite (by omega) _ _ _
  split
  · exact answersNext_cqWrite (by omega) _ _ _
  split
  · unfold recWrite
    split
    case h_3 => exact answersNext_recCfg v s
    case h_4 => exact answersNext_recHead v s
    all_goals exact answersNext_next _
  split
  · unfold evlWrite
    split
    case h_3 => exact answersNext_evlCfg v s
    all_goals exact answersNext_next _
  split
  · unfold winWrite
    split <;> exact answersNext_next _
  split
  · unfold msixWrite
    split <;> exact answersNext_next _
  · exact answersNext_next _

theorem answersNext_evcWrite (o : Nat) (v : W32) (s : State) : answersNext (evcWrite o v s) := by
  unfold evcWrite
  dsimp only
  split
  case h_2 => exact answersNext_evcDone _ s
  case h_4 => exact answersNext_ite (answersNext_next _) (answersNext_next _)
  all_goals exact answersNext_next _

theorem answersNext_paceWrite (o : Nat) (v : W32) (s : State) : answersNext (paceWrite o v s) := by
  unfold paceWrite
  dsimp only
  split <;> exact answersNext_next _

theorem answersNext_linkWrite (p o : Nat) (v : W32) (s : State) : answersNext (linkWrite p o v s) := by
  unfold linkWrite
  dsimp only
  split <;> exact answersNext_next _

theorem answersNext_fabWrite (o : Nat) (v : W32) (s : State) : answersNext (fabWrite o v s) := by
  unfold fabWrite
  split <;> exact answersNext_next _

theorem answersNext_pwrWrite (o : Nat) (v : W32) (s : State) : answersNext (pwrWrite o v s) := by
  unfold pwrWrite
  dsimp only
  split
  case h_6 => exact answersNext_ite (answersNext_next _) (answersNext_next _)
  all_goals exact answersNext_next _

theorem answersNext_mpWrite (a : Nat) (v : W32) (s : State) : answersNext (mpWrite a v s) := by
  unfold mpWrite
  dsimp only
  split
  · exact answersNext_evcWrite ..
  · exact answersNext_paceWrite ..
  · exact answersNext_ite (answersNext_next _) (answersNext_next _)
  · exact answersNext_linkWrite ..
  · exact answersNext_fabWrite ..
  · exact answersNext_pwrWrite ..
  · exact answersNext_ite (answersNext_next _) (answersNext_ite (answersNext_next _) (answersNext_next _))
  · exact answersNext_next _

theorem answersNext_wordWrite (host : Bool) (a : Nat) (v : W32) (s : State) : answersNext (wordWrite host a v s) :=
  answersNext_ite (answersNext_bar0Write a v s) (answersNext_mpWrite a v s)

theorem answersNext_registerWrite (host : Bool) (addr size : Nat) (v : W64) (s : State) :
    answersNext (execRegisterWrite host addr size v s) := by
  unfold execRegisterWrite
  split
  · exact answersNext_next s
  split
  · exact answersNext_wordWrite ..
  split
  · split
    · exact answersNext_next _
    · obtain ⟨t, low⟩ := answersNext_wordWrite host addr (v.setWidth 32) s
      rw [low]
      exact answersNext_wordWrite ..
  · exact answersNext_next s

/-! ### Rows that name two units, or one of several -/

theorem stopsAsMissing_channelSlot (c k : Nat) (e : SlotEvent) (s : State) : stopsAsMissing (.channelSlot c k e) s := by
  unfold stopsAsMissing missing exec execChannelSlot
  by_cases hc : c < 36 <;> by_cases hk : k < 16 <;> simp [hc, hk]
  · rw [if_neg (by omega)]
    exact answersNext_ite (answersNext_next _) (answersNext_next _)

theorem stopsAsMissing_farRequest (c h k : Nat) (s : State) : stopsAsMissing (.farRequest c h k) s := by
  unfold stopsAsMissing missing exec execFarRequest
  by_cases hk : 36 ≤ k
  · simp [hk]
  · by_cases there : s.hasCore c <;> simp [hk, onCore, there, answersNext]

theorem stopsAsMissing_hostDma (op : DmaOp) (s : State) : stopsAsMissing (.hostDma op) s := by
  cases op with
  | prompt id =>
    refine stopsAsMissing_of_next rfl ?_
    simp only [exec, execHostDma]
    split
    · exact answersNext_next _
    · exact answersNext_ite (answersNext_next _) (answersNext_next _)
  | ring r =>
    exact stopsAsMissing_of_limit rfl rfl (answersNext_ite (answersNext_next _) (answersNext_next _))
  | command ch =>
    refine stopsAsMissing_of_limit rfl rfl ?_
    split
    · exact answersNext_next _
    · exact answersNext_ite (answersNext_next _) (answersNext_next _)

/-! ### The statement -/


theorem stopsAsMissing_all (i : Instr) (s : State) : stopsAsMissing i s := by
  cases i
  case nop | li | add | sub | and | or | xor | shl | shr | sra | mul | min | max | cmp | br | loop | loopEnd | halt | tickrd |
      gscrd | param | vld | vst | sld | sst | aadd | asub | ali | aset | aget | mcfg | mma | mmag | accumulatorCommit | mclr |
      mout | mmode | vadd | vmul | vfma | vmin | vmax | vcmp | vsel | vshuf | vred | vcvt | vqnt | vfn | vtopkInit | vtopkMerge |
      vtopkRead | vpen | vdrawDraw | vdrawSelect | vdrawClrsel | ssr | ssw | msend | mrecv | gath | qpush | qarm | qwait | qstat |
      pieceDeferral | lineDeferral | meshUnitArrival | endpointUnit | queueCompletion | resultUnit =>
    exact stopsAsMissing_onCore rfl rfl
  case tickIssue | tickToken | periodElapsed | gateRelease | supplyDroop | regionRetuneDone | paceStall | tsTimeoutFar |
      tsTimeoutFabric | retuneTimeout =>
    exact stopsAsMissing_onRegion rfl rfl
  case ident | jobLoad | jobServe | jobArm | jobLaunch | jobPause | jobSave | jobRestore | jobResume | jobUnload | jobStop |
      auditReplay | customerSet | customerRead | adapterInstall | adapterRetire | casLoad | casBcast | casChild | casParent |
      casRelease | casAbort | casUnload | gearSet | gearPolicy | powerPolicy | stepHint | tsLimits | telemetrySnap | linkCfg |
      routeLoad | routeSwitch | routeRead | rankRead | fence | syncCfg | mgmtCfg | fabAddrSet | secNonce | secOwnerClaim |
      secOwnerRelease | secKeySet | secPolicy | secMgmtKey | secOwnerRead | secFwUpdate | secSvnCommit | secLcAdvance | secReset |
      secSpdm | secChainRead | secProvision | secCertInstall | recoveryWrite | recoveryCommit | obsSet | patternSet | patternRead
      | inject | margin | debugStop | debugRead | debugRelease =>
    exact stopsAsMissing_row rfl rfl
  case rqTail | rqCfg | cqCfg | cqHead | cqArm =>
    exact stopsAsMissing_ringWrite rfl rfl
  case completionModerationTime =>
    exact stopsAsMissing_of_guard rfl rfl fun _ => answersNext_next _
  case kick | pcieReset | evcDoorbell | smbusClockLowTimeout | jobFatalStop | e2eTrailer | e2eAcknowledgement | converterFault |
      testLogicReset | bypass | idcode | samplePreload | extest | extestPulse | extestTrain | clamp | highz =>
    exact stopsAsMissing_of_next rfl (answersNext_next _)
  case getVersion | getCapabilities | negotiateAlgorithms | getDigests | getCertificate | challenge | getMeasurements |
      respondIfReady =>
    exact stopsAsMissing_of_next rfl (answersNext_ite (answersNext_next _) (answersNext_next _))
  case registerWrite =>
    exact stopsAsMissing_of_next rfl (answersNext_registerWrite ..)
  case recHead =>
    exact stopsAsMissing_of_next rfl (answersNext_recHead ..)
  case evlCfg =>
    exact stopsAsMissing_of_next rfl (answersNext_evlCfg ..)
  case evcDone =>
    exact stopsAsMissing_of_next rfl (answersNext_evcDone ..)
  case marginDwellEnd | unitTime | uncorrectableUnit | replayTimer | nakRepeat | trainingFrame | trainingTimeout | wl1Packet |
      e2eTimeout | checkerLock | checkerLockLost | backgroundUrgent | commandTimeout | heartbeat | commandFrame | heartbeatWindow
      | newUnit | replayUnit | idleUnit | voidUnit =>
    refine stopsAsMissing_of_limit rfl rfl ?_
    (repeat' first | with_reducible exact answersNext_next _ | with_reducible apply answersNext_ite | split)
  case mbDoorbell =>
    exact stopsAsMissing_of_limit rfl rfl (answersNext_heard (answersNext_next _))
  case landingTransfer | gearSwitchCount | calibration | trimBuild | refLossEvent | refLoss | refRestored | mr4Poll | farTraining
      | cassetteManifest | cassetteBlock | cassetteAck | cassetteAckRepeat | childBcastTimeout | parentBcastTimeout | retainExpiry
      | residentReadback | nonceExpiry | obsSelectApply | mpWatchdog | windowAccess | pcieLinkLoss | perstN | recCfg | evcClaim |
      evcModTime | evcAgePromotion | fenceTimer | smbusRead | ringFetch | promptReadDone | requestUrgent | refillWindow |
      blockClose | blockSign | saveTick | jobEnd | launchCount | moduleFatalReset | beaconPeriod | beacon | gscUnsync | launchUnit
      | launchAck | launchFailed | jobStopUnit | stepDrained | stepClear | leadStepDescriptor | epochSwitch | bankDrained |
      powerExitPlanned | powerExitDone | policyCap | sensorSample | brakeOff | thermalRestart | tamperDetection | pwrEnRise |
      powerOnReset | pwrEnFall | undervoltageLockout | overvoltageLockout | vinTurnOn | stepDueLapse | adapterLoadDone =>
    refine stopsAsMissing_of_next rfl ?_
    simp only [exec]
    delta execLandingTransfer execGearSwitchCount execCalibration execTrimBuild execRefLossEvent execRefLoss execRefRestored
      execMr4Poll execFarTraining execCassetteManifest execCassetteBlock execCassetteAck execCassetteAckRepeat
      execChildBcastTimeout execParentBcastTimeout execRetainExpiry execResidentReadback execNonceExpiry execObsSelectApply
      execMpWatchdog execWindowAccess execPcieLinkLoss execPerstN execRecCfg execEvcClaim execEvcModTime execEvcAgePromotion
      execFenceTimer execSmbusRead execRingFetch execPromptReadDone execRequestUrgent execRefillWindow execBlockClose
      execBlockSign execSaveTick execJobEnd execLaunchCount execModuleFatalReset execBeaconPeriod execBeacon execGscUnsync
      execLaunchUnit execLaunchAck execLaunchFailed execJobStopUnit execStepDrained execStepClear execLeadStepDescriptor
      execEpochSwitch execBankDrained execPowerExitPlanned execPowerExitDone execPolicyCap execSensorSample execBrakeOff
      execThermalRestart execTamperDetection execPwrEnRise execPowerOnReset execPwrEnFall execUndervoltageLockout
      execOvervoltageLockout execVinTurnOn execStepDueLapse execAdapterLoadDone
    (repeat' first | with_reducible exact answersNext_next _ | with_reducible apply answersNext_ite | split | extract_lets)
  case channelSlot c k e => exact stopsAsMissing_channelSlot c k e s
  case farRequest c h k => exact stopsAsMissing_farRequest c h k s
  case hostDma op => exact stopsAsMissing_hostDma op s

/-- Settles O2: by the shape of each command's row, and for the rows of no shape by their branches, each a next state. -/
theorem onlyMissingUnitsStop : Obligations.OnlyMissingUnitsStop := fun i s => stopsAsMissing_all i s

end Sys2Proof.Machine

/-! PROOF. The front of the queue, the reset values, the words written out, and the capture of a core fault. -/
namespace Sys2Proof.Machine

/-- Settles O1: a step is defined by the queue's two shapes. -/
theorem stepRunsFront : Obligations.StepRunsFront :=
  ⟨fun _ _ _ => rfl, fun s empty => ⟨s.nanosecond, by simp [step, empty]⟩⟩

/-- Settles O59: each word is decoded. -/
theorem slotWordsDecode : Obligations.SlotWordsDecode := by
  unfold Obligations.SlotWordsDecode
  decide

/-! ### The reset state -/

theorem reset_region (r : Nat) : State.reset.region r = .init := rfl

theorem reset_leadLimit : State.reset.leadLimit := by
  intro r d q _ _ _
  simp [reset_region, Region.init]

theorem reset_tokensIssued : State.reset.tokensIssued := by
  intro r d q _ _ _
  simp [reset_region, Region.init, Map.find]

theorem reset_gatesHold : State.reset.gatesHold := by
  intro r _ gate
  simp [reset_region, Region.init] at gate

/-- Settles O55: every table of the reset state is empty, so each entry reads as its initial value. -/
theorem resetValues : Obligations.ResetValues := by
  refine ⟨?_, reset_leadLimit, reset_tokensIssued, reset_gatesHold⟩
  refine ⟨rfl, rfl, rfl, rfl, rfl, rfl, rfl, rfl, rfl, rfl, rfl, rfl, rfl, rfl, rfl, rfl, rfl, rfl, rfl, rfl, rfl, rfl, rfl, rfl,
    rfl, rfl, rfl, rfl, rfl, rfl, fun c => ⟨rfl, rfl, rfl, rfl, rfl, rfl, rfl, rfl, rfl, rfl, rfl, rfl, rfl⟩⟩

/-! ### A core fault -/

/-- The first fault of a job is captured whole (R125). -/
theorem CoreRegs.capture_first {r : CoreRegs} (first : r.faultValid = false) (code core tick pc : Nat) {slot : Nat} (inSlot : slot ≠ 6) :
    r.capture code core slot tick pc = { r with
      faultCode := BitVec.ofNat 16 code, faultCore := core, faultSlot := slot, faultValid := true
      faultTick := tick, faultPc := pc, faultMore := 0
      trace := traceIns { tick := tick, index := traceRegion core, code := code } r.trace } := by
  simp [CoreRegs.capture, first, inSlot]

/-- A core fault is a job-fatal fault of a state with the same job, clock and power. -/
theorem State.coreFault_eq_jobFatal (s : State) (c slot code : Nat) : ∃ u : State,
    s.coreFault c slot code = u.jobFatal code (some (s.regionOf c)) ∧
    u.power = s.power ∧ u.far = s.far ∧ u.job = s.job ∧ u.gsc = s.gsc := by
  unfold State.coreFault
  dsimp only
  split <;> exact ⟨_, rfl, rfl, rfl, rfl, rfl⟩

/-- Settles O4: the capture of the first fault, the stopped core, and the job's stop, each by its own law. -/
theorem coreFaultCaptured : Obligations.CoreFaultCaptured := by
  intro s c slot code inSlot _ first run
  obtain ⟨u, eq, power, far, job, gsc⟩ := s.coreFault_eq_jobFatal c slot code
  have mode : u.power.mode = .run := power ▸ run
  have stop := u.jobFatal_stop code (some (s.regionOf c)) 0 0 none none mode
  have noted := u.jobFatal_job code (some (s.regionOf c)) 0 0 none none mode
  have slots : slot ≠ 6 := by omega
  refine ⟨(s.coreFault_coreRegs c slot code).trans (CoreRegs.capture_first first code c _ _ slots),
    s.coreFault_core c slot code slots, fun d other => s.coreFault_core_other c d slot code other, ?_, ?_, ?_, ?_⟩
  · exact State.coreFault_ss ..
  · rw [eq, State.jobFatal_far _ _ _ _ _ _ _ mode, far]
  · rw [eq, noted, job]
    split <;> simp only [JobStatus.note]
    split <;> rfl
  · intro active
    rw [eq, stop, noted, job]
    refine ⟨?_, fun none => ?_⟩
    · simp only [active, if_true]
      split <;> rfl
    · simp [active, JobStatus.note, none, gsc]

end Sys2Proof.Machine

/-! PROOF. What the operand forms read, and when a result reaches its register. -/
namespace Sys2Proof.Machine

theorem mem_insertBy {α : Type} {le : α → α → Bool} {x y : α} {l : List α} : y ∈ insertBy le x l ↔ y = x ∨ y ∈ l := by
  induction l with
  | nil => simp [insertBy]
  | cons z zs ih =>
    unfold insertBy
    split
    · simp
    · simp only [List.mem_cons, ih]
      tauto

theorem mem_sortBy {α : Type} {le : α → α → Bool} {y : α} {l : List α} : y ∈ sortBy le l ↔ y ∈ l := by
  induction l with
  | nil => simp [sortBy]
  | cons z zs ih => simp_all [sortBy, mem_insertBy]

/-! ### Writes of a scalar register -/

theorem Core.rs_writeReg_other (k : Core) {r : Reg} {n : Nat} (x : RegVal) (other : r ≠ .s n) : (k.writeReg r x).rs n = k.rs n := by
  unfold Core.writeReg
  dsimp only
  split
  case h_1 m y =>
    have apart : n ≠ m := fun e => other (e ▸ rfl)
    simp [Core.rs, Map.find_put_other, apart]
  all_goals rfl

theorem Core.rs_writeReg_same (k : Core) {n : Nat} (pos : 0 < n) (v : W64) : (k.writeReg (.s n) (.s v)).rs n = v := by
  simp [Core.writeReg, Core.rs, Nat.ne_of_gt pos, Map.find_put_same]

/-- Results for other registers leave `s n` as it is. -/
theorem Core.rs_writes_other {l : List Wb} {n : Nat} (others : ∀ w ∈ l, w.reg ≠ .s n) (k : Core) :
    (l.foldl (fun k w => k.writeReg w.reg w.val) k).rs n = k.rs n := by
  induction l generalizing k with
  | nil => rfl
  | cons w l ih =>
    rw [List.foldl_cons, ih (fun x m => others x (List.mem_cons_of_mem w m)),
      Core.rs_writeReg_other k _ (others w List.mem_cons_self)]

/-- Among results of which `w` alone is for `s n`, `s n` reads `w`'s value in the end. -/
theorem Core.rs_writes_only {l : List Wb} {w : Wb} {n : Nat} {v : W64} (pos : 0 < n) (reg : w.reg = .s n) (val : w.val = .s v)
    (among : w ∈ l) (others : ∀ x ∈ l, x = w ∨ x.reg ≠ .s n) (k : Core) :
    (l.foldl (fun k w => k.writeReg w.reg w.val) k).rs n = v := by
  induction l generalizing k with
  | nil => cases among
  | cons x l ih =>
    have rest : ∀ y ∈ l, y = w ∨ y.reg ≠ .s n := fun y m => others y (List.mem_cons_of_mem x m)
    rw [List.foldl_cons]
    by_cases later : w ∈ l
    · exact ih later rest _
    · obtain rfl : w = x := (List.mem_cons.mp among).resolve_right later
      have none : ∀ y ∈ l, y.reg ≠ .s n := fun y m => (rest y m).resolve_left fun e => later (e ▸ m)
      rw [Core.rs_writes_other none, reg, val, Core.rs_writeReg_same k pos]

/-! ### The statement -/

theorem Core.operands_read (k : Core) :
    k.rs 0 = 0#64 ∧ k.rp 0 = true ∧
    (∀ (x : W64) (d i n : Nat), k.result (.s 0) (.s x) d i n = k) ∧ (∀ (x : Bool) (d i n : Nat), k.result (.p 0) (.p x) d i n = k) ∧
    (∀ sb, k.src (.reg sb) = k.rs sb.toNat) ∧ (∀ i, (k.src (.imm i)).toInt = i.toInt) ∧
    (∀ ac, k.asrc (.reg ac) = k.ra ac.toNat) ∧ (∀ i, (k.asrc (.imm i)).toInt = i.toInt) ∧
    (∀ i, k.cnt (.imm i) = i.toNat) ∧ (∀ sb, k.cnt (.reg sb) = (k.rs sb.toNat).toNat) ∧
    (∀ i, k.tgt (.imm i) = i.toNat) ∧ (∀ sb, k.tgt (.reg sb) = (k.rs sb.toNat).toNat) := by
  refine ⟨rfl, rfl, fun _ _ _ _ => rfl, fun _ _ _ _ => rfl, fun _ => rfl, fun i => ?_, fun _ => rfl, fun i => ?_, fun _ => rfl,
    fun _ => rfl, fun _ => rfl, fun _ => rfl⟩
  · exact BitVec.toInt_signExtend_of_le (by decide)
  · exact BitVec.toInt_signExtend_of_le (by decide)

/-- A result that no other accompanies is seen from its tick on. -/
theorem Core.commitWb_rs (k : Core) {w : Wb} {n : Nat} {v : W64} (pos : 0 < n) (reg : w.reg = .s n) (val : w.val = .s v)
    (others : ∀ x ∈ k.wb, x.reg ≠ .s n) (T : Nat) :
    (({ k with wb := k.wb ++ [w] } : Core).commitWb T).rs n = if w.due ≤ T then v else k.rs n := by
  unfold Core.commitWb
  split
  case isTrue due =>
    refine Core.rs_writes_only (w := w) pos reg val ?_ ?_ _
    · simp [mem_sortBy, due]
    · intro x m
      simp only [mem_sortBy, List.mem_filter, List.mem_append, List.mem_singleton] at m
      exact m.1.symm.imp_right (others x)
  case isFalse notDue =>
    rw [Core.rs_writes_other]
    · rfl
    · intro x m
      simp only [mem_sortBy, List.mem_filter, List.mem_append, List.mem_singleton, decide_eq_true_eq] at m
      obtain ⟨old | rfl, due⟩ := m
      · exact others x old
      · exact absurd due notDue

/-- Settles O5: the operand forms by definition, and the commit by the last write of the register. -/
theorem registersReadAndWritten : Obligations.RegistersReadAndWritten :=
  ⟨Core.operands_read, fun k _ _ _ _ _ T pos others => k.commitWb_rs pos rfl rfl others T⟩

end Sys2Proof.Machine

/-! PROOF. NOP, BR, LOOP, the end of a loop's body and HALT (R100, R103, R127, R133, R136). -/
namespace Sys2Proof.Machine

/-- The NOP of each slot. -/
def nopOf (h : Hdr) : Slot → SlotOp
  | .ct => .ct h .nop | .mx => .mx h .nop | .vx => .vx h .nop | .ls => .ls h .nop | .mv => .mv h .nop | .qx => .qx h .nop

/-- A NOP is legal in every core, and reads its predicate alone. -/
theorem issueFault_nop {k : Core} {h : Hdr} (good : Reg.p h.pred.toNat ∉ k.parity) (exact : Bool) (slot : Slot) :
    issueFault k exact (nopOf h slot) none = none := by
  cases slot <;> simp [nopOf, issueFault, slotIllegal, SlotOp.wf, CtOp.wf, MxOp.wf, VxOp.wf, LsOp.wf, MvOp.wf, SlotOp.reads,
    SlotOp.operands, SlotOp.hdr, good]

theorem issueSlot_nop {s : State} {c : Nat} {h : Hdr} (good : Reg.p h.pred.toNat ∉ (s.core c).parity) (slot : Slot) :
    issueSlot s c (nopOf h slot) none s = s := by
  simp [issueSlot, issueFault_nop good]

theorem chkBr_eq_none {f : BrF} {c : Nat} {s : State} (noBranch : (s.core c).branch = none)
    (inside : ∀ l ∈ (s.core c).loops, l.last ≠ (s.core c).pc) (near : (s.core c).tgt f.tgt < (s.core c).codeLen) :
    chkBr f c s = none := by
  have notLast : (s.core c).atLoopEnd = false := by simpa [Core.atLoopEnd] using inside
  simp [chkBr, noBranch, notLast, near]

theorem chkLoop_eq_none {f : LoopF} {c : Nat} {s : State} (noBranch : (s.core c).branch = none)
    (near : f.endAt.toNat < (s.core c).codeLen) (room : (s.core c).cnt f.count = 0 ∨ (s.core c).loops.length < 4) :
    chkLoop f c s = none := by
  rw [chkLoop, noBranch]
  rcases room with empty | room
  · simp [Nat.not_le.mpr near, empty]
  · simp [Nat.not_le.mpr near, Nat.not_le.mpr room]

/-- A BR changes its core alone: the link on its way, and the branch after two delay bundles. -/
theorem onlyCore_doBr (f : BrF) (c : Nat) (s : State) :
    onlyCore s (doBr f c s) c { withResult s c (s.core c) (.s f.sl.toNat) (.s (BitVec.ofNat 64 ((s.core c).pc + 3))) 1 0 with
      branch := some ((s.core c).tgt f.tgt, 2) } := by
  rw [← result_eq]
  simpa [doBr, putS] using onlyCore_setCore2 s c _ _

/-! ### The end of a loop's body (R136) -/

theorem loopNext_of_passes {pc : Nat} {l : Loop} (ends : l.last = pc) (left : 0 < l.left) (ls : List Loop) :
    loopNext pc (l :: ls) = (l.first, { l with left := l.left - 1, done := l.done + 1 } :: ls) := by
  simp [loopNext, ends, left]

theorem loopNext_of_other {pc : Nat} {ls : List Loop} (other : ∀ l ∈ ls.head?, l.last ≠ pc) : loopNext pc ls = (pc + 1, ls) := by
  cases ls with
  | nil => rfl
  | cons l ls => rw [loopNext, if_neg (other l rfl)]

/-- Loops whose last pass ends at `pc` close, and what follows is treated as if they had not been. -/
theorem loopNext_closing {pc : Nat} {closing : List Loop} (last : ∀ l ∈ closing, l.last = pc ∧ l.left = 0) (ls : List Loop) :
    loopNext pc (closing ++ ls) = loopNext pc ls := by
  induction closing with
  | nil => rfl
  | cons l closing ih =>
    obtain ⟨ends, left⟩ := last l List.mem_cons_self
    rw [List.cons_append, loopNext, if_pos ends, if_neg (by omega), ih fun m h => last m (List.mem_cons_of_mem l h)]

/-- Settles O7: BR and LOOP pass their checks, the rest have none; the loops of one END by induction on those that close. -/
theorem controlFlow : Obligations.ControlFlow := by
  refine ⟨⟨?nop, ?br, ?loop, ?loopEnd, ?halt⟩, ?ends⟩
  case nop =>
    intro s c slot h there good
    refine ⟨s, ?_, rfl⟩
    have row : exec (.nop c slot h) s = onCore s c (issueSlot s c (nopOf h slot) none s) := by cases slot <;> rfl
    rw [row, issueSlot_nop good, onCore_next _ _ _ there]
  case br =>
    intro s c h f hi k target noBranch inside near
    exact ⟨_, row_act hi (chkBr_eq_none noBranch inside near) _, onlyCore_doBr f c s⟩
  case loop =>
    intro s c h f hi k n noBranch near room
    exact ⟨_, row_act hi (chkLoop_eq_none noBranch near room) _, onlyCore_setCore s c _⟩
  case loopEnd =>
    intro s c l ls there live next branch loops ends left
    refine ⟨_, onCore_next _ _ _ there, ?_⟩
    have taken : doLoopEnd c s = s.setCore c
        { s.core c with next := some l.first, loops := { l with left := l.left - 1, done := l.done + 1 } :: ls } := by
      simp [doLoopEnd, live, next, branch, loops, ends, loopNext_of_passes ends left]
    exact taken ▸ onlyCore_setCore s c _
  case halt =>
    intro s c h hi
    exact ⟨_, row_act hi rfl _, State.core_setCore s c _, fun d other => State.core_setCore_other s _ other, rfl, rfl⟩
  case ends =>
    intro pc closing ls last other
    exact ⟨(loopNext_closing last ls).trans (loopNext_of_other other), fun m ends left =>
      (loopNext_closing last _).trans (loopNext_of_passes ends left ls)⟩

end Sys2Proof.Machine

/-! PROOF. A piece of a store access writes its own bytes, and deferred pieces and lines come back at the next tick (R106, R107, R190). -/
namespace Sys2Proof.Machine

theorem Core.perform_read {ws0 : Mem} {k : Core} {p : Piece} {o : Op} (op : k.opAt p.op = some o) (read : p.write = none) :
    (Core.perform ws0 k p).ws = k.ws := by
  simp [Core.perform, op, read]

theorem Core.perform_write {ws0 : Mem} {k : Core} {p : Piece} {o : Op} {b : Bytes} (op : k.opAt p.op = some o)
    (write : p.write = some b) : (Core.perform ws0 k p).ws = k.ws.write p.addr b := by
  simp [Core.perform, op, write]

/-- A piece changes no register and no accumulator, and does not move the core. -/
theorem Core.perform_registers (ws0 : Mem) (k : Core) (p : Piece) :
    let q := Core.perform ws0 k p
    q.s = k.s ∧ q.a = k.a ∧ q.p = k.p ∧ q.v = k.v ∧ q.acc = k.acc ∧ q.pc = k.pc := by
  unfold Core.perform
  split
  · exact ⟨rfl, rfl, rfl, rfl, rfl, rfl⟩
  · dsimp only
    split <;> exact ⟨rfl, rfl, rfl, rfl, rfl, rfl⟩

/-- Settles O10: a piece by the laws of `Mem.write`, the deferrals by what `requeue` puts back. -/
theorem storeAccesses : Obligations.StoreAccesses := by
  refine ⟨fun ws0 k p o op => ⟨Core.perform_read op, fun b write => ?_, Core.perform_registers ws0 k p⟩,
    fun s c there => ⟨?piece, ?line⟩⟩
  · rw [Core.perform_write op write]
    exact ⟨fun i inside => Mem.get_write_inside _ _ _ _ inside, fun a apart => Mem.get_write_outside _ _ _ apart⟩
  case piece => exact ⟨_, onCore_next _ _ _ there, onlyCore_setCore s c _⟩
  case line =>
    refine ⟨_, onCore_next _ _ _ there, fun l => ?_, fun l => ?_, rfl⟩
    · simp [State.requeueLines]
    · simp [State.requeueLines, and_assoc, eq_comm]

end Sys2Proof.Machine

/-! PROOF. When a region issues its next tick, and what an unmet gate does instead (R23 to R37). -/
namespace Sys2Proof.Machine

/-! ### The skid buffers of a tick (R26) -/

/-- The direction in which a neighbour sees the region that sees it in direction `d`. -/
def backOf (d : Nat) : Nat := if d % 2 = 0 then d + 1 else d - 1

/-- The entry of tick `t` of region `r` in the buffer of its neighbour in direction `d`. -/
def State.skidTo (r t : Nat) (s : State) (d : Nat) : State :=
  match neighbour r d with
  | none => s
  | some n => s.setRegion n { s.region n with
      skid := (s.region n).skid.put (backOf d) ((s.region n).skid.find [] (backOf d) ++ [t]) }

/-- Region `r` with the entries freed that tick `t` has no use for. -/
def Region.freed (x : Region) (t : Nat) : Region := { x with skid := x.skid.map fun e => (e.1, e.2.filter fun m => t < m + 2) }

theorem State.skidTick_eq (s : State) (r t : Nat) :
    s.skidTick r t = [0, 1, 2, 3].foldl (State.skidTo r t) (s.setRegion r ((s.region r).freed t)) := by
  unfold State.skidTick State.skidTo
  rfl

/-- No region is its own neighbour. -/
theorem neighbour_ne {r d q : Nat} (h : neighbour r d = some q) : q ≠ r := by
  unfold neighbour at h
  split at h <;> split at h <;> simp_all <;> omega

theorem State.skidTo_region_other {s : State} {r d q : Nat} (t : Nat) (other : neighbour r d ≠ some q) :
    (s.skidTo r t d).region q = s.region q := by
  unfold State.skidTo
  split
  · rfl
  · rename_i n towards
    exact State.region_setRegion_other _ _ fun e => other (e ▸ towards)

theorem State.skidTo_skid (s : State) (r t d q e : Nat) :
    ((s.skidTo r t d).region q).skid.find [] e =
      (s.region q).skid.find [] e ++ if neighbour r d = some q ∧ e = backOf d then [t] else [] := by
  by_cases towards : neighbour r d = some q
  · simp only [State.skidTo, towards, State.region_setRegion, Map.find_put, true_and]
    split <;> simp_all
  · rw [State.skidTo_region_other t towards, if_neg (fun h => towards h.1), List.append_nil]

theorem Map.find_mapValues {α : Type} (m : Map α) (f : α → α) {z : α} (zero : f z = z) (k : Nat) :
    Map.find (m.map fun e => (e.1, f e.2)) z k = f (m.find z k) := by
  induction m with
  | nil => exact zero.symm
  | cons e m ih =>
    simp only [List.map_cons, Map.find, ih]
    split <;> rfl

/-- The region's own buffers give up the entries of the ticks before the last. -/
theorem State.skidTick_skid_own (s : State) (r t d : Nat) :
    ((s.skidTick r t).region r).skid.find [] d = ((s.region r).skid.find [] d).filter fun m => t < m + 2 := by
  have own : ∀ d, neighbour r d ≠ some r := fun d h => neighbour_ne h rfl
  rw [State.skidTick_eq]
  simp only [List.foldl_cons, List.foldl_nil, State.skidTo_region_other t (own _), State.region_setRegion, Region.freed]
  exact Map.find_mapValues _ _ rfl d

/-- A neighbour's buffer toward the region takes the tick's entry. -/
theorem State.skidTick_skid_back (s : State) {r d q : Nat} (t : Nat) (dir : d < 4) (towards : neighbour r d = some q) :
    ((s.skidTick r t).region q).skid.find [] (backOf d) = (s.region q).skid.find [] (backOf d) ++ [t] := by
  rw [State.skidTick_eq]
  simp only [List.foldl_cons, List.foldl_nil, State.skidTo_skid, State.region_setRegion_other _ _ (neighbour_ne towards)]
  interval_cases d <;> simp [backOf, towards]

/-- A region that is neither the one that issues nor its neighbour is as it was. -/
theorem State.skidTick_region_other (s : State) {r q : Nat} (t : Nat) (other : q ≠ r) (far : ∀ d, d < 4 → neighbour r d ≠ some q) :
    (s.skidTick r t).region q = s.region q := by
  rw [State.skidTick_eq]
  simp only [List.foldl_cons, List.foldl_nil, State.skidTo_region_other t (far 3 (by decide)),
    State.skidTo_region_other t (far 2 (by decide)), State.skidTo_region_other t (far 1 (by decide)),
    State.skidTo_region_other t (far 0 (by decide)), State.region_setRegion_other _ _ other]

/-! ### The regions after a tick -/

theorem State.regionTick_region (s : State) (r t : Nat) (first : Bool) :
    (s.regionTick r t first).region r = { (s.skidTick r t).region r with
      issued := (s.region r).issued + 1, tickCount := t, elapsed := false, gate := none, stretch := 0, lastIssue := s.gsc } := by
  rw [State.region_eq _ _ (s.regionTick_regions r t first), State.region_setRegion]

theorem State.regionTick_region_other (s : State) {r q : Nat} (t : Nat) (first : Bool) (other : q ≠ r) :
    (s.regionTick r t first).region q = (s.skidTick r t).region q := by
  rw [State.region_eq _ _ (s.regionTick_regions r t first), State.region_setRegion_other _ _ other]

/-- A tick changes nothing of another region but its skid buffers. -/
theorem State.regionTick_noSkid (s : State) {r q : Nat} (t : Nat) (first : Bool) (other : q ≠ r) :
    ({ (s.regionTick r t first).region q with skid := (s.region q).skid } : Region) = s.region q := by
  rw [State.regionTick_region_other s t first other]
  exact congrArg (fun x : Region => { x with skid := (s.region q).skid }) (s.skidTick_noSkid r t q)

/-! ### The rows -/

theorem completes_onRegion {i : Instr} {s t : State} {r : Nat} {P : State → Prop} (there : r < 80) (row : exec i s = onRegion r t s)
    (holds : P t) : completes i s P :=
  ⟨t, row.trans (if_pos there), holds⟩

/-- When R23 allows the next tick, and no gate of it is unmet, the region issues it. -/
theorem State.tickIssue_issues {s : State} {r : Nat} (running : 0 < (s.region r).issued) (elapsed : (s.region r).elapsed = true)
    (tokens : (s.region r).hasTokens r = true) (free : (s.region r).gate = none)
    (may : s.mayIssue r ((s.region r).tickCount + 1) = true) (met : s.unmet r ((s.region r).tickCount + 1) = [])
    (noHold : s.otherHold r ((s.region r).tickCount + 1) = false) :
    s.tickIssue r = s.regionTick r ((s.region r).tickCount + 1) false := by
  simp [State.tickIssue, Nat.ne_of_gt running, elapsed, tokens, free, may, met, noHold]

/-- An unmet gate of the next tick holds the region instead. -/
theorem State.tickIssue_holds {s : State} {r : Nat} (running : 0 < (s.region r).issued) (elapsed : (s.region r).elapsed = true)
    (tokens : (s.region r).hasTokens r = true) (free : (s.region r).gate = none)
    (may : s.mayIssue r ((s.region r).tickCount + 1) = true) (unmet : s.unmet r ((s.region r).tickCount + 1) ≠ []) :
    s.tickIssue r = s.beginHold r (s.unmet r ((s.region r).tickCount + 1)) := by
  simp only [State.tickIssue, Nat.ne_of_gt running, elapsed, tokens, free, may]
  split
  · simp_all
  · rfl

theorem State.tickIssue_waits {s : State} {r : Nat}
    (waits : (s.region r).issued = 0 ∨ (s.region r).elapsed = false ∨ (s.region r).hasTokens r = false) : s.tickIssue r = s := by
  rcases waits with h | h | h <;> simp [State.tickIssue, h]

theorem State.tickToken_region (s : State) {r d n : Nat} (towards : neighbour r d = some n) :
    s.tickToken r d true = if (s.region r).tokens.find 0 d < (s.region n).issued then
      s.setRegion r { s.region r with tokens := (s.region r).tokens.put d ((s.region r).tokens.find 0 d + 1) } else s := by
  simp only [State.tickToken, towards]
  by_cases behind : (s.region r).tokens.find 0 d < (s.region n).issued
  · simp [behind, Nat.not_le.mpr behind]
  · simp [behind, Nat.not_lt.mp behind]

/-- Settles O22: a tick by the regions it leaves, a token and the end of a period by the one region they change. -/
theorem tickIssue : Obligations.TickIssue := by
  refine ⟨?issues, ?waits, ?token, ?period⟩
  case issues =>
    intro s r there running elapsed tokens free may met noHold
    refine completes_onRegion there (congrArg (onRegion r · s)
      (State.tickIssue_issues running elapsed tokens free may met noHold)) ?_
    have own := s.regionTick_region r ((s.region r).tickCount + 1) false
    refine ⟨by rw [own], by rw [own], by rw [own], by rw [own]; exact State.skidTick_tokens .., fun d => ?_, fun d q dir towards => ?_,
      fun q other => s.regionTick_noSkid _ _ other, fun q other far => ?_⟩
    · rw [own]
      exact s.skidTick_skid_own r _ d
    · rw [s.regionTick_region_other _ _ (neighbour_ne towards)]
      exact s.skidTick_skid_back _ dir towards
    · rw [s.regionTick_region_other _ _ other]
      exact s.skidTick_region_other _ other far
  case waits => exact fun s r there waits => completes_onRegion there rfl (State.tickIssue_waits waits)
  case token =>
    intro s r d n there dir towards
    refine completes_onRegion there (congrArg (onRegion r · s)
      ((congrArg (s.tickToken r · true) (Nat.mod_eq_of_lt dir)).trans (s.tickToken_region towards))) ?_
    split
    · exact ⟨by simp, fun q other => State.region_setRegion_other _ _ other, by simp, rfl⟩
    · exact ⟨rfl, fun _ _ => rfl, rfl, rfl⟩
  case period =>
    intro s r there running
    refine completes_onRegion there (congrArg (onRegion r · s) (if_neg (Nat.ne_of_gt running))) ?_
    exact ⟨State.region_setRegion .., fun q other => State.region_setRegion_other _ _ other, rfl⟩

/-! ### Track-stands -/

theorem State.beginHold_region (s : State) (r : Nat) {ws : List (Nat × Nat × Wait)} (nonempty : ws ≠ []) :
    ∃ g, (s.beginHold r ws).region r = { s.region r with gate := some g } := by
  rw [State.beginHold, List.getLast?_eq_some_getLast nonempty]
  exact ⟨_, State.region_setRegion s r _⟩

theorem State.beginHold_region_other (s : State) {r q : Nat} (ws : List (Nat × Nat × Wait)) (other : q ≠ r) :
    (s.beginHold r ws).region q = s.region q := by
  unfold State.beginHold
  split
  · rfl
  · exact State.region_setRegion_other s _ other

/-- Every unmet gate is counted (R37). -/
theorem State.beginHold_tsCount (s : State) (r : Nat) {ws : List (Nat × Nat × Wait)} (nonempty : ws ≠ []) :
    (s.beginHold r ws).pace.tsCount = min (s.pace.tsCount + ws.length) (2 ^ 32 - 1) := by
  have last := List.getLast?_eq_some_getLast nonempty
  simp only [State.beginHold, last]
  rfl

theorem State.beginHold_cores (s : State) (r : Nat) (ws : List (Nat × Nat × Wait)) :
    (s.beginHold r ws).cores = s.cores ∧ (s.beginHold r ws).queues = s.queues := by
  unfold State.beginHold
  split <;> exact ⟨rfl, rfl⟩

/-- A held region whose completions are all visible issues its gate tick, if nothing else holds it. -/
theorem State.gateRelease_issues {s : State} {r : Nat} {g : GateHold} (held : (s.region r).gate = some g)
    (met : s.unmet r ((s.region r).tickCount + 1) = []) (may : s.mayIssue r ((s.region r).tickCount + 1) = true)
    (noHold : s.otherHold r ((s.region r).tickCount + 1) = false) :
    s.gateRelease r = s.regionTick r ((s.region r).tickCount + 1) false := by
  simp [State.gateRelease, held, met, may, noHold]

theorem State.gateRelease_waits {s : State} {r : Nat} (unmet : s.unmet r ((s.region r).tickCount + 1) ≠ []) : s.gateRelease r = s := by
  simp [State.gateRelease, unmet]

/-- Settles O23: a hold by what it changes, a release by the tick it issues. -/
theorem trackStands : Obligations.TrackStands := by
  refine ⟨?holds, ?waits, ?releases⟩
  case holds =>
    intro s r there running elapsed tokens free may unmet
    refine completes_onRegion there (congrArg (onRegion r · s) (State.tickIssue_holds running elapsed tokens free may unmet)) ?_
    obtain ⟨g, own⟩ := s.beginHold_region r unmet
    obtain ⟨cores, queues⟩ := s.beginHold_cores r (s.unmet r ((s.region r).tickCount + 1))
    exact ⟨by rw [own]; rfl, by rw [own], by rw [own], s.beginHold_tsCount r unmet, cores, queues,
      fun q other => s.beginHold_region_other _ other⟩
  case waits => exact fun s r g there held unmet => completes_onRegion there rfl (State.gateRelease_waits unmet)
  case releases =>
    intro s r g there held met may noHold
    refine completes_onRegion there (congrArg (onRegion r · s) (State.gateRelease_issues held met may noHold)) ?_
    have own := s.regionTick_region r ((s.region r).tickCount + 1) false
    exact ⟨by rw [own], by rw [own], by rw [own], fun q other => s.regionTick_noSkid _ _ other⟩

end Sys2Proof.Machine

/-! PROOF. The paceline's time limits (R36, R43, R55): GSC passes the limit and the fault is the job's first. -/
namespace Sys2Proof.Machine

/-! ### What the passing of time leaves of the paceline and of power -/

@[simp] theorem State.advanceTo_power_mode (s : State) (n : Nat) : (s.advanceTo n).power.mode = s.power.mode := by
  unfold State.advanceTo; split <;> rfl

@[simp] theorem State.advanceTo_rank (s : State) (n : Nat) : (s.advanceTo n).rank = s.rank := by
  unfold State.advanceTo; split <;> rfl

/-! ### A job-fatal fault once GSC has come to a limit -/

/-- What a paceline fault does: the job's first fault with the GSC it is found at, and a stop. -/
def State.faultedAt (s : State) (code : W16) (limit : Nat) (t : State) : Prop :=
  t.job.fault = code ∧ t.stop.isSome = true ∧ limit < t.gsc ∧ s.gsc ≤ t.gsc ∧ t.job.faultGsc = t.gsc ∧ t.cores = s.cores ∧
    t.regions = s.regions ∧ t.ss = s.ss ∧ t.far = s.far

/-- The first fault of a job is noted as it comes (R489). -/
theorem JobStatus.note_first {j : JobStatus} (first : j.fault = 0#16) (code rank gsc : Nat) :
    j.note code rank gsc = { j with fault := BitVec.ofNat 16 code, faultRank := BitVec.ofNat 32 rank, faultGsc := gsc } := by
  simp [JobStatus.note, first]

/-- A job under way is stopped by a job-fatal fault, and its first one is noted. -/
theorem State.jobFatal_first {s : State} (run : s.power.mode = .run) (active : s.job.state.active = true) (first : s.job.fault = 0#16)
    (code : Nat) (r : Option Nat) :
    (s.jobFatal code r).job.fault = BitVec.ofNat 16 code ∧ (s.jobFatal code r).job.faultGsc = s.gsc ∧
      (s.jobFatal code r).stop.isSome = true := by
  rw [State.jobFatal_job _ _ _ _ _ _ _ run, State.jobFatal_stop _ _ _ _ _ _ _ run, if_pos active, if_pos active,
    JobStatus.note_first first]
  refine ⟨rfl, rfl, ?_⟩
  split <;> rfl

theorem State.faultedAt_jobFatal {s : State} (run : s.power.mode = .run) (running : s.job.state = .running)
    (first : s.job.fault = 0#16) {n limit : Nat} (past : limit < n) (code : Nat) (r : Option Nat) :
    s.faultedAt (BitVec.ofNat 16 code) limit ((s.advanceTo n).jobFatal code r) := by
  have mode : (s.advanceTo n).power.mode = .run := by simpa using run
  obtain ⟨fault, gsc, stop⟩ := State.jobFatal_first mode (by simp [running, JobState.active]) (by simpa using first) code r
  have clock := State.jobFatal_gsc (s.advanceTo n) code r 0 0 none none mode
  have far := State.jobFatal_far (s.advanceTo n) code r 0 0 none none mode
  simp only [State.advanceTo_gsc] at clock gsc
  refine ⟨fault, stop, by omega, by omega, gsc.trans clock.symm, ?_, ?_, ?_, far.trans (State.advanceTo_far ..)⟩ <;> simp

theorem State.heldFor_eq_true {s : State} {r : Nat} {kinds : List WaitKind}
    (held : ∃ w ∈ s.unmet r ((s.region r).tickCount + 1), (s.queue w.1 w.2.2.queue).kind.waitKind ∈ kinds) :
    s.heldFor r kinds = true := by
  simpa [State.heldFor] using held

/-- Settles O26: each row lets GSC pass its limit and raises its fault, under the conditions of the statement. -/
theorem pacelineLimits : Obligations.PacelineLimits := by
  intro s r there run running first faulted held
  refine ⟨fun issued noHold => ?stall, fun g gate notStopped => ⟨fun waits => ?far, fun waits => ?fabric⟩,
    fun g change stops retuning => ?retune⟩
  case stall =>
    refine completes_onRegion there (congrArg (onRegion r · s) (if_pos ?_)) (State.faultedAt_jobFatal run running first ?_ 0x0D01 _)
    · simp [running, noHold, Nat.ne_of_gt issued]
    · omega
  case far =>
    refine completes_onRegion there (congrArg (onRegion r · s) ?_) (State.faultedAt_jobFatal run running first ?_ 0x0D03 _)
      (t := (s.advanceTo (g.since + s.pace.farLimitNs + 1)).jobFatal 0x0D03 (some r))
    · simp [gate, State.heldFor_eq_true waits, notStopped]
    · simp [Pace.farLimitNs]
  case fabric =>
    refine completes_onRegion there (congrArg (onRegion r · s) ?_) (State.faultedAt_jobFatal run running first ?_ 0x0D04 _)
      (t := (s.advanceTo (g.since + s.pace.fabLimitNs + 1)).jobFatal 0x0D04 (some r))
    · simp [gate, State.heldFor_eq_true waits, notStopped]
    · simp [Pace.fabLimitNs]
  case retune =>
    refine completes_onRegion there (congrArg (onRegion r · s) ?_) (State.faultedAt_jobFatal run running first ?_ 0x0D06 _)
      (t := (s.advanceTo (g.started + 2001)).jobFatal 0x0D06 (some r))
    · simp [change, stops, retuning]
    · omega

end Sys2Proof.Machine

/-! PROOF. Droops, the brake, gear changes, calibration and the reference (R27, R39 to R48). -/
namespace Sys2Proof.Machine

/-! ### What the passing of time leaves of the paceline -/

section
variable (s : State) (n : Nat)

@[simp] theorem State.advanceTo_gearNow : (s.advanceTo n).pace.gearNow = s.pace.gearNow := by
  unfold State.advanceTo; split <;> rfl
@[simp] theorem State.advanceTo_calGear : (s.advanceTo n).pace.calGear = s.pace.calGear := by
  unfold State.advanceTo; split <;> rfl
@[simp] theorem State.advanceTo_calCount : (s.advanceTo n).pace.calCount = s.pace.calCount := by
  unfold State.advanceTo; split <;> rfl
@[simp] theorem State.advanceTo_calErr : (s.advanceTo n).pace.calErr = s.pace.calErr := by
  unfold State.advanceTo; split <;> rfl
@[simp] theorem State.advanceTo_power_requested : (s.advanceTo n).power.requested = s.power.requested := by
  unfold State.advanceTo; split <;> rfl
@[simp] theorem State.advanceTo_effCap : (s.advanceTo n).effCap = s.effCap := by
  unfold State.advanceTo; split <;> rfl
@[simp] theorem State.advanceTo_multi : (s.advanceTo n).multi = s.multi := by
  unfold State.advanceTo; split <;> rfl

end

/-! ### A change of every region -/

/-- Each region that is listed once is changed once. -/
theorem foldl_setRegion_region (f : Region → Region) {l : List Nat} (once : l.Nodup) (s : State) (q : Nat) :
    (l.foldl (fun s r => s.setRegion r (f (s.region r))) s).region q = if q ∈ l then f (s.region q) else s.region q := by
  induction l generalizing s with
  | nil => simp
  | cons r l ih =>
    obtain ⟨fresh, once⟩ := List.nodup_cons.mp once
    rw [List.foldl_cons, ih once]
    by_cases same : q = r
    · subst same; simp [fresh]
    · simp [same, State.region_setRegion_other]

theorem State.mapRegions_region (s : State) (f : Region → Region) {q : Nat} (there : q < 80) :
    (s.mapRegions f).region q = f (s.region q) := by
  rw [State.mapRegions, foldl_setRegion_region f List.nodup_range, if_pos (List.mem_range.mpr there)]

/-- A part of the state that no write of a region changes is kept. -/
theorem State.mapRegions_keeps {α : Type} (v : State → α) (kept : ∀ (s : State) (r : Nat) (x : Region), v (s.setRegion r x) = v s)
    (s : State) (f : Region → Region) : v (s.mapRegions f) = v s := by
  unfold State.mapRegions
  exact foldl_keeps v (fun t r => t.setRegion r (f (t.region r))) (fun _ _ => kept ..) _ s

@[simp] theorem State.mapRegions_pace (s : State) (f : Region → Region) : (s.mapRegions f).pace = s.pace :=
  State.mapRegions_keeps State.pace (fun _ _ _ => rfl) s f
@[simp] theorem State.mapRegions_power (s : State) (f : Region → Region) : (s.mapRegions f).power = s.power :=
  State.mapRegions_keeps State.power (fun _ _ _ => rfl) s f
@[simp] theorem State.mapRegions_cores (s : State) (f : Region → Region) : (s.mapRegions f).cores = s.cores :=
  State.mapRegions_keeps State.cores (fun _ _ _ => rfl) s f
@[simp] theorem State.mapRegions_gsc (s : State) (f : Region → Region) : (s.mapRegions f).gsc = s.gsc :=
  State.mapRegions_keeps State.gsc (fun _ _ _ => rfl) s f
@[simp] theorem State.mapRegions_effCap (s : State) (f : Region → Region) : (s.mapRegions f).effCap = s.effCap :=
  State.mapRegions_keeps State.effCap (fun _ _ _ => rfl) s f

/-! ### Gear changes -/

/-- With the gear in force the least of request and cap, no change starts (R482). -/
theorem State.followGear_settled {s : State} (settled : min s.power.requested s.effCap = s.pace.gearNow) : s.followGear = s := by
  simp [State.followGear, settled]

/-- What a gear change leaves of the paceline: calibration, the reference's state, and GSC. -/
def State.reference (s : State) : Nat × Bool × Map Nat × Bool × Option Nat × Nat :=
  (s.gsc, s.pace.calValid, s.pace.trimAt, s.pace.refLost, s.pace.capRef, s.pace.lossMs)

theorem State.startGear_reference (s : State) (g : Nat) : (s.startGear g).reference = s.reference := by
  unfold State.startGear
  split
  · rfl
  · dsimp only
    split
    · simp [State.reference]
    · rfl

theorem State.followGear_reference (s : State) : s.followGear.reference = s.reference := by
  unfold State.followGear
  dsimp only
  split
  · rfl
  · exact s.startGear_reference _

/-- A change that ends in the gear that is asked for is the last. -/
theorem State.endGear_settled {s : State} {g : Nat} (settled : min s.power.requested s.effCap = g) :
    s.endGear g = { s with pace := { s.pace with gearNow := g, rail := g, change := none } } :=
  State.followGear_settled settled

/-! ### The droop -/

theorem State.stretchPeriod_region (s : State) (r p : Nat) : (s.stretchPeriod r p).region r = { s.region r with stretch := p } := by
  unfold State.stretchPeriod
  dsimp only
  split <;> exact State.region_setRegion ..

theorem State.stretchPeriod_region_other (s : State) {r q : Nat} (p : Nat) (other : q ≠ r) :
    (s.stretchPeriod r p).region q = s.region q := by
  unfold State.stretchPeriod
  dsimp only
  split <;> exact State.region_setRegion_other _ _ other

theorem State.stretchPeriod_pace (s : State) (r p : Nat) : (s.stretchPeriod r p).pace.stretchMax = max s.pace.stretchMax p := by
  unfold State.stretchPeriod
  dsimp only
  split <;> rename_i h <;> simp only [State.setRegion_pace] at h ⊢ <;> omega

theorem State.stretchPeriod_power (s : State) (r p : Nat) :
    (s.stretchPeriod r p).power = s.power ∧ (s.stretchPeriod r p).cores = s.cores := by
  unfold State.stretchPeriod
  dsimp only
  split <;> exact ⟨rfl, rfl⟩

/-- The brake from rest (R45): gear 0 in every region, and its first cause. -/
theorem State.applyBrake_first {s : State} (released : s.power.brake = false) (c : BrakeCause) :
    (s.applyBrake c).power.brake = true ∧ (s.applyBrake c).power.causes = [c] ∧
    (s.applyBrake c).pace = { s.pace with change := none, gearNow := 0, rail := 0 } ∧ (s.applyBrake c).cores = s.cores ∧
    ∀ q, q < 80 → (s.applyBrake c).region q = { s.region q with gear := 0, retuning := false } := by
  simp only [State.applyBrake, released]
  refine ⟨by simp, by simp, by simp, by simp, fun q there => ?_⟩
  rw [if_neg Bool.false_ne_true, State.region_eq _ _ (State.event_regions ..), State.mapRegions_region _ _ there]
  rfl

/-! ### The rows of droops and gears -/

theorem State.endGear_effect {s : State} {g : Nat} (settled : min s.power.requested s.effCap = g) :
    (s.endGear g).gsc = s.gsc ∧ (s.endGear g).pace.gearNow = g ∧ (s.endGear g).pace.rail = g ∧ (s.endGear g).pace.change = none ∧
    ∀ q, (s.endGear g).region q = s.region q := by
  rw [State.endGear_settled settled]
  exact ⟨rfl, rfl, rfl, rfl, fun _ => rfl⟩

theorem completes_supplyDroop_small {s : State} {r p : Nat} (there : r < 80) (small : p ≤ 200) :
    completes (.supplyDroop r p) s fun t => t.region r = { s.region r with stretch := p } ∧
      t.pace.stretchMax = max s.pace.stretchMax p ∧ (∀ q, q ≠ r → t.region q = s.region q) ∧ t.power = s.power ∧
      t.cores = s.cores := by
  obtain ⟨power, cores⟩ := s.stretchPeriod_power r p
  exact completes_onRegion there (congrArg (onRegion r · s) (if_neg (Nat.not_lt.mpr small)))
    ⟨s.stretchPeriod_region r p, s.stretchPeriod_pace r p, fun q other => s.stretchPeriod_region_other p other, power, cores⟩

theorem completes_supplyDroop_great {s : State} {r p : Nat} (there : r < 80) (great : 200 < p) (released : s.power.brake = false) :
    completes (.supplyDroop r p) s fun t => t.power.brake = true ∧ t.power.causes = [.droop] ∧ (t.region r).stretch = 200 ∧
      t.pace.stretchMax = max s.pace.stretchMax 200 ∧ t.pace.change = none ∧ t.pace.gearNow = 0 ∧
      (∀ q, q < 80 → (t.region q).gear = 0 ∧ (t.region q).issued = (s.region q).issued) ∧ t.cores = s.cores := by
  obtain ⟨power, cores⟩ := s.stretchPeriod_power r 200
  obtain ⟨brake, causes, pace, cores', regions⟩ :=
    State.applyBrake_first (s := s.stretchPeriod r 200) (by rw [power, released]) .droop
  refine completes_onRegion there (congrArg (onRegion r · s) (if_pos great))
    ⟨brake, causes, ?_, ?_, by rw [pace], by rw [pace], fun q hq => ⟨by rw [regions q hq], ?_⟩, cores'.trans cores⟩
  · rw [regions r there, s.stretchPeriod_region]
  · rw [pace]; exact s.stretchPeriod_pace r 200
  · exact (Region.ticks_eq ((s.stretchPeriod_keepsTicks r 200).trans (State.applyBrake_keepsTicks _ _) q)).1

theorem completes_gearSwitchCount {s : State} {g : GearChange} (change : s.pace.change = some g) (byCount : g.regionStop = false)
    (asked : min s.power.requested s.effCap = g.target) :
    completes .gearSwitchCount s fun t =>
      t.gsc = max s.gsc s.pace.gearAt ∧ t.pace.gearNow = g.target ∧ t.pace.rail = g.target ∧ t.pace.change = none ∧
      (∀ q, q < 80 → (t.region q).gear = g.target ∧ (t.region q).issued = (s.region q).issued) := by
  have row : exec .gearSwitchCount s =
      .next (((s.advanceTo s.pace.gearAt).mapRegions fun x => { x with gear := g.target }).endGear g.target) := by
    simp only [exec, execGearSwitchCount, change, byCount]
    rfl
  have settled : min ((s.advanceTo s.pace.gearAt).mapRegions fun x => { x with gear := g.target }).power.requested
      ((s.advanceTo s.pace.gearAt).mapRegions fun x => { x with gear := g.target }).effCap = g.target := by
    simpa using asked
  obtain ⟨gsc, gear, rail, none, regions⟩ := State.endGear_effect settled
  refine ⟨_, row, ?_, gear, rail, none, fun q there => ?_⟩
  · rw [gsc, State.mapRegions_gsc, State.advanceTo_gsc]
  · rw [regions, State.mapRegions_region _ _ there, State.region_eq _ _ (State.advanceTo_regions ..)]
    exact ⟨rfl, rfl⟩

theorem completes_regionRetuneDone {s : State} {r : Nat} {g : GearChange} (there : r < 80) (change : s.pace.change = some g)
    (stops : g.regionStop = true) (retuning : (s.region r).retuning = true) (asked : min s.power.requested s.effCap = g.target) :
    completes (.regionRetuneDone r) s fun t =>
      (t.region r).retuning = false ∧ (t.region r).gear = g.target ∧ (∀ q, q ≠ r → t.region q = s.region q) ∧
      ((∀ q, q < 80 → q ≠ r → (s.region q).retuning = false) → t.pace.gearNow = g.target ∧ t.pace.change = none) ∧
      ((∃ q, q < 80 ∧ q ≠ r ∧ (s.region q).retuning = true) → t.pace = s.pace) := by
  let u := s.setRegion r { s.region r with retuning := false, gear := g.target }
  have own : u.region r = { s.region r with retuning := false, gear := g.target } := State.region_setRegion ..
  have rest : ∀ q, q ≠ r → u.region q = s.region q := fun q other => State.region_setRegion_other _ _ other
  have others : ((List.range 80).any fun i => (u.region i).retuning) = true ↔ ∃ q, q < 80 ∧ q ≠ r ∧ (s.region q).retuning = true := by
    simp only [List.any_eq_true, List.mem_range]
    refine exists_congr fun q => and_congr_right fun _ => ?_
    by_cases same : q = r
    · subst same; simp [own]
    · simp [rest q same, same]
  have row : exec (.regionRetuneDone r) s =
      onRegion r (if (List.range 80).any fun i => (u.region i).retuning then u else u.endGear g.target) s := by
    simp only [exec, execRegionRetuneDone, change, stops, retuning]
    rfl
  obtain ⟨-, gear, -, none, regions⟩ := State.endGear_effect (s := u) (g := g.target) asked
  by_cases more : ∃ q, q < 80 ∧ q ≠ r ∧ (s.region q).retuning = true
  · rw [if_pos (others.mpr more)] at row
    refine completes_onRegion there row ⟨by rw [own], by rw [own], rest, fun last => ?_, fun _ => rfl⟩
    obtain ⟨q, hq, other, still⟩ := more
    exact absurd (last q hq other) (by simp [still])
  · rw [if_neg (fun h => more (others.mp h))] at row
    exact completes_onRegion there row ⟨by rw [regions, own], by rw [regions, own], fun q other => (regions q).trans (rest q other),
      fun _ => ⟨gear, none⟩, fun h => absurd h more⟩

/-! ### The rows of calibration and the reference -/

theorem completes_trimBuild {s : State} (invalid : s.pace.calValid = false) (there : s.pace.refLost = false) (run : s.power.mode = .run) :
    completes .trimBuild s fun t =>
      t.pace.calValid = true ∧ (∀ g, g < 16 → t.pace.trimAt.find 0 g = s.gsc) ∧ t.gsc = s.gsc := by
  have row : exec .trimBuild s = .next ({ s with pace := { s.pace with
      calValid := true, trimAt := (List.range 16).map fun g => (g, s.gsc), calDue := s.gsc + 1000000 } } : State).followGear := by
    simp only [exec, execTrimBuild]
    rw [if_neg (by simp [invalid, there, run])]
  obtain ⟨gsc, valid, trim, -⟩ : _ ∧ _ ∧ _ ∧ _ := by simpa [State.reference] using State.followGear_reference ({ s with
    pace := { s.pace with calValid := true, trimAt := (List.range 16).map fun g => (g, s.gsc), calDue := s.gsc + 1000000 } } : State)
  refine ⟨_, row, valid, fun g hg => ?_, gsc⟩
  rw [trim]
  interval_cases g <;> rfl

theorem completes_refLossEvent {s : State} (there : s.pace.refLost = false) :
    completes .refLossEvent s fun t => t.pace.refLost = true ∧ t.pace.capRef = some s.pace.gearNow ∧ t.effCap ≤ s.pace.gearNow ∧
      t.pace.lostAt = s.gsc ∧ t.regions = s.regions ∧ t.job = s.job := by
  refine ⟨_, if_neg (by simp [there]), ?_⟩
  simp [State.effCap]

theorem completes_refLoss {s : State} (lost : s.pace.refLost = true) (run : s.power.mode = .run) :
    completes .refLoss s fun t => s.pace.lostAt + 10000000 < t.gsc ∧ s.gsc ≤ t.gsc ∧
      (s.multi = true → s.job.state = .running → s.job.fault = 0#16 → t.job.fault = 0x0D02#16 ∧ t.stop.isSome = true) ∧
      (s.multi = false → t.job = s.job ∧ t.stop = s.stop) := by
  obtain ⟨n, limit⟩ : ∃ n, n = s.pace.lostAt + 10000001 := ⟨_, rfl⟩
  obtain ⟨u, later⟩ : ∃ u, u = s.advanceTo n := ⟨_, rfl⟩
  have row : exec .refLoss s = .next (if s.multi && s.job.state = .running then u.jobFatal 0x0D02 else u) := by
    simp only [exec, execRefLoss, lost, ← limit, ← later]
    rw [if_neg (by simp), later, State.advanceTo_multi, State.advanceTo_job]
  have clock : u.gsc = max s.gsc n := later ▸ State.advanceTo_gsc ..
  have mode : u.power.mode = .run := later ▸ (State.advanceTo_power_mode ..).trans run
  have job : u.job = s.job := later ▸ State.advanceTo_job ..
  have stopped : u.stop = s.stop := later ▸ State.advanceTo_stop ..
  refine ⟨_, row, ?_⟩
  split
  case isTrue fatal =>
    obtain ⟨multi, running⟩ : s.multi = true ∧ s.job.state = .running := by simpa using fatal
    rw [State.jobFatal_gsc _ _ _ _ _ _ _ mode, clock]
    refine ⟨by omega, by omega, fun _ _ first => ?_, fun single => absurd multi (by simp [single])⟩
    obtain ⟨fault, -, stop⟩ := State.jobFatal_first mode (by simp [job, running, JobState.active]) (job ▸ first) 0x0D02 none
    exact ⟨fault, stop⟩
  case isFalse notFatal =>
    rw [clock]
    refine ⟨by omega, by omega, fun multi running => absurd (by simp [multi, running]) notFatal, fun _ => ⟨job, stopped⟩⟩

theorem completes_refRestored {s : State} (lost : s.pace.refLost = true) :
    completes .refRestored s fun t => t.pace.refLost = false ∧ t.pace.capRef = none ∧ t.gsc = s.gsc ∧
      t.pace.lossMs = min 65535 ((s.gsc - s.pace.lostAt) / 1000000) := by
  let u := ({ s with pace := { s.pace with
    refLost := false, capRef := none, lossMs := s.lossMs, calDue := s.gsc + 1000000 } } : State).event 0x0D11
  have row : exec .refRestored s = .next u.followGear := by
    simp only [exec, execRefRestored, lost]
    rfl
  obtain ⟨gsc, -, -, ref, cap, loss⟩ : _ ∧ _ ∧ _ ∧ _ ∧ _ ∧ _ := by simpa [State.reference, u] using State.followGear_reference u
  exact ⟨_, row, ref, cap, gsc, loss.trans (if_pos lost)⟩

/-- Settles O25: each row by the lemma that names it. -/
theorem gearsAndReference : Obligations.GearsAndReference := by
  refine ⟨⟨fun s r p => completes_supplyDroop_small, fun s r p => completes_supplyDroop_great, fun s g => completes_gearSwitchCount,
    fun s r g => completes_regionRetuneDone⟩, ?calibration, fun s invalid there run _ => completes_trimBuild invalid there run,
    fun s => completes_refLossEvent, fun s => completes_refLoss, fun s => completes_refRestored⟩
  intro s o enabled valid there run
  refine ⟨_, if_neg (by simp [enabled, valid, there, run]), ?_⟩
  simp

end Sys2Proof.Machine

/-! PROOF. The checks of a Lumoz command and its response (R423 to R425, R429, R431, R445). -/
namespace Sys2Proof.Machine

/-! ### The rows of one LENGTH -/

/-- Row, opcode and LENGTH are those of the command `p`. -/
def CmdSpec.rowIs (p : CmdSpec) (row : (Nat → Instr) × Nat × Nat) : Prop :=
  (∀ ch s, exec (row.1 ch) s = p.row ch s) ∧ p.op = row.2.1 ∧ ∀ n, n ≠ row.2.2 → p.len n = false

theorem commandLengths_rowIs (v w : HostView) : ∀ row ∈ commandLengths v w, ∃ p : CmdSpec, p.rowIs row := by
  unfold commandLengths
  simp only [List.forall_mem_cons, List.not_mem_nil, false_imp_iff, implies_true, and_true]
  repeat' apply And.intro
  all_goals exact ⟨_, fun _ _ => rfl, rfl, fun _ other => decide_eq_false other⟩

/-! ### The checks -/

/-- What a command that the checks refuse does: it leaves the order and is answered. -/
theorem CmdSpec.run_refused {p : CmdSpec} {s : State} {ch : Nat} {c : Cmd} {r : Result} (cmd : s.cmdOf ch = some c)
    (op : c.opcode = p.op) (fresh : c.executing = false) (turn : s.host.order.head? = some ch) (boot : s.sec.boot = .running)
    (refused : p.check { s with host := { s.host with order := s.host.order.drop 1 } } ch c = some r) :
    p.run s ch = State.answerUnknown 10
      (({ s with host := { s.host with order := s.host.order.drop 1 } } : State).respond ch (.of r)) := by
  have chosen : (decide (c.opcode ≠ p.op) || c.executing || decide (s.host.order.head? ≠ some ch) || !s.answers ch) = false := by
    simp [op, fresh, turn, State.answers, boot]
  rw [CmdSpec.run, cmd]
  dsimp only
  rw [chosen, if_neg Bool.false_ne_true, refused]

theorem CmdSpec.check_len {p : CmdSpec} {s : State} {ch : Nat} {c : Cmd} (boot : s.sec.boot = .running)
    (len : p.len c.length = false) : p.check s ch c = some .range := by
  simp [CmdSpec.check, boot, len]

/-- A reserved byte that is not 0 is RANGE, as is a LENGTH that is not the command's. -/
theorem CmdSpec.check_reserved {p : CmdSpec} {s : State} {ch : Nat} {c : Cmd} (boot : s.sec.boot = .running)
    (reserved : c.reserved ≠ 0) : p.check s ch c = some .range := by
  cases len : p.len c.length <;> simp [CmdSpec.check, boot, len, reserved]

theorem CmdSpec.row_of_lt (p : CmdSpec) {ch : Nat} (there : ch < 10) (s : State) : p.row ch s = .next (p.run s ch) :=
  if_neg (by omega)

theorem CmdSpec.run_waits {p : CmdSpec} {s : State} {ch : Nat} (waits : s.host.order.head? ≠ some ch ∨ s.cmdOf ch = none) :
    p.run s ch = s := by
  unfold CmdSpec.run
  rcases waits with turn | none
  · split
    · rfl
    · simp [turn]
  · rw [none]

/-- A command of another LENGTH is answered RANGE, and the commands behind it go on waiting. -/
theorem CmdSpec.answered_badLength {p : CmdSpec} {row : (Nat → Instr) × Nat × Nat} (is : p.rowIs row) {s : State} {ch : Nat} {c : Cmd}
    (turn : s.carries ch row.2.1 c) (len : c.length ≠ row.2.2) :
    answered (row.1 ch) s ch { s with host := { s.host with order := s.host.order.drop 1 } } (.of .range) := by
  obtain ⟨exec_eq, op, lens⟩ := is
  obtain ⟨there, boot, cmd, opcode, fresh, -, -, -, rest, order, behind⟩ := turn
  have run := CmdSpec.run_refused cmd (opcode.trans op.symm) fresh (by rw [order]; rfl) boot
    (CmdSpec.check_len (p := p) (s := { s with host := { s.host with order := s.host.order.drop 1 } }) (ch := ch) boot (lens _ len))
  rw [answered, exec_eq, p.row_of_lt there, run, State.answerUnknown_id]
  rw [State.respond_order, order]
  cases rest with
  | nil => exact .inl rfl
  | cons x rest =>
    obtain ⟨other, d, cmd, known⟩ := behind x List.mem_cons_self
    exact .inr ⟨x, rest, d, rfl, (State.respond_cmdOf _ _ _ _ other).trans cmd, known⟩

theorem CmdSpec.answered_reserved {p : CmdSpec} {row : (Nat → Instr) × Nat × Nat} (is : p.rowIs row) {s : State} {ch : Nat} {c : Cmd}
    (there : ch < 10) (cmd : s.cmdOf ch = some c) (reserved : c.reserved ≠ 0) (opcode : c.opcode = row.2.1)
    (fresh : c.executing = false) (boot : s.sec.boot = .running) (order : s.host.order = [ch]) :
    answered (row.1 ch) s ch { s with host := { s.host with order := [] } } (.of .range) := by
  obtain ⟨exec_eq, op, -⟩ := is
  have run := CmdSpec.run_refused cmd (opcode.trans op.symm) fresh (by rw [order]; rfl) boot
    (CmdSpec.check_reserved (p := p) (s := { s with host := { s.host with order := s.host.order.drop 1 } }) (ch := ch) boot reserved)
  rw [answered, exec_eq, p.row_of_lt there, run, order, State.answerUnknown_id]
  · rfl
  · exact .inl (State.respond_order ..)

/-! ### The response -/

/-- The channel a response leaves, and the response itself. -/
def Channel.answeredWith (x : Channel) (c : Cmd) (r : Reply) : Channel :=
  { x with
    busy := false, done := true, cmd := none
    resp := some { opcode := c.opcode, seq := c.seq, tag := c.tag, result := BitVec.ofNat 16 r.result.code
                   fault := BitVec.ofNat 16 r.fault, sect := r.sect, entry := BitVec.ofNat 32 (r.entryOf c.opcode), payload := r.payload } }

theorem State.respond_eq {s : State} {ch : Nat} {c : Cmd} (cmd : s.cmdOf ch = some c) (r : Reply) :
    ∃ b : Bytes, b.length = 32 + r.payload.length ∧
      s.respond ch r =
        let t := s.setChan ch ((s.chan ch).answeredWith c r)
        if 8 ≤ ch then t.sendFrame (ch - 8) 4 b else if (s.chan ch).vecEn then t.sendVector (s.chan ch).vector else t := by
  have cmd' : (s.chan ch).cmd = some c := cmd
  refine ⟨_, ?_, by rw [State.respond, cmd']; rfl⟩
  simp only [Response.header, zeros, List.length_append, leBytes_length, List.length_replicate]

/-- The bytes a management port signs a frame with. -/
def State.frameMac (s : State) (head : Bytes) : Bytes := if s.sec.boot = .recovery then zeros 48 else hmac384 s.mgmtKey head

theorem State.sendFrame_tx (s : State) (p typ : Nat) (body : Bytes) :
    let head := frameHead typ p s.part.serial ((s.mgmtPort p).ownSeq + 1) body
    ((s.sendFrame p typ body).mgmtPort p).tx = (s.mgmtPort p).tx ++ [head ++ s.frameMac head] := by
  rw [State.sendFrame, State.mgmtPort_setMgmtPort]
  rfl

/-- A frame begins with its magic, its type and its port, and the length of its body. -/
theorem sub_frameHead (typ port : Nat) (serial : Bytes) (seq : Nat) (body mac : Bytes) :
    sub (frameHead typ port serial seq body ++ mac) 0 6 = mgmtMagic ++ [BitVec.ofNat 8 (typ % 256), BitVec.ofNat 8 (port % 256)] :=
  rfl

theorem fld_frameHead (typ port : Nat) (serial : Bytes) (seq : Nat) (body mac : Bytes) :
    fld (frameHead typ port serial seq body ++ mac) 6 2 = body.length % 65536 := by
  have length : sub (frameHead typ port serial seq body ++ mac) 6 2 = leBytes 2 body.length := rfl
  rw [fld, length, leNat_leBytes]
  rfl

/-! ### What a message of a response leaves -/

theorem State.sendVector_host (s : State) (v : Nat) :
    ({ (s.sendVector v).host with msix := s.host.msix, hostMem := s.host.hostMem } : HostBlk) = s.host ∧
      ({ s.sendVector v with host := s.host } : State) = s := by
  unfold State.sendVector
  dsimp only
  split <;> exact ⟨rfl, rfl⟩

theorem State.sendVector_masked {s : State} {v : Nat} (masked : (s.host.msix.find .init v).masked = true) :
    (s.sendVector v).host.hostMem = s.host.hostMem ∧ ((s.sendVector v).host.msix.find .init v).pend = true := by
  simp [State.sendVector, masked]

theorem State.sendVector_unmasked {s : State} {v : Nat} (unmasked : (s.host.msix.find .init v).masked = false) :
    (s.sendVector v).host.hostMem = s.host.hostMem.write (s.host.msix.find .init v).addr.toNat
      (leBytes 4 (s.host.msix.find .init v).data.toNat) := by
  simp [State.sendVector, unmasked, State.dmaWrite]

theorem State.sendFrame_host (s : State) (p typ : Nat) (b : Bytes) :
    ({ (s.sendFrame p typ b).host with mgmt := s.host.mgmt } : HostBlk) = s.host ∧
      ({ s.sendFrame p typ b with host := s.host } : State) = s :=
  ⟨rfl, rfl⟩

/-- A response changes the channel's entry of the channel table, and of the rest of the host block only what its message does. -/
theorem State.respond_host {s : State} {ch : Nat} {c : Cmd} (cmd : s.cmdOf ch = some c) (r : Reply) :
    (s.respond ch r).host.chans = (s.setChan ch ((s.chan ch).answeredWith c r)).host.chans ∧
    ({ s.respond ch r with host := s.host } : State) = s ∧ (s.respond ch r).host.evc = s.host.evc := by
  obtain ⟨b, -, eq⟩ := State.respond_eq cmd r
  let t := s.setChan ch ((s.chan ch).answeredWith c r)
  obtain ⟨hostV, restV⟩ := t.sendVector_host (s.chan ch).vector
  obtain ⟨hostF, restF⟩ := t.sendFrame_host (ch - 8) 4 b
  rw [eq]
  dsimp only
  split
  · exact ⟨(congrArg HostBlk.chans hostF :), (congrArg (fun u : State => { u with host := s.host }) restF :),
      (congrArg HostBlk.evc hostF :)⟩
  split
  · exact ⟨(congrArg HostBlk.chans hostV :), (congrArg (fun u : State => { u with host := s.host }) restV :),
      (congrArg HostBlk.evc hostV :)⟩
  · exact ⟨rfl, rfl, rfl⟩

theorem State.respond_chan {s : State} {ch : Nat} {c : Cmd} (cmd : s.cmdOf ch = some c) (r : Reply) :
    (s.respond ch r).chan ch = (s.chan ch).answeredWith c r ∧ ∀ d, d ≠ ch → (s.respond ch r).chan d = s.chan d := by
  obtain ⟨chans, -, -⟩ := State.respond_host cmd r
  have eq : ∀ d, (s.respond ch r).chan d = (s.setChan ch ((s.chan ch).answeredWith c r)).chan d := fun d => by
    rw [State.chan, chans]; rfl
  exact ⟨(eq ch).trans (State.chan_setChan ..), fun d other => (eq d).trans (State.chan_setChan_other _ _ other)⟩

/-- A mailbox channel's response sends its vector, when it has one (R424). -/
theorem State.respond_mailbox {s : State} {ch : Nat} {c : Cmd} (cmd : s.cmdOf ch = some c) (r : Reply) (mailbox : ch < 8) :
    (s.respond ch r).host.mgmt = s.host.mgmt ∧
      let e := s.host.msix.find .init (s.chan ch).vector
      if (s.chan ch).vecEn = false then (s.respond ch r).host.msix = s.host.msix ∧ (s.respond ch r).host.hostMem = s.host.hostMem
      else if e.masked then (s.respond ch r).host.hostMem = s.host.hostMem ∧
        ((s.respond ch r).host.msix.find .init (s.chan ch).vector).pend = true
      else (s.respond ch r).host.hostMem = s.host.hostMem.write e.addr.toNat (leBytes 4 e.data.toNat) := by
  obtain ⟨b, -, eq⟩ := State.respond_eq cmd r
  let t := s.setChan ch ((s.chan ch).answeredWith c r)
  have eq : s.respond ch r = if (s.chan ch).vecEn then t.sendVector (s.chan ch).vector else t :=
    eq.trans (if_neg (Nat.not_le.mpr mailbox))
  cases en : (s.chan ch).vecEn with
  | false =>
    rw [eq, en]
    exact ⟨rfl, rfl, rfl⟩
  | true =>
    rw [en, if_pos rfl] at eq
    obtain ⟨host, -⟩ := t.sendVector_host (s.chan ch).vector
    rw [eq]
    refine ⟨(congrArg HostBlk.mgmt host :), ?_⟩
    dsimp only
    rw [if_neg Bool.noConfusion]
    cases masked : (s.host.msix.find .init (s.chan ch).vector).masked with
    | true => exact State.sendVector_masked (s := t) masked
    | false => exact State.sendVector_unmasked (s := t) masked

/-- A management channel's response is one RESPONSE frame on its port (R445). -/
theorem State.respond_management {s : State} {ch : Nat} {c : Cmd} (cmd : s.cmdOf ch = some c) (r : Reply) (management : 8 ≤ ch) :
    (s.respond ch r).host.msix = s.host.msix ∧ (s.respond ch r).host.hostMem = s.host.hostMem ∧
      ∃ f, ((s.respond ch r).mgmtPort (ch - 8)).tx = (s.mgmtPort (ch - 8)).tx ++ [f] ∧
        sub f 0 6 = mgmtMagic ++ [4#8, BitVec.ofNat 8 (ch - 8)] ∧ fld f 6 2 = (32 + r.payload.length) % 65536 := by
  obtain ⟨b, length, eq⟩ := State.respond_eq cmd r
  rw [eq]
  dsimp only
  rw [if_pos management]
  refine ⟨rfl, rfl, _, State.sendFrame_tx .., ?_, ?_⟩
  · rw [sub_frameHead]
    simp [← BitVec.toNat_inj]
  · rw [fld_frameHead, length]

theorem Reply.entryOf_eq (r : Reply) (op : Nat) :
    r.entryOf op = r.entry.getD (if (op = 0x0301 ∨ op = 0x0302 ∨ op = 0x0203) ∧ r.result ≠ .ok then 0xFFFFFFFF else 0) := by
  simp [Reply.entryOf, opEntry, or_assoc]

/-- Settles O27: the checks for each row of one LENGTH, the response by its channel and its message. -/
theorem commandsCheckedAndAnswered : Obligations.CommandsCheckedAndAnswered := by
  refine ⟨fun v w row mem s ch c => ?_, fun s ch c r cmd => ?_⟩
  · obtain ⟨p, is⟩ := commandLengths_rowIs v w row mem
    refine ⟨p.answered_badLength is, fun n reserved cmd there opcode fresh boot order =>
      p.answered_reserved is there cmd reserved opcode fresh boot order, fun there waits => ?_, ?_⟩
    · rw [is.1, p.row_of_lt there, p.run_waits waits]
    · rw [is.1]
      exact if_pos (by omega)
  · obtain ⟨own, others⟩ := State.respond_chan cmd r
    obtain ⟨-, rest, evc⟩ := State.respond_host cmd r
    dsimp only
    rw [own, Channel.answeredWith, Reply.entryOf_eq]
    exact ⟨rfl, rfl, rfl, rfl, rfl, rfl, others, rest, evc, State.respond_order .., State.respond_mailbox cmd r,
      State.respond_management cmd r⟩

end Sys2Proof.Machine

/-! PROOF. The commands of the paceline (R36, R41 to R45, R56, R217, R478, R479, R482). -/
namespace Sys2Proof.Machine

/-! ### A command that is answered at once -/

/-- A command whose turn has come, which its checks let through, and whose effect keeps the order and the channels, is answered. -/
theorem answered_done {p : CmdSpec} {i : Instr} {s : State} {ch : Nat} {c : Cmd} {t : State} {r : Reply}
    (row : exec i s = p.row ch s) (turn : s.carries ch p.op c) (len : p.len c.length = true) (fields : p.fields c.payload = true)
    (allowed : p.allowed { s with host := { s.host with order := s.host.order.drop 1 } } = true)
    (act : p.act (s.accepted ch c) ch c.payload = .done t r) (order : t.host.order = s.host.order.drop 1)
    (chans : t.host.chans = (s.accepted ch c).host.chans) : answered i s ch t r :=
  row.trans (p.row_done turn len fields allowed act (State.keepsOrder_of order chans))

/-- The same of an effect that keeps the whole host block. -/
theorem answered_kept {p : CmdSpec} {i : Instr} {s : State} {ch : Nat} {c : Cmd} {t : State} {r : Reply}
    (row : exec i s = p.row ch s) (turn : s.carries ch p.op c) (len : p.len c.length = true) (fields : p.fields c.payload = true)
    (allowed : p.allowed { s with host := { s.host with order := s.host.order.drop 1 } } = true)
    (act : p.act (s.accepted ch c) ch c.payload = .done t r) (kept : t.host = (s.accepted ch c).host) : answered i s ch t r :=
  answered_done row turn len fields allowed act (kept ▸ rfl) (kept ▸ rfl)

/-! ### GEAR_SET -/

/-- A change by switch count (R42). -/
theorem State.startGearIn_count {s : State} {g : Nat} (settled : s.pace.change = none) (released : s.power.brake = false) :
    s.startGearIn false g = { s with pace := { s.pace with
      gearTarget := g, clamped := s.pace.clamped || decide (s.effCap < g), rail := max s.pace.rail (min g s.effCap)
      gearAt := s.gsc + max 5000 s.pace.gearLead.toNat
      change := some { target := min g s.effCap, regionStop := false, started := s.gsc } } } := by
  simp [State.startGearIn, State.startGear, settled, released, State.effCap]

/-- The paceline while a change by region stop is under way. -/
def State.stopPace (s : State) (g : Nat) : Pace :=
  { s.pace with
    gearTarget := g, clamped := s.pace.clamped || decide (s.effCap < g), rail := max s.pace.rail (min g s.effCap)
    change := some { target := min g s.effCap, regionStop := true, started := s.gsc } }

/-- A change by region stop (R43). -/
theorem State.startGear_stop {s : State} {g : Nat} (mode : s.pace.gearMode = true) (settled : s.pace.change = none)
    (released : s.power.brake = false) :
    (s.startGear g).pace = s.stopPace g ∧ (∀ r, r < 80 → (s.startGear g).region r = { s.region r with retuning := true }) ∧
    ({ s.startGear g with regions := s.regions, pace := s.pace } : State) = s := by
  have row : s.startGear g = ({ s with pace := s.stopPace g } : State).mapRegions fun x => { x with retuning := true } := by
    unfold State.startGear
    rw [if_neg (by simp [settled, released])]
    simp [State.stopPace, mode]
  rw [row]
  refine ⟨State.mapRegions_pace .., fun r there => State.mapRegions_region _ _ there, ?_⟩
  exact State.mapRegions_keeps (fun t => { t with regions := s.regions, pace := s.pace }) (fun _ _ _ => rfl) _ _

theorem State.startGearIn_stop {s : State} {g : Nat} (settled : s.pace.change = none) (released : s.power.brake = false) :
    (s.startGearIn true g).pace = s.stopPace g ∧
    (∀ r, r < 80 → (s.startGearIn true g).region r = { s.region r with retuning := true }) ∧
    ({ s.startGearIn true g with regions := s.regions, pace := s.pace } : State) = s := by
  obtain ⟨pace, regions, frame⟩ := State.startGear_stop (s := { s with pace := { s.pace with gearMode := true } }) (g := g) rfl settled
    released
  unfold State.startGearIn
  dsimp only
  generalize ({ s with pace := { s.pace with gearMode := true } } : State).startGear g = v at pace regions frame ⊢
  refine ⟨?_, regions, ?_⟩
  · rw [pace]
    rfl
  · exact congrArg (fun t : State => { t with pace := s.pace }) frame

theorem State.startGearIn_braked {s : State} (braked : s.power.brake = true) (mode : Bool) (g : Nat) : s.startGearIn mode g = s := by
  simp [State.startGearIn, State.startGear, braked]

/-- The fields of a GEAR_SET. -/
theorem gearSet_fields {b : Bytes} (gear : fld b 0 1 ≤ 15) (mode : fld b 1 1 ≤ 1 ∨ fld b 1 1 = 0xFF) : gearSet.fields b = true := by
  simpa [gearSet, gear] using mode

/-- The gear a GEAR_SET asks for is the one requested. -/
def State.request (s : State) (g : Nat) : State := { s with power := { s.power with requested := g } }

/-- The mode of the change that a GEAR_SET asks for: true by region stop. -/
def State.askedMode (s : State) (b : Bytes) : Bool := if fld b 1 1 = 0xFF then s.pace.gearMode else decide (fld b 1 1 = 1)

/-- The effect and the answer of a GEAR_SET, when no change is under way. -/
theorem gearSet_act {s t : State} {b : Bytes} {mode : Bool} (ch : Nat) (settled : s.pace.change = none) (asked : s.askedMode b = mode)
    (start : (if s.pace.calValid then (s.request (fld b 0 1)).startGearIn mode (fld b 0 1) else s.request (fld b 0 1)) = t) :
    gearSet.act s ch b = .done t (.ok (leBytes 8 (if t.pace.change.isSome && !mode then t.pace.gearAt else 0) ++
      leBytes 1 (min (fld b 0 1) s.effCap))) := by
  subst asked start
  simp only [gearSet, settled]
  rfl

theorem State.askedMode_count {s : State} {b : Bytes} (asked : fld b 1 1 = 0 ∨ (fld b 1 1 = 0xFF ∧ s.pace.gearMode = false)) :
    s.askedMode b = false := by
  rcases asked with h | ⟨h, mode⟩ <;> simp [State.askedMode, *]

theorem State.askedMode_stop {s : State} {b : Bytes} (asked : fld b 1 1 = 1 ∨ (fld b 1 1 = 0xFF ∧ s.pace.gearMode = true)) :
    s.askedMode b = true := by
  rcases asked with h | ⟨h, mode⟩ <;> simp [State.askedMode, *]

/-! ### The picker (R477) -/

/-- The step-due hint survives the choice of a power state, and the host block is not touched by it. -/
theorem State.runPicker_keeps (s : State) : s.runPicker.host = s.host ∧ s.runPicker.power.stepDue = s.power.stepDue := by
  have enter : ∀ m, (s.enterMode m).host = s.host ∧ (s.enterMode m).power.stepDue = s.power.stepDue := fun m => by
    unfold State.enterMode
    dsimp only
    split <;> split <;> exact ⟨rfl, rfl⟩
  unfold State.runPicker
  split
  · exact ⟨rfl, rfl⟩
  dsimp only
  split
  · exact ⟨rfl, rfl⟩
  split
  · exact ⟨rfl, rfl⟩
  · exact enter _

theorem State.runPicker_busy {s : State} (busy : s.idle = false) : s.runPicker = s := by
  simp [State.runPicker, busy]

/-! ### TELEMETRY_SNAP -/

theorem foldl_min_le_init (f : Nat → Nat) (l : List Nat) (m : Nat) : l.foldl (fun m r => min m (f r)) m ≤ m := by
  induction l generalizing m with
  | nil => exact le_rfl
  | cons x l ih => exact (ih _).trans (min_le_left ..)

theorem foldl_min_le (f : Nat → Nat) {l : List Nat} {r : Nat} (mem : r ∈ l) (m : Nat) : l.foldl (fun m r => min m (f r)) m ≤ f r := by
  induction l generalizing m with
  | nil => cases mem
  | cons x l ih =>
    rcases List.mem_cons.mp mem with rfl | later
    · exact (foldl_min_le_init f l _).trans (min_le_right ..)
    · exact ih later _

theorem le_foldl_max_init (f : Nat → Nat) (l : List Nat) (m : Nat) : m ≤ l.foldl (fun m r => max m (f r)) m := by
  induction l generalizing m with
  | nil => exact le_rfl
  | cons x l ih => exact (le_max_left ..).trans (ih _)

theorem le_foldl_max (f : Nat → Nat) {l : List Nat} {r : Nat} (mem : r ∈ l) (m : Nat) : f r ≤ l.foldl (fun m r => max m (f r)) m := by
  induction l generalizing m with
  | nil => cases mem
  | cons x l ih =>
    rcases List.mem_cons.mp mem with rfl | later
    · exact (le_max_right ..).trans (le_foldl_max_init f l _)
    · exact ih later _

theorem State.tickMin_le (s : State) {r : Nat} (there : r < 80) : s.tickMin ≤ (s.region r).tickCount :=
  foldl_min_le (fun r => (s.region r).tickCount) (List.mem_range.mpr there) _

theorem State.le_tickMax (s : State) {r : Nat} (there : r < 80) : (s.region r).tickCount ≤ s.tickMax :=
  le_foldl_max (fun r => (s.region r).tickCount) (List.mem_range.mpr there) _

/-- The ticks that a snapshot of the paceline holds bound every region's. -/
theorem State.snapPace_ticks (s : State) {r : Nat} (there : r < 80) :
    s.snapPace.snapMem.pace.snapTickMin ≤ (s.region r).tickCount ∧ (s.region r).tickCount ≤ s.snapPace.snapMem.pace.snapTickMax := by
  simp only [State.snapMem, State.snapPace]
  exact ⟨s.tickMin_le there, s.le_tickMax there⟩

theorem State.snapPace_frame (s : State) : ({ s.snapPace.snapMem with pace := s.pace, far := s.far } : State) = s := by
  unfold State.snapMem State.snapPace
  rfl

/-! ### The statement -/

/-- Settles O28: each command by its effect, which leaves the host block as acceptance left it. -/
theorem paceCommands : Obligations.PaceCommands := by
  intro s ch c a b
  refine ⟨fun turn len gear mode => ⟨?busy, ?held, fun settled released valid => ⟨?byCount, ?byStop⟩⟩, ?policy, ?power, ?hint, ?limits,
    ?snap⟩
  case busy =>
    intro change
    refine answered_kept (p := gearSet) rfl turn (decide_eq_true len) (gearSet_fields gear mode) rfl ?_ rfl
    exact if_pos change
  case held =>
    intro settled held
    have start : (if a.pace.calValid then (a.request (fld b 0 1)).startGearIn (a.askedMode b) (fld b 0 1) else a.request (fld b 0 1)) =
        a.request (fld b 0 1) := by
      split
      case isTrue valid =>
        have braked : s.power.brake = true := held.resolve_right (Bool.eq_false_iff.not.mpr (not_not.mpr valid))
        exact State.startGearIn_braked (s := a.request (fld b 0 1)) braked _ _
      case isFalse => rfl
    have answer : (a.request (fld b 0 1)).pace.change = none := settled
    refine answered_kept (p := gearSet) rfl turn (decide_eq_true len) (gearSet_fields gear mode) rfl
      ((gearSet_act (s := a) ch settled rfl start).trans ?_) rfl
    rw [answer]
    rfl
  case byCount =>
    intro asked
    have start := State.startGearIn_count (s := a.request (fld b 0 1)) (g := fld b 0 1) settled released
    exact answered_kept (p := gearSet) rfl turn (decide_eq_true len) (gearSet_fields gear mode) rfl
      (gearSet_act (s := a) ch settled (State.askedMode_count asked) ((if_pos valid).trans start)) rfl
  case byStop =>
    intro asked
    obtain ⟨pace, regions, frame⟩ := State.startGearIn_stop (s := a.request (fld b 0 1)) (g := fld b 0 1) settled released
    generalize start : (a.request (fld b 0 1)).startGearIn true (fld b 0 1) = t at pace regions frame
    exact ⟨t, answered_kept (p := gearSet) rfl turn (decide_eq_true len) (gearSet_fields gear mode) rfl
      ((gearSet_act (s := a) ch settled (State.askedMode_stop asked) ((if_pos valid).trans start)).trans (by simp; rfl))
      (congrArg State.host frame :), regions, congrArg Power.requested (congrArg State.power frame :), pace,
      congrArg (fun t : State => { t with power := a.power }) frame⟩
  case policy =>
    intro turn len policy cap watts
    exact answered_kept (p := gearPolicy) rfl turn (decide_eq_true len) (by simpa [gearPolicy, b] using ⟨⟨policy, cap⟩, watts⟩) rfl rfl rfl
  case power =>
    intro turn len bounded zero
    exact answered_kept (p := powerPolicy) rfl turn (decide_eq_true len) (by simpa [powerPolicy, b] using ⟨bounded, zero⟩) rfl rfl rfl
  case hint =>
    intro turn len
    obtain ⟨host, due⟩ := State.runPicker_keeps ({ a with power := { a.power with
      stepDue := if fld b 0 8 ≤ a.gsc then 0 else fld b 0 8 } } : State)
    exact ⟨_, answered_kept (p := stepHint) rfl turn (decide_eq_true len) rfl rfl rfl host, due, fun busy => State.runPicker_busy busy⟩
  case limits =>
    intro turn len
    exact answered_kept (p := tsLimits) rfl turn (decide_eq_true len) rfl rfl rfl rfl
  case snap =>
    intro turn len
    refine ⟨a.snapPace.snapMem, answered_kept (p := telemetrySnap) rfl turn (decide_eq_true len) rfl rfl rfl rfl, rfl,
      fun r there => a.snapPace_ticks there, fun k x mem => ?_, rfl, rfl, rfl, rfl, a.snapPace_frame⟩
    exact List.mem_map.mpr ⟨(k, x), mem, rfl⟩

end Sys2Proof.Machine

/-! PROOF. Supply, power-on, tampering and the resets of the module (R453, R465, R471, R490, R491, R497 to R505). -/
namespace Sys2Proof.Machine

/-! ### Ports -/

@[simp] theorem State.port_setPort (s : State) (p : Nat) (x : LinkPort) : (s.setPort p x).port p = x := Map.find_put_same ..

theorem State.port_setPort_other (s : State) {p q : Nat} (x : LinkPort) (other : q ≠ p) : (s.setPort p x).port q = s.port q :=
  Map.find_put_other _ _ _ other

/-- Dropping the units it holds keeps a port's mode. -/
theorem LinkPort.dropHeld_mode (x : LinkPort) : x.dropHeld.mode = x.mode := by
  exact foldl_keeps LinkPort.mode
    (fun x (u : Nat × LUnit × Bool) => { x with cells := x.cells.put u.2.1.cls (x.cells.find 0 u.2.1.cls - 1) }) (fun _ _ => rfl) x.held x

theorem State.startTraining_state (s : State) (p : Nat) :
    ((s.startTraining p).port p).state = if (s.port p).mode = 0 then .off else .training := by
  rw [State.startTraining, State.port_setPort, LinkPort.dropHeld_mode]

theorem State.startTraining_port_other (s : State) {p q : Nat} (other : q ≠ p) : (s.startTraining p).port q = s.port q :=
  State.port_setPort_other _ _ other

/-- The ports that are named start to train. -/
theorem State.startTrainings_state (l : List Nat) (s : State) {q : Nat} (mem : q ∈ l) (once : l.Nodup) :
    ((l.foldl (fun s p => s.startTraining p) s).port q).state = if (s.port q).mode = 0 then .off else .training := by
  have rest : ∀ (l : List Nat) (s : State), q ∉ l → (l.foldl (fun s p => s.startTraining p) s).port q = s.port q := by
    intro l
    induction l with
    | nil => exact fun _ _ => rfl
    | cons p l ih =>
      intro s apart
      obtain ⟨other, apart⟩ := not_or.mp (List.mem_cons.not.mp apart)
      rw [List.foldl_cons, ih _ apart, State.startTraining_port_other _ other]
  induction l generalizing s with
  | nil => cases mem
  | cons p l ih =>
    obtain ⟨fresh, once⟩ := List.nodup_cons.mp once
    rw [List.foldl_cons]
    by_cases first : q = p
    · subst first
      rw [rest l _ fresh, State.startTraining_state]
    · rw [ih _ ((List.mem_cons.mp mem).resolve_left first) once, State.startTraining_port_other _ first]

/-- A part of the state that no write of a port changes survives the start of training. -/
theorem State.startTrainings_keeps {α : Type} (v : State → α) (kept : ∀ (s : State) (p : Nat) (x : LinkPort), v (s.setPort p x) = v s)
    (l : List Nat) (s : State) : v (l.foldl (fun s p => s.startTraining p) s) = v s :=
  foldl_keeps v (fun s p => s.startTraining p) (fun s p => kept s p _) l s

/-! ### The boot ROM -/

theorem State.boot_keeps {α : Type} (v : State → α) (ports : ∀ (s : State) (p : Nat) (x : LinkPort), v (s.setPort p x) = v s)
    (s : State) : v s.boot = v s.bootRom := by
  unfold State.boot
  dsimp only
  split
  · exact State.startTrainings_keeps v ports _ _
  · rfl

/-- Firmware starts with the fuses and the flash it finds, and MOD_READY as it is. -/
theorem State.startFirmware_eq (s : State) : ∃ x : Sec, x.fuses = s.sec.fuses ∧ x.fw = s.sec.fw ∧ x.boot = .running ∧ x.udsLocked = true ∧
    let u := (s.withSec x).withEvc { s.host.evc with sources := firmwareSources }
    s.startFirmware = u.withPower { u.power with kickAt := u.gsc } := by
  unfold State.startFirmware
  dsimp only
  split
  all_goals
    refine ⟨_, ?_, ?_, ?_, ?_, by with_reducible rfl⟩ <;> rfl

/-- The boot ROM writes the boot state, or has firmware start (R453). -/
theorem State.bootRom_cases (s : State) :
    (s.sec.fuses.lc = 5 ∧ s.bootRom = s.withSec { s.sec with boot := .halted, recCause := 0 }) ∨
    (s.sec.fuses.lc = 0 ∧ s.bootRom = s.withSec { s.sec with boot := .recovery, recCause := 5 }) ∨
    (s.sec.fuses.lc ≠ 0 ∧ s.sec.fuses.lc ≠ 5 ∧ s.fwCheck s.sec.fw ≠ 0 ∧
      s.bootRom = s.withSec { s.sec with boot := .recovery, recCause := s.fwCheck s.sec.fw }) ∨
    (s.sec.fuses.lc ≠ 0 ∧ s.sec.fuses.lc ≠ 5 ∧ s.fwCheck s.sec.fw = 0 ∧ s.bootRom = s.startFirmware) := by
  unfold State.bootRom
  dsimp only
  split
  case isTrue scrapped => exact .inl ⟨scrapped, rfl⟩
  case isFalse inUse =>
    split
    case isTrue blank => exact .inr (.inl ⟨blank, rfl⟩)
    case isFalse made =>
      split
      case isTrue bad => exact .inr (.inr (.inl ⟨made, inUse, bad, rfl⟩))
      case isFalse good => exact .inr (.inr (.inr ⟨made, inUse, not_not.mp good, rfl⟩))

/-- What the boot ROM and the start of firmware leave: all but the boot state, the event sources, and the time of the last kick. -/
theorem State.bootRom_frame (s : State) :
    ({ s.bootRom with sec := s.sec, host := s.host, power := s.power } : State) = s ∧
    ({ s.bootRom.host with evc := s.host.evc } : HostBlk) = s.host ∧
    ({ s.bootRom.host.evc with sources := s.host.evc.sources } : Evc) = s.host.evc ∧
    ({ s.bootRom.power with kickAt := s.power.kickAt } : Power) = s.power ∧
    s.bootRom.sec.fuses = s.sec.fuses ∧ s.bootRom.sec.fw = s.sec.fw := by
  rcases s.bootRom_cases with ⟨-, eq⟩ | ⟨-, eq⟩ | ⟨-, -, -, eq⟩ | ⟨-, -, -, eq⟩
  case inr.inr.inr =>
    obtain ⟨x, fuses, fw, -, -, start⟩ := s.startFirmware_eq
    rw [eq, start]
    generalize firmwareSources = sources
    exact ⟨rfl, rfl, rfl, rfl, fuses, fw⟩
  all_goals
    rw [eq]
    exact ⟨rfl, rfl, rfl, rfl, rfl, rfl⟩

/-! ### Boot -/

/-- What a boot leaves: all but the security block's boot state, the event sources, the time of the last kick and the ports. -/
theorem State.boot_frame (s : State) :
    ({ s.boot with sec := s.sec, host := s.host, power := s.power, ports := s.ports } : State) = s ∧
    ({ s.boot.host with evc := s.host.evc } : HostBlk) = s.host ∧
    ({ s.boot.host.evc with sources := s.host.evc.sources } : Evc) = s.host.evc ∧
    ({ s.boot.power with kickAt := s.power.kickAt } : Power) = s.power ∧
    s.boot.sec.fuses = s.sec.fuses ∧ s.boot.sec.fw = s.sec.fw := by
  obtain ⟨rest, host, evc, power, fuses, fw⟩ := s.bootRom_frame
  have hostB : s.boot.host = s.bootRom.host := State.boot_keeps State.host (fun _ _ _ => rfl) s
  have powerB : s.boot.power = s.bootRom.power := State.boot_keeps State.power (fun _ _ _ => rfl) s
  have secB : s.boot.sec = s.bootRom.sec := State.boot_keeps State.sec (fun _ _ _ => rfl) s
  refine ⟨?_, by rw [hostB, host], by rw [hostB, evc], by rw [powerB, power], by rw [secB, fuses], by rw [secB, fw]⟩
  exact (State.boot_keeps (fun t => { t with sec := s.sec, host := s.host, power := s.power, ports := s.ports }) (fun _ _ _ => rfl) s).trans
    (congrArg (fun t : State => { t with ports := s.ports }) rest)

theorem State.boot_sec (s : State) : s.boot.sec = s.bootRom.sec := State.boot_keeps State.sec (fun _ _ _ => rfl) s

/-- An image that passes its checks starts, and the ports train (R453, R503). -/
theorem State.boot_running {s : State} (made : s.sec.fuses.lc ≠ 0) (inUse : s.sec.fuses.lc ≠ 5) (good : s.fwCheck s.sec.fw = 0) :
    s.boot.sec.boot = .running ∧ s.boot.sec.udsLocked = true ∧
      ∀ p, p < 16 → (s.boot.port p).state = if (s.port p).mode = 0 then .off else .training := by
  obtain ⟨x, -, -, running, locked, start⟩ := s.startFirmware_eq
  have rom : s.bootRom = s.startFirmware := by
    rcases s.bootRom_cases with ⟨h, -⟩ | ⟨h, -⟩ | ⟨-, -, h, -⟩ | ⟨-, -, -, eq⟩
    · exact absurd h inUse
    · exact absurd h made
    · exact absurd good h
    · exact eq
  have sec : s.bootRom.sec = x := by rw [rom, start]; rfl
  have ports : s.bootRom.ports = s.ports := (congrArg State.ports s.bootRom_frame.1 :)
  refine ⟨by rw [s.boot_sec, sec, running], by rw [s.boot_sec, sec, locked], fun p there => ?_⟩
  rw [State.boot, sec, if_pos running, State.startTrainings_state _ _ (List.mem_range.mpr there) List.nodup_range, State.port, ports]
  rfl

theorem State.boot_halted {s : State} (scrapped : s.sec.fuses.lc = 5) : s.boot.sec.boot = .halted := by
  rw [s.boot_sec]
  rcases s.bootRom_cases with ⟨-, eq⟩ | ⟨h, -⟩ | ⟨-, h, -⟩ | ⟨-, h, -⟩
  · rw [eq]; rfl
  · omega
  all_goals exact absurd scrapped h

theorem State.boot_blank {s : State} (blank : s.sec.fuses.lc = 0) : s.boot.sec.boot = .recovery ∧ s.boot.sec.recCause = 5 := by
  rw [s.boot_sec]
  rcases s.bootRom_cases with ⟨h, -⟩ | ⟨-, eq⟩ | ⟨h, -⟩ | ⟨h, -⟩
  · omega
  · rw [eq]; exact ⟨rfl, rfl⟩
  all_goals exact absurd blank h

theorem State.boot_bad {s : State} (made : s.sec.fuses.lc ≠ 0) (inUse : s.sec.fuses.lc ≠ 5) (bad : s.fwCheck s.sec.fw ≠ 0) :
    s.boot.sec.boot = .recovery ∧ s.boot.sec.recCause = s.fwCheck s.sec.fw := by
  rw [s.boot_sec]
  rcases s.bootRom_cases with ⟨h, -⟩ | ⟨h, -⟩ | ⟨-, -, -, eq⟩ | ⟨-, -, h, -⟩
  · exact absurd h inUse
  · exact absurd h made
  · rw [eq]; exact ⟨rfl, rfl⟩
  · exact absurd h bad

/-- The checks of an image read the fuses alone. -/
theorem State.fwCheck_congr {s t : State} (fuses : t.sec.fuses = s.sec.fuses) (b : Bytes) : t.fwCheck b = s.fwCheck b := by
  rw [State.fwCheck, State.fwCheck, fuses]

/-! ### Supply -/

/-- What goes with the power (R491, R498). -/
def State.lostPower (s t : State) : Prop :=
  t.gsc = 0 ∧ t.job = .init ∧ t.image = none ∧ t.cores = [] ∧ t.ss = [] ∧ t.far = .init ∧ t.queues = [] ∧
    t.recs = .init ∧ t.sec.boot = .rom ∧ t.sec.fuses = s.sec.fuses ∧ t.sec.fw = s.sec.fw ∧ t.host.hostMem = s.host.hostMem ∧
    t.power.residency = [] ∧ t.power.modReady = false ∧ t.power.perstN = s.power.perstN

theorem State.lostPower_powerCycle (s : State) (supply : Supply) (pwrEn : Bool) : s.lostPower (s.powerCycle supply pwrEn) :=
  ⟨rfl, rfl, rfl, rfl, rfl, rfl, rfl, rfl, rfl, rfl, rfl, rfl, rfl, rfl, rfl⟩

theorem completes_powerOnReset {s : State} (x : BitVec 2) (on : s.power.supply = .on) (rom : s.sec.boot = .rom) :
    completes (.powerOnReset x) s fun t =>
      t.power.straps = x.toNat ∧ t.power.modReady = true ∧ t.gsc = s.gsc ∧ t.sec.fuses = s.sec.fuses ∧
      (s.sec.fuses.lc = 5 → t.sec.boot = .halted) ∧ (s.sec.fuses.lc = 0 → t.sec.boot = .recovery ∧ t.sec.recCause = 5) ∧
      (s.sec.fuses.lc ≠ 0 → s.sec.fuses.lc ≠ 5 → s.fwCheck s.sec.fw ≠ 0 → t.sec.boot = .recovery ∧ t.sec.recCause = s.fwCheck s.sec.fw) ∧
      (s.sec.fuses.lc ≠ 0 → s.sec.fuses.lc ≠ 5 → s.fwCheck s.sec.fw = 0 → t.sec.boot = .running ∧ t.sec.udsLocked = true ∧
        ∀ p, p < 16 → (t.port p).state = if (s.port p).mode = 0 then .off else .training) := by
  obtain ⟨u, set⟩ : ∃ u, u = s.withPower { s.power with straps := x.toNat, modReady := true } := ⟨_, rfl⟩
  have row : exec (.powerOnReset x) s = .next u.boot := by
    rw [set]
    exact if_neg (by simp [on, rom])
  obtain ⟨rest, -, -, power, fuses, -⟩ := u.boot_frame
  have sec : u.sec = s.sec := by rw [set]; rfl
  have check : u.fwCheck u.sec.fw = s.fwCheck s.sec.fw := by rw [State.fwCheck_congr (congrArg Sec.fuses sec), sec]
  have ports : ∀ p, u.port p = s.port p := fun p => by rw [set]; rfl
  refine ⟨_, row, ?_, ?_, ?_, fuses.trans (congrArg Sec.fuses sec), fun h => ?_, fun h => ?_, fun made inUse bad => ?_,
    fun made inUse good => ?_⟩
  · exact (congrArg Power.straps power :).trans (by rw [set]; rfl)
  · exact (congrArg Power.modReady power :).trans (by rw [set]; rfl)
  · exact (congrArg State.gsc rest :).trans (by rw [set]; rfl)
  · exact State.boot_halted (sec ▸ h)
  · exact State.boot_blank (sec ▸ h)
  · rw [← check]
    exact State.boot_bad (sec ▸ made) (sec ▸ inUse) (check ▸ bad)
  · simp only [← ports]
    exact State.boot_running (sec ▸ made) (sec ▸ inUse) (check.trans good)

/-- The first module-fatal fault is the one that the reset is for (R490). -/
theorem State.moduleFatal_due {s : State} (free : s.power.resetDue = none) (code : Nat) (a : W64) :
    (s.moduleFatal code a).power.resetDue = some (.moduleFatal (BitVec.ofNat 16 code)) := by
  simp [State.moduleFatal, free]

theorem completes_tamperDetection {s : State} {c : Nat} (least : 1 ≤ c) (most : c ≤ 4) (on : s.power.supply = .on) :
    completes (.tamperDetection c) s fun t => t.sec.owner = none ∧ t.sec.ak = none ∧
      t.sec.ik = none ∧ t.sec.nonce = none ∧ t.sec.fuses.ownerEpoch = min 64 (s.sec.fuses.ownerEpoch + 1) ∧
      t.sec.tamperDue = some (c, s.gsc) ∧ t.recs.staged = [] ∧ t.recs.opened = none ∧ t.cores = s.cores ∧ t.gsc = s.gsc ∧
      (s.power.resetDue = none → t.power.resetDue = some (.moduleFatal 0x0901#16)) := by
  refine ⟨_, if_neg (by simp [on]; omega), ?_⟩
  refine ⟨?_, ?_, ?_, ?_, ?_, ?_, ?_, ?_, ?_, ?_, fun free => State.moduleFatal_due (by simpa [State.zeroise] using free) ..⟩
  all_goals simp [State.zeroise, Fuses.advanceEpoch]

/-- Settles O57: each row by its branch of the supply's state; a boot by what the boot ROM finds. -/
theorem powerSequence : Obligations.PowerSequence := by
  intro s w lost
  refine ⟨fun h => if_pos h, fun en off => ?_, fun en off => ?_, fun x h => ?_, fun x => completes_powerOnReset x, fun en => ?_,
    fun en there => ?_, fun en out => ?_, fun i mem => ?_, fun h => if_pos h, fun h => ?_, fun c => completes_tamperDetection⟩
  · exact ⟨_, (if_neg (by simp [show s.power.pwrEn = false from en])).trans (if_pos off), s.lostPower_powerCycle .on true, rfl, rfl⟩
  · exact (if_neg (by simp [show s.power.pwrEn = false from en])).trans (if_neg off)
  · exact if_pos (by simpa using h)
  · exact if_pos (by simpa using en)
  · exact ⟨_, (if_neg (by simpa using en)).trans (if_neg there), s.lostPower_powerCycle .off false, rfl, rfl⟩
  · exact (if_neg (by simpa using en)).trans (if_pos out)
  · have lockout : exec i s = if s.power.supply ≠ .on then .next s else .next (s.powerDown .lockedOut s.power.pwrEn) := by
      simp only [List.mem_cons, List.not_mem_nil, or_false] at mem
      rcases mem with rfl | rfl <;> rfl
    exact ⟨fun off => lockout.trans (if_pos off), fun on =>
      ⟨_, lockout.trans (if_neg (not_not.mpr on)), s.lostPower_powerCycle .lockedOut _, rfl, rfl⟩⟩
  · exact if_neg (not_not.mpr h)

end Sys2Proof.Machine

/-! PROOF. The module-fatal reset, SEC_RESET and the restart after heat (R453, R490, R491, R494). -/
namespace Sys2Proof.Machine

/-! ### The job-stop units that go before the reset (R490) -/

/-- A MAINT message changes the links, the fabric and the free values drawn, and no more. -/
theorem State.sendMsg_maint_keeps {α : Type} (v : State → α)
    (kept : ∀ (s : State) f p n, v { s with fab := f, ports := p, free := n } = v s) (s : State) (r x : Nat) (m : FabMsg) :
    v (s.sendMsg r 3 x m) = v s := by
  have own : ∀ (s : State) (dest : Nat) (b : Bytes), v (s.sendOwn dest 3 x b) = v s := by
    intro s dest b
    unfold State.sendOwn
    split
    · rfl
    · exact kept s _ _ _
    · exact kept s _ _ _
  unfold State.sendMsg
  dsimp only
  rw [own]
  cases m <;> exact kept s _ _ _

theorem State.fatalUnits_keeps {α : Type} (v : State → α)
    (kept : ∀ (s : State) f p n, v { s with fab := f, ports := p, free := n } = v s) (s : State) (code : Nat) :
    v (s.fatalUnits code) = v s :=
  foldl_keeps v (fun s r => s.sendMsg r 3 0xFFFB (.jobStop s.fab.rank code)) (fun s r => s.sendMsg_maint_keeps v kept r _ _) _ s

/-! ### What a reset leaves -/

/-- What every reset of the module clears and keeps (R491). -/
def State.cleared (s t : State) : Prop :=
  t.job = .init ∧ t.image = none ∧ t.stop = none ∧ t.cores = [] ∧ t.ss = [] ∧ t.queues = [] ∧
    t.regions = [] ∧ t.flights = [] ∧ t.far = .init ∧ t.srv = .init ∧ t.recs = .init ∧ t.coreRegs = .init ∧ t.sec.fuses = s.sec.fuses ∧
    t.sec.fw = s.sec.fw ∧ t.power.resetDue = none ∧ t.host.order = [] ∧ t.host.hostMem = s.host.hostMem ∧
    t.host.winRefused = s.host.winRefused ∧ t.pending = s.pending ∧ t.fab.addrValid = false

/-- A boot clears nothing and brings nothing back. -/
theorem State.cleared_boot {s t : State} (cleared : s.cleared t) : s.cleared t.boot := by
  obtain ⟨rest, host, -, power, fuses, fw⟩ := t.boot_frame
  have eq : t.boot = { t with sec := t.boot.sec, host := t.boot.host, power := t.boot.power, ports := t.boot.ports } :=
    congrArg (fun u : State => { u with sec := t.boot.sec, host := t.boot.host, power := t.boot.power, ports := t.boot.ports }) rest
  obtain ⟨job, image, stop, cores, ss, queues, regions, flights, far, srv, recs, coreRegs, fuses0, fw0, due, order, hostMem, refused,
    pending, addr⟩ := cleared
  rw [eq]
  exact ⟨job, image, stop, cores, ss, queues, regions, flights, far, srv, recs, coreRegs, fuses.trans fuses0, fw.trans fw0,
    (congrArg Power.resetDue power :).trans due, (congrArg HostBlk.order host :).trans order,
    (congrArg HostBlk.hostMem host :).trans hostMem, (congrArg HostBlk.winRefused host :).trans refused, pending, addr⟩

theorem State.cleared_resetModule (s : State) (kind : Nat) (code : W16) : s.cleared (s.resetModule kind code) :=
  ⟨rfl, rfl, rfl, rfl, rfl, rfl, rfl, rfl, rfl, rfl, rfl, rfl, rfl, rfl, rfl, rfl, rfl, rfl, rfl, rfl⟩

theorem State.cleared_of_same {s u t : State} (sec : u.sec = s.sec) (host : u.host = s.host) (pending : u.pending = s.pending)
    (cleared : u.cleared t) : s.cleared t := by
  rw [State.cleared, sec, host, pending] at cleared
  exact cleared

/-- The clock, and what shows the kind of the reset. -/
theorem State.boot_shows (s : State) :
    s.boot.gsc = s.gsc ∧ s.boot.power.lastResetKind = s.power.lastResetKind ∧
    s.boot.power.lastResetCode = s.power.lastResetCode ∧ s.boot.power.thermalOff = s.power.thermalOff ∧
    s.boot.host.evc.resetLog = s.host.evc.resetLog := by
  obtain ⟨rest, -, evc, power, -, -⟩ := s.boot_frame
  exact ⟨(congrArg State.gsc rest :), (congrArg Power.lastResetKind power :), (congrArg Power.lastResetCode power :),
    (congrArg Power.thermalOff power :), (congrArg Evc.resetLog evc :)⟩

/-! ### The rows -/

theorem completes_moduleFatalReset {s : State} {c : W16} (due : s.power.resetDue = some (.moduleFatal c)) :
    completes .moduleFatalReset s fun t => s.cleared t ∧ t.gsc = s.gsc ∧
      t.power.lastResetKind = 1 ∧ t.power.lastResetCode = c ∧ t.host.evc.resetLog = some (c.toNat, s.gsc) ∧
      (s.power.thermalOff = true → t.sec.boot = .thermalOff) ∧
      (s.power.thermalOff = false → s.sec.fuses.lc ≠ 0 → s.sec.fuses.lc ≠ 5 → s.fwCheck s.sec.fw = 0 → t.sec.boot = .running ∧
        ∀ p, p < 16 → (t.port p).state = .training) := by
  obtain ⟨u, said⟩ : ∃ u, u = if c = 0x0901#16 then s else s.fatalUnits c.toNat := ⟨_, rfl⟩
  have keeps : ∀ {α : Type} (v : State → α), (∀ (s : State) f p n, v { s with fab := f, ports := p, free := n } = v s) → v u = v s := by
    intro α v kept
    rw [said]
    split
    · rfl
    · exact s.fatalUnits_keeps v kept _
  have gsc : u.gsc = s.gsc := keeps State.gsc fun _ _ _ _ => rfl
  have sec : u.sec = s.sec := keeps State.sec fun _ _ _ _ => rfl
  have host : u.host = s.host := keeps State.host fun _ _ _ _ => rfl
  have power : u.power = s.power := keeps State.power fun _ _ _ _ => rfl
  have pending : u.pending = s.pending := keeps State.pending fun _ _ _ _ => rfl
  have cleared : s.cleared (u.resetModule 1 c) := State.cleared_of_same sec host pending (u.cleared_resetModule 1 c)
  have row : exec .moduleFatalReset s = .next (if (u.resetModule 1 c).power.thermalOff then
      (u.resetModule 1 c).withSec { (u.resetModule 1 c).sec with boot := .thermalOff } else (u.resetModule 1 c).boot) := by
    simp only [exec, execModuleFatalReset, due, said]
  have off : (u.resetModule 1 c).power.thermalOff = s.power.thermalOff := (congrArg Power.thermalOff power :)
  have log : (u.resetModule 1 c).host.evc.resetLog = some (c.toNat, s.gsc) := congrArg (fun n => some (c.toNat, n)) gsc
  rw [off] at row
  refine ⟨_, row, ?_⟩
  cases heat : s.power.thermalOff with
  | true => exact ⟨cleared, gsc, rfl, rfl, log, fun _ => rfl, fun h => absurd h (by decide)⟩
  | false =>
    obtain ⟨clock, kind, code, -, resetLog⟩ := (u.resetModule 1 c).boot_shows
    refine ⟨State.cleared_boot cleared, clock.trans gsc, kind, code, resetLog.trans log, fun h => absurd h (by decide),
      fun _ made inUse good => ?_⟩
    have fuses : (u.resetModule 1 c).sec.fuses = s.sec.fuses := (congrArg Sec.fuses sec :)
    have check : (u.resetModule 1 c).fwCheck (u.resetModule 1 c).sec.fw = 0 := by
      rw [State.fwCheck_congr fuses, ← good, ← sec]
      rfl
    obtain ⟨running, -, ports⟩ := State.boot_running (fuses ▸ made) (fuses ▸ inUse) check
    exact ⟨running, fun p there => (ports p there).trans (if_neg (show ¬ LinkPort.init.mode = 0 by decide))⟩

theorem completes_thermalRestart {s : State} {n : Nat} (cold : s.power.coldSince = some n) (off : s.sec.boot = .thermalOff) :
    completes .thermalRestart s fun t => s.cleared t ∧ t.gsc = max s.gsc (n + 10000000000) ∧ t.power.thermalOff = false ∧
      t.power.lastResetKind = 1 ∧ t.power.lastResetCode = s.power.lastResetCode := by
  obtain ⟨due, at_⟩ : ∃ due, due = n + 10000000000 := ⟨_, rfl⟩
  obtain ⟨u, later⟩ : ∃ u, u = (s.advanceTo due).withPower { (s.advanceTo due).power with thermalOff := false } := ⟨_, rfl⟩
  have row : exec .thermalRestart s = .next (u.resetModule 1 u.power.lastResetCode).boot := by
    simp only [exec, execThermalRestart, cold, off, later, at_]
    rfl
  have gsc : u.gsc = max s.gsc due := by simp [later, State.withPower]
  have sec : u.sec = s.sec := by simp [later]
  have host : u.host = s.host := by simp [later]
  have pending : u.pending = s.pending := by simp [later]
  have code : u.power.lastResetCode = s.power.lastResetCode := by
    rw [later]
    unfold State.advanceTo
    split <;> rfl
  obtain ⟨clock, kind, shown, heat, -⟩ := (u.resetModule 1 u.power.lastResetCode).boot_shows
  refine ⟨_, row, State.cleared_boot (State.cleared_of_same sec host pending (u.cleared_resetModule 1 _)),
    clock.trans (gsc.trans (by rw [at_])), heat.trans ?_, kind, shown.trans code⟩
  rw [later]
  rfl

/-- Settles O56: a reset clears and keeps, a boot keeps what the reset left. -/
theorem moduleReset : Obligations.ModuleReset := by
  intro s cleared
  refine ⟨fun none => ?_, fun c => completes_moduleFatalReset, fun due => ?_, fun waits => ?_, fun n => completes_thermalRestart⟩
  · simp only [exec, execModuleFatalReset, none]
  · obtain ⟨clock, kind, -, -, log⟩ := (s.resetModule 2 0#16).boot_shows
    refine ⟨(s.resetModule 2 0#16).boot, ?_, State.cleared_boot (s.cleared_resetModule 2 0#16), clock, kind, log⟩
    simp only [exec, execModuleFatalReset, due]
  · rcases waits with none | other
    · simp only [exec, execThermalRestart, none]
    · simp only [exec, execThermalRestart]
      split
      · rfl
      · exact if_pos other

end Sys2Proof.Machine

/-! PROOF. The power states (R476, R478, R480). -/
namespace Sys2Proof.Machine

/-! ### What the picker leaves -/

theorem State.enterMode_keeps {α : Type} (v : State → α)
    (kept : ∀ (s : State) p f c ss e pc, v { s with power := { s.power with mode := p }, far := f, cores := c, ss := ss, ssErr := e, pace := pc } = v s)
    (s : State) (m : PowerMode) : v (s.enterMode m) = v s := by
  unfold State.enterMode
  dsimp only
  split <;> split <;> exact kept s ..

/-- The choice of a power state leaves what neither a mode's entry nor the planned exit writes. -/
theorem State.runPicker_keeps_of {α : Type} (v : State → α)
    (entry : ∀ (s : State) p f c ss e pc, v { s with power := { s.power with mode := p }, far := f, cores := c, ss := ss, ssErr := e, pace := pc } = v s)
    (plan : ∀ (s : State) x, v { s with power := { s.power with exitPlan := x } } = v s) (s : State) : v s.runPicker = v s := by
  unfold State.runPicker
  split
  · rfl
  dsimp only
  split
  · rfl
  · refine (plan _ _).trans ?_
    split
    · rfl
    · exact s.enterMode_keeps v entry _

theorem State.runPicker_shows (s : State) : s.runPicker.gsc = s.gsc ∧ s.runPicker.job = s.job ∧
    s.runPicker.power.exiting = s.power.exiting ∧ s.runPicker.power.stepDue = s.power.stepDue :=
  ⟨s.runPicker_keeps_of State.gsc (fun _ _ _ _ _ _ _ => rfl) (fun _ _ => rfl),
    s.runPicker_keeps_of State.job (fun _ _ _ _ _ _ _ => rfl) (fun _ _ => rfl),
    s.runPicker_keeps_of (fun s => s.power.exiting) (fun _ _ _ _ _ _ _ => rfl) (fun _ _ => rfl),
    s.runPicker_keeps_of (fun s => s.power.stepDue) (fun _ _ _ _ _ _ _ => rfl) (fun _ _ => rfl)⟩

/-! ### The end of PARK (R476) -/

theorem LinkPort.parkExit_active {x : LinkPort} (active : x.state = .active) (gsc : Nat) :
    (x.parkExit gsc).state = .retraining ∧ (x.parkExit gsc).phase = 1 := by
  simp [LinkPort.parkExit, active]

theorem State.toRun_park {s : State} (park : s.power.mode = .park) (p : Nat) : s.toRun.port p = (s.port p).parkExit s.gsc := by
  unfold State.toRun State.port
  simp only [park, if_true]
  exact Map.find_mapValues s.ports (fun x => x.parkExit s.gsc) rfl p

theorem completes_powerExitDone {s : State} (exiting : s.power.exiting = true) :
    completes .powerExitDone s fun t => t.gsc = max s.gsc s.power.exitDone ∧ t.power.exiting = false ∧
      t.job = s.job ∧ ((s.advanceTo s.power.exitDone).toRun.idle = false → t.power.mode = .run ∧ t.far.selfRefresh = false ∧
        t.power.exitPlan = none ∧ (s.power.mode = .park → t.pace.calValid = true ∧ t.far.rate = 3 ∧
          ∀ p, (s.port p).state = .active → (t.port p).state = .retraining ∧ (t.port p).phase = 1) ∧ t.cores = s.cores ∧ t.ss = s.ss) := by
  have row : exec .powerExitDone s = .next (s.advanceTo s.power.exitDone).toRun.runPicker := if_neg (by simp [exiting])
  generalize later : s.advanceTo s.power.exitDone = u at row
  have mode : u.power.mode = s.power.mode := later ▸ State.advanceTo_power_mode ..
  have ports : u.ports = s.ports := later ▸ State.advanceTo_ports ..
  obtain ⟨gsc, job, exit, -⟩ := u.toRun.runPicker_shows
  refine ⟨_, row, gsc.trans (later ▸ State.advanceTo_gsc ..), exit, job.trans (later ▸ State.advanceTo_job ..), fun busy => ?_⟩
  rw [State.runPicker_busy busy]
  refine ⟨rfl, rfl, rfl, fun park => ?_, later ▸ State.advanceTo_cores .., later ▸ State.advanceTo_ss ..⟩
  have park : u.power.mode = .park := mode.trans park
  refine ⟨by simp [State.toRun, park], by simp [State.toRun, park], fun p active => ?_⟩
  rw [State.toRun_park park]
  exact LinkPort.parkExit_active (by rw [State.port, ports]; exact active) _

/-- Settles O46: each row by its conditions; after an exit the picker leaves a module that is not idle alone. -/
theorem powerStates : Obligations.PowerStates := by
  intro s
  refine ⟨fun waits => ?_, fun n plan low fresh => ?_, fun still => if_pos (by simp [still]), completes_powerExitDone,
    fun none => if_pos none, fun due => ?_⟩
  · simp only [exec, execPowerExitPlanned]
    split
    · rfl
    · exact if_pos (by simp_all)
  · refine ⟨_, by simp only [exec, execPowerExitPlanned, plan, fresh]; exact if_neg (by simp [low]), ?_⟩
    simp [State.withPower]
  · obtain ⟨gsc, job, -, lapsed⟩ :=
      ((s.advanceTo s.power.stepDue).withPower { (s.advanceTo s.power.stepDue).power with stepDue := 0 }).runPicker_shows
    exact ⟨_, if_neg due, gsc.trans (State.advanceTo_gsc ..), lapsed, job.trans (State.advanceTo_job ..)⟩

end Sys2Proof.Machine

/-! PROOF. The policy cap, the sensors, the brake's end and the converter (R482 to R486, R494). -/
namespace Sys2Proof.Machine

/-! ### An event leaves its source raised (R434) -/

theorem Source.settle_state_ne_idle {x : Source} (raised : x.state ≠ .idle) (gsc : Nat) (wait : Bool) : (x.settle gsc wait).state ≠ .idle := by
  unfold Source.settle
  split
  · exact nofun
  · exact raised

theorem Source.raise_state_ne_idle (x : Source) (i : RaiseInfo) (wait : Bool) : (x.raise i wait).state ≠ .idle := by
  refine Source.settle_state_ne_idle ?_ _ _
  dsimp only
  split
  · exact nofun
  · simp_all
  · assumption

/-- The source of a code that raises an event is not idle afterwards. -/
theorem State.raiseCode_raised (s : State) {code : Nat} (fault : Bool) (a b : W64) (low : code % 256 < 64) (there : srcOf code < 896) :
    ((s.raiseCode code fault a b).source (srcOf code)).state ≠ .idle := by
  rw [State.raiseCode, if_pos low, State.raiseSource, if_pos there, State.source_setSource]
  exact Source.raise_state_ne_idle _ _ _

/-! ### Gear changes that a cap starts -/

/-- A gear change leaves what lies outside the regions and the paceline. -/
theorem State.followGear_keeps {α : Type} (v : State → α) (kept : ∀ (s : State) p r, v { s with pace := p, regions := r } = v s)
    (s : State) : v s.followGear = v s := by
  have start : ∀ g, v (s.startGear g) = v s := by
    intro g
    unfold State.startGear
    split
    · rfl
    dsimp only
    split
    · exact (State.mapRegions_keeps v (fun _ _ _ => kept ..) _ _).trans (kept ..)
    · exact kept ..
  unfold State.followGear
  dsimp only
  split
  · rfl
  · exact start _

@[simp] theorem State.followGear_power (s : State) : s.followGear.power = s.power := s.followGear_keeps State.power fun _ _ _ => rfl
@[simp] theorem State.followGear_host (s : State) : s.followGear.host = s.host := s.followGear_keeps State.host fun _ _ _ => rfl
@[simp] theorem State.followGear_job (s : State) : s.followGear.job = s.job := s.followGear_keeps State.job fun _ _ _ => rfl
@[simp] theorem State.followGear_cores (s : State) : s.followGear.cores = s.cores := s.followGear_keeps State.cores fun _ _ _ => rfl
@[simp] theorem State.followGear_gsc (s : State) : s.followGear.gsc = s.gsc := s.followGear_keeps State.gsc fun _ _ _ => rfl

theorem State.source_of_host {s t : State} (host : t.host = s.host) (n : Nat) : t.source n = s.source n := by
  rw [State.source, host]; rfl

/-! ### The policy cap (R482) -/

/-- The caps and the counters of milliseconds are all that a re-evaluation of the policy writes. -/
theorem State.policyStep_frame (s : State) : ∃ p t w m l, s.policyStep = s.withPower { s.power with
    policyCap := p, thermCap := t, pwrCap := w, coolMs := m, lowPowerMs := l } := by
  unfold State.policyStep
  dsimp only
  split
  · exact ⟨_, _, _, _, _, rfl⟩
  · split <;> exact ⟨_, _, _, _, _, rfl⟩
  · exact ⟨_, _, _, _, _, rfl⟩

theorem State.policyStep_one {s : State} (one : s.power.policy = 1) : s.policyStep.power.policyCap = s.power.cap := by
  simp only [State.policyStep, one]
  rfl

/-- Under policy 0 the cap follows the temperature. -/
theorem State.policyStep_zero {s : State} (zero : s.power.policy = 0) : s.policyStep.power.policyCap =
    (capStep s.power.thermCap s.power.coolMs (100 < s.power.tjMax || s.far.hot) (s.power.tjMax ≤ 95 && !s.far.hot)).1 := by
  simp only [State.policyStep, zero]
  rfl

theorem capStep_above (cap ms : Nat) (below : Bool) : (capStep cap ms true below).1 = cap - 1 := rfl
theorem capStep_between (cap ms : Nat) : (capStep cap ms false false).1 = cap := rfl
theorem capStep_below (cap ms : Nat) : (capStep cap ms false true).1 = if 9 ≤ ms then min 15 (cap + 1) else cap := by
  unfold capStep
  simp only [Bool.false_eq_true, Bool.not_true, if_false]
  split <;> rfl

/-- What the watch on the cap changes: its milliseconds, its arming, and the event. -/
theorem State.policyLimit_frame (s : State) : ∃ n a, s.policyLimit.power = { s.power with limitMs := n, limitArmed := a } ∧
    s.policyLimit.gsc = s.gsc ∧ s.policyLimit.job = s.job ∧ s.policyLimit.cores = s.cores := by
  unfold State.policyLimit
  dsimp only
  split
  · split
    · exact ⟨_, _, State.event_power .., State.event_gsc .., State.event_job .., State.event_cores ..⟩
    · exact ⟨_, _, rfl, rfl, rfl, rfl⟩
  · exact ⟨_, _, rfl, rfl, rfl, rfl⟩

theorem State.policyLimit_raises {s : State} (capped : s.power.policyCap < s.power.requested) (armed : s.power.limitArmed = true)
    (long : 999 ≤ s.power.limitMs) :
    s.policyLimit.power.limitArmed = false ∧ (s.policyLimit.source (srcOf 0x0A06)).state ≠ .idle := by
  have whole : min 1000 (s.power.limitMs + 1) = 1000 := by omega
  have row : s.policyLimit = (s.withPower { s.power with limitMs := 1000, limitArmed := false }).event 0x0A06 := by
    simp only [State.policyLimit, capped, whole, armed]
    rfl
  rw [row]
  exact ⟨congrArg Power.limitArmed (State.event_power ..), State.raiseCode_raised _ _ _ _ (by decide) (by decide)⟩

theorem State.policyLimit_free {s : State} (free : s.power.requested ≤ s.power.policyCap) :
    s.policyLimit.power.limitArmed = true ∧ s.policyLimit.power.limitMs = 0 := by
  rw [State.policyLimit]
  dsimp only
  rw [if_neg (Nat.not_lt.mpr free)]
  exact ⟨rfl, rfl⟩

theorem completes_policyCap (s : State) :
    completes .policyCap s fun t => let p := s.power; let q := t.power
      t.gsc = max s.gsc p.policyDue ∧ q.policyDue = t.gsc + 1000000 ∧ t.job = s.job ∧ t.cores = s.cores ∧
      (p.policy = 1 → q.policyCap = p.cap) ∧
      (p.policy = 0 →
        (100 < p.tjMax ∨ s.far.hot = true → q.policyCap = p.thermCap - 1) ∧
        (95 < p.tjMax → p.tjMax ≤ 100 → s.far.hot = false → q.policyCap = p.thermCap) ∧
        (p.tjMax ≤ 95 → s.far.hot = false → q.policyCap = if 9 ≤ p.coolMs then min 15 (p.thermCap + 1) else p.thermCap)) ∧
      (q.policyCap < p.requested → p.limitArmed = true → 999 ≤ p.limitMs → q.limitArmed = false ∧ (t.source (srcOf 0x0A06)).state ≠ .idle) ∧
      (p.requested ≤ q.policyCap → q.limitArmed = true ∧ q.limitMs = 0) := by
  -- `u` is the state with the due time moved on; it differs from `s` in nothing that the policy asks
  obtain ⟨u, later⟩ : ∃ u, u = (s.advanceTo s.power.policyDue).withPower
    { (s.advanceTo s.power.policyDue).power with policyDue := (s.advanceTo s.power.policyDue).gsc + 1000000 } := ⟨_, rfl⟩
  have row : exec .policyCap s = .next u.policyStep.policyLimit.followGear := by rw [later]; rfl
  have gsc : u.gsc = max s.gsc s.power.policyDue := by rw [later]; exact State.advanceTo_gsc ..
  have far : u.far = s.far := by rw [later]; exact State.advanceTo_far ..
  obtain ⟨res, power⟩ : ∃ r, u.power = { s.power with policyDue := u.gsc + 1000000, residency := r } := by
    rw [later]
    unfold State.advanceTo
    split <;> exact ⟨_, rfl⟩
  obtain ⟨c, th, w, m, l, step⟩ := u.policyStep_frame
  obtain ⟨n, a, limit, gsc2, job2, cores2⟩ := u.policyStep.policyLimit_frame
  have cap : u.policyStep.policyLimit.followGear.power.policyCap = u.policyStep.power.policyCap := by
    rw [State.followGear_power, limit]
  have requested : u.policyStep.power.requested = s.power.requested := by rw [step]; exact (congrArg Power.requested power :)
  refine ⟨_, row, ?_, ?_, ?_, ?_, fun one => ?_, fun zero => ?_, fun capped armed long => ?_, fun free => ?_⟩
  · rw [State.followGear_gsc, gsc2, step]; exact gsc
  · rw [State.followGear_power, limit, State.followGear_gsc, gsc2, step]; exact congrArg Power.policyDue power
  · rw [State.followGear_job, job2, step]; exact later ▸ State.advanceTo_job ..
  · rw [State.followGear_cores, cores2, step]; exact later ▸ State.advanceTo_cores ..
  · rw [cap, State.policyStep_one (by rw [power]; exact one), power]
  · have value := State.policyStep_zero (s := u) (by rw [power]; exact zero)
    rw [cap, value, power, far]
    refine ⟨fun above => ?_, fun warm least cool => ?_, fun cold cool => ?_⟩
    · rw [show (decide (100 < s.power.tjMax) || s.far.hot) = true by simpa using above, capStep_above]
    · rw [cool, show (decide (100 < s.power.tjMax) || false) = false by simpa using least,
        show (decide (s.power.tjMax ≤ 95) && !false) = false by simpa using warm, capStep_between]
    · rw [cool, show (decide (100 < s.power.tjMax) || false) = false by simpa using by omega,
        show (decide (s.power.tjMax ≤ 95) && !false) = true by simpa using cold, capStep_below]
  · rw [cap, ← requested] at capped
    obtain ⟨off, raised⟩ := State.policyLimit_raises capped (by rw [step]; exact (congrArg Power.limitArmed power).trans armed)
      (by rw [step]; exact (congrArg Power.limitMs power).symm ▸ long)
    rw [State.followGear_power, State.source_of_host (State.followGear_host _)]
    exact ⟨off, raised⟩
  · rw [cap, ← requested] at free
    rw [State.followGear_power]
    exact State.policyLimit_free free

/-! ### The brake (R484, R485) -/

/-- A cause while the brake is in force only joins the others. -/
theorem State.applyBrake_again {s : State} (braked : s.power.brake = true) (c : BrakeCause) :
    s.applyBrake c = { s with power := { s.power with
      causes := if s.power.causes.contains c then s.power.causes else s.power.causes ++ [c], calm := 0 } } :=
  if_pos braked

/-- What the brake leaves: all but four fields of the power block, the regions, the paceline and the event sources. -/
theorem State.applyBrake_frame (s : State) (c : BrakeCause) :
    (s.applyBrake c).gsc = s.gsc ∧ (s.applyBrake c).job = s.job ∧ (s.applyBrake c).cores = s.cores ∧
    ∃ b cs n m, (s.applyBrake c).power = { s.power with brake := b, causes := cs, brakes := n, calm := m } := by
  unfold State.applyBrake
  split
  · exact ⟨rfl, rfl, rfl, _, _, _, _, rfl⟩
  · dsimp only
    rw [State.event_gsc, State.event_job, State.event_cores, State.event_power, State.mapRegions_gsc, State.mapRegions_cores,
      State.mapRegions_power, State.mapRegions_keeps State.job (fun _ _ _ => rfl)]
    exact ⟨rfl, rfl, rfl, _, _, _, _, rfl⟩

/-- The causes that a list of causes adds to those in force. -/
def joinCauses (cs l : List BrakeCause) : List BrakeCause := l.foldl (fun cs c => if cs.contains c then cs else cs ++ [c]) cs

theorem joinCauses_of_nodup {l cs : List BrakeCause} (distinct : (cs ++ l).Nodup) : joinCauses cs l = cs ++ l := by
  induction l generalizing cs with
  | nil => simp [joinCauses]
  | cons c l ih =>
    have fresh : c ∉ cs := fun mem => (List.disjoint_of_nodup_append distinct) mem List.mem_cons_self
    have rest := ih (cs := cs ++ [c]) (by simpa using distinct)
    simpa [joinCauses, fresh] using rest

/-- Further causes while the brake is in force. -/
theorem State.applyBrakes_again (l : List BrakeCause) {s : State} (braked : s.power.brake = true) :
    ∃ m, l.foldl (fun s c => s.applyBrake c) s = { s with power := { s.power with causes := joinCauses s.power.causes l, calm := m } } := by
  induction l generalizing s with
  | nil => exact ⟨_, rfl⟩
  | cons c l ih =>
    rw [List.foldl_cons, State.applyBrake_again braked]
    obtain ⟨m, eq⟩ := ih (s := { s with power := { s.power with
      causes := if s.power.causes.contains c then s.power.causes else s.power.causes ++ [c], calm := 0 } }) braked
    exact ⟨m, eq⟩

theorem State.applyBrakes_frame (l : List BrakeCause) (s : State) :
    (l.foldl (fun s c => s.applyBrake c) s).gsc = s.gsc ∧ (l.foldl (fun s c => s.applyBrake c) s).job = s.job ∧
    (l.foldl (fun s c => s.applyBrake c) s).cores = s.cores ∧
    ∃ b cs n m, (l.foldl (fun s c => s.applyBrake c) s).power = { s.power with brake := b, causes := cs, brakes := n, calm := m } := by
  induction l generalizing s with
  | nil => exact ⟨rfl, rfl, rfl, _, _, _, _, rfl⟩
  | cons c l ih =>
    obtain ⟨gsc, job, cores, b, cs, n, m, power⟩ := s.applyBrake_frame c
    obtain ⟨gsc', job', cores', b', cs', n', m', power'⟩ := ih (s.applyBrake c)
    exact ⟨gsc'.trans gsc, job'.trans job, cores'.trans cores, b', cs', n', m', power'.trans (by rw [power])⟩

/-- The brake is in force after one cause or more. -/
theorem State.applyBrakes_brake {l : List BrakeCause} (nonempty : l ≠ []) (s : State) :
    (l.foldl (fun s c => s.applyBrake c) s).power.brake = true := by
  cases l with
  | nil => exact absurd rfl nonempty
  | cons c l =>
    have braked : (s.applyBrake c).power.brake = true := by
      cases held : s.power.brake with
      | true => rw [State.applyBrake_again held]; exact held
      | false => exact (State.applyBrake_first held c).1
    obtain ⟨m, eq⟩ := State.applyBrakes_again l braked
    rw [List.foldl_cons, eq]
    exact braked

theorem State.applyBrake_brakes {s : State} (released : s.power.brake = false) (c : BrakeCause) :
    (s.applyBrake c).power.brakes = satAdd 16 s.power.brakes 1 := by
  rw [State.applyBrake, if_neg (by simp [released])]
  dsimp only
  rw [State.event_power, State.mapRegions_power]

/-- The brake from rest, with all causes of one sample. -/
theorem State.applyBrakes_first {l : List BrakeCause} (nonempty : l ≠ []) (distinct : l.Nodup) {s : State}
    (released : s.power.brake = false) :
    let t := l.foldl (fun s c => s.applyBrake c) s
    t.power.causes = l ∧ t.power.brakes = satAdd 16 s.power.brakes 1 ∧ t.pace.gearNow = 0 ∧ ∀ k, k < 80 → (t.region k).gear = 0 := by
  cases l with
  | nil => exact absurd rfl nonempty
  | cons c l =>
    obtain ⟨braked, causes, pace, -, regions⟩ := State.applyBrake_first released c
    have brakes := State.applyBrake_brakes released c
    obtain ⟨m, eq⟩ := State.applyBrakes_again l braked
    dsimp only
    rw [List.foldl_cons, eq]
    refine ⟨?_, brakes, by rw [pace], fun k there => (congrArg Region.gear (regions k there) :)⟩
    change joinCauses _ l = c :: l
    rw [causes]
    exact joinCauses_of_nodup (cs := [c]) distinct

/-! ### The sensors (R483 to R486) -/

theorem Sensors.causes_nodup (r : Sensors) : r.causes.Nodup := by
  unfold Sensors.causes
  split <;> split <;> split <;> decide

/-- A reading beyond a limit of R484. -/
def Sensors.hot (r : Sensors) : Prop := 110 ≤ (hottest r.junction).1 ∨ 2400 < r.pin ∨ 2100 < r.pinAvg ∨ r.vin < 4000

theorem Sensors.causes_eq_nil (r : Sensors) : r.causes = [] ↔ ¬ r.hot := by
  simp [Sensors.causes, Sensors.hot, and_assoc]

/-- The state in which a sample has been taken, before the brake is weighed. -/
def State.sampled (s : State) (r : Sensors) : State :=
  let u := s.advanceTo s.power.sampleDue
  let h := hottest r.junction
  let t := u.withPower { u.power with
    sampleDue := u.gsc + 100000, tjMax := min 255 h.1, sensor := h.2, coolantIn := min 255 r.coolant, vin := min 65535 r.vin
    pinW := min 65535 r.pinAvg, calm := if r.calm then u.power.calm + 1 else 0
    coldSince := if h.1 < 90 then some (u.power.coldSince.getD u.gsc) else none }
  let t := if 40 < r.coolant && u.power.coolantIn ≤ 40 then t.event 0x0A05 else t
  if r.vin < 4000 && 4000 ≤ u.power.vin then t.event 0x0A07 else t

theorem State.advanceTo_power (s : State) (n : Nat) : ∃ r, (s.advanceTo n).power = { s.power with residency := r } := by
  unfold State.advanceTo
  split <;> exact ⟨_, rfl⟩

theorem State.sampled_frame (s : State) (r : Sensors) :
    (s.sampled r).gsc = max s.gsc s.power.sampleDue ∧ (s.sampled r).job = s.job ∧ (s.sampled r).cores = s.cores ∧
    ∃ res sensor cold, (s.sampled r).power = { s.power with
      sampleDue := (s.sampled r).gsc + 100000, tjMax := min 255 (hottest r.junction).1, sensor := sensor
      coolantIn := min 255 r.coolant, vin := min 65535 r.vin
      pinW := min 65535 r.pinAvg, calm := if r.calm then s.power.calm + 1 else 0, coldSince := cold, residency := res } := by
  obtain ⟨res, power⟩ := s.advanceTo_power s.power.sampleDue
  have event : ∀ (b : Bool) (t : State) (code : Nat), (if b then t.event code else t).gsc = t.gsc ∧
      (if b then t.event code else t).job = t.job ∧ (if b then t.event code else t).cores = t.cores ∧
      (if b then t.event code else t).power = t.power := by
    intro b t code
    cases b <;> simp
  unfold State.sampled
  dsimp only
  rw [(event _ _ 0x0A07).1, (event _ _ 0x0A07).2.1, (event _ _ 0x0A07).2.2.1, (event _ _ 0x0A07).2.2.2, (event _ _ 0x0A05).1,
    (event _ _ 0x0A05).2.1, (event _ _ 0x0A05).2.2.1, (event _ _ 0x0A05).2.2.2]
  rw [power]
  exact ⟨State.advanceTo_gsc .., State.advanceTo_job .., State.advanceTo_cores .., _, _, _, rfl⟩

/-- What a sample does about a junction of 120 °C and more (R486). -/
def State.heatLimit (s : State) (h : Nat) (off : Bool) : State :=
  if 120 ≤ h && !off then (s.withPower { s.power with thermalOff := true }).moduleFatal 0x0A03 else s

theorem State.moduleFatal_power_frame (s : State) (code : Nat) (a : W64) :
    ∃ due, (s.moduleFatal code a).power = { s.power with resetDue := due } ∧
      due = match s.power.resetDue with
        | some r => some r
        | none => some (.moduleFatal (BitVec.ofNat 16 code)) := by
  refine ⟨_, ?_, rfl⟩
  unfold State.moduleFatal
  dsimp only
  generalize raised : (s.raiseCode code true a 0).power = p
  obtain rfl : p = s.power := raised.symm.trans (State.raiseCode_power ..)
  rfl

theorem State.heatLimit_frame (s : State) (h : Nat) (off : Bool) :
    (s.heatLimit h off).gsc = s.gsc ∧ (s.heatLimit h off).job = s.job ∧ (s.heatLimit h off).cores = s.cores ∧
    (s.heatLimit h off).pace = s.pace ∧ (s.heatLimit h off).regions = s.regions ∧
    ∃ x y, (s.heatLimit h off).power = { s.power with thermalOff := x, resetDue := y } := by
  unfold State.heatLimit
  split
  · obtain ⟨due, eq, -⟩ := (s.withPower { s.power with thermalOff := true }).moduleFatal_power_frame 0x0A03 0
    exact ⟨State.moduleFatal_gsc .., State.moduleFatal_job .., State.moduleFatal_cores .., State.moduleFatal_pace ..,
      State.moduleFatal_regions .., _, _, eq⟩
  · exact ⟨rfl, rfl, rfl, rfl, rfl, _, _, rfl⟩

theorem completes_sensorSample (s : State) (r : Sensors) :
    completes (.sensorSample r) s fun t => let p := s.power; let q := t.power
      let h := (hottest r.junction).1
      let hot := 110 ≤ h ∨ 2400 < r.pin ∨ 2100 < r.pinAvg ∨ r.vin < 4000
      t.gsc = max s.gsc p.sampleDue ∧ q.sampleDue = t.gsc + 100000 ∧ q.tjMax = min 255 h ∧ q.coolantIn = min 255 r.coolant ∧
      q.vin = min 65535 r.vin ∧ q.pinW = min 65535 r.pinAvg ∧ t.job = s.job ∧ t.cores = s.cores ∧
      (¬ hot → q.brake = p.brake ∧ q.causes = p.causes ∧
        q.calm = (if h < 105 ∧ r.pinAvg < 1900 ∧ 4100 ≤ r.vin then p.calm + 1 else 0)) ∧
      (hot → q.brake = true ∧ (p.brake = false → q.causes = r.causes ∧ q.brakes = min (p.brakes + 1) (2 ^ 16 - 1) ∧
        t.pace.gearNow = 0 ∧ ∀ k, k < 80 → (t.region k).gear = 0)) ∧
      (120 ≤ h → p.thermalOff = false → p.resetDue = none → q.resetDue = some (.moduleFatal 0x0A03#16) ∧ q.thermalOff = true) ∧
      (h < 120 → q.resetDue = p.resetDue) := by
  obtain ⟨gsc, job, cores, res, sensor, cold, power⟩ := s.sampled_frame r
  obtain ⟨w, weighed⟩ : ∃ w, w = r.causes.foldl (fun s c => s.applyBrake c) (s.sampled r) := ⟨_, rfl⟩
  obtain ⟨gscW, jobW, coresW, b, cs, n, m, powerW⟩ := State.applyBrakes_frame r.causes (s.sampled r)
  rw [← weighed] at gscW jobW coresW powerW
  obtain ⟨gscT, jobT, coresT, paceT, regionsT, x, y, powerT⟩ := w.heatLimit_frame (hottest r.junction).1 s.power.thermalOff
  obtain ⟨pOff, off⟩ := s.advanceTo_power s.power.sampleDue
  have row : exec (.sensorSample r) s = .next (w.heatLimit (hottest r.junction).1 s.power.thermalOff) := by
    rw [weighed, ← show (s.advanceTo s.power.sampleDue).power.thermalOff = s.power.thermalOff from by rw [off]]
    rfl
  have released : (s.sampled r).power.brake = s.power.brake := by rw [power]
  refine ⟨_, row, by rw [gscT, gscW, gsc], by rw [powerT, powerW, power, gscT, gscW], by rw [powerT, powerW, power],
    by rw [powerT, powerW, power], by rw [powerT, powerW, power], by rw [powerT, powerW, power], by rw [jobT, jobW, job],
    by rw [coresT, coresW, cores], fun cool => ?_, fun hot => ⟨?_, fun free => ?_⟩, fun melting on none => ?_, fun safe => ?_⟩
  · have calm : w = s.sampled r := by rw [weighed, (r.causes_eq_nil).mpr cool]; rfl
    rw [powerT, calm, power]
    refine ⟨rfl, rfl, ?_⟩
    simp [Sensors.calm, and_assoc]
  · rw [powerT, weighed]
    exact State.applyBrakes_brake (mt r.causes_eq_nil.mp (not_not.mpr hot)) _
  · obtain ⟨causes, brakes, gear, gears⟩ :=
      State.applyBrakes_first (mt r.causes_eq_nil.mp (not_not.mpr hot)) r.causes_nodup (released.trans free)
    rw [← weighed] at causes brakes gear gears
    refine ⟨by rw [powerT]; exact causes, ?_, by rw [paceT]; exact gear, fun k there => ?_⟩
    · rw [powerT]
      exact brakes.trans (by rw [power]; rfl)
    · rw [State.region_eq _ _ regionsT]
      exact gears k there
  · have due : w.power.resetDue = Option.none := by rw [powerW, power]; exact none
    rw [State.heatLimit, if_pos (by simp [melting, on])]
    obtain ⟨d, eq, fault⟩ := (w.withPower { w.power with thermalOff := true }).moduleFatal_power_frame 0x0A03 0
    rw [eq]
    exact ⟨fault.trans (by simp [State.withPower, due]), rfl⟩
  · rw [State.heatLimit, if_neg (by simp [Nat.not_le.mpr safe]), powerW, power]

theorem completes_brakeOff {s : State} (braked : s.power.brake = true) (long : 100 ≤ s.power.calm) :
    completes .brakeOff s fun t => t.power.brake = false ∧ t.power.causes = [] ∧
      t.power.policyCap = (if s.power.policy = 1 then s.power.cap else 8) ∧ (t.source (srcOf 0x0A02)).state ≠ .idle ∧ t.job = s.job ∧
      t.gsc = s.gsc := by
  refine ⟨_, if_neg (by simp [braked, Nat.not_lt.mpr long]), ?_⟩
  dsimp only
  rw [State.followGear_power, State.followGear_job, State.followGear_gsc, State.source_of_host (State.followGear_host _),
    State.event_power, State.event_job, State.event_gsc]
  refine ⟨?_, ?_, ?_, State.raiseCode_raised _ _ _ _ (by decide) (by decide), ?_, ?_⟩
  all_goals split <;> rfl

/-- Settles O47: the cap by the rule in force, a sample by what the brake and the heat limit make of its readings. -/
theorem policyAndSensors : Obligations.PolicyAndSensors := by
  intro s p
  refine ⟨completes_policyCap s, completes_sensorSample s, fun waits => ?_, completes_brakeOff, ?_⟩
  · exact if_pos (by simpa using waits)
  · obtain ⟨due, power, eq⟩ := s.moduleFatal_power_frame 0x0A04 0
    refine ⟨_, rfl, fun none => ?_, fun some_ => ?_, State.moduleFatal_job .., State.moduleFatal_cores .., ?_⟩
    · rw [power]
      exact eq.trans (by rw [none])
    · rw [power]
      obtain ⟨r, first⟩ := Option.isSome_iff_exists.mp some_
      exact eq.trans (by rw [first])
    · exact State.raiseCode_raised _ _ _ _ (by decide) (by decide)

end Sys2Proof.Machine

/-! PROOF. The event controller and the event log (R432 to R441, R490). -/
namespace Sys2Proof.Machine

/-! ### Sources -/

/-- A source that is written is the only one, and the rest of the controller and of the module stays. -/
theorem State.setSource_only (s : State) (n : Nat) (x : Source) : (s.setSource n x).source n = x ∧
    (∀ k, k ≠ n → (s.setSource n x).source k = s.source k) ∧
    ({ s.setSource n x with host := { (s.setSource n x).host with evc := s.host.evc } } : State) = s ∧
    (s.setSource n x).host.evc.stack = s.host.evc.stack :=
  ⟨s.source_setSource n x, fun _ other => s.source_setSource_other x other, rfl, rfl⟩

theorem evcDoorbell_reserved (s : State) {m : Nat} (reserved : 896 ≤ m) (low : m < 1024) : exec (.evcDoorbell m) s = .next s := by
  have : ¬ m % 1024 < 896 := by omega
  simp [exec, execEvcDoorbell, State.raiseSource, this]

theorem evcDoorbell_raises (s : State) {n : Nat} (there : n < 896) : exec (.evcDoorbell n) s = .next (s.setSource n
    ((s.source n).raise { fault := false, gsc := s.gsc, arg0 := 0, arg1 := 0 } s.host.evc.idleWait)) := by
  have : n % 1024 = n := by omega
  simp [exec, execEvcDoorbell, State.raiseSource, this, there]

theorem satAdd_sixteen (a : Nat) : satAdd 16 a 1 = min (a + 1) 65535 := rfl

/-- A raise of an idle source leaves it pending, or eligible once its raises suffice (R434). -/
theorem Source.raise_idle {x : Source} (idle : x.state = .idle) (i : RaiseInfo) (wait : Bool) : x.raise i wait = { x with
    raises := min (x.raises + 1) 65535, info := i, since := i.gsc
    state := if max 1 x.modCount ≤ min (x.raises + 1) 65535 ∨ wait = true then .eligible else .pending } := by
  simp only [Source.raise, idle, satAdd_sixteen, Source.settle, decide_true, Bool.true_and, Bool.or_eq_true, decide_eq_true_eq]
  split <;> rfl

/-- A raise of a source in service marks it AGAIN (R434). -/
theorem Source.raise_inService {x : Source} (serving : x.state = .inService) (i : RaiseInfo) (wait : Bool) : x.raise i wait = { x with
    raises := min (x.raises + 1) 65535, info := i, again := true } := by
  simp [Source.raise, serving, satAdd_sixteen, Source.settle]

theorem Source.settle_pending {x : Source} (pending : x.state = .pending) (gsc : Nat) (wait : Bool) :
    (x.settle gsc wait).state = .pending ∨ (x.settle gsc wait).state = .eligible := by
  unfold Source.settle
  split
  · exact .inr rfl
  · exact .inl pending

theorem Source.settle_again (x : Source) (gsc : Nat) (wait : Bool) : (x.settle gsc wait).again = x.again := by
  unfold Source.settle
  split <;> rfl

/-! ### Claims -/

theorem evcClaim_none {s : State} (none : s.presented = none) :
    exec .evcClaim s = .next (s.withEvc { s.host.evc with lastClaim := .none }) := by
  simp [exec, execEvcClaim, none]

/-- A claim takes the presented source into service and puts it on the stack (R436). -/
theorem completes_evcClaim {s : State} {n l : Nat} (shown : s.presented = some (n, l)) (not : n ≠ srcOrder) :
    completes .evcClaim s fun t => (t.source n).state = .inService ∧ (t.source n).raises = 0 ∧
      (t.source n).claimed = (s.source n).raises ∧ t.host.evc.stack = (n, l) :: s.host.evc.stack ∧
      (t.host.evc.lastClaim.map fun y => (y.1, y.2.1)) = some (n, l) ∧ (∀ k, k ≠ n → t.source k = s.source k) ∧
      ({ t with host := { t.host with evc := s.host.evc } } : State) = s := by
  let x := s.source n
  let u := s.setSource n { x with state := .inService, promoted := x.aged s.gsc, raises := 0, claimed := x.raises, claimedInfo := x.info }
  have row : exec .evcClaim s =
      .next (u.withEvc { u.host.evc with stack := (n, l) :: s.host.evc.stack, lastClaim := some (n, l, x.aged s.gsc) }) := by
    simp [exec, execEvcClaim, shown, not, u, x]
    rfl
  obtain ⟨written, others, -, -⟩ := s.setSource_only n
    { x with state := .inService, promoted := x.aged s.gsc, raises := 0, claimed := x.raises, claimedInfo := x.info }
  refine ⟨_, row, ?_, ?_, ?_, rfl, rfl, others, rfl⟩ <;> exact congrArg _ written

/-! ### The event log (R438 to R440) -/

theorem Evc.evlUsed_start {e : Evc} (head : e.evlHead = 0) (tail : e.evlTail = 0) : e.evlUsed = 0 := by
  simp [Evc.evlUsed, head, tail]

theorem ringSize_pos (log2 d : Nat) : 0 < ringSize log2 d := by
  unfold ringSize
  split <;> exact Nat.two_pow_pos _

/-- EVENT frames touch the management ports only. -/
theorem State.eventFrames_keeps {α : Type} (v : State → α)
    (kept : ∀ (s : State) mgmt, v { s with host := { s.host with mgmt := mgmt } } = v s) (s : State) (b : Bytes) :
    v (s.eventFrames b) = v s := by
  unfold State.eventFrames
  refine foldl_keeps v _ (fun s p => ?_) _ _
  split
  · exact kept s _
  · rfl

/-- What an entry of the event log may change: host memory, the vector's entry, the frames sent, and the log's own fields. -/
theorem State.logEvent_keeps {α : Type} (v : State → α)
    (kept : ∀ (s : State) mem msix mgmt tail lost, v { s with host := { s.host with
      hostMem := mem, msix := msix, mgmt := mgmt, evc := { s.host.evc with evlTail := tail, evlLost := lost } } } = v s)
    (s : State) (b : Bytes) : v (s.logEvent b) = v s := by
  have frames : ∀ (s : State), v (s.eventFrames b) = v s := fun s => State.eventFrames_keeps v
    (fun s mgmt => kept s s.host.hostMem s.host.msix mgmt s.host.evc.evlTail s.host.evc.evlLost) s b
  have vector : ∀ (s : State) n, v (s.sendVector n) = v s := fun s n => by
    unfold State.sendVector
    dsimp only
    split <;> exact kept s _ _ s.host.mgmt s.host.evc.evlTail s.host.evc.evlLost
  unfold State.logEvent
  dsimp only
  split
  · rfl
  split
  · exact kept s s.host.hostMem s.host.msix s.host.mgmt s.host.evc.evlTail _
  · exact (frames _).trans ((vector _ _).trans (kept s _ s.host.msix s.host.mgmt _ s.host.evc.evlLost))

/-- An entry of an enabled log that has room: at the tail, the vector's message held back by its mask. -/
theorem State.logEvent_room {s : State} (b : Bytes) (enabled : s.host.evc.evlEnable = true)
    (room : s.host.evc.evlUsed < ringSize s.host.evc.evlLog2 8) :
    (s.logEvent b).host.evc.evlTail = (s.host.evc.evlTail + 1) % 2 ^ 32 ∧
    (s.logEvent b).host.evc.evlLost = s.host.evc.evlLost ∧ ((s.host.msix.find .init s.host.evc.evlVector).masked = true → (s.logEvent b).host.hostMem = s.host.hostMem.write
      (s.host.evc.evlBase.toNat + 32 * (s.host.evc.evlTail % ringSize s.host.evc.evlLog2 8)) b) := by
  let e := s.host.evc
  let u := (s.dmaWrite (e.evlBase.toNat + 32 * (e.evlTail % ringSize e.evlLog2 8)) b).withEvc
    { e with evlTail := (e.evlTail + 1) % 2 ^ 32 }
  have log : s.logEvent b = (u.sendVector e.evlVector).eventFrames b := by
    have : ¬ ringSize s.host.evc.evlLog2 8 ≤ s.host.evc.evlUsed := by omega
    simp only [State.logEvent, enabled, Bool.not_true, Bool.false_eq_true, if_false, this]
    simp only [u, e, enabled]
  rw [log]
  have evc := (State.eventFrames_keeps (fun s => s.host.evc) (fun _ _ => rfl) (u.sendVector e.evlVector) b).trans
    (congrArg HostBlk.evc (u.sendVector_host e.evlVector).1 :)
  have mem := State.eventFrames_keeps (fun s => s.host.hostMem) (fun _ _ => rfl) (u.sendVector e.evlVector) b
  exact ⟨congrArg Evc.evlTail evc, (congrArg Evc.evlLost evc :), fun masked => mem.trans (State.sendVector_masked (s := u) masked).1⟩

theorem State.logEvent_full {s : State} (b : Bytes) (enabled : s.host.evc.evlEnable = true)
    (full : ringSize s.host.evc.evlLog2 8 ≤ s.host.evc.evlUsed) :
    s.logEvent b = s.withEvc { s.host.evc with evlLost := min (s.host.evc.evlLost + 1) 65535 } := by
  simp only [State.logEvent, enabled, full]
  rfl

/-! ### Completions -/

/-- Source `x` after its completion (R436). -/
def Source.done (x : Source) (gsc : Nat) (wait : Bool) : Source :=
  if x.again then { x with promoted := false, again := false, state := .pending, since := gsc }.settle gsc wait
  else { x with promoted := false, again := false, state := .idle }

theorem Source.done_again (x : Source) (gsc : Nat) (wait : Bool) : (x.done gsc wait).again = false := by
  unfold Source.done
  split
  · exact Source.settle_again ..
  · rfl

/-- A completion of the top of the stack. -/
theorem evcDone_top {s : State} {n l : Nat} {rest : List (Nat × Nat)} (top : s.host.evc.stack = (n, l) :: rest) :
    ∃ u : State, u = (s.withEvc { s.host.evc with stack := rest }).setSource n ((s.source n).done s.gsc s.host.evc.idleWait) ∧
      exec (.evcDone n) s = .next (if 64 ≤ n then u.logEvent (logEntry (codeOf n) (s.source n).claimedInfo.fault (s.source n).claimed
        (s.source n).claimedInfo.gsc (s.source n).claimedInfo.arg0 (s.source n).claimedInfo.arg1) else u) := by
  refine ⟨_, rfl, ?_⟩
  simp only [exec, execEvcDone, top, if_true]
  rfl

theorem completes_evcDone_top {s : State} {n l : Nat} {rest : List (Nat × Nat)} (top : s.host.evc.stack = (n, l) :: rest) :
    let x := s.source n
    let e := s.host.evc
    completes (.evcDone n) s fun t => t.host.evc.stack = rest ∧ t.host.evc.order = e.order ∧
      (x.again = false → (t.source n).state = .idle) ∧
      (x.again = true → (t.source n).state = .pending ∨ (t.source n).state = .eligible) ∧ (t.source n).again = false ∧
      (∀ k, k ≠ n → t.source k = s.source k) ∧ t.job = s.job ∧ t.cores = s.cores ∧
      (n < 64 → t.host.hostMem = s.host.hostMem ∧ t.host.evc.evlTail = e.evlTail) ∧
      (64 ≤ n → e.evlEnable = true → e.evlUsed < ringSize e.evlLog2 8 → (s.host.msix.find .init e.evlVector).masked = true →
        t.host.evc.evlTail = (e.evlTail + 1) % 2 ^ 32 ∧ t.host.hostMem = s.host.hostMem.write
          (e.evlBase.toNat + 32 * (e.evlTail % ringSize e.evlLog2 8))
          (logEntry (codeOf n) x.claimedInfo.fault x.claimed x.claimedInfo.gsc x.claimedInfo.arg0 x.claimedInfo.arg1)) ∧
      (64 ≤ n → e.evlEnable = true → ringSize e.evlLog2 8 ≤ e.evlUsed → t.host.evc.evlLost = min (e.evlLost + 1) 65535 ∧
        t.host.hostMem = s.host.hostMem) := by
  intro x e
  obtain ⟨u, put, row⟩ := evcDone_top top
  have source : u.source n = x.done s.gsc e.idleWait := put ▸ State.source_setSource ..
  have others : ∀ k, k ≠ n → u.source k = s.source k := fun k other => put ▸ State.source_setSource_other _ _ other
  have evc : ({ u.host.evc with sources := e.sources, stack := e.stack } : Evc) = e := put ▸ rfl
  have used : u.host.evc.evlUsed = e.evlUsed := put ▸ rfl
  generalize note : logEntry (codeOf n) x.claimedInfo.fault x.claimed x.claimedInfo.gsc x.claimedInfo.arg0 x.claimedInfo.arg1 = b at row
  have kept : ∀ {α : Type} (v : State → α), (∀ (s : State) mem msix mgmt tail lost, v { s with host := { s.host with
      hostMem := mem, msix := msix, mgmt := mgmt, evc := { s.host.evc with evlTail := tail, evlLost := lost } } } = v s) →
      v (if 64 ≤ n then u.logEvent b else u) = v u := fun v keeps => by
    split
    · exact State.logEvent_keeps v keeps u b
    · rfl
  have sources := kept State.source fun _ _ _ _ _ _ => rfl
  refine ⟨_, row, (kept (fun s => s.host.evc.stack) fun _ _ _ _ _ _ => rfl).trans (put ▸ rfl),
    (kept (fun s => s.host.evc.order) fun _ _ _ _ _ _ => rfl).trans (put ▸ rfl), fun once => ?_, fun again => ?_, ?_, fun k other => ?_,
    (kept State.job fun _ _ _ _ _ _ => rfl).trans (put ▸ rfl), (kept State.cores fun _ _ _ _ _ _ => rfl).trans (put ▸ rfl),
    fun low => ?_, fun high on room masked => ?_, fun high on full => ?_⟩
  · simp [sources, source, Source.done, once]
  · rw [sources, source, Source.done, if_pos again]
    exact Source.settle_pending rfl _ _
  · rw [sources, source, Source.done_again]
  · rw [sources, others k other]
  · rw [if_neg (by omega)]
    exact put ▸ ⟨rfl, rfl⟩
  · rw [if_pos high]
    obtain ⟨tail, -, mem⟩ := State.logEvent_room (s := u) b (put ▸ on) (by rw [used]; exact put ▸ room)
    refine ⟨tail.trans (put ▸ rfl), (mem (put ▸ masked)).trans ?_⟩
    rw [show u.host.hostMem = s.host.hostMem from put ▸ rfl]
    exact put ▸ rfl
  · rw [if_pos high, State.logEvent_full b (put ▸ on) (by rw [used]; exact put ▸ full)]
    exact put ▸ ⟨rfl, rfl⟩

/-- A completion out of order keeps the stack for firmware and raises EVC_ORDER (R436). -/
theorem completes_evcDone_order {s : State} {n : Nat} (order : s.host.evc.stack.head?.map (fun y => y.1) ≠ some n) :
    completes (.evcDone n) s fun t => t.host.evc.order = true ∧ t.host.evc.stack = s.host.evc.stack ∧
      t.host.evc.stackLog = s.host.evc.stack ∧ (t.source srcOrder).state ≠ .idle ∧ ∀ k, k ≠ srcOrder → t.source k = s.source k := by
  have row : exec (.evcDone n) s =
      .next ((s.withEvc { s.host.evc with stackLog := s.host.evc.stack, order := true }).event 0x0B01) := by
    simp only [exec, execEvcDone]
    split
    next t rest top =>
      exact if_neg fun same => order (by simp [top, same])
    next none => rw [none]
  have raised : ∀ u : State, u.event 0x0B01 = u.setSource srcOrder
      ((u.source srcOrder).raise { fault := false, gsc := u.gsc, arg0 := 0, arg1 := 0 } u.host.evc.idleWait) := fun u => by
    simp [State.event, State.raiseCode, State.raiseSource, srcOf, srcOrder]
  rw [raised] at row
  refine ⟨_, row, rfl, rfl, rfl, ?_, fun k other => State.source_setSource_other _ _ other⟩
  rw [State.source_setSource]
  exact Source.raise_state_ne_idle _ _ _

/-! ### Timers of a source, and EVL_CFG -/

theorem bit_toNat {w : Nat} (v : BitVec w) (i : Nat) : bit v.toNat i = v.getLsbD i :=
  (Nat.testBit_eq_decide_div_mod_eq).symm

theorem completes_evcModTime {s : State} {n : Nat} (pending : (s.source n).state = .pending) (timed : (s.source n).modTimeUs ≠ 0) :
    completes (.evcModTime n) s fun t => (t.source n).state = .eligible ∧
      t.gsc = max s.gsc ((s.source n).since + 1000 * (s.source n).modTimeUs) ∧ ∀ k, k ≠ n → t.source k = s.source k := by
  refine ⟨_, if_neg (by simp [pending, timed]), ?_, State.advanceTo_gsc .., fun k other => ?_⟩
  · rw [State.source_setSource]
  · exact (State.source_setSource_other _ _ other).trans (State.source_of_host (State.advanceTo_host ..) k)

theorem completes_evcAgePromotion {s : State} {n : Nat} (eligible : (s.source n).state = .eligible) (aging : (s.source n).ageUs ≠ 0) :
    completes (.evcAgePromotion n) s fun t => (t.source n).promoted = true ∧ (t.source n).effLevel n t.gsc = 15 ∧
      t.gsc = max s.gsc ((s.source n).since + 1000 * (s.source n).ageUs + 1) ∧ ∀ k, k ≠ n → t.source k = s.source k := by
  refine ⟨_, if_neg (by simp [eligible, aging]), ?_, ?_, State.advanceTo_gsc .., fun k other => ?_⟩
  · rw [State.source_setSource]
  · rw [State.source_setSource]
    simp [Source.effLevel, Source.aged]
  · exact (State.source_setSource_other _ _ other).trans (State.source_of_host (State.advanceTo_host ..) k)

/-- EVL_CFG of a module that answers (R441): the fault of the latest reset is the first entry of a log that is enabled. -/
theorem completes_evlCfg {s : State} (v : W32) (hears : s.deaf = false) :
    let e := s.host.evc
    completes (.evlCfg v) s fun t => t.host.evc.evlEnable = v.getLsbD 5 ∧ t.host.evc.evlLog2 = v.toNat % 32 ∧
      t.host.evc.evlVector = v.toNat / 64 % 128 ∧ t.job = s.job ∧
      (v.getLsbD 5 = true → e.evlEnable = false → t.host.evc.resetLog = none ∧ t.host.evc.evlHead = 0 ∧ t.host.evc.evlLost = 0 ∧
        t.host.evc.evlTail = (if e.resetLog.isSome then 1 else 0)) ∧
      (v.getLsbD 5 = false ∨ e.evlEnable = true → t.host.evc.evlTail = e.evlTail ∧ t.host.evc.resetLog = e.resetLog) := by
  intro e
  let e' := { e with evlLog2 := bits v.toNat 4 0, evlVector := bits v.toNat 12 6, evlEnable := bit v.toNat 5 }
  have bit5 : bit v.toNat 5 = v.getLsbD 5 := bit_toNat v 5
  have log2 : bits v.toNat 4 0 = v.toNat % 32 := by simp [bits]
  have vector : bits v.toNat 12 6 = v.toNat / 64 % 128 := by simp [bits]
  by_cases opens : v.getLsbD 5 = true ∧ e.evlEnable = false
  case neg =>
    refine ⟨s.withEvc e', ?_, bit5, log2, vector, rfl, fun on off => absurd ⟨on, off⟩ opens, fun _ => ⟨rfl, rfl⟩⟩
    have : ¬ (bit v.toNat 5 && !s.host.evc.evlEnable) = true := by
      rw [bit5, Bool.and_eq_true, Bool.not_eq_true']
      exact opens
    simp only [exec, execEvlCfg, State.heard, hears, this]
    rfl
  case pos =>
    obtain ⟨on, off⟩ := opens
    obtain ⟨u, fresh⟩ : ∃ u, u = s.withEvc { e' with evlHead := 0, evlTail := 0, evlLost := 0, resetLog := none } := ⟨_, rfl⟩
    have row : exec (.evlCfg v) s = .next (match e.resetLog with
        | some (code, gsc) => u.logEvent (logEntry code true 1 gsc 0 0)
        | none => u) := by
      have : (bit v.toNat 5 && !s.host.evc.evlEnable) = true := by simp [bit5, on, show s.host.evc.evlEnable = false from off]
      refine Eq.trans (if_neg (by simp [hears])) (Eq.trans (if_pos this) ?_)
      exact fresh ▸ rfl
    have enabled : u.host.evc.evlEnable = true := by rw [fresh]; exact bit5.trans on
    have shut : ¬ (v.getLsbD 5 = false ∨ e.evlEnable = true) := by rw [on, off]; exact nofun
    refine ⟨_, row, ?_⟩
    cases first : e.resetLog with
    | none =>
      subst fresh
      exact ⟨bit5, log2, vector, rfl, fun _ _ => ⟨rfl, rfl, rfl, rfl⟩, fun kept => absurd kept shut⟩
    | some fault =>
      obtain ⟨code, gsc⟩ := fault
      obtain ⟨b, entry⟩ : ∃ b, b = logEntry code true 1 gsc 0 0 := ⟨_, rfl⟩
      have keeps := fun {α : Type} (f : State → α) kept => State.logEvent_keeps f kept u b
      have room : u.host.evc.evlUsed < ringSize u.host.evc.evlLog2 8 := by
        have empty : u.host.evc.evlUsed = 0 := fresh ▸ Evc.evlUsed_start rfl rfl
        rw [empty]
        exact ringSize_pos _ _
      dsimp only
      rw [← entry]
      refine ⟨?_, ?_, ?_, ?_, fun _ _ => ⟨?_, ?_, ?_, (State.logEvent_room b enabled room).1.trans (fresh ▸ rfl)⟩, fun kept => absurd kept shut⟩
      · exact (keeps (fun s => s.host.evc.evlEnable) fun _ _ _ _ _ _ => rfl).trans (fresh ▸ bit5)
      · exact (keeps (fun s => s.host.evc.evlLog2) fun _ _ _ _ _ _ => rfl).trans (fresh ▸ log2)
      · exact (keeps (fun s => s.host.evc.evlVector) fun _ _ _ _ _ _ => rfl).trans (fresh ▸ vector)
      · exact (keeps State.job fun _ _ _ _ _ _ => rfl).trans (fresh ▸ rfl)
      · exact (keeps (fun s => s.host.evc.resetLog) fun _ _ _ _ _ _ => rfl).trans (fresh ▸ rfl)
      · exact (keeps (fun s => s.host.evc.evlHead) fun _ _ _ _ _ _ => rfl).trans (fresh ▸ rfl)
      · exact (State.logEvent_room b enabled room).2.1.trans (fresh ▸ rfl)

/-- Settles O41: a raise, a claim or a completion writes its own source and the stack; what is logged touches the log's own fields,
host memory and the frames sent. -/
theorem eventController : Obligations.EventController := by
  intro s n there
  refine ⟨fun m reserved low => evcDoorbell_reserved s reserved low, fun idle => ?_, fun serving => ?_, evcClaim_none,
    fun l shown not => completes_evcClaim shown not, fun l rest top => completes_evcDone_top top, completes_evcDone_order,
    completes_evcModTime, completes_evcAgePromotion, fun deaf v => if_pos deaf, completes_evlCfg⟩
  · refine ⟨_, evcDoorbell_raises s there, ?_⟩
    rw [Source.raise_idle idle]
    exact s.setSource_only n _
  · refine ⟨_, evcDoorbell_raises s there, ?_⟩
    rw [Source.raise_inService serving]
    exact s.setSource_only n _

end Sys2Proof.Machine

/-! PROOF. The registers of the request, completion and record rings (R277 to R279, R309, R311, R322, R328, R329, R339). -/
namespace Sys2Proof.Machine

/-! ### Rings read and written -/

@[simp] theorem State.reqRing_setReqRing (s : State) (r : Nat) (x : ReqRing) : (s.setReqRing r x).reqRing r = x :=
  Map.find_put_same ..

theorem State.reqRing_setReqRing_other (s : State) {r k : Nat} (x : ReqRing) (other : k ≠ r) :
    (s.setReqRing r x).reqRing k = s.reqRing k := Map.find_put_other _ _ _ other

@[simp] theorem State.cpl_setCpl (s : State) (r : Nat) (x : CplRing) : (s.setCpl r x).cpl r = x := Map.find_put_same ..

theorem State.cpl_setCpl_other (s : State) {r k : Nat} (x : CplRing) (other : k ≠ r) : (s.setCpl r x).cpl k = s.cpl k :=
  Map.find_put_other _ _ _ other

/-- Every other ring of `t` is as in `s`. -/
def State.otherRings (s t : State) (r : Nat) : Prop :=
  (∀ k, k ≠ r → t.reqRing k = s.reqRing k) ∧ ∀ k, k ≠ r → t.cpl k = s.cpl k

theorem State.otherRings_setReqRing (s : State) (r : Nat) (x : ReqRing) : s.otherRings (s.setReqRing r x) r :=
  ⟨fun _ other => s.reqRing_setReqRing_other x other, fun _ _ => rfl⟩

theorem State.otherRings_setCpl (s : State) (r : Nat) (x : CplRing) : s.otherRings (s.setCpl r x) r :=
  ⟨fun _ _ => rfl, fun _ other => s.cpl_setCpl_other x other⟩

/-- A state that shares the serving block shares the rings. -/
theorem State.otherRings_of_srv {s t u : State} {r : Nat} (others : s.otherRings t r) (srv : u.srv = t.srv) : s.otherRings u r :=
  ⟨fun k other => (congrArg (fun v : Serve => v.rq.find .init k) srv).trans (others.1 k other),
    fun k other => (congrArg (fun v : Serve => v.cq.find .init k) srv).trans (others.2 k other)⟩

theorem State.ringWrite_heard {s : State} {r : Nat} (there : r < 64) (hears : s.deaf = false) (t : State) : s.ringWrite r t = .next t := by
  simp [State.ringWrite, there, State.heard, hears]

theorem State.ringWrite_deaf {s : State} {r : Nat} (there : r < 64) (deaf : s.deaf = true) (t : State) : s.ringWrite r t = .next s := by
  simp [State.ringWrite, there, State.heard, deaf]

theorem bits_four (n : Nat) : bits n 4 0 = n % 32 := by simp [bits]

/-! ### Request rings (R277, R311) -/

/-- A producer index that leaves no more entries than the ring holds. -/
theorem rqTail_room {s : State} {r : Nat} {v : W32} (there : r < 64) (hears : s.deaf = false) (run : s.power.mode = .run)
    (room : (s.reqRing r).enable = false ∨ (v - (s.reqRing r).head).toNat ≤ ringSize (s.reqRing r).log2 4) :
    exec (.rqTail r v) s = .next (s.setReqRing r { s.reqRing r with tail := v }) := by
  have stays : ¬ ((s.reqRing r).enable && ringSize (s.reqRing r).log2 4 < (v - (s.reqRing r).head).toNat) = true := by
    rw [Bool.and_eq_true, decide_eq_true_eq]
    rintro ⟨on, ahead⟩
    exact room.elim (fun off => by simp [off] at on) (fun le => absurd ahead (by omega))
  have wake : s.wake = s := if_pos run
  refine (State.ringWrite_heard there hears _).trans (congrArg _ ?_)
  rw [wake]
  exact if_neg stays

/-- One too far ahead stops the ring with 0x0703. -/
theorem completes_rqTail_ahead {s : State} {r : Nat} {v : W32} (there : r < 64) (hears : s.deaf = false) (run : s.power.mode = .run)
    (on : (s.reqRing r).enable = true) (ahead : ringSize (s.reqRing r).log2 4 < (v - (s.reqRing r).head).toNat) :
    completes (.rqTail r v) s fun t => t.reqRing r = { s.reqRing r with tail := v, enable := false, error := true } ∧
      s.otherRings t r ∧ t.job = s.job := by
  let x := s.reqRing r
  let u := (s.setReqRing r { x with tail := v }).setReqRing r { x with tail := v, enable := false, error := true }
  have row : exec (.rqTail r v) s = .next (u.event 0x0703 (BitVec.ofNat 64 r)) := by
    have wake : s.wake = s := if_pos run
    refine (State.ringWrite_heard there hears _).trans (congrArg _ ?_)
    rw [wake]
    refine (if_pos (by rw [Bool.and_eq_true, decide_eq_true_eq]; exact ⟨on, ahead⟩)).trans ?_
    rw [State.stopRing, State.reqRing_setReqRing]
  have srv : (u.event 0x0703 (BitVec.ofNat 64 r)).srv = u.srv := State.event_srv ..
  have others : s.otherRings u r :=
    ⟨fun k other => (State.reqRing_setReqRing_other _ _ other).trans (State.reqRing_setReqRing_other _ _ other), fun _ _ => rfl⟩
  refine ⟨_, row, ?_, State.otherRings_of_srv others srv, State.event_job ..⟩
  rw [State.reqRing, srv]
  exact State.reqRing_setReqRing ..

/-- The request ring that a write of RQ_CFG leaves. -/
def ReqRing.configured (x : ReqRing) (v : W32) : ReqRing :=
  let y := { x with error := x.error && !bit v.toNat 6, log2 := if x.enable then x.log2 else bits v.toNat 4 0 }
  if bit v.toNat 5 && !x.enable then { y with enable := true, head := 0#32, tail := 0#32 } else { y with enable := bit v.toNat 5 }

theorem ReqRing.configured_shows (x : ReqRing) (v : W32) : (x.configured v).enable = v.getLsbD 5 ∧
    (x.configured v).error = (x.error && !v.getLsbD 6) ∧ (x.configured v).base = x.base ∧
    (x.enable = true → (x.configured v).log2 = x.log2 ∧ (x.configured v).head = x.head ∧ (x.configured v).tail = x.tail) ∧
    (x.enable = false → (x.configured v).log2 = v.toNat % 32) ∧
    (x.enable = false → v.getLsbD 5 = true → (x.configured v).head = 0#32 ∧ (x.configured v).tail = 0#32) := by
  unfold ReqRing.configured
  simp only [bit_toNat, bits_four]
  split
  next opens =>
    obtain ⟨on, off⟩ := Bool.and_eq_true_iff.mp opens
    rw [Bool.not_eq_true'] at off
    exact ⟨on.symm, rfl, rfl, fun held => by simp [held] at off, fun _ => if_neg (by simp [off]), fun _ _ => ⟨rfl, rfl⟩⟩
  next stays =>
    refine ⟨rfl, rfl, rfl, fun on => ⟨if_pos on, rfl, rfl⟩, fun off => ?_, fun off on => absurd ?_ stays⟩
    · simp [off]
    · rw [on, off]
      rfl

/-! ### Completion rings (R279, R309, R311) -/

theorem State.cplDrain_empty {s : State} {r : Nat} (empty : (s.cpl r).held = []) (n : Nat) : State.cplDrain r n s = s := by
  cases n with
  | zero => rfl
  | succ n => simp only [State.cplDrain, empty]

theorem State.afterCpl_unpaused {s : State} (none : s.srv.pauseAt = .none) : s.afterCpl = s := by
  simp [State.afterCpl, State.pauseDue, none]

/-- The completion ring that a write of CQ_CFG leaves. -/
def CplRing.configured (x : CplRing) (v : W32) : CplRing :=
  let y := { x with vector := bits v.toNat 13 7, log2 := if x.enable then x.log2 else bits v.toNat 4 0 }
  if bit v.toNat 5 && !x.enable then { y with enable := true, head := 0#32, tail := 0#32 } else { y with enable := bit v.toNat 5 }

theorem CplRing.configured_shows (x : CplRing) (v : W32) : (x.configured v).enable = v.getLsbD 5 ∧
    (x.configured v).vector = v.toNat / 128 % 128 ∧ (x.configured v).base = x.base ∧
    (x.enable = true → (x.configured v).log2 = x.log2 ∧ (x.configured v).head = x.head ∧ (x.configured v).tail = x.tail) ∧
    (x.enable = false → (x.configured v).log2 = v.toNat % 32) ∧
    (x.enable = false → v.getLsbD 5 = true → (x.configured v).head = 0#32 ∧ (x.configured v).tail = 0#32) := by
  unfold CplRing.configured
  simp only [bit_toNat, bits_four]
  split
  next opens =>
    obtain ⟨on, off⟩ := Bool.and_eq_true_iff.mp opens
    rw [Bool.not_eq_true'] at off
    exact ⟨on.symm, rfl, rfl, fun held => by simp [held] at off, fun _ => if_neg (by simp [off]), fun _ _ => ⟨rfl, rfl⟩⟩
  next stays =>
    refine ⟨rfl, rfl, rfl, fun on => ⟨if_pos on, rfl, rfl⟩, fun off => ?_, fun off on => absurd ?_ stays⟩
    · simp [off]
    · rw [on, off]
      rfl

theorem CplRing.configured_held (x : CplRing) (v : W32) : (x.configured v).held = x.held := by
  unfold CplRing.configured
  dsimp only
  split <;> rfl

theorem cqCfg_writes {s : State} {r : Nat} (v : W32) (there : r < 64) (hears : s.deaf = false) (empty : (s.cpl r).held = [])
    (none : s.srv.pauseAt = .none) : exec (.cqCfg r v) s = .next (s.setCpl r ((s.cpl r).configured v)) := by
  have row : exec (.cqCfg r v) s =
      .next (State.cplDrain r ((s.cpl r).held.length + 1) (s.setCpl r ((s.cpl r).configured v))).afterCpl :=
    State.ringWrite_heard there hears _
  rw [row, State.cplDrain_empty (by rw [State.cpl_setCpl, CplRing.configured_held, empty]), State.afterCpl_unpaused (by exact none)]

theorem cqHead_moves {s : State} {r : Nat} (v : W32) (there : r < 64) (hears : s.deaf = false) (empty : (s.cpl r).held = [])
    (none : s.srv.pauseAt = .none) : exec (.cqHead r v) s = .next (s.setCpl r { s.cpl r with head := v }) := by
  have row : exec (.cqHead r v) s =
      .next (State.cplDrain r ((s.cpl r).held.length + 1) (s.setCpl r { s.cpl r with head := v })).afterCpl :=
    State.ringWrite_heard there hears _
  rw [row, State.cplDrain_empty (by rw [State.cpl_setCpl, empty]), State.afterCpl_unpaused (by exact none)]

/-- One held entry of a ring that has room, below the moderation count: what is left is the entry in host memory and the indices. -/
theorem State.cplDrain_one {s : State} {r : Nat} {h : HeldCpl} (held : (s.cpl r).held = [h]) (plain : h.ends = none)
    (on : (s.cpl r).enable = true) (room : ((s.cpl r).tail - (s.cpl r).head).toNat < ringSize (s.cpl r).log2 4)
    (quiet : (s.cpl r).waiting = false) (few : (s.cpl r).pend + 1 < (s.cpl r).modCount) :
    let y := s.cpl r
    let n := ringSize y.log2 4
    State.cplDrain r 2 s = ((s.setCpl r { y with held := [] }).dmaWrite (y.base + 64 * (y.tail.toNat % n))
        (modAt h.entry 11 fun b => b ||| BitVec.ofNat 8 (bitAt 7 (y.tail.toNat / n % 2 = 0)))).setCpl r
      { y with held := [], tail := y.tail + 1#32, pend := y.pend + 1, oldest := if y.pend = 0 then s.gsc else y.oldest } := by
  intro y n
  have unmoderated : ¬ max 1 y.modCount ≤ y.pend + 1 := by
    have : y.pend + 1 < y.modCount := few
    omega
  have write : (s.setCpl r { y with held := [] }).cplWrite r h = ((s.setCpl r { y with held := [] }).dmaWrite
      (y.base + 64 * (y.tail.toNat % n))
        (modAt h.entry 11 fun b => b ||| BitVec.ofNat 8 (bitAt 7 (y.tail.toNat / n % 2 = 0)))).setCpl r
      { y with held := [], tail := y.tail + 1#32, pend := y.pend + 1, oldest := if y.pend = 0 then s.gsc else y.oldest } := by
    simp only [State.cplWrite, State.cpl_setCpl, plain]
    exact if_neg (by simp [unmoderated, show y.waiting = false from quiet])
  have first : State.cplDrain r 2 s = State.cplDrain r 1 ((s.setCpl r { y with held := [] }).cplWrite r h) := by
    have free : ((s.cpl r).enable && ((s.cpl r).tail - (s.cpl r).head).toNat < ringSize (s.cpl r).log2 4) = true := by
      rw [on, decide_eq_true room]
      rfl
    rw [State.cplDrain]
    simp only [held]
    exact if_pos free
  rw [first, write, State.cplDrain_empty]
  rw [State.cpl_setCpl]

theorem completes_cqHead_one {s : State} {r : Nat} {v : W32} {h : HeldCpl} (there : r < 64) (hears : s.deaf = false)
    (held : (s.cpl r).held = [h]) (plain : h.ends = none) (on : (s.cpl r).enable = true)
    (room : ((s.cpl r).tail - v).toNat < ringSize (s.cpl r).log2 4) (none : s.srv.pauseAt = .none)
    (quiet : (s.cpl r).waiting = false) (few : (s.cpl r).pend + 1 < (s.cpl r).modCount) :
    let y := s.cpl r
    completes (.cqHead r v) s fun t => (t.cpl r).held = [] ∧ (t.cpl r).tail = y.tail + 1#32 ∧ (t.cpl r).pend = y.pend + 1 ∧
      t.host.hostMem = s.host.hostMem.write (y.base + 64 * (y.tail.toNat % ringSize y.log2 4))
        (modAt h.entry 11 fun b => b ||| BitVec.ofNat 8 (bitAt 7 (y.tail.toNat / ringSize y.log2 4 % 2 = 0))) := by
  intro y
  obtain ⟨u, moved⟩ : ∃ u, u = s.setCpl r { y with head := v } := ⟨_, rfl⟩
  have ring : u.cpl r = { y with head := v } := moved ▸ State.cpl_setCpl ..
  have row : exec (.cqHead r v) s = .next (State.cplDrain r 2 u).afterCpl := by
    have two : (s.cpl r).held.length + 1 = 2 := by rw [held]; rfl
    rw [moved, ← two]
    exact State.ringWrite_heard there hears _
  rw [State.cplDrain_one (s := u) (by rw [ring]; exact held) plain (by rw [ring]; exact on) (by rw [ring]; exact room)
    (by rw [ring]; exact quiet) (by rw [ring]; exact few), State.afterCpl_unpaused (by rw [moved]; exact none)] at row
  have mem : u.host.hostMem = s.host.hostMem := moved ▸ rfl
  refine ⟨_, row, ?_, ?_, ?_, ?_⟩
  · rw [State.cpl_setCpl]
  · rw [State.cpl_setCpl, ring]
  · rw [State.cpl_setCpl, ring]
  · rw [← mem]
    simp only [ring]
    rfl

theorem cqArm_quiet {s : State} {r : Nat} {w : Bool} (there : r < 64) (hears : s.deaf = false) (still : w = false ∨ (s.cpl r).pend = 0) :
    exec (.cqArm r w) s = .next (s.setCpl r { s.cpl r with waiting := w }) := by
  have : ¬ (w = true ∧ 0 < (s.cpl r).pend) := fun ⟨on, more⟩ => by
    rcases still with off | zero
    · simp [on] at off
    · omega
  simp [exec, execCqArm, State.ringWrite_heard there hears, this]

theorem State.sendVector_host_of {s u : State} (host : u.host = s.host) (v : Nat) : (u.sendVector v).host = (s.sendVector v).host := by
  unfold State.sendVector State.dmaWrite
  simp only [host]
  split <;> rfl

/-- What sending a ring's interrupt shows of state `u`, whose rings but `r` and whose host block are those of `s`. -/
theorem State.cplSend_shows {s u : State} {r : Nat} (others : s.otherRings u r) (host : u.host = s.host) :
    ((u.cplSend r).cpl r).pend = 0 ∧ ((u.cplSend r).cpl r).waiting = false ∧ s.otherRings (u.cplSend r) r ∧
      (u.cplSend r).gsc = u.gsc ∧ (u.cplSend r).host = (s.sendVector (u.cpl r).vector).host := by
  obtain ⟨w, put⟩ : ∃ w, w = u.setCpl r { u.cpl r with pend := 0, waiting := false } := ⟨_, rfl⟩
  have send : u.cplSend r = w.sendVector (u.cpl r).vector := put ▸ rfl
  have srv : (u.cplSend r).srv = w.srv := by rw [send, State.sendVector_srv]
  have ring : (u.cplSend r).cpl r = { u.cpl r with pend := 0, waiting := false } := by
    rw [State.cpl, srv, put]
    exact State.cpl_setCpl ..
  have here := put ▸ u.otherRings_setCpl r { u.cpl r with pend := 0, waiting := false }
  refine ⟨by rw [ring], by rw [ring], State.otherRings_of_srv ⟨fun k other => (here.1 k other).trans (others.1 k other),
    fun k other => (here.2 k other).trans (others.2 k other)⟩ srv, ?_, ?_⟩
  · rw [send, State.sendVector_gsc, put]
    rfl
  · rw [send]
    exact State.sendVector_host_of (put ▸ host) _

theorem completes_cqArm_sends {s : State} {r : Nat} (there : r < 64) (hears : s.deaf = false) (some : 0 < (s.cpl r).pend) :
    completes (.cqArm r true) s fun t => (t.cpl r).pend = 0 ∧ (t.cpl r).waiting = false ∧ s.otherRings t r ∧
      t.host = (s.sendVector (s.cpl r).vector).host := by
  obtain ⟨u, put⟩ : ∃ u, u = s.setCpl r { s.cpl r with waiting := true } := ⟨_, rfl⟩
  have row : exec (.cqArm r true) s = .next (u.cplSend r) := by
    simp [exec, execCqArm, State.ringWrite_heard there hears, some, put]
  obtain ⟨pend, waiting, others, -, host⟩ := State.cplSend_shows (s := s) (u := u) (put ▸ s.otherRings_setCpl r _) (put ▸ rfl)
  have ring : u.cpl r = { s.cpl r with waiting := true } := put ▸ State.cpl_setCpl ..
  rw [ring] at host
  exact ⟨_, row, pend, waiting, others, host⟩

theorem completes_completionModerationTime {s : State} {r : Nat} (there : r < 64) (some : 0 < (s.cpl r).pend)
    (timed : (s.cpl r).modTimeUs ≠ 0) :
    completes (.completionModerationTime r) s fun t => (t.cpl r).pend = 0 ∧ s.otherRings t r ∧
      t.gsc = max s.gsc ((s.cpl r).oldest + 1000 * (s.cpl r).modTimeUs) ∧ t.host = (s.sendVector (s.cpl r).vector).host := by
  obtain ⟨u, later⟩ : ∃ u, u = s.advanceTo ((s.cpl r).oldest + 1000 * (s.cpl r).modTimeUs) := ⟨_, rfl⟩
  have row : exec (.completionModerationTime r) s = .next (u.cplSend r) := by
    have : (s.cpl r).pend ≠ 0 := by omega
    simp [exec, execCompletionModerationTime, onRing, there, timed, this, later]
  have srv : u.srv = s.srv := later ▸ State.advanceTo_srv ..
  obtain ⟨pend, -, others, gsc, host⟩ := State.cplSend_shows (s := s) (u := u) (r := r)
    (State.otherRings_of_srv ⟨fun _ _ => rfl, fun _ _ => rfl⟩ srv) (later ▸ State.advanceTo_host ..)
  refine ⟨_, row, pend, others, gsc.trans (later ▸ State.advanceTo_gsc ..), ?_⟩
  rw [host, State.cpl, srv]
  rfl

/-! ### The record ring (R322, R328, R329, R339) -/

theorem State.recDrain_empty {s : State} (empty : s.recs.queue = []) (n : Nat) : State.recDrain n s = s := by
  cases n with
  | zero => rfl
  | succ n => simp only [State.recDrain, empty]

theorem State.resumeStage4_none {s : State} (shut : s.srv.stage4 = false) (none : s.srv.pauseAt = .none) : s.resumeStage4 = s := by
  simp [State.resumeStage4, State.pauseDue, shut, none]

/-- What REC_CFG writes. -/
def Records.configured (x : Records) (v : W32) : Records :=
  let y := { x with vector := bits v.toNat 13 7, sealMs := bits v.toNat 23 14, log2 := bits v.toNat 4 0, enable := bit v.toNat 5 }
  if bit v.toNat 5 && !x.enable then { y with head := 0#32, tail := 0#32 } else y

theorem Records.configured_shows (x : Records) (v : W32) : (x.configured v).enable = v.getLsbD 5 ∧ (x.configured v).log2 = v.toNat % 32 ∧
    (x.configured v).vector = v.toNat / 128 % 128 ∧ (x.configured v).sealMs = v.toNat / 2 ^ 14 % 1024 ∧ (x.configured v).base = x.base ∧
    (x.enable = false → v.getLsbD 5 = true → (x.configured v).head = 0#32 ∧ (x.configured v).tail = 0#32) := by
  unfold Records.configured
  simp only [bit_toNat, bits_four]
  split
  · exact ⟨rfl, rfl, rfl, rfl, rfl, fun _ _ => ⟨rfl, rfl⟩⟩
  next stays =>
    refine ⟨rfl, rfl, rfl, rfl, rfl, fun off on => absurd ?_ stays⟩
    rw [on, off]
    rfl

theorem Records.configured_queue (x : Records) (v : W32) : (x.configured v).queue = x.queue := by
  unfold Records.configured
  dsimp only
  split <;> rfl

theorem recCfg_writes {s : State} (v : W32) (hears : s.deaf = false) (unlocked : s.recLocked = false) (empty : s.recs.queue = [])
    (shut : s.srv.stage4 = false) (none : s.srv.pauseAt = .none) : exec (.recCfg v) s = .next (s.withRecs (s.recs.configured v)) := by
  have row : exec (.recCfg v) s =
      .next (State.recDrain (s.recs.queue.length + 1) (s.withRecs (s.recs.configured v))).resumeStage4 :=
    if_neg (by simp [hears, unlocked])
  rw [row, State.recDrain_empty ((s.recs.configured_queue v).trans empty), State.resumeStage4_none (by exact shut) (by exact none)]

theorem recHead_moves {s : State} (v : W32) (hears : s.deaf = false) (empty : s.recs.queue = []) (shut : s.srv.stage4 = false)
    (none : s.srv.pauseAt = .none) : exec (.recHead v) s = .next { s with recs := { s.recs with head := v } } := by
  have row : exec (.recHead v) s =
      .next (State.recDrain (s.recs.queue.length + 1) (s.withRecs { s.recs with head := v })).resumeStage4 := by
    simp [exec, execRecHead, State.heard, hears]
  rw [row, State.recDrain_empty (by exact empty), State.resumeStage4_none (by exact shut) (by exact none)]
  rfl

theorem completes_recHead_one {s : State} {v : W32} {e : Bytes} (hears : s.deaf = false) (queue : s.recs.queue = [(false, e)])
    (shut : s.srv.stage4 = false) (none : s.srv.pauseAt = .none) (on : s.recs.enable = true)
    (room : (s.recs.tail - v).toNat < ringSize s.recs.log2 12) :
    completes (.recHead v) s fun t => t.recs.queue = [] ∧ t.recs.tail = s.recs.tail + 1#32 ∧ t.recs.head = v ∧ t.host.hostMem =
      s.host.hostMem.write (s.recs.base + 512 * (s.recs.tail.toNat % ringSize s.recs.log2 12)) e := by
  obtain ⟨u, moved⟩ : ∃ u, u = s.withRecs { s.recs with head := v } := ⟨_, rfl⟩
  have row : exec (.recHead v) s = .next (State.recDrain 2 u).resumeStage4 := by
    simp [exec, execRecHead, State.heard, hears, moved, queue]
  have drain : State.recDrain 2 u = (u.withRecs { u.recs with queue := [] }).recWrite false e := by
    have waits : u.recs.queue = [(false, e)] := moved ▸ queue
    have free : u.recs.room = true := by
      rw [moved]
      exact Bool.and_eq_true_iff.mpr ⟨on, decide_eq_true room⟩
    simp only [State.recDrain, waits, free, if_true]
    rfl
  rw [drain, State.resumeStage4_none (by rw [moved]; exact shut) (by rw [moved]; exact none)] at row
  exact ⟨_, row, rfl, by rw [moved]; rfl, by rw [moved]; rfl, by rw [moved]; rfl⟩

/-- Settles O42: each register write by its conditions; a ring with nothing to write and no pause due does only what the write says. -/
theorem rings : Obligations.Rings := by
  intro s r v there
  refine ⟨fun deaf i row => ?_, fun hears => ⟨fun run => ⟨rqTail_room there hears run, completes_rqTail_ahead there hears run⟩, ?_,
    fun empty none => ⟨?_, cqHead_moves v there hears empty none⟩, ?_, fun w => cqArm_quiet there hears, completes_cqArm_sends there hears,
    completes_completionModerationTime there, fun locked => if_pos (by simp [locked]), fun unlocked empty shut none => ?_,
    recHead_moves v hears, fun e => completes_recHead_one hears⟩⟩
  · simp only [List.mem_cons, List.not_mem_nil, or_false] at row
    rcases row with rfl | rfl | rfl | rfl | rfl | rfl | rfl | rfl
    case inr.inr.inr.inr.inr.inr.inl => exact if_pos (by simp [deaf])
    case inr.inr.inr.inr.inr.inr.inr => exact if_pos deaf
    all_goals exact State.ringWrite_deaf there deaf _
  · refine ⟨s.setReqRing r ((s.reqRing r).configured v), State.ringWrite_heard there hears _, s.otherRings_setReqRing r _, rfl, ?_⟩
    rw [State.reqRing_setReqRing]
    exact ReqRing.configured_shows _ v
  · refine ⟨_, cqCfg_writes v there hears empty none, s.otherRings_setCpl r _, rfl, ?_⟩
    rw [State.cpl_setCpl]
    exact CplRing.configured_shows _ v
  · intro h rest held plain on room last none quiet few
    subst last
    exact completes_cqHead_one there hears held plain on room none quiet few
  · obtain ⟨enable, log2, vector, sealMs, base, cleared⟩ := s.recs.configured_shows v
    exact ⟨_, recCfg_writes v hears unlocked empty shut none, enable, log2, vector, sealMs, base, cleared, rfl⟩

end Sys2Proof.Machine

/-! PROOF. What the services of the host leave alone: completions, records, loads, answers and background accesses touch the blocks of the
host, the far memory, the resident models, the serving engine, the records and the links, and nothing else. -/
namespace Sys2Proof.Machine

/-- What a service of the host changes of its block: answers, sources, messages, host memory, and the frames sent. -/
def HostBlk.served (h x : HostBlk) : Prop :=
  ({ x with chans := h.chans, evc := { x.evc with sources := h.evc.sources }, msix := h.msix, hostMem := h.hostMem, mgmt := h.mgmt } : HostBlk) =
    h ∧ ∀ p, ({ x.mgmt.find .init p with ownSeq := (h.mgmt.find .init p).ownSeq, tx := (h.mgmt.find .init p).tx } : MgmtPort) =
      h.mgmt.find .init p

/-- `v` reads nothing of what answers, interrupts and DMA writes change. -/
structure Served {α : Type} (v : State → α) : Prop where
  host : ∀ (s : State) {x : HostBlk}, s.host.served x → v { s with host := x } = v s

/-- Nor of the far memory and the resident models. -/
structure Beside {α : Type} (v : State → α) : Prop extends Served v where
  stores : ∀ (s : State) far cas, v { s with far := far, cas := cas } = v s

/-- Nor of the serving engine, the records and the links: `v` reads nothing of what the services write. -/
structure Aside {α : Type} (v : State → α) : Prop extends Beside v where
  blocks : ∀ (s : State) srv recs ports, v { s with srv := srv, recs := recs, ports := ports } = v s

namespace Served

variable {α : Type} {v : State → α}

/-! ### Events and answers -/

theorem raiseSource (served : Served v) (s : State) (n : Nat) (i : RaiseInfo) : v (s.raiseSource n i) = v s := by
  unfold State.raiseSource
  split
  · exact served.host s ⟨rfl, fun _ => rfl⟩
  · rfl

theorem raiseCode (served : Served v) (s : State) (code : Nat) (fault : Bool) (a b : W64) : v (s.raiseCode code fault a b) = v s := by
  unfold State.raiseCode
  split
  · exact served.raiseSource ..
  · rfl

theorem event (served : Served v) (s : State) (code : Nat) (a b : W64) : v (s.event code a b) = v s := served.raiseCode ..

theorem sendVector (served : Served v) (s : State) (n : Nat) : v (s.sendVector n) = v s := by
  unfold State.sendVector
  dsimp only
  split <;> exact served.host s ⟨rfl, fun _ => rfl⟩

theorem sendFrame (served : Served v) (s : State) (p typ : Nat) (b : Bytes) : v (s.sendFrame p typ b) = v s := by
  refine served.host s ⟨rfl, fun q => ?_⟩
  by_cases same : q = p
  · subst same
    rw [State.mgmtPort, Map.find_put_same]
  · rw [Map.find_put_other _ _ _ same]

theorem setChan (served : Served v) (s : State) (ch : Nat) (x : Channel) : v (s.setChan ch x) = v s := served.host s ⟨rfl, fun _ => rfl⟩

theorem dmaWrite (served : Served v) (s : State) (a : Nat) (b : Bytes) : v (s.dmaWrite a b) = v s := served.host s ⟨rfl, fun _ => rfl⟩

theorem respond (served : Served v) (s : State) (ch : Nat) (r : Reply) : v (s.respond ch r) = v s := by
  unfold State.respond
  dsimp only
  split
  · rfl
  split
  · exact (served.sendFrame ..).trans (served.setChan ..)
  split
  · exact (served.sendVector ..).trans (served.setChan ..)
  · exact served.setChan ..

/-- An answer to the channel of a load, if it has one. -/
theorem respondTo (served : Served v) (s : State) (ch : Option Nat) (r : Nat → Reply) :
    v (match ch with | some c => s.respond c (r c) | none => s) = v s := by
  split
  · exact served.respond ..
  · rfl

end Served

/-! ### Far memory -/

section Far

variable {α : Type} {v : State → α} (kept : ∀ (s : State) f, v { s with far := f } = v s)
include kept

/-- A background request touches the far memory only. -/
theorem State.background_leaves (s : State) (src : BgSrc) (r : FarRegion) (off n : Nat) (write : Bool) :
    v (s.background src r off n write) = v s := by
  refine (foldl_keeps v _ (fun _ _ => kept ..) _ _).trans ?_
  refine foldl_keeps v _ (fun s g => ?_) _ s
  dsimp only
  split
  · exact kept ..
  · rfl

/-- A write of the engine touches the far memory only. -/
theorem State.engineWrite_leaves (s : State) (r off : Nat) (b : Bytes) : v (s.engineWrite r off b) = v s :=
  (State.background_leaves kept ..).trans (kept ..)

end Far

/-! ### Slots -/

section Slots

variable {α : Type} {v : State → α} (casless : ∀ (s : State) x, v (s.withCas x) = v s)
include casless

/-- Room made by evictions empties slots only. -/
theorem State.makeRoom_leaves {s t : State} {size b : Nat} (room : s.makeRoom size = some (t, b)) : v t = v s := by
  obtain ⟨k, -, found⟩ := List.exists_of_findSome?_eq_some room
  obtain ⟨c, -, same⟩ := Option.map_eq_some_iff.mp found
  rw [← (Prod.mk.inj same).1]
  exact foldl_keeps v _ (fun _ _ => casless ..) _ s

theorem State.takeSlot_leaves {s t : State} {i : Nat} (taken : s.takeSlot = some (t, i)) : v t = v s := by
  unfold State.takeSlot at taken
  split at taken
  · cases taken
    rfl
  split at taken
  · cases taken
    exact casless ..
  · cases taken

end Slots

namespace Beside

variable {α : Type} {v : State → α}

theorem far (beside : Beside v) (s : State) (x : Far) : v { s with far := x } = v s := beside.stores s x s.cas
theorem withCas (beside : Beside v) (s : State) (x : Cas) : v (s.withCas x) = v s := beside.stores s s.far x

theorem background (beside : Beside v) (s : State) (src : BgSrc) (r : FarRegion) (off n : Nat) (write : Bool) :
    v (s.background src r off n write) = v s := State.background_leaves beside.far ..

theorem farPutAt (beside : Beside v) (s : State) (r : FarRegion) (off : Nat) (b : Bytes) : v (s.farPutAt r off b) = v s := beside.far ..

theorem engineWrite (beside : Beside v) (s : State) (r off : Nat) (b : Bytes) : v (s.engineWrite r off b) = v s :=
  State.engineWrite_leaves beside.far ..

theorem flushChecks (beside : Beside v) (s : State) : v s.flushChecks = v s := beside.far ..

/-! ### Loads of the resident-model table (R257 to R262, R270) -/

theorem putLoad (beside : Beside v) (s : State) (l : CasLoad) : v (s.putLoad l) = v s := beside.withCas ..
theorem dropLoad (beside : Beside v) (s : State) (l : CasLoad) : v (s.dropLoad l) = v s := beside.withCas ..
theorem emptySlot (beside : Beside v) (s : State) (i : Nat) : v (s.emptySlot i) = v s := beside.withCas ..
theorem setRmSlot (beside : Beside v) (s : State) (i : Nat) (x : RmSlot) : v (s.setRmSlot i x) = v s := beside.withCas ..

theorem keepLoad (beside : Beside v) (s : State) (l : CasLoad) : v (s.keepLoad l) = v s := by
  unfold State.keepLoad
  split
  · exact beside.dropLoad ..
  · exact beside.putLoad ..

theorem endLoad (beside : Beside v) (s : State) (l : CasLoad) : v (s.endLoad l) = v s := by
  unfold State.endLoad
  dsimp only
  split
  · exact (beside.respondTo ..).trans ((beside.emptySlot ..).trans (beside.dropLoad ..))
  · exact (beside.respondTo ..).trans ((beside.setRmSlot ..).trans (beside.keepLoad ..))

theorem failLoad (beside : Beside v) (s : State) (l : CasLoad) (r : Result) (code index : Nat) : v (s.failLoad l r code index) = v s := by
  have fault : ∀ (s : State) l, v (if s.casNow then s.endLoad l else s.putLoad l) = v s := fun s l => by
    split
    · exact beside.endLoad ..
    · exact beside.putLoad ..
  unfold State.failLoad
  dsimp only
  rw [fault]
  split
  · exact beside.withCas ..
  · rfl

theorem writeCopy (beside : Beside v) (s : State) (l : CasLoad) : v (s.writeCopy l) = v s := by
  unfold State.writeCopy
  split
  · exact beside.putLoad ..
  split
  · exact beside.putLoad ..
  split
  · exact (beside.failLoad ..).trans (beside.putLoad ..)
  · exact (beside.putLoad ..).trans ((beside.withCas ..).trans ((beside.background ..).trans (beside.farPutAt ..)))

theorem placeLoad (beside : Beside v) (s : State) (l : CasLoad) : v (s.placeLoad l) = v s := by
  unfold State.placeLoad
  split
  · exact beside.putLoad ..
  split
  · exact (beside.writeCopy ..).trans (beside.setRmSlot ..)
  split
  · exact beside.putLoad ..
  split
  · exact (beside.failLoad ..).trans (beside.putLoad ..)
  next room => exact (beside.writeCopy ..).trans ((beside.setRmSlot ..).trans (State.makeRoom_leaves beside.withCas room))

theorem startLoad (beside : Beside v) (s : State) (l : CasLoad) : v (s.startLoad l) = v s := by
  unfold State.startLoad
  split
  · exact (beside.failLoad ..).trans (beside.putLoad ..)
  next taken =>
    dsimp only
    split
    · rw [beside.failLoad, beside.putLoad]
      split
      · exact (beside.event ..).trans ((beside.setRmSlot ..).trans (State.takeSlot_leaves beside.withCas taken))
      · exact (beside.setRmSlot ..).trans (State.takeSlot_leaves beside.withCas taken)
    · exact (beside.placeLoad ..).trans ((beside.setRmSlot ..).trans (State.takeSlot_leaves beside.withCas taken))

/-- What waited for a step boundary. -/
theorem casBoundary (beside : Beside v) (s : State) : v s.casBoundary = v s := by
  unfold State.casBoundary
  refine (foldl_keeps v _ (fun s l => ?_) _ _).trans ((foldl_keeps v _ (fun s u => ?_) _ _).trans (beside.withCas ..))
  · split
    · exact beside.startLoad ..
    · exact beside.placeLoad ..
    · exact beside.endLoad ..
    · exact beside.endLoad ..
    · rfl
  · dsimp only
    split
    · exact (beside.respond ..).trans (beside.emptySlot ..)
    · exact beside.respond ..

end Beside

/-! ### What ends with a job-fatal fault -/

section Ends

variable {α : Type} {v : State → α} (casless : ∀ (s : State) x, v (s.withCas x) = v s)
  (srvless : ∀ (s : State) cq reqs adapters, v (s.withSrv { s.srv with cq := cq, reqs := reqs, adapters := adapters }) = v s)

include casless srvless in
theorem Served.failAdapter (served : Served v) (s : State) (l : CasLoad) (slot ver : Nat) (r : Reply) : v (s.failAdapter l slot ver r) = v s := by
  unfold State.failAdapter
  exact (served.respondTo ..).trans ((srvless ..).trans (casless ..))

include srvless in
/-- Commands under way that end. -/
theorem Beside.failCommands (beside : Beside v) (portless : ∀ (s : State) x, v { s with ports := x } = v s) (s : State) : v s.failCommands = v s := by
  unfold State.failCommands
  dsimp only
  refine (foldl_keeps v _ (fun s ch => ?_) _ _).trans ((portless ..).trans ((beside.withCas ..).trans
    (foldl_keeps v _ (fun s l => ?_) _ _)))
  · split
    · split
      · exact beside.respond ..
      · rfl
    · rfl
  · split
    · exact beside.failAdapter beside.withCas srvless ..
    · split
      · rfl
      · exact beside.failLoad ..

end Ends

/-! ### Completions (R279, R309) -/

section Completions

variable {α : Type} {v : State → α} (slotless : ∀ (s : State) slots, v (s.withCas { s.cas with slots := slots }) = v s)
  (srvless : ∀ (s : State) cq reqs adapters, v (s.withSrv { s.srv with cq := cq, reqs := reqs, adapters := adapters }) = v s)

include srvless in
theorem Served.cplSend (served : Served v) (s : State) (r : Nat) : v (s.cplSend r) = v s := (served.sendVector ..).trans (srvless ..)

include slotless in
theorem State.pin_leaves (s : State) (r : Nat) (up : Bool) : v (s.pin r up) = v s := by
  unfold State.pin
  split
  · rfl
  · exact slotless ..

include slotless srvless

theorem State.freeReq_leaves (s : State) (id : Nat) : v (s.freeReq id) = v s := by
  have versions : ∀ (s : State) (b : Option (Nat × Nat)), v (match b with | some b => s.freeVersions b.1 | none => s) = v s :=
    fun s b => by
      split
      · exact srvless ..
      · rfl
  unfold State.freeReq
  split
  · rfl
  refine (versions _ _).trans ?_
  dsimp only
  split
  · exact (State.pin_leaves slotless ..).trans (srvless ..)
  · exact srvless ..

theorem Served.cplWrite (served : Served v) (s : State) (r : Nat) (h : HeldCpl) : v (s.cplWrite r h) = v s := by
  have ends : ∀ s : State, v (match h.ends with | some id => s.freeReq id | none => s) = v s := fun s => by
    split
    · exact State.freeReq_leaves slotless srvless ..
    · rfl
  unfold State.cplWrite
  dsimp only
  split
  · exact (served.cplSend srvless ..).trans ((ends _).trans ((srvless ..).trans (served.dmaWrite ..)))
  · exact (ends _).trans ((srvless ..).trans (served.dmaWrite ..))

theorem Served.cplDrain (served : Served v) (r n : Nat) (s : State) : v (State.cplDrain r n s) = v s := by
  induction n generalizing s with
  | zero => rfl
  | succ n ih =>
    rw [State.cplDrain]
    split
    · rfl
    split
    · exact (ih _).trans ((served.cplWrite slotless srvless ..).trans (srvless ..))
    · rfl

theorem Served.cplPush (served : Served v) (s : State) (r : Nat) (e : Bytes) (ends : Option Nat) : v (s.cplPush r e ends) = v s :=
  (served.cplDrain slotless srvless ..).trans (srvless ..)

/-- The completions of a job-fatal fault. -/
theorem Served.failRequests (served : Served v) (s : State) : v s.failRequests = v (s.withSrv { s.srv with
    work := [], fetched := [], changes := [], step := none, boundary := false, stage4 := false, pauseAt := none, fetchStop := true }) := by
  unfold State.failRequests
  dsimp only
  refine (foldl_keeps v _ (fun s e => ?_) _ _).trans ((foldl_keeps v _ (fun s x => ?_) _ _).trans
    (srvless (s.withSrv { s.srv with
      work := [], fetched := [], changes := [], step := none, boundary := false, stage4 := false, pauseAt := none, fetchStop := true })
      _ s.srv.reqs s.srv.adapters))
  · split
    · rfl
    · exact (served.cplPush slotless srvless ..).trans (srvless ..)
  · split
    · exact served.cplPush slotless srvless ..
    · rfl

end Completions

section Records

variable {α : Type} {v : State → α} 
  (recless : ∀ (s : State) tail queue, v (s.withRecs { s.recs with tail := tail, queue := queue }) = v s)
include recless

/-! ### Records (R322, R325) -/

theorem Served.recWrite (served : Served v) (s : State) (isSeal : Bool) (e : Bytes) : v (s.recWrite isSeal e) = v s := by
  unfold State.recWrite
  dsimp only
  split
  · exact (served.sendVector ..).trans ((recless ..).trans (served.dmaWrite ..))
  · exact (recless ..).trans (served.dmaWrite ..)

theorem Served.recDrain (served : Served v) (n : Nat) (s : State) : v (State.recDrain n s) = v s := by
  induction n generalizing s with
  | zero => rfl
  | succ n ih =>
    rw [State.recDrain]
    split
    · rfl
    split
    · exact (ih _).trans ((served.recWrite recless ..).trans (recless ..))
    · rfl

theorem Served.recPush (served : Served v) (s : State) (isSeal : Bool) (e : Bytes) : v (s.recPush isSeal e) = v s :=
  (served.recDrain recless ..).trans (recless ..)

theorem Served.voidBlocks (served : Served v) (s : State) (code : Nat) : v (s.voidBlocks code) =
    v (s.withRecs { s.recs with
      staged := [], opened := none, closeDue := false, marks := [], blockNext := s.recs.blockNext + s.recs.opened.toList.length }) :=
  foldl_keeps v _ (fun _ _ => (served.event ..).trans (served.recPush recless ..)) _ _

end Records

namespace Aside

variable {α : Type} {v : State → α} (aside : Aside v)
include aside

theorem withSrv (s : State) (x : Serve) : v (s.withSrv x) = v s := aside.blocks s x s.recs s.ports
theorem withRecs (s : State) (x : Records) : v (s.withRecs x) = v s := aside.blocks s s.srv x s.ports
theorem ports (s : State) (x : Map LinkPort) : v { s with ports := x } = v s := aside.blocks s s.srv s.recs x

theorem failAdapter (s : State) (l : CasLoad) (slot ver : Nat) (r : Reply) : v (s.failAdapter l slot ver r) = v s :=
  aside.toServed.failAdapter aside.withCas (fun _ _ _ _ => aside.withSrv ..) ..

theorem failCommands (s : State) : v s.failCommands = v s := 
  aside.toBeside.failCommands (fun _ _ _ _ => aside.withSrv ..) aside.ports ..

theorem failRequests (s : State) : v s.failRequests = v s := 
  (aside.toServed.failRequests (fun _ _ => aside.withCas ..) (fun _ _ _ _ => aside.withSrv ..) s).trans (aside.withSrv ..)

theorem voidBlocks (s : State) (code : Nat) : v (s.voidBlocks code) = v s := 
  (aside.toServed.voidBlocks (fun _ _ _ => aside.withRecs ..) s code).trans (aside.withRecs ..)

end Aside

/-! ### The stop of a job-fatal fault (R405, R410, R422, R488) -/

/-- What a MAINT message of the module's own changes. -/
theorem State.sendMsg_maint_leaves {α : Type} (v : State → α)
    (kept : ∀ (s : State) tid owns sent discards dest cause ports free, v { s with
      fab := { s.fab with nextTid := tid, owns := owns, sent := sent, discards := discards, discDest := dest, discCause := cause }
      ports := ports, free := free } = v s) (s : State) (r x : Nat) (m : FabMsg) : v (s.sendMsg r 3 x m) = v s := by
  have own : ∀ (s : State) (dest : Nat) (b : Bytes), v (s.sendOwn dest 3 x b) = v s := fun s dest b => by
    unfold State.sendOwn
    split
    · rfl
    · exact kept s _ _ s.fab.sent s.fab.discards s.fab.discDest s.fab.discCause _ s.free
    · exact kept s _ s.fab.owns s.fab.sent _ _ _ _ s.free
  unfold State.sendMsg
  dsimp only
  rw [own]
  cases m <;> exact kept s s.fab.nextTid s.fab.owns _ s.fab.discards s.fab.discDest s.fab.discCause s.ports _

theorem State.sendStops_leaves {α : Type} (v : State → α)
    (kept : ∀ (s : State) tid owns sent discards dest cause ports free, v { s with
      fab := { s.fab with nextTid := tid, owns := owns, sent := sent, discards := discards, discDest := dest, discCause := cause }
      ports := ports, free := free } = v s) (s : State) : v s.sendStops = v s :=
  foldl_keeps v _ (fun _ _ => State.sendMsg_maint_leaves v kept ..) _ s

theorem State.setJob_job (s : State) (j : JobState) : (s.setJob j).job = { s.job with state := j } := by
  unfold State.setJob
  split
  next same => rw [← same]
  · rw [State.event_job]

theorem State.setJob_leaves {α : Type} {v : State → α} (aside : Aside v) (jobless : ∀ (s : State) j, v { s with job := j } = v s)
    (s : State) (j : JobState) : v (s.setJob j) = v s := by
  unfold State.setJob
  split
  · rfl
  · exact (aside.event ..).trans (jobless s _)

/-- What a job-fatal fault leaves alone besides what its event writes: everything but the job and its stop. -/
theorem State.jobFatal_leaves {α : Type} {v : State → α} (aside : Aside v)
    (apart : ∀ (s : State) job stop ticks pace, v { s with job := job, stop := stop, stopTicks := ticks, pace := pace } = v s)
    {s : State} (run : s.power.mode = .run) (code : Nat) (r : Option Nat) (a b : W64) (k n : Option Nat) :
    v (s.jobFatal code r a b k n) = v s := by
  have wake : s.wake = s := if_pos run
  unfold State.jobFatal
  rw [wake]
  dsimp only
  split
  · exact (apart ..).trans (aside.raiseCode ..)
  · exact aside.raiseCode ..

/-- What the stop leaves alone besides what the services write: everything but the job, the fabric, the queues and the free values. -/
theorem State.fatalStop_leaves {α : Type} {v : State → α} (aside : Aside v)
    (apart : ∀ (s : State) job fab queues free, v { s with job := job, fab := fab, queues := queues, free := free } = v s) (s : State) :
    v s.fatalStop = v s := by
  have fab : ∀ (s : State) f, v (s.withFab f) = v s := fun s f => apart s s.job f s.queues s.free
  have stops : ∀ s : State, v s.sendStops = v s := fun s => State.sendStops_leaves v
    (fun s _ _ _ _ _ _ ports free => (apart { s with ports := ports } s.job _ s.queues free).trans (aside.ports s ports)) s
  unfold State.fatalStop
  dsimp only
  split
  · rfl
  split
  · rfl
  rw [aside.casBoundary, aside.failCommands, State.setJob_leaves aside fun s j => apart s j s.fab s.queues s.free, fab,
    aside.flushChecks, aside.voidBlocks, aside.failRequests]
  split
  · exact apart s s.job _ _ s.free
  · exact (stops _).trans (apart s s.job _ _ s.free)

/-- The stop of a job under way: the job's state, and FENCE PORTS and SELF. -/
theorem State.fatalStop_shows {s : State} {x : StopInfo} (due : s.stop = some x) (active : s.job.state.active = true) :
    s.fatalStop.job = { s.job with state := if x.selfFence then .fenced else .faulted } ∧ s.fatalStop.fab.fence = 0xFFFF ∧
      s.fatalStop.fab.fenceSelf = true ∧ s.fatalStop.fab.launch = none ∧ s.fatalStop.fab.startAt = none := by
  obtain ⟨u, sent⟩ : ∃ u : State, u = if x.jobStopped then s.dropUnaccepted.fenceAll else s.dropUnaccepted.fenceAll.sendStops := ⟨_, rfl⟩
  have stops : ∀ {α : Type} (v : State → α), (∀ (s : State) tid owns sent discards dest cause ports free, v { s with
      fab := { s.fab with nextTid := tid, owns := owns, sent := sent, discards := discards, discDest := dest, discCause := cause }
      ports := ports, free := free } = v s) → v u = v s.dropUnaccepted.fenceAll := fun v kept => by
    rw [sent]
    split
    · rfl
    · exact State.sendStops_leaves v kept _
  obtain ⟨w, voided⟩ : ∃ w : State, w = (u.failRequests.voidBlocks u.job.fault.toNat).flushChecks := ⟨_, rfl⟩
  have wAside : ∀ {α : Type} (v : State → α), Aside v → v w = v u := fun v aside => by
    rw [voided, aside.flushChecks, aside.voidBlocks, aside.failRequests]
  have stop : s.fatalStop = (((w.withFab { w.fab with launch := none, startAt := none }).setJob
      (if x.selfFence then .fenced else .faulted)).failCommands).casBoundary := by
    unfold State.fatalStop
    rw [due]
    refine (if_neg (by simp [active])).trans ?_
    rw [voided, sent]
  have after : ∀ {α : Type} (v : State → α), Aside v → v s.fatalStop = v ((w.withFab { w.fab with launch := none, startAt := none }).setJob
      (if x.selfFence then .fenced else .faulted)) := fun v aside => by
    rw [stop, aside.casBoundary, aside.failCommands]
  have job : Aside State.job := ⟨⟨⟨fun _ _ _ => rfl⟩, fun _ _ _ => rfl⟩, fun _ _ _ _ => rfl⟩
  have fab : Aside State.fab := ⟨⟨⟨fun _ _ _ => rfl⟩, fun _ _ _ => rfl⟩, fun _ _ _ _ => rfl⟩
  have fences := after State.fab fab
  rw [State.setJob_fab] at fences
  have before := wAside State.fab fab
  refine ⟨?_, ?_, ?_, congrArg Fabric.launch fences, congrArg Fabric.startAt fences⟩
  · rw [after State.job job, State.setJob_job, State.withFab_job, wAside State.job job, stops State.job fun _ _ _ _ _ _ _ _ _ => rfl]
    rfl
  · exact (congrArg Fabric.fence fences).trans ((congrArg Fabric.fence before).trans
      (stops (fun s => s.fab.fence) fun _ _ _ _ _ _ _ _ _ => rfl))
  · exact (congrArg Fabric.fenceSelf fences).trans ((congrArg Fabric.fenceSelf before).trans
      (stops (fun s => s.fab.fenceSelf) fun _ _ _ _ _ _ _ _ _ => rfl))

end Sys2Proof.Machine

/-! PROOF. Register writes and the management ports (R9, R418, R420, R442 to R449, R454). -/
namespace Sys2Proof.Machine

/-! ### Register writes (R418) -/

theorem registerWrite_unaligned (s : State) (host : Bool) {addr size : Nat} (v : W64) (four : size ≠ 4 ∨ addr % 4 ≠ 0)
    (eight : size ≠ 8 ∨ addr % 8 ≠ 0) : exec (.registerWrite host addr size v) s = .next s := by
  simp only [exec, execRegisterWrite]
  split
  · rfl
  rw [if_neg (by simpa [imp_iff_not_or] using four), if_neg (by simpa [imp_iff_not_or] using eight)]

theorem registerWrite_word {s : State} (host : Bool) {addr : Nat} (v : W64) (hears : s.deaf = false) (aligned : addr % 4 = 0) :
    exec (.registerWrite host addr 4 v) s = wordWrite host addr (v.setWidth 32) s := by
  simp [exec, execRegisterWrite, hears, aligned]

theorem not_within {lo hi o : Nat} (out : o < lo ∨ hi ≤ o) : ¬ (decide (lo ≤ o) && decide (o < hi)) = true := by
  simp only [Bool.and_eq_true, decide_eq_true_eq]
  omega

theorem within {lo hi o : Nat} (low : lo ≤ o) (high : o < hi) : (decide (lo ≤ o) && decide (o < hi)) = true := by
  simp [low, high]

theorem bar0Write_mailbox {c o : Nat} (v : W32) (s : State) (there : c < 8) (low : o < 0x2000) :
    bar0Write (0x10000 + 0x2000 * c + o) v s = mailboxWrite c o v s := by
  have page : (0x10000 + 0x2000 * c + o - 0x10000) / 0x2000 = c := by omega
  have word : (0x10000 + 0x2000 * c + o) % 0x2000 = o := by omega
  rw [bar0Write, if_pos (within (by omega) (by omega)), page, word]

theorem bar0Write_rq {r o : Nat} (v : W32) (s : State) (there : r < 64) (low : o < 0x20) :
    bar0Write (0x20000 + 0x20 * r + o) v s = rqWrite r o v s := by
  have ring : (0x20000 + 0x20 * r + o - 0x20000) / 0x20 = r := by omega
  have word : (0x20000 + 0x20 * r + o) % 0x20 = o := by omega
  rw [bar0Write, if_neg (not_within (by omega)), if_pos (within (by omega) (by omega)), ring, word]

theorem bar0Write_cq {r o : Nat} (v : W32) (s : State) (there : r < 64) (low : o < 0x20) :
    bar0Write (0x20800 + 0x20 * r + o) v s = cqWrite r o v s := by
  have ring : (0x20800 + 0x20 * r + o - 0x20800) / 0x20 = r := by omega
  have word : (0x20800 + 0x20 * r + o) % 0x20 = o := by omega
  rw [bar0Write, if_neg (not_within (by omega)), if_neg (not_within (by omega)), if_pos (within (by omega) (by omega)), ring, word]

/-- A write of a register with a row of its own does what that row does (R311, R339, R441). -/
theorem registerWrite_rows {s : State} {r : Nat} (v : W64) (hears : s.deaf = false) (there : r < 64) :
    let w := v.setWidth 32
    exec (.registerWrite true (0x20008 + 32 * r) 4 v) s = exec (.rqCfg r w) s ∧
    exec (.registerWrite true (0x2000C + 32 * r) 4 v) s = exec (.rqTail r w) s ∧
    exec (.registerWrite true (0x20808 + 32 * r) 4 v) s = exec (.cqCfg r w) s ∧
    exec (.registerWrite true (0x2080C + 32 * r) 4 v) s = exec (.cqHead r w) s ∧
    exec (.registerWrite true 0x21008 4 v) s = exec (.recCfg w) s ∧ exec (.registerWrite true 0x2100C 4 v) s = exec (.recHead w) s ∧
    exec (.registerWrite true 0x21808 4 v) s = exec (.evlCfg w) s := by
  have word : ∀ a, a % 4 = 0 → exec (.registerWrite true a 4 v) s = bar0Write a (v.setWidth 32) s :=
    fun a aligned => registerWrite_word true v hears aligned
  refine ⟨?_, ?_, ?_, ?_, word 0x21008 rfl, word 0x2100C rfl, word 0x21808 rfl⟩
  · rw [word _ (by omega), show 0x20008 + 32 * r = 0x20000 + 0x20 * r + 8 by omega, bar0Write_rq _ s there (by omega)]
    rfl
  · rw [word _ (by omega), show 0x2000C + 32 * r = 0x20000 + 0x20 * r + 12 by omega, bar0Write_rq _ s there (by omega)]
    rfl
  · rw [word _ (by omega), show 0x20808 + 32 * r = 0x20800 + 0x20 * r + 8 by omega, bar0Write_cq _ s there (by omega)]
    rfl
  · rw [word _ (by omega), show 0x2080C + 32 * r = 0x20800 + 0x20 * r + 12 by omega, bar0Write_cq _ s there (by omega)]
    rfl

theorem registerWrite_doorbell {s : State} {ch : Nat} (v : W64) (hears : s.deaf = false) (there : ch < 8) :
    exec (.registerWrite true (0x10FF0 + 0x2000 * ch) 4 v) s = exec (.mbDoorbell ch (v.setWidth 32)) s := by
  rw [registerWrite_word true v hears (by omega), show 0x10FF0 + 0x2000 * ch = 0x10000 + 0x2000 * ch + 0xFF0 by omega]
  rw [wordWrite, if_pos rfl, bar0Write_mailbox _ s there (by omega), mailboxWrite, if_neg (by omega)]
  rfl

/-- Registers the management processor writes, and an address that names none. -/
theorem registerWrite_management {s : State} (v : W64) (hears : s.deaf = false) :
    exec (.registerWrite false 0x33000008 4 v) s = .next { s with power := { s.power with wakeBoundUs := (v.setWidth 32).toNat } } ∧
    exec (.registerWrite false 0x31000050 4 v) s =
      .next ({ s with fab := { s.fab with fence := bits (v.setWidth 32).toNat 15 0 } } : State).fenceSources ∧
    exec (.registerWrite false 0x2D000008 4 v) s = .next { s with pace := { s.pace with gearLead := v.setWidth 32 } } ∧
    exec (.registerWrite false 0x2F000004 4 v) s =
      .next { s with cas := { s.cas with faultValid := s.cas.faultValid && !bit (v.setWidth 32).toNat 24 } } ∧
    exec (.registerWrite false 0x2C000000 4 v) s = .next s := by
  have word : ∀ a, a % 4 = 0 → exec (.registerWrite false a 4 v) s = mpWrite a (v.setWidth 32) s :=
    fun a aligned => registerWrite_word false v hears aligned
  generalize v.setWidth 32 = w at *
  rw [word _ (by norm_num), word _ (by norm_num), word _ (by norm_num), word _ (by norm_num), word _ (by norm_num)]
  simp [mpWrite, pwrWrite, fabWrite, paceWrite, casWrite, State.withPower, State.withFab, State.withCas]

/-! ### Heartbeats (R442 to R444) -/

/-- Bytes 32 to 39 of a frame are the first of its body. -/
theorem sub_frameHead_body (typ port : Nat) (serial : Bytes) (seq : Nat) {time : Bytes} (eight : time.length = 8) (body mac : Bytes) :
    sub (frameHead typ port serial seq (time ++ body) ++ mac) 32 8 = time := by
  have head : (mgmtMagic ++ leBytes 1 typ ++ leBytes 1 port ++ leBytes 2 (time ++ body).length ++ padTo 16 serial ++ leBytes 8 seq).length =
      32 := by
    simp only [List.length_append, padTo_length]
    rfl
  rw [frameHead, List.append_assoc, sub_append_right (o := 0) (by rw [head]), List.append_assoc, sub_append_left (by omega), sub,
    List.drop_zero, ← eight, List.take_length]

theorem completes_heartbeat {s : State} {p : Nat} {f : Bytes} (there : p < 2) (running : s.sec.boot = .running)
    (ok : s.frameOk p 1 f (s.mgmtPort p).seqHeartbeat = true) (len : fld f 6 2 = 16) :
    completes (.heartbeat p f) s fun t =>
      t.host.fenceStart = s.gsc ∧ t.host.hbLost = false ∧ (t.mgmtPort p).hbValid = true ∧ (t.mgmtPort p).seqHeartbeat = fld f 24 8 ∧
      (∃ g, (t.mgmtPort p).tx = (s.mgmtPort p).tx ++ [g] ∧ sub g 0 6 = mgmtMagic ++ [2#8, BitVec.ofNat 8 p] ∧ sub g 32 8 = sub f 32 8) ∧
      t.mgmtPort (1 - p) = s.mgmtPort (1 - p) ∧ ({ t with host := s.host } : State) = s := by
  let u := s.setMgmtPort p { s.mgmtPort p with seqHeartbeat := fld f 24 8, hbValid := true, hbAt := s.gsc }
  let w : State := { u with host := { u.host with hbLost := false, fenceStart := s.gsc, hbEver := true } }
  have row : exec (.heartbeat p f) s = .next (w.sendFrame p 2 (w.hbReply (sub f 32 8))) :=
    (if_neg (by omega)).trans (if_neg (by simp [running, ok, len]))
  have port : w.mgmtPort p = { s.mgmtPort p with seqHeartbeat := fld f 24 8, hbValid := true, hbAt := s.gsc } :=
    State.mgmtPort_setMgmtPort ..
  have sent : (w.sendFrame p 2 (w.hbReply (sub f 32 8))).mgmtPort p = { w.mgmtPort p with
      ownSeq := (w.mgmtPort p).ownSeq + 1, tx := ((w.sendFrame p 2 (w.hbReply (sub f 32 8))).mgmtPort p).tx } := by
    rw [State.sendFrame, State.mgmtPort_setMgmtPort]
  have long : (sub f 32 8).length = 8 := by
    refine sub_length ?_
    have : f.length = 80 + fld f 6 2 := by
      unfold State.frameOk at ok
      simp only [Bool.and_eq_true, decide_eq_true_eq] at ok
      obtain ⟨⟨⟨⟨-, len⟩, -⟩, -⟩, -⟩ := ok
      exact len
    omega
  refine ⟨_, row, rfl, rfl, ?_, ?_, ⟨_, (State.sendFrame_tx ..).trans (by rw [port]), ?_, ?_⟩, ?_, rfl⟩
  · rw [sent, port]
  · rw [sent, port]
  · rw [sub_frameHead, Nat.mod_eq_of_lt (a := p) (by omega)]
  · simp only [State.hbReply, List.append_assoc]
    exact sub_frameHead_body 2 p _ _ long _ _
  · exact (State.mgmtPort_setMgmtPort_other _ _ (by omega)).trans (State.mgmtPort_setMgmtPort_other s _ (by omega))

/-- A port without a heartbeat for the window has none that is valid. -/
theorem completes_heartbeatWindow {s : State} {p : Nat} (there : p < 2) (valid : (s.mgmtPort p).hbValid = true) :
    completes (.heartbeatWindow p) s fun t => t.gsc = max s.gsc ((s.mgmtPort p).hbAt + s.hbWindow) ∧
      t.mgmtPort p = { s.mgmtPort p with hbValid := false } ∧ t.mgmtPort (1 - p) = s.mgmtPort (1 - p) ∧ t.job = s.job := by
  obtain ⟨n, reach, row⟩ : ∃ n, n = (s.mgmtPort p).hbAt + s.hbWindow ∧
      exec (.heartbeatWindow p) s = .next ((s.advanceTo n).setMgmtPort p { s.mgmtPort p with hbValid := false }) :=
    ⟨_, rfl, (if_neg (by omega)).trans (if_neg (by simp [valid]))⟩
  refine ⟨_, row, ?_, State.mgmtPort_setMgmtPort .., ?_, s.advanceTo_job n⟩
  · rw [← reach]
    exact s.advanceTo_gsc n
  · rw [State.mgmtPort_setMgmtPort_other _ _ (by omega), State.mgmtPort, State.advanceTo_host]
    rfl

/-! ### COMMAND frames (R445, R446) -/

/-- The command that frame `f` carries. -/
def frameCmd (f : Bytes) (gsc : Nat) : Cmd :=
  let b := sub f 32 (fld f 6 2)
  { opcode := fld b 0 2, length := fld b 2 2, reserved := fld b 4 4, tag := BitVec.ofNat 64 (fld b 8 8), payload := b.drop 16
    seq := BitVec.ofNat 32 (fld f 24 8), doorbellGsc := gsc, executing := false }

theorem commandFrame_refused {s : State} {p : Nat} {f : Bytes} (there : p < 2) (bad : s.frameOk p 3 f (s.mgmtPort p).seqCommand = false) :
    exec (.commandFrame p f) s = .next s :=
  (if_neg (by omega)).trans (if_pos (by simp [bad]))

/-- An accepted frame: the port has its SEQ, and the command is submitted unless the channel is busy. -/
theorem commandFrame_accepted {s : State} {p : Nat} {f : Bytes} (there : p < 2) (running : s.sec.boot = .running)
    (ok : s.frameOk p 3 f (s.mgmtPort p).seqCommand = true) (room : 16 ≤ fld f 6 2)
    (len : fld f 6 2 = 16 + fld (sub f 32 (fld f 6 2)) 2 2) (fits : fld (sub f 32 (fld f 6 2)) 2 2 ≤ 4064) :
    ∃ u, u = s.setMgmtPort p { s.mgmtPort p with seqCommand := fld f 24 8 } ∧ exec (.commandFrame p f) s =
      if (s.chan (8 + p)).busy then .next (u.setChan (8 + p) { s.chan (8 + p) with overrun := true })
      else .next (u.submit (8 + p) (frameCmd f s.gsc)) := by
  refine ⟨_, rfl, (if_neg (by omega)).trans (if_neg ?_)⟩
  have answers : s.answers (8 + p) = true := by simp [State.answers, running]
  simp only [answers, ok, Bool.not_true, Bool.false_or, Bool.or_eq_true, decide_eq_true_eq]
  omega

theorem State.raiseSource_chans (s : State) (n : Nat) (i : RaiseInfo) :
    (s.raiseSource n i).host.chans = s.host.chans ∧ (s.raiseSource n i).host.order = s.host.order ∧
      (s.raiseSource n i).host.mgmt = s.host.mgmt := by
  unfold State.raiseSource
  split <;> exact ⟨rfl, rfl, rfl⟩

/-- A defined command submitted on a channel that answers, with none waiting: it is the one whose turn is next. -/
theorem State.submit_first {s : State} {ch : Nat} {c : Cmd} (answers : s.answers ch = true) (empty : s.host.order = [])
    (known : opDefined c.opcode = true) :
    (s.submit ch c).host.order = [ch] ∧ (s.submit ch c).cmdOf ch = some c ∧ (s.submit ch c).host.mgmt = s.host.mgmt := by
  obtain ⟨w, put⟩ : ∃ w : State, w = s.setChan ch { s.chan ch with busy := true, done := false, cmd := some c } := ⟨_, rfl⟩
  have chan : w.chan ch = { s.chan ch with busy := true, done := false, cmd := some c } := put ▸ State.chan_setChan ..
  have order : w.host.order = [] := put ▸ empty
  obtain ⟨u, queued⟩ : ∃ u : State, u = { w with host := { w.host with order := w.host.order ++ [ch] } } := ⟨_, rfl⟩
  obtain ⟨i, info⟩ : ∃ i : RaiseInfo, i = { fault := false, gsc := u.gsc, arg0 := 0, arg1 := 0 } := ⟨_, rfl⟩
  have submit : s.submit ch c = (u.raiseSource ch i).answerUnknown 10 := by
    have : w.answers ch = true := put ▸ answers
    unfold State.submit
    rw [← put]
    simp only [this, if_true, info, queued]
  obtain ⟨chans, turn, mgmt⟩ := u.raiseSource_chans ch i
  have first : (u.raiseSource ch i).host.order = [ch] := by rw [turn, queued, order]; rfl
  have cmd : (u.raiseSource ch i).cmdOf ch = some c := by
    have : (u.raiseSource ch i).chan ch = w.chan ch := by rw [State.chan, chans, queued]; rfl
    rw [State.cmdOf, this, chan]
  rw [submit, State.answerUnknown_id 10 _ (.inr ⟨ch, [], c, first, cmd, known⟩)]
  exact ⟨first, cmd, mgmt.trans (by rw [queued, put]; rfl)⟩

/-! ### The fence timer (R447 to R449) -/

/-- The job's stop by SELF_FENCE. -/
theorem State.selfFence_shows {u : State} (run : u.power.mode = .run) (active : u.job.state.active = true) (first : u.job.fault = 0#16)
    (none : u.stop = .none) :
    ((u.jobFatal 0x0C02).fatalStop).job.state = .fenced ∧ ((u.jobFatal 0x0C02).fatalStop).job.fault = 0x0C02#16 ∧
    ((u.jobFatal 0x0C02).fatalStop).fab.fence = 0xFFFF ∧ ((u.jobFatal 0x0C02).fatalStop).fab.fenceSelf = true := by
  obtain ⟨fault, -, -⟩ := State.jobFatal_first run active first 0x0C02 .none
  have stop := State.jobFatal_stop u 0x0C02 .none 0 0 .none .none run
  have job := State.jobFatal_job u 0x0C02 .none 0 0 .none .none run
  rw [if_pos active, none] at stop
  rw [if_pos active] at job
  have still : (u.jobFatal 0x0C02).job.state.active = true := by
    rw [job, JobStatus.note_first first]
    exact active
  obtain ⟨state, fence, self, -, -⟩ := State.fatalStop_shows stop still
  rw [state]
  exact ⟨rfl, fault, fence, self⟩

/-- The module when the fence timer has reached the window, at `n`, before a job under way is fenced. -/
def State.fenceDue (s : State) (n : Nat) : State :=
  let a := s.advanceTo n
  let b := a.setMgmtPort 0 { a.mgmtPort 0 with hbValid := false }
  let c := b.setMgmtPort 1 { b.mgmtPort 1 with hbValid := false }
  { c with host := { c.host with hbLost := true } }.event 0x0C13

theorem fenceTimer_due {s : State} (unlost : s.host.hbLost = false) : ∃ u, u = s.fenceDue (s.host.fenceStart + s.hbWindow) ∧
    exec .fenceTimer s = .next (if u.fences then (u.jobFatal 0x0C02).fatalStop else u) := by
  refine ⟨_, rfl, ?_⟩
  have row : exec .fenceTimer s = execFenceTimer s := rfl
  rw [row, execFenceTimer, unlost]
  generalize s.host.fenceStart + s.hbWindow = n
  rfl

theorem State.fenceDue_frame (s : State) (n : Nat) : (s.fenceDue n).gsc = max s.gsc n ∧ (s.fenceDue n).cores = s.cores ∧
    (s.fenceDue n).job = s.job ∧ (s.fenceDue n).fab = s.fab ∧ (s.fenceDue n).stop = s.stop ∧
    (s.fenceDue n).power.mode = s.power.mode := by
  unfold State.fenceDue
  dsimp only
  rw [State.event_gsc, State.event_cores, State.event_job, State.event_fab, State.event_stop, State.event_power]
  exact ⟨s.advanceTo_gsc n, s.advanceTo_cores n, s.advanceTo_job n, s.advanceTo_fab n, s.advanceTo_stop n, s.advanceTo_power_mode n⟩

theorem State.fenceDue_host (s : State) (n : Nat) : (s.fenceDue n).host.hbLost = true ∧ ((s.fenceDue n).mgmtPort 0).hbValid = false ∧
    ((s.fenceDue n).mgmtPort 1).hbValid = false ∧ (s.fenceDue n).host.fenceMs = s.host.fenceMs := by
  obtain ⟨a, later⟩ : ∃ a : State, a = s.advanceTo n := ⟨_, rfl⟩
  obtain ⟨b, first⟩ : ∃ b : State, b = a.setMgmtPort 0 { a.mgmtPort 0 with hbValid := false } := ⟨_, rfl⟩
  obtain ⟨c, second⟩ : ∃ c : State, c = b.setMgmtPort 1 { b.mgmtPort 1 with hbValid := false } := ⟨_, rfl⟩
  have due : s.fenceDue n = { c with host := { c.host with hbLost := true } }.event 0x0C13 := by
    rw [second, first, later]
    rfl
  rw [due, State.mgmtPort, State.mgmtPort, State.event_host_mgmt, State.event_host_hbLost, State.event_host_fenceMs]
  have zero : c.mgmtPort 0 = { a.mgmtPort 0 with hbValid := false } := by
    rw [second, State.mgmtPort_setMgmtPort_other b _ (show 0 ≠ 1 by decide), first, State.mgmtPort_setMgmtPort]
  have one : c.mgmtPort 1 = { b.mgmtPort 1 with hbValid := false } := by rw [second, State.mgmtPort_setMgmtPort]
  rw [State.mgmtPort] at zero one
  refine ⟨rfl, ?_, ?_, ?_⟩
  · rw [zero]
  · rw [one]
  rw [second, first, later]
  exact (congrArg HostBlk.fenceMs (State.advanceTo_host ..) :)

theorem completes_fenceTimer {s : State} (unlost : s.host.hbLost = false) (run : s.power.mode = .run) (none : s.stop = .none) :
    completes .fenceTimer s fun t =>
      t.gsc = max s.gsc (s.host.fenceStart + s.hbWindow) ∧ t.host.hbLost = true ∧ (t.mgmtPort 0).hbValid = false ∧
      (t.mgmtPort 1).hbValid = false ∧ t.cores = s.cores ∧
      (s.host.fenceMs ≠ 0 → s.job.state.active = true → s.job.fault = 0#16 →
        t.job.state = .fenced ∧ t.job.fault = 0x0C02#16 ∧ t.fab.fence = 0xFFFF ∧ t.fab.fenceSelf = true) ∧
      (s.host.fenceMs = 0 ∨ s.job.state.active = false → t.job = s.job ∧ t.fab = s.fab) := by
  obtain ⟨u, due, row⟩ := fenceTimer_due unlost
  obtain ⟨gsc, cores, job, fab, stop, mode⟩ := due ▸ s.fenceDue_frame (s.host.fenceStart + s.hbWindow)
  obtain ⟨lost, zero, one, limit⟩ := due ▸ s.fenceDue_host (s.host.fenceStart + s.hbWindow)
  have run : u.power.mode = .run := mode.trans run
  refine ⟨_, row, ?_⟩
  by_cases fences : u.fences = true
  case neg =>
    rw [if_neg fences]
    refine ⟨gsc, lost, zero, one, cores, fun set active _ => absurd ?_ fences, fun _ => ⟨job, fab⟩⟩
    simp [State.fences, limit, job, set, active]
  case pos =>
    rw [if_pos fences]
    have due : u.host.fenceMs ≠ 0 ∧ u.job.state.active = true := by simpa [State.fences] using fences
    have keeps : ∀ {α : Type} (v : State → α), Aside v → (∀ (s : State) job fab queues free,
        v { s with job := job, fab := fab, queues := queues, free := free } = v s) →
        v (u.jobFatal 0x0C02).fatalStop = v (u.jobFatal 0x0C02) := fun v aside apart => State.fatalStop_leaves aside apart _
    have host : ∀ {α : Type} (f : HostBlk → α), Aside (fun s => f s.host) → f (u.jobFatal 0x0C02).fatalStop.host = f u.host :=
      fun f aside => (keeps (fun s => f s.host) aside fun _ _ _ _ _ => rfl).trans
        (State.jobFatal_leaves aside (fun _ _ _ _ _ => rfl) run ..)
    have valid : ∀ p, ((u.jobFatal 0x0C02).fatalStop.mgmtPort p).hbValid = (u.mgmtPort p).hbValid := fun p =>
      host (fun h => (h.mgmt.find .init p).hbValid) ⟨⟨⟨fun _ _ served => (congrArg MgmtPort.hbValid (served.2 p) :)⟩, fun _ _ _ => rfl⟩, fun _ _ _ _ => rfl⟩
    refine ⟨?_, ?_, (valid 0).trans zero, (valid 1).trans one, ?_, fun _ active first => ?_, fun idle => ?_⟩
    · exact (keeps State.gsc ⟨⟨⟨fun _ _ _ => rfl⟩, fun _ _ _ => rfl⟩, fun _ _ _ _ => rfl⟩ fun _ _ _ _ _ => rfl).trans
        ((State.jobFatal_gsc u 0x0C02 .none 0 0 .none .none run).trans gsc)
    · exact (host HostBlk.hbLost ⟨⟨⟨fun _ _ served => (congrArg HostBlk.hbLost served.1 :)⟩, fun _ _ _ => rfl⟩, fun _ _ _ _ => rfl⟩).trans lost
    · exact (keeps State.cores ⟨⟨⟨fun _ _ _ => rfl⟩, fun _ _ _ => rfl⟩, fun _ _ _ _ => rfl⟩ fun _ _ _ _ _ => rfl).trans
        ((State.jobFatal_cores ..).trans cores)
    · exact State.selfFence_shows run due.2 (job ▸ first) (stop.trans none)
    · rw [← limit, ← job] at idle
      exact absurd idle (by simp [due])

/-- Settles O43: each write by the register it reaches; a frame by the checks of R445; the fence timer's stop through what the stop of
a job-fatal fault shows and leaves. -/
theorem managementAndRegisters : Obligations.ManagementAndRegisters := by
  intro s
  refine ⟨fun host addr size v => registerWrite_unaligned s host v, fun deaf host addr size v => if_pos deaf,
    fun r v => registerWrite_rows v, fun ch v => registerWrite_doorbell v, fun v => registerWrite_management v, fun p f there => ?_,
    fun lost => if_pos lost, completes_fenceTimer, fun addr code k withPec => ?_, ?_⟩
  · refine ⟨fun bad => ?_, completes_heartbeat there, commandFrame_refused there, ?_,
      ?_, fun valid => ?_, fun lapsed => ?_⟩
    · refine (if_neg (by omega)).trans (if_pos ?_)
      rcases bad with boot | refused
      · simp [boot]
      · simp [refused]
    · intro running ok b room len fits busy
      obtain ⟨u, put, row⟩ := commandFrame_accepted there running ok room len fits
      rw [if_pos busy] at row
      refine ⟨_, row, by rw [State.chan_setChan], ?_, put ▸ rfl, ?_⟩
      · rw [put]
        exact congrArg MgmtPort.seqCommand (State.mgmtPort_setMgmtPort ..)
      · rw [State.cmdOf, State.chan_setChan]
        rfl
    · intro running ok b room len fits free empty known
      obtain ⟨u, put, row⟩ := commandFrame_accepted there running ok room len fits
      rw [if_neg (by simp [free])] at row
      have answers : u.answers (8 + p) = true := by
        rw [put]
        simp [State.answers, State.setMgmtPort, running]
      obtain ⟨order, cmd, mgmt⟩ := State.submit_first (s := u) (ch := 8 + p) (c := frameCmd f s.gsc) answers (put ▸ empty) known
      refine ⟨_, row, order, ?_, _, cmd, rfl, rfl, rfl, rfl⟩
      rw [State.mgmtPort, mgmt, put]
      exact congrArg MgmtPort.seqCommand (State.mgmtPort_setMgmtPort ..)
    · exact completes_heartbeatWindow there valid
    · exact (if_neg (by omega)).trans (if_pos (by simp [lapsed]))
  · refine ⟨_, rfl, rfl, fun none => ?_, fun b same on content => ?_⟩
    · dsimp only
      split
      next k' b found =>
        refine if_neg fun all => ?_
        simp only [Bool.and_eq_true, decide_eq_true_eq] at all
        obtain ⟨⟨there, -⟩, -⟩ := all
        rcases none with other | nothing
        · exact other there
        · rw [found] at nothing
          cases nothing
      · rfl
    · simp [content, same, on]
  · obtain ⟨n, reach, row⟩ : ∃ n, n = s.gsc + 25000000 ∧
        exec .smbusClockLowTimeout s = .next { s.advanceTo n with host := { s.host with smbData := none } } := ⟨_, rfl, rfl⟩
    refine ⟨_, row, ?_, rfl, s.advanceTo_job n⟩
    rw [← reach]
    exact (s.advanceTo_gsc n).trans (Nat.max_eq_right (by omega))

end Sys2Proof.Machine

/-! PROOF. The lane instructions, VSHUF, VRED and the conversions (R86, R104, R157 to R164). -/
namespace Sys2Proof.Machine

/-! ### One result on a unit (R104) -/

theorem chkUnit_of_free {s : State} {u c : Nat} (free : (s.core c).unitBusy u (s.tickOf c) = false) : chkUnit u c s = none := by
  simp [chkUnit, free]

/-- Core `c` with vector `v` on its way to register `vd` and unit `u` taken. -/
def vectorOut (s : State) (c vd lat u occ : Nat) (v : List W32) : Core :=
  { withResult s c (s.core c) (.v vd) (.v v) lat 2 with units := (s.core c).units.put u (s.tickOf c, occ) }

theorem putV_core (s : State) (c vd lat u occ : Nat) (v : List W32) : putV s c vd lat u occ v = s.setCore c (vectorOut s c vd lat u occ v) := by
  unfold putV
  dsimp only
  rw [Core.useUnit, Core.result_units, result_eq]
  rfl

/-- An instruction that puts one vector on its way completes on a free unit, and its core alone differs. -/
theorem completes_vector {i : Instr} {s : State} {c vd lat u occ : Nat} {op : SlotOp} {v w : List W32} (h : issues s c op)
    (free : (s.core c).unitBusy u (s.tickOf c) = false)
    (row : exec i s = onCore s c (issueSlot s c op (chkUnit u c s) (putV s c vd lat u occ v))) (value : v = w) :
    completes i s fun t => onlyCore s t c (vectorOut s c vd lat u occ w) :=
  ⟨_, row.trans (row_act h (chkUnit_of_free free) _), by rw [putV_core, value]; exact onlyCore_setCore s c _⟩

/-! ### The values of the lanes (R157 to R160) -/

theorem toNat_eq_zero {t : BitVec 2} : t.toNat = 0 ↔ t = 0#2 := by
  constructor
  · exact fun h => BitVec.eq_of_toNat_eq h
  · exact fun h => h ▸ rfl

theorem vaddLane_eq (t : BitVec 2) (a b : W32) : vaddLane t.toNat a b = if t ≠ 0#2 then a + b else fadd a b := by
  simp only [vaddLane, toNat_eq_zero, ne_eq, ite_not]

theorem vmulLane_eq (t : BitVec 2) (a b : W32) : vmulLane t.toNat a b = if t ≠ 0#2 then a * b else fmul a b := by
  simp only [vmulLane, toNat_eq_zero, ne_eq, ite_not]

theorem vfmaLane_eq (t : BitVec 2) (a b d : W32) : vfmaLane t.toNat a b d = if t ≠ 0#2 then a * b + d else ffma a b d := by
  simp only [vfmaLane, toNat_eq_zero, ne_eq, ite_not]

/-- The four types of a minimum: floating point, signed, and unsigned for the other two. -/
theorem vminLane_eq (t : BitVec 2) (a b : W32) : vminLane t.toNat a b =
    if t ≠ 0#2 then (if (if t = 1#2 then b.slt a else b.ult a) then b else a) else fmin a b := by
  rcases (by decide : ∀ t : BitVec 2, t = 0#2 ∨ t = 1#2 ∨ t = 2#2 ∨ t = 3#2) t with rfl | rfl | rfl | rfl <;>
    simp [vminLane, BitVec.slt, BitVec.ult]

theorem vmaxLane_eq (t : BitVec 2) (a b : W32) : vmaxLane t.toNat a b =
    if t ≠ 0#2 then (if (if t = 1#2 then a.slt b else a.ult b) then b else a) else fmax a b := by
  rcases (by decide : ∀ t : BitVec 2, t = 0#2 ∨ t = 1#2 ∨ t = 2#2 ∨ t = 3#2) t with rfl | rfl | rfl | rfl <;>
    simp [vmaxLane, BitVec.slt, BitVec.ult]

theorem shufLane_eq (k : Core) (f : ShufF) (l : Nat) : shufLane k f l =
    if f.mode = 0#2 then lane (k.rv f.va.toNat) ((lane (k.rv f.vb.toNat) l).toNat % 64)
    else if f.mode = 1#2 then lane (k.rv f.va.toNat) f.ln.toNat
    else if f.mode = 2#2 then (k.rs f.sa.toNat).truncate 32
    else (k.rs f.sa.toNat).truncate 32 + BitVec.ofNat 32 l := by
  unfold shufLane
  rcases (by decide : ∀ t : BitVec 2, t = 0#2 ∨ t = 1#2 ∨ t = 2#2 ∨ t = 3#2) f.mode with mode | mode | mode | mode <;> simp [mode]

theorem getLsbD_zero_iff (x : W32) : x.getLsbD 0 = true ↔ x.toNat % 2 = 1 := by
  rw [← bit_toNat]
  simp [bit]

/-! ### The reduction tree of integers (R86) -/

/-- A level of the tree keeps the sum and halves the length. -/
theorem pairUp_sum (n : Nat) (v : List W32) (even : v.length = 2 * n) : (pairUp (· + ·) v).sum = v.sum ∧ (pairUp (· + ·) v).length = n := by
  induction n generalizing v with
  | zero =>
    obtain rfl := List.length_eq_zero_iff.mp even
    exact ⟨rfl, rfl⟩
  | succ n ih =>
    match v, even with
    | a :: b :: v, even =>
      obtain ⟨sum, length⟩ := ih v (by simpa [Nat.mul_add] using even)
      simp only [pairUp, List.sum_cons, List.length_cons, sum, length, add_assoc, and_self]

/-- The tree over 2^n integers is one number, their sum. -/
theorem redTree_sum (n : Nat) (v : List W32) (length : v.length = 2 ^ n) : redTree (· + ·) n v = [v.sum] := by
  induction n generalizing v with
  | zero =>
    obtain ⟨a, rfl⟩ := List.length_eq_one_iff.mp length
    simp [redTree]
  | succ n ih =>
    obtain ⟨sum, half⟩ := pairUp_sum (2 ^ n) v (by rw [length, Nat.pow_succ']) 
    rw [redTree, ih _ half, sum]

theorem vred_integers {v : List W32} (length : v.length = 64) : vred (redOp 0 1) v = v.foldl (· + ·) 0#32 := by
  have op : redOp 0 1 = (· + ·) := rfl
  rw [vred, op, redTree_sum 6 v length, List.sum_eq_foldl]
  rfl

theorem lanes_const (x : W32) : lanes (fun _ => x) = List.replicate 64 x := by simp [lanes]

/-- Settles O13: every form is one vector on its way, whose lanes are the spec's by the lemmas above; VCMP adds its predicate, and
VRED's tree of integers is their sum. -/
theorem vectorLanes : Obligations.VectorLanes := by
  refine ⟨fun s c h free => ⟨fun f => ⟨?add, ?mul, ?fma, ?min, ?max, ?sel, ?cmp⟩, fun f hi => ?shuf, fun f hi => ?red⟩, fun v => vred_integers⟩
  case add => exact fun hi => completes_vector hi free rfl (congrArg lanes (funext fun l => vaddLane_eq f.t _ _))
  case mul => exact fun hi => completes_vector hi free rfl (congrArg lanes (funext fun l => vmulLane_eq f.t _ _))
  case fma => exact fun hi => completes_vector hi free rfl (congrArg lanes (funext fun l => vfmaLane_eq f.t _ _ _))
  case min => exact fun hi => completes_vector hi free rfl (congrArg lanes (funext fun l => vminLane_eq f.t _ _))
  case max => exact fun hi => completes_vector hi free rfl (congrArg lanes (funext fun l => vmaxLane_eq f.t _ _))
  case sel =>
    refine fun hi => completes_vector hi free rfl (congrArg lanes (funext fun l => ?_))
    simp only [getLsbD_zero_iff]
  case cmp =>
    intro hi
    refine ⟨_, row_act hi (chkUnit_of_free free) _, ?_⟩
    unfold doVcmp
    dsimp only
    rw [putV_core, State.core_setCore, result_eq]
    exact onlyCore_setCore2 s c _ _
  case shuf => exact completes_vector hi free rfl (congrArg lanes (funext fun l => shufLane_eq _ f l))
  case red => exact completes_vector hi free rfl (lanes_const _)

/-! ### Conversions (R162 to R164) -/

theorem lane_lanes (f : Nat → W32) (l : Nat) : lane (lanes f) l = if l < 64 then f l else 0#32 := by
  unfold lane lanes
  split
  next low => rw [List.getD_eq_getElem _ _ (by simpa using low)]; simp
  next high => exact List.getD_eq_default _ _ (by simpa using high)

theorem leNat_zeros (n : Nat) : leNat (zeros n) = 0 := by
  induction n with
  | zero => rfl
  | succ n ih =>
    have : zeros (n + 1) = 0#8 :: zeros n := rfl
    rw [this, leNat, ih]
    rfl

/-- A byte string that is not cut is followed by zeros. -/
theorem padTo_of_le {n : Nat} {b : Bytes} (fits : b.length ≤ n) : padTo n b = b ++ zeros (n - b.length) := by
  rw [padTo, List.take_of_length_le]
  · rfl
  · simp
    omega

theorem fld_padTo_low {n o k : Nat} {b : Bytes} (fits : b.length ≤ n) (low : o + k ≤ b.length) : fld (padTo n b) o k = fld b o k := by
  rw [fld, padTo_of_le fits, sub_append_left low]
  rfl

theorem fld_padTo_high {n o k : Nat} {b : Bytes} (fits : b.length ≤ n) (high : b.length ≤ o) : fld (padTo n b) o k = 0 := by
  have zero : sub (padTo n b) o k = zeros (min k (n - b.length - (o - b.length))) := by
    rw [padTo_of_le fits, sub_append_right (o := o - b.length) (by omega), sub, zeros, List.drop_replicate, List.take_replicate]
    rfl
  rw [fld, zero, leNat_zeros]

theorem vqntRow_length (k : Core) (f : CvtF) : (vqntRow k f).length = 64 := padTo_length 64 _

/-- Settles O14: each form is one vector on its way; a VQNT's row of 64 bytes is padded with zeros to the register. -/
theorem vectorConversions : Obligations.VectorConversions := by
  refine fun s c h => ⟨fun f hi free => completes_vector hi free rfl rfl, fun f hi free => ?_,
    fun f hi free => completes_vector hi free rfl rfl⟩
  obtain ⟨t, row, core⟩ := completes_vector (i := .vqnt c h f) (vd := f.vd.toNat) (lat := 6) (occ := 2)
    (v := bytesLanes (padTo 256 (vqntRow (s.core c) f))) hi free rfl rfl
  have fits : (vqntRow (s.core c) f).length ≤ 256 := by simp [vqntRow_length]
  refine ⟨t, row, _, core, fun l high => ?_, fun l low => ?_⟩
  · rw [bytesLanes, lane_lanes]
    split
    · rw [fld_padTo_high fits (by rw [vqntRow_length]; omega)]
    · rfl
  · rw [bytesLanes, lane_lanes, if_pos (by omega), fld_padTo_low fits (by rw [vqntRow_length]; omega)]

end Sys2Proof.Machine

/-! PROOF. The feed state, MCLR, MMODE, the commit of an accumulator, MOUT (R104, R114, R143, R148 to R152). -/
namespace Sys2Proof

/-- A key outside the list keeps its value when the listed ones are deleted; a listed one reads the default. -/
theorem Map.find_foldl_del {α : Type} (m : Map α) (d : α) (l : List Nat) (k : Nat) :
    (l.foldl (fun m a => Map.del m a) m).find d k = if k ∈ l then d else m.find d k := by
  induction l generalizing m with
  | nil => simp
  | cons a l ih =>
    rw [List.foldl_cons, ih]
    by_cases same : k = a
    · subst same
      simp [Map.find_del_same]
    · simp [same, Map.find_del_other _ _ same]

end Sys2Proof

namespace Sys2Proof.Machine

/-! ### Addresses -/

theorem clearLow_eq (x m : Nat) : clearLow x m = x / m * m := by
  unfold clearLow
  have := Nat.div_add_mod x m
  rw [Nat.mul_comm] at this
  omega

theorem Core.aLine_eq (k : Core) (n : Nat) : k.aLine n = (k.ra n).toNat / 64 * 64 := clearLow_eq _ _

theorem completes_mcfg {s : State} {c : Nat} {h : Hdr} {f : McfgF} (hi : issues s c (.mx h (.mcfg f))) :
    let k := s.core c
    let line (n : BitVec 4) : Nat := (k.ra n.toNat).toNat / 64 * 64
    completes (.mcfg c h f) s fun t => onlyCore s t c
      { k with feedCfg := { lfmt := f.lfmt.toNat, rfmt := f.rfmt.toNat, fl := line f.al, fr := line f.ar
                            fls := if f.pair4 then line f.als else k.feedCfg.fls
                            frs := if f.pair4 then line f.ars else k.feedCfg.frs, kc := 0 } } := by
  intro k line
  refine ⟨_, row_act hi rfl _, ?_⟩
  rw [doMcfg, Core.aLine_eq, Core.aLine_eq, Core.aLine_eq, Core.aLine_eq]
  exact onlyCore_setCore s c _

/-! ### MCLR (R148) -/

theorem mem_maskAccs {m : BitVec 4} {a : Nat} : a ∈ maskAccs m ↔ a < 4 ∧ m.getLsbD a = true := by
  simp [maskAccs]

theorem chkMclr_of_closed {s : State} {c : Nat} {m : BitVec 4} (closed : ∀ a, a < 4 → m.getLsbD a = true → (s.core c).work.has a = false) :
    chkMclr m c s = none := by
  refine if_neg ?_
  rw [List.any_eq_true]
  rintro ⟨a, named, opened⟩
  obtain ⟨low, set⟩ := mem_maskAccs.mp named
  simp [Core.workOf, closed a low set] at opened

theorem completes_mclr {s : State} {c : Nat} {h : Hdr} {m : BitVec 4} (hi : issues s c (.mx h (.mclr m)))
    (closed : ∀ a, a < 4 → m.getLsbD a = true → (s.core c).work.has a = false) :
    let k := s.core c
    completes (.mclr c h m) s fun t =>
      (∀ a e, a < 4 → eltAt ((t.core c).accElts a) s.exact (e / 64) (e % 64) =
        if m.getLsbD a then Elt.clear s.exact else eltAt (k.accElts a) s.exact (e / 64) (e % 64)) ∧
      (∀ r, r ∈ (t.core c).parity ↔ r ∈ k.parity ∧ ∀ a, a < 4 → m.getLsbD a = true → r ≠ .acc a) ∧
      onlyCore s t c { k with acc := (t.core c).acc, parity := (t.core c).parity } := by
  intro k
  refine ⟨_, row_act hi (chkMclr_of_closed closed) _, ?_⟩
  unfold doMclr
  dsimp only
  rw [State.core_setCore]
  refine ⟨fun a e low => ?_, fun r => ?_, onlyCore_setCore s c _⟩
  · have named : a ∈ maskAccs m ↔ m.getLsbD a = true := by rw [mem_maskAccs, and_iff_right low]
    rw [Core.accElts, Map.find_foldl_del]
    by_cases set : m.getLsbD a = true
    · rw [if_pos (named.mpr set), if_pos set]
      rfl
    · rw [if_neg (named.not.mpr set), if_neg set]
      rfl
  · rw [List.mem_filter]
    refine and_congr_right fun _ => ?_
    simp only [Bool.not_eq_true', List.contains_eq_mem, decide_eq_false_iff_not, List.mem_map, mem_maskAccs, not_exists, not_and, and_imp]
    exact ⟨fun none a low set same => none a low set same.symm, fun other a low set same => other a low set same.symm⟩

/-! ### ACCUMULATOR_COMMIT (R114) -/

theorem completes_accumulatorCommit {s : State} {c a e : Nat} {w : Work} (there : s.hasCore c = true) (opened : (s.core c).workOf a = some w)
    (ended : w.ends = some e) :
    let k := s.core c
    completes (.accumulatorCommit c a) s fun t =>
      if e + 6 ≤ s.tickOf c then
        onlyCore s t c { k with acc := k.acc.put a w.elts, work := k.work.del a, parity := k.parity.filter fun q => q != .acc a } ∧
          (t.core c).accElts a = w.elts
      else t = s := by
  intro k
  refine ⟨_, onCore_next _ _ _ there, ?_⟩
  have due : (s.core c).commitDue a (s.tickOf c) = decide (e + 6 ≤ s.tickOf c) := by simp [Core.commitDue, opened, ended]
  simp only [doCommit, due, decide_eq_true_eq]
  split
  · refine ⟨?_, ?_⟩
    · rw [Core.commitAcc, opened]
      exact onlyCore_setCore s c _
    · rw [State.core_setCore, Core.commitAcc, opened]
      exact Map.find_put_same ..
  · rfl

/-! ### MOUT (R149 to R151) -/

theorem moutAddr_eq (k : Core) (f : MoutF) (r : Nat) :
    moutAddr k f r = (k.ra f.d.toNat).toNat / 64 * 64 + r * 64 * 2 ^ f.pitch.toNat := by rw [moutAddr, Core.aLine_eq]

theorem chkMout_of_fits {s : State} {c : Nat} {f : MoutF} (free : (s.core c).unitBusy unitReadout (s.tickOf c) = false)
    (fits : f.fmt = 8#4 → ∀ r j, r < f.rows → j < 64 →
      (eltAt ((s.core c).accElts f.acc.toNat) s.exact (f.row0.toNat + r) j).overflows = false)
    (inside : f.dst = true → ∀ r, r < f.rows →
      ((s.core c).ra f.d.toNat).toNat / 64 * 64 + r * 64 * 2 ^ f.pitch.toNat + moutBytes f.fmt.toNat ≤ 0x200000) :
    chkMout f c s = none := by
  have size : wsSize = 0x200000 := rfl
  simp only [chkMout, ite_some_eq_none_iff, free, Bool.false_eq_true, not_false_eq_true, true_and, Bool.and_eq_true, decide_eq_true_eq,
    List.any_eq_true, List.mem_range, moutAddr_eq, size, and_true]
  refine ⟨?_, ?_⟩
  · rintro ⟨long, e, low, exceeds⟩
    rw [fits long (e / 64) (e % 64) (by omega) (by omega)] at exceeds
    exact Bool.false_ne_true exceeds
  · rintro ⟨store, r, low, past⟩
    exact absurd (inside store r low) (by omega)

/-- Core `k` while MOUT takes the readout port, its random stream advanced. -/
def Core.readingOut (k : Core) (f : MoutF) (T : Nat) : Core :=
  { k with units := k.units.put unitReadout (T, if f.fmt = 8#4 then 20 * f.rows else f.rows)
           mDraw := if f.rm = 2#2 then k.mDraw + BitVec.ofNat 32 (16 * f.rows) else k.mDraw }

/-- Results to vector registers in order, each at its tick. -/
theorem Core.result_foldl_vectors (k : Core) (n d T : Nat) (v : Nat → List W32) :
    (List.range n).foldl (fun q r => q.result (.v (d + r)) (.v (v r)) (T + 4 + r) T 1) k =
      { k with wb := k.wb ++ (List.range n).map fun r => { reg := .v (d + r), val := .v (v r), due := T + 4 + r, issue := T, slot := 1 } } := by
  induction n with
  | zero => simp
  | succ n ih => rw [List.range_succ, List.foldl_append, ih]; simp [Core.result]

/-- MOUT: the core it leaves, by the kind of its destination. -/
theorem doMout_core (f : MoutF) (c : Nat) (s : State) : doMout f c s = s.setCore c
    (if f.dst then ((s.core c).readingOut f (s.tickOf c)).addOp .store (s.tickOf c) 1 .mout (moutPieces (s.core c) s f (s.tickOf c))
    else { (s.core c).readingOut f (s.tickOf c) with wb := (s.core c).wb ++ (List.range f.rows).map fun r =>
      { reg := .v (f.d.toNat + r), val := .v (moutLanes (s.core c) s f r), due := s.tickOf c + 4 + r, issue := s.tickOf c, slot := 1 } }) := by
  have taken : (if f.rm = 2#2 then { (s.core c).useUnit unitReadout (s.tickOf c) (if f.fmt = 8#4 then 20 * f.rows else f.rows) with
      mDraw := (s.core c).mDraw + BitVec.ofNat 32 (16 * f.rows) }
      else (s.core c).useUnit unitReadout (s.tickOf c) (if f.fmt = 8#4 then 20 * f.rows else f.rows)) =
      (s.core c).readingOut f (s.tickOf c) := by
    unfold Core.readingOut
    split <;> rfl
  unfold doMout
  dsimp only
  rw [Core.result_foldl_vectors]
  rw [show ∀ n, ((s.core c).useUnit unitReadout (s.tickOf c) n).mDraw = (s.core c).mDraw from fun _ => rfl, taken]
  rfl

/-- The pieces of an MOUT to the working store. -/
theorem mem_moutPieces {k : Core} {s : State} {f : MoutF} {T : Nat} {p : Nat × Nat × Nat × Option Bytes × Nat} :
    p ∈ moutPieces k s f T ↔ ∃ r i, r < f.rows ∧ i < moutBytes f.fmt.toNat / 64 ∧
      p = ((if f.fmt = 8#4 then T + 4 + 20 * r + i / 4 else T + 4 + r),
        (k.ra f.d.toNat).toNat / 64 * 64 + r * 64 * 2 ^ f.pitch.toNat + 64 * i, 64, some (sub (moutRow k s f r) (64 * i) 64),
        moutBytes f.fmt.toNat * r + 64 * i) := by
  simp only [moutPieces, List.mem_flatMap, List.mem_range, List.mem_map, moutAddr_eq]
  constructor
  · rintro ⟨r, row, i, piece, rfl⟩
    exact ⟨r, i, row, piece, rfl⟩
  · rintro ⟨r, i, row, piece, rfl⟩
    exact ⟨r, row, i, piece, rfl⟩

/-- Settles O11: each form is one write of its core; MOUT's results and pieces are those of its rows in order. -/
theorem matrixStateAndReadout : Obligations.MatrixStateAndReadout := by
  refine ⟨fun s c h => ⟨fun f => completes_mcfg, fun m => completes_mclr, fun f hi => ⟨_, row_act hi rfl _, onlyCore_setCore s c _⟩,
    fun a w e there opened ended => completes_accumulatorCommit there opened ended⟩, ?_⟩
  intro s c h f hi k T free fits inside
  refine ⟨_, row_act hi (chkMout_of_fits free fits inside) _, ?_⟩
  rw [doMout_core]
  dsimp only
  rw [State.core_setCore]
  obtain ⟨-, others, frame⟩ := onlyCore_setCore s c (if f.dst then
    ((s.core c).readingOut f (s.tickOf c)).addOp .store (s.tickOf c) 1 .mout (moutPieces (s.core c) s f (s.tickOf c))
    else { (s.core c).readingOut f (s.tickOf c) with wb := (s.core c).wb ++ (List.range f.rows).map fun r =>
      { reg := .v (f.d.toNat + r), val := .v (moutLanes (s.core c) s f r), due := s.tickOf c + 4 + r, issue := s.tickOf c, slot := 1 } })
  refine ⟨others, frame, ?_⟩
  cases dst : f.dst with
  | false => exact ⟨rfl, rfl, fun _ => ⟨rfl, rfl⟩, nofun, rfl, rfl, rfl, rfl, rfl, rfl, rfl, rfl, rfl, rfl⟩
  | true =>
    refine ⟨rfl, rfl, nofun, fun _ => ⟨rfl, fun p => ?_⟩, rfl, rfl, rfl, rfl, rfl, rfl, rfl, rfl, rfl, rfl⟩
    refine List.mem_append.trans (or_congr Iff.rfl (List.mem_map.trans ?_))
    constructor
    · rintro ⟨q, made, rfl⟩
      obtain ⟨r, i, row, piece, rfl⟩ := mem_moutPieces.mp made
      exact ⟨r, i, row, piece, rfl⟩
    · rintro ⟨r, i, row, piece, rfl⟩
      exact ⟨_, mem_moutPieces.mpr ⟨r, i, row, piece, rfl⟩, rfl⟩

end Sys2Proof.Machine

/-! PROOF. MMA and MMAG: the array taken, and one k-group (R76, R77, R113 to R115, R145 to R147). -/
namespace Sys2Proof

/-- A table written out for the keys below `n`. -/
theorem Map.find_range {α : Type} (f : Nat → α) (d : α) {n k : Nat} (there : k < n) :
    Map.find ((List.range n).map fun e => (e, f e)) d k = f k := by
  have general : ∀ l : List Nat, k ∈ l → Map.find (l.map fun e => (e, f e)) d k = f k := by
    intro l
    induction l with
    | nil => exact nofun
    | cons a l ih =>
      intro listed
      by_cases same : a = k
      · simp [Map.find, same]
      · have later : k ∈ l := by simpa [Ne.symm same] using listed
        simpa [Map.find, same] using ih later
  exact general _ (List.mem_range.mpr there)

end Sys2Proof

namespace Sys2Proof.Machine

/-! ### The checks (R102, R114, R146) -/

theorem chkMatrix_of_zero (acc m c : Nat) (s : State) : chkMatrix acc m 0 c s = none := by
  unfold chkMatrix
  exact if_pos rfl

theorem chkMatrix_of_parity {s : State} {c acc m n : Nat} (some : 0 < n) (closed : (s.core c).workOf acc = none)
    (bad : Reg.acc acc ∈ (s.core c).parity) : chkMatrix acc m n c s = .some fRegParity := by
  unfold chkMatrix
  dsimp only
  rw [if_neg (by omega), if_pos (by simp [closed, bad])]

theorem chkMatrix_of_free {s : State} {c acc m n : Nat} (free : (s.core c).feed = none)
    (goes : ((s.core c).workOf acc = none ∧ Reg.acc acc ∉ (s.core c).parity) ∨
      ∃ w, (s.core c).workOf acc = some w ∧ w.ends = some (s.tickOf c))
    (inside : feedInWs (s.core c).feedCfg m n = true) : chkMatrix acc m n c s = none := by
  unfold chkMatrix
  dsimp only
  split
  · rfl
  rcases goes with ⟨closed, good⟩ | ⟨w, opened, ended⟩
  · simp [closed, good, free, inside]
  · simp [opened, free, inside, Core.chained, ended]

/-! ### The array taken (R145, R147) -/

/-- The feed that an instruction on accumulator `a` starts. -/
def Core.feedOf (k : Core) (a : Nat) (sel : Option (List Nat)) (n : Nat) (exact : Bool) : Feed :=
  { cfg := k.feedCfg, acc := a, sel := sel, k := n, ticks := k.feedCfg.cls.g exact * (if sel.isSome then 2 else 1), group := 0, tickIn := 0
    todo := [], started := false, got := [], lscale := [], rscale := [] }

/-- The working copy it goes on with, or opens with the committed elements. -/
def Core.opening (k : Core) (a : Nat) : Work := { (k.workOf a).getD { elts := k.accElts a, ends := none } with ends := none }

theorem startFeed_core {s : State} {c n : Nat} (a : Nat) (sel : Option (List Nat)) (some : 0 < n) :
    startFeed a sel n c s = s.setCore c { s.core c with
      feed := .some ((s.core c).feedOf a sel n s.exact), work := (s.core c).work.put a ((s.core c).opening a)
      feedCfg := { (s.core c).feedCfg with
        fl := (s.core c).feedCfg.fl + (s.core c).feedCfg.cls.lineBytes * n
        fr := (s.core c).feedCfg.fr + (s.core c).feedCfg.cls.lineBytes * (if sel.isSome then 4 else 1) * n
        kc := (s.core c).feedCfg.kc + n } } := by
  unfold startFeed
  exact if_neg (by omega)

theorem startFeed_zero (a : Nat) (sel : Option (List Nat)) (c : Nat) (s : State) : startFeed a sel 0 c s = s := by
  unfold startFeed
  exact if_pos rfl

/-- The elements with which the copy opens. -/
theorem Core.opening_elts (k : Core) (a : Nat) :
    (k.opening a).elts = match k.workOf a with | some v => v.elts | none => k.accElts a := by
  unfold Core.opening
  cases k.workOf a <;> rfl

section

variable {i : Instr} {s : State} {c a n : Nat} {h : Hdr} {op : MxOp} {sel : Option (List Nat)}

/-- A count of 0 performs nothing. -/
theorem completes_matrix_zero (hi : issues s c (.mx h op)) (m : Nat)
    (row : exec i s = onCore s c (issueSlot s c (.mx h op) (chkMatrix a m n c s) (startFeed a sel n c s))) (zero : n = 0) :
    completes i s fun t => t = s := by
  subst zero
  exact ⟨_, row.trans (row_act hi (chkMatrix_of_zero a m c s) _), startFeed_zero a sel c s⟩

/-- A chain's first instruction reads the accumulator. -/
theorem completes_matrix_parity (hi : issues s c (.mx h op)) (m : Nat)
    (row : exec i s = onCore s c (issueSlot s c (.mx h op) (chkMatrix a m n c s) (startFeed a sel n c s))) (some : 0 < n)
    (closed : (s.core c).workOf a = none) (bad : Reg.acc a ∈ (s.core c).parity) :
    completes i s fun t => t = s.coreFault c 1 0x0108 :=
  ⟨_, row.trans (row_fault hi (chkMatrix_of_parity some closed bad) _), rfl⟩

/-- The array is taken. -/
theorem completes_matrix_free (hi : issues s c (.mx h op)) (m : Nat)
    (row : exec i s = onCore s c (issueSlot s c (.mx h op) (chkMatrix a m n c s) (startFeed a sel n c s))) (some : 0 < n)
    (free : (s.core c).feed = none)
    (goes : ((s.core c).workOf a = none ∧ Reg.acc a ∉ (s.core c).parity) ∨
      ∃ w, (s.core c).workOf a = .some w ∧ w.ends = .some (s.tickOf c))
    (inside : feedInWs (s.core c).feedCfg m n = true) :
    completes i s fun t => onlyCore s t c { s.core c with
      feed := .some ((s.core c).feedOf a sel n s.exact), work := (s.core c).work.put a ((s.core c).opening a)
      feedCfg := { (s.core c).feedCfg with
        fl := (s.core c).feedCfg.fl + (s.core c).feedCfg.cls.lineBytes * n
        fr := (s.core c).feedCfg.fr + (s.core c).feedCfg.cls.lineBytes * (if sel.isSome then 4 else 1) * n
        kc := (s.core c).feedCfg.kc + n } } := by
  refine ⟨_, row.trans (row_act hi (chkMatrix_of_free free goes inside) _), ?_⟩
  rw [startFeed_core a sel some]
  exact onlyCore_setCore s c _

end

/-! ### One k-group (R76, R77, R115) -/

theorem eltAt_groupElts (fd : Feed) (exact : Bool) (elts : Map Elt) (left : Bytes) (rights : List Bytes) {i j : Nat} (row : i < 64)
    (col : j < 64) :
    eltAt (groupElts fd exact elts left rights) exact i j =
      let r := match fd.sel with | none => 0 | some l => l.getD i 4
      if 4 ≤ r then eltAt elts exact i j
      else (eltAt elts exact i j).step (groupProds fd.cfg left fd.lscale (rights.getD r []) (fd.rscale.getD r []) i j) := by
  have i_eq : (64 * i + j) / 64 = i := by omega
  have j_eq : (64 * i + j) % 64 = j := by omega
  unfold groupElts
  rw [eltAt, Map.find_range _ _ (by omega)]
  dsimp only
  rw [i_eq, j_eq] <;> rfl

/-- The selectors that MMAG latches. -/
theorem selectors_getD (v : List W32) {i : Nat} (low : i < 64) :
    ((List.range 64).map fun i => (lane v i).toNat % 8).getD i 0 = (lane v i).toNat % 8 := by
  rw [List.getD_eq_getElem _ _ (by simpa using low)]
  simp

/-- Settles O12: the checks by their order, the array taken as one write of the core, and the table of elements read at its place. -/
theorem matrixMultiply : Obligations.MatrixMultiply := by
  refine ⟨⟨fun s c h f hi => ⟨completes_matrix_zero hi 1 rfl, completes_matrix_parity hi 1 rfl, fun some free goes inside => ?_⟩,
    fun s c h f hi => ⟨completes_matrix_zero hi 4 rfl, completes_matrix_parity hi 4 rfl, fun some free goes inside => ?_⟩⟩,
    fun fd exact elts left rights i j => eltAt_groupElts fd exact elts left rights⟩
  · obtain ⟨t, row, only⟩ := completes_matrix_free hi 1 (i := .mma c h f) (sel := none) rfl some free goes inside
    simp only [Option.isSome_none, Bool.false_eq_true, if_false, Nat.mul_one] at only
    exact ⟨t, row, _, _, only, rfl, rfl, rfl, rfl, rfl, Nat.mul_one _, rfl, Core.opening_elts ..⟩
  · obtain ⟨t, row, only⟩ := completes_matrix_free hi 4 (i := .mmag c h f) rfl some free goes inside
    exact ⟨t, row, _, _, only, rfl, rfl, rfl, rfl, rfl, rfl, fun i => selectors_getD _, Core.opening_elts ..⟩

end Sys2Proof.Machine

/-! PROOF. SSR, SSW, MSEND, MRECV and GATH (R104, R119, R171 to R176). -/
namespace Sys2Proof.Machine

theorem line128_eq (x : Nat) : line128 x = x / 128 * 128 := clearLow_eq x 128

/-- A stacked address of 35 bits is a slice and an offset in it (R171). -/
theorem stackAddr_of_lt {a : BitVec 40} (low : a.toNat < 2 ^ 35) : stackAddr a = some (a.toNat / 2 ^ 27, a.toNat % 2 ^ 27) :=
  if_pos (Nat.div_eq_of_lt low)

/-- The conditions under which SSR and SSW make their access (R171 to R173). -/
structure State.mayMove (s : State) (c : Nat) (f : SsF) (write : Bool) : Prop where
  address : ((s.core c).ra f.as.toNat).toNat < 2 ^ 35
  stack : s.stackOk c (((s.core c).ra f.as.toNat).toNat / 2 ^ 27) (((s.core c).ra f.as.toNat).toNat % 2 ^ 27 / 128 * 128)
    (128 * f.nl.toNat) write = true
  store : ((s.core c).ra f.aw.toNat).toNat / 128 * 128 + 128 * f.nl.toNat ≤ 0x200000
  own : f.rem = false → ((s.core c).ra f.as.toNat).toNat / 2 ^ 27 = c
  remote : f.rem = true → ((s.core c).ra f.as.toNat).toNat / 2 ^ 27 ≠ c ∧ s.routeOk c f.rt.toNat = true ∧
    ∃ r, s.route c f.rt.toNat = some r ∧ r.ep = false ∧ r.dest = ((s.core c).ra f.as.toNat).toNat / 2 ^ 27

theorem chkSs_of_mayMove {s : State} {c : Nat} {f : SsF} {write : Bool} (may : s.mayMove c f write) : chkSs f write c s = none := by
  obtain ⟨address, stack, store, own, remote⟩ := may
  have size : wsSize = 0x200000 := rfl
  have fits : ¬ 0x200000 < ((s.core c).ra f.aw.toNat).toNat / 128 * 128 + 128 * f.nl.toNat := by omega
  unfold chkSs
  simp only [stackAddr_of_lt address, line128_eq, size, stack]
  generalize ((s.core c).ra f.as.toNat).toNat / 2 ^ 27 = slice at *
  cases rem : f.rem with
  | false => simp [fits, own rem]
  | true =>
    obtain ⟨other, ok, r, route, inside, dest⟩ := remote rem
    simp [fits, route, inside, dest, ok, other]

/-! ### What the forms put on their way -/

theorem doSsr_own {s : State} {c : Nat} {f : SsF} (address : ((s.core c).ra f.as.toNat).toNat < 2 ^ 35) (own : f.rem = false) :
    doSsr f c s = { s.setCore c ((s.core c).addLineOp (.ssrOwn (((s.core c).ra f.aw.toNat).toNat / 128 * 128) f.nl.toNat) (s.tickOf c)
        f.nl.toNat) with
      ssLines := s.ssLines ++ (List.range f.nl.toNat).map fun i => ssLineOf c (s.tickOf c + 4) 2 (s.tickOf c) c (s.core c).nextOp
        (((s.core c).ra f.as.toNat).toNat % 2 ^ 27 / 128 * 128 + 128 * i) none i } := by
  simp [doSsr, stackAddr_of_lt address, line128_eq, own]

theorem doSsr_remote {s : State} {c : Nat} {f : SsF} (address : ((s.core c).ra f.as.toNat).toNat < 2 ^ 35) (remote : f.rem = true) :
    doSsr f c s = { s.setCore c ((s.core c).addLineOp (.ssrRemote (((s.core c).ra f.aw.toNat).toNat / 128 * 128)) (s.tickOf c) 1) with
      ssLines := s.ssLines ++ [ssLineOf (((s.core c).ra f.as.toNat).toNat / 2 ^ 27) (s.tickOf c + 4 + s.routeDelay c f.rt.toNat) 1
        (s.tickOf c) c (s.core c).nextOp (((s.core c).ra f.as.toNat).toNat % 2 ^ 27 / 128 * 128) none 0] } := by
  simp [doSsr, stackAddr_of_lt address, line128_eq, remote]

theorem doSsw_core {s : State} {c : Nat} {f : SsF} (address : ((s.core c).ra f.as.toNat).toNat < 2 ^ 35) :
    doSsw f c s = s.setCore c ((s.core c).addOp
      (if f.rem then .sswRemote (((s.core c).ra f.as.toNat).toNat / 2 ^ 27) (((s.core c).ra f.as.toNat).toNat % 2 ^ 27 / 128 * 128)
        (s.tickOf c + 4 + s.routeDelay c f.rt.toNat) else .sswOwn (((s.core c).ra f.as.toNat).toNat % 2 ^ 27 / 128 * 128) f.nl.toNat)
      (s.tickOf c) 4 .outbound (readRows (s.tickOf c + 1) (((s.core c).ra f.aw.toNat).toNat / 128 * 128) (2 * f.nl.toNat))) := by
  simp [doSsw, stackAddr_of_lt address, line128_eq]

/-- An operation of reads takes one number and adds its pieces at the end. -/
theorem Core.addOp_reads (k : Core) (kind : OpKind) (T a n : Nat) :
    k.addOp kind T 4 .outbound (readRows (T + 1) a n) = { k with
      nextOp := k.nextOp + 1
      ops := k.ops.put k.nextOp { kind := kind, issue := T, slot := 4, left := n, delay := 0, data := [] }
      pieces := k.pieces ++ (List.range n).map fun i =>
        { op := k.nextOp, tick := T + 1, cls := .outbound, issue := T, addr := a + 64 * i, len := 64, write := none, off := 64 * i
          defers := 0 } } := by
  simp [Core.addOp, readRows, Function.comp_def]

/-- Settles O16: each form's checks find nothing under its conditions, and its effect is one operation of its core, with the lines of
its reads. -/
theorem movers : Obligations.Movers := by
  intro s c h
  refine ⟨fun f hi may => ?_, fun f hi may => ?_, fun f hi ok low high => ?_, fun p aw b hi unit long fits => ?_, fun vd va hi free ok => ?_⟩
  · obtain ⟨address, stack, store, own, remote⟩ := may
    refine ⟨_, row_act hi (chkSs_of_mayMove ⟨address, stack, store, own, remote⟩) _, ?_⟩
    cases rem : f.rem with
    | false =>
      rw [doSsr_own address rem]
      exact ⟨State.core_setCore .., fun d other => State.core_setCore_other _ _ other, rfl, rfl⟩
    | true =>
      rw [doSsr_remote address rem]
      exact ⟨State.core_setCore .., fun d other => State.core_setCore_other _ _ other, rfl, rfl⟩
  · obtain ⟨address, stack, store, own, remote⟩ := may
    refine ⟨_, row_act hi (chkSs_of_mayMove ⟨address, stack, store, own, remote⟩) _, ?_⟩
    rw [doSsw_core address, Core.addOp_reads]
    exact onlyCore_setCore s c _
  · have chk : chkMsend f c s = none := by
      have size : wsSize = 0x200000 := rfl
      simp only [chkMsend, ok, size]
      rw [if_neg (by simp), if_pos]
      simp only [Bool.and_eq_true, decide_eq_true_eq]
      exact ⟨low, by exact_mod_cast high⟩
    refine ⟨_, row_act hi chk _, ?_⟩
    unfold doMsend
    dsimp only
    rw [Core.addOp_reads]
    exact onlyCore_setCore s c _
  · have chk : chkMrecv p aw c s = none := by
      have size : wsSize = 0x200000 := rfl
      have unit : (s.core c).unitAt p.toNat (s.tickOf c) = some b := unit
      simp only [chkMrecv, unit, line128_eq, size]
      rw [if_neg (by simp), if_neg (Nat.not_lt.mpr fits)]
    refine ⟨_, row_act hi chk _, ?_⟩
    have whole : padTo 128 b = b := by simp [padTo, long]
    unfold doMrecv
    dsimp only
    rw [unit]
    dsimp only
    rw [whole, line128_eq]
    have piece : ∀ j : Core, j.addOp .store (s.tickOf c) 4 .inbound
        (writeRows (s.tickOf c + 1) (((s.core c).ra aw.toNat).toNat / 128 * 128) 2 b) = { j with
          nextOp := j.nextOp + 1
          ops := j.ops.put j.nextOp { kind := .store, issue := s.tickOf c, slot := 4, left := 2, delay := 0, data := [] }
          pieces := j.pieces ++ (List.range 2).map fun i =>
            { op := j.nextOp, tick := s.tickOf c + 1, cls := .inbound, issue := s.tickOf c
              addr := ((s.core c).ra aw.toNat).toNat / 128 * 128 + 64 * i, len := 64, write := some (sub b (64 * i) 64), off := 64 * i
              defers := 0 } } := fun j => rfl
    rw [piece]
    exact onlyCore_setCore s c _
  · have chk : chkGath va c s = none := by
      have free : (s.core c).unitBusy unitGather (s.tickOf c) = false := free
      simp only [chkGath, free]
      rw [if_neg (by simp), if_pos]
      rw [List.all_eq_true]
      exact fun l low => ok l (List.mem_range.mp low)
    exact ⟨_, row_act hi chk _, onlyCore_setCore s c _⟩

end Sys2Proof.Machine

/-! PROOF. Units that arrive over the mesh, reach an endpoint or land (R119, R120, R122, R180, R230, R533). -/
namespace Sys2Proof

/-- Two changes that agree on the entry they reach change the list alike. -/
theorem modAt_congr {α : Type} {f g : α → α} {i : Nat} {l : List α} (agree : ∀ x, l[i]? = some x → f x = g x) : modAt l i f = modAt l i g := by
  induction l generalizing i with
  | nil => rfl
  | cons y l ih =>
    cases i with
    | zero => simp [modAt, agree y rfl]
    | succ i => simp [modAt, ih fun x there => agree x there]

/-- An entry after a write is the one written or an old one. -/
theorem Map.mem_put {α : Type} {m : Map α} {k : Nat} {x : α} {e : Nat × α} (listed : e ∈ m.put k x) : e = (k, x) ∨ e ∈ m :=
  (Map.mem_ins _ _ _ _ listed).imp id (Map.mem_del _ _ _)

end Sys2Proof

namespace Sys2Proof.Machine

/-! ### A fault found outside issue (R124, R125) -/

theorem State.lateFault_leaves {α : Type} {v : State → α} (aside : Aside v)
    (apart : ∀ (s : State) job stop ticks pace regs,
      v { s with job := job, stop := stop, stopTicks := ticks, pace := pace, coreRegs := regs } = v s)
    {s : State} (run : s.power.mode = .run) (c code t : Nat) : v (s.lateFault c code t) = v s :=
  (State.jobFatal_leaves aside (fun s job stop ticks pace => apart s job stop ticks pace s.coreRegs) (by exact run) ..).trans
    (apart s s.job s.stop s.stopTicks s.pace _)

theorem State.lateFault_first {s : State} (run : s.power.mode = .run) (running : s.job.state = .running) (first : s.job.fault = 0#16)
    (c code t : Nat) : (s.lateFault c code t).job.fault = BitVec.ofNat 16 code ∧ (s.lateFault c code t).stop.isSome = true := by
  have active : s.job.state.active = true := by rw [running]; rfl
  obtain ⟨fault, -, stop⟩ := State.jobFatal_first (s := { s with coreRegs := s.coreRegs.capture code c 6 t 0 }) run active first code
    (some (s.regionOf c))
  exact ⟨fault, stop⟩

/-! ### Arrivals at a port (R119, R120, R122) -/

/-- A unit at a port of core `k`. -/
def Core.land (k : Core) (f : Flight) : Core :=
  match f.dest with
  | .port _ p => { k with ports := k.ports.put p (f.due, f.data) }
  | .stage _ _ => k

theorem Core.foldl_land_frame (l : List Flight) (k : Core) : l.foldl Core.land k = { k with ports := (l.foldl Core.land k).ports } := by
  induction l generalizing k with
  | nil => rfl
  | cons f l ih =>
    have here : k.land f = { k with ports := (k.land f).ports } := by
      unfold Core.land
      split <;> rfl
    rw [List.foldl_cons, ih, here]

/-- A port to which only copies of one unit come shows it. -/
theorem Core.foldl_land_unitAt {l : List Flight} {c p : Nat} {f : Flight} (dest : f.dest = .port c p)
    (only : ∀ g ∈ l, ∀ d, g.dest = .port d p → g = f) (k : Core) (shown : f ∈ l ∨ k.unitAt p f.due = some f.data) :
    (l.foldl Core.land k).unitAt p f.due = some f.data := by
  induction l generalizing k with
  | nil => exact shown.resolve_left nofun
  | cons g l ih =>
    refine ih (fun x listed => only x (List.mem_cons_of_mem _ listed)) _ ?_
    by_cases same : g = f
    · refine .inr ?_
      simp [same, Core.land, dest, Core.unitAt]
    · rcases shown with listed | shown
      · exact .inl ((List.mem_cons.mp listed).resolve_left fun here => same here.symm)
      · refine .inr ?_
        unfold Core.land
        split
        next d q there =>
          have other : q ≠ p := fun here => same (only g List.mem_cons_self d (here ▸ there))
          have miss : (q == p) = false := by simp [other]
          rw [Core.unitAt, Map.has_put, Map.find_put_other _ _ _ (Ne.symm other), miss, Bool.or_false]
          exact shown
        · exact shown

theorem State.arrive_eq (s : State) (c t : Nat) : s.arrive c t = { s.setCore c ((s.flights.filter fun f => f.dueAt c t).foldl Core.land
    (s.core c)) with flights := s.flights.filter fun f => !f.dueAt c t } := rfl

theorem Flight.dueAt_iff {f : Flight} {c t : Nat} : f.dueAt c t = true ↔ f.due ≤ t ∧ ∃ p, f.dest = .port c p := by
  unfold Flight.dueAt
  split
  next d p dest =>
    simp only [Bool.and_eq_true, decide_eq_true_eq]
    constructor
    · rintro ⟨rfl, due⟩
      exact ⟨due, p, dest⟩
    · rintro ⟨due, q, same⟩
      cases dest.symm.trans same
      exact ⟨rfl, due⟩
  next d h dest => simp [dest]

theorem completes_meshUnitArrival {s : State} {c p : Nat} {f : Flight} (there : s.hasCore c = true) (flies : f ∈ s.flights)
    (dest : f.dest = .port c p) (due : f.due = s.tickOf c + 1)
    (only : ∀ g ∈ s.flights, g.dest = .port c p → g.due ≤ s.tickOf c + 1 → g = f) :
    completes (.meshUnitArrival c none) s fun t =>
      (t.core c).unitAt p (s.tickOf c + 1) = some f.data ∧ f ∉ t.flights ∧
      onlyCore s { t with flights := s.flights } c { s.core c with ports := (t.core c).ports } := by
  refine ⟨_, onCore_next _ _ _ there, ?_⟩
  have taken : f.dueAt c (s.tickOf c + 1) = true := Flight.dueAt_iff.mpr ⟨due.le, p, dest⟩
  have core : (s.arrive c (s.tickOf c + 1)).core c = (s.flights.filter fun f => f.dueAt c (s.tickOf c + 1)).foldl Core.land (s.core c) :=
    State.core_setCore s c _
  dsimp only
  rw [core]
  refine ⟨?_, ?_, ?_⟩
  · rw [← due] at taken only ⊢
    refine Core.foldl_land_unitAt dest (fun g listed d at_ => ?_) _ (.inl (List.mem_filter.mpr ⟨flies, taken⟩))
    obtain ⟨flies, late⟩ := List.mem_filter.mp listed
    obtain ⟨late, q, here⟩ := Flight.dueAt_iff.mp late
    exact only g flies (by rw [here]; cases at_.symm.trans here; rfl) late
  · simp [State.arrive_eq, taken]
  · rw [← Core.foldl_land_frame, State.arrive_eq]
    exact onlyCore_setCore s c _

theorem State.badUnitAt_flight {s : State} {i : Nat} {f : Flight} (flies : s.flights[i]? = some f) (c : Nat) : s.badUnitAt c i =
    if f.path.contains c then { s with flights := s.flights.eraseIdx i }.lateFault c fMeshLink (s.tickOf c) else s := by
  unfold State.badUnitAt
  rw [flies]

/-- A unit that fails its parity check at a router it passes (R122). -/
theorem completes_meshUnitArrival_bad {s : State} {c i : Nat} {f : Flight} (there : s.hasCore c = true) (run : s.power.mode = .run)
    (running : s.job.state = .running) (first : s.job.fault = 0#16) (flies : s.flights[i]? = some f) (passes : c ∈ f.path) :
    completes (.meshUnitArrival c (some i)) s fun t =>
      t.flights = (s.flights.eraseIdx i).filter (fun g => !g.dueAt c (s.tickOf c + 1)) ∧
      t.job.fault = 0x0404#16 ∧ t.stop.isSome = true ∧ t.queues = s.queues ∧ ∀ d, d ≠ c → t.core d = s.core d := by
  obtain ⟨u, lost⟩ : ∃ u : State, u = { s with flights := s.flights.eraseIdx i }.lateFault c fMeshLink (s.tickOf c) := ⟨_, rfl⟩
  have keeps : ∀ {α : Type} (v : State → α), Aside v → (∀ (s : State) job stop ticks pace regs,
      v { s with job := job, stop := stop, stopTicks := ticks, pace := pace, coreRegs := regs } = v s) →
      v u = v { s with flights := s.flights.eraseIdx i } := fun v aside apart => by
    rw [lost]
    exact State.lateFault_leaves aside apart (s := { s with flights := s.flights.eraseIdx i }) run _ _ _
  obtain ⟨fault, stop⟩ : u.job.fault = 0x0404#16 ∧ u.stop.isSome = true := by
    rw [lost]
    exact State.lateFault_first (s := { s with flights := s.flights.eraseIdx i }) run running first c fMeshLink (s.tickOf c)
  have flights := keeps State.flights ⟨⟨⟨fun _ _ _ => rfl⟩, fun _ _ _ => rfl⟩, fun _ _ _ _ => rfl⟩ fun _ _ _ _ _ _ => rfl
  refine ⟨u.arrive c (s.tickOf c + 1), ?_, ?_, fault, stop, keeps State.queues ⟨⟨⟨fun _ _ _ => rfl⟩, fun _ _ _ => rfl⟩, fun _ _ _ _ => rfl⟩ fun _ _ _ _ _ _ => rfl,
    fun d other => ?_⟩
  · refine (onCore_next _ _ _ there).trans ?_
    dsimp only
    rw [State.badUnitAt_flight flies, if_pos (by simpa using passes), ← lost]
  · rw [State.arrive_eq, flights]
  · rw [State.arrive_eq]
    exact (State.core_setCore_other u _ other).trans (keeps (fun s => s.core d) ⟨⟨⟨fun _ _ _ => rfl⟩, fun _ _ _ => rfl⟩, fun _ _ _ _ => rfl⟩ fun _ _ _ _ _ _ => rfl)

/-! ### A unit at its endpoint (R180, R533) -/

/-- Without a fabric send nothing is cut. -/
theorem State.cutSends_none {s : State} (none : ∀ e ∈ s.queues, e.2.kind ≠ .fabricSend) : s.cutSends = s := by
  have general : ∀ (l : List (Nat × Queue)) (s : State), (∀ e ∈ l, e.2.kind ≠ .fabricSend) →
      l.foldl (fun s e => if e.2.kind = .fabricSend then State.cutAll 4096 (e.1 / 32) (e.1 % 32) s else s) s = s := by
    intro l
    induction l with
    | nil => exact fun _ _ => rfl
    | cons e l ih =>
      intro s none
      rw [List.foldl_cons, if_neg (none e List.mem_cons_self)]
      exact ih s fun e listed => none e (List.mem_cons_of_mem _ listed)
  exact general s.queues s none

theorem State.endpointUnit_one {s : State} {c h : Nat} {f : Flight} (flies : s.flights = [f]) (dest : f.dest = .stage c h)
    (none : s.stop = .none) (due : f.due ≤ s.tickOf (edgeCore s.gridW c (epEdge (s.queue c h).endpoint))) :
    s.endpointUnit c h = if (s.queue c h).stageSize < s.occupied (s.queue c h) + 128 then
        { s with flights := [] }.lateFault f.src fStagingFull (s.tickOf (edgeCore s.gridW c (epEdge (s.queue c h).endpoint)))
      else ({ s with flights := [] }.setQueue c h { s.queue c h with
        stage := (s.queue c h).stage ++ padTo 128 f.data }).cutSends := by
  unfold State.endpointUnit
  dsimp only
  rw [flies, List.find?_cons_of_pos (by simp [dest, due])]
  simp only [List.erase_cons_head, none]
  rfl

theorem completes_endpointUnit {s : State} {c h : Nat} {f : Flight} (there : s.hasCore c = true) (flies : s.flights = [f])
    (dest : f.dest = .stage c h) (none : s.stop = .none)
    (due : f.due ≤ s.tickOf (edgeCore s.gridW c (epEdge (s.queue c h).endpoint))) (whole : f.data.length = 128)
    (others : ∀ e ∈ s.queues, e.2.kind ≠ .fabricSend) (kind : (s.queue c h).kind ≠ .fabricSend) (run : s.power.mode = .run)
    (running : s.job.state = .running) (first : s.job.fault = 0#16) :
    completes (.endpointUnit c h) s fun t =>
      t.flights = [] ∧ t.cores = s.cores ∧ t.far = s.far ∧
      (if s.occupied (s.queue c h) + 128 ≤ (s.queue c h).stageSize
       then t.queue c h = { s.queue c h with stage := (s.queue c h).stage ++ f.data } ∧ t.job = s.job
       else t.queues = s.queues ∧ t.job.fault = 0x0407#16 ∧ t.stop.isSome = true) := by
  refine ⟨_, onCore_next _ _ _ there, ?_⟩
  dsimp only
  rw [State.endpointUnit_one flies dest none due]
  by_cases full : (s.queue c h).stageSize < s.occupied (s.queue c h) + 128
  case pos =>
    rw [if_pos full, if_neg (by omega)]
    generalize s.tickOf (edgeCore s.gridW c (epEdge (s.queue c h).endpoint)) = T
    obtain ⟨u, empty⟩ : ∃ u : State, u = { s with flights := [] } := ⟨_, rfl⟩
    rw [← empty]
    have run : u.power.mode = .run := empty ▸ run
    obtain ⟨fault, stop⟩ := State.lateFault_first run (empty ▸ running) (empty ▸ first) f.src fStagingFull T
    refine ⟨?_, ?_, ?_, ?_, fault, stop⟩
    · exact (State.lateFault_leaves (v := State.flights) ⟨⟨⟨fun _ _ _ => rfl⟩, fun _ _ _ => rfl⟩, fun _ _ _ _ => rfl⟩ (fun _ _ _ _ _ _ => rfl) run ..).trans (empty ▸ rfl)
    · exact (State.lateFault_leaves (v := State.cores) ⟨⟨⟨fun _ _ _ => rfl⟩, fun _ _ _ => rfl⟩, fun _ _ _ _ => rfl⟩ (fun _ _ _ _ _ _ => rfl) run ..).trans (empty ▸ rfl)
    · exact (State.jobFatal_far _ _ _ _ _ _ _ (by exact run)).trans (empty ▸ rfl)
    · exact (State.lateFault_leaves (v := State.queues) ⟨⟨⟨fun _ _ _ => rfl⟩, fun _ _ _ => rfl⟩, fun _ _ _ _ => rfl⟩ (fun _ _ _ _ _ _ => rfl) run ..).trans (empty ▸ rfl)
  case neg =>
    rw [if_neg full, if_pos (by omega), State.cutSends_none]
    · refine ⟨rfl, rfl, rfl, ?_, rfl⟩
      rw [State.queue_setQueue, padTo, whole, List.take_of_length_le (by simp [whole])]
      simp
    · intro e listed
      rcases Map.mem_put listed with rfl | old
      · exact kind
      · exact others e old

/-! ### Landings (R230) -/

theorem State.landOne_due {s : State} {i T : Nat} {im : Image} {e : Landing} {b : Bytes} {q : Queue} (image : s.image = some im)
    (entry : im.landings[i]? = some e) (phase : T % s.period = e.phase) (fresh : e.doneTick ≠ T + 1)
    (data : (s.queue e.core e.queue).take = some (b, q)) (whole : b.length = 128) (ring : 0 < e.ringUnits) :
    s.landOne i T = { s with
      queues := s.queues.put (qKey e.core e.queue) q
      image := some { im with landings := modAt im.landings i fun e => { e with doneTick := T + 1, cursor := (e.cursor + 1) % e.ringUnits } }
      cores := s.cores.put e.core ((s.core e.core).addOp .landing T 6 .landing (writeRows T (e.ringBase + 128 * e.cursor) 2 b)) } := by
  have turn : modAt im.landings i (fun e => { e with doneTick := T + 1, cursor := (e.cursor + 1) % max 1 e.ringUnits }) =
      modAt im.landings i fun e => { e with doneTick := T + 1, cursor := (e.cursor + 1) % e.ringUnits } := by
    refine modAt_congr fun x at_ => ?_
    cases entry.symm.trans at_
    rw [Nat.max_eq_right ring]
  have pad : padTo 128 b = b := by simp [padTo, whole]
  have waits : ¬ ((decide (T % s.period ≠ e.phase) || decide (e.doneTick = T + 1)) = true) := by simp [phase, fresh]
  unfold State.landOne
  rw [image]
  dsimp only
  rw [entry]
  refine (if_neg waits).trans ?_
  rw [data]
  dsimp only
  rw [turn, pad]
  rfl

theorem completes_landingTransfer {s : State} {i : Nat} {im : Image} {e : Landing} {b : Bytes} {q : Queue} (image : s.image = some im)
    (entry : im.landings[i]? = some e) (running : s.job.state = .running) :
    let T := s.tickOf e.core + 1
    T % s.period = e.phase → e.doneTick ≠ T + 1 → (s.queue e.core e.queue).take = some (b, q) → b.length = 128 → 0 < e.ringUnits →
    completes (.landingTransfer i) s fun t =>
      t.queue e.core e.queue = q ∧
      t.core e.core = (s.core e.core).addOp .landing T 6 .landing
        ((List.range 2).map fun j => (T, e.ringBase + 128 * e.cursor + 64 * j, 64, some (sub b (64 * j) 64), 64 * j)) ∧
      t.image = some { im with landings := modAt im.landings i fun e =>
        { e with doneTick := T + 1, cursor := (e.cursor + 1) % e.ringUnits } } ∧
      (∀ d, d ≠ e.core → t.core d = s.core d) ∧
      ({ t with cores := s.cores, queues := s.queues, image := s.image } : State) = s := by
  intro T phase fresh data whole ring
  have row : exec (.landingTransfer i) s = .next (s.landOne i T) := by
    refine Eq.trans (b := execLandingTransfer i s) rfl ?_
    unfold execLandingTransfer
    rw [image]
    dsimp only
    rw [entry]
    exact if_pos running
  rw [State.landOne_due image entry phase fresh data whole ring] at row
  exact ⟨_, row, State.queue_setQueue s e.core e.queue q, State.core_setCore s e.core _, rfl,
    fun d other => State.core_setCore_other s _ other, rfl⟩

/-- Settles O18: arrivals are one write of the core's ports, a unit at its endpoint is one write of its queue or a fault, a landing is
one operation of its core. -/
theorem unitsArrive : Obligations.UnitsArrive := by
  refine ⟨⟨fun s c p f => completes_meshUnitArrival, fun s c i f there run running first flies =>
      ⟨completes_meshUnitArrival_bad there run running first flies, fun apart => ?_⟩⟩, fun s c h f there flies dest none due whole others
      kind run running first => completes_endpointUnit there flies dest none due whole others kind run running first,
    fun s i im e b q image entry running => completes_landingTransfer image entry running⟩
  have still : s.badUnitAt c i = s := by rw [State.badUnitAt_flight flies, if_neg (by simpa using apart)]
  refine Eq.trans (b := onCore s c ((s.badUnitAt c i).arrive c (s.tickOf c + 1))) rfl ?_
  rw [still]
  rfl

end Sys2Proof.Machine

/-! PROOF. Queue completions (R178, R385): what the landing buffer holds after a far read that shares its number with what stands there. -/
namespace Sys2Proof.Machine

/-! ### A landing buffer that already holds the request's number -/

/-- A far read of no bytes, all of which have come. -/
def emptyRead : QReq :=
  { seq := 0, addr := 0#64, len := 0, accepted := [], left := 0, data := [], got := 0, sent := 0, mode := none, tid := 0 }

/-- A far-read queue whose landing buffer holds a byte under that request's number. -/
def sharedNumber : Queue := { Queue.init with kind := .farRead, landSize := 1, reqs := [emptyRead], land := [(0, [1#8])] }

/-- The module after reset with that queue bound to handle 0 of core 0. -/
def sharedNumberState : State := State.reset.setQueue 0 0 sharedNumber

/-- The completed read's bytes join those that stand under its number: no entry holds the read's bytes alone. -/
theorem sharedNumberState_land :
    ((sharedNumberState.queueCompletion 0 0).noteDrained.queue 0 0).land = [(0, [1#8])] := by decide

theorem sharedNumberState_row :
    exec (.queueCompletion 0 0) sharedNumberState = .next (sharedNumberState.queueCompletion 0 0).noteDrained := by
  have there : sharedNumberState.hasCore 0 = true := by decide
  have bound : sharedNumberState.bound 0 0 = true := by decide
  refine Eq.trans (b := execQueueCompletion 0 0 sharedNumberState) rfl ?_
  rw [execQueueCompletion, onCore_next _ _ _ there, bound]
  rfl

/-- Refutes O19: in `sharedNumberState` the far read completes, and the landing buffer's entry of its number is not the read's bytes but
those that stood there with the read's behind them. -/
theorem not_queueCompletions : ¬ Obligations.QueueCompletions := by
  intro h
  obtain ⟨-, -, farRead, -⟩ := h sharedNumberState 0 0 (by decide) (by decide) rfl rfl (by decide)
  obtain ⟨t, row, -, landed, -⟩ := farRead emptyRead [] rfl rfl
  obtain ⟨-, -, n, held, -⟩ := landed (by decide) rfl (by decide)
  cases sharedNumberState_row.symm.trans row
  rw [sharedNumberState_land] at held
  revert held
  simp [emptyRead, Mem.read]

end Sys2Proof.Machine

/-! PROOF. Channel slots, urgent background requests, temperature polls and training (R196 to R205, R218). -/
namespace Sys2Proof.Machine

/-! ### What a slot touches -/

@[simp] theorem State.farChan_setFarChan (s : State) (c k : Nat) (x : FarChan) : (s.setFarChan c k x).farChan c k = x :=
  Map.find_put_same ..

@[simp] theorem State.ctrl_setCtrl (s : State) (c : Nat) (x : FarCtrl) : (s.setCtrl c x).ctrl c = x := Map.find_put_same ..

theorem State.ctrl_setCtrl_other (s : State) {c d : Nat} (x : FarCtrl) (other : d ≠ c) : (s.setCtrl c x).ctrl d = s.ctrl d :=
  Map.find_put_other _ _ _ other

/-- From `s` to `t` the far memory changes at channel `k` of controller `c` only, whose slot stays, and no core changes. -/
structure State.slotMoves (s t : State) (c k : Nat) : Prop where
  slot : (t.farChan c k).slot = (s.farChan c k).slot
  chans : ∀ i j, i * 16 + j ≠ c * 16 + k → t.farChan i j = s.farChan i j
  ctrls : ∀ i, i ≠ c → t.ctrl i = s.ctrl i
  mem : t.far.mem = s.far.mem
  cores : t.cores = s.cores

namespace State.slotMoves

variable {s t u : State} {c k : Nat}

theorem trans (first : s.slotMoves t c k) (second : t.slotMoves u c k) : s.slotMoves u c k where
  slot := second.slot.trans first.slot
  chans := fun i j other => (second.chans i j other).trans (first.chans i j other)
  ctrls := fun i other => (second.ctrls i other).trans (first.ctrls i other)
  mem := second.mem.trans first.mem
  cores := second.cores.trans first.cores

/-- What leaves the far memory and the cores alone moves nothing. -/
theorem of_far (far : t.far = s.far) (cores : t.cores = s.cores) : s.slotMoves t c k where
  slot := by rw [State.farChan, far]; rfl
  chans := fun _ _ _ => by rw [State.farChan, far]; rfl
  ctrls := fun _ _ => by rw [State.ctrl, far]; rfl
  mem := by rw [far]
  cores := cores

theorem setFarChan {x : FarChan} (slot : x.slot = (s.farChan c k).slot) : s.slotMoves (s.setFarChan c k x) c k where
  slot := by rw [State.farChan_setFarChan, slot]
  chans := fun _ _ other => Map.find_put_other _ _ _ other
  ctrls := fun _ _ => rfl
  mem := rfl
  cores := rfl

theorem setCtrl (s : State) (c k : Nat) (x : FarCtrl) : s.slotMoves (s.setCtrl c x) c k where
  slot := rfl
  chans := fun _ _ _ => rfl
  ctrls := fun _ other => s.ctrl_setCtrl_other x other
  mem := rfl
  cores := rfl

theorem jobFatal (s : State) (c k code : Nat) (run : s.power.mode = .run) : s.slotMoves (s.jobFatal code) c k :=
  of_far (State.jobFatal_far s code none 0 0 none none run) (State.jobFatal_cores ..)

end State.slotMoves

theorem FarChan.choose_slot {α : Type} (x : FarChan) (pend : Bool) (l : List (α × Bool)) : (x.choose pend l).1.slot = x.slot := by
  unfold FarChan.choose
  dsimp only
  split
  · split <;> rfl
  · split <;> rfl
  · rfl

theorem FarChan.hold_slot (x : FarChan) (b : Nat) (changed bg : Bool) : (x.hold b changed bg).slot = x.slot := rfl

/-! ### Background and program slots (R201 to R204, R206, R216) -/

theorem State.failLoad_far (s : State) (l : CasLoad) (r : Result) (code index : Nat) :
    (s.failLoad l r code index).far = s.far ∧ (s.failLoad l r code index).cores = s.cores := by
  have answer : ∀ (s : State) (ch : Option Nat) (r : Reply), (match ch with | some c => s.respond c r | none => s).far = s.far := by
    intro s ch r
    split
    · exact State.respond_far ..
    · rfl
  have put : ∀ (s : State) (l : CasLoad), (if s.casNow then s.endLoad l else s.putLoad l).far = s.far := by
    intro s l
    split
    · unfold State.endLoad
      split
      · exact (answer ..).trans rfl
      · refine (answer ..).trans ?_
        unfold State.keepLoad
        split <;> rfl
    · rfl
  refine ⟨?_, Beside.failLoad (v := State.cores) ⟨⟨fun _ _ _ => rfl⟩, fun _ _ _ => rfl⟩ s l r code index⟩
  unfold State.failLoad
  dsimp only
  rw [put]
  split <;> rfl

theorem State.failAdapter_far (s : State) (l : CasLoad) (slot ver : Nat) (r : Reply) :
    (s.failAdapter l slot ver r).far = s.far ∧ (s.failAdapter l slot ver r).cores = s.cores := by
  refine ⟨?_, Aside.failAdapter (v := State.cores) ⟨⟨⟨fun _ _ _ => rfl⟩, fun _ _ _ => rfl⟩, fun _ _ _ _ => rfl⟩ s l slot ver r⟩
  unfold State.failAdapter
  dsimp only
  split
  · exact State.respond_far ..
  · rfl

theorem State.bgFailed_moves {s : State} (run : s.power.mode = .run) (src : BgSrc) (c k : Nat) : s.slotMoves (s.bgFailed src) c k := by
  unfold State.bgFailed
  split
  · exact State.slotMoves.jobFatal s c k _ run
  · split
    · exact .of_far (State.failLoad_far ..).1 (State.failLoad_far ..).2
    · exact .of_far rfl rfl
  · split
    · exact .of_far (State.failAdapter_far ..).1 (State.failAdapter_far ..).2
    · exact .of_far rfl rfl
  · exact .of_far rfl rfl
  · exact .of_far rfl rfl

/-- A slot that writes the channel and its controller. -/
theorem State.slotMoves_wrote {s : State} {c k : Nat} {x : FarChan} {y : FarCtrl} (slot : x.slot = (s.farChan c k).slot) :
    s.slotMoves ((s.setFarChan c k x).setCtrl c y) c k :=
  (State.slotMoves.setFarChan slot).trans (State.slotMoves.setCtrl _ c k y)

/-- A slot that may have to tell the engine of a background request of its failure. -/
theorem State.slotMoves.tell {s u : State} {c k : Nat} {bad : Prop} [Decidable bad] (moves : s.slotMoves u c k)
    (run : u.power.mode = .run) (src : BgSrc) : s.slotMoves (if bad then u.bgFailed src else u) c k := by
  split
  · exact moves.trans (State.bgFailed_moves run src c k)
  · exact moves

/-- A slot that may have to fault the job. -/
theorem State.slotMoves.fault {s u : State} {c k code : Nat} {bad : Prop} [Decidable bad] (moves : s.slotMoves u c k)
    (run : u.power.mode = .run) : s.slotMoves (if bad then u.jobFatal code else u) c k := by
  split
  · exact moves.trans (State.slotMoves.jobFatal u c k _ run)
  · exact moves

theorem State.bgSlot_moves {s : State} (run : s.power.mode = .run) (c k : Nat) (e : GranErr) : s.slotMoves (s.bgSlot c k e) c k := by
  unfold State.bgSlot
  dsimp only
  have slot := FarChan.choose_slot (s.farChan c k) (s.pendingDir c k) ((s.farChan c k).bgActs k ((s.ctrl c).serving.map fun b => b.2))
  generalize (s.farChan c k).choose _ _ = r at slot ⊢
  split
  · exact .setFarChan slot
  · exact State.slotMoves_wrote slot
  · exact .of_far rfl rfl
  · refine .tell (State.slotMoves_wrote ?_) run _
    exact slot
  · refine .tell (State.slotMoves_wrote ?_) run _
    split <;> exact slot

theorem State.progSlot_moves {s : State} (run : s.power.mode = .run) (c k : Nat) (e : GranErr) : s.slotMoves (s.progSlot c k e) c k := by
  unfold State.progSlot
  dsimp only
  have slot := FarChan.choose_slot (s.farChan c k) (s.pendingDir c k) (s.farChan c k).progActs
  generalize (s.farChan c k).choose _ _ = r at slot ⊢
  split
  · exact State.slotMoves_wrote slot
  · exact State.slotMoves_wrote slot
  · refine .fault (State.slotMoves.trans (State.slotMoves_wrote ?_) (.of_far rfl rfl)) run
    exact slot
  · refine .fault (State.slotMoves_wrote ?_) run
    exact slot

/-! ### Window slots (R197, R200, R205) -/

/-- A window slot: the command demanded, or the oscillator's, or patrol scrub. -/
theorem State.windowSlot_moves (s : State) (c k : Nat) (d : Option WinCmd) (e : GranErr) : s.slotMoves (s.windowSlot c k d e) c k := by
  unfold State.windowSlot State.scrubSlot
  dsimp only
  split
  · exact .setFarChan rfl
  split
  · exact .setFarChan rfl
  split
  · exact .setFarChan rfl
  · exact State.slotMoves_wrote rfl

/-- No granule of a request moves in a window slot. -/
theorem State.windowSlot_idle (s : State) (c k : Nat) (d : Option WinCmd) (e : GranErr) :
    ((s.windowSlot c k d e).farChan c k).prog = (s.farChan c k).prog ∧ ((s.windowSlot c k d e).ctrl c).bg = (s.ctrl c).bg ∧
      (s.windowSlot c k d e).queues = s.queues := by
  have scrub : (s.scrubSlot c k e).farChan c k = { s.farChan c k with
      scrub := ((s.scrubSlot c k e).farChan c k).scrub, fixes := ((s.scrubSlot c k e).farChan c k).fixes } ∧
      ((s.scrubSlot c k e).ctrl c).bg = (s.ctrl c).bg ∧ (s.scrubSlot c k e).queues = s.queues := by
    unfold State.scrubSlot
    dsimp only
    split
    · rw [State.farChan_setFarChan]
      exact ⟨rfl, rfl, rfl⟩
    · rw [State.ctrl_setCtrl]
      refine ⟨?_, rfl, rfl⟩
      exact (s.farChan_setFarChan c k _).trans (by rw [show ∀ x y, ((s.setFarChan c k x).setCtrl c y).farChan c k = x from
        fun x _ => s.farChan_setFarChan c k x])
  unfold State.windowSlot
  dsimp only
  split
  · rw [State.farChan_setFarChan]
    exact ⟨rfl, rfl, rfl⟩
  split
  · rw [State.farChan_setFarChan]
    exact ⟨rfl, rfl, rfl⟩
  · exact ⟨(congrArg FarChan.prog scrub.1 :), scrub.2⟩

theorem State.windowSlot_demand (s : State) (c k : Nat) (w : WinCmd) (e : GranErr) :
    ((s.windowSlot c k (some w) e).farChan c k).cmds.find 0 w.code = (s.farChan c k).cmds.find 0 w.code + 1 ∧
      ((s.windowSlot c k (some w) e).farChan c k).scrub = (s.farChan c k).scrub := by
  unfold State.windowSlot
  rw [State.farChan_setFarChan]
  exact ⟨Map.find_put_same .., rfl⟩

theorem State.windowSlot_scrub {s : State} {c k : Nat} (e : GranErr) (early : s.gsc < (s.farChan c k).oscDue)
    (none : (s.farChan c k).fixes = []) :
    ((s.windowSlot c k .none e).farChan c k).scrub = ((s.farChan c k).scrub + 1) % (16 * s.chanBlocks) ∧
      ((s.windowSlot c k .none e).farChan c k).fixes = if e.corrected then [(s.farChan c k).scrub / 16] else [] := by
  have row : s.windowSlot c k .none e = (s.setFarChan c k { s.farChan c k with
      scrub := ((s.farChan c k).scrub + 1) % (16 * s.chanBlocks)
      fixes := if e.corrected then [(s.farChan c k).scrub / 16] else [] }).setCtrl c ((s.ctrl c).err e) := by
    unfold State.windowSlot
    dsimp only
    rw [if_neg (by omega)]
    unfold State.scrubSlot
    dsimp only
    split
    case h_1 held => exact absurd (none.symm.trans held) (by simp)
    case h_2 => rfl
  have read : ∀ x y, ((s.setFarChan c k x).setCtrl c y).farChan c k = x := fun x _ => s.farChan_setFarChan c k x
  rw [row, read]
  exact ⟨rfl, rfl⟩

/-- The channel as a slot begins: the next slot of the frame is due after this one (R199). -/
def FarChan.advance (x : FarChan) : FarChan :=
  { x with slot := (x.slot + 1) % 4096, elapsed := satAdd 64 x.elapsed 1, sinceSwitch := min 128 (x.sinceSwitch + 1)
           switchLeft := x.switchLeft - 1 }

theorem channelSlot_idle {s : State} {c k : Nat} {e : SlotEvent} (ctrl : c < 36) (chan : k < 16)
    (still : s.far.rate = 3 ∨ s.far.selfRefresh = true) : exec (.channelSlot c k e) s = .next s :=
  (if_neg (by simp; omega)).trans (if_pos (by simpa using still))

/-- What a slot moves, and what it does in a refresh window (R199, R200, R205). -/
theorem channelSlot_moves {s : State} {c k : Nat} (e : SlotEvent) (ctrl : c < 36) (chan : k < 16) (run : s.power.mode = .run)
    (trained : s.far.rate ≠ 3) (awake : s.far.selfRefresh = false) :
    ∃ t, exec (.channelSlot c k e) s = .next t ∧ (s.setFarChan c k (s.farChan c k).advance).slotMoves t c k ∧
      (slotClass s.far.bgEnlarged (s.farChan c k).slot = .window →
        t = (s.setFarChan c k (s.farChan c k).advance).windowSlot c k e.demand e.err) := by
  refine ⟨_, (if_neg (by simp; omega)).trans (if_neg (by simp [trained, awake])), ?_, fun window => ?_⟩
  · generalize slotClass s.far.bgEnlarged (s.farChan c k).slot = class_
    cases class_ with
    | window => exact State.windowSlot_moves _ c k e.demand e.err
    | trickle =>
      dsimp only
      split
      · exact .of_far rfl rfl
      · exact State.bgSlot_moves (s := s.setFarChan c k _) run c k e.err
    | program =>
      dsimp only
      split
      · exact .of_far rfl rfl
      split
      · exact State.bgSlot_moves (s := s.setFarChan c k _) run c k e.err
      · exact State.progSlot_moves (s := s.setFarChan c k _) run c k e.err
  · rw [window]
    rfl

/-! ### Urgent background requests (R202) -/

theorem backgroundUrgent_held {s : State} {c : Nat} {b : BgReq} (ctrl : c < 36) (held : (s.ctrl c).bg = [b]) (calm : b.urgent = false)
    (waits : b.begun = false) :
    completes (.backgroundUrgent c) s fun t =>
      b.at_ + 50000000 < t.gsc ∧ s.gsc ≤ t.gsc ∧ (t.ctrl c).bg = [{ b with urgent := true }] ∧
      (t.ctrl c).urgent = min ((s.ctrl c).urgent + 1) (2 ^ 32 - 1) ∧ (∀ d, d ≠ c → t.ctrl d = s.ctrl d) ∧ t.far.mem = s.far.mem := by
  have found : ((s.ctrl c).bg.find? fun b => !b.urgent && !b.begun) = some b := by simp [held, calm, waits]
  obtain ⟨n, reach, row⟩ : ∃ n, n = b.at_ + 50000000 ∧ exec (.backgroundUrgent c) s =
      .next ((s.advanceTo (n + 1)).setCtrl c { (s.advanceTo (n + 1)).ctrl c with
        urgent := satAdd 32 ((s.advanceTo (n + 1)).ctrl c).urgent
          (((s.advanceTo (n + 1)).ctrl c).bg.filter fun b => !b.urgent && !b.begun && b.at_ + 50000000 < (s.advanceTo (n + 1)).gsc).length
        bg := ((s.advanceTo (n + 1)).ctrl c).bg.map fun b =>
          if !b.urgent && !b.begun && b.at_ + 50000000 < (s.advanceTo (n + 1)).gsc then { b with urgent := true } else b }) := by
    refine ⟨_, rfl, (if_neg (by omega)).trans ?_⟩
    rw [found]
  have clock := s.advanceTo_gsc (n + 1)
  have ctrls : ∀ d, (s.advanceTo (n + 1)).ctrl d = s.ctrl d := fun d => by rw [State.ctrl, State.advanceTo_far]; rfl
  have far := s.advanceTo_far (n + 1)
  obtain ⟨u, hu⟩ : ∃ u, u = s.advanceTo (n + 1) := ⟨_, rfl⟩
  rw [← hu] at row clock ctrls far
  have late : b.at_ + 50000000 < u.gsc := by omega
  refine ⟨_, row, late, by dsimp only [State.setCtrl]; omega, ?_, ?_, fun d other => ?_, ?_⟩
  · rw [State.ctrl_setCtrl, ctrls, held]
    simp [calm, waits, late]
  · rw [State.ctrl_setCtrl, ctrls, held]
    simp [calm, waits, late, satAdd]
  · rw [State.ctrl_setCtrl_other _ _ other, ctrls]
  · dsimp only [State.setCtrl]
    rw [far]

/-! ### Temperature polls and training (R197, R198, R218) -/

theorem State.setReadings_ctrl (l : List (Nat × Nat)) (n : Nat) (s : State) (c : Nat) :
    ((l.zipIdx n).foldl (fun s x => s.setCtrl x.2 { s.ctrl x.2 with tempCase := min 255 x.1.1, rateCode := x.1.2 % 32 }) s).ctrl c =
      if n ≤ c ∧ c < n + l.length then { s.ctrl c with
        tempCase := min 255 (l.getD (c - n) (0, 0)).1, rateCode := (l.getD (c - n) (0, 0)).2 % 32 } else s.ctrl c := by
  induction l generalizing n s with
  | nil => rw [if_neg (by simp)]; rfl
  | cons a l ih =>
    rw [List.zipIdx_cons, List.foldl_cons, ih]
    simp only [List.length_cons]
    by_cases here : c = n
    · subst here
      rw [if_neg (by omega), if_pos (by omega), State.ctrl_setCtrl, Nat.sub_self]
      rfl
    · rw [State.ctrl_setCtrl_other _ _ here]
      by_cases later : n + 1 ≤ c ∧ c < n + 1 + l.length
      · rw [if_pos later, if_pos (by omega), show c - n = (c - (n + 1)) + 1 by omega]
        rfl
      · rw [if_neg later, if_neg (by omega)]

theorem State.setReadings_keeps {γ : Type} {v : State → γ} (keeps : ∀ s c x, v (s.setCtrl c x) = v s) (l : List ((Nat × Nat) × Nat))
    (s : State) : v (l.foldl (fun s x =>
      s.setCtrl x.2 { s.ctrl x.2 with tempCase := min 255 x.1.1, rateCode := x.1.2 % 32 }) s) = v s := by
  refine foldl_keeps v _ ?_ l s
  exact fun _ _ => keeps ..

/-- What a hottest case does to the far memory and the job (R198). -/
theorem State.caseTemps_shows {s : State} (run : s.power.mode = .run) (m : Nat) :
    (s.caseTemps m).far = { s.far with caseMax := m, hot := 95 < m } ∧ (m ≤ 100 → (s.caseTemps m).job = s.job) ∧
      (s.job.state = .running → s.job.fault = 0#16 → 100 < m → (s.caseTemps m).job.fault = 0x0304#16) := by
  obtain ⟨u, row, far, job, mode⟩ : ∃ u, s.caseTemps m = (if 100 < m then u.jobFatal 0x0304 else u) ∧
      u.far = { s.far with caseMax := m, hot := 95 < m } ∧ u.job = s.job ∧ u.power.mode = .run := by
    refine ⟨_, rfl, ?_⟩
    split
    · exact ⟨State.event_far .., State.event_job .., (congrArg Power.mode (State.event_power ..)).trans run⟩
    · exact ⟨rfl, rfl, run⟩
  rw [row]
  refine ⟨?_, fun mild => by rw [if_neg (by omega), job], fun running first hot => ?_⟩
  · split
    · rw [State.jobFatal_far u 0x0304 none 0 0 none none mode, far]
    · exact far
  · rw [if_pos hot]
    exact (State.jobFatal_first mode (by simp [JobState.active, job, running]) (job ▸ first) 0x0304 none).1

/-- A poll takes each controller's readings and weighs the hottest case (R197, R198). -/
theorem mr4Poll_trained {s : State} {l : List (Nat × Nat)} (trained : s.far.rate ≠ 3) (awake : s.far.selfRefresh = false)
    (whole : l.length = 36) (run : s.power.mode = .run) :
    completes (.mr4Poll l) s fun t =>
      (∀ c, c < 36 → (t.ctrl c).tempCase = min 255 (l.getD c (0, 0)).1 ∧ (t.ctrl c).rateCode = (l.getD c (0, 0)).2 % 32) ∧
      t.far.hot = decide (95 < t.caseHottest) ∧ t.far.caseMax = t.caseHottest ∧ t.far.mem = s.far.mem ∧
      (s.job.state = .running → s.job.fault = 0#16 → 100 < t.caseHottest → t.job.fault = 0x0304#16) ∧
      (t.caseHottest ≤ 100 → t.job = s.job) := by
  obtain ⟨u, row, read, mem, job, mode⟩ : ∃ u : State, exec (.mr4Poll l) s = .next (u.caseTemps u.caseHottest) ∧
      (∀ c, c < 36 → (u.ctrl c).tempCase = min 255 (l.getD c (0, 0)).1 ∧ (u.ctrl c).rateCode = (l.getD c (0, 0)).2 % 32) ∧
      u.far.mem = s.far.mem ∧ u.job = s.job ∧ u.power.mode = .run := by
    refine ⟨_, if_neg (by simp [trained, awake]), fun c low => ?_, ?_⟩
    · rw [List.take_of_length_le (by omega), State.setReadings_ctrl, if_pos (by omega)]
      exact ⟨rfl, rfl⟩
    · exact ⟨(State.setReadings_keeps (v := fun t => t.far.mem) (fun _ _ _ => rfl) _ _).trans
          (by dsimp only; rw [State.advanceTo_far]),
        (State.setReadings_keeps (v := State.job) (fun _ _ _ => rfl) _ _).trans (s.advanceTo_job _),
        (State.setReadings_keeps (v := fun t => t.power.mode) (fun _ _ _ => rfl) _ _).trans
          ((s.advanceTo_power_mode _).trans run)⟩
  obtain ⟨far, calm, hot⟩ := State.caseTemps_shows mode u.caseHottest
  have ctrl : ∀ c, (u.caseTemps u.caseHottest).ctrl c = u.ctrl c := fun c => by rw [State.ctrl, far]; rfl
  have hottest : (u.caseTemps u.caseHottest).caseHottest = u.caseHottest := by
    unfold State.caseHottest at ctrl ⊢
    simp only [ctrl]
  refine ⟨_, row, fun c low => by rw [ctrl]; exact read c low, ?_, ?_, ?_, fun running first => ?_, fun mild => ?_⟩
  · rw [far, hottest]
  · rw [far, hottest]
  · rw [far, ← mem]
  · rw [hottest]
    exact hot (job ▸ running) (job ▸ first)
  · rw [calm (hottest ▸ mild), job]

theorem State.trained_shows (s : State) (rate : Nat) (degraded : Bool) :
    (s.trained rate degraded).far.rate = rate ∧ (s.trained rate degraded).far.degraded = degraded ∧
      (s.trained rate degraded).far.mem = s.far.mem ∧ (s.trained rate degraded).job = s.job := by
  unfold State.trained
  dsimp only
  split
  · exact ⟨rfl, rfl, rfl, rfl⟩
  · rw [State.event_far, State.event_job]
    exact ⟨rfl, rfl, rfl, rfl⟩

/-- Settles O21: a slot touches its own channel and controller only, a window slot neither kind of request; the other three commands
are settled each by what it writes. -/
theorem farMemoryUpkeep : Obligations.FarMemoryUpkeep := by
  unfold Obligations.FarMemoryUpkeep
  refine ⟨fun s c k d e ctrl chan run => ⟨fun still => ⟨s, channelSlot_idle ctrl chan still, rfl⟩, fun trained awake => ?_⟩,
    fun s c b ctrl held calm waits => backgroundUrgent_held ctrl held calm waits,
    fun s l trained awake whole run => mr4Poll_trained trained awake whole run, fun s hi lo unarmed halted => ?_,
    fun s hi lo running first run bad => ?_, fun s running trained => ?_⟩
  · obtain ⟨t, row, moves, window⟩ := channelSlot_moves { demand := d, err := e } ctrl chan run trained awake
    have chan_ := s.farChan_setFarChan c k (s.farChan c k).advance
    refine ⟨t, row, moves.slot.trans ((congrArg FarChan.slot chan_ :).trans rfl),
      fun i j other => (moves.chans i j other).trans (Map.find_put_other _ _ _ other), moves.ctrls, moves.mem, moves.cores,
      fun class_ => ?_⟩
    rw [window class_]
    obtain ⟨prog, bg, queues⟩ := State.windowSlot_idle (s.setFarChan c k (s.farChan c k).advance) c k d e
    refine ⟨prog.trans ((congrArg FarChan.prog chan_ :).trans rfl), bg, queues, fun w demand => ?_, fun spare early held => ?_⟩
    · subst demand
      obtain ⟨cmds, scrub⟩ := State.windowSlot_demand (s.setFarChan c k (s.farChan c k).advance) c k w e
      rw [chan_] at cmds scrub
      exact ⟨cmds, scrub⟩
    · subst spare
      have scrub := State.windowSlot_scrub (s := s.setFarChan c k (s.farChan c k).advance) (c := c) (k := k) e
        (by rw [chan_]; exact early) (by rw [chan_]; exact held)
      rw [chan_] at scrub
      exact scrub
  · exact ⟨_, if_neg (by simp [unarmed, halted]), s.trained_shows _ _⟩
  · obtain ⟨fault, -, stop⟩ := State.jobFatal_first run (by simp [JobState.active, running]) first 0x0303 none
    exact ⟨_, (if_pos (by simp [running])).trans (congrArg Host.Outcome.next (if_pos (by simpa using bad))),
      State.jobFatal_far s 0x0303 none 0 0 none none run, fault, stop⟩
  · exact ⟨s, (if_pos (by simp [running])).trans (congrArg Host.Outcome.next ((if_neg (by decide)).trans (if_neg trained))), rfl⟩

end Sys2Proof.Machine

/-! PROOF. Closing and signing of record blocks (R319 to R323, R338). -/
namespace Sys2Proof.Machine

/-- Closing the open block touches the record engine only (R322). -/
theorem State.closeBlock_open {s : State} {b : Block} (opened : s.recs.opened = some b) :
    (s.recs.staged.length < 4 → s.closeBlock = s.withRecs { s.recs with
      opened := none, closeDue := false, staged := s.recs.staged ++ [b], blockNext := s.recs.blockNext + 1 }) ∧
    (4 ≤ s.recs.staged.length → s.closeBlock = s.withRecs { s.recs with closeDue := true }) := by
  unfold State.closeBlock
  rw [opened]
  exact ⟨fun room => if_neg (by omega), fun full => if_pos full⟩

theorem blockClose_open {s : State} {b : Block} (opened : s.recs.opened = some b) :
    completes .blockClose s fun t => t.gsc = max s.gsc (b.gsc + s.recs.sealNs) ∧
      (s.recs.staged.length < 4 → t.recs = { s.recs with
        opened := none, closeDue := false, staged := s.recs.staged ++ [b], blockNext := s.recs.blockNext + 1 }) ∧
      (4 ≤ s.recs.staged.length → t.recs = { s.recs with closeDue := true }) ∧ t.job = s.job ∧ t.host = s.host := by
  obtain ⟨n, reach⟩ : ∃ n, n = b.gsc + s.recs.sealNs := ⟨_, rfl⟩
  have row : exec .blockClose s = .next (s.advanceTo n).closeBlock := by
    refine Eq.trans (b := execBlockClose s) rfl ?_
    unfold execBlockClose
    simp only [opened, reach]
  have recs := s.advanceTo_recs n
  obtain ⟨staged, full⟩ := State.closeBlock_open (s := s.advanceTo n) (recs ▸ opened)
  rw [recs] at staged full
  refine ⟨_, row, ?_⟩
  rw [← reach]
  rcases Nat.lt_or_ge s.recs.staged.length 4 with few | many
  · rw [staged few]
    exact ⟨s.advanceTo_gsc n, fun _ => rfl, fun many => by omega, s.advanceTo_job n, s.advanceTo_host n⟩
  · rw [full many]
    exact ⟨s.advanceTo_gsc n, fun few => by omega, fun _ => rfl, s.advanceTo_job n, s.advanceTo_host n⟩

theorem blockSign_row {s : State} {b : Block} {rest : List Block} (staged : s.recs.staged = b :: rest) (ok ok' : Bool) :
    exec (.blockSign ok ok') s = if s.stop.isSome || !(b.drained || s.stepDrained b.lastStep) then .next s
      else if !ok then .next (s.moduleFatal 0x0902)
      else if !ok' then .next (s.jobFatal 0x0903)
      else
        let s := (s.withRecs { s.recs with staged := rest }).sealBlock b
        let s := if s.recs.closeDue then s.closeBlock else s
        .next s.resumeStage4.settlePause := by
  refine Eq.trans (b := execBlockSign ok ok' s) rfl ?_
  unfold execBlockSign
  simp only [staged]

theorem State.recDrain_step {s : State} {e : Bool × Bytes} {rest : List (Bool × Bytes)} (queue : s.recs.queue = e :: rest)
    (room : s.recs.room = true) (n : Nat) :
    State.recDrain (n + 1) s = State.recDrain n ((s.withRecs { s.recs with queue := rest }).recWrite e.1 e.2) := by
  rw [State.recDrain]
  simp only [queue, room, if_true]

/-- An entry that finds room is written at once. -/
theorem State.recPush_room {s : State} (empty : s.recs.queue = []) (room : s.recs.room = true) (isSeal : Bool) (e : Bytes) :
    s.recPush isSeal e = (s.withRecs { s.recs with queue := [] }).recWrite isSeal e := by
  unfold State.recPush
  rw [empty]
  exact State.recDrain_step (s := s.withRecs { s.recs with queue := [(isSeal, e)] }) rfl room 0

/-- A seal that is written: its entry, the moved index, the interrupt. -/
theorem State.recWrite_seal {s : State} (masked : (s.host.msix.find .init s.recs.vector).masked = true) (e : Bytes) :
    (s.recWrite true e).recs = { s.recs with tail := s.recs.tail + 1#32 } ∧
      (s.recWrite true e).host.hostMem = s.host.hostMem.write (s.recs.base + 512 * (s.recs.tail.toNat % ringSize s.recs.log2 12)) e ∧
      { s.recWrite true e with recs := s.recs, host := s.host } = s := by
  obtain ⟨-, kept⟩ := State.sendVector_host ((s.dmaWrite (s.recs.base + 512 * (s.recs.tail.toNat % ringSize s.recs.log2 12)) e).withRecs
    { s.recs with tail := s.recs.tail + 1#32 }) s.recs.vector
  obtain ⟨mem, -⟩ := State.sendVector_masked (s := (s.dmaWrite (s.recs.base + 512 * (s.recs.tail.toNat % ringSize s.recs.log2 12)) e).withRecs
    { s.recs with tail := s.recs.tail + 1#32 }) masked
  exact ⟨(congrArg State.recs kept :), mem, (congrArg (fun t : State => { t with recs := s.recs, host := s.host }) kept :)⟩

/-- What a signature and its seal leave (R323): nothing but the record engine, the host memory, the event and the signer's counts. -/
theorem State.sealBlock_shows {s : State} (empty : s.recs.queue = []) (room : s.recs.room = true)
    (masked : (s.host.msix.find .init s.recs.vector).masked = true) (b : Block) :
    (s.sealBlock b).recs = { s.recs with queue := [], tail := s.recs.tail + 1#32 } ∧
    (s.sealBlock b).host.hostMem = s.host.hostMem.write (s.recs.base + 512 * (s.recs.tail.toNat % ringSize s.recs.log2 12))
      (s.sealHead b none ++ (s.sign (s.sealHead b none)).1.1 ++ (s.sign (s.sealHead b none)).1.2 ++ zeros 160) ∧
    (s.sealBlock b).sec.signs = s.sec.signs + 1 ∧ ((s.sealBlock b).source (srcOf 0x0705)).state ≠ .idle ∧
    (s.sealBlock b).job = s.job ∧ (s.sealBlock b).cores = s.cores ∧ (s.sealBlock b).srv = s.srv := by
  obtain ⟨e, entry⟩ : ∃ e, e = s.sealHead b none ++ (s.sign (s.sealHead b none)).1.1 ++ (s.sign (s.sealHead b none)).1.2 ++ zeros 160 :=
    ⟨_, rfl⟩
  obtain ⟨u, signed⟩ : ∃ u, u = (s.sign (s.sealHead b none)).2.withRecs { s.recs with queue := [] } := ⟨_, rfl⟩
  have row : s.sealBlock b = (u.recWrite true e).event 0x0705 (BitVec.ofNat 64 b.seq) := by
    unfold State.sealBlock
    dsimp only
    rw [← entry, State.recPush_room (s := (s.sign (s.sealHead b none)).2) empty room, signed]
    rfl
  obtain ⟨recs, mem, kept⟩ := State.recWrite_seal (s := u) (by rw [signed]; exact masked) e
  have sec : (u.recWrite true e).sec = u.sec := (congrArg State.sec kept :)
  have job : (u.recWrite true e).job = u.job := (congrArg State.job kept :)
  have cores : (u.recWrite true e).cores = u.cores := (congrArg State.cores kept :)
  have srv : (u.recWrite true e).srv = u.srv := (congrArg State.srv kept :)
  rw [row, State.event_recs, State.event_host_hostMem, State.event_sec, State.event_job, State.event_cores, State.event_srv, recs, mem,
    sec, job, cores, srv, ← entry, signed]
  exact ⟨rfl, rfl, rfl, State.raiseCode_raised _ false _ _ (by decide) (by decide), rfl, rfl, rfl⟩

theorem State.jobFatal_hostMem {s : State} (run : s.power.mode = .run) (code : Nat) :
    (s.jobFatal code).host.hostMem = s.host.hostMem := by
  have wake : s.wake = s := if_pos run
  unfold State.jobFatal
  rw [wake]
  dsimp only
  split <;> exact State.raiseCode_host_hostMem ..

/-- Settles O45: a block closes into the staged ones while fewer than four are staged; the oldest is signed once it is drained. -/
theorem recordBlocks : Obligations.RecordBlocks := by
  unfold Obligations.RecordBlocks
  refine fun s => ⟨fun shut => ?_, fun b opened => blockClose_open opened, fun ok ok' none => ?_, fun b rest staged =>
    ⟨fun ok ok' open_ early => ?_, fun ok' going drained free => ?_, fun going drained run active first => ?_,
      fun going drained due shut unpaused running empty room masked => ?_⟩⟩
  · refine Eq.trans (b := execBlockClose s) rfl ?_
    unfold execBlockClose
    simp only [shut]
  · refine Eq.trans (b := execBlockSign ok ok' s) rfl ?_
    unfold execBlockSign
    simp only [none]
  · rw [blockSign_row staged, if_pos (by simp [open_, early])]
  · refine ⟨_, (blockSign_row staged false ok').trans ((if_neg ?_).trans (if_pos rfl)), State.moduleFatal_due free 0x0902 0,
      State.moduleFatal_recs .., ?_⟩
    · rcases drained with d | d <;> simp [going, d]
    · exact State.raiseCode_host_hostMem ..
  · refine ⟨_, (blockSign_row staged true false).trans ((if_neg ?_).trans ((if_neg (by decide)).trans (if_pos rfl))), ?_⟩
    · rcases drained with d | d <;> simp [going, d]
    · refine ⟨(State.jobFatal_first run active first 0x0903 none).1, State.jobFatal_recs .., ?_⟩
      exact State.jobFatal_hostMem run 0x0903
  · obtain ⟨recs, mem, signs, source, job, cores, srv⟩ :=
      State.sealBlock_shows (s := s.withRecs { s.recs with staged := rest }) empty room masked b
    have row : exec (.blockSign true true) s = .next ((s.withRecs { s.recs with staged := rest }).sealBlock b) := by
      rw [blockSign_row staged, if_neg (by rcases drained with d | d <;> simp [going, d]), if_neg (by decide), if_neg (by decide)]
      dsimp only
      rw [if_neg (by rw [recs]; simp [State.withRecs, due]), State.resumeStage4_none (by rw [srv]; exact shut) (by rw [srv]; exact unpaused),
        State.settlePause, if_neg (by rw [srv]; simp [State.withRecs, running])]
    refine ⟨_, row, ?_⟩
    dsimp only
    rw [recs, mem, signs, job, cores]
    exact ⟨rfl, rfl, rfl, rfl, rfl, rfl, source, rfl, rfl⟩

end Sys2Proof.Machine

/-! PROOF. What reaches the serving engine (R278, R281, R282, R285, R286, R292, R293). -/
namespace Sys2Proof.Machine

/-! ### The request table -/

theorem Map.find?_put_same {α : Type} (m : Map α) (k : Nat) (x : α) :
    (List.find? (fun e => decide (e.1 = k)) (m.put k x)) = some (k, x) := by
  have fresh : ∀ e ∈ Map.del m k, e.1 ≠ k := by
    intro e mem same
    have := Map.has_del_same m k
    induction m with
    | nil => exact absurd mem (by simp [Map.del])
    | cons a m ih =>
      unfold Map.del at mem this
      split at mem
      case isTrue here => exact ih mem (by simpa [here] using this)
      case isFalse there =>
        rw [if_neg there] at this
        rcases List.mem_cons.mp mem with rfl | mem
        · exact there same
        · exact ih mem (by simpa [Map.has, there] using this)
  unfold Map.put
  generalize Map.del m k = d at fresh
  induction d with
  | nil => simp [Map.ins]
  | cons a d ih =>
    unfold Map.ins
    split
    · simp
    · rw [List.find?_cons_of_neg (by simpa using fresh a List.mem_cons_self)]
      exact ih fun e mem => fresh e (List.mem_cons_of_mem _ mem)

@[simp] theorem State.req_setReq (s : State) (id : Nat) (q : Req) : (s.setReq id q).req id = some q := by
  unfold State.req
  rw [if_pos (by simp [State.setReq, State.withSrv])]
  exact congrArg (Option.map _) (Map.find?_put_same s.srv.reqs id q)

theorem State.req_of_reqs {s t : State} (reqs : t.srv.reqs = s.srv.reqs) (id : Nat) : t.req id = s.req id := by
  unfold State.req
  rw [reqs]

/-! ### A round of fetches (R278, R417) -/

theorem State.fetchRing_off {s : State} {r : Nat} (off : (s.reqRing r).enable = false) (v : HostView) : s.fetchRing v r = s := by
  unfold State.fetchRing
  simp [off]

/-- In a round over the rings only the enabled one is fetched from. -/
theorem State.fetchRings_one {s : State} {r : Nat} (v : HostView) (others : ∀ k, k < 64 → k ≠ r → (s.reqRing k).enable = false)
    (apart : ∀ j, j ≠ r → (s.fetchRing v r).reqRing j = s.reqRing j) (l : List Nat) (low : ∀ k ∈ l, k < 64) (once : l.Nodup) :
    l.foldl (fun s r => s.fetchRing v r) s = if r ∈ l then s.fetchRing v r else s := by
  have idle : ∀ {t : State} (l : List Nat), (∀ k ∈ l, (t.reqRing k).enable = false) → l.foldl (fun s r => s.fetchRing v r) t = t := by
    intro t l off
    induction l with
    | nil => rfl
    | cons k l ih =>
      rw [List.foldl_cons, State.fetchRing_off (off k List.mem_cons_self)]
      exact ih fun j mem => off j (List.mem_cons_of_mem _ mem)
  induction l with
  | nil => rfl
  | cons k l ih =>
    obtain ⟨notin, once⟩ := List.nodup_cons.mp once
    have lows : ∀ j ∈ l, j < 64 := fun j mem => low j (List.mem_cons_of_mem _ mem)
    rw [List.foldl_cons]
    by_cases here : k = r
    · subst here
      rw [if_pos List.mem_cons_self]
      refine idle l fun j mem => ?_
      have other : j ≠ k := fun same => notin (same ▸ mem)
      rw [apart j other]
      exact others j (lows j mem) other
    · rw [State.fetchRing_off (others k (low k List.mem_cons_self) here), ih lows once]
      have same : (r ∈ k :: l) = (r ∈ l) := propext ⟨fun mem => (List.mem_cons.mp mem).resolve_left (Ne.symm here), List.mem_cons_of_mem _⟩
      simp only [same]

/-- What reading the entries of a ring gives when all reads succeed. -/
theorem takeWhile_isSome_reads {α : Type} (f : Nat → Option α) (k : Nat) (good : ∀ i, i < k → (f i).isSome = true) :
    ((List.range k).map f).takeWhile (fun e => e.isSome) = (List.range k).map f := by
  refine List.takeWhile_eq_self_iff.mpr fun e mem => ?_
  obtain ⟨i, low, rfl⟩ := List.mem_map.mp mem
  exact good i (List.mem_range.mp low)

theorem zipIdx_map_range {α β : Type} (f : Nat → α) (g : α × Nat → β) (k : Nat) :
    (((List.range k).map f).zipIdx).map g = (List.range k).map fun i => g (f i, i) := by
  refine List.ext_getElem (by simp) fun i _ _ => ?_
  simp

/-- A round in which every read succeeds (R278). -/
theorem State.fetchRing_good {s : State} {r : Nat} {v : HostView} (on : (s.reqRing r).enable = true)
    (good : ∀ i, i < min 16 ((s.reqRing r).tail - (s.reqRing r).head).toNat →
      (v.read ((s.reqRing r).base + 128 * (((s.reqRing r).head.toNat + i) % ringSize (s.reqRing r).log2 4)) 128).isSome = true) :
    s.fetchRing v r = (s.withSrv { s.srv with
      fetched := s.srv.fetched ++ (List.range (min 16 ((s.reqRing r).tail - (s.reqRing r).head).toNat)).map (fun i => (s.srv.arrival + i,
        (v.read ((s.reqRing r).base + 128 * (((s.reqRing r).head.toNat + i) % ringSize (s.reqRing r).log2 4)) 128).getD []))
      arrival := s.srv.arrival + min 16 ((s.reqRing r).tail - (s.reqRing r).head).toNat }).setReqRing r { s.reqRing r with
        head := (s.reqRing r).head + BitVec.ofNat 32 (min 16 ((s.reqRing r).tail - (s.reqRing r).head).toNat) } := by
  unfold State.fetchRing
  dsimp only
  rw [if_neg (by simp [on]), takeWhile_isSome_reads _ _ good, zipIdx_map_range, List.length_map, List.length_range,
    if_neg (Nat.lt_irrefl _)]

/-- A round whose first read fails: the ring stops. -/
theorem State.fetchRing_failed {s : State} {r : Nat} {v : HostView} (on : (s.reqRing r).enable = true)
    (some_ : 0 < min 16 ((s.reqRing r).tail - (s.reqRing r).head).toNat)
    (bad : v.read ((s.reqRing r).base + 128 * (((s.reqRing r).head.toNat + 0) % ringSize (s.reqRing r).log2 4)) 128 = none) :
    (s.fetchRing v r).reqRing r = { s.reqRing r with enable := false, error := true } ∧
      (s.fetchRing v r).srv.fetched = s.srv.fetched ∧ (s.fetchRing v r).srv.arrival = s.srv.arrival ∧
      (s.fetchRing v r).srv.boundary = s.srv.boundary ∧ (s.fetchRing v r).job = s.job ∧
      ∀ j, j ≠ r → (s.fetchRing v r).reqRing j = s.reqRing j := by
  obtain ⟨u, row, ring, fetched, arrival, boundary, job, others⟩ : ∃ u : State, s.fetchRing v r = u.dmaFailed.stopRing r ∧
      u.reqRing r = s.reqRing r ∧ u.srv.fetched = s.srv.fetched ∧ u.srv.arrival = s.srv.arrival ∧ u.srv.boundary = s.srv.boundary ∧
      u.job = s.job ∧ ∀ j, j ≠ r → u.reqRing j = s.reqRing j := by
    obtain ⟨k, count⟩ : ∃ k, min 16 ((s.reqRing r).tail - (s.reqRing r).head).toNat = k + 1 := ⟨_, (Nat.succ_pred_eq_of_pos some_).symm⟩
    have row : s.fetchRing v r = (((s.withSrv { s.srv with fetched := s.srv.fetched ++ [], arrival := s.srv.arrival + 0 }).setReqRing r
        { s.reqRing r with head := (s.reqRing r).head + BitVec.ofNat 32 0 }).dmaFailed.stopRing r) := by
      unfold State.fetchRing
      dsimp only
      rw [if_neg (by simp [on]), count, List.range_succ_eq_map, List.map_cons, bad, List.takeWhile_cons_of_neg (by simp),
        List.length_nil, if_pos (Nat.succ_pos k)]
      rfl
    refine ⟨_, row, ?_, List.append_nil _, rfl, rfl, rfl, fun j other => State.reqRing_setReqRing_other _ _ other⟩
    rw [State.reqRing_setReqRing]
    simp
  have srv : u.dmaFailed.srv = u.srv := State.event_srv ..
  have stop : (u.dmaFailed.stopRing r).srv = (u.dmaFailed.setReqRing r { u.dmaFailed.reqRing r with enable := false, error := true }).srv :=
    State.event_srv ..
  have rings : ∀ j, u.dmaFailed.reqRing j = u.reqRing j := fun j => by rw [State.reqRing, srv]; rfl
  rw [row]
  refine ⟨?_, ?_, ?_, ?_, (State.event_job ..).trans ((State.event_job ..).trans job), fun j other => ?_⟩
  · rw [State.reqRing, stop, ← ring, ← rings]
    exact State.reqRing_setReqRing ..
  · rw [stop]
    exact (congrArg Serve.fetched srv).trans fetched
  · rw [stop]
    exact (congrArg Serve.arrival srv).trans arrival
  · rw [stop]
    exact (congrArg Serve.boundary srv).trans boundary
  · rw [State.reqRing, stop, ← others j other, ← rings]
    exact State.reqRing_setReqRing_other _ _ other

theorem State.runBoundary_shut {s : State} (shut : s.srv.boundary = false) : s.runBoundary = s := by
  unfold State.runBoundary
  rw [if_pos (by simp [shut])]

/-- A round outside a boundary over rings of which one is enabled. -/
theorem ringFetch_one {s : State} {r : Nat} {v : HostView} (fetching : s.fetching = true) (low : r < 64)
    (others : ∀ k, k < 64 → k ≠ r → (s.reqRing k).enable = false)
    (apart : ∀ j, j ≠ r → (s.fetchRing v r).reqRing j = s.reqRing j) (shut : (s.fetchRing v r).srv.boundary = false) :
    exec (.ringFetch v) s = .next (s.fetchRing v r) := by
  refine Eq.trans (b := execRingFetch v s) rfl ?_
  unfold execRingFetch
  rw [if_neg (by simp [fetching]), State.fetchRings_one v others apart _ (fun k => List.mem_range.mp) List.nodup_range,
    if_pos (List.mem_range.mpr low)]
  dsimp only
  rw [State.runBoundary_shut shut, ite_self]

/-! ### Result units (R292, R293) -/

theorem resultUnit_row {s : State} {c : Nat} (there : s.hasCore c = true) (bound : s.bound c 31 = true)
    (kind : (s.queue c 31).kind = .step) (whole : 128 ≤ (s.queue c 31).stage.length) (running : s.job.state = .running)
    (going : s.stop = none) (serving : s.srv.cfg.isSome = true) (lead : s.multi = false ∨ s.fab.lead = true)
    (run : s.power.mode = .run) :
    exec (.resultUnit c) s = .next ((s.setQueue c 31 { s.queue c 31 with stage := (s.queue c 31).stage.drop 128 }).resultUnit
      ((s.queue c 31).stage.take 128)) := by
  have idle : (!s.bound c 31 || decide ((s.queue c 31).kind ≠ .step) || decide ((s.queue c 31).stage.length < 128) ||
      decide (s.job.state ≠ .running) || s.stop.isSome || s.srv.cfg.isNone || (s.multi && !s.fab.lead)) = false := by
    have served : s.srv.cfg.isNone = false := by cases cfg : s.srv.cfg <;> simp [cfg] at serving ⊢
    rcases lead with alone | lead
    · simp [bound, kind, running, going, served, alone]; omega
    · simp [bound, kind, running, going, served, lead]; omega
  refine Eq.trans (b := execResultUnit c s) rfl ?_
  unfold execResultUnit
  rw [onCore_next s c _ there]
  dsimp only
  rw [if_neg (by rw [idle]; decide)]
  exact congrArg (fun t : State => Host.Outcome.next (t.resultUnit ((s.queue c 31).stage.take 128)))
    (show (s.setQueue c 31 _).wake = _ from if_pos run)

theorem State.resultBad_setQueue (s : State) (c h : Nat) (q : Queue) (b : Bytes) : (s.setQueue c h q).resultBad b = s.resultBad b := rfl

/-- A unit of another step, of another place in it, or with more ids than R293 has room for. -/
theorem State.resultBad_of {s : State} {r : StepRun} {b : Bytes} (step : s.srv.step = some r)
    (bad : fld b 0 4 ≠ r.seq % 2 ^ 32 ∨ fld b 4 4 ≠ r.tokens.length ∨ 28 < fld b 8 1 ∨ r.samples.length - r.tokens.length < fld b 8 1) :
    s.resultBad b = true := by
  unfold State.resultBad
  simp only [step, Bool.or_eq_true, decide_eq_true_eq]
  tauto

/-- A unit that R293 allows and that is not the step's last hands over its tokens. -/
theorem State.resultUnit_good {s : State} {r : StepRun} {b : Bytes} (step : s.srv.step = some r) (good : s.resultBad b = false)
    (more : bit (fld b 9 1) 0 = false) :
    s.resultUnit b = s.withSrv { s.srv with
      step := some { r with tokens := r.tokens ++ (List.range (fld b 8 1)).map fun i => fld b (16 + 4 * i) 4 } } := by
  unfold State.resultUnit
  rw [if_neg (by simp [good])]
  simp only [step, more]
  exact if_neg (by decide)

/-! ### Prompts (R281, R286, R298) -/

theorem promptReadDone_failed {s : State} {id : Nat} {q : Req} {v : HostView} (req : s.req id = some q) (fetching : q.state = .fetching)
    (read : v.read q.par.promptAddr (4 * q.par.promptLen) = none) (shut : s.srv.boundary = false) :
    exec (.promptReadDone id v) s = .next ((s.dmaFailed.event 0x0704).endReq id q stHostError) := by
  refine Eq.trans (b := execPromptReadDone id v s) rfl ?_
  unfold execPromptReadDone
  simp only [req, read]
  rw [if_neg (by simp [fetching]), if_neg]
  show ¬ (s.dmaFailed.event 0x0704).srv.boundary = true
  rw [State.event_srv, State.dmaFailed, State.event_srv, shut]
  decide

theorem promptReadDone_read {s : State} {id : Nat} {q : Req} {v : HostView} {b : Bytes} (req : s.req id = some q)
    (fetching : q.state = .fetching) (read : v.read q.par.promptAddr (4 * q.par.promptLen) = some b) (shut : s.srv.boundary = false)
    {ids : List Nat} (spelt : ids = (List.range q.par.promptLen).map fun i => fld b (4 * i) 4) :
    ((∃ i, i ∈ ids ∧ s.serveCfg.vocab ≤ i) → exec (.promptReadDone id v) s = .next (s.endReq id q stBadDesc)) ∧
      ((∀ i ∈ ids, i < s.serveCfg.vocab) → (s.promptOk id q ids).srv.boundary = false →
        exec (.promptReadDone id v) s = .next (s.promptOk id q ids)) := by
  have row : exec (.promptReadDone id v) s = execPromptReadDone id v s := rfl
  unfold execPromptReadDone at row
  simp only [req, read] at row
  rw [if_neg (by simp [fetching]), ← spelt] at row
  refine ⟨fun ⟨i, mem, high⟩ => ?_, fun low still => ?_⟩
  · rw [row, if_pos (List.any_eq_true.mpr ⟨i, mem, by simpa using high⟩)]
    exact congrArg Host.Outcome.next (if_neg (by show ¬ s.srv.boundary = true; simp [shut]))
  · have fits : ¬ (ids.any fun t => s.serveCfg.vocab ≤ t) = true := fun bad => by
      obtain ⟨i, mem, high⟩ := List.any_eq_true.mp bad
      have := low i mem
      simp at high
      omega
    rw [row, if_neg fits, if_neg (by rw [still]; decide)]

theorem State.endReq_shows (s : State) (id : Nat) (q : Req) (status : Nat) :
    (s.endReq id q status).req id = some { q with state := .ending, status := status } ∧ (s.endReq id q status).job = s.job ∧
      (s.endReq id q status).far = s.far ∧ (s.endReq id q status).srv.boundary = s.srv.boundary :=
  ⟨(State.req_of_reqs rfl id).trans (s.req_setReq id { q with state := .ending, status := status }), rfl, rfl, rfl⟩

/-- A prompt that has been read well makes its request WAITING. -/
theorem State.promptOk_shows (s : State) (id : Nat) (q : Req) (ids : List Nat) :
    (∃ z, (s.promptOk id q ids).req id = some z ∧ z.state = .waiting ∧ z.tokens = ids ∧ z.waitStart = s.gsc ∧ z.gscWaiting = s.gsc ∧
      z.par = q.par) ∧ (s.promptOk id q ids).job = s.job ∧ (s.promptOk id q ids).cores = s.cores ∧ (s.promptOk id q ids).gsc = s.gsc ∧
      (s.promptOk id q ids).srv.boundary = s.srv.boundary := by
  obtain ⟨z, named⟩ : ∃ z : Req, z = { q with
    state := .waiting, waitStart := s.gsc, gscWaiting := s.gsc, tokens := ids
    pen := if q.par.penalised then ids.foldl penAdd [] else [] } := ⟨_, rfl⟩
  have leaves : ∀ {α : Type} {v : State → α}, (∀ (s : State) f, v { s with far := f } = v s) →
      v (s.promptOk id q ids) = v (s.setReq id z) := fun kept => by
    subst named
    exact ((State.engineWrite_leaves kept ..).trans (State.engineWrite_leaves kept ..)).trans (State.engineWrite_leaves kept ..)
  refine ⟨⟨z, (State.req_of_reqs (leaves (v := fun t => t.srv.reqs) fun _ _ => rfl) id).trans (s.req_setReq id z), ?_⟩, leaves fun _ _ => rfl, leaves fun _ _ => rfl,
    leaves fun _ _ => rfl, leaves (v := fun t => t.srv.boundary) fun _ _ => rfl⟩
  subst named
  exact ⟨rfl, rfl, rfl, rfl, rfl⟩

/-! ### An open boundary that is run again (R285, R286) -/

/-- A boundary whose stage 4 is held stays as it is. -/
theorem State.runBoundary_held {s : State} {e : Nat} {ws : List CplWork} {z : Req} (stage4 : s.srv.stage4 = true) (work : s.srv.work = .finish e :: ws) (req : s.req e = some z) (built : z.built = false)
    (recorded : z.recorded = true) (full : s.canRecord = false) (unpaused : s.srv.pauseAt = none) : s.runBoundary = s := by
  have due : s.pauseDue = false := by unfold State.pauseDue; simp [unpaused]
  have held : s.workOne (.finish e) = none := by
    unfold State.workOne
    simp [req, built, recorded, full]
  have all : State.workAll s.srv.work s = s := by
    rw [work]
    unfold State.workAll
    simp only [held]
    rw [← work]
    rfl
  unfold State.runBoundary
  rw [due]
  cases boundary : s.srv.boundary with
  | false => exact if_pos (by simp)
  | true =>
    have one : s.pass 3 = s := by
      rw [State.pass, if_neg (by simp [boundary])]
      dsimp only
      rw [if_pos stage4, all, if_pos (by simp [work])]
    split
    · rfl
    · exact (congrArg (State.pass 3) (if_neg (by simp))).trans one

theorem requestUrgent_row {s : State} {id : Nat} {q : Req} (req : s.req id = some q) (n : Nat)
    (reach : n = 1000 * (s.srv.customers.find .init q.par.customer).maxWaitUs) (state : q.state = .waiting ∨ q.state = .active)
    (own : q.audit = none) (boundary : s.srv.boundary = true) :
    exec (.requestUrgent id) s = if (s.srv.customers.find .init q.par.customer).maxWaitUs = 0 then .next s
      else .next (s.advanceTo (q.waitStart + n + 1)).runBoundary := by
  refine Eq.trans (b := execRequestUrgent id s) rfl ?_
  unfold execRequestUrgent
  simp only [req, reach]
  rcases state with w | a
  · simp [w, own, boundary]
  · simp [a, own, boundary]

theorem State.stage2_none {s : State} (fetched : s.srv.fetched = []) : s.stage2 = s := by
  unfold State.stage2
  rw [fetched]
  exact congrArg s.withSrv (by rw [← fetched])

theorem State.stage3_none {s : State} (changes : s.srv.changes = []) : s.stage3 = s := by
  unfold State.stage3
  rw [changes]
  exact congrArg s.withSrv (by rw [← changes])

theorem State.casBoundary_none {s : State} (loads : s.cas.loads = []) (unloads : s.cas.unloads = []) : s.casBoundary = s := by
  unfold State.casBoundary
  rw [unloads]
  have same : s.withCas { s.cas with unloads := [] } = s := congrArg s.withCas (by rw [← unloads])
  dsimp only [List.foldl_nil]
  rw [same, loads]
  rfl

/-- Trials without a row choose no step. -/
theorem bestTrial_idle (l : List (Nat × StepShape × Trial)) (idle : ∀ x ∈ l, x.2.2.rows = 0) : bestTrial l = none := by
  unfold bestTrial
  induction l with
  | nil => rfl
  | cons x l ih =>
    rw [List.foldl_cons, if_pos (idle x List.mem_cons_self)]
    exact ih fun y mem => idle y (List.mem_cons_of_mem _ mem)

theorem State.chooseStep_none {s : State} (reqs : s.srv.reqs = []) : s.chooseStep = none := by
  unfold State.chooseStep
  rw [reqs]
  refine bestTrial_idle _ fun x mem => ?_
  obtain ⟨y, -, rfl⟩ := List.mem_map.mp mem
  rfl

/-- A pass whose stage 4 finishes its work and after which nothing new has come. -/
theorem State.pass_through {s a w u : State} (n : Nat) (boundary : s.srv.boundary = true) (stage4 : s.srv.stage4 = false)
    (begins : s.stage2.stage3.stage4Begin = a) (works : State.workAll a.srv.work a = w) (done : w.srv.work = [])
    (refills : (w.withSrv { w.srv with stage4 := false }).stage5 = u) (due : u.pauseDue = false) (fetched : u.srv.fetched = [])
    (changes : u.srv.changes = []) : s.pass (n + 1) = u.stage6 := by
  rw [State.pass, if_neg (by simp [boundary])]
  dsimp only
  have enter : (if s.srv.stage4 = true then s else s.stage2.stage3.stage4Begin) = a := by rw [stage4, ← begins]; exact if_neg (by decide)
  rw [enter, works, if_neg (not_not.mpr done), refills, due, if_neg (by decide), fetched, changes]
  exact if_neg (by simp)

/-- A boundary with nothing to do refills the customers. -/
theorem State.runBoundary_refill {s : State} (boundary : s.srv.boundary = true) (running : s.job.state = .running) (going : s.stop = none)
    (unpaused : s.srv.pauseAt = none) (stage4 : s.srv.stage4 = false) (reqs : s.srv.reqs = []) (fetched : s.srv.fetched = [])
    (changes : s.srv.changes = []) (work : s.srv.work = []) (loads : s.cas.loads = []) (unloads : s.cas.unloads = []) :
    s.runBoundary = s.withSrv { s.srv with
      window := s.gsc / s.windowNs, customers := s.srv.customers.map fun e => (e.1, e.2.refilled (s.gsc / s.windowNs)) } := by
  have due : s.pauseDue = false := by unfold State.pauseDue; simp [unpaused]
  have start : s.stage2.stage3.stage4Begin = s.withSrv { s.srv with stage4 := true } := by
    rw [State.stage2_none fetched, State.stage3_none changes]
    unfold State.stage4Begin
    simp only [reqs, work, List.filter_nil, List.map_nil, List.append_nil]
  have idle : State.workAll [] (s.withSrv { s.srv with stage4 := true }) = s.withSrv { s.srv with stage4 := true } := by
    show s.withSrv { s.srv with stage4 := true, work := [] } = _
    rw [← work]
  have back : (s.withSrv { s.srv with stage4 := true }).withSrv { (s.withSrv { s.srv with stage4 := true }).srv with stage4 := false } =
      s := by
    show s.withSrv { s.srv with stage4 := false } = s
    rw [← stage4]
    rfl
  have six : s.stage5.stage6 = s.stage5 := by
    unfold State.stage6
    rw [State.chooseStep_none (s := s.stage5) reqs]
    exact State.casBoundary_none (s := s.stage5) loads unloads
  have enters : s.runBoundary = s.pass 3 := by
    unfold State.runBoundary
    rw [if_neg (by simp [running, going, boundary]), due]
    rfl
  rw [enters, State.pass_through 2 boundary stage4 start ((congrArg (fun l => State.workAll l _) work).trans idle) work
    (congrArg State.stage5 back) due fetched changes, six]
  rfl

theorem Customer.refilled_eq (x : Customer) (w : Nat) :
    x.refilled w = if x.enabled = true ∧ x.win < w then
      { x with balance := min (x.burst : Int) (x.balance + x.refill * ((w : Int) - x.win)), served := 0, win := w } else x := by
  unfold Customer.refilled
  by_cases turn : x.enabled = true ∧ x.win < w
  · rw [if_pos turn, if_pos (by simpa using turn)]
  · rw [if_neg turn, if_neg (by simpa using turn)]

theorem refillWindow_open {s : State} (boundary : s.srv.boundary = true) (running : s.job.state = .running) (going : s.stop = none)
    (unpaused : s.srv.pauseAt = none) (stage4 : s.srv.stage4 = false) (reqs : s.srv.reqs = []) (fetched : s.srv.fetched = [])
    (changes : s.srv.changes = []) (work : s.srv.work = []) (loads : s.cas.loads = []) (unloads : s.cas.unloads = []) :
    completes .refillWindow s fun t => let w := t.gsc / s.windowNs
        t.gsc = (if s.gsc / s.windowNs = s.srv.window then max s.gsc ((s.srv.window + 1) * s.windowNs) else s.gsc) ∧
        t.srv.window = w ∧ t.srv.boundary = true ∧ t.job = s.job ∧ t.cores = s.cores ∧
        ∀ c, let x := s.srv.customers.find .init c
          t.srv.customers.find .init c = if x.enabled = true ∧ x.win < w then
            { x with balance := min (x.burst : Int) (x.balance + x.refill * ((w : Int) - x.win)), served := 0, win := w } else x := by
  obtain ⟨u, row, gsc, srv, job, stop, cas, cores⟩ : ∃ u : State, exec .refillWindow s = .next u.runBoundary ∧
      u.gsc = (if s.gsc / s.windowNs = s.srv.window then max s.gsc ((s.srv.window + 1) * s.windowNs) else s.gsc) ∧ u.srv = s.srv ∧
      u.job = s.job ∧ u.stop = s.stop ∧ u.cas = s.cas ∧ u.cores = s.cores := by
    refine ⟨if s.gsc / s.windowNs = s.srv.window then s.advanceTo ((s.srv.window + 1) * s.windowNs) else s, ?_, ?_⟩
    · refine Eq.trans (b := execRefillWindow s) rfl ?_
      unfold execRefillWindow
      rw [if_neg (by simp [boundary])]
    · split
      · exact ⟨s.advanceTo_gsc _, s.advanceTo_srv _, s.advanceTo_job _, s.advanceTo_stop _, s.advanceTo_cas _, s.advanceTo_cores _⟩
      · exact ⟨rfl, rfl, rfl, rfl, rfl, rfl⟩
  have window : u.windowNs = s.windowNs := by unfold State.windowNs State.serveCfg; rw [srv]
  rw [State.runBoundary_refill (srv ▸ boundary) (job ▸ running) (stop ▸ going) (srv ▸ unpaused) (srv ▸ stage4) (srv ▸ reqs) (srv ▸ fetched)
    (srv ▸ changes) (srv ▸ work) (cas ▸ loads) (cas ▸ unloads), window, srv] at row
  refine ⟨_, row, gsc, rfl, boundary, job, cores, fun c => ?_⟩
  exact (Map.find_mapValues _ (fun x : Customer => x.refilled (u.gsc / s.windowNs)) rfl c).trans (Customer.refilled_eq ..)

/-- Settles O44: each row is run down to the one step of the engine it takes; an open boundary is run either up to a held stage 4 or,
with nothing to do, through a single pass. -/
theorem servingEvents : Obligations.ServingEvents := by
  unfold Obligations.ServingEvents
  refine fun s => ⟨fun v still => if_pos (by simp [still]), fun v r fetching low shut on others => ⟨fun good => ?_, fun first bad => ?_⟩,
    fun c b there bound kind whole cut running going serving lead run => ⟨fun r step bad first => ?_, fun r step good more => ?_⟩,
    fun id q v req fetching shut => ⟨fun bad => ?_, fun b read => ⟨fun high => ?_, fun low => ?_⟩⟩, fun id q v req state => ?_,
    fun id q e ws z req state own boundary running stage4 work held built recorded full unpaused going => ⟨fun wait => ?_, fun never => ?_⟩,
    fun id idle => ?_, fun shut => ?_, fun boundary running going unpaused stage4 reqs fetched changes work loads unloads =>
      refillWindow_open boundary running going unpaused stage4 reqs fetched changes work loads unloads⟩
  · have row := State.fetchRing_good on good
    have apart : ∀ j, j ≠ r → (s.fetchRing v r).reqRing j = s.reqRing j := fun j other => by
      rw [row]
      exact State.reqRing_setReqRing_other _ _ other
    refine ⟨_, ringFetch_one fetching low others apart (by rw [row]; exact shut), ?_⟩
    dsimp only
    rw [row]
    exact ⟨State.reqRing_setReqRing .., rfl, rfl, fun j other => State.reqRing_setReqRing_other _ _ other, rfl⟩
  · obtain ⟨ring, fetched, arrival, boundary, job, apart⟩ := State.fetchRing_failed on first bad
    exact ⟨_, ringFetch_one fetching low others apart (boundary.trans shut), ring, fetched, arrival, job⟩
  · subst cut
    refine ⟨_, resultUnit_row there bound kind whole running going serving lead run, ?_⟩
    rw [State.resultUnit, if_pos ((State.resultBad_setQueue ..).trans (State.resultBad_of step bad))]
    obtain ⟨fault, -, stop⟩ := State.jobFatal_first (s := s.setQueue c 31 { s.queue c 31 with stage := (s.queue c 31).stage.drop 128 }) run
      (by simp [State.setQueue, JobState.active, running]) first 0x0701 none
    exact ⟨fault, stop, State.jobFatal_srv ..⟩
  · subst cut
    refine ⟨_, resultUnit_row there bound kind whole running going serving lead run, ?_⟩
    rw [State.resultUnit_good (s := s.setQueue c 31 _) step ((State.resultBad_setQueue ..).trans good) more]
    exact ⟨rfl, State.queue_setQueue .., rfl, rfl⟩
  · obtain ⟨req', job, -, -⟩ := (s.dmaFailed.event 0x0704).endReq_shows id q stHostError
    exact ⟨_, promptReadDone_failed req fetching bad shut, ⟨_, req', rfl, rfl⟩,
      job.trans ((State.event_job ..).trans (State.event_job ..))⟩
  · obtain ⟨req', job, far, -⟩ := s.endReq_shows id q stBadDesc
    exact ⟨_, (promptReadDone_read req fetching read shut rfl).1 high, ⟨_, req', rfl, rfl⟩, far, job⟩
  · obtain ⟨waiting, job, cores, gsc, boundary⟩ := s.promptOk_shows id q ((List.range q.par.promptLen).map fun i => fld b (4 * i) 4)
    exact ⟨_, (promptReadDone_read req fetching read shut rfl).2 low (boundary.trans shut), waiting, job, cores, gsc⟩
  · refine Eq.trans (b := execPromptReadDone id v s) rfl ?_
    unfold execPromptReadDone
    simp only [req]
    exact if_pos state
  · obtain ⟨n, reach⟩ : ∃ n, n = 1000 * (s.srv.customers.find .init q.par.customer).maxWaitUs := ⟨_, rfl⟩
    rw [← reach, requestUrgent_row req n reach state own boundary, if_neg wait]
    have srv := s.advanceTo_srv (q.waitStart + n + 1)
    have recs := s.advanceTo_recs (q.waitStart + n + 1)
    refine congrArg Host.Outcome.next (State.runBoundary_held (srv ▸ stage4) (srv ▸ work) ((State.req_of_reqs (by rw [srv]) e).trans held) built
      recorded ?_ (srv ▸ unpaused))
    rw [← full]
    unfold State.canRecord
    rw [recs]
  · rw [requestUrgent_row req _ rfl state own boundary, if_pos never]
  · refine Eq.trans (b := execRequestUrgent id s) rfl ?_
    unfold execRequestUrgent
    cases req : s.req id with
    | none => rfl
    | some q =>
      have shut : s.srv.boundary = false := idle.resolve_left (by simp [req])
      exact if_pos (by simp [shut])
  · exact if_pos (by simp [shut])

end Sys2Proof.Machine

/-! PROOF. Launch units, their answers, and job-stop units (R403 to R405, R489). -/
namespace Sys2Proof.Machine

/-- What a MAINT message to a rank leaves: it is noted as sent, and of the rest only the ports, the discards and the free bytes change. -/
theorem State.sendMsg_maint_sent (s : State) (r x : Nat) (m : FabMsg) :
    (s.sendMsg r 3 x m).fab.sent = s.fab.sent ++ [(r, m)] ∧ (s.sendMsg r 3 x m).fab.startAt = s.fab.startAt ∧
      (s.sendMsg r 3 x m).fab.launchAt = s.fab.launchAt := by
  have own : ∀ (s : State) (dest : Nat) (b : Bytes), (s.sendOwn dest 3 x b).fab.sent = s.fab.sent ∧
      (s.sendOwn dest 3 x b).fab.startAt = s.fab.startAt ∧ (s.sendOwn dest 3 x b).fab.launchAt = s.fab.launchAt := by
    intro s dest b
    unfold State.sendOwn
    split <;> exact ⟨rfl, rfl, rfl⟩
  unfold State.sendMsg
  dsimp only
  obtain ⟨sent, start, launch⟩ := own { (match m with | .descriptor d => (d, s) | _ => s.freeBytes 256).2 with
    fab := { (match m with | .descriptor d => (d, s) | _ => s.freeBytes 256).2.fab with
      sent := (match m with | .descriptor d => (d, s) | _ => s.freeBytes 256).2.fab.sent ++ [(r, m)] } } (s.fab.ranks.find 0 r)
    (match m with | .descriptor d => (d, s) | _ => s.freeBytes 256).1
  refine ⟨sent.trans ?_, start.trans ?_, launch.trans ?_⟩ <;> cases m <;> rfl

theorem launchUnit_rank {s : State} {n : Nat} {im man rk : Bytes} (multi : s.multi = true) (follower : s.fab.lead = false)
    (run : s.power.mode = .run) :
    let ok := s.startable = true ∧ s.alignedNow = true ∧ s.image.map (fun i => i.digest) = some im ∧ s.recs.manifestDigest = man ∧
      s.fab.ranksDigest = rk ∧ s.gsc + 10000 ≤ n
    completes (.launchUnit n im man rk) s fun t => t.job = s.job ∧ t.gsc = s.gsc ∧ t.cores = s.cores ∧
      (ok → t.fab.startAt = some n ∧ t.fab.launchAt = n ∧ t.fab.sent = s.fab.sent ++ [(s.fab.leadRank, .answer true)]) ∧
      (¬ ok → t.fab.startAt = s.fab.startAt ∧ t.fab.launchAt = s.fab.launchAt ∧
        t.fab.sent = s.fab.sent ++ [(s.fab.leadRank, .answer false)]) := by
  intro ok
  obtain ⟨a, answer⟩ : ∃ a : Bool, a = (s.startable && s.alignedNow && s.image.any (fun i => i.digest = im) &&
      s.recs.manifestDigest = man && s.fab.ranksDigest = rk && s.gsc + 10000 ≤ n) := ⟨_, rfl⟩
  have accepts : a = true ↔ ok := by
    rw [answer]
    cases image : s.image <;> simp [ok, image, and_assoc]
  obtain ⟨u, sends⟩ : ∃ u, u = s.sendMsg s.fab.leadRank 3 0xFFFD (.answer a) := ⟨_, rfl⟩
  have row : exec (.launchUnit n im man rk) s = .next (if a then u.withFab { u.fab with startAt := some n, launchAt := n } else u) := by
    refine Eq.trans (b := execLaunchUnit n im man rk s) rfl ?_
    unfold execLaunchUnit
    rw [if_neg (by simp [multi, follower]), sends, answer, show s.wake = s from if_pos run]
  have job : u.job = s.job := sends ▸ State.sendMsg_maint_keeps State.job (fun _ _ _ _ => rfl) ..
  have gsc : u.gsc = s.gsc := sends ▸ State.sendMsg_maint_keeps State.gsc (fun _ _ _ _ => rfl) ..
  have cores : u.cores = s.cores := sends ▸ State.sendMsg_maint_keeps State.cores (fun _ _ _ _ => rfl) ..
  obtain ⟨sent, start, launch⟩ : u.fab.sent = s.fab.sent ++ [(s.fab.leadRank, .answer a)] ∧ u.fab.startAt = s.fab.startAt ∧
      u.fab.launchAt = s.fab.launchAt := sends ▸ State.sendMsg_maint_sent ..
  refine ⟨_, row, ?_⟩
  cases value : a with
  | true =>
    rw [value] at accepts sent
    exact ⟨job, gsc, cores, fun _ => ⟨rfl, rfl, sent⟩, fun refused => absurd (accepts.mp rfl) refused⟩
  | false =>
    rw [value] at accepts sent
    exact ⟨job, gsc, cores, fun good => absurd (accepts.mpr good) (by decide), fun _ => ⟨start, launch, sent⟩⟩

/-! ### Answers to a launch (R404, R431) -/

theorem launchAck_row {s : State} {l : Launch} (launch : s.fab.launch = some l) (r : Nat) (accepted : Bool) :
    exec (.launchAck r accepted) s =
      if !accepted then .next s.launchFail
      else if !(s.otherRanks.contains r) then .next s
      else
        let acc := if l.accepted.contains r then l.accepted else r :: l.accepted
        let all := s.otherRanks.all fun r => acc.contains r
        let t := s.withFab { s.fab with launch := some { l with accepted := acc, answered := l.answered || all } }
        .next (if all && !l.answered then t.respond l.chan (.ok (leBytes 8 l.at_)) else t) := by
  refine Eq.trans (b := execLaunchAck r accepted s) rfl ?_
  unfold execLaunchAck
  simp only [launch]

theorem launchAck_accepted {s : State} {l : Launch} {r : Nat} (launch : s.fab.launch = some l) (other : r ∈ s.otherRanks)
    (new : r ∉ l.accepted) {all : Bool} (counted : all = s.otherRanks.all fun k => (r :: l.accepted).contains k) :
    exec (.launchAck r true) s =
      let t := s.withFab { s.fab with launch := some { l with accepted := r :: l.accepted, answered := l.answered || all } }
      .next (if all && !l.answered then t.respond l.chan (.ok (leBytes 8 l.at_)) else t) := by
  rw [launchAck_row launch, if_neg (by decide), if_neg (by simpa using other)]
  dsimp only
  rw [show (if l.accepted.contains r then l.accepted else r :: l.accepted) = r :: l.accepted from if_neg (by simpa using new), ← counted]

/-- A failed launch: the launching command is answered, if it has not been, and the job faults (R404). -/
theorem State.launchFail_shows {s : State} {l : Launch} (launch : s.fab.launch = some l) (run : s.power.mode = .run)
    (active : s.job.state.active = true) (first : s.job.fault = 0#16) :
    s.launchFail.fab.launch = none ∧ s.launchFail.job.fault = 0x0604#16 ∧ s.launchFail.stop.isSome = true ∧ s.launchFail.gsc = s.gsc ∧
      (l.answered = false → s.launchFail.host.chans =
        ((s.withFab { s.fab with launch := none }).respond l.chan (.bad .state 0x0604)).host.chans) := by
  obtain ⟨u, row, fab, power, job, gsc, chans⟩ : ∃ u : State, s.launchFail = u.jobFatal 0x0604 ∧ u.fab.launch = none ∧ u.power = s.power ∧
      u.job = s.job ∧ u.gsc = s.gsc ∧ (l.answered = false → u = (s.withFab { s.fab with launch := none }).respond l.chan (.bad .state 0x0604)) := by
    refine ⟨if l.answered then s.withFab { s.fab with launch := none }
      else (s.withFab { s.fab with launch := none }).respond l.chan (.bad .state 0x0604), ?_, ?_⟩
    · unfold State.launchFail
      simp only [launch]
    · cases answered : l.answered with
      | true => exact ⟨rfl, rfl, rfl, rfl, fun h => absurd h (by decide)⟩
      | false => exact ⟨congrArg Fabric.launch (State.respond_fab ..), State.respond_power .., State.respond_job .., State.respond_gsc .., fun _ => rfl⟩
  obtain ⟨fault, -, stop⟩ := State.jobFatal_first (s := u) (power ▸ run) (job ▸ active) (job ▸ first) 0x0604 none
  rw [row]
  refine ⟨(congrArg Fabric.launch (State.jobFatal_fab ..)).trans fab, fault, stop,
    (State.jobFatal_gsc u 0x0604 none 0 0 none none (power ▸ run)).trans gsc, fun open_ => ?_⟩
  rw [← chans open_]
  have wake : u.wake = u := if_pos (power ▸ run)
  unfold State.jobFatal
  rw [wake]
  dsimp only
  have raised : (u.raiseCode 0x0604 true 0 0).host.chans = u.host.chans := by
    rw [State.raiseCode, if_pos (by decide)]
    exact (State.raiseSource_chans ..).1
  split <;> exact raised

theorem launchFailed_row {s : State} {l : Launch} (launch : s.fab.launch = some l) :
    exec .launchFailed s = if s.otherRanks.all fun r => l.accepted.contains r then .next s
      else .next (s.advanceTo (l.at_ - 5000)).launchFail := by
  refine Eq.trans (b := execLaunchFailed s) rfl ?_
  unfold execLaunchFailed
  simp only [launch]

theorem all_contains_iff {l m : List Nat} : (l.all fun k => m.contains k) = true ↔ ∀ k ∈ l, k ∈ m := by simp

/-- Settles O53: a launch unit is weighed once for its answer; the lead counts the answers, and the launch fails on a refusal or when one
is missing. -/
theorem launchAndStop : Obligations.LaunchAndStop := by
  unfold Obligations.LaunchAndStop
  intro s f
  refine ⟨fun alone n a b c => ?_, fun multi follower run n im man rk => launchUnit_rank multi follower run, fun none_ => ⟨?_, fun r a => ?_⟩,
    fun l launch => ⟨fun r other new missing => ?_, fun r other new complete open_ => ?_, fun r run active first => ?_, fun all => ?_,
      fun missing run active first open_ c cmd => ?_⟩, fun r code multi active going first run low => ?_, fun r code idle => ?_⟩
  · refine Eq.trans (b := execLaunchUnit n a b c s) rfl ?_
    exact if_pos (by simpa using alone)
  · refine Eq.trans (b := execLaunchFailed s) rfl ?_
    unfold execLaunchFailed
    simp only [show s.fab.launch = none from none_]
  · refine Eq.trans (b := execLaunchAck r a s) rfl ?_
    unfold execLaunchAck
    simp only [show s.fab.launch = none from none_]
  · obtain ⟨k, rank, apart, absent⟩ := missing
    have some_ : false = s.otherRanks.all fun j => (r :: l.accepted).contains j := by
      symm
      rw [Bool.eq_false_iff, Ne, all_contains_iff]
      exact fun all => (List.mem_cons.mp (all k rank)).elim apart absent
    rw [launchAck_accepted launch other new some_, Bool.or_false]
    rfl
  · have all : true = s.otherRanks.all fun j => (r :: l.accepted).contains j := by
      symm
      rw [all_contains_iff]
      intro k rank
      by_cases same : k = r
      · exact List.mem_cons.mpr (.inl same)
      · exact List.mem_cons_of_mem _ (complete k rank same)
    rw [launchAck_accepted launch other new all, open_]
    rfl
  · obtain ⟨gone, fault, stop, gsc, -⟩ := State.launchFail_shows launch run active first
    exact ⟨_, (launchAck_row launch r false).trans (if_pos rfl), gone, fault, stop, gsc⟩
  · rw [launchFailed_row launch, if_pos (all_contains_iff.mpr all)]
  · obtain ⟨u, later⟩ : ∃ u, u = s.advanceTo (l.at_ - 5000) := ⟨_, rfl⟩
    have clock : u.gsc = max s.gsc (l.at_ - 5000) := later ▸ s.advanceTo_gsc _
    have fab : u.fab = s.fab := later ▸ s.advanceTo_fab _
    have mode : u.power.mode = .run := (later ▸ s.advanceTo_power_mode _ : u.power.mode = s.power.mode).trans run
    have job : u.job = s.job := later ▸ s.advanceTo_job _
    have host : u.host = s.host := later ▸ s.advanceTo_host _
    obtain ⟨gone, fault, stop, gsc, chans⟩ := State.launchFail_shows (l := l) (by rw [fab]; exact launch) mode (job ▸ active) (job ▸ first)
    have row : exec .launchFailed s = .next u.launchFail := by
      obtain ⟨k, rank, absent⟩ := missing
      rw [launchFailed_row launch, if_neg (fun all => absent (all_contains_iff.mp all k rank)), later]
    obtain ⟨answered, -⟩ := State.respond_chan (s := u.withFab { u.fab with launch := none }) (ch := l.chan) (c := c)
      (Eq.trans (congrArg (fun h : HostBlk => (h.chans.find .init l.chan).cmd) host :) cmd) (.bad .state 0x0604)
    have chan : u.launchFail.chan l.chan = _ := (by rw [State.chan, chans open_]; rfl : u.launchFail.chan l.chan =
      ((u.withFab { u.fab with launch := none }).respond l.chan (.bad .state 0x0604)).chan l.chan).trans answered
    refine ⟨_, row, gsc.trans clock, gone, fault, stop, ?_, ?_⟩
    · rw [State.cmdOf, chan]
      rfl
    · rw [chan]
      exact ⟨_, rfl, rfl, rfl⟩
  · have row : exec (.jobStopUnit r code) s =
        .next (s.jobFatal 0x0605 none (BitVec.ofNat 64 code) (BitVec.ofNat 64 r) (some r) (some code)) :=
      if_pos (by simp [multi, active, going])
    refine ⟨_, row, ?_, ?_, ?_, State.jobFatal_fab .., State.jobFatal_cores .., State.jobFatal_gsc _ _ _ _ _ _ _ run⟩
    · rw [State.jobFatal_job _ _ _ _ _ _ _ run, if_pos active, JobStatus.note_first first]
      rfl
    · rw [State.jobFatal_job _ _ _ _ _ _ _ run, if_pos active, JobStatus.note_first first]
      rfl
    · rw [State.jobFatal_stop _ _ _ _ _ _ _ run, if_pos active, going]
      rfl
  · refine if_neg ?_
    rcases idle with h | h | h
    · simp [h]
    · simp [h]
    · simp [Option.isSome_iff_ne_none.mp h]

end Sys2Proof.Machine

/-! PROOF. Beacons and the synchronised count (R398 to R401). -/
namespace Sys2Proof.Machine

/-! ### Beacons that are sent (R398) -/

/-- A beacon is queued at its port, hop-reliable; of the rest only the module's own transfers change. -/
theorem State.putBeacon_shows (s : State) (p : Nat) (b : Bytes) :
    ((s.putBeacon p b).port p).txq = (s.port p).txq ++ ownItems s.fab.addr 1 (s.port p).peerAddr s.fab.active 0xFFFE s.fab.nextTid false b ∧
      (∀ k, k ≠ p → (s.putBeacon p b).port k = s.port k) ∧
      { s.putBeacon p b with fab := s.fab, ports := s.ports } = s ∧
      { (s.putBeacon p b).fab with owns := s.fab.owns, nextTid := s.fab.nextTid } = s.fab :=
  ⟨congrArg LinkPort.txq (State.port_setPort ..), fun _ other => State.port_setPort_other _ _ other, rfl, rfl⟩

/-- Beacons for the ports of a list: each queues its own, no other port changes. -/
theorem State.putBeacons_shows (l : List Nat) (once : l.Nodup) (b : Bytes) (s : State) :
    let t := l.foldl (fun s p => s.putBeacon p b) s
    (∀ p, ∃ tid, (t.port p).txq = (s.port p).txq ++
      if p ∈ l then ownItems s.fab.addr 1 (s.port p).peerAddr s.fab.active 0xFFFE tid false b else []) ∧
      { t with fab := s.fab, ports := s.ports } = s ∧ { t.fab with owns := s.fab.owns, nextTid := s.fab.nextTid } = s.fab := by
  induction l generalizing s with
  | nil => exact ⟨fun p => ⟨0, (List.append_nil _).symm⟩, rfl, rfl⟩
  | cons k l ih =>
    intro t
    obtain ⟨fresh, once⟩ := List.nodup_cons.mp once
    obtain ⟨mine, others, state, fabric⟩ := s.putBeacon_shows k b
    obtain ⟨queues, rest, own⟩ := ih once (s.putBeacon k b)
    have addr : (s.putBeacon k b).fab.addr = s.fab.addr := rfl
    have active : (s.putBeacon k b).fab.active = s.fab.active := rfl
    refine ⟨fun p => ?_, ?_, ?_⟩
    · obtain ⟨tid, queue⟩ := queues p
      rw [addr, active] at queue
      by_cases here : p = k
      · subst here
        rw [if_neg fresh, mine, List.append_nil] at queue
        exact ⟨s.fab.nextTid, queue.trans (by rw [if_pos List.mem_cons_self])⟩
      · rw [others p here] at queue
        refine ⟨tid, queue.trans ?_⟩
        have same : (p ∈ k :: l) = (p ∈ l) := propext ⟨fun mem => (List.mem_cons.mp mem).resolve_left here, List.mem_cons_of_mem _⟩
        simp only [same]
    · exact (congrArg (fun u : State => { u with fab := s.fab, ports := s.ports }) rest :).trans state
    · exact (congrArg (fun u : Fabric => { u with owns := s.fab.owns, nextTid := s.fab.nextTid }) own :).trans fabric

theorem State.childPorts_nodup (s : State) : s.childPorts.Nodup := List.nodup_range.filter _

theorem beaconPeriod_lead {s : State} (lead : s.fab.lead = true) (loaded : s.image.isSome = true) (several : 1 < s.fab.moduleCount) :
    completes .beaconPeriod s fun t => t.gsc = max s.gsc s.fab.beaconDue ∧
      ({ t.fab with owns := s.fab.owns, nextTid := s.fab.nextTid } : Fabric) =
        { s.fab with beaconSeq := s.fab.beaconSeq + 1, beaconDue := t.gsc + s.fab.beaconNs } ∧ t.job = s.job ∧ t.cores = s.cores ∧
      ∀ p, p < 16 → ∃ tid, (t.port p).txq = (s.port p).txq ++ if p ∈ s.childPorts then
        ownItems s.fab.addr 1 (s.port p).peerAddr s.fab.active 0xFFFE tid false (beaconBytes s.fab.addr s.fab.beaconSeq t.gsc 0) else [] := by
  obtain ⟨u, later⟩ : ∃ u, u = s.advanceTo s.fab.beaconDue := ⟨_, rfl⟩
  have gsc : u.gsc = max s.gsc s.fab.beaconDue := later ▸ s.advanceTo_gsc _
  have fab : u.fab = s.fab := later ▸ s.advanceTo_fab _
  have job : u.job = s.job := later ▸ s.advanceTo_job _
  have cores : u.cores = s.cores := later ▸ s.advanceTo_cores _
  have ports : u.ports = s.ports := later ▸ s.advanceTo_ports _
  have port : ∀ p, u.port p = s.port p := fun p => by rw [State.port, ports]; rfl
  obtain ⟨b, bytes⟩ : ∃ b, b = beaconBytes s.fab.addr s.fab.beaconSeq u.gsc 0 := ⟨_, rfl⟩
  obtain ⟨queues, rest, own⟩ := State.putBeacons_shows s.childPorts s.childPorts_nodup b u
  obtain ⟨v, sent⟩ : ∃ v, v = s.childPorts.foldl (fun s p => s.putBeacon p b) u := ⟨_, rfl⟩
  have row : exec .beaconPeriod s = .next (v.withFab { v.fab with beaconSeq := v.fab.beaconSeq + 1, beaconDue := v.gsc + v.fab.beaconNs }) := by
    refine Eq.trans (b := execBeaconPeriod s) rfl ?_
    have absent : s.image.isNone = false := by cases h : s.image <;> simp [h] at loaded ⊢
    unfold execBeaconPeriod
    rw [if_neg (by simp [lead, absent]; omega), sent, bytes, later]
    dsimp only
    rw [State.advanceTo_fab]
  rw [← sent] at queues rest own
  rw [fab] at queues own
  have clock : v.gsc = u.gsc := (congrArg State.gsc rest :)
  refine ⟨_, row, clock.trans gsc, ?_, (congrArg State.job rest :).trans job, (congrArg State.cores rest :).trans cores, fun p _ => ?_⟩
  · have seq : v.fab.beaconSeq = s.fab.beaconSeq := (congrArg Fabric.beaconSeq own :)
    have period : v.fab.beaconNs = s.fab.beaconNs := (congrArg Fabric.beaconNs own :)
    have set := congrArg (fun f : Fabric => { f with beaconSeq := s.fab.beaconSeq + 1, beaconDue := v.gsc + s.fab.beaconNs }) own
    dsimp only [State.withFab]
    rw [seq, period]
    exact set
  · obtain ⟨tid, queue⟩ := queues p
    rw [port p] at queue
    refine ⟨tid, queue.trans ?_⟩
    rw [bytes, ← clock]
    rfl

/-! ### Beacons that are used (R399 to R401) -/

/-- The state as a beacon's offset has been taken, before its copies go out. -/
def State.synced (s : State) (off : Int) : State :=
  let good := if -3000 ≤ off && off ≤ 3000 then min 8 (s.fab.good + 1) else 0
  let step := off < -1000000 && !s.job.state.active && !s.fab.slewOnly
  let s := s.withFab { s.fab with
    offsetPs := off, good := good, aligned := good = 8, beaconAt := s.gsc, slewLeft := if step then 0 else -1000 * off
    slewOnly := s.fab.slewOnly && good ≠ 8 }
  if step then s.elapse ((-off).toNat / 1000) else s

theorem State.useBeacon_eq (s : State) (r : BeaconRx) {off : Int} {b : Bytes}
    (offset : off = (r.at_ : Int) * 1000 - (fld r.data 16 8 : Int) * 1000 - (fld r.data 24 8 : Int) - ((s.port r.port).delayPs : Int))
    (bytes : b = beaconBytes (fld r.data 4 4) (fld r.data 8 8) (fld r.data 16 8)
      (fld r.data 24 8 + (s.port r.port).delayPs + (s.gsc - r.at_) * 1000)) :
    s.useBeacon r = s.childPorts.foldl (fun t p => t.putBeacon p b) (s.synced off) := by
  subst offset bytes
  unfold State.useBeacon State.synced
  rfl

/-- What taking an offset leaves and writes (R399, R400). -/
theorem State.synced_shows (s : State) (off : Int) :
    let t := s.synced off
    t.ports = s.ports ∧ t.fab.addr = s.fab.addr ∧ t.fab.active = s.fab.active ∧ t.fab.offsetPs = off ∧ t.fab.beacons = s.fab.beacons ∧
      t.fab.beaconAt = s.gsc ∧ t.fab.good = (if -3000 ≤ off ∧ off ≤ 3000 then min 8 (s.fab.good + 1) else 0) ∧
      t.fab.aligned = decide (t.fab.good = 8) ∧
      t.gsc = (if off < -1000000 ∧ s.job.state.active = false ∧ s.fab.slewOnly = false then s.gsc + (-off).toNat / 1000 else s.gsc) ∧
      t.job = s.job ∧ t.fab.slewLeft = (if off < -1000000 ∧ s.job.state.active = false ∧ s.fab.slewOnly = false then 0 else -1000 * off) ∧
      (t.fab.slewOnly = true ↔ s.fab.slewOnly = true ∧ t.fab.good ≠ 8) := by
  intro t
  obtain ⟨step, stepped⟩ : ∃ b : Bool, b = (decide (off < -1000000) && !s.job.state.active && !s.fab.slewOnly) := ⟨_, rfl⟩
  obtain ⟨good, counted⟩ : ∃ n, n = if -3000 ≤ off ∧ off ≤ 3000 then min 8 (s.fab.good + 1) else 0 := ⟨_, rfl⟩
  obtain ⟨u, written⟩ : ∃ u, u = s.withFab { s.fab with
      offsetPs := off, good := good, aligned := good = 8, beaconAt := s.gsc, slewLeft := if step then 0 else -1000 * off
      slewOnly := s.fab.slewOnly && good ≠ 8 } := ⟨_, rfl⟩
  have row : t = if step then u.elapse ((-off).toNat / 1000) else u := by
    have near : (if (decide (-3000 ≤ off) && decide (off ≤ 3000)) = true then min 8 (s.fab.good + 1) else 0) = good := by
      rw [counted]
      simp only [Bool.and_eq_true, decide_eq_true_eq]
    show s.synced off = _
    unfold State.synced
    dsimp only
    rw [near, ← stepped, written]
  have taken : step = true ↔ off < -1000000 ∧ s.job.state.active = false ∧ s.fab.slewOnly = false := by
    rw [stepped]
    simp [and_assoc]
  rw [row, ← counted]
  cases value : step with
  | true =>
    rw [if_pos (taken.mp value), if_pos (taken.mp value)]
    subst written value
    exact ⟨rfl, rfl, rfl, rfl, rfl, rfl, rfl, rfl, rfl, rfl, rfl, by simp [State.elapse, State.withFab]⟩
  | false =>
    have kept : ¬ (off < -1000000 ∧ s.job.state.active = false ∧ s.fab.slewOnly = false) := fun h => by simp [taken.mpr h] at value
    rw [if_neg kept, if_neg kept]
    subst written value
    exact ⟨rfl, rfl, rfl, rfl, rfl, rfl, rfl, rfl, rfl, rfl, rfl, by simp [State.withFab]⟩

theorem beacon_row {s : State} {r : BeaconRx} {rest : List BeaconRx} (beacons : s.fab.beacons = r :: rest) :
    exec .beacon s = if (r.fresh && s.parentPort = some r.port && sub r.data 0 4 = [0x57#8, 0x4C#8, 0x47#8, 0x42#8] &&
        fld r.data 4 4 = s.fab.leadAddr) = true then .next ((s.withFab { s.fab with beacons := rest }).useBeacon r)
      else .next (s.withFab { s.fab with beacons := rest }) := by
  refine Eq.trans (b := execBeacon s) rfl ?_
  unfold execBeacon
  simp only [beacons]
  rfl

theorem gscUnsync_follower {s : State} (multi : s.multi = true) (active : s.job.state.active = true) (follower : s.fab.lead = false)
    (run : s.power.mode = .run) (first : s.job.fault = 0#16) :
    completes .gscUnsync s fun t => t.gsc = max s.gsc (s.fab.beaconAt + 100 * s.fab.beaconNs) ∧ t.job.fault = 0x0603#16 ∧
      t.stop.isSome = true ∧ t.fab = s.fab := by
  obtain ⟨n, due, row⟩ : ∃ n, n = s.fab.beaconAt + 100 * s.fab.beaconNs ∧ exec .gscUnsync s = .next ((s.advanceTo n).jobFatal 0x0603) :=
    ⟨_, rfl, if_pos (by simp [multi, active, follower])⟩
  have mode : (s.advanceTo n).power.mode = .run := (s.advanceTo_power_mode n).trans run
  have job := s.advanceTo_job n
  obtain ⟨fault, -, stop⟩ := State.jobFatal_first mode (by rw [job]; exact active) (by rw [job]; exact first) 0x0603 none
  refine ⟨_, row, ?_, fault, stop, (State.jobFatal_fab ..).trans (s.advanceTo_fab n)⟩
  rw [← due]
  exact (State.jobFatal_gsc _ 0x0603 none 0 0 none none mode).trans (s.advanceTo_gsc n)

/-- Settles O52: the offset is taken first and then the beacon's copies go out, one to each child port. -/
theorem beacons : Obligations.Beacons := by
  unfold Obligations.Beacons
  intro s f gets
  refine ⟨fun idle => ?_, fun lead loaded several => beaconPeriod_lead lead loaded several, fun none_ => ?_,
    fun r rest queued => ⟨fun other => ?_, fun fresh parent mark lead => ?_⟩,
    fun multi active follower run first => gscUnsync_follower multi active follower run first, fun idle => ?_⟩
  · refine Eq.trans (b := execBeaconPeriod s) rfl (if_pos ?_)
    rcases idle with h | h | h
    · simp [show s.fab.lead = false from h]
    · simp [h]
    · simp [show s.fab.moduleCount ≤ 1 from h]
  · refine Eq.trans (b := execBeacon s) rfl ?_
    unfold execBeacon
    simp only [show s.fab.beacons = [] from none_]
  · rw [beacon_row queued, if_neg ?_]
    · rfl
    · rcases other with h | h | h
      · simp [h]
      · simp [h]
      · simp [show fld r.data 4 4 ≠ s.fab.leadAddr from h]
  · intro d off
    obtain ⟨u, taken⟩ : ∃ u, u = s.withFab { s.fab with beacons := rest } := ⟨_, rfl⟩
    have row : exec .beacon s = .next (u.useBeacon r) := by
      rw [beacon_row queued, if_pos (by simp [fresh, parent, mark, show fld r.data 4 4 = s.fab.leadAddr from lead]), taken]
    obtain ⟨b, bytes⟩ : ∃ b, b = beaconBytes (fld r.data 4 4) (fld r.data 8 8) (fld r.data 16 8)
      (fld r.data 24 8 + d + (s.gsc - r.at_) * 1000) := ⟨_, rfl⟩
    have kids : u.childPorts = s.childPorts := by rw [taken]; rfl
    rw [State.useBeacon_eq u r (off := off) (b := b) (by rw [taken]; rfl) (by rw [taken]; exact bytes), kids] at row
    obtain ⟨ports, addr, active, offset, beacons, beaconAt, good, aligned, gsc, job, slew, slewOnly⟩ := u.synced_shows off
    obtain ⟨queues, state, own⟩ := State.putBeacons_shows s.childPorts s.childPorts_nodup b (u.synced off)
    generalize u.synced off = v at ports addr active offset beacons beaconAt good aligned gsc job slew slewOnly queues state own row
    refine ⟨_, row, ?_⟩
    generalize s.childPorts.foldl (fun t p => t.putBeacon p b) v = t at queues state own row ⊢
    have fab : ∀ {α : Type} (g : Fabric → α), (∀ (f : Fabric) owns tid, g { f with owns := owns, nextTid := tid } = g f) →
        g t.fab = g v.fab := fun g kept => (kept t.fab _ _).symm.trans (congrArg g own)
    have before : u.fab = { s.fab with beacons := rest } ∧ u.job = s.job ∧ u.gsc = s.gsc ∧ u.ports = s.ports := by
      rw [taken]
      exact ⟨rfl, rfl, rfl, rfl⟩
    obtain ⟨fabric, sjob, sgsc, sports⟩ := before
    rw [fabric] at addr active beacons good gsc slew slewOnly
    rw [sgsc] at beaconAt gsc
    rw [sjob] at job gsc slew
    have port : ∀ p, v.port p = s.port p := fun p => by rw [State.port, ports, sports]; rfl
    have goods : t.fab.good = v.fab.good := fab Fabric.good fun _ _ _ => rfl
    refine ⟨(fab Fabric.offsetPs fun _ _ _ => rfl).trans offset, (fab Fabric.beacons fun _ _ _ => rfl).trans beacons,
      (fab Fabric.beaconAt fun _ _ _ => rfl).trans beaconAt, goods.trans good, ?_, (congrArg State.gsc state :).trans gsc,
      (congrArg State.job state :).trans job, (fab Fabric.slewLeft fun _ _ _ => rfl).trans slew, ?_, fun p _ => ?_⟩
    · rw [goods]
      exact (fab Fabric.aligned fun _ _ _ => rfl).trans aligned
    · rw [goods, fab Fabric.slewOnly fun _ _ _ => rfl]
      exact slewOnly
    · obtain ⟨tid, queue⟩ := queues p
      rw [port p, addr, active, bytes] at queue
      exact ⟨tid, queue⟩
  · refine if_neg ?_
    rcases idle with h | h | h
    · simp [h]
    · simp [h]
    · simp [show s.fab.lead = true from h]

end Sys2Proof.Machine

/-! PROOF. Step clearance, the lead's descriptors, epoch switches and drained banks (R389, R394, R395, R406, R407): what a switch does to a
transfer that the new bank gives no way out, in a module in HOLD. -/
namespace Sys2Proof.Machine

/-- A module in HOLD whose job runs, whose bank 0 is ACTIVE and whose switch is due; a transfer of its own for another pod has not begun. -/
def heldSwitch : State :=
  { State.reset with
    job := { State.reset.job with state := .running }
    power := { State.reset.power with mode := .hold }
    fab := { State.reset.fab with
      switchDue := true, banks := [(0, { Bank.init with state := .active })]
      owns := [{ tid := 0, dest := 64, cls := 2, xfer := 0xFFFC, port := none, data := [] }] } }

/-- The transfer is routed anew over the bank that has become ACTIVE, finds no way out, and its fault wakes the module, which takes the
exit latency of HOLD. -/
theorem heldSwitch_gsc : (match exec .epochSwitch heldSwitch with | .next t => t.gsc | _ => 0) = 1000 := by decide

/-- Refutes O54: in `heldSwitch` GSC stands, after the switch, 1,000 ns past the count of the switch. -/
theorem not_stepsAndBanks : ¬ Obligations.StepsAndBanks := by
  intro h
  obtain ⟨-, switches⟩ := h
  obtain ⟨-, switch, -⟩ := switches heldSwitch
  obtain ⟨t, row, gsc, -⟩ := switch rfl (by decide) (by decide)
  have reached := heldSwitch_gsc
  rw [row] at reached
  exact absurd (reached.symm.trans gsc) (by decide)

end Sys2Proof.Machine

/-! PROOF. The commands of owner, keys and life cycle (R463 to R468, R472, R473). -/
namespace Sys2Proof.Machine

/-! ### A command that is answered in recovery -/

/-- A command that recovery allows, whose turn has come, and whose effect keeps the host block is answered. -/
theorem answered_recovery {p : CmdSpec} {i : Instr} {s : State} {ch : Nat} {c : Cmd} {t : State} {r : Reply}
    (row : exec i s = p.row ch s) (turn : s.carriesRec ch p.op c) (allows : recoveryAllows p.op s.sec.fuses.lc = true)
    (shared : opExclusive p.op = false) (asleep : p.wakes = false) (len : p.len c.length = true) (fields : p.fields c.payload = true)
    (allowed : p.allowed { s with host := { s.host with order := s.host.order.drop 1 } } = true)
    (act : p.act (s.accepted ch c) ch c.payload = .done t r) (kept : t.host = (s.accepted ch c).host) : answered i s ch t r := by
  obtain ⟨low, boot, cmd, op, idle, reserved, order⟩ := turn
  have there : ch < 10 := by omega
  have passed : p.check { s with host := { s.host with order := s.host.order.drop 1 } } ch c = none := by
    have allows : recoveryAllows p.op ({ s with host := { s.host with order := s.host.order.drop 1 } } : State).sec.fuses.lc = true := allows
    unfold CmdSpec.check
    rw [len, fields, allowed, reserved, shared, allows]
    simp
  have heard : s.answers ch = true := by
    rcases low with rfl | rfl <;> simp [State.answers, boot]
  have first : (decide (c.opcode ≠ p.op) || c.executing || decide (s.host.order.head? ≠ some ch) || !s.answers ch) = false := by
    simp [op, idle, order, heard]
  refine row.trans ((p.row_of_lt there s).trans (congrArg Host.Outcome.next ?_))
  unfold CmdSpec.run
  rw [cmd]
  dsimp only
  rw [first, if_neg (by decide), passed, asleep]
  dsimp only
  rw [if_neg (by decide)]
  change State.answerUnknown 10 (match p.act (s.accepted ch c) ch c.payload with
    | .done s r => s.respond ch r
    | .goOn s => s) = _
  rw [act]
  refine State.answerUnknown_id _ _ (Or.inl ?_)
  rw [State.respond_order, kept]
  exact congrArg (List.drop 1) order

/-- The same wherever recovery or the firmware runs it. -/
theorem answered_everywhere {p : CmdSpec} {i : Instr} {s : State} {ch : Nat} {c : Cmd} {t : State} {r : Reply}
    (row : exec i s = p.row ch s)
    (turn : s.carries ch p.op c ∨ (s.carriesRec ch p.op c ∧ recoveryAllows p.op s.sec.fuses.lc = true))
    (shared : opExclusive p.op = false) (asleep : p.wakes = false) (len : p.len c.length = true) (fields : p.fields c.payload = true)
    (allowed : p.allowed { s with host := { s.host with order := s.host.order.drop 1 } } = true)
    (act : p.act (s.accepted ch c) ch c.payload = .done t r) (kept : t.host = (s.accepted ch c).host) : answered i s ch t r := by
  rcases turn with turn | ⟨turn, allows⟩
  · exact answered_kept row turn len fields allowed act kept
  · exact answered_recovery row turn allows shared asleep len fields allowed act kept

/-! ### Authority (R463, R464) -/

/-- An event raises one source and leaves the rest. -/
theorem State.event_leaves (s : State) (code : Nat) (x y : W64) :
    ({ s.event code x y with host := { (s.event code x y).host with evc := s.host.evc } } : State) = s := by
  unfold State.event State.raiseCode
  split
  · unfold State.raiseSource
    split <;> rfl
  · rfl

theorem State.nonceGood_of_checkTrailer {s : State} {op : Nat} {b key : Bytes} (ok : s.checkTrailer op b key = .ok) :
    s.nonceGood (trailerNonce b) = true := by
  simp only [State.checkTrailer] at ok
  split at ok
  · cases ok
  split at ok
  · cases ok
  case isFalse good => simpa [trailerNonce] using good

theorem State.nonceGood_of_ownerAuth {s : State} {op : Nat} {b : Bytes} (ok : s.ownerAuth op b = .ok) :
    s.nonceGood (trailerNonce b) = true := by
  unfold State.ownerAuth at ok
  split at ok
  · exact State.nonceGood_of_checkTrailer ok
  · cases ok

theorem State.nonceGood_of_vendorAuth {s : State} {op : Nat} {b : Bytes} (ok : s.vendorAuth op b = .ok) :
    s.nonceGood (trailerNonce b) = true := by
  simp only [State.vendorAuth] at ok
  split at ok
  · cases ok
  · exact State.nonceGood_of_checkTrailer ok

/-- The state once its nonce is used. -/
def State.spent (s : State) : State := s.withSec { s.sec with nonce := none }

theorem State.useNonce_good {s : State} {n : Bytes} (good : s.nonceGood n = true) : s.useNonce n = s.spent := if_pos good

theorem State.useNonce_host (s : State) (n : Bytes) : (s.useNonce n).host = s.host := by
  unfold State.useNonce
  split <;> rfl

/-- An authorised command has its effect once the nonce is used. -/
theorem State.signed_ok {s : State} {au : Auth} {b : Bytes} {f : State → Verdict} (ok : au = .ok)
    (good : s.nonceGood (trailerNonce b) = true) : s.signed au b f = f s.spent := by
  subst ok
  rw [← State.useNonce_good good]
  rfl

/-- What a command that is not authorised answers. -/
def refusedAs (i : Instr) (s : State) (ch : Nat) (c : Cmd) (au : Auth) : Prop :=
  (au = .badKey → answered i s ch ((s.accepted ch c).useNonce (trailerNonce c.payload)) (.bad .auth 0x0941)) ∧
  (au = .badNonce → answered i s ch ((s.accepted ch c).useNonce (trailerNonce c.payload)) (.bad .auth 0x0942))

/-- A signed command that its trailer does not authorise is refused with the code of the fault. -/
theorem refusedAs_of {i : Instr} {s : State} {ch : Nat} {c : Cmd} {au : Auth} {v : Verdict} {f : State → Verdict}
    (answers : ∀ t r, v = .done t r → t.host = (s.accepted ch c).host → answered i s ch t r)
    (act : v = (s.accepted ch c).signed au c.payload f) : refusedAs i s ch c au := by
  constructor <;>
  · intro bad
    subst bad
    exact answers _ _ (act.trans rfl) (State.useNonce_host ..)

/-! ### The owner's block and the life cycle -/

theorem State.random_length (s : State) {n : Nat} (few : n ≤ 64) : (s.random n).1.length = n := by
  simp [State.random, few]

/-- The owner block of a claim, with its anchor. -/
def State.claimed (s : State) (o : OwnerBlock) (key : Bytes) : State :=
  let t := s.setOwner o
  (t.withSec { t.sec with anchor := sha384 key }).event 0x0911

theorem State.claimed_shows (s : State) (o : OwnerBlock) (key : Bytes) :
    (s.claimed o key).sec = { s.sec with owner := some o, ownerFlash := some (s.sealedOwner o), anchor := sha384 key } ∧
    ({ s.claimed o key with sec := s.sec, free := s.free, host := { (s.claimed o key).host with evc := s.host.evc } } : State) = s := by
  have frame := State.event_leaves ((s.setOwner o).withSec { (s.setOwner o).sec with anchor := sha384 key }) 0x0911 0 0
  exact ⟨(congrArg State.sec frame :), congrArg (fun t : State => { t with sec := s.sec, free := s.free }) frame⟩

/-- The owner's release (R466). -/
def State.released (s : State) : State :=
  (s.withSec { s.sec with fuses := s.sec.fuses.advanceEpoch, anchor := [] }).zeroise.event 0x0911

theorem State.released_shows (s : State) :
    s.released.sec = { s.sec with fuses := s.sec.fuses.advanceEpoch, anchor := [], ik := none, ak := none, owner := none, nonce := none } ∧
    s.released.recs = { s.recs with opened := none, staged := [] } ∧
    ({ s.released with sec := s.sec, recs := s.recs, host := { s.released.host with evc := s.host.evc } } : State) = s := by
  obtain ⟨u, is⟩ : ∃ u : State, u = { s with
    sec := { s.sec with fuses := s.sec.fuses.advanceEpoch, anchor := [], ik := none, ak := none, owner := none, nonce := none }
    recs := { s.recs with opened := none, staged := [] } } := ⟨_, rfl⟩
  have released : s.released = u.event 0x0911 := by rw [is]; rfl
  have frame := congrArg (fun t : State => { t with sec := s.sec, recs := s.recs }) (u.event_leaves 0x0911 0 0)
  rw [released, State.event_sec, State.event_recs]
  refine ⟨by rw [is], by rw [is], ?_⟩
  rw [is] at frame ⊢
  exact frame

/-- A change of the owner block (R467). -/
theorem State.setOwner_shows (s : State) (o : OwnerBlock) (code : Nat) :
    ((s.setOwner o).event code).sec = { s.sec with owner := some o, ownerFlash := some (s.sealedOwner o) } ∧
    ({ (s.setOwner o).event code with
        sec := s.sec, free := s.free, host := { ((s.setOwner o).event code).host with evc := s.host.evc } } : State) = s := by
  have frame := State.event_leaves (s.setOwner o) code 0 0
  exact ⟨(congrArg State.sec frame :), congrArg (fun t : State => { t with sec := s.sec, free := s.free }) frame⟩

theorem secOwnerClaim_act (s : State) (ch : Nat) (b : Bytes) : secOwnerClaim.act s ch b =
    s.signed (if s.anchorOk b then s.checkTrailer 0x0702 b (sub b 0 97) else .badKey) b fun s =>
      let t := s.claimed { OwnerBlock.init with adminKey := sub b 0 97 } (sub b 0 97)
      .done (if t.lcIs 2 then t.changeLc 3 true else t) .ok := rfl

theorem secOwnerRelease_act (s : State) (ch : Nat) (b : Bytes) : secOwnerRelease.act s ch b =
    s.signed (s.ownerAuth 0x0703 b) b fun s => .done s.released .ok := rfl

theorem secKeySet_act (s : State) (ch : Nat) (b : Bytes) : secKeySet.act s ch b = s.ownerChange 0x0704 b fun o =>
    if fld b 0 1 = 0 then { o with imageKeys := putKey o.imageKeys (fld b 1 1) (sub b 4 97) }
    else { o with casKeys := putKey o.casKeys (fld b 1 1) (sub b 4 97) } := rfl

theorem secPolicy_act (s : State) (ch : Nat) (b : Bytes) :
    secPolicy.act s ch b = s.ownerChange 0x0705 b fun o => { o with policy := fld b 0 1 } := rfl

theorem secMgmtKey_act (s : State) {ch : Nat} (b : Bytes) (mailbox : ch < 8) :
    secMgmtKey.act s ch b = s.ownerChange 0x0706 b fun o => { o with mgmtKey := sub b 0 48 } := if_neg (by omega)

theorem State.resetSoon_due (s : State) : s.resetSoon.power.resetDue.isSome = true := by
  unfold State.resetSoon State.withPower
  dsimp only
  split <;> rfl

theorem State.resetSoon_eq (s : State) :
    s.resetSoon = { s with power := { s.power with resetDue := some (s.power.resetDue.getD .secReset) } } := by
  unfold State.resetSoon State.withPower
  cases s.power.resetDue <;> rfl

/-- What a change to `target` does besides (R472). -/
theorem State.lcEffect_shows (s : State) (target : Nat) :
    (s.lcEffect target).host = s.host ∧ (s.lcEffect target).sec.fuses.ownerEpoch = s.sec.fuses.ownerEpoch ∧
    (s.lcEffect target).sec.fuses.svn = s.sec.fuses.svn ∧ (target = 5 → (s.lcEffect target).sec.fuses.udsKill = true) ∧
    (target = 4 → (s.lcEffect target).sec.anchor = []) ∧ (target = 1 → (s.lcEffect target).sec.fuses.uds.length = 48) := by
  refine ⟨?_, ?_, ?_, fun h => ?_, fun h => ?_, fun h => ?_⟩
  iterate 3
    unfold State.lcEffect
    split <;> rfl
  all_goals subst h
  · rfl
  · rfl
  · exact s.random_length (by decide)

/-- NONCE_EXPIRY ends the nonce at its time. -/
theorem completes_nonceExpiry {s : State} {n : Bytes} {at_ : Nat} (held : s.sec.nonce = some (n, at_)) :
    completes .nonceExpiry s fun t => t.sec = { s.sec with nonce := none } ∧ t.gsc = max s.gsc at_ ∧ t.job = s.job ∧ t.host = s.host := by
  refine ⟨(s.advanceTo at_).spent, Eq.trans (b := execNonceExpiry s) rfl (by simp only [execNonceExpiry, held]; rfl), ?_, ?_, ?_, ?_⟩
  · exact congrArg (fun x : Sec => { x with nonce := none }) (s.advanceTo_sec at_)
  · exact s.advanceTo_gsc at_
  · exact s.advanceTo_job at_
  · exact s.advanceTo_host at_

/-! ### The statement -/

/-- Settles O36: each command by its authority and its effect on the security block. -/
theorem ownerCommands : Obligations.OwnerCommands := by
  intro s ch c a b used refused
  refine ⟨?nonce, ?claim, ?release, ?change, ?noMailbox, ?read, ?advance, ?reset, fun n at_ => completes_nonceExpiry⟩
  case nonce =>
    intro turn len
    refine ⟨_, _, answered_everywhere (p := secNonce) rfl (turn.imp_right (⟨·, rfl⟩)) rfl rfl (decide_eq_true len) rfl rfl rfl rfl,
      a.random_length (by decide), rfl, rfl⟩
  case claim =>
    intro turn len zeroKey zeroAnchor allowed au o
    have fields : secOwnerClaim.fields b = true := by simp [secOwnerClaim, zeroKey, zeroAnchor]
    have allow : secOwnerClaim.allowed { s with host := { s.host with order := s.host.order.drop 1 } } = true := by
      rcases allowed with ⟨lc, job⟩ | ⟨lc, owner⟩
      · exact Bool.or_eq_true_iff.mpr (.inl (Bool.and_eq_true_iff.mpr ⟨lc, decide_eq_true job⟩))
      · exact Bool.or_eq_true_iff.mpr (.inr (Bool.and_eq_true_iff.mpr ⟨lc, Option.isNone_iff_eq_none.mpr owner⟩))
    refine ⟨refusedAs_of (fun t r act => answered_kept (p := secOwnerClaim) rfl turn (decide_eq_true len) fields allow act)
      (secOwnerClaim_act a ch b), fun ok => ?_⟩
    have good : a.nonceGood (trailerNonce b) = true := by
      have ok : (if s.anchorOk b then s.checkTrailer 0x0702 b (sub b 0 97) else .badKey) = Auth.ok := ok
      split at ok
      · exact State.nonceGood_of_checkTrailer (s := a) ok
      · cases ok
    obtain ⟨sec, frame⟩ := a.spent.claimed_shows o (sub b 0 97)
    have act : secOwnerClaim.act a ch b = .done (if (a.spent.claimed o (sub b 0 97)).lcIs 2 then
        (a.spent.claimed o (sub b 0 97)).changeLc 3 true else a.spent.claimed o (sub b 0 97)) .ok :=
      (secOwnerClaim_act a ch b).trans (State.signed_ok ok good)
    generalize a.spent.claimed o (sub b 0 97) = t at sec frame act
    have order : t.host.order = s.host.order.drop 1 := (congrArg (fun t => t.host.order) frame :)
    have chans : t.host.chans = a.host.chans := (congrArg (fun t => t.host.chans) frame :)
    have lc : t.sec.fuses = s.sec.fuses := (congrArg Sec.fuses sec :)
    by_cases manufactured : s.lcIs 2 = true
    · have same : t.lcIs 2 = true := (congrArg (fun f : Fuses => decide (f.lc = 2)) lc).trans manufactured
      have other : s.lcIs 3 ≠ true := fun deployed =>
        absurd ((of_decide_eq_true manufactured).symm.trans (of_decide_eq_true deployed)) (by decide)
      rw [if_pos same] at act
      refine ⟨t.changeLc 3 true, answered_done (p := secOwnerClaim) rfl turn (decide_eq_true len) fields allow act order chans, ?_, ?_, rfl,
        ?_, ?_, ?_, (absurd · other), fun _ => ⟨rfl, rfl, rfl, State.resetSoon_due _⟩⟩
      · exact (congrArg Sec.ownerFlash sec :)
      · exact (congrArg Sec.anchor sec :)
      · exact congrArg (fun f : Fuses => { f with lc := 3 }) lc
      · exact (congrArg State.job frame :)
      · exact (congrArg State.cores frame :)
    · have same : ¬ t.lcIs 2 = true := fun h => manufactured ((congrArg (fun f : Fuses => decide (f.lc = 2)) lc).symm.trans h)
      have deployed : s.sec.fuses.lc = 3 := by
        rcases allowed with ⟨h, -⟩ | ⟨h, -⟩
        · exact absurd h manufactured
        · simpa [State.lcIs] using h
      rw [if_neg same] at act
      refine ⟨t, answered_done (p := secOwnerClaim) rfl turn (decide_eq_true len) fields allow act order chans, ?_, ?_, ?_,
        ?_, ?_, ?_, fun _ => ⟨?_, ?_, ?_⟩, (absurd · manufactured)⟩
      · exact (congrArg Sec.ownerFlash sec :)
      · exact (congrArg Sec.anchor sec :)
      · exact (congrArg Sec.nonce sec :)
      · rw [lc, ← deployed]
      · exact (congrArg State.job frame :)
      · exact (congrArg State.cores frame :)
      · exact (congrArg Sec.owner sec :)
      · exact (congrArg State.power frame :)
      · exact (congrArg Sec.ak sec :)
  case release =>
    intro turn len lc idle
    have allow : secOwnerRelease.allowed { s with host := { s.host with order := s.host.order.drop 1 } } = true :=
      Bool.and_eq_true_iff.mpr ⟨lc, decide_eq_true idle⟩
    refine ⟨refusedAs_of (fun t r act => answered_kept (p := secOwnerRelease) rfl turn (decide_eq_true len) rfl allow act)
      (secOwnerRelease_act a ch b), fun ok => ?_⟩
    obtain ⟨sec, recs, frame⟩ := a.spent.released_shows
    have act : secOwnerRelease.act a ch b = .done a.spent.released .ok :=
      (secOwnerRelease_act a ch b).trans (State.signed_ok ok (State.nonceGood_of_ownerAuth (s := a) ok))
    generalize a.spent.released = t at act sec recs frame
    exact ⟨t, answered_done (p := secOwnerRelease) rfl turn (decide_eq_true len) rfl allow act
      (congrArg (fun t => t.host.order) frame :) (congrArg (fun t => t.host.chans) frame :), (congrArg Sec.owner sec :),
      (congrArg Sec.anchor sec :), (congrArg Sec.nonce sec :), (congrArg Sec.fuses sec :), (congrArg Records.opened recs :),
      (congrArg Records.staged recs :), (congrArg State.power frame :), (congrArg State.job frame :)⟩
  case change =>
    intro i op f turn lc which
    suffices change : ∀ p : CmdSpec, exec i s = p.row ch s → op = p.op → p.len c.length = true → p.fields b = true →
        p.allowed { s with host := { s.host with order := s.host.order.drop 1 } } = true → p.act a ch b = a.ownerChange op b f →
        refused i (s.ownerAuth op b) ∧
        (∀ o, s.ownerAuth op b = .ok → s.sec.owner = some o → ∃ t, answered i s ch t .ok ∧
          t.sec = { s.sec with owner := some (f o), ownerFlash := some (a.sealedOwner (f o)), nonce := none } ∧
          ({ t with sec := a.sec, free := a.free, host := { t.host with evc := a.host.evc } } : State) = a) by
      rcases which with ⟨rfl, rfl, len, kind, slot, zero, rfl⟩ | ⟨rfl, rfl, len, policy, rfl⟩ | ⟨rfl, rfl, len, mailbox, rfl⟩
      · exact change secKeySet rfl rfl (decide_eq_true len) (by simp [secKeySet, kind, slot, zero]) lc (secKeySet_act a ch b)
      · exact change secPolicy rfl rfl (decide_eq_true len) (decide_eq_true policy) lc (secPolicy_act a ch b)
      · exact change secMgmtKey rfl rfl (decide_eq_true len) rfl lc (secMgmtKey_act a b mailbox)
    intro p row same len fields allow acts
    subst same
    refine ⟨refusedAs_of (fun t r act => answered_kept row turn len fields allow act) acts, fun o ok held => ?_⟩
    have held' : a.spent.sec.owner = some o := held
    obtain ⟨sec, frame⟩ := a.spent.setOwner_shows (f o) 0x0912
    have act : p.act a ch b = .done ((a.spent.setOwner (f o)).event 0x0912) .ok :=
      acts.trans ((State.signed_ok ok (State.nonceGood_of_ownerAuth (s := a) ok)).trans (by simp only [held']))
    generalize State.event _ _ = t at act sec frame
    refine ⟨t, answered_done row turn len fields allow act (congrArg (fun t => t.host.order) frame :)
      (congrArg (fun t => t.host.chans) frame :), sec, ?_⟩
    exact congrArg (fun t : State => { t with sec := a.sec }) frame
  case noMailbox =>
    intro turn len lc management
    exact answered_kept (p := secMgmtKey) rfl turn (decide_eq_true len) rfl lc (if_pos management) rfl
  case read =>
    intro turn len lc o
    exact answered_kept (p := secOwnerRead) rfl turn (decide_eq_true len) rfl lc rfl rfl
  case advance =>
    intro byOwner turn len whole target vendor idle target
    have fields : secLcAdvance.fields b = true := by
      refine Bool.and_eq_true_iff.mpr ⟨decide_eq_true ‹fld b 0 1 ≤ 5›, ?_⟩
      by_cases long : c.length = 229
      · simp [vendor long]
      · simp [whole, long]
    have answers : ∀ t r, secLcAdvance.act a ch b = .done t r → t.host = a.host → answered (.secLcAdvance ch) s ch t r := fun t r =>
      answered_everywhere (p := secLcAdvance) rfl (turn.imp_right fun ⟨turn, lc⟩ => ⟨turn, by rw [lc]; rfl⟩) rfl rfl
        (by simpa [secLcAdvance] using len) fields (by simp [secLcAdvance, jobIn, idle])
    refine ⟨fun stuck => answers _ _ ?_ rfl, fun step => ⟨fun two incomplete => answers _ _ ?_ rfl, fun ready => ?_⟩⟩
    · have stuck : lcStep a.sec.fuses.lc (fld b 0 1) = none := stuck
      simp only [secLcAdvance, stuck]
    · have step : lcStep a.sec.fuses.lc (fld b 0 1) = some byOwner := step
      simp only [secLcAdvance, step]
      refine if_pos ?_
      rcases incomplete with none | none <;> simp [show fld b 0 1 = 2 from two, show a.sec.ikSealed = s.sec.ikSealed from rfl,
        show a.sec.certDone = s.sec.certDone from rfl, none]
    · intro au
      have step : lcStep a.sec.fuses.lc (fld b 0 1) = some byOwner := step
      have act : secLcAdvance.act a ch b = a.signed au b fun s => .done ((s.lcEffect target).changeLc target false) .ok := by
        simp only [secLcAdvance, step]
        refine (if_neg ?_).trans ?_
        · rcases ready with other | ⟨sealed, done⟩
          · simp [show fld b 0 1 ≠ 2 from other]
          · simp [show a.sec.ikSealed.isSome = true from sealed, show a.sec.certDone = true from done]
        · simp only [whole, au]
          rfl
      refine ⟨refusedAs_of answers act, fun ok => ?_⟩
      have good : a.nonceGood (trailerNonce b) = true := by
        have ok : (if c.length = 229 then a.vendorAuth 0x070A b else if byOwner then a.ownerAuth 0x070A b else .badKey) = Auth.ok := ok
        split at ok
        · exact State.nonceGood_of_vendorAuth ok
        split at ok
        · exact State.nonceGood_of_ownerAuth ok
        · cases ok
      obtain ⟨host, epoch, svn, killed, anchor, uds⟩ := a.spent.lcEffect_shows target
      replace act := act.trans (State.signed_ok ok good)
      generalize a.spent.lcEffect target = u at host epoch svn killed anchor uds act
      exact ⟨u.changeLc target false, answers _ _ act host, rfl, congrArg (fun n => min 64 (n + 1)) epoch, svn, killed, anchor, uds, rfl,
        rfl, rfl, rfl, State.resetSoon_due _⟩
  case reset =>
    intro turn len idle
    exact answered_kept (p := secReset) rfl turn (decide_eq_true len) rfl (by simp [secReset, jobIn, idle])
      (congrArg (Verdict.done · .ok) (State.resetSoon_eq a)) rfl

end Sys2Proof.Machine

/-! PROOF. The commands of firmware, certificates and recovery (R452 to R455, R457, R460, R464, R473). -/
namespace Sys2Proof.Machine

/-! ### The restart of the management processor -/

/-- What a command on its channel had going is given up in the services and the fabric alone. -/
theorem State.dropWork_leaves {α : Type} {v : State → α} (aside : Aside v) (fabless : ∀ (s : State) f, v (s.withFab f) = v s) (s : State)
    (ch : Nat) (keepLaunch : Bool) : v (s.dropWork ch keepLaunch) = v s := by
  unfold State.dropWork
  generalize loads : List.foldl _ s s.cas.loads = u
  have given : v u = v s := by
    rw [← loads]
    refine foldl_keeps v _ (fun l s => ?_) s.cas.loads s
    dsimp only
    split
    · rfl
    split
    · exact (aside.failAdapter ..).trans (aside.withCas ..)
    split
    · exact aside.withCas ..
    · exact (aside.failLoad ..).trans (aside.withCas ..)
  have kept : ∀ x, v (u.withCas x) = v s := fun x => (aside.withCas u x).trans given
  refine (aside.ports ..).trans ?_
  split
  · exact kept _
  split
  · exact kept _
  split <;> exact (fabless ..).trans (kept _)

/-- A restart of the management processor forgets the nonce, and nothing else of the security block (R464, R492). -/
theorem State.mpRestart_sec (s : State) (cause : Nat) : (s.mpRestart cause).sec = { s.sec with nonce := none } := by
  have secs : Aside State.sec := ⟨⟨⟨fun _ _ _ => rfl⟩, fun _ _ _ => rfl⟩, fun _ _ _ _ => rfl⟩
  unfold State.mpRestart
  dsimp only
  generalize answered : List.foldl _ _ (List.range 10) = u
  have kept : u.sec = s.sec := by
    rw [← answered]
    refine (foldl_keeps State.sec _ (fun ch t => ?_) _ _).trans rfl
    split
    · exact (secs.respond ..).trans (State.dropWork_leaves secs (fun _ _ => rfl) ..)
    · rfl
  exact (State.event_sec ..).trans (congrArg (fun x : Sec => { x with nonce := none }) kept)

/-- A command whose turn has come and which the checks refuse is answered with their result. -/
theorem answered_refused {p : CmdSpec} {i : Instr} {s : State} {ch : Nat} {c : Cmd} {r : Result} (row : exec i s = p.row ch s)
    (turn : s.carries ch p.op c)
    (refused : p.check { s with host := { s.host with order := s.host.order.drop 1 } } ch c = some r) :
    answered i s ch { s with host := { s.host with order := s.host.order.drop 1 } } (.of r) := by
  obtain ⟨there, boot, cmd, opcode, fresh, -, -, -, rest, order, behind⟩ := turn
  have run := CmdSpec.run_refused cmd opcode fresh (by rw [order]; rfl) boot refused
  rw [answered, row, p.row_of_lt there, run, State.answerUnknown_id]
  rw [State.respond_order, order]
  cases rest with
  | nil => exact .inl rfl
  | cons x rest =>
    obtain ⟨other, d, cmd, known⟩ := behind x List.mem_cons_self
    exact .inr ⟨x, rest, d, rfl, (State.respond_cmdOf _ _ _ _ other).trans cmd, known⟩

/-! ### The effects -/

theorem State.fwCheck_useNonce (s : State) (n img : Bytes) : (s.useNonce n).fwCheck img = s.fwCheck img := by
  refine State.fwCheck_congr ?_ img
  unfold State.useNonce
  split <;> rfl

/-- The check and the programming of an image. -/
def State.updateFw (img : Bytes) (e : FlashEnd) (s : State) : Verdict :=
  if s.fwCheck img ≠ 0 then .done s (.bad (fwResult (s.fwCheck img)) 0x0943) else s.programFw img e

/-- SEC_FW_UPDATE on the image of a scatter list that reads without fault. -/
theorem secFwUpdate_act {v : HostView} {e : FlashEnd} {owned : Bool} {s : State} {ch : Nat} {b all : Bytes}
    (read : (v.scatter (fld b 0 8) (fld b 8 4)).bind v.gather = some all) :
    (secFwUpdate v e owned).act s ch b =
      if owned then
        if s.fwCheck (all.take (352 + fwBody all)) ≠ 0 then
          .done (s.useNonce (trailerNonce b)) (.bad (fwResult (s.fwCheck (all.take (352 + fwBody all)))) 0x0943)
        else s.signed (s.ownerAuth 0x0708 b) b (State.updateFw (all.take (352 + fwBody all)) e)
      else s.updateFw (all.take (352 + fwBody all)) e := by
  simp only [secFwUpdate, read]
  rfl

theorem State.updateFw_good {s : State} {img : Bytes} (good : s.fwCheck img = 0) (e : FlashEnd) :
    s.updateFw img e = s.programFw img e := if_neg (not_not.mpr good)

/-- What programming an image leaves (R455). -/
theorem State.programFw_shows (s : State) (img : Bytes) :
    ∃ t, s.programFw img .done = .done t (.ok (fwMeasure img)) ∧ t.sec = { s.sec with fw := img, fwInvalid := false } ∧
      ({ t with sec := s.sec, host := { t.host with evc := s.host.evc } } : State) = s := by
  have frame := State.event_leaves (s.withSec { s.sec with fw := img, fwInvalid := false }) 0x0910 0 0
  exact ⟨_, rfl, (congrArg State.sec frame :), congrArg (fun t : State => { t with sec := s.sec }) frame⟩

/-- An image whose programming is cut off is invalid (R455). -/
theorem State.programFw_cut (s : State) (img : Bytes) {e : FlashEnd} (cut : e ≠ .done) (ch : Nat) :
    ((s.programFw img e).state ch).sec.fw = [] ∧ ((s.programFw img e).state ch).sec.fwInvalid = true ∧
    ((s.programFw img e).state ch).sec.fuses = s.sec.fuses := by
  cases e with
  | done => exact absurd rfl cut
  | restarted =>
    have state : (s.programFw img .restarted).state ch = (s.withSec { s.sec with fw := [], fwInvalid := true }).mpRestart 0 := by
      simp only [State.programFw, Verdict.state]
    rw [state, State.mpRestart_sec]
    exact ⟨rfl, rfl, rfl⟩
  | lost => exact ⟨rfl, rfl, rfl⟩

/-- A new identity key (R457). -/
def State.provision (s : State) : State :=
  let v := s.randomKey.2.random 12
  v.2.withSec { v.2.sec with
    ikSealed := some (gcmSeal s.sec.fuses.sealKey v.1 (beBytes 48 s.randomKey.1)), ik := some s.randomKey.1 }

theorem secProvision_act (s : State) (ch : Nat) (b : Bytes) : secProvision.act s ch b =
    s.signed (s.vendorAuth 0x070E b) b fun s => .done s.provision (.ok (ecPublic s.randomKey.1)) := rfl

/-- A part of the certificate chain (R459). -/
def State.installCert (b : Bytes) (s : State) : State :=
  let c := padTo (fld b 4 4) s.sec.chain
  s.withSec { s.sec with
    chain := c.take (fld b 0 4) ++ sub b 8 (b.length - 236) ++ c.drop (fld b 0 4 + (b.length - 236))
    certDone := fld b 0 4 + (b.length - 236) = fld b 4 4 }

theorem secCertInstall_act (s : State) (ch : Nat) (b : Bytes) : secCertInstall.act s ch b =
    s.signed (s.vendorAuth 0x070F b) b fun s => .done (s.installCert b) .ok := rfl

/-- The bytes that a certificate's part writes into the chain. -/
theorem getD_splice {c p : Bytes} {o : Nat} {i : Nat} (fits : o ≤ c.length) (low : i < p.length) (rest : Bytes) :
    (c.take o ++ p ++ rest).getD (o + i) 0#8 = p.getD i 0#8 := by
  have head : (c.take o).length = o := List.length_take_of_le fits
  rw [List.append_assoc, List.getD_append_right _ _ _ _ (by omega), head, Nat.add_sub_cancel_left, List.getD_append _ _ _ _ low]

/-- The chain that a part leaves, and the part in it. -/
theorem State.installCert_shows (s : State) {b : Bytes} (long : 236 ≤ b.length) (fits : fld b 0 4 + (b.length - 236) ≤ fld b 4 4) :
    (s.installCert b).sec.chain.length = fld b 4 4 ∧
    ∀ i, i < b.length - 236 → (s.installCert b).sec.chain.getD (fld b 0 4 + i) 0#8 = b.getD (8 + i) 0#8 := by
  have chain : (padTo (fld b 4 4) s.sec.chain).length = fld b 4 4 := padTo_length ..
  have part : (sub b 8 (b.length - 236)).length = b.length - 236 := sub_length (by omega)
  constructor
  · simp only [State.installCert, State.withSec, List.length_append, List.length_take, List.length_drop, chain, part]
    omega
  · intro i inside
    refine (getD_splice (by omega) (by omega) _).trans ?_
    simp [sub, List.getD_eq_getElem?_getD, inside]

theorem State.installCert_done (s : State) (b : Bytes) :
    (s.installCert b).sec.certDone = decide (fld b 0 4 + (b.length - 236) = fld b 4 4) := by
  simp only [State.installCert, State.withSec]

theorem secProvision_fields {b : Bytes} (form : vendorForm b = true) : secProvision.fields b = true := by
  simpa only [secProvision] using form

/-! ### The statement -/

/-- Settles O37: each command by its authority and its effect on firmware, fuses and chain. -/
theorem firmwareCommands : Obligations.FirmwareCommands := by
  intro s ch c a b used refused
  refine ⟨?update, ?svn, ?read, ?provision, ?install, ?stage, ?commit, ?unable⟩
  case update =>
    intro v all turn idle sg len read img au
    have allow : jobIn [.idle] { s with host := { s.host with order := s.host.order.drop 1 } } = true := by simp [jobIn, idle]
    have lens : ∀ e, (secFwUpdate v e s.sec.owner.isSome).len c.length = true := fun e => decide_eq_true len
    have answers : ∀ e t r, (secFwUpdate v e s.sec.owner.isSome).act a ch b = .done t r → t.host = a.host →
        answered (.secFwUpdate ch v e) s ch t r := fun e t r =>
      answered_kept (p := secFwUpdate v e s.sec.owner.isSome) rfl turn (lens e) sg allow
    have acts : ∀ e, _ := fun e => secFwUpdate_act (v := v) (e := e) (owned := s.sec.owner.isSome) (s := a) (ch := ch) (b := b) read
    have check : a.fwCheck img = s.fwCheck img := State.fwCheck_congr rfl img
    refine ⟨fun bad e => ?_, fun good e => ?_, fun good ok => ?_⟩
    · replace bad : a.fwCheck img ≠ 0 := check ▸ bad
      rw [← check]
      by_cases owned : s.sec.owner.isSome = true
      · refine ⟨used, answers e _ _ ((acts e).trans ((if_pos owned).trans (if_pos bad))) (State.useNonce_host ..), ?_, ?_⟩ <;>
        · simp only [used, State.useNonce]
          split <;> rfl
      · exact ⟨a, answers e _ _ ((acts e).trans ((if_neg owned).trans (if_pos bad))) rfl, rfl, rfl⟩
    · by_cases owned : s.sec.owner.isSome = true
      · have act : (secFwUpdate v e s.sec.owner.isSome).act a ch b = a.signed (a.ownerAuth 0x0708 b) b (State.updateFw img e) :=
          (acts e).trans ((if_pos owned).trans (if_neg (not_not.mpr (check.trans good))))
        rw [show au = a.ownerAuth 0x0708 b from if_pos owned]
        exact refusedAs_of (answers e) act
      · rw [show au = .ok from if_neg owned]
        exact ⟨nofun, nofun⟩
    · obtain ⟨u, host, fuses, owner, act⟩ : ∃ u : State, u.host = a.host ∧ u.sec.fuses = s.sec.fuses ∧ u.sec.owner = s.sec.owner ∧ u.job = s.job ∧
          ∀ e, (secFwUpdate v e s.sec.owner.isSome).act a ch b = u.programFw img e := by
        by_cases owned : s.sec.owner.isSome = true
        · have authority : a.ownerAuth 0x0708 b = .ok := (if_pos owned).symm.trans ok
          refine ⟨a.spent, rfl, rfl, rfl, rfl, fun e => (acts e).trans ((if_pos owned).trans ((if_neg (not_not.mpr (check.trans good))).trans ?_))⟩
          refine (State.signed_ok authority (State.nonceGood_of_ownerAuth authority)).trans (State.updateFw_good ?_ e)
          exact (State.fwCheck_congr rfl img).trans good
        · exact ⟨a, rfl, rfl, rfl, rfl, fun e => (acts e).trans ((if_neg owned).trans (State.updateFw_good (check.trans good) e))⟩
      obtain ⟨job, act⟩ := act
      obtain ⟨t, done, sec, frame⟩ := u.programFw_shows img
      refine ⟨⟨t, answered_done (p := secFwUpdate v .done s.sec.owner.isSome) rfl turn (lens _) sg allow ((act _).trans done)
        ((congrArg (fun t => t.host.order) frame :).trans (congrArg HostBlk.order host))
        ((congrArg (fun t => t.host.chans) frame :).trans (congrArg HostBlk.chans host)), (congrArg Sec.fw sec :),
        (congrArg Sec.fwInvalid sec :), (congrArg Sec.fuses sec :).trans fuses, (congrArg Sec.owner sec :).trans owner,
        (congrArg State.job frame :).trans job⟩, fun e cut => ?_⟩
      refine ⟨_, (CmdSpec.row_eq (secFwUpdate v e s.sec.owner.isSome) turn (lens e) sg allow), ?_⟩
      obtain ⟨fw, invalid, kept⟩ := u.programFw_cut img cut ch
      rw [act e, State.answerUnknown_sec]
      exact ⟨fw, invalid, kept.trans fuses⟩
  case svn =>
    intro turn form whole low target au
    have fields : (secSvnCommit s.sec.fuses.lc).fields b = true := by
      refine Bool.and_eq_true_iff.mpr ⟨decide_eq_true low, ?_⟩
      rcases form with ⟨-, -, vendor⟩ | ⟨-, len⟩
      · rw [vendor, Bool.or_true]
      · simp [whole, len]
    have lens : (secSvnCommit s.sec.fuses.lc).len c.length = true := by
      rcases form with ⟨lc, len, -⟩ | ⟨lc, len⟩ <;> simp [secSvnCommit, of_decide_eq_true lc, len]
    have allow : (secSvnCommit s.sec.fuses.lc).allowed { s with host := { s.host with order := s.host.order.drop 1 } } = true :=
      Bool.or_eq_true_iff.mpr (form.imp (·.1) (·.1))
    have answers : ∀ t r, (secSvnCommit s.sec.fuses.lc).act a ch b = .done t r → t.host = a.host → answered (.secSvnCommit ch) s ch t r :=
      fun t r => answered_kept (p := secSvnCommit s.sec.fuses.lc) rfl turn lens fields allow
    have act : (secSvnCommit s.sec.fuses.lc).act a ch b = a.signed au b fun s =>
        if s.sec.runSvn < target then .done s (.of .range)
        else if target ≤ s.sec.fuses.svn then .done s (.ok (leBytes 1 s.sec.fuses.svn))
        else .done ((s.withSec { s.sec with fuses := { s.sec.fuses with svn := target } }).event 0x0913) (.ok (leBytes 1 target)) := by
      rw [show au = if b.length = 229 then a.vendorAuth 0x0709 b else a.ownerAuth 0x0709 b by rw [whole]; rfl]
      rfl
    refine ⟨refusedAs_of answers act, fun ok => ?_⟩
    have good : a.nonceGood (trailerNonce b) = true := by
      have ok : (if c.length = 229 then a.vendorAuth 0x0709 b else a.ownerAuth 0x0709 b) = Auth.ok := ok
      split at ok
      · exact State.nonceGood_of_vendorAuth ok
      · exact State.nonceGood_of_ownerAuth ok
    replace act := act.trans (State.signed_ok ok good)
    rw [show used = a.spent from State.useNonce_good good]
    refine ⟨fun above => answers _ _ (act.trans (if_pos above)) rfl,
      fun run within => answers _ _ (act.trans ((if_neg (Nat.not_lt.mpr run)).trans (if_pos within))) rfl, fun run above => ?_⟩
    have frame := (a.spent.withSec { a.spent.sec with fuses := { a.spent.sec.fuses with svn := target } }).event_leaves 0x0913 0 0
    replace act := act.trans ((if_neg (Nat.not_lt.mpr run)).trans (if_neg (Nat.not_le.mpr above)))
    exact ⟨_, answered_done (p := secSvnCommit s.sec.fuses.lc) rfl turn lens fields allow act (congrArg (fun t => t.host.order) frame :)
      (congrArg (fun t => t.host.chans) frame :), (congrArg State.sec frame :)⟩
  case read =>
    intro turn len some few
    have fields : secChainRead.fields b = true := by simp [secChainRead, some, few]
    exact ⟨fun beyond => answered_kept (p := secChainRead) rfl turn (decide_eq_true len) fields rfl (if_pos beyond) rfl,
      fun within => answered_kept (p := secChainRead) rfl turn (decide_eq_true len) fields rfl (if_neg (Nat.not_lt.mpr within)) rfl⟩
  case provision =>
    intro turn len form lc
    have answers : ∀ t r, secProvision.act a ch b = .done t r → t.host = a.host → answered (.secProvision ch) s ch t r := fun t r =>
      answered_kept (p := secProvision) rfl turn (decide_eq_true len) (secProvision_fields form) lc
    refine ⟨refusedAs_of answers (secProvision_act a ch b), fun ok => ?_⟩
    have act := (secProvision_act a ch b).trans (State.signed_ok ok (State.nonceGood_of_vendorAuth (s := a) ok))
    exact ⟨_, _, _, answers _ _ act rfl, rfl, rfl, rfl, rfl, rfl⟩
  case install =>
    intro turn low high whole form lc size fits
    have fields : secCertInstall.fields b = true := by simp [secCertInstall, form, size, fits]
    have answers : ∀ t r, secCertInstall.act a ch b = .done t r → t.host = a.host → answered (.secCertInstall ch) s ch t r := fun t r =>
      answered_kept (p := secCertInstall) rfl turn (Bool.and_eq_true_iff.mpr ⟨decide_eq_true low, decide_eq_true high⟩) fields lc
    refine ⟨refusedAs_of answers (secCertInstall_act a ch b), fun ok => ?_⟩
    have act := (secCertInstall_act a ch b).trans (State.signed_ok ok (State.nonceGood_of_vendorAuth (s := a) ok))
    obtain ⟨length, bytes⟩ := a.spent.installCert_shows (whole ▸ low) fits
    exact ⟨a.spent.installCert b, answers _ _ act rfl, length, bytes, a.spent.installCert_done b, rfl⟩
  case stage =>
    intro turn low high len whole aligned some few inside
    have fields : recoveryWrite.fields b = true := by simp [recoveryWrite, aligned, some, few, len, inside]
    exact answered_recovery (p := recoveryWrite) rfl turn rfl rfl rfl (Bool.and_eq_true_iff.mpr ⟨decide_eq_true low, decide_eq_true high⟩)
      fields (decide_eq_true turn.2.1) rfl rfl
  case commit =>
    intro turn len some few img
    have fields : recoveryCommit.fields b = true := by simp [recoveryCommit, some, few]
    have answers : ∀ t r, recoveryCommit.act a ch b = .done t r → t.host = a.host → answered (.recoveryCommit ch) s ch t r := fun t r =>
      answered_recovery (p := recoveryCommit) rfl turn rfl rfl rfl (decide_eq_true len) fields (decide_eq_true turn.2.1)
    have check : a.fwCheck img = s.fwCheck img := State.fwCheck_congr rfl img
    refine ⟨fun bad => answers _ _ ?_ rfl, fun good => answers _ _ ?_ rfl⟩
    · rw [← check]
      exact if_pos (check ▸ bad)
    · refine (if_neg (not_not.mpr (check.trans good))).trans (congrArg (Verdict.done · .ok) ?_)
      exact State.resetSoon_eq ..
  case unable =>
    intro turn low high fields
    refine answered_refused (p := recoveryWrite) rfl turn ?_
    have len : recoveryWrite.len c.length = true := Bool.and_eq_true_iff.mpr ⟨decide_eq_true low, decide_eq_true high⟩
    obtain ⟨-, boot, -, -, -, reserved, -⟩ := turn
    have barred : recoveryWrite.allowed { s with host := { s.host with order := s.host.order.drop 1 } } = false :=
      decide_eq_false (by rw [boot]; decide)
    have fields : recoveryWrite.fields c.payload = true := fields
    unfold CmdSpec.check
    rw [len, fields, reserved, barred]
    simp [boot]

end Sys2Proof.Machine

/-! PROOF. The SPDM responder (R459 to R462, R473). -/
namespace Sys2Proof.Machine

/-! ### What a request leaves -/

/-- The transport `p` holds the connection `x`, the others theirs, and of the module only free values and signatures have been taken. -/
def State.spdmTold (s t : State) (p : SpdmPath) (x : Spdm) : Prop :=
  t.conn p = x ∧ (∀ o : SpdmPath, o.ix ≠ p.ix → t.conn o = s.conn o) ∧ ({ t with sec := s.sec, free := s.free } : State) = s ∧
    t.sec.fuses = s.sec.fuses ∧ t.sec.owner = s.sec.owner ∧ t.sec.nonce = s.sec.nonce

/-- A connection is replaced, once free values and signatures have been taken. -/
theorem State.spdmTold_setConn (s : State) (p : SpdmPath) (x : Spdm) (free signs : Nat) :
    s.spdmTold (({ s with free := free, sec := { s.sec with signs := signs } } : State).setConn p x) p x :=
  ⟨Map.find_put_same .., fun _ other => Map.find_put_other _ _ _ other, rfl, rfl, rfl, rfl⟩

/-- An answer that nothing withholds. -/
theorem State.spdmGive_told (s : State) (p : SpdmPath) (code : Nat) {busy : Bool} {a : SpdmAnswer} (now : (a.signed && busy) = false) :
    s.spdmTold (s.spdmGive p code busy a) p { a.conn with out := a.out } := by
  cases signed : a.signed with
  | false =>
    simp only [State.spdmGive, signed, Bool.false_and]
    exact s.spdmTold_setConn p _ (s.free + 1) s.sec.signs
  | true =>
    rw [signed, Bool.true_and] at now
    simp only [State.spdmGive, signed, now]
    exact s.spdmTold_setConn p _ (s.free + 1) (s.sec.signs + 1)

/-- An answer that the busy signer withholds (R461). -/
theorem State.spdmGive_withheld (s : State) (p : SpdmPath) (code : Nat) {a : SpdmAnswer} (signed : a.signed = true) :
    sub ((s.spdmGive p code true a).conn p).out 0 4 = [0x12#8, 0x7F#8, 0x42#8, 0#8] ∧
    ∃ token, ((s.spdmGive p code true a).conn p).waiting = some (code, token, a.out) := by
  simp only [State.spdmGive, signed, Bool.and_self, if_true, State.conn, State.setConn, State.withSec, Map.find_put_same]
  exact ⟨rfl, _, rfl⟩

theorem State.spdmGive_host (s : State) (p : SpdmPath) (code : Nat) (busy : Bool) (a : SpdmAnswer) :
    (s.spdmGive p code busy a).host = s.host := by
  unfold State.spdmGive
  cases a.signed <;> cases busy <;> rfl

/-- The answer to a request of version 1.2, or to a GET_VERSION. -/
theorem State.spdmRequest_answer (s : State) (p : SpdmPath) {q : Bytes} (busy : Bool) (long : 4 ≤ q.length)
    (version : fld q 1 1 = 0x84 ∨ fld q 0 1 = 0x12) :
    s.spdmRequest p q busy = s.spdmGive p (fld q 1 1) busy (s.spdmAnswer (s.conn p) q) := by
  have known : (decide (fld q 1 1 ≠ 0x84) && decide (fld q 0 1 ≠ 0x12)) = false := by
    rcases version with h | h <;> simp [h]
  simp only [State.spdmRequest, if_neg (Nat.not_lt.mpr long), known]
  rfl

/-- A request of another version (R461). -/
theorem State.spdmRequest_mismatch (s : State) (p : SpdmPath) {q : Bytes} (busy : Bool) (long : 4 ≤ q.length) (later : fld q 1 1 ≠ 0x84)
    (version : fld q 0 1 ≠ 0x12) : s.spdmRequest p q busy = s.spdmGive p (fld q 1 1) busy ((s.conn p).say (spdmError 0x41 0)) := by
  have other : (decide (fld q 1 1 ≠ 0x84) && decide (fld q 0 1 ≠ 0x12)) = true := by simp [later, version]
  simp only [State.spdmRequest, if_neg (Nat.not_lt.mpr long), other]
  rfl

/-- The rows of the responder with their codes. -/
def spdmRows (p : SpdmPath) (q : Bytes) (busy : Bool) : List (Instr × Nat) :=
  [(.getVersion p q busy, 0x84), (.getCapabilities p q busy, 0xE1), (.negotiateAlgorithms p q busy, 0xE3), (.getDigests p q busy, 0x81),
    (.getCertificate p q busy, 0x82), (.challenge p q busy, 0x83), (.getMeasurements p q busy, 0xE0), (.respondIfReady p q busy, 0xFF)]

theorem exec_spdmRows {p : SpdmPath} {q : Bytes} {busy : Bool} {s : State} : ∀ r ∈ spdmRows p q busy, exec r.1 s = spdmRow r.2 p q busy s := by
  simp only [spdmRows, List.forall_mem_cons, List.not_mem_nil, false_imp_iff, implies_true, and_true]
  exact ⟨rfl, rfl, rfl, rfl, rfl, rfl, rfl, rfl⟩

/-- A row takes the request of its own code, and one of no row's. -/
theorem exec_spdmRow {p : SpdmPath} {q : Bytes} {busy : Bool} {s : State} (boot : s.sec.boot = .running) {r : Instr × Nat}
    (row : r ∈ spdmRows p q busy) (code : fld q 1 1 = r.2 ∨ fld q 1 1 ∉ spdmCodes) : exec r.1 s = .next (s.spdmRequest p q busy) := by
  rw [exec_spdmRows r row]
  refine if_neg ?_
  rcases code with h | h <;> simp [boot, h]

/-- What a row answers that nothing withholds. -/
theorem completes_spdm {p : SpdmPath} {q : Bytes} {busy : Bool} {s : State} {i : Instr} {a : SpdmAnswer}
    (row : exec i s = .next (s.spdmRequest p q busy)) (request : s.spdmRequest p q busy = s.spdmGive p (fld q 1 1) busy a)
    (now : (a.signed && busy) = false) : completes i s fun t => s.spdmTold t p { a.conn with out := a.out } :=
  ⟨_, row.trans (congrArg Host.Outcome.next request), s.spdmGive_told p _ now⟩

/-! ### The answers -/

theorem State.spdmVersion_ok (s : State) (x : Spdm) {q : Bytes} (long : 4 ≤ q.length) (version : fld q 0 1 = 0x10) :
    (s.spdmVersion x q).out = [0x10#8, 0x04#8, 0#8, 0#8, 0#8, 1#8, 0x00#8, 0x12#8] ∧ (s.spdmVersion x q).conn.versioned = true ∧
    (s.spdmVersion x q).conn.negotiated = false ∧ (s.spdmVersion x q).signed = false := by
  have ok : (decide (q.length < 4) || decide (fld q 0 1 ≠ 0x10)) = false := by simp [version, long]
  simp only [State.spdmVersion, ok]
  exact ⟨rfl, rfl, rfl, rfl⟩

theorem State.spdmCaps_ok (s : State) {x : Spdm} {q : Bytes} (versioned : x.versioned = true) (long : 20 ≤ q.length) :
    (s.spdmCaps x q).out = [0x12#8, 0x61#8, 0#8, 0#8, 0#8, 20#8, 0#8, 0#8, 0x16#8, 0#8, 0#8, 0#8] ++ (Config.spdmOpaque s.free).toList ∧
    (s.spdmCaps x q).signed = false := by
  simp only [State.spdmCaps, versioned, if_neg (Nat.not_lt.mpr long)]
  exact ⟨rfl, rfl⟩

theorem State.spdmAlgs_ok (s : State) {x : Spdm} {q : Bytes} (capable : x.capable = true) (long : 32 ≤ q.length)
    (curve : bit (fld q 8 4) 7 = true) (hash : bit (fld q 12 4) 1 = true) (spec : bit (fld q 6 1) 0 = true) :
    (s.spdmAlgs x q).out = [0x12#8, 0x63#8, 0#8, 0#8, 36#8, 0#8, 1#8, 0#8, 4#8, 0#8, 0#8, 0#8, 0x80#8, 0#8, 0#8, 0#8,
      2#8, 0#8, 0#8, 0#8] ++ zeros 16 ∧ (s.spdmAlgs x q).conn.negotiated = true ∧ (s.spdmAlgs x q).signed = false := by
  simp only [State.spdmAlgs, capable, if_neg (Nat.not_lt.mpr long), curve, hash, spec]
  exact ⟨rfl, rfl, rfl⟩

theorem State.spdmDigests_ok (s : State) {x : Spdm} {q : Bytes} (negotiated : x.negotiated = true) (long : 4 ≤ q.length) :
    (s.spdmDigests x q).out = [0x12#8, 0x01#8, 0#8, 0x01#8] ++ sha384 s.spdmChain ∧ (s.spdmDigests x q).signed = false := by
  simp only [State.spdmDigests, negotiated, if_neg (Nat.not_lt.mpr long)]
  exact ⟨rfl, rfl⟩

theorem State.spdmCert_ok (s : State) {x : Spdm} {q : Bytes} (made : s.aliasExists = true) (negotiated : x.negotiated = true)
    (long : 8 ≤ q.length) (slot : fld q 2 1 % 16 = 0) (inside : fld q 4 2 < s.spdmChain.length) :
    let n := min (fld q 6 2) (min (s.spdmChain.length - fld q 4 2) 4056)
    (s.spdmCert x q).out = [0x12#8, 0x02#8, 0#8, 0#8] ++ leBytes 2 n ++ leBytes 2 (s.spdmChain.length - fld q 4 2 - n) ++
      sub s.spdmChain (fld q 4 2) n ∧ (s.spdmCert x q).signed = false := by
  have ok : (decide (q.length < 8) || decide (fld q 2 1 % 16 ≠ 0) || decide (s.spdmChain.length ≤ fld q 4 2)) = false := by
    simp [long, slot, inside]
  simp only [State.spdmCert, made, negotiated, ok]
  exact ⟨rfl, rfl⟩

theorem State.spdmChallenge_ok (s : State) {x : Spdm} {q : Bytes} (made : s.aliasExists = true) (negotiated : x.negotiated = true)
    (long : 36 ≤ q.length) (slot : fld q 2 1 % 16 = 0) (none : fld q 3 1 = 0) :
    let r := [0x12#8, 0x03#8, 0#8, 0x01#8] ++ sha384 s.spdmChain ++ (s.random 32).1 ++ zeros 2
    (s.spdmChallenge x q).out = r ++ s.spdmSign ctxChallenge (x.transA ++ x.transB ++ q ++ r) ∧ (s.spdmChallenge x q).signed = true := by
  have ok : (decide (q.length < 36) || decide (fld q 2 1 % 16 ≠ 0) ||
      !(decide (fld q 3 1 = 0) || decide (fld q 3 1 = 1) || decide (fld q 3 1 = 0xFF))) = false := by simp [long, slot, none]
  simp only [State.spdmChallenge, made, negotiated, ok]
  simp [none]

/-- The measurement block of an index. -/
theorem State.measBlocks_take (s : State) {op : Nat} (low : 1 ≤ op) (high : op ≤ 8) :
    (s.measBlocks.drop (op - 1)).take 1 = [s.measBlocks.getD (op - 1) []] := by
  have inside : op - 1 < s.measBlocks.length := by
    change op - 1 < 8
    omega
  rw [List.drop_eq_getElem_cons inside, List.getD_eq_getElem _ _ inside]
  rfl

/-- The measurements a request of the form `q` asks for (R462). -/
theorem State.spdmMeasure_count (s : State) {x : Spdm} {q : Bytes} (negotiated : x.negotiated = true) (long : 4 ≤ q.length)
    (unsigned : fld q 2 1 = 0) (none : fld q 3 1 = 0) :
    (s.spdmMeasure x q).out = [0x12#8, 0x60#8, 8#8, 0#8, 0#8, 0#8, 0#8, 0#8] ++ (s.random 32).1 ++ zeros 2 ∧
    (s.spdmMeasure x q).signed = false := by
  have bit0 : bit 0 0 = false := rfl
  have form : (decide (q.length < 4) || (false && decide (fld q 36 1 % 16 ≠ 0)) || (decide (9 ≤ 0) && decide (0 ≠ 0xFF))) = false := by
    simp [long]
  simp only [State.spdmMeasure, negotiated, unsigned, none, bit0, if_true, Bool.false_eq_true, if_false, form]
  exact ⟨rfl, rfl⟩

theorem State.spdmMeasure_one (s : State) {x : Spdm} {q : Bytes} (negotiated : x.negotiated = true) (long : 4 ≤ q.length)
    (unsigned : fld q 2 1 = 0) (low : 1 ≤ fld q 3 1) (high : fld q 3 1 ≤ 8) :
    let m := s.measBlocks.getD (fld q 3 1 - 1) []
    (s.spdmMeasure x q).out = [0x12#8, 0x60#8, 0#8, 0#8, 1#8] ++ leBytes 3 m.length ++ m ++ (s.random 32).1 ++ zeros 2 ∧
    (s.spdmMeasure x q).signed = false := by
  have form : (decide (q.length < (if bit 0 0 then 37 else 4)) || (bit 0 0 && decide (fld q 36 1 % 16 ≠ 0)) ||
      (decide (9 ≤ fld q 3 1) && decide (fld q 3 1 ≠ 0xFF))) = false := by
    simp [bit, long]
    omega
  simp only [State.spdmMeasure, negotiated, unsigned, form, if_neg (show ¬ fld q 3 1 = 0 by omega),
    if_neg (show ¬ fld q 3 1 = 0xFF by omega), s.measBlocks_take low high, List.flatten_singleton]
  exact ⟨rfl, rfl⟩

theorem State.spdmMeasure_all (s : State) {x : Spdm} {q : Bytes} (negotiated : x.negotiated = true) (long : 37 ≤ q.length)
    (signed : fld q 2 1 = 1) (all : fld q 3 1 = 0xFF) (slot : fld q 36 1 % 16 = 0) (key : s.sec.ak.isSome = true) :
    let m := s.measBlocks.flatten
    let r := [0x12#8, 0x60#8, 0#8, 0#8, 8#8] ++ leBytes 3 m.length ++ m ++ (s.random 32).1 ++ zeros 2
    (s.spdmMeasure x q).out = r ++ s.spdmSign ctxMeasure ((if x.transL = [] then x.transA else x.transL) ++ q ++ r) := by
  have bit1 : bit 1 0 = true := rfl
  have form : (decide (q.length < 37) || (true && decide (fld q 36 1 % 16 ≠ 0)) || (decide (9 ≤ 0xFF) && decide (0xFF ≠ 0xFF))) =
      false := by simp [long, slot]
  have held : (true && s.sec.ak.isNone) = false := by
    cases h : s.sec.ak <;> simp_all
  simp only [State.spdmMeasure, negotiated, signed, all, bit1, if_true, form, held]
  rfl

theorem Spdm.ready_ok {x : Spdm} {q full : Bytes} {code token : Nat} (waiting : x.waiting = some (code, token, full)) (named : fld q 2 1 = code)
    (same : fld q 3 1 = token) : x.ready q = { out := full, conn := { x with waiting := none }, signed := false } := by
  have ok : (decide (fld q 2 1 = code) && decide (fld q 3 1 = token)) = true := by simp [named, same]
  simp only [Spdm.ready, waiting, ok]
  rfl

/-! ### The statement -/

/-- The row `i` answers `out` on the transport `p`. -/
def State.spdmTells (s : State) (p : SpdmPath) (i : Instr) (out : Bytes) : Prop :=
  completes i s fun t => (t.conn p).out = out ∧ (∀ o : SpdmPath, o.ix ≠ p.ix → t.conn o = s.conn o) ∧
    ({ t with sec := s.sec, free := s.free } : State) = s ∧ t.sec.fuses = s.sec.fuses ∧ t.sec.owner = s.sec.owner ∧
    t.sec.nonce = s.sec.nonce

section Answers

variable {s : State} {p : SpdmPath} {q : Bytes} {busy : Bool} {i : Instr} {code : Nat} {a : SpdmAnswer}
  (boot : s.sec.boot = .running) (long : 4 ≤ q.length) (row : (i, code) ∈ spdmRows p q busy)
  (named : fld q 1 1 = code ∨ fld q 1 1 ∉ spdmCodes)
include boot row named

theorem spdmTells_of (request : s.spdmRequest p q busy = s.spdmGive p (fld q 1 1) busy a) (now : (a.signed && busy) = false) :
    s.spdmTells p i a.out := by
  obtain ⟨t, exec, conn, rest⟩ := completes_spdm (exec_spdmRow boot row named) request now
  exact ⟨t, exec, congrArg Spdm.out conn, rest⟩

include long

/-- A row answers what the responder's rules give, unless the busy signer withholds it. -/
theorem spdmTells_answer (version : fld q 1 1 = 0x84 ∨ fld q 0 1 = 0x12) (is : s.spdmAnswer (s.conn p) q = a)
    (now : (a.signed && busy) = false) : s.spdmTells p i a.out :=
  spdmTells_of boot row named (is ▸ s.spdmRequest_answer p busy long version) now

theorem completes_spdmAnswer (version : fld q 1 1 = 0x84 ∨ fld q 0 1 = 0x12) (is : s.spdmAnswer (s.conn p) q = a)
    (now : (a.signed && busy) = false) : completes i s fun t => t.conn p = { a.conn with out := a.out } := by
  obtain ⟨t, exec, conn, -⟩ := completes_spdm (exec_spdmRow boot row named) (is ▸ s.spdmRequest_answer p busy long version) now
  exact ⟨t, exec, conn⟩

end Answers

/-- Settles O38: each request by its answer, which replaces the connection of its transport. -/
theorem spdmResponder : Obligations.SpdmResponder := by
  intro s p q busy boot long x tells
  have answer : ∀ {i code a} out, (i, code) ∈ spdmRows p q busy → fld q 1 1 = code → fld q 1 1 = 0x84 ∨ fld q 0 1 = 0x12 →
      s.spdmAnswer x q = a → (a.signed && busy) = false → a.out = out → tells i out := fun out row code version is now same =>
    same ▸ spdmTells_answer boot long row (.inl code) version is now
  refine ⟨fun code version => ?version, fun i row other => ?mismatch, fun version => ⟨fun code => ⟨?capsEarly, ?caps⟩, ?algs,
    fun code => ⟨?digestsEarly, ?digests⟩, fun code => ⟨?certEarly, ?cert⟩, fun code => ⟨?challengeEarly, ?challenge⟩, ?measure, ?all,
    fun code => ⟨?readyEarly, ?ready⟩, ?other, ?unknown⟩, ?command⟩
  case version =>
    have is : s.spdmAnswer x q = s.spdmVersion x q := by simp only [State.spdmAnswer, code]
    obtain ⟨out, versioned, negotiated, unsigned⟩ := s.spdmVersion_ok x long version
    have now : ((s.spdmVersion x q).signed && busy) = false := by rw [unsigned, Bool.false_and]
    refine ⟨answer _ (by simp [spdmRows]) code (.inl code) is now out, ?_⟩
    obtain ⟨t, exec, conn⟩ := completes_spdmAnswer boot long (i := .getVersion p q busy) (code := 0x84) (by simp [spdmRows]) (.inl code)
      (.inl code) is now
    exact ⟨t, exec, (congrArg Spdm.versioned conn).trans versioned, (congrArg Spdm.negotiated conn).trans negotiated⟩
  case mismatch =>
    have later : fld q 1 1 ≠ 0x84 := fun same => by simp [same] at row
    exact spdmTells_of boot (List.mem_cons_of_mem _ row) (.inl rfl) (s.spdmRequest_mismatch p busy long later other) rfl
  case capsEarly =>
    intro unversioned
    exact answer _ (by simp [spdmRows]) code (.inr version)
      (show s.spdmAnswer x q = x.say errUnexpected by simp [State.spdmAnswer, code, State.spdmCaps, unversioned]) rfl rfl
  case caps =>
    intro versioned long
    obtain ⟨out, unsigned⟩ := s.spdmCaps_ok versioned long
    exact answer _ (by simp [spdmRows]) code (.inr version) (by simp only [State.spdmAnswer, code]) (by rw [unsigned, Bool.false_and]) out
  case algs =>
    intro code capable many curve hash spec
    have is : s.spdmAnswer x q = s.spdmAlgs x q := by simp only [State.spdmAnswer, code]
    obtain ⟨out, negotiated, unsigned⟩ := s.spdmAlgs_ok capable many curve hash spec
    have now : ((s.spdmAlgs x q).signed && busy) = false := by rw [unsigned, Bool.false_and]
    refine ⟨answer _ (by simp [spdmRows]) code (.inr version) is now out, ?_⟩
    obtain ⟨t, exec, conn⟩ := completes_spdmAnswer boot long (i := .negotiateAlgorithms p q busy) (code := 0xE3) (by simp [spdmRows])
      (.inl code) (.inr version) is now
    exact ⟨t, exec, (congrArg Spdm.negotiated conn).trans negotiated⟩
  case digestsEarly =>
    intro early
    exact answer _ (by simp [spdmRows]) code (.inr version)
      (show s.spdmAnswer x q = x.say errUnexpected by simp [State.spdmAnswer, code, State.spdmDigests, early]) rfl rfl
  case digests =>
    intro negotiated
    obtain ⟨out, unsigned⟩ := s.spdmDigests_ok negotiated long
    exact answer _ (by simp [spdmRows]) code (.inr version) (by simp only [State.spdmAnswer, code]) (by rw [unsigned, Bool.false_and]) out
  case certEarly =>
    intro unmade
    exact answer _ (by simp [spdmRows]) code (.inr version)
      (show s.spdmAnswer x q = x.say (errUnsupported 0x82) by simp [State.spdmAnswer, code, State.spdmCert, unmade]) rfl rfl
  case cert =>
    intro made negotiated long slot inside
    obtain ⟨out, unsigned⟩ := s.spdmCert_ok made negotiated long slot inside
    exact answer _ (by simp [spdmRows]) code (.inr version) (by simp only [State.spdmAnswer, code]) (by rw [unsigned, Bool.false_and]) out
  case challengeEarly =>
    intro unmade
    exact answer _ (by simp [spdmRows]) code (.inr version)
      (show s.spdmAnswer x q = x.say (errUnsupported 0x83) by simp [State.spdmAnswer, code, State.spdmChallenge, unmade]) rfl rfl
  case challenge =>
    intro made negotiated long slot none
    obtain ⟨out, signed⟩ := s.spdmChallenge_ok made negotiated long slot none
    have is : s.spdmAnswer x q = s.spdmChallenge x q := by simp only [State.spdmAnswer, code]
    refine ⟨fun idle => answer _ (by simp [spdmRows]) code (.inr version) is (by rw [idle, Bool.and_false]) out, fun occupied => ?_⟩
    subst occupied
    obtain ⟨head, token, waiting⟩ := s.spdmGive_withheld p (fld q 1 1) signed
    refine ⟨_, (exec_spdmRow boot (r := (.challenge p q true, 0x83)) (by simp [spdmRows]) (.inl code)).trans
      (congrArg Host.Outcome.next ((s.spdmRequest_answer p true (by omega) (.inr version)).trans (congrArg _ is))), head, token, ?_⟩
    rw [waiting, code, out]
  case measure =>
    intro code negotiated unsigned
    have is : s.spdmAnswer x q = s.spdmMeasure x q := by simp only [State.spdmAnswer, code]
    refine ⟨fun none => ?_, fun m low high same => ?_⟩
    · obtain ⟨out, unsigned⟩ := s.spdmMeasure_count negotiated long unsigned none
      exact answer _ (by simp [spdmRows]) code (.inr version) is (by rw [unsigned, Bool.false_and]) out
    · obtain ⟨out, unsigned⟩ := s.spdmMeasure_one negotiated long unsigned low high
      subst same
      exact answer _ (by simp [spdmRows]) code (.inr version) is (by rw [unsigned, Bool.false_and]) out
  case all =>
    intro code negotiated signed all long slot key idle
    exact answer _ (by simp [spdmRows]) code (.inr version) (by simp only [State.spdmAnswer, code]) (by rw [idle, Bool.and_false])
      (s.spdmMeasure_all negotiated long signed all slot key)
  case readyEarly =>
    intro none
    exact answer _ (by simp [spdmRows]) code (.inr version)
      (show s.spdmAnswer x q = x.say errUnexpected by simp [State.spdmAnswer, code, Spdm.ready, none]) rfl rfl
  case ready =>
    intro c token full waiting same named
    have is : s.spdmAnswer x q = { out := full, conn := { x with waiting := none }, signed := false } :=
      (show s.spdmAnswer x q = x.ready q by simp only [State.spdmAnswer, code]).trans (Spdm.ready_ok waiting same named)
    refine ⟨answer _ (by simp [spdmRows]) code (.inr version) is rfl rfl, ?_⟩
    obtain ⟨t, exec, conn⟩ := completes_spdmAnswer (busy := busy) boot long (i := .respondIfReady p q busy) (code := 0xFF) (by simp [spdmRows])
      (.inl code) (.inr version) is rfl
    exact ⟨t, exec, congrArg Spdm.waiting conn⟩
  case other =>
    intro other known
    exact if_pos (by simp [other, known])
  case unknown =>
    intro unknown i row
    obtain ⟨code, row⟩ : ∃ code, (i, code) ∈ spdmRows p q busy := by
      have mapped : i ∈ (spdmRows p q busy).map Prod.fst := row
      obtain ⟨r, mem, rfl⟩ := List.mem_map.mp mapped
      exact ⟨r.2, mem⟩
    have is : s.spdmAnswer x q = x.say (errUnsupported (fld q 1 1)) := by
      simp only [spdmCodes, List.mem_cons, List.not_mem_nil, or_false, not_or] at unknown
      obtain ⟨h1, h2, h3, h4, h5, h6, h7, h8⟩ := unknown
      unfold State.spdmAnswer
      split
      case h_9 => rfl
      all_goals contradiction
    exact spdmTells_answer boot long row (.inr unknown) (.inr version) is rfl
  case command =>
    intro ch c turn len a
    refine ⟨fun mailbox => ?_, fun management => ?_⟩
    · exact answered_kept (p := secSpdm busy) rfl turn (decide_eq_true len) rfl rfl (if_pos mailbox) rfl
    · intro o t
      exact answered_kept (p := secSpdm busy) rfl turn (decide_eq_true len) rfl rfl (if_neg (by omega)) (State.spdmGive_host ..)

end Sys2Proof.Machine

/-! PROOF. Launch, save tick, the end of a job and the stop of a job-fatal fault (R29, R49, R94, R103, R334, R405, R421, R422, R488). -/
namespace Sys2Proof.Machine

/-! ### What no tick of a core changes but a fault's time in a low-power state -/

/-- The instruction stores, GSC, the power block and the state of the job. -/
def State.settings (s : State) : (Nat → Map Nat) × Nat × Power × JobState :=
  (fun k => (s.core k).code, s.gsc, s.power, s.job.state)

/-- In RUN the step from `s` to `t` keeps them. -/
structure State.steady (s t : State) : Prop where
  kept : s.power.mode = .run → t.settings = s.settings

namespace State.steady

theorem refl (s : State) : s.steady s := ⟨fun _ => rfl⟩

theorem trans {s t u : State} (h : s.steady t) (k : t.steady u) : s.steady u := ⟨fun run =>
  (k.kept ((congrArg (fun x => x.2.2.1.mode) (h.kept run)).trans run)).trans (h.kept run)⟩

theorem foldl {β : Type} {f : State → β → State} (step : ∀ (s : State) x, s.steady (f s x)) (l : List β) (s : State) : s.steady (l.foldl f s) := by
  induction l generalizing s with
  | nil => exact refl s
  | cons x l ih => exact (step s x).trans (ih _)

/-- A step that changes the core `c` alone, and not its instruction store. -/
theorem of_core {s t : State} {c : Nat} {k : Core} (cores : t.cores = s.cores.put c k) (code : k.code = (s.core c).code)
    (gsc : t.gsc = s.gsc) (power : t.power = s.power) (job : t.job = s.job) : s.steady t := by
  have stores : (fun d => (t.core d).code) = fun d => (s.core d).code := funext fun d => by
    change (t.cores.find .init d).code = _
    rw [cores]
    by_cases same : d = c
    · rw [same, Map.find_put_same, code]
    · rw [Map.find_put_other _ _ _ same]
      rfl
  refine ⟨fun _ => ?_⟩
  unfold State.settings
  rw [stores, gsc, power, job]

/-- A step that leaves every core. -/
theorem of_kept {s t : State} (cores : t.cores = s.cores) (gsc : t.gsc = s.gsc) (power : t.power = s.power) (job : t.job = s.job) :
    s.steady t := by
  refine ⟨fun _ => ?_⟩
  unfold State.settings State.core
  rw [cores, gsc, power, job]

theorem setCore (s : State) {c : Nat} {k : Core} (code : k.code = (s.core c).code) : s.steady (s.setCore c k) :=
  of_core rfl code rfl rfl rfl

/-- A core is set, with the store it had before the step. -/
theorem setCore_after {s u : State} {c : Nat} {k : Core} (h : s.steady u) (code : k.code = (s.core c).code) :
    s.steady (u.setCore c k) :=
  ⟨fun run => (setCore u (code.trans (congrFun (congrArg Prod.fst (h.kept run)) c).symm)).kept
    ((congrArg (fun x => x.2.2.1.mode) (h.kept run)).trans run) |>.trans (h.kept run)⟩

theorem result (s : State) {c : Nat} {r : Reg} {x : RegVal} {due issue slot : Nat} :
    s.steady (s.setCore c ((s.core c).result r x due issue slot)) := setCore s (Core.result_code ..)

theorem putS (s : State) (c : Nat) (sd : BitVec 5) (lat : Nat) (x : W64) : s.steady (putS s c sd lat x) := result s

theorem putV (s : State) (c vd lat u occ : Nat) (x : List W32) : s.steady (putV s c vd lat u occ x) :=
  setCore s (Core.result_code (s.core c) ..)

theorem setSel (s : State) (c : Nat) (x : Select) : s.steady (setSel s c x) := setCore s rfl

theorem useSel (s : State) (c occ : Nat) : s.steady (useSel s c occ) := setCore s rfl

/-! ### The slots -/

theorem ctDo (c : Nat) (s : State) (o : CtOp) : s.steady (ctDo c s o) := by
  cases o with
  | nop => exact refl s
  | mul f => exact (putS ..).trans (setCore _ rfl)
  | br f => exact (putS ..).trans (setCore _ rfl)
  | loop f =>
    refine setCore s ?_
    split <;> rfl
  | halt => exact of_core rfl rfl rfl rfl rfl
  | _ => exact result s

theorem lsDo (c : Nat) (s : State) (o : LsOp) : s.steady (lsDo c s o) := by
  cases o with
  | nop => exact refl s
  | vld f | vst f | sld f | sst f => exact setCore s rfl
  | _ => exact result s

theorem startFeed (a : Nat) (l : Option (List Nat)) (k c : Nat) (s : State) : s.steady (startFeed a l k c s) := by
  unfold Machine.startFeed
  dsimp only
  split
  · exact refl s
  · exact setCore s rfl

theorem mxDo (c : Nat) (s : State) (o : MxOp) : s.steady (mxDo c s o) := by
  cases o with
  | nop => exact refl s
  | mma f => exact startFeed ..
  | mmag f => exact startFeed ..
  | mout f =>
    refine setCore s ?_
    have rows : ∀ (k : Core) (l : List Nat), (l.foldl (fun q r => q.result (.v (f.d.toNat + r)) (.v (moutLanes (s.core c) s f r))
        (s.tickOf c + 4 + r) (s.tickOf c) 1) k).code = k.code := fun k l => by
      refine foldl_keeps Core.code _ ?_ l k
      exact fun _ _ => Core.result_code ..
    split
    · split <;> rfl
    · refine (rows ..).trans ?_
      split <;> rfl
  | _ => exact setCore s rfl

theorem vxDo (c : Nat) (s : State) (o : VxOp) : s.steady (vxDo c s o) := by
  cases o with
  | nop => exact refl s
  | vcmp f => exact (putV ..).trans (result _)
  | topkInit f | topkMerge f | clrsel => exact (setSel ..).trans (useSel ..)
  | topkRead f => exact (setCore s ((Core.result_code ..).trans (Core.result_code ..))).trans (useSel ..)
  | vpen f => exact setCore s (Core.result_code (s.core c) ..)
  | select f => exact (setSel ..).trans (putV ..)
  | _ => exact putV ..

theorem mvDo (c : Nat) (s : State) (o : MvOp) : s.steady (mvDo c s o) := by
  cases o with
  | nop => exact refl s
  | ssr f =>
    simp only [Machine.mvDo, doSsr]
    split
    · exact refl s
    · split <;> exact of_core rfl rfl rfl rfl rfl
  | ssw f =>
    simp only [Machine.mvDo, doSsw]
    split
    · exact refl s
    · exact setCore s rfl
  | msend f => exact setCore s rfl
  | mrecv p a =>
    simp only [Machine.mvDo, doMrecv]
    split
    · exact refl s
    · exact setCore s rfl
  | gath d a => exact setCore s rfl

theorem qxDo (c : Nat) (s : State) (o : QxOp) : s.steady (qxDo c s o) := by
  cases o with
  | nop => exact refl s
  | qpush f => exact of_kept rfl rfl rfl rfl
  | qarm f => exact of_core rfl rfl rfl rfl rfl
  | qwait w => exact setCore s rfl
  | qstat f => exact result s

theorem slotDo (c : Nat) (s : State) (o : SlotOp) : s.steady (slotDo c s o) := by
  cases o with
  | ct h o => exact ctDo c s o
  | mx h o => exact mxDo c s o
  | vx h o => exact vxDo c s o
  | ls h o => exact lsDo c s o
  | mv h o => exact mvDo c s o
  | qx h o => exact qxDo c s o

/-! ### Stores, mesh and landings -/

theorem jobFatal (s : State) (code : Nat) (r : Option Nat) (a b : W64) (k n : Option Nat) : s.steady (s.jobFatal code r a b k n) := by
  refine ⟨fun run => ?_⟩
  unfold State.settings State.core
  rw [State.jobFatal_cores, State.jobFatal_gsc s code r a b k n run, State.jobFatal_power s code r a b k n run,
    State.jobFatal_job s code r a b k n run]
  have noted : ∀ j : JobStatus, (j.note (n.getD code) (k.getD s.rank) s.gsc).state = j.state := fun j => by
    unfold JobStatus.note
    split <;> rfl
  split
  · dsimp only
    rw [noted]
  · rfl

theorem lateFault (s : State) (c code t : Nat) : s.steady (s.lateFault c code t) :=
  (of_kept rfl rfl rfl rfl : s.steady { s with coreRegs := s.coreRegs.capture code c 6 t 0 }).trans (jobFatal ..)

theorem coreFault (s : State) (c slot code : Nat) : s.steady (s.coreFault c slot code) := by
  unfold State.coreFault
  dsimp only
  refine State.steady.trans ?_ (jobFatal ..)
  split
  · exact of_kept rfl rfl rfl rfl
  · exact of_core rfl rfl rfl rfl rfl

theorem wsReads (s : State) (c t : Nat) (l : List (Nat × Nat)) : s.steady (s.wsReads c t l) := by
  unfold State.wsReads
  dsimp only
  split
  · refine State.steady.trans ?_ (lateFault ..)
    exact of_kept rfl rfl rfl rfl
  · exact of_kept rfl rfl rfl rfl

theorem finishOp (s : State) (c : Nat) (o : Op) : s.steady (s.finishOp c o) := by
  unfold State.finishOp
  split
  · exact result s
  · exact result s
  · unfold State.sendUnit
    split
    · exact refl s
    · exact of_kept rfl rfl rfl rfl
  all_goals exact of_kept rfl rfl rfl rfl

theorem ssRead (s : State) (l a n t : Nat) : s.steady (s.ssRead l a n t) := by
  unfold State.ssRead
  dsimp only
  split
  · refine State.steady.trans ?_ (lateFault ..)
    exact of_kept rfl rfl rfl rfl
  · exact of_kept rfl rfl rfl rfl

theorem lineRead (s : State) (l : SsLine) (b : Bytes) : s.steady (s.lineRead l b) := by
  unfold State.lineRead
  dsimp only
  split
  · exact refl s
  split
  · exact setCore s rfl
  split <;> exact setCore s rfl

theorem lineDo (ss0 : Mem) (t : Nat) (s : State) (l : SsLine) : s.steady (State.lineDo ss0 t s l) := by
  unfold State.lineDo
  dsimp only
  split
  · exact of_kept rfl rfl rfl rfl
  · refine State.steady.trans ?_ (lineRead ..)
    refine (ssRead s l.slice (ssAddr l.slice l.off) 128 t).trans ?_
    exact of_kept rfl rfl rfl rfl

theorem feedTick_code (k : Core) (exact : Bool) (t : Nat) : (k.feedTick exact t).1.code = k.code := by
  unfold Core.feedTick
  split
  · rfl
  · dsimp only
    split <;> rfl

theorem perform_code (ws0 : Mem) (k : Core) (p : Piece) : (Core.perform ws0 k p).code = k.code := by
  unfold Core.perform
  dsimp only
  split
  · rfl
  · split <;> rfl

theorem bankTick (s : State) (c t : Nat) : s.steady (s.bankTick c t) := by
  unfold State.bankTick
  dsimp only
  refine State.steady.trans ?_ (foldl (fun _ _ => lateFault ..) ..)
  refine State.steady.trans ?_ (foldl (fun _ _ => finishOp ..) ..)
  refine setCore_after (wsReads ..) ?_
  refine (foldl_keeps Core.code (Core.perform _) ?_ _ _).trans (feedTick_code ..)
  exact fun _ _ => perform_code ..

theorem sliceTick (s : State) (c t : Nat) : s.steady (s.sliceTick c t) := by
  unfold State.sliceTick
  dsimp only
  refine State.steady.trans ?_ (foldl (fun _ _ => lateFault ..) ..)
  refine State.steady.trans ?_ (foldl (fun _ _ => lineDo ..) ..)
  exact of_kept rfl rfl rfl rfl

theorem gatherTick (s : State) (c t : Nat) : s.steady (s.gatherTick c t) := by
  have gathers : ∀ (l : List Gather) (p : State × List Gather), p.1.steady (l.foldl (fun (p : State × List Gather) g =>
      let q := p.1.gatherOne c t g
      (q.1, p.2 ++ [q.2])) p).1 := fun l => by
    induction l with
    | nil => exact fun p => refl p.1
    | cons g l ih =>
      intro p
      refine State.steady.trans ?_ (ih _)
      unfold State.gatherOne
      dsimp only
      split
      · exact refl _
      split
      · exact refl _
      · exact ssRead ..
  unfold State.gatherTick
  dsimp only
  refine (gathers (s.core c).gather (s, [])).trans ?_
  refine setCore _ ?_
  refine foldl_keeps Core.code _ ?_ _ _
  exact fun _ _ => Core.result_code ..

theorem landOne (s : State) (i t : Nat) : s.steady (s.landOne i t) := by
  unfold State.landOne
  split
  · exact refl s
  split
  · exact refl s
  split
  · exact refl s
  split
  · dsimp only
    split
    · refine State.steady.trans ?_ (lateFault ..)
      exact of_kept rfl rfl rfl rfl
    · exact of_kept rfl rfl rfl rfl
  · exact of_core rfl rfl rfl rfl rfl

theorem landAll (s : State) (c t : Nat) : s.steady (s.landAll c t) := by
  unfold State.landAll
  split
  · exact refl s
  · refine foldl (fun s i => ?_) ..
    split
    · split
      · exact landOne ..
      · exact refl s
    · exact refl s

theorem unclaimed (s : State) (c t : Nat) : s.steady (s.unclaimed c t) := by
  unfold State.unclaimed
  dsimp only
  refine State.steady.trans ?_ (foldl (fun _ _ => lateFault ..) ..)
  exact setCore s rfl

theorem arrive (s : State) (c t : Nat) : s.steady (s.arrive c t) := by
  unfold State.arrive
  dsimp only
  refine of_core rfl ?_ rfl rfl rfl
  refine foldl_keeps Core.code _ (fun k f => ?_) _ _
  split <;> rfl

/-! ### The tick of a region -/

theorem commitAcc_code (k : Core) (a : Nat) : (k.commitAcc a).code = k.code := by
  unfold Core.commitAcc
  split <;> rfl

theorem coreStart (s : State) (c t : Nat) : s.steady (s.coreStart c t) := by
  have busy : ∀ s : State, s.steady (s.noteBusy c t) := fun s => by
    unfold State.noteBusy
    split
    · exact refl s
    · exact setCore s rfl
  have written : ∀ (l : List Wb) (k : Core), (l.foldl (fun k w => k.writeReg w.reg w.val) k).code = k.code := fun l k => by
    refine foldl_keeps Core.code _ (fun k w => ?_) l k
    unfold Core.writeReg
    dsimp only
    split <;> rfl
  unfold State.coreStart
  dsimp only
  refine (unclaimed s c t).trans ?_
  generalize s.unclaimed c t = u
  refine State.steady.trans (t := (u.setCore c ((u.core c).requeue t)).requeueLines c t) (of_core rfl rfl rfl rfl rfl) ?_
  generalize (u.setCore c ((u.core c).requeue t)).requeueLines c t = v
  refine (((landAll v c t).trans (arrive _ c t)).trans (busy _)).trans ?_
  refine setCore _ ?_
  refine (foldl_keeps Core.code _ (fun k a => ?_) _ _).trans (written ..)
  split
  · exact commitAcc_code ..
  · rfl

theorem issueBundle (s : State) (c : Nat) : s.steady (s.issueBundle c) := by
  unfold State.issueBundle
  dsimp only
  split
  · exact refl s
  split
  · refine foldl (fun s o => ?_) ..
    split
    · split
      · exact slotDo ..
      · exact refl s
    · exact refl s
  · exact foldl (fun _ _ => coreFault ..) ..

theorem coreIssue (s : State) (c : Nat) (first : Bool) : s.steady (s.coreIssue c first) := by
  have advanced : (s.core c).advance.code = (s.core c).code := by
    unfold Core.advance
    split
    · rfl
    · rfl
    · split <;> rfl
  unfold State.coreIssue
  dsimp only
  refine State.steady.trans ?_ (issueBundle ..)
  split
  · exact refl s
  · exact setCore s advanced

theorem passGate (s : State) (w : Nat × Nat × Wait) : s.steady (s.passGate w) := of_core rfl rfl rfl rfl rfl

theorem regionTick (s : State) (r t : Nat) (first : Bool) : s.steady (s.regionTick r t first) := by
  have frame := s.skidTick_frame r t
  unfold State.regionTick
  dsimp only
  refine State.steady.trans ?_ (foldl (fun _ _ => coreIssue ..) ..)
  refine State.steady.trans ?_ (foldl (fun s c => ((gatherTick s c t).trans (sliceTick ..)).trans (bankTick ..)) ..)
  refine State.steady.trans ?_ (foldl (fun s w => passGate s w) ..)
  refine State.steady.trans ?_ (foldl (fun _ _ => coreStart ..) ..)
  exact of_kept (congrArg State.cores frame :) (congrArg State.gsc frame :) (congrArg State.power frame :) (congrArg State.job frame :)

end State.steady

/-! ### The first tick -/

/-- The first tick of every region in a list. -/
theorem foldl_regionTick_region (t : Nat) {l : List Nat} (once : l.Nodup) (s : State) (q : Nat) :
    let u := l.foldl (fun s r => s.regionTick r t true) s
    (q ∈ l → (u.region q).issued = (s.region q).issued + 1 ∧ (u.region q).tickCount = t) ∧
    (q ∉ l → (u.region q).issued = (s.region q).issued ∧ (u.region q).tickCount = (s.region q).tickCount) := by
  induction l generalizing s with
  | nil => exact ⟨fun h => absurd h List.not_mem_nil, fun _ => ⟨rfl, rfl⟩⟩
  | cons r l ih =>
    obtain ⟨fresh, once⟩ := List.nodup_cons.mp once
    obtain ⟨inside, outside⟩ := ih once (s.regionTick r t true)
    dsimp only at inside outside ⊢
    rw [List.foldl_cons]
    by_cases same : q = r
    · subst same
      obtain ⟨issued, count⟩ := outside fresh
      rw [State.regionTick_region] at issued count
      exact ⟨fun _ => ⟨issued, count⟩, fun h => absurd List.mem_cons_self h⟩
    · have kept := s.regionTick_noSkid t true same
      refine ⟨fun h => ?_, fun h => ?_⟩
      · obtain ⟨issued, count⟩ := inside (List.mem_of_ne_of_mem same h)
        exact ⟨issued.trans (congrArg (fun x : Region => x.issued + 1) kept :), count⟩
      · obtain ⟨issued, count⟩ := outside fun mem => h (List.mem_cons_of_mem _ mem)
        exact ⟨issued.trans (congrArg Region.issued kept :), count.trans (congrArg Region.tickCount kept :)⟩

/-- A region before its first tick. -/
def Region.unissued (x : Region) : Region :=
  { x with issued := 0, tokens := [], elapsed := false, gate := none, stretch := 0, skid := [] }

def State.beforeTicks (s : State) : State := (List.range 80).foldl (fun s r => s.setRegion r (s.region r).unissued) s

theorem State.beforeTicks_keeps {α : Type} (v : State → α) (kept : ∀ (s : State) r x, v (s.setRegion r x) = v s) (s : State) :
    v s.beforeTicks = v s := by
  refine foldl_keeps v _ ?_ _ s
  exact fun _ _ => kept ..

theorem State.firstTicks_eq (s : State) (t : Nat) :
    s.firstTicks t = (List.range 80).foldl (fun s r => s.regionTick r t true) s.beforeTicks := rfl

/-- What the ticks of the regions of a list leave of the blocks outside the cores. -/
theorem foldl_regionTick_outside (t : Nat) (l : List Nat) (s : State) :
    let u := l.foldl (fun s r => s.regionTick r t true) s
    u.srv = s.srv ∧ u.recs = s.recs ∧ u.fab = s.fab := by
  have kept : ∀ s r, ((s : State).regionTick r t true).srv = s.srv ∧ (s.regionTick r t true).recs = s.recs ∧
      (s.regionTick r t true).fab = s.fab := fun s r => by
    have outside := s.regionTick_outside r t true
    have frame := s.skidTick_frame r t
    exact ⟨(congrArg (fun x => x.2.2.2.2.2.1) outside).trans (congrArg State.srv frame :),
      (congrArg (fun x => x.2.2.2.2.2.2.1) outside).trans (congrArg State.recs frame :),
      (congrArg (fun x => x.2.2.2.2.2.2.2.1) outside).trans (congrArg State.fab frame :)⟩
  exact ⟨foldl_keeps State.srv _ (fun s r => (kept s r).1) l s, foldl_keeps State.recs _ (fun s r => (kept s r).2.1) l s,
    foldl_keeps State.fab _ (fun s r => (kept s r).2.2) l s⟩

/-- The first tick of a launch or a resume, with TICK_COUNT `t` (R49). -/
theorem State.firstTicks_shows (s : State) (t : Nat) :
    s.steady (s.firstTicks t) ∧ (s.firstTicks t).srv = s.srv ∧ (s.firstTicks t).recs = s.recs ∧ (s.firstTicks t).fab = s.fab ∧
    ∀ r, r < 80 → ((s.firstTicks t).region r).issued = 1 ∧ ((s.firstTicks t).region r).tickCount = t := by
  obtain ⟨u, before⟩ : ∃ u : State, u = s.beforeTicks := ⟨_, rfl⟩
  have kept : ∀ {α : Type} (v : State → α), (∀ (s : State) r x, v (s.setRegion r x) = v s) → v u = v s := fun v kept =>
    before ▸ s.beforeTicks_keeps v kept
  have fresh : ∀ r, r < 80 → (u.region r).issued = 0 := fun r there => by
    rw [before, State.beforeTicks, foldl_setRegion_region Region.unissued List.nodup_range, if_pos (List.mem_range.mpr there)]
    rfl
  obtain ⟨srv, recs, fab⟩ := foldl_regionTick_outside t (List.range 80) u
  have steady := State.steady.foldl (fun s r => State.steady.regionTick s r t true) (List.range 80) u
  have ticks := fun q => (foldl_regionTick_region t (l := List.range 80) List.nodup_range u q).1
  rw [before, ← s.firstTicks_eq] at srv recs fab steady
  rw [before] at ticks fresh kept
  refine ⟨(State.steady.of_kept ?_ ?_ ?_ ?_).trans steady, srv.trans ?_, recs.trans ?_, fab.trans ?_, fun r there => ?_⟩
  iterate 7 exact kept _ fun _ _ _ => rfl
  obtain ⟨issued, count⟩ := ticks r (List.mem_range.mpr there)
  exact ⟨issued.trans (congrArg (· + 1) (fresh r there)), count⟩

/-! ### The launch and the resume (R49, R94, R403) -/

/-- The job becomes RUNNING with its first tick. -/
theorem State.startTicks_shows {s : State} (t : Nat) (plain : s.srv.cfg = none) (run : s.power.mode = .run) :
    (s.startTicks t).job.state = .running ∧ (s.startTicks t).gsc = s.gsc ∧ (s.startTicks t).fab.startAt = none ∧
    (s.startTicks t).recs = s.recs ∧ (∀ k, ((s.startTicks t).core k).code = (s.core k).code) ∧
    ∀ r, r < 80 → ((s.startTicks t).region r).issued = 1 ∧ ((s.startTicks t).region r).tickCount = t := by
  have state : ((s.withFab { s.fab with startAt := none, launch := none }).setJob .running).job.state = .running :=
    congrArg JobStatus.state (State.setJob_job ..)
  have frame : ∀ {α : Type} (v : State → α), (∀ t : State, v (t.setJob .running) = v t) →
      v ((s.withFab { s.fab with startAt := none, launch := none }).setJob .running) =
        v (s.withFab { s.fab with startAt := none, launch := none }) := fun v kept => kept _
  have started : s.startTicks t = (((s.withFab { s.fab with startAt := none, launch := none }).setJob .running).firstTicks t).openBoundary := rfl
  rw [started]
  generalize (s.withFab { s.fab with startAt := none, launch := none }).setJob .running = u at state frame
  obtain ⟨steady, srv, recs, fab, ticks⟩ := u.firstTicks_shows t
  generalize u.firstTicks t = w at steady srv recs fab ticks
  have cfg : w.srv.cfg.isNone = true :=
    Option.isNone_iff_eq_none.mpr ((congrArg Serve.cfg (srv.trans (frame State.srv fun _ => State.setJob_srv ..))).trans plain)
  have opened : w.openBoundary = w.withSrv { w.srv with fetchStop := false, paused := false, halted := false } :=
    if_pos (by rw [cfg, Bool.true_or])
  have settings := steady.kept ((congrArg Power.mode (frame State.power fun _ => State.setJob_power ..)).trans run)
  have codes := congrArg (fun x => x.1) settings
  rw [opened]
  refine ⟨(congrArg (fun x => x.2.2.2) settings).trans state,
    (congrArg (fun x => x.2.1) settings).trans (frame State.gsc fun _ => State.setJob_gsc ..),
    congrArg Fabric.startAt (fab.trans (frame State.fab fun _ => State.setJob_fab ..)),
    recs.trans (frame State.recs fun _ => State.setJob_recs ..), fun k => (congrFun codes k).trans ?_, ticks⟩
  exact congrArg Core.code (State.core_eq _ _ (frame State.cores fun _ => State.setJob_cores ..) k)

/-- The module as the first tick of a launch finds it. -/
def State.launchReady (s : State) (i : Image) (at_ : Nat) : State :=
  let t := s.clearCounters.coreList.foldl (fun s c => s.launchCore i c) s.clearCounters
  { t.withRecs { t.recs with next := 0, blockNext := 0, launchGsc := at_ } with flights := [], ssLines := [], ssLost := [] }

theorem State.launchReady_shows (s : State) (i : Image) (at_ : Nat) :
    s.steady (s.launchReady i at_) ∧ (s.launchReady i at_).srv = s.srv ∧ (s.launchReady i at_).recs.launchGsc = at_ ∧
      (s.launchReady i at_).recs.next = 0 := by
  have cores : ∀ (l : List Nat) (s : State), s.steady (l.foldl (fun s c => s.launchCore i c) s) :=
    State.steady.foldl fun s c => State.steady.setCore s rfl
  have srv : ∀ (l : List Nat) (s : State), (l.foldl (fun s c => s.launchCore i c) s).srv = s.srv :=
    foldl_keeps State.srv _ fun _ _ => rfl
  have cleared : s.steady s.clearCounters := State.steady.of_kept rfl rfl rfl rfl
  refine ⟨cleared.trans ((cores s.clearCounters.coreList s.clearCounters).trans (State.steady.of_kept rfl rfl rfl rfl)), ?_, rfl, rfl⟩
  exact (srv s.clearCounters.coreList s.clearCounters).trans rfl

/-- LAUNCH_COUNT of a job that a launch unit or command has started. -/
theorem launchCount_row {s : State} {i : Image} {at_ : Nat} (image : s.image = some i) (due : s.fab.startAt = some at_)
    (startable : s.startable = true) (going : s.stop = none) (accepted : s.launchPending = false) (run : s.power.mode = .run) :
    exec .launchCount s = .next (if s.job.state = .armed then ((s.advanceTo at_).launchReady i at_).startTicks 0
      else (s.advanceTo at_).resume) := by
  refine Eq.trans (b := execLaunchCount s) rfl ?_
  have wake : s.wake = s := if_pos run
  simp only [execLaunchCount, due, image]
  rw [if_neg (by simp [startable, going, accepted]), wake, State.advanceTo_job]
  rfl

theorem launchCount_waits {s : State} (waits : s.fab.startAt = none ∨ (s.job.state ≠ .armed ∧ s.job.state ≠ .paused) ∨
    s.launchPending = true) : exec .launchCount s = .next s := by
  refine Eq.trans (b := execLaunchCount s) rfl ?_
  unfold execLaunchCount
  split
  case h_2 => rfl
  case h_1 due image =>
    refine if_pos ?_
    rcases waits with none | ⟨unarmed, unpaused⟩ | pending
    · cases none.symm.trans due
    · simp [State.startable, unarmed, unpaused]
    · simp [pending]

/-! ### The save tick and the end of a job (R103, R334, R421) -/

/-- What waited for a boundary leaves the far memory alone when no load did. -/
theorem State.casBoundary_far {s : State} (loads : s.cas.loads = []) : s.casBoundary.far = s.far := by
  unfold State.casBoundary
  dsimp only
  generalize unloaded : List.foldl _ _ s.cas.unloads = u
  have kept : (u.far, u.cas.loads) = (s.far, s.cas.loads) := by
    rw [← unloaded]
    refine (foldl_keeps (fun t : State => (t.far, t.cas.loads)) _ (fun t u => ?_) _ _).trans rfl
    split
    · rw [State.respond_far, State.respond_cas]
      rfl
    · rw [State.respond_far, State.respond_cas]
  obtain ⟨far, kept⟩ := Prod.mk.inj kept
  rw [kept.trans loads]
  exact far

/-- What the close of the open block changes (R322). -/
theorem State.closeBlock_shows (s : State) : ∃ x : Records, s.closeBlock = s.withRecs x ∧ x.savedTick = s.recs.savedTick ∧
    (s.recs.staged = [] → s.recs.opened = none → x.staged = [] ∧ x.opened = none) ∧
    (s.recs.staged ≠ [] ∨ s.recs.opened.isSome = true → x.staged ≠ []) := by
  unfold State.closeBlock
  cases opened : s.recs.opened with
  | none => exact ⟨_, rfl, rfl, fun staged _ => ⟨staged, opened⟩, fun some => some.resolve_right (by simp)⟩
  | some b =>
    dsimp only
    split
    case isTrue four => exact ⟨_, rfl, rfl, fun _ none => (nomatch none), fun _ none => absurd four (by rw [show s.recs.staged = [] from none]; decide)⟩
    case isFalse => exact ⟨_, rfl, rfl, fun _ none => (nomatch none), fun _ => List.append_ne_nil_of_right_ne_nil _ (List.cons_ne_nil b [])⟩

/-- A job that stands still: its ticks are settled, its checks written back, its block closed. -/
def State.atRest (s : State) : State := (s.settleTicks s.lastBusy).flushChecks.closeBlock

theorem State.atRest_shows (s : State) :
    s.atRest.recs.savedTick = s.lastBusy ∧ (∀ r, r < 80 → (s.atRest.region r).tickCount = s.lastBusy) ∧ s.atRest.ss = s.ss ∧
    s.atRest.far.mem = s.far.mem ∧ s.atRest.cas = s.cas ∧ s.atRest.job = s.job ∧ s.atRest.stop = s.stop ∧ s.atRest.srv = s.srv ∧
    (s.recs.staged = [] → s.recs.opened = none → s.atRest.recs.staged = [] ∧ s.atRest.recs.opened = none) ∧
    (s.recs.staged ≠ [] ∨ s.recs.opened.isSome = true → s.atRest.recs.staged ≠ []) := by
  obtain ⟨u, cores⟩ : ∃ u : State, u = s.coreList.foldl (fun s c => s.setCore c (s.core c).advance) s := ⟨_, rfl⟩
  have advanced : ∀ {α : Type} (v : State → α), (∀ (s : State) c k, v (s.setCore c k) = v s) → v u = v s := fun v kept => by
    rw [cores]
    exact foldl_keeps v _ (fun _ _ => kept ..) _ s
  obtain ⟨w, regions⟩ : ∃ w : State, w = u.mapRegions fun x => { x with tickCount := s.lastBusy, elapsed := false, gate := none } := ⟨_, rfl⟩
  have moved : ∀ {α : Type} (v : State → α), (∀ (s : State) c k, v (s.setCore c k) = v s) → (∀ (s : State) r x, v (s.setRegion r x) = v s) →
      v w = v s := fun v coreless regionless => by
    rw [regions]
    exact (State.mapRegions_keeps v regionless ..).trans (advanced v coreless)
  have settled : s.settleTicks s.lastBusy = w.withRecs { w.recs with savedTick := s.lastBusy } := by
    rw [regions, cores]
    rfl
  have ticks : ∀ r, r < 80 → (w.region r).tickCount = s.lastBusy := fun r there => by
    rw [regions, State.mapRegions_region u _ there]
  have recs := moved State.recs (fun _ _ _ => rfl) fun _ _ _ => rfl
  obtain ⟨x, closed, saved, none, some⟩ := (s.settleTicks s.lastBusy).flushChecks.closeBlock_shows
  unfold State.atRest
  rw [closed]
  rw [settled] at saved none some ⊢
  exact ⟨saved, ticks, moved State.ss (fun _ _ _ => rfl) fun _ _ _ => rfl, moved (fun s => s.far.mem) (fun _ _ _ => rfl) fun _ _ _ => rfl,
    moved State.cas (fun _ _ _ => rfl) fun _ _ _ => rfl, moved State.job (fun _ _ _ => rfl) fun _ _ _ => rfl,
    moved State.stop (fun _ _ _ => rfl) fun _ _ _ => rfl, moved State.srv (fun _ _ _ => rfl) fun _ _ _ => rfl,
    fun staged opened => none (recs ▸ staged) (recs ▸ opened), fun more => some (recs ▸ more)⟩

theorem saveTick_row {s : State} (running : s.job.state = .running) (going : s.stop = none) (paused : s.srv.paused = true)
    (fresh : s.srv.halted = false) (quiet : s.quiet = true) (done : s.queuesDone = true) :
    exec .saveTick s = .next (s.atRest.withSrv { s.atRest.srv with halted := true }).settlePause :=
  if_neg (by simp [running, going, paused, fresh, quiet, done])

theorem jobEnd_row {s : State} (running : s.job.state = .running) (going : s.stop = none) (unpaused : s.srv.paused = false)
    (quiet : s.quiet = true) (done : s.queuesDone = true) :
    exec .jobEnd s = .next (({ s.atRest with
      srv := { s.atRest.srv with boundary := false, stage4 := false, pauseAt := none, fetchStop := true }
      job := { s.atRest.job with ended := true, pausePending := false } } : State).setJob .paused).casBoundary :=
  if_neg (by simp [running, going, unpaused, quiet, done])

/-- A job that becomes PAUSED, with what waited for a boundary. -/
theorem State.pauses_shows (s : State) :
    let t := (s.setJob .paused).casBoundary
    t.job = { s.job with state := .paused } ∧ t.recs = s.recs ∧ t.regions = s.regions ∧ t.ss = s.ss ∧ t.srv = s.srv ∧
      (s.cas.loads = [] → t.far = s.far) := by
  have beside : ∀ {α : Type} (v : State → α), Beside v → v (s.setJob .paused).casBoundary = v (s.setJob .paused) := fun v beside =>
    beside.casBoundary _
  refine ⟨?_, ?_, ?_, ?_, ?_, fun loads => ?_⟩
  · exact (beside State.job ⟨⟨fun _ _ _ => rfl⟩, fun _ _ _ => rfl⟩).trans (State.setJob_job ..)
  · exact (beside State.recs ⟨⟨fun _ _ _ => rfl⟩, fun _ _ _ => rfl⟩).trans (State.setJob_recs ..)
  · exact (beside State.regions ⟨⟨fun _ _ _ => rfl⟩, fun _ _ _ => rfl⟩).trans (State.setJob_regions ..)
  · exact (beside State.ss ⟨⟨fun _ _ _ => rfl⟩, fun _ _ _ => rfl⟩).trans (State.setJob_ss ..)
  · exact (beside State.srv ⟨⟨fun _ _ _ => rfl⟩, fun _ _ _ => rfl⟩).trans (State.setJob_srv ..)
  · exact (State.casBoundary_far (by rw [State.setJob_cas]; exact loads)).trans (State.setJob_far ..)

/-! ### The commands that end with the stop of a job-fatal fault (R422) -/

theorem State.respond_of_none {s : State} {ch : Nat} (idle : s.cmdOf ch = none) (r : Reply) : s.respond ch r = s := by
  have idle : (s.chan ch).cmd = none := idle
  simp only [State.respond, idle]

/-- Every channel is as it was, or has been answered. -/
structure State.ends (s t : State) : Prop where
  each : ∀ d, t.chan d = s.chan d ∨ t.cmdOf d = none ∧ (t.chan d).busy = false

namespace State.ends

theorem of_chans {s t : State} (chans : t.host.chans = s.host.chans) : s.ends t :=
  ⟨fun d => .inl (by rw [State.chan, chans]; rfl)⟩

theorem refl (s : State) : s.ends s := of_chans rfl

theorem trans {s t u : State} (h : s.ends t) (k : t.ends u) : s.ends u := by
  refine ⟨fun d => ?_⟩
  rcases k.each d with same | gone
  · rcases h.each d with kept | ⟨none, free⟩
    · exact .inl (same.trans kept)
    · exact .inr ⟨(congrArg Channel.cmd same).trans none, (congrArg Channel.busy same).trans free⟩
  · exact .inr gone

/-- After a step that leaves the channels. -/
theorem after {s t u : State} (h : t.ends u) (chans : t.host.chans = s.host.chans) : s.ends u := (of_chans chans).trans h

theorem foldl {β : Type} {f : State → β → State} (step : ∀ (s : State) x, s.ends (f s x)) (l : List β) (s : State) :
    s.ends (l.foldl f s) := by
  induction l generalizing s with
  | nil => exact refl s
  | cons x l ih => exact (step s x).trans (ih _)

theorem respond (s : State) (ch : Nat) (r : Reply) : s.ends (s.respond ch r) := by
  refine ⟨fun d => ?_⟩
  by_cases same : d = ch
  · subst same
    cases cmd : s.cmdOf d with
    | none => exact .inl (congrArg (State.chan · d) (State.respond_of_none cmd r))
    | some c =>
      obtain ⟨own, -⟩ := State.respond_chan cmd r
      exact .inr ⟨congrArg Channel.cmd own, congrArg Channel.busy own⟩
  · cases cmd : s.cmdOf ch with
    | none => exact .inl (congrArg (State.chan · d) (State.respond_of_none cmd r))
    | some c => exact .inl ((State.respond_chan cmd r).2 d same)

theorem respondTo (s : State) (ch : Option Nat) (r : Nat → Reply) : s.ends (match ch with | some c => s.respond c (r c) | none => s) := by
  split
  · exact respond ..
  · exact refl s

theorem endLoad (s : State) (l : CasLoad) : s.ends (s.endLoad l) := by
  unfold State.endLoad
  dsimp only
  split
  · exact (respondTo ..).after rfl
  · refine (respondTo ..).after ?_
    unfold State.keepLoad
    split <;> rfl

theorem failLoad (s : State) (l : CasLoad) (r : Result) (code index : Nat) : s.ends (s.failLoad l r code index) := by
  unfold State.failLoad
  dsimp only
  refine State.ends.trans (t := if code / 256 = 8 then s.casFault l.slot code index else s) ?_ ?_
  · split <;> exact of_chans rfl
  · generalize (if code / 256 = 8 then s.casFault l.slot code index else s) = u
    split
    · exact endLoad ..
    · exact of_chans rfl

theorem writeCopy (s : State) (l : CasLoad) : s.ends (s.writeCopy l) := by
  unfold State.writeCopy
  split
  · exact of_chans rfl
  split
  · exact of_chans rfl
  split
  · exact (failLoad ..).after rfl
  · refine of_chans ?_
    exact State.background_leaves (v := fun s => s.host.chans) (fun _ _ => rfl) ..

theorem placeLoad (s : State) (l : CasLoad) : s.ends (s.placeLoad l) := by
  unfold State.placeLoad
  split
  · exact of_chans rfl
  split
  · exact (writeCopy ..).after rfl
  split
  · exact of_chans rfl
  split
  · exact (failLoad ..).after rfl
  next t b room =>
    refine (writeCopy ..).after ?_
    exact (State.makeRoom_leaves (v := fun s => s.host.chans) (fun _ _ => rfl) room :)

theorem startLoad (s : State) (l : CasLoad) : s.ends (s.startLoad l) := by
  unfold State.startLoad
  split
  · exact (failLoad ..).after rfl
  next t i taken =>
    have kept : t.host.chans = s.host.chans := State.takeSlot_leaves (v := fun s => s.host.chans) (fun _ _ => rfl) taken
    dsimp only
    split
    · refine (failLoad ..).after ?_
      split
      · exact (State.event_host_chans ..).trans kept
      · exact kept
    · exact (placeLoad ..).after kept

theorem casBoundary (s : State) : s.ends s.casBoundary := by
  unfold State.casBoundary
  dsimp only
  refine State.ends.trans ?_ (foldl (fun s l => ?_) ..)
  · refine (foldl (fun s u => ?_) ..).after rfl
    split
    · exact (respond ..).after rfl
    · exact respond ..
  · split
    · exact startLoad ..
    · exact placeLoad ..
    · exact endLoad ..
    · exact endLoad ..
    · exact refl s

theorem idle {s t : State} (h : s.ends t) {d : Nat} (none : (s.cmdOf d).any (fun c => c.executing) = false) :
    (t.cmdOf d).any (fun c => c.executing) = false := by
  rcases h.each d with same | ⟨gone, -⟩
  · rw [State.cmdOf, same]
    exact none
  · rw [gone]
    rfl

end State.ends

/-- The command under way on a channel is answered STATE. -/
def State.failCommand (s : State) (ch : Nat) : State :=
  match s.cmdOf ch with
  | some c => if c.executing then s.respond ch (.of .state) else s
  | none => s

theorem State.failCommand_ends (s : State) (ch : Nat) : s.ends (s.failCommand ch) := by
  unfold State.failCommand
  split
  · split
    · exact State.ends.respond ..
    · exact State.ends.refl s
  · exact State.ends.refl s

theorem State.failCommand_idle (s : State) (ch : Nat) : ((s.failCommand ch).cmdOf ch).any (fun c => c.executing) = false := by
  unfold State.failCommand
  split
  next c cmd =>
    split
    next => rw [show (s.respond ch (.of .state)).cmdOf ch = none from congrArg Channel.cmd (State.respond_chan cmd _).1]; rfl
    next idle => simpa [cmd] using idle
  next cmd => rw [cmd]; rfl

theorem foldl_failCommand_idle {l : List Nat} {d : Nat} (mem : d ∈ l) (s : State) :
    ((l.foldl State.failCommand s).cmdOf d).any (fun c => c.executing) = false := by
  induction l generalizing s with
  | nil => cases mem
  | cons ch l ih =>
    rcases List.mem_cons.mp mem with rfl | later
    · exact (State.ends.foldl State.failCommand_ends l _).idle (s.failCommand_idle d)
    · exact ih later _

/-- The loads, the unloads and the margining under way end. -/
def State.failWork (s : State) : State :=
  let t := s.cas.loads.foldl (fun s l =>
    match l.adapter with
    | some a => s.failAdapter l a.1 a.2 (.of .state)
    | none => if l.chan.isNone || l.phase = .failed then s else s.failLoad l .state 0 casNone) s
  { t with cas := { t.cas with unloads := [] }, ports := t.ports.map fun e => (e.1, { e.2 with margin := none }) }

theorem State.failCommands_eq (s : State) : s.failCommands = (List.range 10).foldl State.failCommand s.failWork := rfl

theorem State.failCommands_idle (s : State) {d : Nat} (there : d < 10) : (s.failCommands.cmdOf d).any (fun c => c.executing) = false := by
  rw [s.failCommands_eq]
  exact foldl_failCommand_idle (List.mem_range.mpr there) _

/-- With no load the far memory stays as it is. -/
theorem State.failCommands_far {s : State} (loads : s.cas.loads = []) :
    s.failCommands.far = s.far ∧ s.failCommands.cas.loads = [] := by
  have kept : ∀ s : State, (fun t : State => (t.far, t.cas.loads)) ((List.range 10).foldl State.failCommand s) = (s.far, s.cas.loads) :=
    foldl_keeps (fun t : State => (t.far, t.cas.loads)) _ (fun s ch => by
      unfold State.failCommand
      split
      · split
        · rw [State.respond_far, State.respond_cas]
        · rfl
      · rfl) _
  have work : s.failWork.far = s.far ∧ s.failWork.cas.loads = [] := by
    unfold State.failWork
    rw [loads]
    exact ⟨rfl, loads⟩
  rw [s.failCommands_eq]
  obtain ⟨far, cas⟩ := Prod.mk.inj (kept s.failWork)
  exact ⟨far.trans work.1, cas.trans work.2⟩

/-! ### The stop of a job-fatal fault (R405, R422, R488) -/

/-- The module once the requests and blocks of a job that stops are given up. -/
def State.givenUp (s : State) (x : StopInfo) : State :=
  let t := if x.jobStopped then s.dropUnaccepted.fenceAll else s.dropUnaccepted.fenceAll.sendStops
  (t.failRequests.voidBlocks t.job.fault.toNat).flushChecks

theorem State.fatalStop_eq {s : State} {x : StopInfo} (due : s.stop = some x) (active : s.job.state.active = true) :
    s.fatalStop = ((((s.givenUp x).withFab { (s.givenUp x).fab with launch := none, startAt := none }).setJob
      (if x.selfFence then .fenced else .faulted)).failCommands).casBoundary := by
  unfold State.fatalStop
  rw [due]
  exact if_neg (by simp [active])

theorem State.givenUp_shows (s : State) (x : StopInfo) :
    (s.givenUp x).recs.opened = none ∧ (s.givenUp x).recs.staged = [] ∧ (s.givenUp x).srv.boundary = false ∧
    (s.givenUp x).far.mem = s.far.mem ∧ (s.givenUp x).cas.loads = s.cas.loads := by
  obtain ⟨t, sent⟩ : ∃ t : State, t = if x.jobStopped then s.dropUnaccepted.fenceAll else s.dropUnaccepted.fenceAll.sendStops := ⟨_, rfl⟩
  have stops : t.far = s.far ∧ t.cas = s.cas := by
    rw [sent]
    split
    · exact ⟨rfl, rfl⟩
    · exact ⟨State.sendStops_leaves State.far (fun _ _ _ _ _ _ _ _ _ => rfl) _, State.sendStops_leaves State.cas (fun _ _ _ _ _ _ _ _ _ => rfl) _⟩
  have given : s.givenUp x = (t.failRequests.voidBlocks t.job.fault.toNat).flushChecks := by
    rw [sent]
    rfl
  have voided : ∀ {α : Type} (v : State → α), Served v → (∀ (s : State) tail queue, v (s.withRecs { s.recs with tail := tail, queue := queue }) = v s) →
      _ := fun v served recless => served.voidBlocks recless t.failRequests t.job.fault.toNat
  have failed : ∀ {α : Type} (v : State → α), Served v → (∀ (s : State) slots, v (s.withCas { s.cas with slots := slots }) = v s) →
      (∀ (s : State) cq reqs adapters, v (s.withSrv { s.srv with cq := cq, reqs := reqs, adapters := adapters }) = v s) →
      _ := fun v served slotless srvless => served.failRequests slotless srvless t
  rw [given]
  refine ⟨?_, ?_, ?_, ?_, ?_⟩
  · exact voided (fun s => s.recs.opened) ⟨fun _ _ _ => rfl⟩ fun _ _ _ => rfl
  · exact voided (fun s => s.recs.staged) ⟨fun _ _ _ => rfl⟩ fun _ _ _ => rfl
  · exact (voided (fun s => s.srv.boundary) ⟨fun _ _ _ => rfl⟩ fun _ _ _ => rfl).trans
      (failed (fun s => s.srv.boundary) ⟨fun _ _ _ => rfl⟩ (fun _ _ => rfl) fun _ _ _ _ => rfl)
  · exact (voided (fun s => s.far.mem) ⟨fun _ _ _ => rfl⟩ fun _ _ _ => rfl).trans
      ((failed (fun s => s.far.mem) ⟨fun _ _ _ => rfl⟩ (fun _ _ => rfl) fun _ _ _ _ => rfl).trans (congrArg Far.mem stops.1))
  · exact (voided (fun s => s.cas.loads) ⟨fun _ _ _ => rfl⟩ fun _ _ _ => rfl).trans
      ((failed (fun s => s.cas.loads) ⟨fun _ _ _ => rfl⟩ (fun _ _ => rfl) fun _ _ _ _ => rfl).trans (congrArg Cas.loads stops.2))

/-- The module as the fault's stop gives up the commands under way. -/
def State.stopped (s : State) (x : StopInfo) : State :=
  ((s.givenUp x).withFab { (s.givenUp x).fab with launch := none, startAt := none }).setJob (if x.selfFence then .fenced else .faulted)

theorem State.stopped_shows {s : State} {x : StopInfo} (due : s.stop = some x) (active : s.job.state.active = true) :
    s.fatalStop.recs.opened = none ∧ s.fatalStop.recs.staged = [] ∧ s.fatalStop.srv.boundary = false ∧
    (s.cas.loads = [] → s.fatalStop.far.mem = s.far.mem) ∧
    ∀ d, d < 10 → (s.fatalStop.cmdOf d).any (fun c => c.executing) = false := by
  obtain ⟨opened, staged, boundary, mem, loads⟩ := s.givenUp_shows x
  have stop : s.fatalStop = (s.stopped x).failCommands.casBoundary := State.fatalStop_eq due active
  have after : ∀ {α : Type} (v : State → α), Beside v →
      (∀ (s : State) cq reqs adapters, v (s.withSrv { s.srv with cq := cq, reqs := reqs, adapters := adapters }) = v s) →
      (∀ (s : State) x, v { s with ports := x } = v s) → v s.fatalStop = v (s.stopped x) := fun v beside srvless portless => by
    rw [stop, beside.casBoundary, beside.failCommands srvless portless]
  refine ⟨?_, ?_, ?_, fun none => ?_, fun d there => ?_⟩
  · refine (after (fun s => s.recs.opened) ⟨⟨fun _ _ _ => rfl⟩, fun _ _ _ => rfl⟩ (fun _ _ _ _ => rfl) fun _ _ => rfl).trans ?_
    exact (congrArg Records.opened (State.setJob_recs ..)).trans opened
  · refine (after (fun s => s.recs.staged) ⟨⟨fun _ _ _ => rfl⟩, fun _ _ _ => rfl⟩ (fun _ _ _ _ => rfl) fun _ _ => rfl).trans ?_
    exact (congrArg Records.staged (State.setJob_recs ..)).trans staged
  · refine (after (fun s => s.srv.boundary) ⟨⟨fun _ _ _ => rfl⟩, fun _ _ _ => rfl⟩ (fun _ _ _ _ => rfl) fun _ _ => rfl).trans ?_
    exact (congrArg Serve.boundary (State.setJob_srv ..)).trans boundary
  · have held : (s.stopped x).cas.loads = [] := (congrArg Cas.loads (State.setJob_cas ..)).trans (loads.trans none)
    obtain ⟨far, ended⟩ := State.failCommands_far held
    rw [stop, State.casBoundary_far ended, far]
    exact (congrArg Far.mem (State.setJob_far ..)).trans mem
  · rw [stop]
    exact (State.ends.casBoundary _).idle ((s.stopped x).failCommands_idle there)

/-! ### The resume (R334) -/

/-- A PAUSED job goes on with the tick after its save tick. -/
theorem State.resume_shows {s : State} (plain : s.srv.cfg = none) (run : s.power.mode = .run) :
    s.resume.job.state = .running ∧ s.resume.gsc = s.gsc ∧ s.resume.fab.startAt = none ∧
    ∀ r, r < 80 → (s.resume.region r).issued = 1 ∧ (s.resume.region r).tickCount = s.recs.savedTick + 1 := by
  have kept : ∀ {α : Type} (v : State → α), (∀ (s : State) c k, v (s.setCore c k) = v s) →
      v (s.coreList.foldl (fun s c => s.setCore c { s.core c with halted := false }) s) = v s :=
    fun v kept => foldl_keeps v _ (fun _ _ => kept ..) _ s
  have started : s.resume = (s.coreList.foldl (fun s c => s.setCore c { s.core c with halted := false }) s).startTicks
      ((s.coreList.foldl (fun s c => s.setCore c { s.core c with halted := false }) s).recs.savedTick + 1) := rfl
  rw [started]
  have recs := kept State.recs fun _ _ _ => rfl
  have gsc := kept State.gsc fun _ _ _ => rfl
  have srv := kept State.srv fun _ _ _ => rfl
  have power := kept State.power fun _ _ _ => rfl
  generalize s.coreList.foldl (fun s c => s.setCore c { s.core c with halted := false }) s = u at recs gsc srv power ⊢
  obtain ⟨state, count, fab, -, -, ticks⟩ := State.startTicks_shows (s := u) (u.recs.savedTick + 1)
    ((congrArg Serve.cfg srv).trans plain) ((congrArg Power.mode power).trans run)
  rw [← recs]
  exact ⟨state, count.trans gsc, fab, ticks⟩

/-- Settles O32: the ticks of a launch and of a resume, the rest of a save and of an end, and what a job-fatal fault gives up. -/
theorem jobTimes : Obligations.JobTimes := by
  intro s i image run
  refine ⟨fun at_ due going accepted plain => ⟨fun armed => ?_, fun paused unended => ?_⟩, launchCount_waits,
    fun running going paused fresh quiet done => ?_, fun running going unpaused quiet done => ?_, fun x due active => ?_, fun none => ?_⟩
  case refine_5 =>
    obtain ⟨job, fence, self, launch, start⟩ := State.fatalStop_shows due active
    obtain ⟨opened, staged, boundary, mem, idle⟩ := State.stopped_shows due active
    exact ⟨_, rfl, congrArg JobStatus.state job, (congrArg JobStatus.fault job :), fence, self, start, launch, opened, staged, boundary,
      State.fatalStop_leaves (v := State.cores) ⟨⟨⟨fun _ _ _ => rfl⟩, fun _ _ _ => rfl⟩, fun _ _ _ _ => rfl⟩ (fun _ _ _ _ _ => rfl) s,
      State.fatalStop_leaves (v := State.ss) ⟨⟨⟨fun _ _ _ => rfl⟩, fun _ _ _ => rfl⟩, fun _ _ _ _ => rfl⟩ (fun _ _ _ _ _ => rfl) s,
      mem, idle⟩
  case refine_6 =>
    have rest : s.fatalStop = s := by
      unfold State.fatalStop
      rw [none]
    exact congrArg Host.Outcome.next rest
  case refine_1 =>
    have row := launchCount_row image due (by simp [State.startable, armed]) going accepted run
    rw [if_pos armed] at row
    obtain ⟨steady, srv, launched, next⟩ := (s.advanceTo at_).launchReady_shows i at_
    have mode : (s.advanceTo at_).power.mode = .run := (State.advanceTo_power_mode ..).trans run
    have settings := steady.kept mode
    obtain ⟨state, count, start, recs, codes, ticks⟩ := State.startTicks_shows (s := (s.advanceTo at_).launchReady i at_) 0
      ((congrArg Serve.cfg (srv.trans (State.advanceTo_srv ..))).trans plain)
      ((congrArg (fun x => x.2.2.1.mode) settings).trans mode)
    refine ⟨_, row, state, ?_, ticks, start, (congrArg Records.launchGsc recs).trans launched, (congrArg Records.next recs).trans next,
      fun k _ => (codes k).trans ((congrFun (congrArg Prod.fst settings) k).trans ?_)⟩
    · exact count.trans ((congrArg (fun x => x.2.1) settings).trans (State.advanceTo_gsc ..))
    · exact congrArg Core.code (State.core_eq _ _ (State.advanceTo_cores ..) k)
  case refine_2 =>
    have row := launchCount_row image due (by simp [State.startable, paused, unended]) going accepted run
    rw [if_neg (by simp [paused])] at row
    obtain ⟨state, count, start, ticks⟩ := State.resume_shows (s := s.advanceTo at_)
      ((congrArg Serve.cfg (State.advanceTo_srv ..)).trans plain) ((State.advanceTo_power_mode ..).trans run)
    rw [State.advanceTo_recs] at ticks
    exact ⟨_, row, state, count.trans (State.advanceTo_gsc ..), start, ticks⟩
  case refine_3 =>
    obtain ⟨saved, ticks, ss, mem, cas, job, stop, srv, none, more⟩ := s.atRest_shows
    refine ⟨_, saveTick_row running going paused fresh quiet done, ?_⟩
    obtain ⟨u, held⟩ : ∃ u : State, u = s.atRest.withSrv { s.atRest.srv with halted := true } := ⟨_, rfl⟩
    rw [← held]
    have shows : u.recs = s.atRest.recs ∧ u.regions = s.atRest.regions ∧ u.ss = s.atRest.ss ∧ u.far = s.atRest.far ∧
        u.cas = s.atRest.cas ∧ u.job = s.atRest.job ∧ u.srv.halted = true ∧ u.stop = s.atRest.stop := by
      rw [held]
      exact ⟨rfl, rfl, rfl, rfl, rfl, rfl, rfl, rfl⟩
    obtain ⟨uRecs, uRegions, uSs, uFar, uCas, uJob, uHalted, uStop⟩ := shows
    obtain ⟨pJob, pRecs, pRegions, pSs, -, pFar⟩ :=
      State.pauses_shows { u.withSrv { u.srv with halted := false } with job := { u.job with pausePending := false } }
    unfold State.settlePause
    by_cases settled : (u.srv.halted && u.recs.staged = [] && u.recs.opened.isNone && u.stop.isNone) = true
    · rw [if_pos settled]
      refine ⟨(congrArg Records.savedTick (pRecs.trans uRecs)).trans saved, fun r there => ?_, pSs.trans (uSs.trans ss), fun loads => ?_,
        fun _ _ => ?_, fun some => ?_⟩
      · exact (congrArg (fun m : Map Region => (m.find .init r).tickCount) (pRegions.trans uRegions)).trans (ticks r there)
      · exact (congrArg Far.mem ((pFar ((congrArg Cas.loads (uCas.trans cas)).trans loads)).trans uFar)).trans mem
      · exact ⟨congrArg JobStatus.state pJob, congrArg JobStatus.pausePending pJob⟩
      · exact absurd (uRecs ▸ (by simpa using settled : ((_ ∧ _) ∧ _) ∧ _).1.1.2) (more some)
    · rw [if_neg settled]
      refine ⟨(congrArg Records.savedTick uRecs).trans saved, fun r there => ?_, uSs.trans ss, fun _ => (congrArg Far.mem uFar).trans mem,
        fun staged opened => ?_, fun _ => ⟨uJob.trans job, uHalted⟩⟩
      · exact (congrArg (fun m : Map Region => (m.find .init r).tickCount) uRegions).trans (ticks r there)
      · obtain ⟨empty, shut⟩ := none staged opened
        exact absurd (by simp [uHalted, uRecs, uStop, empty, shut, stop, going]) settled
  case refine_4 =>
    obtain ⟨saved, ticks, ss, mem, cas, job, stop, srv, none, more⟩ := s.atRest_shows
    obtain ⟨pJob, pRecs, pRegions, pSs, pSrv, pFar⟩ := State.pauses_shows ({ s.atRest with
      srv := { s.atRest.srv with boundary := false, stage4 := false, pauseAt := Option.none, fetchStop := true }
      job := { s.atRest.job with ended := true, pausePending := false } } : State)
    refine ⟨_, jobEnd_row running going unpaused quiet done, congrArg JobStatus.state pJob, congrArg JobStatus.ended pJob,
      congrArg JobStatus.pausePending pJob, (congrArg Records.savedTick pRecs).trans saved, fun r there => ?_,
      congrArg Serve.boundary pSrv, pSs.trans ss, fun loads => (congrArg Far.mem (pFar ((congrArg Cas.loads cas).trans loads))).trans mem⟩
    exact (congrArg (fun m : Map Region => (m.find .init r).tickCount) pRegions).trans (ticks r there)

end Sys2Proof.Machine

/-! PROOF. Replay and NAK timers, and training (R350, R352, R360 to R365, R376). -/
namespace Sys2Proof.Machine

theorem State.jobFatal_ports {s : State} (run : s.power.mode = .run) (code : Nat) (r : Option Nat) (a b : W64) (k n : Option Nat) :
    (s.jobFatal code r a b k n).ports = s.ports := by
  unfold State.jobFatal
  rw [State.wake_run s run]
  dsimp only
  split <;> exact State.raiseCode_ports ..

theorem State.parkWake_run {s : State} (run : s.power.mode = .run) : s.parkWake = s := if_neg (by rw [run]; decide)

/-! ### Steps of one port -/

/-- No port but `p` changes, nor the cores and the fabric's own state. -/
structure State.portOnly (p : Nat) (s t : State) : Prop where
  others : ∀ q, q ≠ p → t.port q = s.port q
  cores : t.cores = s.cores
  fab : t.fab = s.fab

namespace State.portOnly

variable {s t : State} {p : Nat}

theorem trans {u : State} (h : State.portOnly p s t) (k : State.portOnly p t u) : State.portOnly p s u :=
  ⟨fun q other => (k.others q other).trans (h.others q other), k.cores.trans h.cores, k.fab.trans h.fab⟩

theorem refl (s : State) (p : Nat) : State.portOnly p s s := ⟨fun _ _ => rfl, rfl, rfl⟩

theorem of_ports (ports : t.ports = s.ports) (cores : t.cores = s.cores) (fab : t.fab = s.fab) : State.portOnly p s t :=
  ⟨fun q _ => congrArg (fun m : Map LinkPort => m.find .init q) ports, cores, fab⟩

theorem setPort (s : State) (p : Nat) (x : LinkPort) : State.portOnly p s (s.setPort p x) :=
  ⟨fun _ other => State.port_setPort_other _ _ other, rfl, rfl⟩

theorem event (s : State) (p code : Nat) (a b : W64) : State.portOnly p s (s.event code a b) :=
  of_ports (State.event_ports ..) (State.event_cores ..) (State.event_fab ..)

theorem advanceTo (s : State) (p n : Nat) : State.portOnly p s (s.advanceTo n) :=
  of_ports (State.advanceTo_ports ..) (State.advanceTo_cores ..) (State.advanceTo_fab ..)

theorem jobFatal {s : State} (run : s.power.mode = .run) (p code : Nat) (r : Option Nat) (a b : W64) (k n : Option Nat) :
    State.portOnly p s (s.jobFatal code r a b k n) :=
  of_ports (State.jobFatal_ports run ..) (State.jobFatal_cores ..) (State.jobFatal_fab ..)

end State.portOnly

theorem State.port_of_ports {s t : State} (ports : t.ports = s.ports) (p : Nat) : t.port p = s.port p :=
  congrArg (fun m : Map LinkPort => m.find .init p) ports

/-! ### A port that goes DOWN (R361) -/

/-- A port goes DOWN, which is LINK_DOWN for a job under way. -/
structure State.downs (p : Nat) (s t : State) : Prop where
  state : (t.port p).state = .down
  seen : (t.port p).downSeen = true
  only : State.portOnly p s t
  gsc : t.gsc = s.gsc
  idle : s.job.state.active = false → t.job = s.job
  fault : s.job.state.active = true → s.job.fault = 0#16 → t.job.fault = 0x0501#16 ∧ t.stop.isSome = true

theorem State.portDown_downs {s : State} (run : s.power.mode = .run) (p : Nat) : State.downs p s (s.portDown p) := by
  obtain ⟨u, set⟩ : ∃ u : State, u = s.setPort p { s.port p with
    state := .down, downSeen := true, modeNow := 0, phase := 0, peerValid := false, inj := none } := ⟨_, rfl⟩
  have run' : u.power.mode = .run := set ▸ run
  have port : (u.port p).state = .down ∧ (u.port p).downSeen = true := by
    rw [set, State.port_setPort]
    exact ⟨rfl, rfl⟩
  have only : State.portOnly p s u := set ▸ State.portOnly.setPort ..
  have job : u.job = s.job := by rw [set, State.setPort_job]
  have gsc : u.gsc = s.gsc := by rw [set, State.setPort_gsc]
  have down : s.portDown p = if u.job.state.active then u.jobFatal 0x0501 else u := by
    rw [set]
    rfl
  rw [down, job]
  split
  case isTrue active =>
    have kept := State.port_of_ports (State.jobFatal_ports run' 0x0501 none 0 0 none none) p
    refine ⟨(congrArg LinkPort.state kept).trans port.1, (congrArg LinkPort.downSeen kept).trans port.2,
      only.trans (State.portOnly.jobFatal run' ..), (State.jobFatal_gsc (h := run') ..).trans gsc,
      fun idle => absurd active (by simp [idle]), fun _ first => ?_⟩
    obtain ⟨fault, -, stop⟩ := State.jobFatal_first run' (job ▸ active) (job ▸ first) 0x0501 none
    exact ⟨fault, stop⟩
  case isFalse idle =>
    exact ⟨port.1, port.2, only, gsc, fun _ => job, fun active => absurd active idle⟩

/-! ### Frames (R360 to R365) -/

theorem LinkPort.dropHeld_state (x : LinkPort) : x.dropHeld.state = x.state :=
  foldl_keeps LinkPort.state
    (fun x (u : Nat × LUnit × Bool) => { x with cells := x.cells.put u.2.1.cls (x.cells.find 0 u.2.1.cls - 1) }) (fun _ _ => rfl) x.held x

theorem LinkPort.dropHeld_phase (x : LinkPort) : x.dropHeld.phase = x.phase :=
  foldl_keeps LinkPort.phase
    (fun x (u : Nat × LUnit × Bool) => { x with cells := x.cells.put u.2.1.cls (x.cells.find 0 u.2.1.cls - 1) }) (fun _ _ => rfl) x.held x

theorem State.nextPhase_port (s : State) (p : Nat) : (s.nextPhase p).port p =
    let x := if (s.port p).phase = 3 && (s.port p).state = .retraining then (s.port p).dropHeld else s.port p
    { x with phase := x.phase + 1, phaseAt := s.gsc, frameRun := 0, frameKey := [] } := State.port_setPort ..

/-- The port with the eighth equal frame `f`, as the next phase finds it. -/
def LinkPort.framed (x : LinkPort) (f : Bytes) (gsc : Nat) : LinkPort :=
  { x with frameRun := 8, peerEq := sub f 16 32, echo := fld f 48 8, echoAt := gsc }

/-- The module with that port. -/
def State.framed (s : State) (p : Nat) (f : Bytes) : State :=
  (s.setPort p { s.port p with frameRun := 8 }).setPort p ((s.port p).framed f s.gsc)

theorem State.framed_port (s : State) (p : Nat) (f : Bytes) : (s.framed p f).port p = (s.port p).framed f s.gsc := State.port_setPort ..

theorem State.framed_only (s : State) (p : Nat) (f : Bytes) : State.portOnly p s (s.framed p f) :=
  (State.portOnly.setPort ..).trans (State.portOnly.setPort ..)

/-- Whether the peer has accepted frames of this phase. -/
def LinkPort.peerHas (x : LinkPort) (f : Bytes) : Prop :=
  x.phase < fld f 4 1 ∨ (fld f 4 1 = x.phase ∧ fld f 56 8 ≠ 0 ∧ x.phaseAt ≤ fld f 56 8)

section Frames

variable {s : State} {p : Nat} {u f : Bytes} {ok : Bool} (there : p < 16) (run : s.power.mode = .run)
  (training : (s.port p).state = .training ∨ (s.port p).state = .retraining) (frames : 2 ≤ (s.port p).phase)
include there run

theorem trainingFrame_ignored (u : Bytes) (ok : Bool)
    (ignored : ((s.port p).state ≠ .training ∧ (s.port p).state ≠ .retraining) ∨ (s.port p).phase < 2) :
    exec (.trainingFrame p u ok) s = .next s := by
  refine Eq.trans (b := execTrainingFrame p u ok s) rfl ?_
  rw [execTrainingFrame, if_neg (by omega), State.parkWake_run run]
  refine if_pos ?_
  rcases ignored with ⟨no, never⟩ | early
  · simp [no, never]
  · simp [early]

include training frames

theorem trainingFrame_bad (bad : frameParse u = none) :
    exec (.trainingFrame p u ok) s = .next (s.setPort p { s.port p with frameRun := 0, frameKey := [] }) := by
  refine Eq.trans (b := execTrainingFrame p u ok s) rfl ?_
  rw [execTrainingFrame, if_neg (by omega), State.parkWake_run run]
  refine (if_neg (by simp; exact ⟨fun no => training.resolve_left no, frames⟩)).trans ?_
  simp only [bad]

section Same

variable (good : frameParse u = some f) (same : sub f 4 44 = (s.port p).frameKey)
include good same

theorem trainingFrame_early (early : (s.port p).frameRun < 7) :
    exec (.trainingFrame p u ok) s = .next (s.setPort p { s.port p with frameRun := (s.port p).frameRun + 1 }) := by
  refine Eq.trans (b := execTrainingFrame p u ok s) rfl ?_
  rw [execTrainingFrame, if_neg (by omega), State.parkWake_run run]
  refine (if_neg (by simp; exact ⟨fun no => training.resolve_left no, frames⟩)).trans ?_
  simp only [good, same, if_true]
  rw [if_pos (by omega)]

/-- The eighth equal frame of a peer that has not taken this end's. -/
theorem trainingFrame_waits (eighth : (s.port p).frameRun = 7) (waits : ¬ (s.port p).peerHas f) :
    exec (.trainingFrame p u ok) s = .next (s.framed p f) := by
  refine Eq.trans (b := execTrainingFrame p u ok s) rfl ?_
  rw [execTrainingFrame, if_neg (by omega), State.parkWake_run run]
  refine (if_neg (by simp; exact ⟨fun no => training.resolve_left no, frames⟩)).trans ?_
  simp only [good, same, if_true, eighth]
  rw [if_neg (by omega)]
  simp only [State.port_setPort]
  unfold LinkPort.peerHas at waits
  refine (if_pos ?_).trans rfl
  grind

/-- The eighth equal frame ends the phase. -/
theorem trainingFrame_ends (eighth : (s.port p).frameRun = 7) (has : (s.port p).peerHas f) :
    exec (.trainingFrame p u ok) s = .next (
      if (s.port p).phase = 4 then (s.framed p f).endExchange p f
      else if (s.port p).phase = 3 && !ok then (s.framed p f).trainFail p
      else (s.framed p f).nextPhase p) := by
  refine Eq.trans (b := execTrainingFrame p u ok s) rfl ?_
  rw [execTrainingFrame, if_neg (by omega), State.parkWake_run run]
  refine (if_neg (by simp; exact ⟨fun no => training.resolve_left no, frames⟩)).trans ?_
  simp only [good, same, if_true, eighth]
  rw [if_neg (by omega)]
  simp only [State.port_setPort]
  unfold LinkPort.peerHas at has
  refine (if_neg ?_).trans ?_
  · grind
  · split
    · rfl
    · split
      · rfl
      · rfl

end Same
end Frames

/-- The exchange ends with the port ACTIVE; a module without an address checks no wiring. -/
theorem State.endExchange_active {s : State} {p : Nat} {f : Bytes} (mode : (s.port p).choose (fld f 5 1) ≠ 0) (echo : fld f 56 8 ≠ 0)
    (unset : s.fab.addrValid = false) (training : (s.port p).state = .training) :
    State.portOnly p s (s.endExchange p f) ∧ (s.endExchange p f).job = s.job ∧
      (s.endExchange p f).port p = { (s.port p).start with
        modeNow := (s.port p).choose (fld f 5 1), x8 := (s.port p).x8Test && fld f 7 1 = 1, peerAddr := fld f 8 4 % 2 ^ 18
        peerPort := fld f 6 1, peerValid := true, miswired := false, delayPs := (s.gsc - fld f 56 8 - fld f 64 8) * 1000 / 2 } := by
  obtain ⟨u, active⟩ : ∃ u : State, u = s.setPort p { (s.port p).start with
      modeNow := (s.port p).choose (fld f 5 1), x8 := (s.port p).x8Test && fld f 7 1 = 1, peerAddr := fld f 8 4 % 2 ^ 18
      peerPort := fld f 6 1, peerValid := true, miswired := false, delayPs := (s.gsc - fld f 56 8 - fld f 64 8) * 1000 / 2 } := ⟨_, rfl⟩
  have only : State.portOnly p s u := active ▸ State.portOnly.setPort ..
  have job : u.job = s.job := by rw [active, State.setPort_job]
  have ended : s.endExchange p f = u.event 0x0505 := by
    unfold State.endExchange
    refine (if_neg mode).trans ((if_neg echo).trans ?_)
    simp only [unset, training, Bool.false_and, active]
    rfl
  rw [ended]
  refine ⟨only.trans (State.portOnly.event ..), (State.event_job ..).trans job, ?_⟩
  rw [State.port_of_ports (State.event_ports ..), active, State.port_setPort]

theorem State.downs.after {s u t : State} {p : Nat} (before : State.portOnly p s u) (job : u.job = s.job) (gsc : u.gsc = s.gsc)
    (h : State.downs p u t) : State.downs p s t :=
  ⟨h.state, h.seen, before.trans h.only, h.gsc.trans gsc, fun idle => (h.idle (job ▸ idle)).trans job,
    fun active first => h.fault (job ▸ active) (job ▸ first)⟩

section Eighth

variable {s : State} {p : Nat} {u f : Bytes} {ok : Bool} (there : p < 16) (run : s.power.mode = .run)
  (good : frameParse u = some f) (same : sub f 4 44 = (s.port p).frameKey) (eighth : (s.port p).frameRun = 7) (has : (s.port p).peerHas f)
include there run good same eighth has

theorem trainingFrame_next (training : (s.port p).state = .training)
    (next : (s.port p).phase = 2 ∨ ((s.port p).phase = 3 ∧ ok = true)) :
    completes (.trainingFrame p u ok) s fun t => State.portOnly p s t ∧ t.job = s.job ∧ (t.port p).phase = (s.port p).phase + 1 ∧
      (t.port p).phaseAt = s.gsc ∧ (t.port p).frameRun = 0 ∧ (t.port p).echo = fld f 48 8 ∧ (t.port p).state = .training := by
  have row := trainingFrame_ends (ok := ok) there run (.inl training) (by omega) good same eighth has
  have inOrder : ¬ ((s.port p).phase = 3 && !ok) = true := by
    rcases next with two | ⟨-, inOrder⟩
    · simp [two]
    · simp [inOrder]
  rw [if_neg (by omega), if_neg inOrder] at row
  refine ⟨_, row, (s.framed_only p f).trans (State.portOnly.setPort ..), rfl, ?_⟩
  have plain : ¬ (((s.framed p f).port p).phase = 3 && ((s.framed p f).port p).state = .retraining) = true := by
    rw [s.framed_port]
    simp [LinkPort.framed, training]
  rw [State.nextPhase_port, if_neg plain, s.framed_port]
  exact ⟨rfl, rfl, rfl, rfl, training⟩

/-- Lanes that do not come into order. -/
theorem trainingFrame_lost (training : (s.port p).state = .training) (three : (s.port p).phase = 3) (lost : ok = false) :
    completes (.trainingFrame p u ok) s (State.downs p s) := by
  have row := trainingFrame_ends (ok := ok) there run (.inl training) (by omega) good same eighth has
  rw [if_neg (by omega), if_pos (by simp [three, lost])] at row
  exact ⟨_, row, (State.portDown_downs (s := s.framed p f) run p).after (s.framed_only p f) rfl rfl⟩

/-- No mode that both ends allow. -/
theorem trainingFrame_noMode (training : (s.port p).state = .training) (four : (s.port p).phase = 4)
    (none : (s.port p).choose (fld f 5 1) = 0) : completes (.trainingFrame p u ok) s (State.downs p s) := by
  have row := trainingFrame_ends (ok := ok) there run (.inl training) (by omega) good same eighth has
  have fails : (s.framed p f).endExchange p f = (s.framed p f).portDown p := by
    unfold State.endExchange
    rw [s.framed_port]
    exact if_pos none
  rw [if_pos four, fails] at row
  exact ⟨_, row, (State.portDown_downs (s := s.framed p f) run p).after (s.framed_only p f) rfl rfl⟩

theorem trainingFrame_active (training : (s.port p).state = .training) (four : (s.port p).phase = 4)
    (mode : (s.port p).choose (fld f 5 1) ≠ 0) (echo : fld f 56 8 ≠ 0) (unset : s.fab.addrValid = false) :
    completes (.trainingFrame p u ok) s fun t => State.portOnly p s t ∧ t.job = s.job ∧ (t.port p).state = .active ∧
      (t.port p).modeNow = (s.port p).choose (fld f 5 1) ∧ (t.port p).txPos = 0 ∧ (t.port p).rxPos = 0 ∧
      (t.port p).peerAddr = fld f 8 4 % 2 ^ 18 ∧ (t.port p).peerPort = fld f 6 1 ∧ (t.port p).peerValid = true ∧
      (t.port p).miswired = false := by
  have row := trainingFrame_ends (ok := ok) there run (.inl training) (by omega) good same eighth has
  rw [if_pos four] at row
  obtain ⟨ended, job, active⟩ := State.endExchange_active (s := s.framed p f) (p := p) (f := f) (by rw [s.framed_port]; exact mode) echo
    unset (by rw [s.framed_port]; exact training)
  refine ⟨_, row, (s.framed_only p f).trans ended, job, ?_⟩
  rw [active, s.framed_port]
  exact ⟨rfl, rfl, rfl, rfl, rfl, rfl, rfl, rfl⟩

/-- A retrain discards the held units before it reports its cells (R360). -/
theorem trainingFrame_drops (retraining : (s.port p).state = .retraining) (three : (s.port p).phase = 3) (inOrder : ok = true) :
    completes (.trainingFrame p u ok) s fun t => State.portOnly p s t ∧ (t.port p).phase = 4 ∧ (t.port p).held = [] ∧
      (t.port p).state = .retraining := by
  have row := trainingFrame_ends (ok := ok) there run (.inr retraining) (by omega) good same eighth has
  rw [if_neg (by omega), if_neg (by simp [inOrder])] at row
  refine ⟨_, row, (s.framed_only p f).trans (State.portOnly.setPort ..), ?_⟩
  have drops : (((s.framed p f).port p).phase = 3 && ((s.framed p f).port p).state = .retraining) = true := by
    rw [s.framed_port]
    simp [LinkPort.framed, retraining, three]
  rw [State.nextPhase_port, if_pos drops, s.framed_port]
  exact ⟨congrArg (· + 1) ((LinkPort.dropHeld_phase _).trans three), rfl, (LinkPort.dropHeld_state _).trans retraining⟩

end Eighth

/-! ### Timers (R350, R352) -/

theorem State.wl1Resend_few {s : State} {p seq : Nat} (few : ¬ 8 ≤ (s.port p).wl1Resends.find 0 seq) :
    s.wl1Resend p seq = s.setPort p { s.port p with
      wl1Next := some seq, wl1Resends := (s.port p).wl1Resends.put seq ((s.port p).wl1Resends.find 0 seq + 1) } := if_neg few

section Timers

variable {s : State} {p : Nat} (there : p < 16)
include there

theorem replayTimer_none (ok : Bool) (none : (s.port p).replayBuf = []) : exec (.replayTimer p ok) s = .next s := by
  refine Eq.trans (b := execReplayTimer p ok s) rfl ?_
  rw [execReplayTimer, if_neg (by omega)]
  simp only [none, List.filter_nil]
  rfl

/-- The one unit that is held reaches REPLAY_NS. -/
theorem replayTimer_one {h : Hold} (ok : Bool) (active : (s.port p).state = .active) (one : (s.port p).replayBuf = [h])
    (timers : (s.port p).timerReplays = []) (naks : (s.port p).nakReplays = []) :
    exec (.replayTimer p ok) s = .next (
      if !ok then (s.advanceTo (h.at_ + timerNs (s.port p).replayNs)).jobFatal 0x0506
      else if (s.port p).modeNow = 2 then (s.advanceTo (h.at_ + timerNs (s.port p).replayNs)).wl1Resend p h.pos
      else (s.advanceTo (h.at_ + timerNs (s.port p).replayNs)).setPort p { s.port p with timerReplays := [h.pos] }) := by
  have due : (sortBy (fun (a b : Hold) => a.at_ ≤ b.at_) ((s.port p).replayBuf.filter fun h =>
      !((s.port p).timerReplays ++ (s.port p).nakReplays).contains h.pos)).head? = some h := by
    rw [one, timers, naks]
    rfl
  refine Eq.trans (b := execReplayTimer p ok s) rfl ?_
  rw [execReplayTimer, if_neg (by omega)]
  simp only [due]
  refine (if_neg (by simp [active])).trans ?_
  rw [timers, List.nil_append]
  cases ok
  · rfl
  · by_cases wl1 : (s.port p).modeNow = 2
    · simp [wl1]
    · simp [wl1]

theorem nakRepeat_none (active : (s.port p).state = .active) (wl2 : (s.port p).modeNow = 1) (none : (s.port p).bad = []) :
    exec (.nakRepeat p) s = .next s := by
  refine Eq.trans (b := execNakRepeat p s) rfl ?_
  rw [execNakRepeat, if_neg (by omega)]
  exact (if_neg (by simp [active])).trans ((if_neg (by rw [wl2]; decide)).trans (if_pos (by simp [none])))

theorem nakRepeat_again (active : (s.port p).state = .active) (wl2 : (s.port p).modeNow = 1) (bad : (s.port p).bad ≠ [])
    (none : (s.port p).naksDue = []) : exec (.nakRepeat p) s =
      .next ((s.advanceTo ((s.port p).nakAt.find 0 (s.port p).ackPt + timerNs (s.port p).nakNs)).setPort p
        { s.port p with naksDue := [(s.port p).ackPt] }) := by
  refine Eq.trans (b := execNakRepeat p s) rfl ?_
  rw [execNakRepeat, if_neg (by omega)]
  refine (if_neg (by simp [active])).trans ((if_neg (by rw [wl2]; decide)).trans ((if_neg (by simp [bad, none])).trans ?_))
  rw [none]

/-- A phase exceeds its limit, or a retrain its own. -/
theorem trainingTimeout_row (training : (s.port p).state = .training ∨ (s.port p).state = .retraining) :
    exec (.trainingTimeout p) s = .next ((s.advanceTo (if (s.port p).state = .retraining then
      min ((s.port p).phaseAt + phaseLimit true (s.port p).phase) ((s.port p).trainAt + 200000)
      else (s.port p).phaseAt + phaseLimit false (s.port p).phase)).portDown p) := by
  refine Eq.trans (b := execTrainingTimeout p s) rfl ?_
  rw [execTrainingTimeout, if_neg (by omega)]
  rcases training with training | retraining
  · simp only [training]
    rfl
  · simp only [retraining]
    rfl

end Timers

/-- Settles O50: the timers send again, the eighth equal frame ends a phase, and training that fails takes the port DOWN. -/
theorem linkTraining : Obligations.LinkTraining := by
  intro s p there run x only isDown
  have onlyOf : ∀ {t : State}, State.portOnly p s t → only t := fun h => ⟨h.others, h.cores, h.fab⟩
  have downOf : ∀ {u t : State}, State.portOnly p s u → u.job = s.job → State.downs p u t → isDown t := fun before job downs =>
    ⟨downs.state, downs.seen, onlyOf (before.trans downs.only), fun idle => (downs.idle (job ▸ idle)).trans job,
      fun active first => downs.fault (job ▸ active) (job ▸ first)⟩
  refine ⟨fun none ok => ?_, fun h active one none nakless => ⟨fun fine => ?_, fun job first => ?_⟩, fun active wl2 none => ?_,
    fun active wl2 bad none => ?_, fun u ok ignored => trainingFrame_ignored there run u ok ignored,
    fun u ok training frames bad => trainingFrame_bad there run (.inl training) frames bad,
    fun u ok f training frames good same => ?_, fun u f retraining three good same eighth four => ?_, fun training => ?_, fun retraining => ?_,
    fun no never => ?_⟩
  case refine_1 => exact replayTimer_none there ok none
  case refine_2 =>
    have row := replayTimer_one there true active one none nakless
    have advanced : State.portOnly p s (s.advanceTo (h.at_ + timerNs x.replayNs)) := State.portOnly.advanceTo ..
    rw [if_neg (by decide)] at row
    by_cases wl1 : x.modeNow = 2
    · have few : ¬ 8 ≤ x.wl1Resends.find 0 h.pos := by
        have := fine.resolve_left (by rw [wl1]; decide)
        omega
      have port : (s.advanceTo (h.at_ + timerNs x.replayNs)).port p = x := State.port_of_ports (State.advanceTo_ports ..) p
      have again := State.wl1Resend_few (s := s.advanceTo (h.at_ + timerNs x.replayNs)) (p := p) (seq := h.pos) (by rw [port]; exact few)
      rw [port] at again
      rw [if_pos wl1, again] at row
      exact ⟨_, row, State.advanceTo_gsc .., onlyOf (advanced.trans (State.portOnly.setPort ..)), State.advanceTo_job ..,
        fun wl2 => absurd wl1 wl2, fun _ _ => State.port_setPort ..⟩
    · rw [if_neg wl1] at row
      exact ⟨_, row, State.advanceTo_gsc .., onlyOf (advanced.trans (State.portOnly.setPort ..)), State.advanceTo_job ..,
        fun _ => State.port_setPort .., fun wl2 => absurd wl2 wl1⟩
  case refine_3 =>
    have run' : (s.advanceTo (h.at_ + timerNs x.replayNs)).power.mode = .run := (State.advanceTo_power_mode ..).trans run
    have active' : (s.advanceTo (h.at_ + timerNs x.replayNs)).job.state.active = true := by rw [State.advanceTo_job]; exact job
    have first' : (s.advanceTo (h.at_ + timerNs x.replayNs)).job.fault = 0#16 := by rw [State.advanceTo_job]; exact first
    have row := replayTimer_one there false active one none nakless
    rw [if_pos (by decide)] at row
    exact ⟨_, row, (State.jobFatal_first run' active' first' 0x0506 Option.none).1,
      onlyOf ((State.portOnly.advanceTo ..).trans (State.portOnly.jobFatal run' ..))⟩
  case refine_4 => exact nakRepeat_none there active wl2 none
  case refine_5 =>
    exact ⟨_, nakRepeat_again there active wl2 bad none, State.advanceTo_gsc .., State.port_setPort ..,
      onlyOf ((State.portOnly.advanceTo ..).trans (State.portOnly.setPort ..)), State.advanceTo_job ..⟩
  case refine_6 =>
    have down : completes (.trainingFrame p u ok) s (State.downs p s) → completes (.trainingFrame p u ok) s isDown :=
      fun ⟨t, row, h⟩ => ⟨t, row, downOf (State.portOnly.refl ..) rfl h⟩
    refine ⟨fun early => trainingFrame_early there run (.inl training) frames good same early, fun eighth waits => ?_, fun eighth has => ?_⟩
    · refine ⟨_, trainingFrame_waits there run (.inl training) frames good same eighth waits, onlyOf (s.framed_only p f), rfl, ?_⟩
      rw [s.framed_port]
      exact ⟨rfl, rfl, training⟩
    refine ⟨fun next => ?_, fun three lost => ?_, fun four none => ?_, fun four mode echo unset => ?_⟩
    · obtain ⟨t, row, h, rest⟩ := trainingFrame_next there run good same eighth has training next
      exact ⟨t, row, onlyOf h, rest⟩
    · exact down (trainingFrame_lost there run good same eighth has training three lost)
    · exact down (trainingFrame_noMode there run good same eighth has training four none)
    · obtain ⟨t, row, h, rest⟩ := trainingFrame_active there run good same eighth has training four mode echo unset
      exact ⟨t, row, onlyOf h, rest⟩
  case refine_7 =>
    obtain ⟨t, row, h, rest⟩ := trainingFrame_drops (ok := true) there run good same eighth
      (.inl (by rw [show (s.port p).phase = 3 from three, four]; decide)) retraining three rfl
    exact ⟨t, row, onlyOf h, rest⟩
  case refine_8 =>
    have row := trainingTimeout_row there (.inl training)
    rw [if_neg (by rw [training]; decide)] at row
    have downs := State.portDown_downs (s := s.advanceTo (x.phaseAt + phaseLimit false x.phase)) ((State.advanceTo_power_mode ..).trans run) p
    exact ⟨_, row, downOf (State.portOnly.advanceTo ..) (State.advanceTo_job ..) downs, downs.gsc.trans (State.advanceTo_gsc ..)⟩
  case refine_9 =>
    have row := trainingTimeout_row there (.inr retraining)
    rw [if_pos retraining] at row
    have downs := State.portDown_downs (s := s.advanceTo (min (x.phaseAt + phaseLimit true x.phase) (x.trainAt + 200000)))
      ((State.advanceTo_power_mode ..).trans run) p
    exact ⟨_, row, downOf (State.portOnly.advanceTo ..) (State.advanceTo_job ..) downs, downs.gsc.trans (State.advanceTo_gsc ..)⟩
  case refine_10 =>
    refine Eq.trans (b := execTrainingTimeout p s) rfl ?_
    rw [execTrainingTimeout, if_neg (by omega)]
    exact if_pos (by simp; exact ⟨no, never⟩)

end Sys2Proof.Machine

/-! PROOF. One unit time of a port's transmitter (R341, R350 to R352, R356 to R359, R362, R363). -/
namespace Sys2Proof.Machine

/-! ### Nothing staged is cut -/

theorem State.cutOne_none {s : State} {c h : Nat} (empty : (s.queue c h).stage = []) : s.cutOne c h = none := by
  unfold State.cutOne
  dsimp only
  split
  · rfl
  next r found =>
    have more : r.got < r.len := by simpa using List.find?_some found
    rw [if_pos (by rw [empty, List.length_nil]; omega)]

theorem State.cutAll_none {s : State} {c h : Nat} (empty : (s.queue c h).stage = []) (n : Nat) : State.cutAll n c h s = s := by
  cases n with
  | zero => rfl
  | succ n =>
    rw [State.cutAll, State.cutOne_none empty]
    split <;> rfl

theorem State.cutSends_unstaged {s : State} (empty : ∀ e ∈ s.queues, e.2.kind = .fabricSend → (s.queue (e.1 / 32) (e.1 % 32)).stage = []) :
    s.cutSends = s := by
  have all : ∀ l : List (Nat × Queue), (∀ e ∈ l, e.2.kind = .fabricSend → (s.queue (e.1 / 32) (e.1 % 32)).stage = []) →
      l.foldl (fun s e => if e.2.kind = .fabricSend then State.cutAll 4096 (e.1 / 32) (e.1 % 32) s else s) s = s := fun l => by
    induction l with
    | nil => exact fun _ => rfl
    | cons e l ih =>
      intro empty
      have first : (if e.2.kind = .fabricSend then State.cutAll 4096 (e.1 / 32) (e.1 % 32) s else s) = s := by
        split
        next send => exact State.cutAll_none (empty e List.mem_cons_self send) _
        · rfl
      rw [List.foldl_cons, first]
      exact ih fun e mem => empty e (List.mem_cons_of_mem _ mem)
  exact all s.queues empty

/-! ### A unit goes out (R350, R357, R358) -/

/-- The header of a unit that carries no NAK. -/
def LinkPort.header (x : LinkPort) (kind rseq : Nat) (u : LUnit) : UnitHdr :=
  { kind := kind, cls := u.cls, ack := x.ackPt % 65536, sbk := false, sbv := x.creditTurn % 4 + x.freed.find 0 (x.creditTurn % 4) % 1024 * 4
    rseq := rseq % 65536, dest := u.dest, epoch := u.epoch, xfer := u.xfer, half := u.half, e2e := u.e2e }

/-- The port `y` is `x` after a unit at its next position. -/
structure LinkPort.sent (x y : LinkPort) (kind rseq : Nat) (u : LUnit) (gsc : Nat) : Prop where
  txPos : y.txPos = x.txPos + 1
  bytes : x.naksDue = [] → y.sentUnit = unitBytes x.txPos 0 (x.header kind rseq u) u.data
  naks : ∀ n ns, x.naksDue = n :: ns → y.naksDue = ns ∧ y.nakAt = x.nakAt.put n gsc
  replayAt : kind = 1 ∨ kind = 3 → y.replayAt = some gsc
  replayBuf : y.replayBuf = x.replayBuf
  out : y.out = x.out
  history : y.history = x.history
  txq : y.txq = x.txq
  nakReplays : y.nakReplays = x.nakReplays
  voidsDue : y.voidsDue = x.voidsDue

theorem State.putUnit_sent {s : State} {p : Nat} (kind rseq : Nat) (u : LUnit) (intact : (s.port p).inj = none)
    (wl2 : (s.port p).modeNow = 1) :
    ∃ y, s.putUnit p kind rseq u = s.setPort p y ∧ (s.port p).sent y kind rseq u s.gsc := by
  have ack : ∀ x : LinkPort, x.inj = none → x.modeNow = 1 → x.ackOut = x.ackPt := fun x intact wl2 => by
    simp only [LinkPort.ackOut, intact, wl2]
    rfl
  obtain ⟨x, port⟩ : ∃ x, x = s.port p := ⟨_, rfl⟩
  rw [← port] at intact wl2 ⊢
  cases naks : x.naksDue with
  | nil =>
    have took : (s.port p).takeSbv s.gsc = ({ x with creditTurn := (x.creditTurn % 4 + 1) % 4 }, false,
        x.creditTurn % 4 + x.freed.find 0 (x.creditTurn % 4) % 1024 * 4) := by
      rw [← port]
      unfold LinkPort.takeSbv
      simp only [naks]
    unfold State.putUnit
    simp only [took, intact]
    refine ⟨_, rfl, rfl, fun _ => ?_, fun n ns due => (nomatch naks.symm.trans due), fun kind => if_pos (by simpa using kind),
      rfl, rfl, rfl, rfl, rfl, rfl⟩
    exact (congrArg (fun a => unitBytes x.txPos 0 { x.header kind rseq u with ack := a % 65536 } u.data)
      (ack { x with creditTurn := (x.creditTurn % 4 + 1) % 4, inj := none } rfl wl2) :)
  | cons n ns =>
    have took : (s.port p).takeSbv s.gsc = ({ x.tally .naks with naksDue := ns, nakAt := x.nakAt.put n s.gsc }, true, n % 65536) := by
      rw [← port]
      unfold LinkPort.takeSbv
      simp only [naks]
    unfold State.putUnit
    simp only [took, LinkPort.tally, intact]
    refine ⟨_, rfl, rfl, fun none => (nomatch naks.symm.trans none), fun m ms due => ?_, fun kind => if_pos (by simpa using kind),
      rfl, rfl, rfl, rfl, rfl, rfl⟩
    obtain ⟨rfl, rfl⟩ := List.cons.inj (naks.symm.trans due)
    exact ⟨rfl, rfl⟩

/-- What a port reads of itself for the link fields of its next unit. -/
def LinkPort.line (x : LinkPort) : Option Inject × Nat × Nat × List Nat × Map Nat × (Nat → Nat → LUnit → UnitHdr) :=
  (x.inj, x.modeNow, x.txPos, x.naksDue, x.nakAt, x.header)

/-- From `s` to `t` port `p` sends one unit, and nothing else changes but the list of the module's own transfers. -/
structure State.sends (p : Nat) (s t : State) (kind rseq : Nat) (u : LUnit) : Prop where
  others : ∀ q, q ≠ p → t.port q = s.port q
  rest : ({ t with ports := s.ports, fab := { t.fab with owns := s.fab.owns } } : State) = s
  txPos : (t.port p).txPos = (s.port p).txPos + 1
  bytes : (s.port p).naksDue = [] → (t.port p).sentUnit = unitBytes (s.port p).txPos 0 ((s.port p).header kind rseq u) u.data
  naks : ∀ n ns, (s.port p).naksDue = n :: ns → (t.port p).naksDue = ns ∧ (t.port p).nakAt = (s.port p).nakAt.put n s.gsc

/-- A unit goes out once the port's lists are ready for it. -/
theorem State.putUnit_sends {s w : State} {p : Nat} (kind rseq : Nat) (u : LUnit) (others : ∀ q, q ≠ p → w.port q = s.port q)
    (rest : ({ w with ports := s.ports, fab := { w.fab with owns := s.fab.owns } } : State) = s)
    (same : (w.port p).line = (s.port p).line) (intact : (s.port p).inj = none) (wl2 : (s.port p).modeNow = 1) :
    State.sends p s (w.putUnit p kind rseq u) kind rseq u ∧ (w.port p).sent ((w.putUnit p kind rseq u).port p) kind rseq u s.gsc ∧
      ({ w.putUnit p kind rseq u with ports := w.ports } : State) = w := by
  unfold LinkPort.line at same
  simp only [Prod.mk.injEq] at same
  obtain ⟨inj, mode, txPos, naksDue, nakAt, header⟩ := same
  have gsc : w.gsc = s.gsc := (congrArg State.gsc rest :)
  obtain ⟨y, put, sent⟩ := w.putUnit_sent kind rseq u (inj.trans intact) (mode.trans wl2)
  rw [put, State.port_setPort, ← gsc]
  refine ⟨⟨fun q other => (State.port_setPort_other _ _ other).trans (others q other), rest, ?_, fun none => ?_, fun n ns due => ?_⟩,
    sent, rfl⟩
  · rw [State.port_setPort, sent.txPos, txPos]
  · rw [State.port_setPort, sent.bytes (naksDue.trans none), txPos, header]
  · rw [State.port_setPort, ← gsc, ← nakAt]
    exact sent.naks n ns (naksDue.trans due)

/-! ### The unit time of an ACTIVE port (R358) -/

/-- The port with the stalls of this unit time counted. -/
def State.stalls (s : State) (p : Nat) : LinkPort :=
  let x := if s.lacks p true then (s.port p).tally .creditStall else s.port p
  if s.lacks p false then x.tally .stall else x

theorem State.stalls_count (s : State) (p : Nat) : ∃ n, s.stalls p = { s.port p with count := n } := by
  unfold State.stalls
  dsimp only
  split <;> split <;> exact ⟨_, rfl⟩

theorem unitTime_active {s : State} {p : Nat} (there : p < 16) (unstaged : s.cutSends = s) (active : (s.port p).state = .active)
    (wl2 : (s.port p).modeNow = 1) : ∃ n, exec (.unitTime p) s = .next ((s.setPort p { s.port p with count := n }).wl2Time p) := by
  obtain ⟨n, stalls⟩ := s.stalls_count p
  refine ⟨n, ?_⟩
  rw [← stalls]
  have mode : ¬ (s.stalls p).modeNow = 2 := by
    rw [stalls]
    exact ne_of_eq_of_ne wl2 (by decide)
  refine Eq.trans (b := execUnitTime p s) rfl ?_
  rw [execUnitTime, if_neg (by omega)]
  simp only [unstaged, active]
  exact congrArg Host.Outcome.next (if_neg mode)

theorem State.sendVoid_few {s : State} {p n : Nat} (few : ∀ y ∈ (s.port p).history, y.pos = n → y.voids < 8) :
    ∃ y, s.sendVoid p n = (s.setPort p y).putUnit p 3 n .none ∧ y.line = (s.port p).line ∧
      y.voidsDue = (s.port p).voidsDue.erase n ∧ y.replayBuf = (s.port p).replayBuf := by
  refine ⟨_, if_neg ?_, rfl, rfl, rfl⟩
  simp only [List.any_eq_true, Bool.and_eq_true, decide_eq_true_eq, not_exists, not_and]
  intro y mem pos
  have := few y mem pos
  omega

theorem State.sendReplay_few {s : State} {p n : Nat} {h : Hold} (found : (s.port p).replayBuf.find? (fun y => y.pos = n) = some h)
    (few : h.count < 8) :
    ∃ y, s.sendReplay p n = (s.setPort p y).putUnit p 1 n h.unit ∧ y.line = (s.port p).line ∧
      y.nakReplays = (s.port p).nakReplays.erase n ∧ y.out = (s.port p).out ∧
      y.replayBuf = (s.port p).replayBuf.map fun y => if y.pos = n then { y with at_ := s.gsc, count := y.count + 1 } else y := by
  unfold State.sendReplay
  simp only [found]
  exact ⟨_, if_neg (by omega), rfl, rfl, rfl, rfl⟩

theorem State.sendReplay_ninth {s : State} {p n : Nat} {h : Hold} (found : (s.port p).replayBuf.find? (fun y => y.pos = n) = some h)
    (ninth : 8 ≤ h.count) : s.sendReplay p n = (s.setPort p { s.port p with
      nakReplays := (s.port p).nakReplays.erase n, timerReplays := (s.port p).timerReplays.erase n }).retrain p 0 := by
  unfold State.sendReplay
  simp only [found]
  exact if_pos ninth

/-- A retrain that follows no other starts at once (R359). -/
theorem State.retrain_starts {s : State} {p : Nat} (cause : Nat) (active : (s.port p).state = .active)
    (first : (s.port p).lastRetrain = none) :
    ∃ y : LinkPort, s.retrain p cause = (s.setPort p y).event 0x0504 (BitVec.ofNat 64 cause) ∧ y.state = .retraining ∧
      y.lastCause = cause ∧ y.retrains = min ((s.port p).retrains + 1) (2 ^ 16 - 1) ∧ y.held = (s.port p).held := by
  unfold State.retrain
  dsimp only
  rw [if_neg (by simp [active]), if_neg (by simp [first])]
  exact ⟨_, rfl, rfl, rfl, rfl, rfl⟩

/-- A port without anything to send sends no NEW unit. -/
theorem State.nextNew_none {s : State} {p : Nat} (whole : (s.port p).resend = []) (empty : (s.port p).txq = []) : s.nextNew p = none := by
  unfold State.nextNew State.firstResend
  simp only [whole, empty, List.find?_nil]
  rfl

/-- The one unit that waits goes out when its port may carry it, and has credit and room. -/
theorem State.nextNew_one {s : State} {p : Nat} {it : TxItem} (whole : (s.port p).resend = []) (one : (s.port p).txq = [it])
    (cls : it.unit.cls < 4) (leaves : s.mayLeave p it.unit.cls = true) (credit : cellFits (s.port p).out it.unit.cls = true)
    (room : (s.port p).roomFor it = true) : s.nextNew p = some (it, false) := by
  have found : ∀ c, List.find? (fun i : TxItem => i.unit.cls = c) [it] = if it.unit.cls = c then some it else none := fun c => by
    by_cases same : it.unit.cls = c
    · simp [same]
    · simp [same]
  have each : ∀ c, (match List.find? (fun i : TxItem => i.unit.cls = c) (s.port p).txq with
      | some it => if s.mayLeave p c && cellFits (s.port p).out c && (s.port p).roomFor it then some (it, false) else none
      | none => none) = if it.unit.cls = c then some (it, false) else none := fun c => by
    rw [one, found]
    by_cases same : it.unit.cls = c
    · subst same
      simp [leaves, credit, room]
    · simp [same]
  have first : s.nextNew p = classOrder.findSome? fun c => if it.unit.cls = c then some (it, false) else none := by
    rw [← funext each]
    unfold State.nextNew State.firstResend
    rw [whole]
    rfl
  rw [first]
  rcases (by omega : it.unit.cls = 0 ∨ it.unit.cls = 1 ∨ it.unit.cls = 2 ∨ it.unit.cls = 3) with c | c | c | c <;> rw [c] <;> rfl

/-- What leaves of a NEW unit of this module (R352, R356). -/
theorem State.sendNew_own {s : State} {p : Nat} {it : TxItem} (wl2 : (s.port p).modeNow = 1) (plain : it.unit.e2e = 0) (own : it.src = .own) :
    ∃ y, s.sendNew p it false = (s.setPort p y).withFab { s.fab with owns := s.fab.owns.filter fun o => o.tid ≠ it.tid } ∧
      y.line = (s.port p).line ∧ y.txq = (s.port p).txq.erase it ∧
      y.out = (s.port p).out.put it.unit.cls ((s.port p).out.find 0 it.unit.cls + 1) ∧
      y.replayBuf = (s.port p).replayBuf ++ [{ pos := (s.port p).txPos, unit := it.unit, at_ := s.gsc, count := 0 }] ∧
      y.history = (s.port p).history ++ [{ pos := (s.port p).txPos, replayable := true, voids := 0 }] := by
  have loose : ∀ x : LinkPort, x.holdSeg it s.gsc = x := fun x => if_pos (by simp [TxItem.held, own, plain])
  unfold State.sendNew
  simp only [loose, own, plain, wl2]
  exact ⟨_, rfl, rfl, rfl, rfl, rfl, rfl⟩

/-- The unit goes out of a port that has only been made ready for it. -/
theorem State.putUnit_after {s : State} {p : Nat} {a y : LinkPort} (kind rseq : Nat) (u : LUnit) (line : y.line = (s.port p).line)
    (intact : (s.port p).inj = none) (wl2 : (s.port p).modeNow = 1) :
    let t := ((s.setPort p a).setPort p y).putUnit p kind rseq u
    State.sends p s t kind rseq u ∧ y.sent (t.port p) kind rseq u s.gsc ∧ ({ t with ports := s.ports } : State) = s := by
  obtain ⟨sent, port, rest⟩ := State.putUnit_sends (s := s) (w := (s.setPort p a).setPort p y) (p := p) kind rseq u
    (fun q other => by rw [State.port_setPort_other _ _ other, State.port_setPort_other _ _ other]) rfl (by rw [State.port_setPort]; exact line)
    intact wl2
  rw [State.port_setPort] at port
  exact ⟨sent, port, congrArg (fun t : State => { t with ports := s.ports }) rest⟩

section Active

variable {s : State} {p : Nat} (there : p < 16) (unstaged : s.cutSends = s) (active : (s.port p).state = .active)
  (wl2 : (s.port p).modeNow = 1)
include there unstaged active wl2

theorem unitTime_ninth {n : Nat} {ns : List Nat} {h : Hold} (quiet : (s.port p).voidsDue = []) (naks : (s.port p).nakReplays = n :: ns)
    (found : (s.port p).replayBuf.find? (fun y => y.pos = n) = some h) (ninth : 8 ≤ h.count) (first : (s.port p).lastRetrain = none) :
    completes (.unitTime p) s fun t => (t.port p).state = .retraining ∧ (t.port p).lastCause = 0 ∧
      (t.port p).retrains = min ((s.port p).retrains + 1) (2 ^ 16 - 1) ∧ t.job = s.job ∧ ∀ q, q ≠ p → t.port q = s.port q := by
  obtain ⟨k, row⟩ := unitTime_active there unstaged active wl2
  obtain ⟨w, ready⟩ : ∃ w, w = s.setPort p { s.port p with count := k } := ⟨_, rfl⟩
  have port : w.port p = { s.port p with count := k } := by rw [ready, State.port_setPort]
  have time : w.wl2Time p = w.sendReplay p n := by
    unfold State.wl2Time
    simp only [port, quiet, naks, List.cons_append]
  have retrain := State.sendReplay_ninth (s := w) (p := p) (n := n) (by rw [port]; exact found) ninth
  obtain ⟨v, dropped⟩ : ∃ v, v = w.setPort p { w.port p with
    nakReplays := (w.port p).nakReplays.erase n, timerReplays := (w.port p).timerReplays.erase n } := ⟨_, rfl⟩
  have vPort : v.port p = { w.port p with
      nakReplays := (w.port p).nakReplays.erase n, timerReplays := (w.port p).timerReplays.erase n } := by rw [dropped, State.port_setPort]
  obtain ⟨y, starts, state, cause, times, -⟩ := State.retrain_starts (s := v) (p := p) 0 (by rw [vPort, port]; exact active)
    (by rw [vPort, port]; exact first)
  rw [← ready, time, retrain, ← dropped, starts] at row
  have last : ((v.setPort p y).event 0x0504 (BitVec.ofNat 64 0)).port p = y := by
    rw [State.port_of_ports (State.event_ports ..), State.port_setPort]
  refine ⟨_, row, ?_, ?_, ?_, ?_, fun q other => ?_⟩
  · rw [last, state]
  · rw [last, cause]
  · rw [last, times, vPort, port]
  · rw [State.event_job, dropped, ready]
    rfl
  · rw [State.port_of_ports (State.event_ports ..), State.port_setPort_other _ _ other, dropped, State.port_setPort_other _ _ other, ready,
      State.port_setPort_other _ _ other]

section Sends

variable (intact : (s.port p).inj = none)
include intact

theorem unitTime_void {n : Nat} {ns : List Nat} (due : (s.port p).voidsDue = n :: ns)
    (few : ∀ y ∈ (s.port p).history, y.pos = n → y.voids < 8) :
    completes (.unitTime p) s fun t => State.sends p s t 3 n .none ∧ ({ t with ports := s.ports } : State) = s ∧
      (t.port p).replayAt = some s.gsc ∧ (t.port p).voidsDue = ns ∧ (t.port p).replayBuf = (s.port p).replayBuf := by
  obtain ⟨k, row⟩ := unitTime_active there unstaged active wl2
  obtain ⟨y, sends, line, voids, buf⟩ := State.sendVoid_few (s := s.setPort p { s.port p with count := k }) (p := p) (n := n)
    (by rw [State.port_setPort]; exact few)
  have time : (s.setPort p { s.port p with count := k }).wl2Time p = (s.setPort p { s.port p with count := k }).sendVoid p n := by
    unfold State.wl2Time
    simp only [State.port_setPort, due]
  rw [time, sends] at row
  rw [State.port_setPort] at line voids buf
  obtain ⟨sent, port, rest⟩ := State.putUnit_after 3 n .none line intact wl2
  refine ⟨_, row, sent, rest, port.replayAt (.inr rfl), port.voidsDue.trans (voids.trans ?_), port.replayBuf.trans buf⟩
  simp [due]

theorem unitTime_replay {n : Nat} {ns : List Nat} {h : Hold} (quiet : (s.port p).voidsDue = []) (naks : (s.port p).nakReplays = n :: ns)
    (found : (s.port p).replayBuf.find? (fun y => y.pos = n) = some h) (few : h.count < 8) :
    completes (.unitTime p) s fun t => State.sends p s t 1 n h.unit ∧ ({ t with ports := s.ports } : State) = s ∧
      (t.port p).nakReplays = ns ∧ (t.port p).replayAt = some s.gsc ∧
      { h with at_ := s.gsc, count := h.count + 1 } ∈ (t.port p).replayBuf ∧ (t.port p).out = (s.port p).out := by
  obtain ⟨k, row⟩ := unitTime_active there unstaged active wl2
  obtain ⟨y, sends, line, left, out, buf⟩ := State.sendReplay_few (s := s.setPort p { s.port p with count := k }) (p := p) (n := n)
    (by rw [State.port_setPort]; exact found) few
  have time : (s.setPort p { s.port p with count := k }).wl2Time p = (s.setPort p { s.port p with count := k }).sendReplay p n := by
    unfold State.wl2Time
    simp only [State.port_setPort, quiet, naks, List.cons_append]
  rw [time, sends] at row
  rw [State.port_setPort] at line left out buf
  obtain ⟨sent, port, rest⟩ := State.putUnit_after 1 n h.unit line intact wl2
  have pos : h.pos = n := by simpa using List.find?_some found
  refine ⟨_, row, sent, rest, port.nakReplays.trans (left.trans ?_), port.replayAt (.inl rfl), ?_, port.out.trans out⟩
  · simp [naks]
  · rw [port.replayBuf, buf]
    exact List.mem_map.mpr ⟨h, List.mem_of_find?_eq_some found, if_pos pos⟩

theorem unitTime_idle (whole : (s.port p).resend = []) (quiet : (s.port p).voidsDue = []) (naks : (s.port p).nakReplays = [])
    (timers : (s.port p).timerReplays = []) (empty : (s.port p).txq = []) :
    completes (.unitTime p) s fun t => State.sends p s t 2 0 .none ∧ ({ t with ports := s.ports } : State) = s ∧
      (t.port p).replayBuf = (s.port p).replayBuf ∧ (t.port p).out = (s.port p).out ∧
      (t.port p).history = (s.port p).history ++ [{ pos := (s.port p).txPos, replayable := false, voids := 0 }] := by
  obtain ⟨k, row⟩ := unitTime_active there unstaged active wl2
  obtain ⟨w, ready⟩ : ∃ w, w = s.setPort p { s.port p with count := k } := ⟨_, rfl⟩
  have port : w.port p = { s.port p with count := k } := by rw [ready, State.port_setPort]
  have none := State.nextNew_none (s := w) (p := p) (by rw [port]; exact whole) (by rw [port]; exact empty)
  have time : w.wl2Time p = (w.setPort p (w.port p).plain).putUnit p 2 0 .none := by
    unfold State.wl2Time
    simp only [port, quiet, naks, timers, List.append_nil, none]
  rw [← ready, time, port, ready] at row
  obtain ⟨sent, port, rest⟩ := State.putUnit_after (s := s) (p := p) (a := { s.port p with count := k })
    (y := ({ s.port p with count := k } : LinkPort).plain) 2 0 .none rfl intact wl2
  exact ⟨_, row, sent, rest, port.replayBuf, port.out, port.history⟩

theorem unitTime_new {it : TxItem} (whole : (s.port p).resend = []) (quiet : (s.port p).voidsDue = []) (naks : (s.port p).nakReplays = [])
    (timers : (s.port p).timerReplays = []) (one : (s.port p).txq = [it]) (plain : it.unit.e2e = 0) (own : it.src = .own)
    (cls : it.unit.cls < 4) (leaves : s.mayLeave p it.unit.cls = true) (credit : cellFits (s.port p).out it.unit.cls = true)
    (room : (s.port p).bufUsed < 1024) :
    completes (.unitTime p) s fun t => State.sends p s t 0 0 it.unit ∧ (t.port p).txq = [] ∧
      t.fab.owns = s.fab.owns.filter (fun o => o.tid ≠ it.tid) ∧
      (t.port p).out.find 0 it.unit.cls = (s.port p).out.find 0 it.unit.cls + 1 ∧
      (t.port p).replayBuf = (s.port p).replayBuf ++ [{ pos := (s.port p).txPos, unit := it.unit, at_ := s.gsc, count := 0 }] ∧
      (t.port p).history = (s.port p).history ++ [{ pos := (s.port p).txPos, replayable := true, voids := 0 }] := by
  obtain ⟨k, row⟩ := unitTime_active there unstaged active wl2
  obtain ⟨w, ready⟩ : ∃ w, w = s.setPort p { s.port p with count := k } := ⟨_, rfl⟩
  have port : w.port p = { s.port p with count := k } := by rw [ready, State.port_setPort]
  have fab : w.fab = s.fab := by rw [ready, State.setPort_fab]
  have next : w.nextNew p = some (it, false) := by
    refine State.nextNew_one (by rw [port]; exact whole) (by rw [port]; exact one) cls ?_ (by rw [port]; exact credit) ?_
    · unfold State.mayLeave State.fenced State.maintOnly
      rw [port, fab]
      exact leaves
    · rw [port]
      refine (if_neg (by simp [TxItem.held, own, plain])).trans ?_
      simp [plain]
      exact room
  obtain ⟨y, new, line, txq, out, buf, history⟩ := State.sendNew_own (s := w) (p := p) (it := it) (by rw [port]; exact wl2) plain own
  have time : w.wl2Time p = (w.sendNew p it false).putUnit p 0 0 it.unit := by
    unfold State.wl2Time
    simp only [port, quiet, naks, timers, List.append_nil, next]
  rw [← ready, time, new] at row
  rw [port] at line txq out buf history
  obtain ⟨sent, after, rest⟩ := State.putUnit_sends (s := s)
    (w := (w.setPort p y).withFab { w.fab with owns := w.fab.owns.filter fun o => o.tid ≠ it.tid }) (p := p) 0 0 it.unit
    (fun q other => by rw [ready]; exact (State.port_setPort_other _ _ other).trans (State.port_setPort_other _ _ other))
    (by rw [ready]; rfl) ((congrArg LinkPort.line (State.port_setPort ..)).trans line) intact wl2
  rw [show ((w.setPort p y).withFab { w.fab with owns := w.fab.owns.filter fun o => o.tid ≠ it.tid }).port p = y from State.port_setPort ..]
    at after
  refine ⟨_, row, sent, after.txq.trans (txq.trans ?_), ?_, ?_, after.replayBuf.trans (buf.trans ?_), after.history.trans history⟩
  · simp [one]
  · exact (congrArg (fun t : State => t.fab.owns) rest :).trans
      (congrArg (fun f : Fabric => f.owns.filter fun o : OwnXfer => o.tid ≠ it.tid) fab)
  · rw [after.out, out, Map.find_put_same]
  · rw [ready, State.setPort_gsc]

end Sends
end Active

/-! ### A port in training (R362, R363) -/

section Training

variable {s : State} {p : Nat} (there : p < 16) (unstaged : s.cutSends = s) (training : (s.port p).state = .training)
include there unstaged training

theorem unitTime_training : exec (.unitTime p) s = .next (
    let t := s.setPort p (s.port p)
    if (s.port p).phase < 2 then t.detectTime p
    else
      let f := t.trainFrame p
      let w := if (s.port p).x8Test then 8 else 16
      f.2.setPort p { f.2.port p with sentUnit := f.1, wire := (List.range w).map (lanePlain w f.1) }) := by
  refine Eq.trans (b := execUnitTime p s) rfl ?_
  rw [execUnitTime, if_neg (by omega)]
  simp only [unstaged, training]
  by_cases early : (s.port p).phase < 2
  · exact (if_pos early).trans (congrArg Host.Outcome.next (if_pos early).symm)
  · exact (if_neg early).trans (congrArg Host.Outcome.next (if_neg early).symm)

theorem unitTime_detect (early : (s.port p).phase < 2) : completes (.unitTime p) s fun t =>
    (∀ q, q ≠ p → t.port q = s.port q) ∧ ({ t with ports := s.ports } : State) = s ∧ (t.port p).phase = (s.port p).phase ∧
      (t.port p).wire = (prbsLanes 6 (if (s.port p).x8Test then 8 else 16) (s.port p).pat.gens).1 := by
  have row := unitTime_training there unstaged training
  rw [if_pos early] at row
  refine ⟨_, row, fun q other => ?_, rfl, ?_, ?_⟩
  · exact (State.port_setPort_other _ _ other).trans (State.port_setPort_other _ _ other)
  · unfold State.detectTime
    rw [State.port_setPort, State.port_setPort]
  · unfold State.detectTime
    rw [State.port_setPort, State.port_setPort]

theorem unitTime_frame (frames : 2 ≤ (s.port p).phase) : completes (.unitTime p) s fun t =>
    (t.port p).phase = (s.port p).phase ∧ t.job = s.job ∧ (t.port p).sentUnit = (s.trainFrame p).1 ∧
      (t.port p).wire = (List.range (if (s.port p).x8Test then 8 else 16)).map
        (lanePlain (if (s.port p).x8Test then 8 else 16) (s.trainFrame p).1) ∧
      t.gsc = s.gsc ∧ ∀ q, q ≠ p → t.port q = s.port q := by
  have row := unitTime_training there unstaged training
  rw [if_neg (by omega)] at row
  have same : ((s.setPort p (s.port p)).trainFrame p).1 = (s.trainFrame p).1 := by
    unfold State.trainFrame
    rw [State.port_setPort]
    rfl
  have kept : ((s.setPort p (s.port p)).trainFrame p).2.port p = s.port p := State.port_setPort ..
  refine ⟨_, row, ?_, rfl, ?_, ?_, rfl, fun q other => ?_⟩
  · rw [State.port_setPort, kept]
  · rw [State.port_setPort, same]
  · rw [State.port_setPort, same]
  · exact (State.port_setPort_other _ _ other).trans (State.port_setPort_other _ _ other)

end Training

/-- Settles O48: what is due goes out in R358's order, each unit at the next position with the link fields of its header. -/
theorem linkTransmission : Obligations.LinkTransmission := by
  intro s p there empty
  have unstaged : s.cutSends = s := State.cutSends_unstaged empty
  refine ⟨fun off silent => ?_, fun active wl2 intact whole => ⟨fun quiet naks timers empty => ?_, fun it quiet naks timers one plain own cls
    leaves credit room => ?_, fun n ns h empty quiet naks found => ⟨fun few => ?_, fun ninth first => ?_⟩, fun n ns empty due few => ?_⟩,
    fun training => ⟨fun early => ?_, fun frames => unitTime_frame there unstaged training frames⟩⟩
  · refine Eq.trans (b := execUnitTime p s) rfl ?_
    rw [execUnitTime, if_neg (by omega)]
    rcases off with off | down
    · simp only [unstaged, off]
      exact congrArg Host.Outcome.next (if_neg (by simp [silent]))
    · simp only [unstaged, down]
      exact congrArg Host.Outcome.next (if_neg (by simp [silent]))
  · obtain ⟨t, row, h, rest, more⟩ := unitTime_idle there unstaged active wl2 intact whole quiet naks timers empty
    exact ⟨t, row, ⟨h.others, h.rest, h.txPos, h.bytes, h.naks⟩, ⟨h.others, rest⟩, more⟩
  · obtain ⟨t, row, h, more⟩ := unitTime_new there unstaged active wl2 intact whole quiet naks timers one plain own cls leaves credit room
    exact ⟨t, row, ⟨h.others, h.rest, h.txPos, h.bytes, h.naks⟩, more⟩
  · obtain ⟨t, row, h, rest, more⟩ := unitTime_replay there unstaged active wl2 intact quiet naks found few
    exact ⟨t, row, ⟨h.others, h.rest, h.txPos, h.bytes, h.naks⟩, ⟨h.others, rest⟩, more⟩
  · exact unitTime_ninth there unstaged active wl2 quiet naks found ninth first
  · obtain ⟨t, row, h, rest, more⟩ := unitTime_void there unstaged active wl2 intact due few
    exact ⟨t, row, ⟨h.others, h.rest, h.txPos, h.bytes, h.naks⟩, ⟨h.others, rest⟩, more⟩
  · obtain ⟨t, row, others, rest, more⟩ := unitTime_detect there unstaged training early
    exact ⟨t, row, ⟨others, rest⟩, more⟩

end Sys2Proof.Machine

/-! PROOF. What a WL2 receiver does with a unit (R345, R348 to R350, R353, R355, R356, R359, R391). -/
namespace Sys2Proof.Machine

/-! ### The ack point (R349) -/

theorem foldl_min_min (l : List Nat) (a b : Nat) : l.foldl min (min a b) = min (l.foldl min a) b := by
  induction l generalizing a with
  | nil => rfl
  | cons x l ih => rw [List.foldl_cons, List.foldl_cons, min_right_comm, ih]

/-- A position that is not resolved bounds the ack point. -/
theorem foldl_min_append (l : List Nat) (q : Nat) : (l ++ [q]).foldl min (q + 1) = l.foldl min q := by
  rw [List.foldl_append, List.foldl_cons, List.foldl_nil, ← foldl_min_min, min_eq_right (Nat.le_succ q)]

/-- The least unresolved position is the ack point. -/
theorem foldl_min_least {l : List Nat} {m q : Nat} (mem : m ∈ l) (below : m ≤ q) (least : ∀ k ∈ l, m ≤ k) : l.foldl min q = m := by
  induction l generalizing q with
  | nil => cases mem
  | cons x l ih =>
    rw [List.foldl_cons]
    have floor : m ≤ x := least x List.mem_cons_self
    by_cases later : m ∈ l
    · exact ih later (le_min below floor) fun k inside => least k (List.mem_cons_of_mem _ inside)
    · obtain rfl : m = x := (List.mem_cons.mp mem).resolve_right later
      rw [min_eq_right below]
      have kept : ∀ l : List Nat, (∀ k ∈ l, m ≤ k) → l.foldl min m = m := fun l => by
        induction l with
        | nil => exact fun _ => rfl
        | cons y l ih =>
          intro bound
          rw [List.foldl_cons, min_eq_left (bound y List.mem_cons_self)]
          exact ih fun k inside => bound k (List.mem_cons_of_mem _ inside)
      exact kept l fun k inside => least k (List.mem_cons_of_mem _ inside)

/-! ### Held units (R349) -/

/-- Nothing that is held lies below the ack point: nothing is delivered. -/
theorem State.release_none {s : State} {p : Nat} (above : ∀ u ∈ (s.port p).held, (s.port p).ackPt ≤ u.1) :
    s.release p = s.setPort p (s.port p) := by
  have none : (s.port p).held.filter (fun u => u.1 < (s.port p).ackPt) = [] :=
    List.filter_eq_nil_iff.mpr fun u mem => by have := above u mem; simpa using this
  have all : (s.port p).held.filter (fun u => (s.port p).ackPt ≤ u.1) = (s.port p).held :=
    List.filter_eq_self.mpr fun u mem => by simpa using above u mem
  unfold State.release
  simp only [none, all]
  rfl

/-- The one held unit that the ack point has passed is delivered. -/
theorem State.release_one {s : State} {p q : Nat} {u : LUnit} {fresh : Bool} (one : (s.port p).held = [(q, u, fresh)])
    (passed : q < (s.port p).ackPt) : s.release p = (s.setPort p { s.port p with held := [] }).deliver p u fresh := by
  unfold State.release
  simp only [one, List.filter_cons, passed, decide_true, if_true, List.filter_nil]
  rw [if_neg (by simp [passed])]
  rfl

/-! ### Reception (R348) -/

theorem State.event_source_other (s : State) {n code : Nat} {a b : W64} (other : n ≠ srcOf code) :
    (s.event code a b).source n = s.source n := by
  unfold State.event State.raiseCode State.raiseSource
  split
  · split
    · exact Map.find_put_other _ _ _ other
    · rfl
  · rfl

section Reception

variable {s : State} {p : Nat} {u : Bytes} (there : p < 16) (awake : s.power.mode ≠ .park) (active : (s.port p).state = .active)
  (wl2 : (s.port p).modeNow = 1)
include there awake active wl2

theorem receiveKind_none (kind : Nat) (ok : Bool) (none : unitParse (s.port p).rxPos u = none) : receiveKind kind p u ok s = .next s := by
  have still : s.parkWake = s := if_neg awake
  unfold receiveKind
  rw [if_neg (by omega), still]
  refine (if_neg (by simp [active, wl2])).trans ?_
  simp only [none]

theorem receiveKind_good {h : UnitHdr} {b : Bytes} {n : Nat} (good : unitParse (s.port p).rxPos u = some (h, b, n)) :
    receiveKind h.kind p u true s = .next (s.goodUnit p h b n) := by
  have still : s.parkWake = s := if_neg awake
  unfold receiveKind
  rw [if_neg (by omega), still]
  refine (if_neg (by simp [active, wl2])).trans ?_
  simp only [good]
  exact if_neg (by simp)

omit awake in
theorem uncorrectable_row (none : unitParse (s.port p).rxPos u = none) : exec (.uncorrectableUnit p u) s = .next (s.badUnit p) := by
  refine Eq.trans (b := execUncorrectableUnit p u s) rfl ?_
  unfold execUncorrectableUnit
  rw [if_neg (by omega)]
  exact (if_neg (by simp [none])).trans (if_neg (by simp [active, wl2]))

end Reception

/-- The port with the unit at its next position counted. -/
def LinkPort.received (x : LinkPort) (fec : Nat) : LinkPort := { x.tally .fec fec with rxPos := x.rxPos + 1, badRun := 0 }

@[simp] theorem LinkPort.received_rxPos (x : LinkPort) (n : Nat) : (x.received n).rxPos = x.rxPos + 1 := rfl
@[simp] theorem LinkPort.received_badRun (x : LinkPort) (n : Nat) : (x.received n).badRun = 0 := rfl
@[simp] theorem LinkPort.received_txPos (x : LinkPort) (n : Nat) : (x.received n).txPos = x.txPos := rfl
@[simp] theorem LinkPort.received_bad (x : LinkPort) (n : Nat) : (x.received n).bad = x.bad := rfl
@[simp] theorem LinkPort.received_held (x : LinkPort) (n : Nat) : (x.received n).held = x.held := rfl
@[simp] theorem LinkPort.received_cells (x : LinkPort) (n : Nat) : (x.received n).cells = x.cells := rfl
@[simp] theorem LinkPort.received_freed (x : LinkPort) (n : Nat) : (x.received n).freed = x.freed := rfl
@[simp] theorem LinkPort.received_replayBuf (x : LinkPort) (n : Nat) : (x.received n).replayBuf = x.replayBuf := rfl
@[simp] theorem LinkPort.received_state (x : LinkPort) (n : Nat) : (x.received n).state = x.state := rfl
@[simp] theorem LinkPort.received_miswired (x : LinkPort) (n : Nat) : (x.received n).miswired = x.miswired := rfl
@[simp] theorem LinkPort.received_x8 (x : LinkPort) (n : Nat) : (x.received n).x8 = x.x8 := rfl
@[simp] theorem LinkPort.received_txq (x : LinkPort) (n : Nat) : (x.received n).txq = x.txq := rfl
@[simp] theorem LinkPort.received_lastRetrain (x : LinkPort) (n : Nat) : (x.received n).lastRetrain = x.lastRetrain := rfl
@[simp] theorem LinkPort.tally_rxPos (x : LinkPort) (c : PortCount) (n : Nat) : (x.tally c n).rxPos = x.rxPos := rfl
@[simp] theorem LinkPort.tally_txPos (x : LinkPort) (c : PortCount) (n : Nat) : (x.tally c n).txPos = x.txPos := rfl
@[simp] theorem LinkPort.tally_bad (x : LinkPort) (c : PortCount) (n : Nat) : (x.tally c n).bad = x.bad := rfl
@[simp] theorem LinkPort.tally_held (x : LinkPort) (c : PortCount) (n : Nat) : (x.tally c n).held = x.held := rfl
@[simp] theorem LinkPort.tally_cells (x : LinkPort) (c : PortCount) (n : Nat) : (x.tally c n).cells = x.cells := rfl

/-- The port with position `k` resolved. -/
def LinkPort.resolved (x : LinkPort) (k : Nat) : LinkPort := { x with bad := x.bad.erase k, naksDue := x.naksDue.erase k }

@[simp] theorem LinkPort.resolved_rxPos (x : LinkPort) (k : Nat) : (x.resolved k).rxPos = x.rxPos := rfl
@[simp] theorem LinkPort.resolved_txPos (x : LinkPort) (k : Nat) : (x.resolved k).txPos = x.txPos := rfl
@[simp] theorem LinkPort.resolved_bad (x : LinkPort) (k : Nat) : (x.resolved k).bad = x.bad.erase k := rfl
@[simp] theorem LinkPort.resolved_held (x : LinkPort) (k : Nat) : (x.resolved k).held = x.held := rfl
@[simp] theorem LinkPort.resolved_cells (x : LinkPort) (k : Nat) : (x.resolved k).cells = x.cells := rfl

/-- The port with the ack point and the credit of a header that carries no NAK. -/
def LinkPort.acked (x : LinkPort) (a : Nat) (h : UnitHdr) : LinkPort :=
  let c := h.sbv % 4
  let n := (h.sbv / 4 % 1024 + 1024 - x.freedSeen.find 0 c % 1024) % 1024
  { x with
    history := x.history.filter fun y => a ≤ y.pos
    replayBuf := x.replayBuf.filter fun y => a ≤ y.pos
    voidsDue := x.voidsDue.filter fun n => a ≤ n
    nakReplays := x.nakReplays.filter fun n => a ≤ n
    timerReplays := x.timerReplays.filter fun n => a ≤ n
    freedSeen := x.freedSeen.put c (x.freedSeen.find 0 c + n), out := x.out.put c (x.out.find 0 c - n) }

@[simp] theorem LinkPort.acked_rxPos (x : LinkPort) (a : Nat) (h : UnitHdr) : (x.acked a h).rxPos = x.rxPos := rfl
@[simp] theorem LinkPort.acked_badRun (x : LinkPort) (a : Nat) (h : UnitHdr) : (x.acked a h).badRun = x.badRun := rfl
@[simp] theorem LinkPort.acked_bad (x : LinkPort) (a : Nat) (h : UnitHdr) : (x.acked a h).bad = x.bad := rfl
@[simp] theorem LinkPort.acked_held (x : LinkPort) (a : Nat) (h : UnitHdr) : (x.acked a h).held = x.held := rfl
@[simp] theorem LinkPort.acked_cells (x : LinkPort) (a : Nat) (h : UnitHdr) : (x.acked a h).cells = x.cells := rfl
@[simp] theorem LinkPort.acked_freed (x : LinkPort) (a : Nat) (h : UnitHdr) : (x.acked a h).freed = x.freed := rfl
@[simp] theorem LinkPort.acked_count (x : LinkPort) (a : Nat) (h : UnitHdr) : (x.acked a h).count = x.count := rfl
@[simp] theorem LinkPort.acked_replayBuf (x : LinkPort) (a : Nat) (h : UnitHdr) : (x.acked a h).replayBuf = x.replayBuf.filter fun y => a ≤ y.pos := rfl
@[simp] theorem LinkPort.acked_state (x : LinkPort) (a : Nat) (h : UnitHdr) : (x.acked a h).state = x.state := rfl
@[simp] theorem LinkPort.acked_miswired (x : LinkPort) (a : Nat) (h : UnitHdr) : (x.acked a h).miswired = x.miswired := rfl
@[simp] theorem LinkPort.acked_x8 (x : LinkPort) (a : Nat) (h : UnitHdr) : (x.acked a h).x8 = x.x8 := rfl

theorem LinkPort.linkFields_acked {x : LinkPort} {a : Nat} {h : UnitHdr} (near : nearPos x.txPos h.ack = some a) (plain : h.sbk = false) :
    x.linkFields h = some (x.acked a h) := by
  unfold LinkPort.linkFields
  simp only [near, plain]
  rfl

section Good

variable {s : State} {p a n : Nat} {h : UnitHdr} {b : Bytes} {y : LinkPort} (near : nearPos (s.port p).txPos h.ack = some a) (plain : h.sbk = false)
  (resolved : ((s.port p).received n).resolve (s.port p).rxPos h b = some y) (line : y.txPos = (s.port p).txPos)
include near plain resolved line

/-- A good unit that the receiver takes. -/
theorem State.goodUnit_takes (close : (s.port p).rxPos - y.ackPt ≤ 16384) :
    s.goodUnit p h b n = (s.setPort p (y.acked a h)).release p := by
  have taken : (((s.port p).received n).resolve (s.port p).rxPos h b).bind (fun y => y.linkFields h) = some (y.acked a h) := by
    rw [resolved, Option.bind_some, LinkPort.linkFields_acked (line ▸ near) plain]
  unfold State.goodUnit
  unfold LinkPort.received at taken
  simp only [taken]
  exact if_neg (Nat.not_lt.mpr close)

/-- A good unit after which nothing can be delivered. -/
theorem State.goodUnit_holds (close : (s.port p).rxPos - y.ackPt ≤ 16384) (above : ∀ u ∈ y.held, y.ackPt ≤ u.1) :
    (s.goodUnit p h b n).port p = y.acked a h ∧ (∀ q, q ≠ p → (s.goodUnit p h b n).port q = s.port q) ∧
      ({ s.goodUnit p h b n with ports := s.ports } : State) = s := by
  have port : (s.setPort p (y.acked a h)).port p = y.acked a h := State.port_setPort ..
  rw [State.goodUnit_takes near plain resolved line close, State.release_none (by rw [port]; exact above), port]
  exact ⟨State.port_setPort .., fun q other => (State.port_setPort_other _ _ other).trans (State.port_setPort_other _ _ other), rfl⟩

end Good

/-! ### A unit that leaves the receiver (R391) -/

section Deliver

variable {s : State} {p : Nat} {u : LUnit} (fresh : Bool) (open_ : s.fenced p = false ∨ u.cls = 3)
  (carries : s.maintOnly p = false ∨ u.cls = 3) (loaded : (s.bank u.epoch).state ≠ .empty)
  (steady : (s.bank u.epoch).state ≠ .draining) (used : (s.bank u.epoch).state ≠ .retired)
include open_ carries loaded steady used

/-- A unit that its port may carry goes where its bank's route leads. -/
theorem State.deliver_routed (id : u.xfer < 0xFF00 ∨ 0xFFF7 < u.xfer) : s.deliver p u fresh =
    match s.egress u.cls u.dest u.xfer u.epoch with
    | .port q =>
      if s.fenced q && u.cls ≠ 3 then (s.leave (.pool p) u).discardUnit u.dest 1 true
      else s.setPort q { s.port q with txq := (s.port q).txq ++ [{ unit := u, src := .pool p, seg := 0, tid := 0 }] }
    | .discard => (s.leave (.pool p) u).discardUnit u.dest 0 true
    | .deliver => s.consume p u fresh := by
  have seen : s.seeEpoch u.epoch = s := by
    unfold State.seeEpoch
    dsimp only
    split
    next draining => exact absurd draining steady
    next retired => exact absurd retired used
    · rfl
  unfold State.deliver
  rw [seen, if_neg (by rcases open_ with h | h <;> simp [h]), if_neg (by rcases carries with h | h <;> simp [h]),
    if_neg (by simp; omega)]
  exact if_neg loaded

/-- A beacon for this module. -/
theorem State.deliver_beacon (own : u.dest = s.fab.addr) (addressed : s.fab.addrValid = true) (id : u.xfer = 0xFFFE) (hop : u.e2e = 0)
    (unlisted : s.expected u.xfer = none) : s.deliver p u fresh =
      (s.withFab { s.fab with beacons := s.fab.beacons ++ [{ port := p, at_ := s.gsc, fresh := fresh, data := u.data }] }).leave (.pool p) u := by
  have here : s.egress u.cls u.dest u.xfer u.epoch = .deliver := by
    unfold State.egress State.maintRoute Bank.route
    simp [own, addressed]
  rw [State.deliver_routed fresh open_ carries loaded steady used (by omega), here]
  rw [id] at unlisted
  unfold State.consume
  simp [unlisted, hop, id]

end Deliver

/-! ### The cells of a pool (R355, R356) -/

/-- The port with a unit in a cell of its class. -/
def LinkPort.celled (x : LinkPort) (pos : Nat) (u : LUnit) (fresh : Bool) : LinkPort :=
  { (x.alloc u.cls).tally (.rx u.cls) with held := x.held ++ [(pos, u, fresh)] }

@[simp] theorem LinkPort.celled_rxPos (x : LinkPort) (pos : Nat) (u : LUnit) (fresh : Bool) : (x.celled pos u fresh).rxPos = x.rxPos := rfl
@[simp] theorem LinkPort.celled_txPos (x : LinkPort) (pos : Nat) (u : LUnit) (fresh : Bool) : (x.celled pos u fresh).txPos = x.txPos := rfl
@[simp] theorem LinkPort.celled_bad (x : LinkPort) (pos : Nat) (u : LUnit) (fresh : Bool) : (x.celled pos u fresh).bad = x.bad := rfl
@[simp] theorem LinkPort.celled_held (x : LinkPort) (pos : Nat) (u : LUnit) (fresh : Bool) : (x.celled pos u fresh).held = x.held ++ [(pos, u, fresh)] := rfl
@[simp] theorem LinkPort.celled_freed (x : LinkPort) (pos : Nat) (u : LUnit) (fresh : Bool) : (x.celled pos u fresh).freed = x.freed := rfl
@[simp] theorem LinkPort.celled_state (x : LinkPort) (pos : Nat) (u : LUnit) (fresh : Bool) : (x.celled pos u fresh).state = x.state := rfl
@[simp] theorem LinkPort.celled_miswired (x : LinkPort) (pos : Nat) (u : LUnit) (fresh : Bool) : (x.celled pos u fresh).miswired = x.miswired := rfl
@[simp] theorem LinkPort.celled_x8 (x : LinkPort) (pos : Nat) (u : LUnit) (fresh : Bool) : (x.celled pos u fresh).x8 = x.x8 := rfl

theorem LinkPort.accept_fits {x : LinkPort} {u : LUnit} (pos : Nat) (fresh : Bool) (fits : cellFits x.cells u.cls = true) :
    x.accept pos u fresh = some (x.celled pos u fresh) := if_pos fits

theorem LinkPort.accept_full {x : LinkPort} {u : LUnit} (pos : Nat) (fresh : Bool) (full : cellFits x.cells u.cls = false) :
    x.accept pos u fresh = none := if_neg (by simp [full])

theorem LinkPort.celled_cells (x : LinkPort) (pos : Nat) (u : LUnit) (fresh : Bool) :
    (x.celled pos u fresh).cells.find 0 u.cls = x.cells.find 0 u.cls + 1 := Map.find_put_same ..

/-! ### What a unit resolves (R348) -/

section Resolve

variable {x : LinkPort} {q k : Nat} {h : UnitHdr} {b : Bytes}

theorem LinkPort.resolve_idle (kind : h.kind = 2) : x.resolve q h b = some x := by
  simp only [LinkPort.resolve, kind]

theorem LinkPort.resolve_new (kind : h.kind = 0) : x.resolve q h b = x.accept q (h.unit b) true := by
  simp only [LinkPort.resolve, kind]

theorem LinkPort.resolve_dup (kind : h.kind = 1) (near : nearPos (q - 1) h.rseq = some k) (resolved : k ∉ x.bad) :
    x.resolve q h b = some (x.tally .dups) := by
  simp only [LinkPort.resolve, kind, near]
  exact if_neg (by simpa [LinkPort.isBad] using resolved)

theorem LinkPort.resolve_replay (kind : h.kind = 1) (near : nearPos (q - 1) h.rseq = some k) (bad : k ∈ x.bad) :
    x.resolve q h b = (x.resolved k).accept k (h.unit b) false := by
  simp only [LinkPort.resolve, kind, near]
  exact if_pos (by simpa [LinkPort.isBad] using bad)

theorem LinkPort.resolve_void (kind : h.kind = 3) (near : nearPos (q - 1) h.rseq = some k) :
    x.resolve q h b = some (x.resolved k) := by
  simp only [LinkPort.resolve, kind, near]
  rfl

end Resolve

/-! ### Good units that are not delivered yet (R348, R349) -/

section Units

variable {s : State} {p a n : Nat} {u : Bytes} {h : UnitHdr} {b : Bytes} (there : p < 16) (awake : s.power.mode ≠ .park)
  (active : (s.port p).state = .active) (wl2 : (s.port p).modeNow = 1) (good : unitParse (s.port p).rxPos u = some (h, b, n))
  (near : nearPos (s.port p).txPos h.ack = some a) (plain : h.sbk = false)
include there awake active wl2 good

theorem receiveKind_kind (k : Nat) (kind : h.kind = k) : receiveKind k p u true s = .next (s.goodUnit p h b n) :=
  kind ▸ receiveKind_good there awake active wl2 good

include near plain

theorem idleUnit_row (idle : h.kind = 2) (none : (s.port p).bad = []) (empty : (s.port p).held = []) :
    completes (.idleUnit p u) s fun t => ((∀ q, q ≠ p → t.port q = s.port q) ∧ ({ t with ports := s.ports } : State) = s) ∧
      (t.port p).rxPos = (s.port p).rxPos + 1 ∧ (t.port p).badRun = 0 ∧
      (t.port p).replayBuf = (s.port p).replayBuf.filter (fun y => a ≤ y.pos) ∧ (t.port p).cells = (s.port p).cells := by
  have ack : ((s.port p).received n).ackPt = (s.port p).rxPos + 1 := by simp [LinkPort.ackPt, none]
  obtain ⟨port, frame⟩ := State.goodUnit_holds (s := s) (p := p) near plain (LinkPort.resolve_idle (b := b) idle) (by simp)
    (by rw [ack]; omega) (by simp [empty])
  refine ⟨_, receiveKind_kind there awake active wl2 good 2 idle, frame, ?_⟩
  rw [port]
  simp

theorem newUnit_holds {m : Nat} (new : h.kind = 0) (fits : cellFits (s.port p).cells h.cls = true) (mem : m ∈ (s.port p).bad)
    (below : m < (s.port p).rxPos) (least : ∀ k ∈ (s.port p).bad, m ≤ k) (above : ∀ y ∈ (s.port p).held, m ≤ y.1)
    (close : (s.port p).rxPos - m ≤ 16384) :
    completes (.newUnit p u true) s fun t => ((∀ q, q ≠ p → t.port q = s.port q) ∧ ({ t with ports := s.ports } : State) = s) ∧
      (t.port p).rxPos = (s.port p).rxPos + 1 ∧ (t.port p).bad = (s.port p).bad ∧
      (t.port p).held = (s.port p).held ++ [((s.port p).rxPos, h.unit b, true)] ∧
      (t.port p).cells.find 0 h.cls = (s.port p).cells.find 0 h.cls + 1 := by
  have ack : (((s.port p).received n).celled (s.port p).rxPos (h.unit b) true).ackPt = m := by
    simpa [LinkPort.ackPt] using foldl_min_least mem (Nat.le_succ_of_le (Nat.le_of_lt below)) least
  have resolved : ((s.port p).received n).resolve (s.port p).rxPos h b = _ :=
    (LinkPort.resolve_new new).trans (LinkPort.accept_fits (s.port p).rxPos true (by rw [LinkPort.received_cells]; exact fits))
  obtain ⟨port, frame⟩ := State.goodUnit_holds near plain resolved (by simp) (by rw [ack]; exact close) (fun v held => by
    rw [ack]
    rcases List.mem_append.mp held with old | one
    · exact above v old
    · rw [List.mem_singleton.mp one]
      exact Nat.le_of_lt below)
  refine ⟨_, receiveKind_kind there awake active wl2 good 0 new, frame, ?_⟩
  rw [port]
  have cells := LinkPort.celled_cells ((s.port p).received n) (s.port p).rxPos (h.unit b) true
  exact ⟨by simp, by simp, by simp, by rw [LinkPort.acked_cells]; exact cells⟩

theorem replayUnit_dup {k : Nat} (replay : h.kind = 1) (near' : nearPos ((s.port p).rxPos - 1) h.rseq = some k)
    (none : (s.port p).bad = []) (empty : (s.port p).held = []) :
    completes (.replayUnit p u) s fun t => ((∀ q, q ≠ p → t.port q = s.port q) ∧ ({ t with ports := s.ports } : State) = s) ∧
      (t.port p).rxPos = (s.port p).rxPos + 1 ∧ (t.port p).count.find 0 11 = min ((s.port p).count.find 0 11 + 1) (2 ^ 64 - 1) ∧
      (t.port p).cells = (s.port p).cells := by
  have ack : (((s.port p).received n).tally .dups).ackPt = (s.port p).rxPos + 1 := by simp [LinkPort.ackPt, none]
  have resolved := LinkPort.resolve_dup (x := (s.port p).received n) (b := b) replay near' (by simp [none])
  obtain ⟨port, frame⟩ := State.goodUnit_holds (s := s) (p := p) near plain resolved (by simp) (by rw [ack]; omega) (by simp [empty])
  refine ⟨_, receiveKind_kind there awake active wl2 good 1 replay, frame, ?_⟩
  rw [port]
  refine ⟨by simp, ?_, by simp⟩
  rw [LinkPort.acked_count]
  exact (Map.find_put_same ..).trans (congrArg (fun n => min (n + 1) (2 ^ 64 - 1)) (Map.find_put_other _ _ _ (by decide)))

theorem replayUnit_resolves {k m : Nat} (replay : h.kind = 1) (near' : nearPos ((s.port p).rxPos - 1) h.rseq = some k)
    (fits : cellFits (s.port p).cells h.cls = true) (inside : k ∈ (s.port p).bad) (mem : m ∈ (s.port p).bad) (other : m ≠ k)
    (below : m < (s.port p).rxPos) (least : ∀ j ∈ (s.port p).bad, m ≤ j) (above : ∀ y ∈ (s.port p).held, m ≤ y.1)
    (close : (s.port p).rxPos - m ≤ 16384) :
    completes (.replayUnit p u) s fun t => ((∀ q, q ≠ p → t.port q = s.port q) ∧ ({ t with ports := s.ports } : State) = s) ∧
      (t.port p).bad = (s.port p).bad.erase k ∧ (t.port p).held = (s.port p).held ++ [(k, h.unit b, false)] ∧
      (t.port p).rxPos = (s.port p).rxPos + 1 := by
  have ack : ((((s.port p).received n).resolved k).celled k (h.unit b) false).ackPt = m := by
    simpa [LinkPort.ackPt] using foldl_min_least ((List.mem_erase_of_ne other).mpr mem) (Nat.le_succ_of_le (Nat.le_of_lt below))
      fun j inside => least j (List.mem_of_mem_erase inside)
  have resolved : ((s.port p).received n).resolve (s.port p).rxPos h b = _ :=
    (LinkPort.resolve_replay replay near' (by simpa using inside)).trans (LinkPort.accept_fits k false (by rw [LinkPort.resolved_cells, LinkPort.received_cells]; exact fits))
  obtain ⟨port, frame⟩ := State.goodUnit_holds near plain resolved (by simp) (by rw [ack]; exact close) (fun v held => by
    rw [ack]
    rcases List.mem_append.mp held with old | one
    · exact above v old
    · rw [List.mem_singleton.mp one]
      exact least k inside)
  refine ⟨_, receiveKind_kind there awake active wl2 good 1 replay, frame, ?_⟩
  rw [port]
  simp

theorem voidUnit_resolves {k : Nat} (void : h.kind = 3) (near' : nearPos ((s.port p).rxPos - 1) h.rseq = some k)
    (one : (s.port p).bad = [k]) (empty : (s.port p).held = []) :
    completes (.voidUnit p u) s fun t => ((∀ q, q ≠ p → t.port q = s.port q) ∧ ({ t with ports := s.ports } : State) = s) ∧
      (t.port p).bad = [] ∧ (t.port p).rxPos = (s.port p).rxPos + 1 ∧ (t.port p).cells = (s.port p).cells := by
  have ack : (((s.port p).received n).resolved k).ackPt = (s.port p).rxPos + 1 := by simp [LinkPort.ackPt, one]
  obtain ⟨port, frame⟩ := State.goodUnit_holds (s := s) (p := p) near plain
    (LinkPort.resolve_void (x := (s.port p).received n) (b := b) void near') (by simp) (by rw [ack]; omega) (by simp [empty])
  refine ⟨_, receiveKind_kind there awake active wl2 good 3 void, frame, ?_⟩
  rw [port]
  simp [one]

/-- A NEW unit in order leaves the receiver at once (R349). -/
theorem newUnit_delivers (new : h.kind = 0) (fits : cellFits (s.port p).cells h.cls = true) (none : (s.port p).bad = [])
    (empty : (s.port p).held = []) :
    ∃ w : State, exec (.newUnit p u true) s = .next (w.deliver p (h.unit b) true) ∧ (∀ q, q ≠ p → w.port q = s.port q) ∧
      ({ w with ports := s.ports } : State) = s ∧ (w.port p).rxPos = (s.port p).rxPos + 1 ∧ (w.port p).freed = (s.port p).freed ∧
      (w.port p).cells.find 0 h.cls = (s.port p).cells.find 0 h.cls + 1 ∧ (w.port p).state = (s.port p).state ∧
      (w.port p).miswired = (s.port p).miswired ∧ (w.port p).x8 = (s.port p).x8 := by
  obtain ⟨y, celled⟩ : ∃ y, y = ((s.port p).received n).celled (s.port p).rxPos (h.unit b) true := ⟨_, rfl⟩
  have ack : y.ackPt = (s.port p).rxPos + 1 := by simp [celled, LinkPort.ackPt, none]
  have resolved : ((s.port p).received n).resolve (s.port p).rxPos h b = some y := by
    rw [celled]
    exact (LinkPort.resolve_new new).trans (LinkPort.accept_fits (s.port p).rxPos true (by rw [LinkPort.received_cells]; exact fits))
  have taken := State.goodUnit_takes near plain resolved (by simp [celled]) (by rw [ack]; omega)
  have port : (s.setPort p (y.acked a h)).port p = y.acked a h := State.port_setPort ..
  have held : ((s.setPort p (y.acked a h)).port p).held = [((s.port p).rxPos, h.unit b, true)] := by
    rw [port]
    simp [celled, empty]
  have passed : (s.port p).rxPos < ((s.setPort p (y.acked a h)).port p).ackPt := by
    rw [port, show (y.acked a h).ackPt = y.ackPt from rfl, ack]
    omega
  have cells := LinkPort.celled_cells ((s.port p).received n) (s.port p).rxPos (h.unit b) true
  have row := receiveKind_kind there awake active wl2 good 0 new
  rw [taken, State.release_one held passed, port] at row
  refine ⟨_, row, fun q other => (State.port_setPort_other _ _ other).trans (State.port_setPort_other _ _ other), rfl, ?_⟩
  rw [State.port_setPort]
  refine ⟨?_, ?_, ?_, ?_, ?_, ?_⟩
  · simp [celled]
  · simp [celled]
  · rw [LinkPort.acked_cells, celled]
    exact cells
  · simp [celled]
  · simp [celled]
  · simp [celled]

omit near plain in
/-- A NEW unit without a cell is LINK_PROTOCOL and a retrain (R356). -/
theorem newUnit_full (new : h.kind = 0) (full : cellFits (s.port p).cells h.cls = false) (first : (s.port p).lastRetrain = none) :
    completes (.newUnit p u true) s fun t => (t.port p).state = .retraining ∧ (t.port p).lastCause = 1 ∧
      (t.port p).held = (s.port p).held ∧ (t.source (srcOf 0x0503)).state ≠ .idle ∧ t.job = s.job := by
  have refused : ((s.port p).received n).resolve (s.port p).rxPos h b = none :=
    (LinkPort.resolve_new new).trans (LinkPort.accept_full (s.port p).rxPos true (by rw [LinkPort.received_cells]; exact full))
  have protocol : s.goodUnit p h b n = (s.setPort p ((s.port p).received n)).linkProtocol p := by
    have none : (((s.port p).received n).resolve (s.port p).rxPos h b).bind (fun y => y.linkFields h) = none := by
      rw [refused]
      rfl
    unfold State.goodUnit
    unfold LinkPort.received at none ⊢
    simp only [none]
  obtain ⟨w, raised⟩ : ∃ w, w = (s.setPort p ((s.port p).received n)).event 0x0503 := ⟨_, rfl⟩
  have port : w.port p = (s.port p).received n := by rw [raised, State.port_of_ports (State.event_ports ..), State.port_setPort]
  obtain ⟨y, starts, state, cause, -, held⟩ := State.retrain_starts (s := w) (p := p) 1 (by rw [port]; exact active) (by rw [port]; exact first)
  have row := receiveKind_kind there awake active wl2 good 0 new
  rw [protocol, State.linkProtocol, ← raised, starts] at row
  refine ⟨_, row, ?_, ?_, ?_, ?_, ?_⟩
  · rw [State.port_of_ports (State.event_ports ..), State.port_setPort, state]
  · rw [State.port_of_ports (State.event_ports ..), State.port_setPort, cause]
  · rw [State.port_of_ports (State.event_ports ..), State.port_setPort, held, port]
    rfl
  · rw [State.event_source_other _ (by decide), raised]
    exact State.raiseCode_raised _ _ _ _ (by decide) (by decide)
  · rw [State.event_job, State.setPort_job, raised, State.event_job, State.setPort_job]

end Units

/-! ### What a step of one port keeps of the routes (R389 to R392) -/

section Kept

variable {s w : State} {p : Nat} (rest : ({ w with ports := s.ports } : State) = s) (others : ∀ q, q ≠ p → w.port q = s.port q)
  (state : (w.port p).state = (s.port p).state) (miswired : (w.port p).miswired = (s.port p).miswired)
include rest

theorem State.fab_of_rest : w.fab = s.fab := (congrArg State.fab rest :)

include others state miswired in
theorem State.egress_of_rest (cls dest xfer epoch : Nat) : w.egress cls dest xfer epoch = s.egress cls dest xfer epoch := by
  have good : ∀ q, w.goodPort q = s.goodPort q := fun q => by
    unfold State.goodPort
    by_cases same : q = p
    · rw [same, state, miswired]
    · rw [others q same]
  have fab := State.fab_of_rest rest
  unfold State.egress State.maintRoute State.bank
  simp only [good, fab]

theorem State.expected_of_rest (xfer : Nat) : w.expected xfer = s.expected xfer := by
  have queues : w.queues = s.queues := (congrArg State.queues rest :)
  unfold State.expected
  rw [queues]

end Kept

/-- Settles O49: a good unit is resolved and, in order, delivered; a unit that is none leaves its position unresolved. -/
theorem linkReception : Obligations.LinkReception := by
  intro s p u there awake active wl2 x only
  refine ⟨fun none => ⟨fun ok => receiveKind_none there awake active wl2 0 ok none, receiveKind_none there awake active wl2 1 true none,
    receiveKind_none there awake active wl2 2 true none, receiveKind_none there awake active wl2 3 true none, fun few close => ?_,
    fun run first => ?_⟩, fun h b n a good near plain => ⟨?_, fun idle none empty => ?_, fun new fits => ⟨fun m mem below least above close => ?_,
    fun none empty open_ carries loaded steady used => ⟨fun own addressed id hop unlisted => ?_, fun q foreign id route other unfenced => ?_⟩⟩,
    fun new full first => ?_, fun k replay near' => ⟨fun none empty => ?_, fun m fits inside mem other below least above close => ?_⟩,
    fun k void near' one empty => ?_⟩⟩
  case refine_1 =>
    have lag : (s.port p).rxPos - ((s.port p).bad ++ [(s.port p).rxPos]).foldl min ((s.port p).rxPos + 1) ≤ 16384 := by
      rw [foldl_min_append]
      exact close
    have bad : s.badUnit p = s.setPort p { (s.port p).tally .uncorr with
        uncorrAt := some s.gsc, margin := (s.port p).margin.map Margin.abort, rxPos := (s.port p).rxPos + 1
        bad := (s.port p).bad ++ [(s.port p).rxPos], naksDue := (s.port p).naksDue ++ [(s.port p).rxPos], badRun := (s.port p).badRun + 1 } :=
      (if_neg (Nat.not_le.mpr (Nat.succ_lt_succ few))).trans (if_neg (Nat.not_lt.mpr lag))
    refine ⟨_, uncorrectable_row there active wl2 none, ?_⟩
    rw [bad]
    refine ⟨⟨fun q other => State.port_setPort_other _ _ other, rfl⟩, ?_⟩
    rw [State.port_setPort]
    exact ⟨rfl, rfl, rfl, rfl, rfl, rfl⟩
  case refine_2 =>
    obtain ⟨w, counted⟩ : ∃ w : State, w = s.setPort p { (s.port p).tally .uncorr with
        uncorrAt := some s.gsc, margin := (s.port p).margin.map Margin.abort, rxPos := (s.port p).rxPos + 1
        bad := (s.port p).bad ++ [(s.port p).rxPos], naksDue := (s.port p).naksDue ++ [(s.port p).rxPos], badRun := (s.port p).badRun + 1 } :=
      ⟨_, rfl⟩
    have ends : s.badUnit p = w.retrain p 2 := by
      rw [counted]
      exact if_pos (Nat.le_of_eq (congrArg (· + 1) run).symm)
    obtain ⟨y, starts, state, cause, -, -⟩ := State.retrain_starts (s := w) (p := p) 2 (by rw [counted, State.port_setPort]; exact active)
      (by rw [counted, State.port_setPort]; exact first)
    have row := uncorrectable_row (u := u) there active wl2 none
    rw [ends, starts] at row
    refine ⟨_, row, ?_, ?_, ?_, fun q other => ?_⟩
    · rw [State.port_of_ports (State.event_ports ..), State.port_setPort, state]
    · rw [State.port_of_ports (State.event_ports ..), State.port_setPort, cause]
    · rw [State.event_job, counted]
      rfl
    · rw [State.port_of_ports (State.event_ports ..), State.port_setPort_other _ _ other, counted, State.port_setPort_other _ _ other]
  case refine_3 =>
    refine Eq.trans (b := execUncorrectableUnit p u s) rfl ?_
    unfold execUncorrectableUnit
    rw [if_neg (by omega)]
    exact if_pos (by rw [show unitParse (s.port p).rxPos u = some (h, b, n) from good]; rfl)
  case refine_4 => exact idleUnit_row there awake active wl2 good near plain idle none empty
  case refine_5 => exact newUnit_holds there awake active wl2 good near plain new fits mem below least above close
  case refine_6 =>
    obtain ⟨w, row, others, rest, pos, freed, cells, state, miswired, x8⟩ :=
      newUnit_delivers there awake active wl2 good near plain new fits none empty
    have fab := State.fab_of_rest rest
    rw [State.deliver_beacon true (by unfold State.fenced; rw [fab]; exact open_) (by unfold State.maintOnly; rw [fab, x8, miswired]; exact carries)
      (by unfold State.bank; rw [fab]; exact loaded) (by unfold State.bank; rw [fab]; exact steady)
      (by unfold State.bank; rw [fab]; exact used) (by rw [fab]; exact own) (by rw [fab]; exact addressed) id hop
      ((State.expected_of_rest rest _).trans unlisted)] at row
    have port : ∀ f, (w.withFab f).port p = w.port p := fun _ => rfl
    refine ⟨_, row, ?_, ?_, ?_, ?_, ?_, ?_⟩
    · rw [State.leave, State.port_setPort, port]
      exact pos
    · exact (congrArg State.job rest :)
    · exact (congrArg State.cores rest :)
    · rw [State.leave, State.setPort_fab, fab, show w.gsc = s.gsc from (congrArg State.gsc rest :)]
      rfl
    · rw [State.leave, State.port_setPort, port]
      exact (Map.find_put_same ..).trans (by rw [show (h.unit b).cls = h.cls from rfl, cells]; rfl)
    · rw [State.leave, State.port_setPort, port]
      exact (Map.find_put_same ..).trans (by rw [show (h.unit b).cls = h.cls from rfl, freed])
  case refine_7 =>
    obtain ⟨w, row, others, rest, pos, freed, cells, state, miswired, x8⟩ :=
      newUnit_delivers there awake active wl2 good near plain new fits none empty
    have fab := State.fab_of_rest rest
    have leads : w.egress (h.unit b).cls (h.unit b).dest (h.unit b).xfer (h.unit b).epoch = .port q :=
      (State.egress_of_rest rest others state miswired ..).trans route
    rw [State.deliver_routed true (by unfold State.fenced; rw [fab]; exact open_) (by unfold State.maintOnly; rw [fab, x8, miswired]; exact carries)
      (by unfold State.bank; rw [fab]; exact loaded) (by unfold State.bank; rw [fab]; exact steady)
      (by unfold State.bank; rw [fab]; exact used) (.inl id), leads] at row
    dsimp only at row
    rw [if_neg (by unfold State.fenced at unfenced ⊢; rw [fab, unfenced]; simp)] at row
    refine ⟨_, row, ?_, fab, (congrArg State.job rest :), ?_⟩
    · rw [State.port_setPort, others q other]
    · rw [State.port_setPort_other _ _ (Ne.symm other)]
      exact cells
  case refine_8 => exact newUnit_full there awake active wl2 good new full first
  case refine_9 => exact replayUnit_dup there awake active wl2 good near plain replay near' none empty
  case refine_10 => exact replayUnit_resolves there awake active wl2 good near plain replay near' fits inside mem other below least above close
  case refine_11 => exact voidUnit_resolves there awake active wl2 good near plain void near' one empty

end Sys2Proof.Machine

/-! PROOF. WL1 packets and end-to-end segments (R366, R367, R370 to R372). -/
namespace Sys2Proof.Machine

/-! ### WL1 packets (R366, R367) -/

/-- The port with a packet that cannot be decoded counted. -/
def LinkPort.undecoded (x : LinkPort) : LinkPort :=
  { (x.tally .fec 0).tally .uncorr with margin := x.margin.map Margin.abort, badRun := x.badRun + 1 }

theorem LinkPort.wl1Ask_unasked {x : LinkPort} (unasked : x.wl1Nak = none) (gsc : Nat) :
    x.wl1Ask gsc = { x with naksDue := [x.seqRx], wl1Nak := some gsc } := if_neg (by rw [unasked]; simp)

section Packets

variable {s : State} {p : Nat} (there : p < 16) (run : s.power.mode = .run)
include there run

theorem wl1Packet_ignored (b : Bytes) (fec : Option Nat) (ignored : (s.port p).state ≠ .active ∨ (s.port p).modeNow ≠ 2) :
    exec (.wl1Packet p b fec) s = .next s := by
  refine Eq.trans (b := execWl1Packet p b fec s) rfl ?_
  rw [execWl1Packet, if_neg (by omega), State.parkWake_run run]
  exact if_pos (by simpa using ignored)

variable (active : (s.port p).state = .active) (wl1 : (s.port p).modeNow = 2)
include active wl1

/-- A packet that cannot be decoded is asked for again. -/
theorem wl1Packet_bad (b : Bytes) (few : (s.port p).badRun < 63) (unasked : (s.port p).wl1Nak = none) :
    exec (.wl1Packet p b none) s =
      .next (s.setPort p { (s.port p).undecoded with naksDue := [(s.port p).seqRx], wl1Nak := some s.gsc }) := by
  refine Eq.trans (b := execWl1Packet p b none s) rfl ?_
  rw [execWl1Packet, if_neg (by omega), State.parkWake_run run]
  refine (if_neg (by simp [active, wl1])).trans ?_
  have asked := LinkPort.wl1Ask_unasked (x := (s.port p).undecoded) unasked s.gsc
  refine Eq.trans (b := .next (if 64 ≤ ((s.port p).undecoded.wl1Ask s.gsc).badRun
    then (s.setPort p ((s.port p).undecoded.wl1Ask s.gsc)).retrain p 2 else s.setPort p ((s.port p).undecoded.wl1Ask s.gsc))) rfl ?_
  rw [asked]
  exact congrArg Host.Outcome.next (if_neg (Nat.not_le.mpr (Nat.succ_lt_succ few)))

/-- A packet that decodes, without a NAK. -/
theorem wl1Packet_good {b : Bytes} {h : UnitHdr} {d : Bytes} (fec : Nat) (good : packetParse b = some (h, d)) (plain : h.sbk = false) :
    exec (.wl1Packet p b (some fec)) s =
      .next ((s.setPort p { ((s.port p).tally .fec fec).wl1Fields h with badRun := 0 }).wl1Take p h d) := by
  refine Eq.trans (b := execWl1Packet p b (some fec) s) rfl ?_
  rw [execWl1Packet, if_neg (by omega), State.parkWake_run run]
  refine (if_neg (by simp [active, wl1])).trans ?_
  simp only [Option.bind_some, good, plain, Bool.false_and]
  rfl

end Packets

/-- The credit of a packet changes neither the sequence nor the pool. -/
theorem LinkPort.wl1Fields_keeps {α : Type} (v : LinkPort → α)
    (kept : ∀ (x : LinkPort) buf resends seen out, v { x with replayBuf := buf, wl1Resends := resends, freedSeen := seen, out := out } = v x)
    (x : LinkPort) (h : UnitHdr) : v (x.wl1Fields h) = v x := by
  unfold LinkPort.wl1Fields
  dsimp only
  split
  · exact kept x _ _ x.freedSeen x.out
  · exact kept ..

/-- The port with a packet that decodes counted, and its credit taken. -/
def LinkPort.decoded (x : LinkPort) (fec : Nat) (h : UnitHdr) : LinkPort := { (x.tally .fec fec).wl1Fields h with badRun := 0 }

theorem LinkPort.decoded_keeps {α : Type} (v : LinkPort → α)
    (kept : ∀ (x : LinkPort) buf resends seen out count run, v { x with
      replayBuf := buf, wl1Resends := resends, freedSeen := seen, out := out, count := count, badRun := run } = v x)
    (x : LinkPort) (fec : Nat) (h : UnitHdr) : v (x.decoded fec h) = v x := by
  have same := LinkPort.wl1Fields_keeps (fun x => v { x with badRun := 0 })
    (fun x buf resends seen out => (kept x buf resends seen out x.count 0).trans (kept x x.replayBuf x.wl1Resends x.freedSeen x.out x.count 0).symm)
    (x.tally .fec fec) h
  exact same.trans (kept x x.replayBuf x.wl1Resends x.freedSeen x.out _ 0)

section Takes

variable {s : State} {p : Nat} {h : UnitHdr} (d : Bytes) (kind : h.kind = 0)
include kind

theorem State.wl1Take_behind (behind : 32768 ≤ (h.rseq + 65536 - (s.port p).seqRx) % 65536) :
    s.wl1Take p h d = s.setPort p ((s.port p).tally .dups) := by
  unfold State.wl1Take
  exact (if_neg (by simp [kind])).trans ((if_neg (by omega)).trans (if_neg (by omega)))

theorem State.wl1Take_ahead (ahead : 0 < (h.rseq + 65536 - (s.port p).seqRx) % 65536)
    (near : (h.rseq + 65536 - (s.port p).seqRx) % 65536 < 32768) : s.wl1Take p h d = s.setPort p ((s.port p).wl1Ask s.gsc) := by
  unfold State.wl1Take
  exact (if_neg (by simp [kind])).trans ((if_neg (by omega)).trans (if_pos near))

/-- The packet expected takes a cell and is delivered. -/
theorem State.wl1Take_expected (expected : (h.rseq + 65536 - (s.port p).seqRx) % 65536 = 0)
    (fits : cellFits (s.port p).cells h.cls = true) : s.wl1Take p h d = (s.setPort p { (s.port p).celled 0 (h.unit d) true with
      held := (s.port p).held, seqRx := ((s.port p).seqRx + 1) % 65536, wl1Nak := none }).deliver p (h.unit d) true := by
  unfold State.wl1Take
  refine (if_neg (by simp [kind])).trans ((if_pos expected).trans ?_)
  rw [LinkPort.accept_fits 0 true fits]

end Takes

section Packet

variable {s : State} {p fec : Nat} {b : Bytes} {h : UnitHdr} {d : Bytes} (there : p < 16) (run : s.power.mode = .run)
  (active : (s.port p).state = .active) (wl1 : (s.port p).modeNow = 2) (good : packetParse b = some (h, d)) (kind : h.kind = 0)
  (plain : h.sbk = false)
include there run active wl1 good kind plain

theorem wl1Packet_behind (behind : 32768 ≤ (h.rseq + 65536 - (s.port p).seqRx) % 65536) :
    completes (.wl1Packet p b (some fec)) s fun t => ((∀ q, q ≠ p → t.port q = s.port q) ∧ ({ t with ports := s.ports } : State) = s) ∧
      (t.port p).seqRx = (s.port p).seqRx ∧ (t.port p).badRun = 0 ∧
      (t.port p).count.find 0 11 = min ((s.port p).count.find 0 11 + 1) (2 ^ 64 - 1) ∧ (t.port p).cells = (s.port p).cells := by
  obtain ⟨w, decoded⟩ : ∃ w, w = s.setPort p ((s.port p).decoded fec h) := ⟨_, rfl⟩
  have port : w.port p = (s.port p).decoded fec h := by rw [decoded, State.port_setPort]
  have seq : ((s.port p).decoded fec h).seqRx = (s.port p).seqRx := LinkPort.decoded_keeps LinkPort.seqRx (fun _ _ _ _ _ _ _ => rfl) ..
  have row := wl1Packet_good there run active wl1 fec good plain
  rw [show s.setPort p { ((s.port p).tally .fec fec).wl1Fields h with badRun := 0 } = w from decoded.symm,
    State.wl1Take_behind d kind (by rw [port, seq]; exact behind), port] at row
  refine ⟨_, row, ⟨fun q other => ?_, by rw [decoded]; rfl⟩, ?_⟩
  · rw [State.port_setPort_other _ _ other, decoded, State.port_setPort_other _ _ other]
  rw [State.port_setPort]
  refine ⟨seq, rfl, ?_, LinkPort.decoded_keeps LinkPort.cells (fun _ _ _ _ _ _ _ => rfl) ..⟩
  have count : ((s.port p).decoded fec h).count = ((s.port p).tally .fec fec).count :=
    LinkPort.wl1Fields_keeps LinkPort.count (fun _ _ _ _ _ => rfl) ..
  refine (Map.find_put_same ..).trans ?_
  rw [count]
  exact congrArg (fun n => min (n + 1) (2 ^ 64 - 1)) (Map.find_put_other _ _ _ (by decide))

theorem wl1Packet_ahead (ahead : 0 < (h.rseq + 65536 - (s.port p).seqRx) % 65536)
    (near : (h.rseq + 65536 - (s.port p).seqRx) % 65536 < 32768) (unasked : (s.port p).wl1Nak = none) :
    completes (.wl1Packet p b (some fec)) s fun t => ((∀ q, q ≠ p → t.port q = s.port q) ∧ ({ t with ports := s.ports } : State) = s) ∧
      (t.port p).naksDue = [(s.port p).seqRx] ∧ (t.port p).seqRx = (s.port p).seqRx ∧ (t.port p).cells = (s.port p).cells := by
  obtain ⟨w, decoded⟩ : ∃ w, w = s.setPort p ((s.port p).decoded fec h) := ⟨_, rfl⟩
  have port : w.port p = (s.port p).decoded fec h := by rw [decoded, State.port_setPort]
  have seq : ((s.port p).decoded fec h).seqRx = (s.port p).seqRx := LinkPort.decoded_keeps LinkPort.seqRx (fun _ _ _ _ _ _ _ => rfl) ..
  have nak : ((s.port p).decoded fec h).wl1Nak = (s.port p).wl1Nak := LinkPort.decoded_keeps LinkPort.wl1Nak (fun _ _ _ _ _ _ _ => rfl) ..
  have row := wl1Packet_good there run active wl1 fec good plain
  rw [show s.setPort p { ((s.port p).tally .fec fec).wl1Fields h with badRun := 0 } = w from decoded.symm,
    State.wl1Take_ahead d kind (by rw [port, seq]; exact ahead) (by rw [port, seq]; exact near), port,
    LinkPort.wl1Ask_unasked (nak.trans unasked)] at row
  refine ⟨_, row, ⟨fun q other => ?_, by rw [decoded]; rfl⟩, ?_⟩
  · rw [State.port_setPort_other _ _ other, decoded, State.port_setPort_other _ _ other]
  rw [State.port_setPort, seq]
  exact ⟨rfl, rfl, LinkPort.decoded_keeps LinkPort.cells (fun _ _ _ _ _ _ _ => rfl) ..⟩

/-- A beacon that comes as the packet expected. -/
theorem wl1Packet_beacon (expected : (h.rseq + 65536 - (s.port p).seqRx) % 65536 = 0) (fits : cellFits (s.port p).cells h.cls = true)
    (open_ : s.fenced p = false) (carries : s.maintOnly p = false) (own : h.dest = s.fab.addr) (id : h.xfer = 0xFFFE) (hop : h.e2e = 0)
    (unlisted : s.expected h.xfer = none) (loaded : (s.bank h.epoch).state ≠ .empty) (steady : (s.bank h.epoch).state ≠ .draining)
    (used : (s.bank h.epoch).state ≠ .retired) :
    completes (.wl1Packet p b (some fec)) s fun t => (t.port p).seqRx = ((s.port p).seqRx + 1) % 65536 ∧ (t.port p).wl1Nak = none ∧
      t.fab.beacons = s.fab.beacons ++ [{ port := p, at_ := s.gsc, fresh := true, data := d }] ∧ t.job = s.job := by
  obtain ⟨w, decoded⟩ : ∃ w, w = s.setPort p ((s.port p).decoded fec h) := ⟨_, rfl⟩
  have port : w.port p = (s.port p).decoded fec h := by rw [decoded, State.port_setPort]
  have kept : ∀ {α : Type} (v : LinkPort → α), (∀ (x : LinkPort) buf resends seen out count run, v { x with
      replayBuf := buf, wl1Resends := resends, freedSeen := seen, out := out, count := count, badRun := run } = v x) →
      v (w.port p) = v (s.port p) := fun v kept => by rw [port]; exact LinkPort.decoded_keeps v kept ..
  have seq : (w.port p).seqRx = (s.port p).seqRx := kept LinkPort.seqRx fun _ _ _ _ _ _ _ => rfl
  have cells : (w.port p).cells = (s.port p).cells := kept LinkPort.cells fun _ _ _ _ _ _ _ => rfl
  have x8 : (w.port p).x8 = (s.port p).x8 := kept LinkPort.x8 fun _ _ _ _ _ _ _ => rfl
  have miswired : (w.port p).miswired = (s.port p).miswired := kept LinkPort.miswired fun _ _ _ _ _ _ _ => rfl
  have row := wl1Packet_good there run active wl1 fec good plain
  rw [show s.setPort p { ((s.port p).tally .fec fec).wl1Fields h with badRun := 0 } = w from decoded.symm,
    State.wl1Take_expected d kind (by rw [seq]; exact expected) (by rw [cells]; exact fits)] at row
  obtain ⟨v, taken⟩ : ∃ v, v = w.setPort p { (w.port p).celled 0 (h.unit d) true with
    held := (w.port p).held, seqRx := ((w.port p).seqRx + 1) % 65536, wl1Nak := none } := ⟨_, rfl⟩
  have vPort : (v.port p).x8 = (s.port p).x8 ∧ (v.port p).miswired = (s.port p).miswired ∧
      (v.port p).seqRx = ((s.port p).seqRx + 1) % 65536 ∧ (v.port p).wl1Nak = none := by
    rw [taken, State.port_setPort, ← seq, ← x8, ← miswired]
    exact ⟨rfl, rfl, rfl, rfl⟩
  obtain ⟨vX8, vMiswired, vSeq, vNak⟩ := vPort
  have rest : ({ v with ports := s.ports } : State) = s := by rw [taken, decoded]; rfl
  have fab := State.fab_of_rest rest
  have addressed : s.fab.addrValid = true := by
    have : (!s.fab.addrValid || (s.port p).x8 || (s.port p).miswired) = false := carries
    simp at this
    exact this.1.1
  rw [← taken, State.deliver_beacon true (.inl (by unfold State.fenced; rw [fab]; exact open_))
    (.inl (by unfold State.maintOnly; rw [fab, vX8, vMiswired]; exact carries)) (by unfold State.bank; rw [fab]; exact loaded)
    (by unfold State.bank; rw [fab]; exact steady) (by unfold State.bank; rw [fab]; exact used) (by rw [fab]; exact own)
    (by rw [fab]; exact addressed) id hop ((State.expected_of_rest rest _).trans unlisted)] at row
  have unchanged : ∀ f, (v.withFab f).port p = v.port p := fun _ => rfl
  refine ⟨_, row, ?_, ?_, ?_, (congrArg State.job rest :)⟩
  · rw [State.leave, State.port_setPort, unchanged]
    exact vSeq
  · rw [State.leave, State.port_setPort, unchanged]
    exact vNak
  · rw [State.leave, State.setPort_fab, fab, show v.gsc = s.gsc from (congrArg State.gsc rest :)]
    rfl

end Packet

/-! ### Segments sent again (R372) -/

section Resend

/-- The port without the segment `g`. -/
def LinkPort.without (x : LinkPort) (g : Seg) : LinkPort := { x with segs := x.segs.filter fun y => y ≠ g }

theorem LinkPort.without_segs {x : LinkPort} {g : Seg} (one : x.segs = [g]) : (x.without g).segs = [] := by
  unfold LinkPort.without
  rw [one]
  simp

theorem LinkPort.without_one {x : LinkPort} {g : Seg} (one : x.segs = [g]) : x.without g = { x with segs := [] } := by
  unfold LinkPort.without
  rw [one]
  simp

/-- The units of a segment as they are sent again. -/
def Seg.again (g : Seg) : List TxItem := g.units.map fun u => { unit := u, src := .own, seg := g.num, tid := g.tid }

variable {s : State} {p : Nat} {g : Seg}

theorem State.resendSeg_fails (spent : 4 ≤ g.resends) : s.resendSeg p g =
    if g.cls = 3 then (s.setPort p ((s.port p).without g)).event 0x0502 (BitVec.ofNat 64 g.cls)
    else (s.setPort p ((s.port p).without g)).jobFatal 0x0502 none (BitVec.ofNat 64 g.cls) := if_pos spent

theorem State.resendSeg_spent_ports (spent : 4 ≤ g.resends) (run : s.power.mode = .run) :
    (s.resendSeg p g).ports = (s.setPort p ((s.port p).without g)).ports := by
  have run' : (s.setPort p ((s.port p).without g)).power.mode = .run := run
  rw [State.resendSeg_fails spent]
  generalize s.setPort p ((s.port p).without g) = w at run' ⊢
  split
  · exact State.event_ports ..
  · exact State.jobFatal_ports run' ..

theorem State.jobFatal_raised {s : State} (run : s.power.mode = .run) {code : Nat} (a : W64) (low : code % 256 < 64) (there : srcOf code < 896) :
    ((s.jobFatal code none a).source (srcOf code)).state ≠ .idle := by
  have raised := State.raiseCode_raised s true a 0 low there
  have same : (s.jobFatal code none a).source (srcOf code) = (s.raiseCode code true a 0).source (srcOf code) := by
    unfold State.jobFatal
    rw [State.wake_run s run]
    dsimp only
    split <;> rfl
  rw [same]
  exact raised

/-- A segment given up: job-fatal but for MAINT. -/
theorem State.resendSeg_spent (spent : 4 ≤ g.resends) (run : s.power.mode = .run) :
    ((s.resendSeg p g).source (srcOf 0x0502)).state ≠ .idle ∧ (g.cls = 3 → (s.resendSeg p g).job = s.job) ∧
      (g.cls ≠ 3 → s.job.state.active = true → s.job.fault = 0#16 →
        (s.resendSeg p g).job.fault = 0x0502#16 ∧ (s.resendSeg p g).stop.isSome = true) := by
  have run' : (s.setPort p ((s.port p).without g)).power.mode = .run := run
  have job : (s.setPort p ((s.port p).without g)).job = s.job := rfl
  rw [State.resendSeg_fails spent, ← job]
  generalize s.setPort p ((s.port p).without g) = w at run' ⊢
  by_cases maint : g.cls = 3
  · rw [if_pos maint]
    exact ⟨State.raiseCode_raised _ _ _ _ (by decide) (by decide), fun _ => State.event_job .., fun data => absurd maint data⟩
  · rw [if_neg maint]
    refine ⟨State.jobFatal_raised run' _ (by decide) (by decide), fun yes => absurd yes maint, fun _ active first => ?_⟩
    rw [State.jobFatal_job (h := run'), State.jobFatal_stop (h := run'), if_pos active, if_pos active, JobStatus.note_first first]
    refine ⟨rfl, ?_⟩
    split <;> rfl

/-- A port with a segment sent again. -/
def LinkPort.resending (x : LinkPort) (g : Seg) : LinkPort :=
  { x with segs := x.segs ++ [{ g with resends := g.resends + 1, sentAt := none }], txq := x.txq ++ g.again }

theorem LinkPort.resending_segs {x : LinkPort} {g : Seg} (none : x.segs = []) :
    (x.resending g).segs = [{ g with resends := g.resends + 1, sentAt := .none }] := by
  unfold LinkPort.resending
  rw [none]
  rfl

theorem State.resendSeg_same (few : g.resends < 4) (data : g.cls ≠ 3) : s.resendSeg p g =
    (s.setPort p (((s.port p).tally .resends).without g)).setPort p ((((s.port p).tally .resends).without g).resending g) := by
  have port : (s.setPort p (((s.port p).tally .resends).without g)).port p = ((s.port p).tally .resends).without g := State.port_setPort ..
  unfold State.resendSeg
  exact (if_neg (by omega)).trans ((if_pos data).trans
    (congrArg (fun y : LinkPort => (s.setPort p (((s.port p).tally .resends).without g)).setPort p (y.resending g)) port))

/-- A port that holds a segment discarded once more behind the segments `l`. -/
def LinkPort.losing (x : LinkPort) (l : List Seg) (g : Seg) (gsc : Nat) : LinkPort :=
  { x with segs := l ++ [{ g with resends := g.resends + 1, sentAt := some gsc }] }

theorem LinkPort.losing_segs {x : LinkPort} {l : List Seg} (none : l = []) (g : Seg) (gsc : Nat) :
    (x.losing l g gsc).segs = [{ g with resends := g.resends + 1, sentAt := some gsc }] := by rw [none]; rfl

theorem LinkPort.losing_txq (x : LinkPort) (l : List Seg) (g : Seg) (gsc : Nat) : (x.losing l g gsc).txq = x.txq := rfl

theorem State.discardUnit_port (s : State) (dest cause p : Nat) : (s.discardUnit dest cause false).port p = s.port p := rfl

/-- A MAINT segment takes the port that leads to its destination now; without one it is discarded once more, and held. -/
theorem State.resendSeg_maint {w : State} (few : g.resends < 4) (maint : g.cls = 3)
    (ready : w = s.setPort p (((s.port p).tally .resends).without g)) : s.resendSeg p g =
      match w.maintRoute g.dest s.fab.active with
      | .port q => w.setPort q ((w.port q).resending g)
      | _ => (w.setPort p ((w.port p).losing ((s.port p).segs.filter fun y => y ≠ g) g s.gsc)).discardUnit g.dest 0 false := by
  subst ready
  unfold State.resendSeg
  exact (if_neg (by omega)).trans ((if_neg (by simp [maint])).trans rfl)

/-- Whatever becomes of it, the cores and GSC stay as they are. -/
theorem State.resendSeg_keeps {α : Type} (v : State → α) (kept : ∀ (s : State) q x, v (s.setPort q x) = v s)
    (lost : ∀ (s : State) dest cause, v (s.discardUnit dest cause false) = v s) (event : ∀ (s : State) c a b, v (s.event c a b) = v s)
    (fatal : ∀ (s : State), s.power.mode = .run → ∀ c a, v (s.jobFatal c none a) = v s) (run : s.power.mode = .run) :
    v (s.resendSeg p g) = v s := by
  unfold State.resendSeg
  dsimp only
  split
  · split
    · exact (event ..).trans (kept ..)
    · refine (fatal _ ?_ ..).trans (kept ..)
      exact run
  split
  · exact (kept ..).trans (kept ..)
  split
  · exact (kept ..).trans (kept ..)
  · exact (lost ..).trans ((kept ..).trans (kept ..))

/-- A change of the segments alone changes no route. -/
theorem State.maintRoute_without (dest epoch : Nat) :
    (s.setPort p (((s.port p).tally .resends).without g)).maintRoute dest epoch = s.maintRoute dest epoch := by
  have rest : ({ s.setPort p (((s.port p).tally .resends).without g) with ports := s.ports } : State) = s := rfl
  have route := State.egress_of_rest rest (fun _ other => State.port_setPort_other _ _ other) (p := p) (by rw [State.port_setPort]; rfl)
    (by rw [State.port_setPort]; rfl) 3 dest 0 epoch
  exact route

end Resend

theorem findSome?_of_unique {α β : Type} {f : α → Option β} {l : List α} {p : α} {a : β} (mem : p ∈ l) (here : f p = some a)
    (none : ∀ k ∈ l, k ≠ p → f k = none) : l.findSome? f = some a := by
  induction l with
  | nil => cases mem
  | cons k l ih =>
    by_cases same : k = p
    · rw [List.findSome?_cons, same, here]
    · rw [List.findSome?_cons, none k List.mem_cons_self same]
      exact ih ((List.mem_cons.mp mem).resolve_left (Ne.symm same)) fun j later => none j (List.mem_cons_of_mem _ later)

/-! ### Acknowledgements and timeouts (R370, R372) -/

section Acks

variable {s : State} {p : Nat} {g : Seg} {u : LUnit} {rest : List LUnit} (there : p < 16) (waits : s.fab.acks = u :: rest)
  (magic : sub u.data 0 4 = [0x57#8, 0x4C#8, 0x45#8, 0x41#8]) (one : (s.port p).segs = [g])
  (others : ∀ k, k < 16 → k ≠ p → (s.port k).segs = []) (dest : g.dest = fld u.data 4 4 % 2 ^ 18) (xfer : g.xfer = fld u.data 8 2)
  (num : g.num = fld u.data 10 2) (sent : g.sentAt.isSome = true)
include there waits magic one others dest xfer num sent

/-- The acknowledgement of the one segment that waits for it. -/
theorem ack_row : exec .e2eAcknowledgement s = .next (
    let t := s.withFab { s.fab with acks := rest }
    if fld u.data 12 4 = 0 then t.setPort p ((s.port p).without g) else t.resendSeg p g) := by
  refine Eq.trans (b := .next s.takeAck) rfl (congrArg Host.Outcome.next ?_)
  have found : (List.range 16).findSome? (fun k => (((s.withFab { s.fab with acks := rest }).port k).segs.find? fun y =>
      y.dest = fld u.data 4 4 % 2 ^ 18 && y.xfer = fld u.data 8 2 && y.num = fld u.data 10 2 && y.sentAt.isSome).map fun y => (k, y)) =
      some (p, g) := by
    refine findSome?_of_unique (List.mem_range.mpr there) ?_ fun k mem other => ?_
    · rw [show (s.withFab { s.fab with acks := rest }).port p = s.port p from rfl, one, List.find?_cons_of_pos (by simp [dest, xfer, num, sent])]
      rfl
    · rw [show (s.withFab { s.fab with acks := rest }).port k = s.port k from rfl, others k (List.mem_range.mp mem) other]
      rfl
  unfold State.takeAck
  simp only [waits, found]
  exact if_neg (by simp [magic])

theorem ack_released (released : fld u.data 12 4 = 0) : completes .e2eAcknowledgement s fun t => t.fab.acks = rest ∧ t.cores = s.cores ∧
    t.job = s.job ∧ t.port p = { s.port p with segs := [] } ∧ ∀ k, k ≠ p → t.port k = s.port k := by
  have row := ack_row there waits magic one others dest xfer num sent
  rw [if_pos released] at row
  refine ⟨_, row, rfl, rfl, rfl, ?_, fun k other => State.port_setPort_other _ _ other⟩
  rw [State.port_setPort]
  exact LinkPort.without_one one

theorem ack_again (unheard : fld u.data 12 4 ≠ 0) (few : g.resends < 4) (data : g.cls ≠ 3) :
    completes .e2eAcknowledgement s fun t => t.fab.acks = rest ∧ t.cores = s.cores ∧ t.job = s.job ∧
      (t.port p).segs = [{ g with resends := g.resends + 1, sentAt := none }] ∧ (t.port p).txq = (s.port p).txq ++ g.again ∧
      ∀ k, k ≠ p → t.port k = s.port k := by
  have row := ack_row there waits magic one others dest xfer num sent
  rw [if_neg unheard, State.resendSeg_same few data] at row
  refine ⟨_, row, rfl, rfl, rfl, ?_, ?_, fun k other => (State.port_setPort_other _ _ other).trans (State.port_setPort_other _ _ other)⟩
  · rw [State.port_setPort]
    exact LinkPort.resending_segs (LinkPort.without_segs (x := (s.port p).tally .resends) one)
  · rw [State.port_setPort]
    rfl

theorem ack_other {q : Nat} (unheard : fld u.data 12 4 ≠ 0) (few : g.resends < 4) (maint : g.cls = 3) (other : q ≠ p)
    (route : s.maintRoute g.dest s.fab.active = .port q) :
    completes .e2eAcknowledgement s fun t => t.fab.acks = rest ∧ t.job = s.job ∧ (t.port p).segs = [] ∧ (t.port p).txq = (s.port p).txq ∧
      (t.port q).txq = (s.port q).txq ++ g.again ∧
      (t.port q).segs = (s.port q).segs ++ [{ g with resends := g.resends + 1, sentAt := none }] := by
  have row := ack_row there waits magic one others dest xfer num sent
  obtain ⟨v, taken⟩ : ∃ v, v = s.withFab { s.fab with acks := rest } := ⟨_, rfl⟩
  have ports : v.ports = s.ports := by rw [taken, State.withFab_ports]
  have port := State.port_of_ports ports
  obtain ⟨w, ready⟩ : ∃ w, w = v.setPort p (((v.port p).tally .resends).without g) := ⟨_, rfl⟩
  have leads : w.maintRoute g.dest v.fab.active = .port q := by
    rw [ready, State.maintRoute_without, taken]
    exact route
  have mine : w.port p = ((s.port p).tally .resends).without g := by rw [ready, State.port_setPort, port p]
  have its : w.port q = s.port q := by rw [ready, State.port_setPort_other _ _ other, port q]
  rw [if_neg unheard, ← taken, State.resendSeg_maint few maint ready, leads] at row
  refine ⟨_, row, by rw [State.setPort_fab, ready, taken]; rfl, by rw [State.setPort_job, ready, taken]; rfl, ?_, ?_, ?_, ?_⟩
  · rw [State.port_setPort_other _ _ (Ne.symm other), mine]
    exact LinkPort.without_segs one
  · rw [State.port_setPort_other _ _ (Ne.symm other), mine]
    rfl
  · rw [State.port_setPort, its]
    rfl
  · rw [State.port_setPort, its]
    rfl

theorem ack_lost (unheard : fld u.data 12 4 ≠ 0) (few : g.resends < 4) (maint : g.cls = 3)
    (route : s.maintRoute g.dest s.fab.active = .discard) :
    completes .e2eAcknowledgement s fun t => t.fab.acks = rest ∧ t.job = s.job ∧
      (t.port p).segs = [{ g with resends := g.resends + 1, sentAt := some s.gsc }] ∧ (t.port p).txq = (s.port p).txq ∧
      t.fab.discards = min (s.fab.discards + 1) (2 ^ 64 - 1) := by
  have row := ack_row there waits magic one others dest xfer num sent
  obtain ⟨v, taken⟩ : ∃ v, v = s.withFab { s.fab with acks := rest } := ⟨_, rfl⟩
  have ports : v.ports = s.ports := by rw [taken, State.withFab_ports]
  have port := State.port_of_ports ports
  have gsc : v.gsc = s.gsc := by rw [taken, State.withFab_gsc]
  obtain ⟨w, ready⟩ : ∃ w, w = v.setPort p (((v.port p).tally .resends).without g) := ⟨_, rfl⟩
  have leads : w.maintRoute g.dest v.fab.active = .discard := by
    rw [ready, State.maintRoute_without, taken]
    exact route
  have fab : w.fab = { s.fab with acks := rest } := by rw [ready, State.setPort_fab, taken]; rfl
  have job : w.job = s.job := by rw [ready, State.setPort_job, taken]; rfl
  have mine : (w.port p).txq = (s.port p).txq := by rw [ready, State.port_setPort, port p]; rfl
  have alone : ((v.port p).segs.filter fun y => y ≠ g) = [] := by rw [port p]; exact LinkPort.without_segs one
  rw [if_neg unheard, ← taken, State.resendSeg_maint few maint ready, leads] at row
  refine ⟨_, row, ?_, job, ?_, ?_, ?_⟩
  · exact congrArg Fabric.acks fab
  · rw [State.discardUnit_port, State.port_setPort, LinkPort.losing_segs alone, gsc]
  · rw [State.discardUnit_port, State.port_setPort, LinkPort.losing_txq, mine]
  · have count : w.fab.discards = s.fab.discards := by rw [fab]
    exact congrArg (fun n => min (n + 1) (2 ^ 64 - 1)) count

end Acks

/-- E2E_NS passes after the trailer of the one segment that waits. -/
theorem e2eTimeout_row {s : State} {p n : Nat} {g : Seg} (there : p < 16) (one : (s.port p).segs = [g]) (sent : g.sentAt = some n) :
    exec (.e2eTimeout p) s = .next ((s.advanceTo (n + max 5000 (s.port p).e2eNs)).resendSeg p g) := by
  refine Eq.trans (b := execE2eTimeout p s) rfl ?_
  have found : (s.port p).segs.find? (fun g => g.sentAt.isSome) = some g := by
    rw [one, List.find?_cons_of_pos (by rw [sent]; rfl)]
  rw [execE2eTimeout, if_neg (by omega)]
  simp only [found, sent, Option.getD_some]

/-- What becomes of a segment whose time is over. -/
theorem e2eTimeout_shows {s : State} {p n : Nat} {g : Seg} (there : p < 16) (run : s.power.mode = .run) (one : (s.port p).segs = [g])
    (sent : g.sentAt = some n) :
    completes (.e2eTimeout p) s fun t => t.gsc = max s.gsc (n + max 5000 (s.port p).e2eNs) ∧ t.cores = s.cores ∧
      (g.cls ≠ 3 ∨ 4 ≤ g.resends → ∀ k, k ≠ p → t.port k = s.port k) ∧
      (g.resends < 4 → g.cls ≠ 3 → (t.port p).segs = [{ g with resends := g.resends + 1, sentAt := none }] ∧ t.job = s.job) ∧
      (4 ≤ g.resends → (t.port p).segs = [] ∧ (t.source (srcOf 0x0502)).state ≠ .idle ∧ (g.cls = 3 → t.job = s.job) ∧
        (g.cls ≠ 3 → s.job.state.active = true → s.job.fault = 0#16 → t.job.fault = 0x0502#16 ∧ t.stop.isSome = true)) := by
  have row := e2eTimeout_row there one sent
  obtain ⟨w, passed⟩ : ∃ w, w = s.advanceTo (n + max 5000 (s.port p).e2eNs) := ⟨_, rfl⟩
  have run' : w.power.mode = .run := passed ▸ (State.advanceTo_power_mode ..).trans run
  have ports : w.ports = s.ports := passed ▸ State.advanceTo_ports ..
  have port := State.port_of_ports ports
  have job : w.job = s.job := passed ▸ State.advanceTo_job ..
  rw [← passed] at row
  refine ⟨_, row, ?_, ?_, fun single k other => ?_, fun few data => ?_, fun spent => ?_⟩
  · refine (State.resendSeg_keeps State.gsc (fun _ _ _ => rfl) (fun _ _ _ => rfl) (fun _ _ _ _ => State.event_gsc ..)
      (fun _ run _ _ => State.jobFatal_gsc (h := run) ..) run').trans ?_
    rw [passed]
    exact State.advanceTo_gsc ..
  · refine (State.resendSeg_keeps State.cores (fun _ _ _ => rfl) (fun _ _ _ => rfl) (fun _ _ _ _ => State.event_cores ..)
      (fun _ _ _ _ => State.jobFatal_cores ..) run').trans ?_
    rw [passed]
    exact State.advanceTo_cores ..
  · by_cases few : g.resends < 4
    · rw [State.resendSeg_same few (single.resolve_right (by omega)), State.port_setPort_other _ _ other, State.port_setPort_other _ _ other,
        port k]
    · rw [State.port_of_ports (State.resendSeg_spent_ports (by omega) run'), State.port_setPort_other _ _ other, port k]
  · rw [State.resendSeg_same few data, State.port_setPort, port p]
    exact ⟨LinkPort.resending_segs (LinkPort.without_segs (x := (s.port p).tally .resends) one), job⟩
  · obtain ⟨raised, maint, data⟩ := State.resendSeg_spent (p := p) spent run'
    rw [job] at maint data
    refine ⟨?_, raised, maint, data⟩
    rw [State.port_of_ports (State.resendSeg_spent_ports spent run'), State.port_setPort, port p]
    exact LinkPort.without_segs one

/-! ### Landing what a segment brings (R371, R385) -/

/-- What a unit's way to its landing area leaves alone: the job, the cores, the routes, the segments under way and what waits at a
port. -/
def State.routing (s : State) : JobStatus × Map Core × (Nat × Bool × Map Bank × Nat × Nat) × (List LUnit × List E2eRx × List E2eSeen) ×
    (Nat → List TxItem × PortState × Bool) :=
  (s.job, s.cores, (s.fab.addr, s.fab.addrValid, s.fab.banks, s.fab.active, s.fab.fence), (s.fab.trailers, s.fab.e2eRx, s.fab.e2eSeen),
    fun q => ((s.port q).txq, (s.port q).state, (s.port q).miswired))

theorem State.leave_routing (s : State) (src : UnitSrc) (u : LUnit) : (s.leave src u).routing = s.routing := by
  cases src with
  | own => rfl
  | stage c h n => rfl
  | pool p =>
    have ports : (fun q => (((s.setPort p ((s.port p).release u.cls)).port q).txq, ((s.setPort p ((s.port p).release u.cls)).port q).state,
        ((s.setPort p ((s.port p).release u.cls)).port q).miswired)) = fun q => ((s.port q).txq, (s.port q).state, (s.port q).miswired) :=
      funext fun q => by
        by_cases same : q = p
        · rw [same, State.port_setPort]
          rfl
        · rw [State.port_setPort_other _ _ same]
    exact congrArg (fun f => (s.job, s.cores, (s.fab.addr, s.fab.addrValid, s.fab.banks, s.fab.active, s.fab.fence),
      (s.fab.trailers, s.fab.e2eRx, s.fab.e2eSeen), f)) ports

theorem State.landFabric_routing {s t : State} {xfer : Nat} {b : Bytes} (landed : s.landFabric xfer b = some t) : t.routing = s.routing := by
  unfold State.landFabric at landed
  split at landed
  · cases landed
  · dsimp only at landed
    split at landed
    · cases landed
    · cases landed
      rfl

/-- One unit that waits for the landing area of queue `k`, after those still kept back. -/
def State.pumpUnit (x : State × List TxItem × List Nat) (it : TxItem) (k : Nat) : State × List TxItem × List Nat :=
  if x.2.2.contains k then (x.1, x.2.1 ++ [it], x.2.2)
  else
    match x.1.landFabric it.unit.xfer it.unit.bytes with
    | some t => (t.leave it.src it.unit, x.2.1, x.2.2)
    | none => (x.1, x.2.1 ++ [it], k :: x.2.2)

theorem State.pumpUnit_routing (x : State × List TxItem × List Nat) (it : TxItem) (k : Nat) :
    (State.pumpUnit x it k).1.routing = x.1.routing := by
  unfold State.pumpUnit
  split
  · rfl
  · split
    next landed => exact (State.leave_routing ..).trans (State.landFabric_routing landed)
    · rfl

theorem State.switchPump_routing (s : State) : s.switchPump.routing = s.routing := by
  unfold State.switchPump
  generalize pumped : List.foldl _ _ s.fab.switch = r
  have kept : r.1.routing = s.routing := by
    rw [← pumped]
    exact foldl_keeps (fun x : State × List TxItem × List Nat => x.1.routing) _ (fun x it => State.pumpUnit_routing x it _) _ _
  exact kept

theorem State.ownPort_of_routing {s t : State} (same : t.routing = s.routing) (cls dest xfer epoch : Nat) :
    t.ownPort cls dest xfer epoch = s.ownPort cls dest xfer epoch := by
  unfold State.routing at same
  simp only [Prod.mk.injEq] at same
  obtain ⟨-, -, ⟨addr, valid, banks, -, fence⟩, -, ports⟩ := same
  have good : ∀ q, t.goodPort q = s.goodPort q := fun q => by
    have port := congrFun ports q
    simp only [Prod.mk.injEq] at port
    unfold State.goodPort
    rw [port.2.1, port.2.2]
  unfold State.ownPort State.egress State.maintRoute State.bank State.fenced
  simp only [good, addr, valid, banks, fence]

/-! ### Trailers (R370, R371) -/

theorem State.e2eSeenOf_key (s : State) (src xfer cls : Nat) :
    (s.e2eSeenOf src xfer cls).src = src ∧ (s.e2eSeenOf src xfer cls).xfer = xfer ∧ (s.e2eSeenOf src xfer cls).cls = cls := by
  unfold State.e2eSeenOf
  cases found : s.fab.e2eSeen.find? fun e => e.src = src && e.xfer = xfer && e.cls = cls with
  | none => exact ⟨rfl, rfl, rfl⟩
  | some e => simpa [and_assoc] using List.find?_some found

theorem State.e2eSeenOf_set (s : State) {e : E2eSeen} {src xfer cls : Nat} (key : e.src = src ∧ e.xfer = xfer ∧ e.cls = cls) :
    (s.setE2eSeen e).e2eSeenOf src xfer cls = e := by
  obtain ⟨rfl, rfl, rfl⟩ := key
  unfold State.e2eSeenOf State.setE2eSeen
  rw [List.find?_cons_of_pos (by simp)]
  rfl

theorem State.e2eRxOf_set (s : State) (xfer cls : Nat) (held : List TxItem) :
    (s.setE2eRx { xfer := xfer, cls := cls, held := held }).e2eRxOf xfer cls = { xfer := xfer, cls := cls, held := held } := by
  unfold State.e2eRxOf State.setE2eRx
  rw [List.find?_cons_of_pos (by simp)]
  rfl

/-- The module with the oldest trailer taken and what its segment has brought handed on. -/
def State.collected (s : State) (u : LUnit) (rest : List LUnit) : State :=
  (s.withFab { s.fab with trailers := rest }).setE2eRx { xfer := fld u.data 8 2, cls := u.cls, held := [] }

/-- The module once the transfer's record shows the segment. -/
def State.counted (s : State) (u : LUnit) (accepted : Bool) (e : E2eSeen) (n : Nat) : State :=
  if accepted then s.setE2eSeen (s.segAccepted e u n) else s

theorem State.counted_keeps {α : Type} (v : State → α) (kept : ∀ (s : State) e, v (s.setE2eSeen e) = v s) (s : State) (u : LUnit)
    (accepted : Bool) (e : E2eSeen) (n : Nat) : v (s.counted u accepted e n) = v s := by
  cases accepted
  · rfl
  · exact kept ..

theorem State.counted_seen (s : State) (u : LUnit) (accepted : Bool) {e : E2eSeen} (n : Nat) {src xfer cls : Nat}
    (key : e.src = src ∧ e.xfer = xfer ∧ e.cls = cls) : (s.counted u accepted e n).e2eSeenOf src xfer cls =
      if accepted then s.segAccepted e u n else s.e2eSeenOf src xfer cls := by
  cases accepted
  · rfl
  · exact State.e2eSeenOf_set s key

/-- The module once the segment's units have gone to their landing area, or left. -/
def State.settled (s : State) (u : LUnit) (accepted : Bool) (held : List TxItem) : State :=
  if accepted && fld u.data 8 2 < 0xFF00 then (s.withFab { s.fab with switch := s.fab.switch ++ held }).switchPump
  else held.foldl (fun s i => s.leave i.src i.unit) s

theorem State.settled_routing (s : State) (u : LUnit) (accepted : Bool) (held : List TxItem) :
    (s.settled u accepted held).routing = s.routing := by
  unfold State.settled
  split
  · exact (State.switchPump_routing _).trans rfl
  · exact foldl_keeps State.routing _ (fun s i => s.leave_routing i.src i.unit) held s

/-- The acknowledgement of a segment whose source can be reached. -/
theorem State.ackSegment_sends {s : State} {u : LUnit} {src res q : Nat}
    (route : s.ownPort (if u.cls = 3 then 3 else 2) src (fld u.data 8 2) s.fab.active = some (.inl q)) :
    s.ackSegment u src res = s.setPort q { s.port q with txq := (s.port q).txq ++
      (cutUnits (if u.cls = 3 then 3 else 2) src s.fab.active (fld u.data 8 2) 3 (padTo 256 ([0x57#8, 0x4C#8, 0x45#8, 0x41#8] ++
        leBytes 4 s.fab.addr ++ leBytes 2 (fld u.data 8 2) ++ leBytes 2 (fld u.data 10 2) ++ leBytes 4 res))).map fun v =>
          { unit := v, src := .own, seg := 0, tid := 0 } } := by
  unfold State.ackSegment
  simp only [route]

section Trailers

variable {s : State} {u : LUnit} {rest : List LUnit} (waits : s.fab.trailers = u :: rest)
  (magic : sub u.data 0 4 = [0x57#8, 0x4C#8, 0x45#8, 0x54#8])
  (plain : (s.e2eSeenOf (fld u.data 4 4 % 2 ^ 18) (fld u.data 8 2) u.cls).whole = false ∨ fld u.data 10 2 ≠ 0)
include waits magic plain

theorem trailer_row {res : Nat} {accepted : Bool}
    (judged : (s.e2eSeenOf (fld u.data 4 4 % 2 ^ 18) (fld u.data 8 2) u.cls).judge u
      ((s.e2eRxOf (fld u.data 8 2) u.cls).held.flatMap fun i => i.unit.bytes) = (res, accepted)) :
    exec .e2eTrailer s = .next ((((s.collected u rest).counted u accepted (s.e2eSeenOf (fld u.data 4 4 % 2 ^ 18) (fld u.data 8 2) u.cls)
      ((s.e2eRxOf (fld u.data 8 2) u.cls).held.flatMap fun i => i.unit.bytes).length).settled u accepted
        (s.e2eRxOf (fld u.data 8 2) u.cls).held).ackSegment u (fld u.data 4 4 % 2 ^ 18) res) := by
  refine Eq.trans (b := .next s.takeTrailer) rfl (congrArg Host.Outcome.next ?_)
  have trailer : (s.collected u rest).trailerOf (fld u.data 4 4 % 2 ^ 18) u =
      (s.e2eSeenOf (fld u.data 4 4 % 2 ^ 18) (fld u.data 8 2) u.cls, s.collected u rest) := by
    unfold State.trailerOf
    refine if_pos ?_
    have plain : ((s.collected u rest).e2eSeenOf (fld u.data 4 4 % 2 ^ 18) (fld u.data 8 2) u.cls).whole = false ∨ fld u.data 10 2 ≠ 0 := plain
    rcases plain with begun | later
    · rw [begun]
      rfl
    · simp [later]
  have rx : (s.withFab { s.fab with trailers := rest }).e2eRxOf (fld u.data 8 2) u.cls = s.e2eRxOf (fld u.data 8 2) u.cls := rfl
  unfold State.takeTrailer
  simp only [waits]
  refine (if_neg (by simp [magic])).trans ?_
  unfold State.collected at trailer
  simp only [rx, trailer, judged]
  rfl

/-- The answer goes out, and the transfer's record holds what was accepted. -/
theorem trailer_answers {res q : Nat} {accepted : Bool}
    (judged : (s.e2eSeenOf (fld u.data 4 4 % 2 ^ 18) (fld u.data 8 2) u.cls).judge u
      ((s.e2eRxOf (fld u.data 8 2) u.cls).held.flatMap fun i => i.unit.bytes) = (res, accepted))
    (route : s.ownPort (if u.cls = 3 then 3 else 2) (fld u.data 4 4 % 2 ^ 18) (fld u.data 8 2) s.fab.active = some (.inl q)) :
    completes .e2eTrailer s fun t => (t.fab.trailers = rest ∧ t.job = s.job ∧ t.cores = s.cores ∧
        (t.e2eRxOf (fld u.data 8 2) u.cls).held = [] ∧
        (t.port q).txq = (s.port q).txq ++ (cutUnits (if u.cls = 3 then 3 else 2) (fld u.data 4 4 % 2 ^ 18) s.fab.active (fld u.data 8 2) 3
          (padTo 256 ([0x57#8, 0x4C#8, 0x45#8, 0x41#8] ++ leBytes 4 s.fab.addr ++ leBytes 2 (fld u.data 8 2) ++ leBytes 2 (fld u.data 10 2) ++
            leBytes 4 res))).map fun v => { unit := v, src := .own, seg := 0, tid := 0 }) ∧
      t.e2eSeenOf (fld u.data 4 4 % 2 ^ 18) (fld u.data 8 2) u.cls =
        if accepted then (s.collected u rest).segAccepted (s.e2eSeenOf (fld u.data 4 4 % 2 ^ 18) (fld u.data 8 2) u.cls) u
          ((s.e2eRxOf (fld u.data 8 2) u.cls).held.flatMap fun i => i.unit.bytes).length
        else s.e2eSeenOf (fld u.data 4 4 % 2 ^ 18) (fld u.data 8 2) u.cls := by
  have row := trailer_row waits magic plain judged
  obtain ⟨c, counted⟩ : ∃ c, c = (s.collected u rest).counted u accepted (s.e2eSeenOf (fld u.data 4 4 % 2 ^ 18) (fld u.data 8 2) u.cls)
      ((s.e2eRxOf (fld u.data 8 2) u.cls).held.flatMap fun i => i.unit.bytes).length := ⟨_, rfl⟩
  obtain ⟨v, settled⟩ : ∃ v, v = c.settled u accepted (s.e2eRxOf (fld u.data 8 2) u.cls).held := ⟨_, rfl⟩
  rw [← counted, ← settled] at row
  have routing : v.routing = c.routing := by rw [settled, State.settled_routing]
  have kept : ∀ {α : Type} (v : State → α), (∀ (s : State) e, v (s.setE2eSeen e) = v s) → v c = v (s.collected u rest) := fun v kept => by
    rw [counted]
    exact State.counted_keeps v kept ..
  have job : c.job = s.job := kept State.job fun _ _ => rfl
  have cores : c.cores = s.cores := kept State.cores fun _ _ => rfl
  have trailers : c.fab.trailers = rest := kept (fun s => s.fab.trailers) fun _ _ => rfl
  have rx : (c.e2eRxOf (fld u.data 8 2) u.cls).held = [] := (kept (fun s => (s.e2eRxOf (fld u.data 8 2) u.cls).held) fun _ _ => rfl).trans
    (congrArg E2eRx.held (State.e2eRxOf_set (s.withFab { s.fab with trailers := rest }) (fld u.data 8 2) u.cls []))
  have ports : c.ports = s.ports := kept State.ports fun _ _ => rfl
  have addr : c.fab.addr = s.fab.addr := kept (fun s => s.fab.addr) fun _ _ => rfl
  have active : c.fab.active = s.fab.active := kept (fun s => s.fab.active) fun _ _ => rfl
  have own : ∀ cls dest xfer epoch, c.ownPort cls dest xfer epoch = s.ownPort cls dest xfer epoch :=
    fun cls dest xfer epoch => kept (fun s => s.ownPort cls dest xfer epoch) fun _ _ => rfl
  have seen := (s.collected u rest).counted_seen u accepted ((s.e2eRxOf (fld u.data 8 2) u.cls).held.flatMap fun i => i.unit.bytes).length
    (s.e2eSeenOf_key (fld u.data 4 4 % 2 ^ 18) (fld u.data 8 2) u.cls)
  rw [← counted] at seen
  have same := routing
  unfold State.routing at same
  simp only [Prod.mk.injEq] at same
  obtain ⟨vJob, vCores, ⟨vAddr, -, -, vActive, -⟩, ⟨vTrailers, vRx, vSeen⟩, vPorts⟩ := same
  have leads : v.ownPort (if u.cls = 3 then 3 else 2) (fld u.data 4 4 % 2 ^ 18) (fld u.data 8 2) v.fab.active = some (.inl q) := by
    rw [vActive, active, State.ownPort_of_routing routing, own]
    exact route
  have port : (v.port q).txq = (s.port q).txq := (congrArg Prod.fst (congrFun vPorts q)).trans (congrArg LinkPort.txq (State.port_of_ports ports q))
  rw [State.ackSegment_sends leads] at row
  refine ⟨_, row, ⟨vTrailers.trans trailers, vJob.trans job, vCores.trans cores, ?_, ?_⟩, ?_⟩
  · refine Eq.trans ?_ rx
    exact congrArg (fun l : List E2eRx => ((l.find? fun e => e.xfer = fld u.data 8 2 && e.cls = u.cls).getD
      { xfer := fld u.data 8 2, cls := u.cls, held := [] }).held) vRx
  · rw [State.port_setPort]
    dsimp only
    rw [port, vActive, active, vAddr, addr]
  · refine Eq.trans ?_ seen
    exact congrArg (fun l : List E2eSeen => (l.find? fun e => e.src = fld u.data 4 4 % 2 ^ 18 && e.xfer = fld u.data 8 2 && e.cls = u.cls).getD
      { src := fld u.data 4 4 % 2 ^ 18, xfer := fld u.data 8 2, cls := u.cls, next := 0, got := 0, whole := false, first := [] }) vSeen

end Trailers

/-! ### How a trailer is judged (R371) -/

section Judge

variable {e : E2eSeen} {u : LUnit} {b : Bytes}

theorem E2eSeen.judge_whole (next : fld u.data 10 2 = e.next) (length : b.length = fld u.data 12 4) (digest : sha384 b = sub u.data 16 48) :
    e.judge u b = (0, true) := by
  unfold E2eSeen.judge
  exact (if_neg (by omega)).trans ((if_neg (by omega)).trans ((if_neg (by simp [length])).trans (if_pos digest)))

theorem E2eSeen.judge_damaged (next : fld u.data 10 2 = e.next) (length : b.length = fld u.data 12 4) (digest : sha384 b ≠ sub u.data 16 48) :
    e.judge u b = (1, false) := by
  unfold E2eSeen.judge
  exact (if_neg (by omega)).trans ((if_neg (by omega)).trans ((if_neg (by simp [length])).trans (if_neg digest)))

theorem E2eSeen.judge_earlier (earlier : fld u.data 10 2 < e.next) : e.judge u b = (0, false) := by
  unfold E2eSeen.judge
  exact (if_neg (by omega)).trans (if_pos earlier)

theorem E2eSeen.judge_incomplete (incomplete : e.next < fld u.data 10 2 ∨ (fld u.data 10 2 = e.next ∧ b.length ≠ fld u.data 12 4)) :
    e.judge u b = (2, false) := by
  unfold E2eSeen.judge
  rcases incomplete with later | ⟨next, short⟩
  · exact if_pos later
  · exact (if_neg (by omega)).trans ((if_neg (by omega)).trans (if_pos short))

end Judge

/-- Settles O51: packets and segments are taken in their order, asked for again, and given up after four resends. -/
theorem packetsAndSegments : Obligations.PacketsAndSegments := by
  intro s p there run
  refine ⟨wl1Packet_ignored there run, fun active wl1 b => ⟨fun few unasked => ?_, fun h d fec good kind plain => ⟨fun behind => ?_,
    fun ahead near unasked => ?_, fun expected fits open_ carries own id hop unlisted loaded steady used => ?_⟩⟩, fun none => ?_,
    fun u rest q waits magic => ?_, fun u rest waits magic => ?_, fun none => ?_,
    fun u rest g waits magic one others dest xfer num sent => ⟨fun released => ?_, fun unheard few data => ?_, fun unheard few maint => ⟨
      fun q other route => ?_, fun route => ?_⟩⟩, fun none => ?_, fun g n one sent => ?_⟩
  case refine_1 =>
    refine ⟨_, wl1Packet_bad there run active wl1 b few unasked, ⟨fun q other => State.port_setPort_other _ _ other, rfl⟩, ?_⟩
    rw [State.port_setPort]
    exact ⟨rfl, rfl, rfl, rfl⟩
  case refine_2 => exact wl1Packet_behind there run active wl1 good kind plain behind
  case refine_3 => exact wl1Packet_ahead there run active wl1 good kind plain ahead near unasked
  case refine_4 =>
    exact wl1Packet_beacon there run active wl1 good kind plain expected fits open_ carries own id hop unlisted loaded steady used
  case refine_5 =>
    have idle : s.takeTrailer = s := by
      unfold State.takeTrailer
      simp only [none]
    exact congrArg Host.Outcome.next idle
  case refine_6 =>
    intro src xfer seg e b seen cls route plain answers
    refine ⟨fun next length digest => ?_, fun earlier => ?_, fun next length digest => ?_, fun incomplete => ?_⟩
    · obtain ⟨t, row, answers, seen⟩ := trailer_answers waits magic plain (E2eSeen.judge_whole next length digest) route
      exact ⟨t, row, answers, congrArg E2eSeen.next seen, congrArg E2eSeen.got seen⟩
    · exact trailer_answers waits magic plain (E2eSeen.judge_earlier earlier) route
    · exact trailer_answers waits magic plain (E2eSeen.judge_damaged next length digest) route
    · exact trailer_answers waits magic plain (E2eSeen.judge_incomplete incomplete) route
  case refine_7 =>
    refine Eq.trans (b := .next s.takeTrailer) rfl (congrArg Host.Outcome.next ?_)
    unfold State.takeTrailer
    simp only [waits]
    exact if_pos magic
  case refine_8 =>
    have idle : s.takeAck = s := by
      unfold State.takeAck
      simp only [none]
    exact congrArg Host.Outcome.next idle
  case refine_9 => exact ack_released there waits magic one others dest xfer num sent released
  case refine_10 => exact ack_again there waits magic one others dest xfer num sent unheard few data
  case refine_11 => exact ack_other there waits magic one others dest xfer num sent unheard few maint other route
  case refine_12 => exact ack_lost there waits magic one others dest xfer num sent unheard few maint route
  case refine_13 =>
    refine Eq.trans (b := execE2eTimeout p s) rfl ?_
    rw [execE2eTimeout, if_neg (by omega)]
    simp only [none, List.find?_nil]
  case refine_14 => exact e2eTimeout_shows there run one sent

end Sys2Proof.Machine

/-! PROOF. Mailboxes, the function's resets, the BAR2 window, DMA and the watchdog (R416, R417, R419, R423 to R428, R464, R492, R504). -/
namespace Sys2Proof.Machine

/-! ### A reset of the function (R416, R504) -/

/-- A job-fatal fault in any power state leaves the bytes of the far memory. -/
theorem State.wake_farMem (s : State) : s.wake.far.mem = s.far.mem := by
  unfold State.wake State.toRun
  split
  · rfl
  · split <;> simp

theorem State.jobFatal_farMem (s : State) (code : Nat) (r : Option Nat) (a b : W64) (k n : Option Nat) :
    (s.jobFatal code r a b k n).far.mem = s.far.mem := by
  unfold State.jobFatal
  dsimp only
  split <;> simp [State.wake_farMem]

theorem State.wake_perstN (s : State) : s.wake.power.perstN = s.power.perstN := by
  unfold State.wake State.toRun State.advanceTo
  split
  · rfl
  · split
    · split <;> rfl
    · rfl

theorem State.jobFatal_perstN (s : State) (code : Nat) (r : Option Nat) (a b : W64) (k n : Option Nat) :
    (s.jobFatal code r a b k n).power.perstN = s.power.perstN := by
  unfold State.jobFatal
  dsimp only
  split <;> simp [State.wake_perstN]

/-- The first fault of a job under way is noted, whatever the power state. -/
theorem State.jobFatal_noted {s : State} (active : s.job.state.active = true) (first : s.job.fault = 0#16) (code : Nat) :
    (s.jobFatal code).job.fault = BitVec.ofNat 16 code ∧ (s.jobFatal code).stop.isSome = true := by
  unfold State.jobFatal
  dsimp only
  rw [State.raiseCode_job, State.wake_job, if_pos active, JobStatus.note_first first]
  refine ⟨rfl, ?_⟩
  dsimp only
  split <;> rfl

/-- A reset of the function: what a mailbox asked for goes on unanswered. -/
def State.detached (s : State) : State :=
  { s with
    cas := { s.cas with loads := s.cas.loads.map fun l => l.detach, unloads := s.cas.unloads.filter fun u => 8 ≤ u.2 }
    ports := s.ports.map fun e => (e.1, e.2.dropMargin)
    fab := { s.fab with launch := s.fab.launch.map Launch.detach } }

/-- Then the ring registers. -/
def State.ringless (s : State) : State :=
  let z := Records.init
  { s with
    srv := { s.srv with rq := [], cq := s.srv.cq.map fun e => (e.1, { CplRing.init with held := e.2.held }) }
    recs := { s.recs with
      base := z.base, log2 := z.log2, enable := z.enable, vector := z.vector, sealMs := z.sealMs, head := z.head, tail := z.tail } }

/-- Then the log, the mailboxes, the interrupts and the windows. -/
def HostBlk.functionless (h : HostBlk) : HostBlk :=
  { h with
    evc := { h.evc with evlBase := 0#64, evlLog2 := 8, evlEnable := false, evlVector := 0, evlLost := 0, evlHead := 0, evlTail := 0 }
    chans := h.chans.filter fun c => 8 ≤ c.1
    order := h.order.filter fun c => 8 ≤ c
    msix := [], win := [], pci := .init }

theorem State.resetFunction_eq (s : State) :
    s.resetFunction = { s.detached.ringless with host := s.host.functionless } := rfl

/-- What a reset of the function leaves of the module. -/
structure State.functionResets (s t : State) : Prop where
  rq : t.srv.rq = []
  msix : t.host.msix = []
  win : t.host.win = []
  recs : t.recs.enable = false ∧ t.recs.tail = 0#32
  log : t.host.evc.evlEnable = false
  chans : ∀ k ∈ t.host.chans, 8 ≤ k.1
  order : ∀ k ∈ t.host.order, 8 ≤ k
  cpl : ∀ r, (t.cpl r).enable = false ∧ (t.cpl r).held = (s.cpl r).held
  cores : t.cores = s.cores
  ss : t.ss = s.ss
  far : t.far.mem = s.far.mem
  image : t.image = s.image
  pci : t.host.pci = .init

/-- The job-fatal fault of a job under way. -/
structure State.faults (s t : State) (code : W16) : Prop where
  fault : s.job.state.active = true → s.job.fault = 0#16 → t.job.fault = code ∧ t.stop.isSome = true
  idle : s.job.state.active = false → t.job = s.job ∧ t.stop = s.stop

theorem State.resetFunction_resets (s : State) : s.functionResets s.resetFunction := by
  rw [s.resetFunction_eq]
  refine ⟨rfl, rfl, rfl, ⟨rfl, rfl⟩, rfl, fun k mem => ?_, fun k mem => ?_, fun r => ?_, rfl, rfl, rfl, rfl, rfl⟩
  · have kept : k ∈ s.host.chans.filter fun c => 8 ≤ c.1 := mem
    simpa using (List.mem_filter.mp kept).2
  · have kept : k ∈ s.host.order.filter fun c => 8 ≤ c := mem
    simpa using (List.mem_filter.mp kept).2
  · have ring : s.detached.ringless.cpl r = { CplRing.init with held := (s.cpl r).held } :=
      Map.find_mapValues s.srv.cq (fun x => { CplRing.init with held := x.held }) rfl r
    exact ⟨(congrArg CplRing.enable ring :), (congrArg CplRing.held ring :)⟩

theorem State.resetFunction_job (s : State) : s.resetFunction.job = s.job := by
  rw [s.resetFunction_eq]
  rfl

theorem State.resetFunction_stop (s : State) : s.resetFunction.stop = s.stop := by
  rw [s.resetFunction_eq]
  rfl

theorem State.resetFunction_power (s : State) : s.resetFunction.power = s.power := by
  rw [s.resetFunction_eq]
  rfl

theorem State.functionReset_resets (s : State) (code : Nat) :
    s.functionResets (s.functionReset code) ∧ s.faults (s.functionReset code) (BitVec.ofNat 16 code) ∧
      (s.functionReset code).power.perstN = s.power.perstN := by
  unfold State.functionReset
  split
  case isTrue active =>
    obtain ⟨rq, msix, win, recs, log, chans, order, cpl, cores, ss, far, image, pci⟩ := (s.jobFatal code).resetFunction_resets
    refine ⟨⟨rq, msix, win, recs, log, chans, order, fun r => ⟨(cpl r).1, (cpl r).2.trans ?_⟩, cores.trans (State.jobFatal_cores ..),
      ss.trans (State.jobFatal_ss ..), far.trans (State.jobFatal_farMem ..), image.trans (State.jobFatal_image ..), pci⟩,
      ⟨fun active first => ?_, fun idle => absurd active (by simp [idle])⟩, ?_⟩
    · unfold State.cpl
      rw [State.jobFatal_srv]
    · rw [State.resetFunction_job, State.resetFunction_stop]
      exact State.jobFatal_noted active first code
    · rw [State.resetFunction_power]
      exact State.jobFatal_perstN ..
  case isFalse idle =>
    refine ⟨s.resetFunction_resets, ⟨fun active => absurd active idle, fun _ => ⟨s.resetFunction_job, s.resetFunction_stop⟩⟩, ?_⟩
    rw [State.resetFunction_power]

/-! ### Mailboxes (R423, R424) -/

section Doorbell

variable {s : State} {ch : Nat} {seq : W32} (there : ch < 8) (hears : s.deaf = false)
include there

theorem mbDoorbell_deaf (deaf : s.deaf = true) : exec (.mbDoorbell ch seq) s = .next s := by
  refine Eq.trans (b := execMbDoorbell ch seq s) rfl ?_
  rw [execMbDoorbell, if_neg (by omega)]
  exact if_pos deaf

include hears

theorem mbDoorbell_row : exec (.mbDoorbell ch seq) s = .next (if (s.chan ch).busy then s.setChan ch { s.chan ch with overrun := true }
    else s.submit ch ((s.chan ch).latch seq s.gsc)) := by
  refine Eq.trans (b := execMbDoorbell ch seq s) rfl ?_
  rw [execMbDoorbell, if_neg (by omega)]
  exact if_neg (by simp [hears])

end Doorbell

/-- The channel with the command its doorbell has submitted. -/
def Channel.rung (x : Channel) (c : Cmd) : Channel := { x with busy := true, done := false, cmd := some c }

/-- The module with the command on its channel, in the queue of those that wait. -/
def State.queued (s : State) (ch : Nat) (c : Cmd) : State :=
  let t := s.setChan ch ((s.chan ch).rung c)
  if t.answers ch then { t with host := { t.host with order := t.host.order ++ [ch] } } else t

/-- And with the source of its doorbell raised. -/
def State.rung (s : State) (ch : Nat) (c : Cmd) : State :=
  (s.queued ch c).raiseSource ch { fault := false, gsc := (s.queued ch c).gsc, arg0 := 0, arg1 := 0 }

theorem State.submit_eq (s : State) (ch : Nat) (c : Cmd) : s.submit ch c = (s.rung ch c).answerUnknown 10 := rfl

theorem State.raiseSource_host (s : State) (n : Nat) (i : RaiseInfo) : ∃ x, s.raiseSource n i = s.withEvc x := by
  unfold State.raiseSource
  split
  · exact ⟨_, rfl⟩
  · exact ⟨s.host.evc, rfl⟩

theorem State.rung_shows (s : State) (ch : Nat) (c : Cmd) :
    (s.rung ch c).chan ch = (s.chan ch).rung c ∧ (∀ d, d ≠ ch → (s.rung ch c).chan d = s.chan d) ∧
      (s.rung ch c).host.order = (if s.answers ch then s.host.order ++ [ch] else s.host.order) ∧
      ({ s.rung ch c with host := s.host } : State) = s := by
  have answers : (s.setChan ch ((s.chan ch).rung c)).answers ch = s.answers ch := rfl
  have shows : (s.queued ch c).host.chans = s.host.chans.put ch ((s.chan ch).rung c) ∧
      (s.queued ch c).host.order = (if s.answers ch then s.host.order ++ [ch] else s.host.order) ∧
      ({ s.queued ch c with host := s.host } : State) = s := by
    unfold State.queued
    dsimp only
    rw [answers]
    split
    · exact ⟨rfl, rfl, rfl⟩
    · exact ⟨rfl, rfl, rfl⟩
  obtain ⟨chans, order, rest⟩ := shows
  obtain ⟨x, raised⟩ := (s.queued ch c).raiseSource_host ch { fault := false, gsc := (s.queued ch c).gsc, arg0 := 0, arg1 := 0 }
  have rung : s.rung ch c = (s.queued ch c).withEvc x := raised
  rw [rung]
  refine ⟨?_, fun d other => ?_, order, rest⟩
  · exact (congrArg (fun m : Map Channel => m.find .init ch) chans).trans (Map.find_put_same ..)
  · exact (congrArg (fun m : Map Channel => m.find .init d) chans).trans (Map.find_put_other _ _ _ other)

section Rings

variable {s : State} {ch : Nat} {seq : W32} (there : ch < 8) (idle : (s.chan ch).busy = false)
include there idle

/-- A command that comes behind another waits. -/
theorem mbDoorbell_waits (hears : s.deaf = false) (queue : s.host.order ≠ []) (first : s.cmdOf (s.host.order.headD 0) ≠ none)
    (known : ∀ d, s.cmdOf (s.host.order.headD 0) = some d → opDefined d.opcode = true) (other : s.host.order.headD 0 ≠ ch) :
    exec (.mbDoorbell ch seq) s = .next (s.rung ch ((s.chan ch).latch seq s.gsc)) := by
  obtain ⟨-, others, order, -⟩ := s.rung_shows ch ((s.chan ch).latch seq s.gsc)
  obtain ⟨d, waits⟩ := Option.ne_none_iff_exists'.mp first
  obtain ⟨h, l, head⟩ := List.exists_cons_of_ne_nil queue
  rw [head, List.headD_cons] at waits known other
  have front : ∃ l', (s.rung ch ((s.chan ch).latch seq s.gsc)).host.order = h :: l' := by
    rw [order, head]
    split
    · exact ⟨_, rfl⟩
    · exact ⟨_, rfl⟩
  obtain ⟨l', front⟩ := front
  have cmd : (s.rung ch ((s.chan ch).latch seq s.gsc)).cmdOf h = some d := (congrArg Channel.cmd (others h other)).trans waits
  rw [mbDoorbell_row there hears, if_neg (by simp [idle]), s.submit_eq,
    State.answerUnknown_id 10 _ (.inr ⟨h, l', d, front, cmd, known d waits⟩)]

/-- A command of an opcode that no table defines is answered at once when none waits. -/
theorem mbDoorbell_unknown (empty : s.host.order = []) (unknown : opDefined (leNat ((s.chan ch).buf.read 0 2)) = false)
    (boot : s.sec.boot = .running) : completes (.mbDoorbell ch seq) s fun t => (t.chan ch).busy = false ∧ (t.chan ch).done = true ∧
      t.host.order = [] ∧ ∃ r, (t.chan ch).resp = some r ∧ r.result = 8#16 := by
  obtain ⟨chan, -, order, rest⟩ := s.rung_shows ch ((s.chan ch).latch seq s.gsc)
  have answers : s.answers ch = true := by unfold State.answers; rw [boot]
  have hears : s.deaf = false := by unfold State.deaf; rw [boot]; rfl
  rw [if_pos answers, empty] at order
  have row := mbDoorbell_row (seq := seq) there hears
  rw [if_neg (by simp [idle]), s.submit_eq] at row
  have boot' : (s.rung ch ((s.chan ch).latch seq s.gsc)).sec.boot = .running := (congrArg (fun t : State => t.sec.boot) rest :).trans boot
  generalize s.rung ch ((s.chan ch).latch seq s.gsc) = u at chan order rest row boot'
  have cmd : u.cmdOf ch = some ((s.chan ch).latch seq s.gsc) := congrArg Channel.cmd chan
  obtain ⟨own, -⟩ := State.respond_chan (s := { u with host := { u.host with order := [] } }) cmd (.of .unknownOpcode)
  have none_left := State.respond_order { u with host := { u.host with order := [] } } ch (.of .unknownOpcode)
  have answered : u.answerUnknown 10 = State.respond { u with host := { u.host with order := [] } } ch (.of .unknownOpcode) := by
    have hears : u.answers ch = true := by unfold State.answers; rw [boot']
    have known : opDefined ((s.chan ch).latch seq s.gsc).opcode = false := unknown
    rw [State.answerUnknown, order]
    dsimp only [List.nil_append]
    rw [cmd]
    dsimp only
    rw [if_neg (by simp [known, hears]), if_neg (by simp [boot'])]
    exact State.answerUnknown_id _ _ (.inl none_left)
  refine ⟨_, row.trans (congrArg _ answered), congrArg Channel.busy own, congrArg Channel.done own, none_left,
    _, congrArg Channel.resp own, rfl⟩

end Rings

/-! ### Time limits and the watchdog (R425, R492) -/

/-- With no load and no launch under way nothing fails with the work of a channel. -/
theorem State.dropWork_quiet {s : State} (loads : s.cas.loads = []) (launch : s.fab.launch = none) (ch : Nat) (keep : Bool) :
    ∃ k ports, s.dropWork ch keep = { s with cas := k, ports := ports } := by
  unfold State.dropWork
  rw [loads]
  dsimp only [List.foldl_nil, State.withCas]
  rw [launch]
  exact ⟨_, _, rfl⟩

/-- A command past its limit. -/
theorem commandTimeout_answers {s : State} {ch : Nat} {c : Cmd} (there : ch < 10) (cmd : s.cmdOf ch = some c) (boot : s.sec.boot = .running)
    (order : s.host.order = []) (loads : s.cas.loads = []) (launch : s.fab.launch = none) :
    completes (.commandTimeout ch) s fun t => t.gsc = max s.gsc (c.doorbellGsc + c.limit) ∧ (t.chan ch).busy = false ∧ t.cmdOf ch = none ∧
      (∃ r, (t.chan ch).resp = some r ∧ r.result = 4#16 ∧ r.seq = c.seq ∧ r.tag = c.tag) ∧ t.job = s.job ∧ t.cores = s.cores ∧
      ∀ d, d ≠ ch → t.chan d = s.chan d := by
  have answers : s.answers ch = true := by unfold State.answers; rw [boot]
  have row : exec (.commandTimeout ch) s =
      let w := (s.advanceTo (c.doorbellGsc + c.limit)).withHost
        { (s.advanceTo (c.doorbellGsc + c.limit)).host with order := (s.advanceTo (c.doorbellGsc + c.limit)).host.order.filter fun x => x ≠ ch }
      .next (((w.dropWork ch false).respond ch (.of .timeout)).answerUnknown 10) := by
    refine Eq.trans (b := execCommandTimeout ch s) rfl ?_
    rw [execCommandTimeout, if_neg (by omega), cmd]
    exact if_neg (by simp [answers])
  obtain ⟨w, passed⟩ : ∃ w, w = s.advanceTo (c.doorbellGsc + c.limit) := ⟨_, rfl⟩
  have gsc : w.gsc = max s.gsc (c.doorbellGsc + c.limit) := by rw [passed, State.advanceTo_gsc]
  have host : w.host = s.host := by rw [passed, State.advanceTo_host]
  have job : w.job = s.job := by rw [passed, State.advanceTo_job]
  have cores : w.cores = s.cores := by rw [passed, State.advanceTo_cores]
  have cas : w.cas = s.cas := by rw [passed, State.advanceTo_cas]
  have fab : w.fab = s.fab := by rw [passed, State.advanceTo_fab]
  rw [← passed, host, order] at row
  obtain ⟨k, ports, dropped⟩ := State.dropWork_quiet (s := w.withHost { s.host with order := [] }) (by rw [State.withHost, cas, loads])
    (by rw [State.withHost, fab, launch]) ch false
  dsimp only [List.filter_nil] at row
  rw [dropped] at row
  obtain ⟨u, dropped⟩ : ∃ u : State, u = { w.withHost { s.host with order := [] } with cas := k, ports := ports } := ⟨_, rfl⟩
  have host' : u.host = { s.host with order := [] } := by rw [dropped]; rfl
  have chans : ∀ d, u.chan d = s.chan d := fun d => by rw [State.chan, host']; rfl
  have cmd' : u.cmdOf ch = some c := (congrArg Channel.cmd (chans ch)).trans cmd
  obtain ⟨own, others⟩ := State.respond_chan cmd' (.of .timeout)
  rw [← dropped, State.answerUnknown_id _ _ (.inl ((State.respond_order ..).trans (by rw [host'])))] at row
  refine ⟨_, row, ?_, congrArg Channel.busy own, congrArg Channel.cmd own, ⟨_, congrArg Channel.resp own, rfl, rfl, rfl⟩, ?_, ?_,
    fun d other => (others d other).trans (chans d)⟩
  · rw [State.respond_gsc, dropped]; exact gsc
  · rw [State.respond_job, dropped]; exact job
  · rw [State.respond_cores, dropped]; exact cores

/-- The watchdog's answer on one channel: a busy one is answered RESTARTED. -/
def State.restartChan (s : State) (ch : Nat) : State := if (s.chan ch).busy then (s.dropWork ch true).respond ch (.of .restarted) else s

theorem State.ends.dropWork (s : State) (ch : Nat) (keep : Bool) : s.ends (s.dropWork ch keep) := by
  unfold State.dropWork
  generalize loads : List.foldl _ s s.cas.loads = u
  have ends : s.ends u := by
    rw [← loads]
    refine State.ends.foldl (fun s l => ?_) s.cas.loads s
    dsimp only
    split
    · exact .refl s
    split
    · exact (State.ends.of_chans rfl).after rfl
    split
    · exact .of_chans rfl
    · exact (State.ends.failLoad ..).after rfl
  refine ends.trans (.of_chans ?_)
  dsimp only
  split
  · rfl
  split
  · rfl
  split <;> rfl

theorem State.restartChan_ends (s : State) (ch : Nat) : s.ends (s.restartChan ch) := by
  unfold State.restartChan
  split
  · exact (State.ends.dropWork ..).trans (State.ends.respond ..)
  · exact .refl s

/-- A channel with a command is free once it has been answered. -/
theorem State.restartChan_frees {s : State} {ch : Nat} (cmd : (s.cmdOf ch).isSome = true) : ((s.restartChan ch).chan ch).busy = false := by
  unfold State.restartChan
  split
  case isTrue =>
    rcases (State.ends.dropWork s ch true).each ch with same | ⟨gone, free⟩
    · obtain ⟨c, cmd'⟩ := Option.isSome_iff_exists.mp cmd
      exact congrArg Channel.busy (State.respond_chan ((congrArg Channel.cmd same).trans cmd') _).1
    · rw [State.respond_of_none gone]
      exact free
  case isFalse idle => simpa using idle

theorem State.ends.foldl_frees {f : State → Nat → State} (step : ∀ (s : State) ch, s.ends (f s ch))
    (frees : ∀ (s : State) ch, (s.cmdOf ch).isSome = true → ((f s ch).chan ch).busy = false) (l : List Nat) {ch : Nat} (mem : ch ∈ l) (s : State)
    (cmd : (s.cmdOf ch).isSome = true) : ((l.foldl f s).chan ch).busy = false := by
  have stays : ∀ (l : List Nat) (s : State), (s.chan ch).busy = false → ((l.foldl f s).chan ch).busy = false := fun l s free => by
    rcases (State.ends.foldl step l s).each ch with same | ⟨-, freed⟩
    · exact (congrArg Channel.busy same).trans free
    · exact freed
  induction l generalizing s with
  | nil => cases mem
  | cons x l ih =>
    rcases List.mem_cons.mp mem with rfl | later
    · exact stays l _ (frees s ch cmd)
    · rcases (step s x).each ch with same | ⟨-, freed⟩
      · exact ih later _ ((congrArg (fun c : Channel => c.cmd.isSome) same).trans cmd)
      · exact stays l _ freed

/-- The module once the busy channels are answered, before the controller's stack is emptied. -/
def State.restarted (s : State) : State :=
  (List.range 10).foldl State.restartChan (s.withHost { s.host with order := [], mpRestarts := s.host.mpRestarts + 1 })

/-- And then. -/
def State.rebooted (s : State) (cause : Nat) : State :=
  let e := s.host.evc
  let s := s.withEvc { e with
    stack := [], order := false, sources := e.sources.map fun x => (x.1, x.2.unstack s.gsc e.idleWait) }
  let s := { s with sec := { s.sec with nonce := none } }
  s.withPower { s.power with lastCause := cause, kickAt := s.gsc }

theorem State.mpRestart_eq (s : State) (cause : Nat) :
    s.mpRestart cause = (s.restarted.rebooted cause).event 0x0C12 (BitVec.ofNat 64 cause) := by
  unfold State.mpRestart State.restarted State.restartChan
  dsimp only
  generalize List.foldl _ _ (List.range 10) = u
  rfl

theorem State.restarted_leaves {α : Type} {v : State → α} (aside : Aside v) (fabless : ∀ (s : State) f, v (s.withFab f) = v s) (s : State) :
    v s.restarted = v (s.withHost { s.host with order := [], mpRestarts := s.host.mpRestarts + 1 }) := by
  refine foldl_keeps v _ (fun s ch => ?_) _ _
  unfold State.restartChan
  split
  · exact (aside.respond ..).trans (State.dropWork_leaves aside fabless ..)
  · rfl

/-- The watchdog restarts the management processor (R492). -/
theorem mpWatchdog_restarts {s : State} (boot : s.sec.boot = .running) :
    completes .mpWatchdog s fun t => t.gsc = max s.gsc (s.power.kickAt + 1000000 * s.power.wdtMs) ∧
      t.power.kickAt = t.gsc ∧ t.power.lastCause = 0 ∧ t.host.mpRestarts = s.host.mpRestarts + 1 ∧ t.host.evc.stack = [] ∧
      t.host.evc.order = false ∧ t.sec.nonce = none ∧ t.job = s.job ∧ t.cores = s.cores ∧ t.sec.fuses = s.sec.fuses ∧
      ∀ ch, ch < 10 → (s.chan ch).busy = true → (s.cmdOf ch).isSome = true → (t.chan ch).busy = false := by
  have row : exec .mpWatchdog s = .next ((s.advanceTo (s.power.kickAt + 1000000 * s.power.wdtMs)).mpRestart 0) := by
    refine Eq.trans (b := execMpWatchdog s) rfl ?_
    exact if_neg (by simp [boot])
  obtain ⟨w, passed⟩ : ∃ w, w = s.advanceTo (s.power.kickAt + 1000000 * s.power.wdtMs) := ⟨_, rfl⟩
  have gsc : w.gsc = max s.gsc (s.power.kickAt + 1000000 * s.power.wdtMs) := by rw [passed, State.advanceTo_gsc]
  have host : w.host = s.host := by rw [passed, State.advanceTo_host]
  have job : w.job = s.job := by rw [passed, State.advanceTo_job]
  have cores : w.cores = s.cores := by rw [passed, State.advanceTo_cores]
  have sec : w.sec = s.sec := by rw [passed, State.advanceTo_sec]
  rw [← passed, w.mpRestart_eq] at row
  have plain : Aside fun t : State => (t.gsc, t.job, t.cores, t.sec) :=
    ⟨⟨⟨fun _ _ _ => rfl⟩, fun _ _ _ => rfl⟩, fun _ _ _ _ => rfl⟩
  have restarts : Aside fun t : State => t.host.mpRestarts :=
    ⟨⟨⟨fun _ _ h => (congrArg HostBlk.mpRestarts h.1 :)⟩, fun _ _ _ => rfl⟩, fun _ _ _ _ => rfl⟩
  have stack : Aside fun t : State => (t.host.mpRestarts, t.host.evc.stack, t.host.evc.order) :=
    ⟨⟨⟨fun _ _ h => (congrArg (fun x : HostBlk => (x.mpRestarts, x.evc.stack, x.evc.order)) h.1 :)⟩, fun _ _ _ => rfl⟩, fun _ _ _ _ => rfl⟩
  have kept := w.restarted_leaves plain (fun _ _ => rfl)
  obtain ⟨gsc', kept⟩ := Prod.mk.inj kept
  obtain ⟨job', kept⟩ := Prod.mk.inj kept
  obtain ⟨cores', sec'⟩ := Prod.mk.inj kept
  have count := w.restarted_leaves restarts (fun _ _ => rfl)
  have frees : ∀ ch, ch < 10 → (s.cmdOf ch).isSome = true → (w.restarted.chan ch).busy = false := fun ch there cmd =>
    State.ends.foldl_frees State.restartChan_ends (fun s ch => State.restartChan_frees) _ (List.mem_range.mpr there) _
      ((congrArg (fun h : HostBlk => (h.chans.find .init ch).cmd.isSome) host).trans cmd)
  generalize w.restarted = u at row gsc' job' cores' sec' count frees
  have told := stack.event (u.rebooted 0) 0x0C12 (BitVec.ofNat 64 0) 0
  obtain ⟨restarts', told⟩ := Prod.mk.inj told
  obtain ⟨empty, order⟩ := Prod.mk.inj told
  refine ⟨_, row, ?_, ?_, ?_, ?_, empty, order, ?_, ?_, ?_, ?_, fun ch there _ cmd => ?_⟩
  · rw [State.event_gsc]; exact gsc'.trans gsc
  · rw [State.event_power, State.event_gsc]; rfl
  · rw [State.event_power]; rfl
  · exact restarts'.trans (count.trans (congrArg (fun h : HostBlk => h.mpRestarts + 1) host))
  · rw [State.event_sec]; rfl
  · rw [State.event_job]; exact job'.trans job
  · rw [State.event_cores]; exact cores'.trans cores
  · rw [State.event_sec]; exact (congrArg Sec.fuses (sec'.trans sec) :)
  · rw [State.chan, State.event_host_chans]
    exact frees ch there cmd

/-! ### The function's resets -/

theorem pcieReset_resets (s : State) : completes .pcieReset s fun t => s.functionResets t ∧ s.faults t 0x0C03#16 := by
  obtain ⟨resets, faults, -⟩ := s.functionReset_resets 0x0C03
  exact ⟨_, rfl, resets, faults⟩

/-- The function with its link down. -/
def State.linkless (s : State) : State := s.withHost { s.host with pcieUp := false }

theorem State.functionResets.linkless {s t : State} (h : s.functionResets t) : s.functionResets t.linkless := by
  obtain ⟨rq, msix, win, recs, log, chans, order, cpl, cores, ss, far, image, pci⟩ := h
  exact ⟨rq, msix, win, recs, log, chans, order, cpl, cores, ss, far, image, pci⟩

theorem State.faults.linkless {s t : State} {code : W16} (h : s.faults t code) : s.faults t.linkless code := ⟨h.fault, h.idle⟩

theorem pcieLinkLoss_resets (s : State) :
    completes .pcieLinkLoss s fun t => s.functionResets t ∧ s.faults t 0x0C04#16 ∧ t.host.pcieUp = false := by
  obtain ⟨resets, faults, -⟩ := s.functionReset_resets 0x0C04
  exact ⟨_, rfl, resets.linkless, faults.linkless, rfl⟩

/-- The module with its reset pin at a level. -/
def State.pinned (s : State) (high : Bool) : State := s.withPower { s.power with perstN := high }

theorem perstN_falls {s : State} (high : s.power.perstN = true) :
    completes (.perstN false) s fun t => s.functionResets t ∧ s.faults t 0x0C04#16 ∧ t.power.perstN = false := by
  have row : exec (.perstN false) s = .next ((s.pinned false).functionReset 0x0C04).linkless := by
    refine Eq.trans (b := execPerstN false s) rfl ?_
    exact if_neg (by simp [high])
  obtain ⟨resets, faults, pin⟩ := (s.pinned false).functionReset_resets 0x0C04
  obtain ⟨rq, msix, win, recs, log, chans, order, cpl, cores, ss, far, image, pci⟩ := resets.linkless
  exact ⟨_, row, ⟨rq, msix, win, recs, log, chans, order, cpl, cores, ss, far, image, pci⟩, ⟨faults.fault, faults.idle⟩, pin⟩

theorem perstN_rises {s : State} (low : s.power.perstN = false) :
    completes (.perstN true) s fun t => t.power.perstN = true ∧ t.host.pcieUp = s.power.modReady ∧ t.job = s.job := by
  refine ⟨(s.pinned true).withHost { s.host with pcieUp := s.power.modReady }, ?_, rfl, rfl, rfl⟩
  refine Eq.trans (b := execPerstN true s) rfl ?_
  exact if_neg (by simp [low])

theorem perstN_stays (s : State) : exec (.perstN s.power.perstN) s = .next s :=
  Eq.trans (b := execPerstN s.power.perstN s) rfl (if_pos rfl)

/-! ### The BAR2 window (R419) -/

/-- A background request changes controllers and channels. -/
theorem State.background_keeps {α : Type} {v : State → α} (ctrl : ∀ (s : State) c x, v (s.setCtrl c x) = v s)
    (chan : ∀ (s : State) c k x, v (s.setFarChan c k x) = v s) (s : State) (src : BgSrc) (r : FarRegion) (off n : Nat) (write : Bool) :
    v (s.background src r off n write) = v s := by
  refine (foldl_keeps v _ (fun _ _ => ctrl ..) _ _).trans ?_
  refine foldl_keeps v _ (fun s g => ?_) _ s
  dsimp only
  split
  · exact chan ..
  · rfl

theorem State.background_mem (s : State) (src : BgSrc) (r : FarRegion) (off n : Nat) (write : Bool) :
    (s.background src r off n write).far.mem = s.far.mem ∧ (s.background src r off n write).far.regions = s.far.regions :=
  ⟨State.background_keeps (v := fun t => t.far.mem) (fun _ _ _ => rfl) (fun _ _ _ _ => rfl) ..,
    State.background_keeps (v := fun t => t.far.regions) (fun _ _ _ => rfl) (fun _ _ _ _ => rfl) ..⟩

theorem State.farPut_mem {s t : State} (mem : t.far.mem = s.far.mem) (regions : t.far.regions = s.far.regions) (r off : Nat) (b : Bytes) :
    (t.farPut r off b).far.mem = (s.farPut r off b).far.mem := by
  unfold State.farPut State.farRegion
  rw [mem, regions]

section Window

variable {s : State} {off : Nat} (hears : s.deaf = false) (run : s.power.mode = .run)
include hears run

theorem windowAccess_refused {b : Bool} (place : s.windowPlace off = (none, b)) (n : Nat) :
    exec (.windowAccess off n none) s = .next ((s.windowRefuse b).windowData (List.replicate n 0xFF#8)) ∧
      ∀ d, exec (.windowAccess off n (some d)) s = .next (s.windowRefuse b) := by
  refine ⟨?_, fun d => ?_⟩
  · refine Eq.trans (b := execWindowAccess off n none s) rfl ?_
    simp only [execWindowAccess, hears, s.wake_run run, place, Bool.false_eq_true, if_false]
  · refine Eq.trans (b := execWindowAccess off n (some d) s) rfl ?_
    simp only [execWindowAccess, hears, s.wake_run run, place, Bool.false_eq_true, if_false]

theorem windowAccess_far {k a : Nat} {b : Bool} (place : s.windowPlace off = (some (.inl (k, a)), b)) (n : Nat) :
    exec (.windowAccess off n none) s =
        .next (({ s.background .window (s.farRegion k) a n false with free := s.free + n } : State).windowData (s.farSeen 0 k a n)) ∧
      ∀ d, exec (.windowAccess off n (some d)) s =
        .next (((if a % 64 = 0 && d.length % 64 = 0 then s else s.background .window (s.farRegion k) a d.length false).farPut k a
          d).background .window ((if a % 64 = 0 && d.length % 64 = 0 then s
            else s.background .window (s.farRegion k) a d.length false).farRegion k) a d.length true) := by
  refine ⟨?_, fun d => ?_⟩
  · refine Eq.trans (b := execWindowAccess off n none s) rfl ?_
    simp only [execWindowAccess, hears, s.wake_run run, place, Bool.false_eq_true, if_false]
  · refine Eq.trans (b := execWindowAccess off n (some d) s) rfl ?_
    simp only [execWindowAccess, hears, s.wake_run run, place, Bool.false_eq_true, if_false]

theorem windowAccess_stacked {a : Nat} {b : Bool} (place : s.windowPlace off = (some (.inr a), b)) (n : Nat) :
    exec (.windowAccess off n none) s = .next ((s.ssRead (a / sliceSize) a n (s.tickOf (a / sliceSize))).windowData (s.ss.read a n)) ∧
      ∀ d, exec (.windowAccess off n (some d)) s =
        .next { s with ss := s.ss.write a d, ssErr := errsAfter s.ssErr a d.length } := by
  refine ⟨?_, fun d => ?_⟩
  · refine Eq.trans (b := execWindowAccess off n none s) rfl ?_
    simp only [execWindowAccess, hears, s.wake_run run, place, Bool.false_eq_true, if_false]
  · refine Eq.trans (b := execWindowAccess off n (some d) s) rfl ?_
    simp only [execWindowAccess, hears, s.wake_run run, place, Bool.false_eq_true, if_false]

/-- A refused access reads all ones and is counted. -/
theorem windowAccess_refuses {b : Bool} (place : s.windowPlace off = (none, b)) (n : Nat) :
    let refused (t : State) : Prop :=
      t.host.winRefused = min (s.host.winRefused + 1) (2 ^ 32 - 1) ∧ t.far.mem = s.far.mem ∧ t.ss = s.ss
    (completes (.windowAccess off n none) s fun t => refused t ∧ t.host.winData = List.replicate n 0xFF#8) ∧
      ∀ d, completes (.windowAccess off n (some d)) s fun t => refused t ∧ t.host.winData = s.host.winData := by
  obtain ⟨reads, writes⟩ := windowAccess_refused hears run place n
  cases b with
  | false => exact ⟨⟨_, reads, ⟨rfl, rfl, rfl⟩, rfl⟩, fun d => ⟨_, writes d, ⟨rfl, rfl, rfl⟩, rfl⟩⟩
  | true => exact ⟨⟨_, reads, ⟨rfl, rfl, rfl⟩, rfl⟩, fun d => ⟨_, writes d, ⟨rfl, rfl, rfl⟩, rfl⟩⟩

theorem windowAccess_reaches_far {k a : Nat} {b : Bool} (place : s.windowPlace off = (some (.inl (k, a)), b)) (n : Nat) :
    (completes (.windowAccess off n none) s fun t => t.host.winData = s.farSeen 0 k a n ∧ t.far.mem = s.far.mem) ∧
      ∀ d, completes (.windowAccess off n (some d)) s fun t =>
        t.far.mem = (s.farPut k a d).far.mem ∧ t.ss = s.ss ∧ t.cores = s.cores := by
  obtain ⟨reads, writes⟩ := windowAccess_far hears run place n
  refine ⟨⟨_, reads, rfl, (s.background_mem ..).1⟩, fun d => ?_⟩
  have before : ∃ u : State, u = (if a % 64 = 0 && d.length % 64 = 0 then s else s.background .window (s.farRegion k) a d.length false) ∧
      u.far.mem = s.far.mem ∧ u.far.regions = s.far.regions ∧ (u.ss, u.cores) = (s.ss, s.cores) := by
    refine ⟨_, rfl, ?_⟩
    split
    · exact ⟨rfl, rfl, rfl⟩
    · obtain ⟨mem, regions⟩ := s.background_mem .window (s.farRegion k) a d.length false
      exact ⟨mem, regions, State.background_leaves (v := fun t => (t.ss, t.cores)) (fun _ _ => rfl) ..⟩
  obtain ⟨u, read, mem, regions, kept⟩ := before
  have row := writes d
  rw [← read] at row
  have wrote : (fun t : State => (t.ss, t.cores)) ((u.farPut k a d).background .window (u.farRegion k) a d.length true) = (s.ss, s.cores) :=
    (State.background_leaves (v := fun t => (t.ss, t.cores)) (fun _ _ => rfl) ..).trans kept
  obtain ⟨ss, cores⟩ := Prod.mk.inj wrote
  exact ⟨_, row, ((u.farPut k a d).background_mem ..).1.trans (State.farPut_mem mem regions k a d), ss, cores⟩

theorem windowAccess_reaches_stacked {a : Nat} {b : Bool} (place : s.windowPlace off = (some (.inr a), b)) (n : Nat) :
    (∀ d, completes (.windowAccess off n (some d)) s fun t => t.ss = s.ss.write a d ∧ t.far = s.far ∧ t.cores = s.cores) ∧
      (s.ssErr = [] → completes (.windowAccess off n none) s fun t => t.host.winData = s.ss.read a n ∧ t.ss = s.ss) := by
  obtain ⟨reads, writes⟩ := windowAccess_stacked hears run place n
  refine ⟨fun d => ⟨_, writes d, rfl, rfl, rfl⟩, fun clean => ⟨_, reads, rfl, ?_⟩⟩
  have sound : errsIn s.ssErr a n = (0, false) := by rw [clean]; rfl
  unfold State.ssRead
  rw [sound]
  rfl

end Window

/-- Where an access of the window goes. -/
theorem State.windowPlace_refused {s : State} {off : Nat} (barred : let x := s.host.win.find .init (off / 2 ^ 30 % 16)
      let at_ := x.base * 65536 + off % 2 ^ 30
      let running := s.job.state = .armed ∨ s.job.state = .running
      let r := s.farRegion x.region
      x.target = 0 ∨ x.target = 3 ∨ (x.target = 1 ∧ (r.size * 65536 ≤ at_ ∨ r.valid = false ∨ (running ∧ r.host = false))) ∨
        (x.target = 2 ∧ running)) : ∃ b, s.windowPlace off = (none, b) := by
  dsimp only at barred
  unfold State.windowPlace
  generalize s.host.win.find .init (off / 2 ^ 30 % 16) = x at barred ⊢
  generalize off % 2 ^ 30 = e at barred ⊢
  dsimp only
  rcases barred with unset | unknown | ⟨far, out⟩ | ⟨stacked, busy⟩
  · rw [unset]; exact ⟨_, rfl⟩
  · rw [unknown]; exact ⟨_, rfl⟩
  · rw [far]
    refine ⟨_, congrArg (·, false) (if_pos ?_)⟩
    rcases out with past | void | ⟨busy, closed⟩
    · simp [past]
    · simp [void]
    · rcases busy with h | h <;> simp [h, closed]
  · rw [stacked]
    refine ⟨_, congrArg (·, true) (if_pos ?_)⟩
    rcases busy with h | h <;> simp [h]

theorem State.windowPlace_far {s : State} {off : Nat} (far : (s.host.win.find .init (off / 2 ^ 30 % 16)).target = 1)
    (image : s.image.isSome = true) (valid : (s.farRegion (s.host.win.find .init (off / 2 ^ 30 % 16)).region).valid = true)
    (inside : (s.host.win.find .init (off / 2 ^ 30 % 16)).base * 65536 + off % 2 ^ 30 <
      (s.farRegion (s.host.win.find .init (off / 2 ^ 30 % 16)).region).size * 65536)
    (free : ¬(s.job.state = .armed ∨ s.job.state = .running) ∨
      (s.farRegion (s.host.win.find .init (off / 2 ^ 30 % 16)).region).host = true) :
    s.windowPlace off = (some (.inl ((s.host.win.find .init (off / 2 ^ 30 % 16)).region,
      (s.host.win.find .init (off / 2 ^ 30 % 16)).base * 65536 + off % 2 ^ 30)), false) := by
  unfold State.windowPlace
  generalize s.host.win.find .init (off / 2 ^ 30 % 16) = x at *
  generalize off % 2 ^ 30 = e at *
  dsimp only
  rw [far]
  have image : s.image.isNone = false := by simpa using image
  refine congrArg (·, false) (if_neg ?_)
  rcases free with idle | shared
  · have idle : (s.job.state = .armed || s.job.state = .running) = false := by simpa using idle
    simp [image, valid, idle, inside]
  · simp [image, valid, shared, inside]

theorem State.windowPlace_stacked {s : State} {off : Nat} (stacked : (s.host.win.find .init (off / 2 ^ 30 % 16)).target = 2)
    (idle : ¬(s.job.state = .armed ∨ s.job.state = .running))
    (core : s.hasCore (((s.host.win.find .init (off / 2 ^ 30 % 16)).base * 65536 + off % 2 ^ 30) / sliceSize) = true) :
    s.windowPlace off = (some (.inr ((s.host.win.find .init (off / 2 ^ 30 % 16)).base * 65536 + off % 2 ^ 30)), true) := by
  unfold State.windowPlace
  generalize s.host.win.find .init (off / 2 ^ 30 % 16) = x at *
  generalize off % 2 ^ 30 = e at *
  dsimp only
  rw [stacked]
  have idle : (s.job.state = .armed || s.job.state = .running) = false := by simpa using idle
  exact congrArg (·, true) (if_neg (by simp [core, idle]))

/-! ### Failed reads of host memory (R417) -/

theorem hostDma_ring {s : State} {r : Nat} (there : r < 64) (enabled : (s.reqRing r).enable = true) :
    completes (.hostDma (.ring r)) s fun t =>
      (t.reqRing r).enable = false ∧ (t.reqRing r).error = true ∧ (∀ k, k ≠ r → t.reqRing k = s.reqRing k) ∧ t.job = s.job := by
  have row : exec (.hostDma (.ring r)) s = .next (s.dmaFailed.stopRing r) := by
    refine Eq.trans (b := execHostDma (.ring r) s) rfl ?_
    rw [execHostDma, if_neg (by omega)]
    exact if_neg (by simp [enabled])
  have rings : (s.dmaFailed.stopRing r).srv.rq = s.srv.rq.put r { s.reqRing r with enable := false, error := true } := by
    have failed : s.dmaFailed.srv = s.srv := State.event_srv ..
    have ring : s.dmaFailed.reqRing r = s.reqRing r := by rw [State.reqRing, failed]; rfl
    refine (congrArg Serve.rq (State.event_srv ..)).trans ?_
    rw [ring]
    exact congrArg (fun x : Serve => x.rq.put r { s.reqRing r with enable := false, error := true }) failed
  have own : (s.dmaFailed.stopRing r).reqRing r = { s.reqRing r with enable := false, error := true } := by
    rw [State.reqRing, rings, Map.find_put_same]
  refine ⟨_, row, congrArg ReqRing.enable own, congrArg ReqRing.error own, fun k other => ?_, ?_⟩
  · rw [State.reqRing, rings, Map.find_put_other _ _ _ other]
    rfl
  · exact (State.event_job ..).trans (State.event_job ..)

theorem hostDma_command {s : State} {ch : Nat} {c : Cmd} (there : ch < 10) (cmd : s.cmdOf ch = some c) (fresh : c.executing = false)
    (boot : s.sec.boot = .running) (order : s.host.order = [ch]) : completes (.hostDma (.command ch)) s fun t =>
      t.cmdOf ch = none ∧ t.host.order = [] ∧ ∃ r, (t.chan ch).resp = some r ∧ r.result = 3#16 ∧ r.fault = 0x0C05#16 := by
  have answers : s.answers ch = true := by unfold State.answers; rw [boot]
  obtain ⟨u, failed⟩ : ∃ u : State, u = (s.withHost { s.host with order := s.host.order.filter fun x => x ≠ ch }).dmaFailed := ⟨_, rfl⟩
  have row : exec (.hostDma (.command ch)) s = .next ((u.respond ch (.bad .state 0x0C05)).answerUnknown 10) := by
    refine Eq.trans (b := execHostDma (.command ch) s) rfl ?_
    rw [execHostDma, if_neg (by omega), cmd, failed]
    exact if_neg (by simp [fresh, answers])
  have queue : u.host.order = [] := by
    have told : Served fun t : State => t.host.order := ⟨fun _ _ h => (congrArg HostBlk.order h.1 :)⟩
    rw [failed]
    refine (told.event _ 0x0C05 0 0).trans ?_
    rw [State.withHost, order]
    simp
  have cmd' : u.cmdOf ch = some c := by
    rw [failed, State.cmdOf, State.chan]
    exact (congrArg (fun m : Map Channel => (m.find .init ch).cmd) (State.event_host_chans ..)).trans cmd
  have left := (State.respond_order u ch (.bad .state 0x0C05)).trans queue
  rw [State.answerUnknown_id _ _ (.inl left)] at row
  obtain ⟨own, -⟩ := State.respond_chan cmd' (.bad .state 0x0C05)
  exact ⟨_, row, congrArg Channel.cmd own, left, _, congrArg Channel.resp own, rfl, rfl⟩

theorem hostDma_prompt {s : State} {id : Nat} {q : Req} (there : s.req id = some q) (fetching : q.state = .fetching)
    (shut : s.srv.boundary = false) : completes (.hostDma (.prompt id)) s fun t =>
      (∃ q', t.req id = some q' ∧ q'.state = .ending ∧ q'.status = stHostError) ∧ t.job = s.job := by
  obtain ⟨u, failed⟩ : ∃ u : State, u = s.dmaFailed.event 0x0704 := ⟨_, rfl⟩
  have srv : u.srv = s.srv := failed ▸ (State.event_srv ..).trans (State.event_srv ..)
  have job : u.job = s.job := failed ▸ (State.event_job ..).trans (State.event_job ..)
  have row : exec (.hostDma (.prompt id)) s = .next (u.endReq id q stHostError) := by
    refine Eq.trans (b := execHostDma (.prompt id) s) rfl ?_
    rw [execHostDma, there]
    dsimp only
    rw [if_neg (by simp [fetching]), ← failed]
    exact congrArg _ (if_neg (by simp [State.endReq, State.addWork, State.setReq, State.withSrv, srv, shut]))
  exact ⟨_, row, ⟨_, State.req_setReq u id _, rfl, rfl⟩, job⟩

/-- Settles O40: a reset of the function ends in one state of the block whatever brought it about, the window's cases are those of
`windowPlace`, and every command that a limit, the watchdog or a failed read ends is answered by `respond`. -/
theorem hostFunction : Obligations.HostFunction := by
  unfold Obligations.HostFunction
  intro s
  dsimp only
  refine ⟨fun deaf => ⟨fun ch seq there => mbDoorbell_deaf there deaf, fun off n data => ?_⟩, fun ch seq there hears queue first known other =>
      ⟨fun busy => ?_, fun idle => ?_⟩, fun ch seq there empty idle unknown boot => mbDoorbell_unknown there idle empty unknown boot,
    fun ch c there cmd boot order loads launch => commandTimeout_answers there cmd boot order loads launch, mpWatchdog_restarts, rfl,
    ?_, ?_, fun high => ?_, perstN_rises, perstN_stays s, fun hears run off n => ⟨fun barred => ?_, fun far image valid inside free => ?_,
      fun stacked idle core => ?_⟩,
    fun r => hostDma_ring, fun ch c => hostDma_command, fun id q => hostDma_prompt⟩
  · exact Eq.trans (b := execWindowAccess off n data s) rfl (if_pos deaf)
  · rw [mbDoorbell_row there hears, if_pos busy]
  · obtain ⟨own, others, order, rest⟩ := s.rung_shows ch ((s.chan ch).latch seq s.gsc)
    exact ⟨_, mbDoorbell_waits there idle hears queue first known other, own, order, others, rest⟩
  · obtain ⟨t, row, resets, faults⟩ := pcieReset_resets s
    obtain ⟨rq, msix, win, ⟨enable, tail⟩, log, chans, order, cpl, cores, ss, far, image, pci⟩ := resets
    exact ⟨t, row, ⟨rq, msix, win, enable, tail, log, chans, order, cpl, cores, ss, far, image, pci⟩, faults.fault, faults.idle⟩
  · obtain ⟨t, row, resets, faults, down⟩ := pcieLinkLoss_resets s
    obtain ⟨rq, msix, win, ⟨enable, tail⟩, log, chans, order, cpl, cores, ss, far, image, pci⟩ := resets
    exact ⟨t, row, ⟨rq, msix, win, enable, tail, log, chans, order, cpl, cores, ss, far, image, pci⟩, ⟨faults.fault, faults.idle⟩, down⟩
  · obtain ⟨t, row, resets, faults, low⟩ := perstN_falls high
    obtain ⟨rq, msix, win, ⟨enable, tail⟩, log, chans, order, cpl, cores, ss, far, image, pci⟩ := resets
    exact ⟨t, row, ⟨rq, msix, win, enable, tail, log, chans, order, cpl, cores, ss, far, image, pci⟩, ⟨faults.fault, faults.idle⟩, low⟩
  · obtain ⟨b, place⟩ := State.windowPlace_refused barred
    exact windowAccess_refuses hears run place n
  · exact windowAccess_reaches_far hears run (State.windowPlace_far far image valid inside free) n
  · exact windowAccess_reaches_stacked hears run (State.windowPlace_stacked stacked idle core) n

end Sys2Proof.Machine

/-! PROOF. Observation pins, patterns, injection, margining, the debug stop and the test access port (R519 to R532). -/
namespace Sys2Proof.Machine

/-! ### Observation pins (R519) -/

theorem State.selectObs_obsLevel (s : State) (p : Nat) (x : ObsSel) : (s.selectObs p x).obsLevel p = s.obsLevel p := by
  have due : (s.selectObs p x).test.due.has p = true := by simp [State.selectObs, State.withTest]
  have level : (s.selectObs p x).test.level.find false p = s.obsLevel p := Map.find_put_same ..
  rw [State.obsLevel, if_pos due, level]

/-- The pin shows what was selected for it. -/
def TestBlk.applied (x : TestBlk) (pin : Nat) : TestBlk :=
  { x with shown := x.shown.put pin (x.sel.find .init pin), due := x.due.del pin }

theorem obsSelectApply_shows {s : State} {pin : Nat} (due : s.test.due.has pin = true) : completes (.obsSelectApply pin) s fun t =>
    t.gsc = max s.gsc (s.test.due.find 0 pin) ∧ t.test.shown.find .init pin = s.test.sel.find .init pin ∧ t.test.due.has pin = false ∧
      t.obsLevel pin = t.signal (s.test.sel.find .init pin) ∧ t.test.sel = s.test.sel ∧
      ∀ q, q ≠ pin → t.test.shown.find .init q = s.test.shown.find .init q := by
  have test : (s.advanceTo (s.test.due.find 0 pin)).test = s.test := by rw [State.advanceTo_test]
  have row : exec (.obsSelectApply pin) s = .next ((s.advanceTo (s.test.due.find 0 pin)).withTest (s.test.applied pin)) := by
    refine Eq.trans (b := execObsSelectApply pin s) rfl ?_
    rw [execObsSelectApply, if_neg (by simp [due])]
    dsimp only
    rw [test]
    rfl
  have shown : (s.test.applied pin).shown.find .init pin = s.test.sel.find .init pin := Map.find_put_same ..
  have gone : (s.test.applied pin).due.has pin = false := Map.has_del_same ..
  refine ⟨_, row, s.advanceTo_gsc _, shown, gone, ?_, rfl, fun q other => Map.find_put_other _ _ _ other⟩
  rw [State.obsLevel, if_neg (by rw [show ((s.advanceTo _).withTest (s.test.applied pin)).test = s.test.applied pin from rfl, gone]; decide)]
  exact congrArg _ shown

/-! ### Patterns (R520 to R523) -/

theorem Map.find_mapEntries {α : Type} (m : Map α) (f : Nat → α → α) {z : α} {k : Nat} (zero : f k z = z) :
    Map.find (m.map fun e => (e.1, f e.1 e.2)) z k = f k (m.find z k) := by
  induction m with
  | nil => exact zero.symm
  | cons e m ih =>
    simp only [List.map_cons, Map.find, ih]
    split
    next same => rw [same]
    next => rfl

/-- A value that is not the default stands in the list. -/
theorem Map.any_of_find {α : Type} {m : Map α} {z : α} {k : Nat} {p : α → Bool} (zero : p z = false) (found : p (m.find z k) = true) :
    (m.any fun e => p e.2) = true := by
  induction m with
  | nil => exact absurd found (by simp [Map.find, zero])
  | cons e m ih =>
    rw [Map.find] at found
    split at found
    · simp [found]
    · simp [ih found]

section Ports

variable (f : LinkPort → LinkPort) (on : Nat → Bool)

/-- The ports of a list that a mask names are changed once. -/
theorem foldl_setPort_port {l : List Nat} (once : l.Nodup) (s : State) (q : Nat) :
    (l.foldl (fun s p => if on p then s.setPort p (f (s.port p)) else s) s).port q =
      if q ∈ l ∧ on q = true then f (s.port q) else s.port q := by
  induction l generalizing s with
  | nil => simp
  | cons p l ih =>
    obtain ⟨fresh, once⟩ := List.nodup_cons.mp once
    rw [List.foldl_cons, ih once]
    by_cases same : q = p
    · subst same
      rw [if_neg (fun h => fresh h.1)]
      split
      next set => rw [State.port_setPort, if_pos ⟨List.mem_cons_self, set⟩]
      next unset => rw [if_neg (fun h => unset h.2)]
    · have kept : (if on p then s.setPort p (f (s.port p)) else s).port q = s.port q := by
        split
        · exact s.port_setPort_other _ same
        · rfl
      rw [kept]
      simp [same]

theorem foldl_setPort_rest (l : List Nat) (s : State) :
    ({ l.foldl (fun s p => if on p then s.setPort p (f (s.port p)) else s) s with ports := s.ports } : State) = s :=
  foldl_keeps (fun t : State => { t with ports := s.ports }) (fun s p => if on p then s.setPort p (f (s.port p)) else s)
    (fun p s => by split <;> rfl) l s

end Ports

/-- The pattern block that PATTERN_SET leaves. -/
def Pattern.chosen (x : Pattern) (pattern flags : Nat) : Pattern :=
  let old := if bit flags 4 then x.clear else x
  { old with
    pattern := pattern, tx := bit flags 0, rx := bit flags 1, width8 := bit flags 2, wl1Rate := bit flags 3, gens := []
    lanes := old.lanes.map fun l => (l.1, { l.2 with locked := false }) }

theorem LinkPort.setPattern_pat (x : LinkPort) (pattern flags : Nat) : (x.setPattern pattern flags).pat = x.pat.chosen pattern flags := by
  unfold LinkPort.setPattern
  dsimp only
  split <;> rfl

theorem LinkPort.setPattern_state (x : LinkPort) {pattern : Nat} (flags : Nat) (some : pattern ≠ 0) :
    (x.setPattern pattern flags).state = .off := by
  unfold LinkPort.setPattern
  dsimp only
  rw [if_neg some]

theorem Pattern.chosen_lane (x : Pattern) (pattern flags l : Nat) : (x.chosen pattern flags).lanes.find .init l =
    { (if bit flags 4 then x.clear else x).lanes.find .init l with locked := false } :=
  Map.find_mapValues (if bit flags 4 then x.clear else x).lanes (fun c : Checker => { c with locked := false }) rfl l

theorem Pattern.clear_lane (x : Pattern) (l : Nat) : x.clear.lanes.find .init l = { x.lanes.find .init l with err := 0 } :=
  Map.find_mapValues x.lanes (fun c : Checker => { c with err := 0 }) rfl l

theorem LinkPort.setPattern_shows (x : LinkPort) (pattern flags : Nat) : let y := x.setPattern pattern flags
    y.pat.pattern = pattern ∧ y.pat.tx = bit flags 0 ∧ y.pat.rx = bit flags 1 ∧ y.pat.width8 = bit flags 2 ∧ y.pat.wl1Rate = bit flags 3 ∧
      (∀ l, (y.pat.lanes.find .init l).locked = false) ∧
      (bit flags 4 = true → y.pat.bits = 0 ∧ ∀ l, (y.pat.lanes.find .init l).err = 0) ∧ (pattern ≠ 0 → y.state = .off) := by
  dsimp only
  rw [x.setPattern_pat]
  refine ⟨rfl, rfl, rfl, rfl, rfl, fun l => ?_, fun clears => ⟨?_, fun l => ?_⟩, x.setPattern_state flags⟩
  · rw [Pattern.chosen_lane]
  · rw [Pattern.chosen, if_pos clears]
    rfl
  · rw [Pattern.chosen_lane, if_pos clears, Pattern.clear_lane]

/-- What a lane's checker makes of a comparison. -/
def Checker.counted (x : Checker) (errs : Nat) : Checker := if x.locked then { x with err := satAdd 64 x.err errs } else x

theorem Pattern.compare_lane (x : Pattern) (cmp : Nat) (errs : List Nat) (l : Nat) :
    (x.compare cmp errs).lanes.find .init l = (x.lanes.find .init l).counted (errs.getD l 0) :=
  Map.find_mapEntries x.lanes (fun k (c : Checker) => c.counted (errs.getD k 0)) rfl

/-- The bits are counted while a lane is locked. -/
theorem Pattern.compare_bits {x : Pattern} {l : Nat} (locked : (x.lanes.find .init l).locked = true) (cmp : Nat) (errs : List Nat) :
    (x.compare cmp errs).bits = satAdd 64 x.bits cmp :=
  if_pos (Map.any_of_find (p := fun c : Checker => c.locked) rfl locked)

theorem Pattern.lock_lane (x : Pattern) (l : Nat) (on : Bool) :
    (x.lock l on).lanes.find .init l = { x.lanes.find .init l with locked := on } ∧
      ∀ k, k ≠ l → (x.lock l on).lanes.find .init k = x.lanes.find .init k :=
  ⟨Map.find_put_same .., fun _ other => Map.find_put_other _ _ _ other⟩

/-! ### The checkers' events (R522, R532) -/

section Checkers

variable {s : State} {p l : Nat} (there : p < 16) (lane : l < 16)
include there lane

theorem checkerLock_free (off : (s.port p).state = .off) (pattern : (s.port p).pat.pattern ≠ 0) (rx : (s.port p).pat.rx = true)
    (wide : l < 8 ∨ (s.port p).pat.width8 = false) : completes (.checkerLock p l) s fun t =>
      ((t.port p).pat.lanes.find .init l).locked = true ∧
        (∀ k, k ≠ l → (t.port p).pat.lanes.find .init k = (s.port p).pat.lanes.find .init k) ∧
        (∀ q, q ≠ p → t.port q = s.port q) ∧ ({ t with ports := s.ports } : State) = s := by
  have row : exec (.checkerLock p l) s = .next (s.setPort p { s.port p with pat := (s.port p).pat.lock l true }) := by
    refine Eq.trans (b := execCheckerLock p l s) rfl ?_
    rw [execCheckerLock, if_neg (by omega)]
    dsimp only
    rw [if_neg (by omega), if_neg (by simp [off])]
    exact if_pos (by simpa [pattern, rx] using wide)
  have own : ((s.setPort p { s.port p with pat := (s.port p).pat.lock l true }).port p).pat = (s.port p).pat.lock l true := by
    rw [State.port_setPort]
  obtain ⟨locked, others⟩ := (s.port p).pat.lock_lane l true
  refine ⟨_, row, ?_, fun k other => ?_, fun q other => s.port_setPort_other _ other, rfl⟩
  · rw [own, locked]
  · rw [own, others k other]

/-- The last lane to lock ends DETECT. -/
theorem checkerLock_last (training : (s.port p).state = .training) (detect : (s.port p).phase = 1)
    (others : ∀ k, k < (s.port p).laneCount → k ≠ l → ((s.port p).pat.lanes.find .init k).locked = true) :
    completes (.checkerLock p l) s fun t => (t.port p).phase = 2 ∧ (t.port p).phaseAt = s.gsc ∧ (t.port p).state = .training ∧
      ∀ q, q ≠ p → t.port q = s.port q := by
  have all : ((List.range (s.port p).laneCount).all fun i => (((s.port p).pat.lock l true).lanes.find .init i).locked) = true := by
    refine List.all_eq_true.mpr fun k mem => ?_
    obtain ⟨own, rest⟩ := (s.port p).pat.lock_lane l true
    by_cases same : k = l
    · rw [same, own]
    · rw [rest k same]
      exact others k (List.mem_range.mp mem) same
  have row : exec (.checkerLock p l) s = .next ((s.setPort p { s.port p with pat := .init }).nextPhase p) := by
    refine Eq.trans (b := execCheckerLock p l s) rfl ?_
    rw [execCheckerLock, if_neg (by omega)]
    dsimp only
    rw [if_neg (by omega), if_pos (by simp [training, detect])]
    exact if_pos all
  have plain : (s.setPort p { s.port p with pat := .init }).port p = { s.port p with pat := .init } := State.port_setPort ..
  have next := (s.setPort p { s.port p with pat := .init }).nextPhase_port p
  rw [plain] at next
  dsimp only at next
  rw [if_neg (by simp [detect])] at next
  refine ⟨_, row, ?_, ?_, ?_, fun q other => (State.port_setPort_other _ _ other).trans (s.port_setPort_other _ other)⟩
  · rw [next, detect]
  · rw [next]
    rfl
  · rw [next, training]

omit lane in
theorem checkerLockLost_counts (cmp errs : Nat) (locked : ((s.port p).pat.lanes.find .init l).locked = true) :
    completes (.checkerLockLost p l cmp errs) s fun t => ((t.port p).pat.lanes.find .init l).locked = false ∧
      ((t.port p).pat.lanes.find .init l).err = min (((s.port p).pat.lanes.find .init l).err + errs) (2 ^ 64 - 1) ∧
      (t.port p).pat.bits = min ((s.port p).pat.bits + cmp) (2 ^ 64 - 1) ∧ (∀ q, q ≠ p → t.port q = s.port q) ∧
      ({ t with ports := s.ports } : State) = s := by
  have row : exec (.checkerLockLost p l cmp errs) s = .next (s.setPort p { s.port p with
      pat := ((s.port p).pat.compare cmp (List.replicate l 0 ++ [errs])).lock l false }) := by
    refine Eq.trans (b := execCheckerLockLost p l cmp errs s) rfl ?_
    rw [execCheckerLockLost, if_neg (by omega)]
    exact if_neg (by simp [locked])
  generalize pat : ((s.port p).pat.compare cmp (List.replicate l 0 ++ [errs])).lock l false = y at row
  have own : ((s.setPort p { s.port p with pat := y }).port p).pat = y := by rw [State.port_setPort]
  have lane : y.lanes.find .init l = { ((s.port p).pat.lanes.find .init l).counted errs with locked := false } := by
    rw [← pat, (Pattern.lock_lane ..).1, Pattern.compare_lane]
    simp
  have counted : ((s.port p).pat.lanes.find .init l).counted errs =
      { (s.port p).pat.lanes.find .init l with err := satAdd 64 ((s.port p).pat.lanes.find .init l).err errs } := if_pos locked
  refine ⟨_, row, ?_, ?_, ?_, fun q other => s.port_setPort_other _ other, rfl⟩
  · rw [own, lane]
  · rw [own, lane, counted]
    rfl
  · rw [own, ← pat]
    exact Pattern.compare_bits locked cmp (List.replicate l 0 ++ [errs])

end Checkers

/-! ### The pattern commands -/

section Commands

variable {s : State} {ch : Nat} {c : Cmd}

theorem patternSet_refused (turn : s.carries ch 0x0802 c) (len : c.length = 4) (low : fld c.payload 2 1 ≤ 7)
    (flags : fld c.payload 3 1 < 32) (some : fld c.payload 2 1 ≠ 0)
    (job : s.job.state = .armed ∨ s.job.state = .running ∨ s.job.state = .paused) :
    answered (.patternSet ch) s ch (s.accepted ch c) (.of .state) := by
  refine answered_kept (p := patternSet) rfl turn (decide_eq_true len) (by simp [patternSet, low, flags]) rfl (if_pos ?_) rfl
  have barred : (s.accepted ch c).job.state ∉ patternStates := by
    change s.job.state ∉ patternStates
    rcases job with h | h | h <;> rw [h] <;> decide
  simp [some, barred]

theorem mem_patternStates {j : JobState} (free : j ≠ .armed ∧ j ≠ .running ∧ j ≠ .paused) : j ∈ patternStates := by
  cases j <;> simp_all [patternStates]

theorem patternSet_sets (turn : s.carries ch 0x0802 c) (len : c.length = 4) (low : fld c.payload 2 1 ≤ 7)
    (flags : fld c.payload 3 1 < 32)
    (free : fld c.payload 2 1 = 0 ∨ (s.job.state ≠ .armed ∧ s.job.state ≠ .running ∧ s.job.state ≠ .paused)) :
    ∃ t, answered (.patternSet ch) s ch t .ok ∧ ({ t with ports := (s.accepted ch c).ports } : State) = s.accepted ch c ∧
      ∀ p, p < 16 → t.port p =
        if bit (fld c.payload 0 2) p then (s.port p).setPattern (fld c.payload 2 1) (fld c.payload 3 1) else s.port p := by
  obtain ⟨a, accepted⟩ : ∃ a, a = s.accepted ch c := ⟨_, rfl⟩
  have rest := foldl_setPort_rest (fun x => x.setPattern (fld c.payload 2 1) (fld c.payload 3 1)) (bit (fld c.payload 0 2)) (List.range 16) a
  have ports := foldl_setPort_port (fun x => x.setPattern (fld c.payload 2 1) (fld c.payload 3 1)) (bit (fld c.payload 0 2))
    (List.nodup_range (n := 16)) a
  have act : patternSet.act a ch c.payload = .done ((List.range 16).foldl (fun s p => if bit (fld c.payload 0 2) p then
      s.setPort p ((s.port p).setPattern (fld c.payload 2 1) (fld c.payload 3 1)) else s) a) .ok := by
    refine if_neg ?_
    have job : a.job = s.job := by rw [accepted]; rfl
    rcases free with none | free
    · simp [none]
    · simp [job, mem_patternStates free]
  generalize List.foldl _ a (List.range 16) = t at rest ports act
  refine ⟨t, answered_kept (p := patternSet) rfl turn (decide_eq_true len) (by simp [patternSet, low, flags]) rfl (accepted ▸ act)
    ((congrArg State.host rest :).trans (by rw [accepted])), accepted ▸ rest, fun p there => ?_⟩
  rw [ports p]
  have same : a.port p = s.port p := by rw [accepted]; rfl
  simp [there, same]

/-- A command of the observation pins. -/
theorem obsSet_selects {m : Nat} (turn : s.carries ch 0x0801 c) (len : c.length = 4) (pin : fld c.payload 0 1 ≤ 7)
    (args : obsArgs (fld c.payload 1 1) = some m) (arg : fld c.payload 2 1 ≤ m) (div : fld c.payload 3 1 ≤ 15) :
    answered (.obsSet ch) s ch ((s.accepted ch c).selectObs (fld c.payload 0 1)
      { signal := fld c.payload 1 1, arg := fld c.payload 2 1, div := fld c.payload 3 1 }) .ok :=
  answered_kept (p := obsSet) rfl turn (decide_eq_true len) (by simp [obsSet, pin, args, arg, div]) rfl rfl rfl

theorem State.accepted_obsLevel (s : State) (ch : Nat) (c : Cmd) (p : Nat) : (s.accepted ch c).obsLevel p = s.obsLevel p := rfl

/-- The module with one port changed. -/
def onlyPort (s a t : State) (p : Nat) (x : LinkPort) : Prop :=
  t.port p = x ∧ (∀ q, q ≠ p → t.port q = s.port q) ∧ ({ t with ports := a.ports } : State) = a

theorem onlyPort_setPort (s : State) (ch : Nat) (c : Cmd) (p : Nat) (x : LinkPort) :
    onlyPort s (s.accepted ch c) ((s.accepted ch c).setPort p x) p x :=
  ⟨State.port_setPort .., fun _ other => State.port_setPort_other _ _ other, rfl⟩

theorem patternRead_reads (cmp : Nat) (errs : List Nat) (turn : s.carries ch 0x0803 c) (len : c.length = 1) (low : fld c.payload 0 1 ≤ 15) :
    let y := (s.port (fld c.payload 0 1)).pat.compare cmp errs
    answered (.patternRead ch cmp errs) s ch
      ((s.accepted ch c).setPort (fld c.payload 0 1) { s.port (fld c.payload 0 1) with pat := y })
      (.ok (leBytes 2 y.lockMask ++ zeros 6 ++ leBytes 8 y.bits ++
        (List.range 16).flatMap fun l => leBytes 8 (y.lanes.find .init l).err)) :=
  answered_kept (p := patternRead cmp errs) rfl turn (decide_eq_true len) (by simp [patternRead, low]) rfl rfl rfl

theorem Pattern.compare_unlocked {x : Pattern} {l : Nat} (unlocked : (x.lanes.find .init l).locked = false) (cmp : Nat) (errs : List Nat) :
    (x.compare cmp errs).lanes.find .init l = x.lanes.find .init l := by
  rw [Pattern.compare_lane, Checker.counted, if_neg (by simp [unlocked])]

/-! ### Injection (R524) -/

section Inject

variable (turn : s.carries ch 0x0804 c) (len : c.length = 10) (fields : inject.fields c.payload = true)
  (stale : fld c.payload 1 1 ≠ 3 ∨ staleOk (fld c.payload 8 2) (s.port (fld c.payload 0 1)).replayNs = true)
include turn len fields in
theorem inject_of {t : State} {r : Reply} (act : inject.act (s.accepted ch c) ch c.payload = .done t r)
    (kept : t.host = (s.accepted ch c).host) : answered (.inject ch) s ch t r :=
  answered_kept (p := inject) rfl turn (decide_eq_true len) fields rfl act kept

include stale in
theorem inject_act_of {v : Verdict} (rest : (let x := s.port (fld c.payload 0 1)
      if x.state ≠ .active || x.modeNow ≠ 1 then Verdict.done (s.accepted ch c) (.of .state)
      else if x.inj.isSome then .done (s.accepted ch c) (.of .busy)
      else .done ((s.accepted ch c).setPort (fld c.payload 0 1) { x with inj := some {
          kind := fld c.payload 1 1, cls := fld c.payload 2 1, nsym := fld c.payload 3 1
          left := if fld c.payload 1 1 = 3 then fld c.payload 8 2 else fld c.payload 4 2
          spacing := fld c.payload 6 2, since := fld c.payload 6 2, ack := x.ackPt } }) .ok) = v) :
    inject.act (s.accepted ch c) ch c.payload = v := by
  have clear : ¬((fld c.payload 1 1 = 3 && !staleOk (fld c.payload 8 2) (s.port (fld c.payload 0 1)).replayNs) = true) := by
    rcases stale with h | h <;> simp [h]
  exact (if_neg clear).trans rest

include turn len fields stale

theorem inject_away (away : (s.port (fld c.payload 0 1)).state ≠ .active ∨ (s.port (fld c.payload 0 1)).modeNow ≠ 1) :
    answered (.inject ch) s ch (s.accepted ch c) (.of .state) :=
  inject_of turn len fields (inject_act_of stale (if_pos (by simpa using away))) rfl

theorem inject_busy (active : (s.port (fld c.payload 0 1)).state = .active) (mode : (s.port (fld c.payload 0 1)).modeNow = 1)
    (busy : (s.port (fld c.payload 0 1)).inj.isSome = true) : answered (.inject ch) s ch (s.accepted ch c) (.of .busy) :=
  inject_of turn len fields (inject_act_of stale ((if_neg (by simp [active, mode])).trans (if_pos busy))) rfl

theorem inject_starts (active : (s.port (fld c.payload 0 1)).state = .active) (mode : (s.port (fld c.payload 0 1)).modeNow = 1)
    (free : (s.port (fld c.payload 0 1)).inj = none) : answered (.inject ch) s ch ((s.accepted ch c).setPort (fld c.payload 0 1)
      { s.port (fld c.payload 0 1) with inj := some {
          kind := fld c.payload 1 1, cls := fld c.payload 2 1, nsym := fld c.payload 3 1
          left := if fld c.payload 1 1 = 3 then fld c.payload 8 2 else fld c.payload 4 2
          spacing := fld c.payload 6 2, since := fld c.payload 6 2, ack := (s.port (fld c.payload 0 1)).ackPt } }) .ok :=
  inject_of turn len fields (inject_act_of stale
    ((if_neg (by simp [active, mode])).trans (if_neg (by simp [free])))) rfl

end Inject

/-! ### Margining (R525) -/

section Margin

variable (turn : s.carries ch 0x0805 c) (len : c.length = 12) (fields : margin.fields c.payload = true)
include turn len fields

theorem margin_away (away : (s.port (fld c.payload 0 1)).marginable = false) :
    answered (.margin ch) s ch (s.accepted ch c) (.of .state) :=
  answered_kept (p := margin) rfl turn (decide_eq_true len) fields rfl (if_pos (by
    change (!(s.port (fld c.payload 0 1)).marginable) = true
    simp [away])) rfl

variable (able : (s.port (fld c.payload 0 1)).marginable = true)
include able

theorem margin_busy (busy : (s.port (fld c.payload 0 1)).margin.isSome = true) :
    answered (.margin ch) s ch (s.accepted ch c) (.of .busy) :=
  answered_kept (p := margin) rfl turn (decide_eq_true len) fields rfl ((if_neg (by
    change ¬((!(s.port (fld c.payload 0 1)).marginable) = true)
    simp [able])).trans (if_pos busy)) rfl

theorem margin_starts (free : (s.port (fld c.payload 0 1)).margin = none) : exec (.margin ch) s =
    .next ((s.accepted ch c).setPort (fld c.payload 0 1) { s.port (fld c.payload 0 1) with margin := some {
      lane := fld c.payload 1 1, eye := fld c.payload 2 1, time := fld c.payload 4 1, volt := fld c.payload 5 1
      ends := s.gsc + 1000 * fld c.payload 8 4, chan := ch, aborted := false } }) := by
  refine Eq.trans (b := margin.row ch s) rfl (margin.row_goOn turn (decide_eq_true len) fields rfl ?_ (State.keepsOrder_of rfl rfl))
  refine (if_neg (by
    change ¬((!(s.port (fld c.payload 0 1)).marginable) = true)
    simp [able])).trans (if_neg ?_)
  change ¬((s.port (fld c.payload 0 1)).margin.isSome = true)
  simp [free]

end Margin

theorem State.accepted_executing (s : State) (ch : Nat) (c : Cmd) : (s.accepted ch c).cmdOf ch = some { c with executing := true } :=
  congrArg Channel.cmd (State.chan_setChan ..)

end Commands

/-- The dwell of a margining ends (R525). -/
theorem marginDwellEnd_ends {s : State} {p : Nat} {m : Margin} (there : p < 16) (margin : (s.port p).margin = some m) :
    completes (.marginDwellEnd p) s fun t => (t.port p).margin = none ∧ (∀ q, q ≠ p → t.port q = s.port q) ∧
      (m.aborted = false → t.gsc = max s.gsc m.ends) ∧ (m.aborted = true → t.gsc = s.gsc) ∧
      ∀ d, s.cmdOf m.chan = some d → ∃ r, (t.chan m.chan).resp = some r ∧ r.result = 0#16 ∧ r.payload.length = 17 := by
  obtain ⟨w, passed⟩ : ∃ w, w = if m.aborted then s else s.advanceTo m.ends := ⟨_, rfl⟩
  have ports : w.ports = s.ports := by
    rw [passed]
    split
    · rfl
    · exact State.advanceTo_ports ..
  have host : w.host = s.host := by
    rw [passed]
    split
    · rfl
    · exact State.advanceTo_host ..
  obtain ⟨u, ended⟩ : ∃ u : State, u = { w with free := w.free + 1 }.setPort p { w.port p with margin := none } := ⟨_, rfl⟩
  obtain ⟨r, answer⟩ : ∃ r : Reply, r = .ok (leBytes 8 (Config.marginSymbols w.free).1 ++ leBytes 8 (Config.marginSymbols w.free).2 ++
    leBytes 1 (bitAt 0 m.aborted)) := ⟨_, rfl⟩
  have row : exec (.marginDwellEnd p) s = .next (u.respond m.chan r) := by
    refine Eq.trans (b := execMarginDwellEnd p s) rfl ?_
    rw [execMarginDwellEnd, if_neg (by omega), margin, ended, answer, passed]
  have port : ∀ q, (u.respond m.chan r).port q = u.port q := fun q => by rw [State.port, State.respond_ports]; rfl
  have gsc : (u.respond m.chan r).gsc = w.gsc := by rw [State.respond_gsc, ended]; rfl
  refine ⟨_, row, ?_, fun q other => ?_, fun whole => ?_, fun aborted => ?_, fun d cmd => ?_⟩
  · rw [port, ended, State.port_setPort]
  · rw [port, ended, State.port_setPort_other _ _ other]
    exact congrArg (fun m : Map LinkPort => m.find .init q) ports
  · rw [gsc, passed, if_neg (by simp [whole]), State.advanceTo_gsc]
  · rw [gsc, passed, if_pos aborted]
  · have cmd' : u.cmdOf m.chan = some d := by
      rw [ended]
      exact (congrArg (fun h : HostBlk => (h.chans.find .init m.chan).cmd) host).trans cmd
    refine ⟨_, congrArg Channel.resp (State.respond_chan cmd' r).1, ?_, ?_⟩
    · rw [answer]; rfl
    · rw [answer]
      simp [Reply.ok]

/-! ### The debug stop (R526 to R528) -/

/-- What a channel's command and the nonce leave of a core's section. -/
theorem State.debugSection_host (s : State) (h : HostBlk) (x : Sec) (c : Nat) :
    ({ s with host := h, sec := x } : State).debugSection c = s.debugSection c := rfl

/-- A region as the end of the debug stop leaves it. -/
def Region.released (x : Region) (gsc n : Nat) : Region :=
  { x with lastIssue := gsc, gate := x.gate.map fun g => { g with since := min gsc (g.since + n) } }

theorem State.releaseDebug_shows (s : State) : s.releaseDebug.pace.debugStop = none ∧ s.releaseDebug.host = s.host ∧
    s.releaseDebug.cores = s.cores ∧ s.releaseDebug.gsc = s.gsc ∧
    ∀ r, r < 80 → (s.releaseDebug.region r).issued = (s.region r).issued ∧ (s.releaseDebug.region r).lastIssue = s.gsc := by
  have eq : s.releaseDebug = let u := s.mapRegions fun x => x.released s.gsc s.pace.debugNs
      { u with pace := { u.pace with debugStop := none, debugNs := 0 } } := rfl
  have regions := fun r there => s.mapRegions_region (fun x => x.released s.gsc s.pace.debugNs) (q := r) there
  have host := State.mapRegions_keeps State.host (fun _ _ _ => rfl) s fun x => x.released s.gsc s.pace.debugNs
  have cores := s.mapRegions_cores fun x => x.released s.gsc s.pace.debugNs
  have gsc := s.mapRegions_gsc fun x => x.released s.gsc s.pace.debugNs
  rw [eq]
  generalize (s.mapRegions fun x => x.released s.gsc s.pace.debugNs) = u at regions host cores gsc
  exact ⟨rfl, host, cores, gsc, fun r there =>
    ⟨(congrArg Region.issued (regions r there) :), (congrArg Region.lastIssue (regions r there) :)⟩⟩

section Debug

variable {s : State} {ch : Nat} {c : Cmd}

theorem State.carries_opcode {op : Nat} (turn : s.carries ch op c) : c.opcode = op := by
  obtain ⟨-, -, -, opcode, -⟩ := turn
  exact opcode

theorem debugStop_act (a : State) (owned : Bool) (ch : Nat) (b : Bytes) : (debugStop owned).act a ch b =
    a.ownerGate owned 0x0806 b fun s => .done { s with pace := { s.pace with debugStop := some (fld b 0 8), debugNs := 0 } } .ok := rfl

theorem debugRead_act (s a : State) (ch : Nat) (b : Bytes) : (debugRead s).act a ch b =
    a.ownerGate s.sec.owner.isSome 0x0807 b fun s => .done s (.ok (sub (s.debugSection (fld b 0 2)) (fld b 4 4) (fld b 8 4))) := rfl

/-- A test command that its owner does not authorise. -/
theorem ownerGate_refused {i : Instr} {v : Verdict} {au : Auth} {op : Nat} {f : State → Verdict} (opcode : c.opcode = op)
    (answers : ∀ t r, v = .done t r → t.host = (s.accepted ch c).host → answered i s ch t r)
    (act : v = (s.accepted ch c).ownerGate s.sec.owner.isSome op c.payload f)
    (auth : au = if s.sec.owner.isSome then s.ownerAuth c.opcode c.payload else .ok) (bad : au ≠ .ok) :
    ∃ t f, answered i s ch t (.bad .auth f) ∧ t.pace = s.pace ∧ t.cores = s.cores := by
  have owned : s.sec.owner.isSome = true := by
    by_contra free
    rw [if_neg free] at auth
    exact bad auth
  rw [if_pos owned, opcode] at auth
  have same : (s.accepted ch c).ownerAuth op c.payload = au := auth.symm
  rw [State.ownerGate, if_pos owned, same] at act
  obtain ⟨key, nonce⟩ := refusedAs_of answers act
  have kept : ((s.accepted ch c).useNonce (trailerNonce c.payload)).pace = s.pace ∧
      ((s.accepted ch c).useNonce (trailerNonce c.payload)).cores = s.cores := by
    unfold State.useNonce
    split <;> exact ⟨rfl, rfl⟩
  cases au with
  | ok => exact absurd rfl bad
  | badKey => exact ⟨_, _, key rfl, kept⟩
  | badNonce => exact ⟨_, _, nonce rfl, kept⟩

/-- One that is authorised has its effect on the module, its nonce used when an owner signs. -/
theorem ownerGate_ok {au : Auth} {op : Nat} {f : State → Verdict} (opcode : c.opcode = op)
    (auth : au = if s.sec.owner.isSome then s.ownerAuth c.opcode c.payload else .ok) (ok : au = .ok) :
    ∃ x, (s.accepted ch c).ownerGate s.sec.owner.isSome op c.payload f = f { s.accepted ch c with sec := x } := by
  unfold State.ownerGate
  split
  case isTrue owned =>
    rw [if_pos owned, opcode] at auth
    have same : (s.accepted ch c).ownerAuth op c.payload = .ok := auth.symm.trans ok
    exact ⟨_, State.signed_ok same (State.nonceGood_of_ownerAuth same)⟩
  case isFalse => exact ⟨(s.accepted ch c).sec, rfl⟩

theorem debugStop_of {t : State} {r : Reply} (turn : s.carries ch 0x0806 c) (running : s.job.state = .running)
    (len : if s.sec.owner.isSome then c.length = 136 else c.length = 8)
    (act : (debugStop s.sec.owner.isSome).act (s.accepted ch c) ch c.payload = .done t r)
    (kept : t.host = (s.accepted ch c).host) : answered (.debugStop ch) s ch t r := by
  refine answered_kept (p := debugStop s.sec.owner.isSome) rfl turn (decide_eq_true ?_) rfl ?_ act kept
  · split at len <;> simp_all
  · exact (congrArg (fun j => [JobState.running].contains j) running).trans rfl

theorem debugRead_of {t : State} {r : Reply} (turn : s.carries ch 0x0807 c)
    (job : (s.job.state = .running ∧ s.debugStopped = true) ∨ s.job.state = .faulted)
    (len : if s.sec.owner.isSome then c.length = 140 else c.length = 12) (fields : (debugRead s).fields c.payload = true)
    (act : (debugRead s).act (s.accepted ch c) ch c.payload = .done t r)
    (kept : t.host = (s.accepted ch c).host) : answered (.debugRead ch) s ch t r := by
  refine answered_kept (p := debugRead s) rfl turn (decide_eq_true ?_) fields ?_ act kept
  · split at len <;> simp_all
  · change ((decide (s.job.state = .running) && s.debugStopped) || decide (s.job.state = .faulted)) = true
    simpa using job

theorem debugStop_stops {au : Auth} (turn : s.carries ch 0x0806 c) (running : s.job.state = .running)
    (len : if s.sec.owner.isSome then c.length = 136 else c.length = 8)
    (auth : au = if s.sec.owner.isSome then s.ownerAuth c.opcode c.payload else .ok) (ok : au = .ok) :
    ∃ t, answered (.debugStop ch) s ch t .ok ∧ t.pace = { s.pace with debugStop := some (fld c.payload 0 8), debugNs := 0 } ∧
      t.cores = s.cores ∧ t.regions = s.regions ∧ t.power = s.power := by
  obtain ⟨x, gate⟩ := ownerGate_ok (ch := ch) (f := fun s =>
    .done { s with pace := { s.pace with debugStop := some (fld c.payload 0 8), debugNs := 0 } } .ok) (State.carries_opcode turn) auth ok
  exact ⟨_, debugStop_of turn running len gate rfl, rfl, rfl, rfl, rfl⟩

theorem debugRead_reads {au : Auth} (turn : s.carries ch 0x0807 c)
    (job : (s.job.state = .running ∧ s.debugStopped = true) ∨ s.job.state = .faulted)
    (len : if s.sec.owner.isSome then c.length = 140 else c.length = 12) (fields : (debugRead s).fields c.payload = true)
    (auth : au = if s.sec.owner.isSome then s.ownerAuth c.opcode c.payload else .ok) (ok : au = .ok) :
    ∃ t, answered (.debugRead ch) s ch t (.ok (sub (s.debugSection (fld c.payload 0 2)) (fld c.payload 4 4) (fld c.payload 8 4))) ∧
      t.cores = s.cores ∧ t.pace = s.pace ∧ t.ss = s.ss := by
  obtain ⟨x, gate⟩ := ownerGate_ok (ch := ch) (f := fun s =>
    .done s (.ok (sub (s.debugSection (fld c.payload 0 2)) (fld c.payload 4 4) (fld c.payload 8 4)))) (State.carries_opcode turn) auth ok
  have seen : ({ s.accepted ch c with sec := x } : State).debugSection (fld c.payload 0 2) = s.debugSection (fld c.payload 0 2) :=
    s.debugSection_host (s.accepted ch c).host x _
  dsimp only at gate
  rw [seen] at gate
  exact ⟨_, debugRead_of turn job len fields gate rfl, rfl, rfl, rfl⟩

theorem debugRelease_refused (turn : s.carries ch 0x0808 c) (len : c.length = 0)
    (barred : s.job.state ≠ .running ∨ s.debugStopped = false) : answered (.debugRelease ch) s ch
      { s with host := { s.host with order := s.host.order.drop 1 } } (.of .state) := by
  refine answered_refused (p := debugRelease) rfl turn ?_
  obtain ⟨-, boot, -, -, -, reserved, -⟩ := turn
  have closed : debugRelease.allowed { s with host := { s.host with order := s.host.order.drop 1 } } = false := by
    change (decide (s.job.state = .running) && s.debugStopped) = false
    rcases barred with h | h <;> simp [h]
  rw [CmdSpec.check, if_neg (by simp [boot]), if_neg (by simp [debugRelease, len]), if_neg (by simp [reserved, debugRelease])]
  exact if_pos (congrArg (!·) closed)

theorem debugRelease_releases (turn : s.carries ch 0x0808 c) (len : c.length = 0) (running : s.job.state = .running)
    (stopped : s.debugStopped = true) : ∃ t, answered (.debugRelease ch) s ch t .ok ∧ t.pace.debugStop = none ∧
      (∀ r, r < 80 → (t.region r).issued = (s.region r).issued ∧ (t.region r).lastIssue = s.gsc) ∧ t.cores = s.cores ∧ t.gsc = s.gsc := by
  have allowed : debugRelease.allowed { s with host := { s.host with order := s.host.order.drop 1 } } = true := by
    change (decide (s.job.state = .running) && s.debugStopped) = true
    simp [running, stopped]
  obtain ⟨a, accepted⟩ : ∃ a, a = s.accepted ch c := ⟨_, rfl⟩
  obtain ⟨ends, host, cores, gsc, regions⟩ := a.releaseDebug_shows
  have act : debugRelease.act a ch c.payload = .done a.releaseDebug .ok := rfl
  generalize a.releaseDebug = t at ends host cores gsc regions act
  subst accepted
  exact ⟨t, answered_kept (p := debugRelease) rfl turn (decide_eq_true len) rfl allowed act host, ends, regions, cores, gsc⟩

end Debug

/-! ### The test access port (R530, R531) -/

theorem shiftOut_idcode (tdi : List Bool) {k : Nat} (low : k < 32) (shifted : k < tdi.length) :
    (shiftOut idcodeBits tdi).getD k false = (0x10D09C55#32).getLsbD k := by
  have bits : idcodeBits.length = 32 := rfl
  have own : idcodeBits.getD k false = (0x10D09C55#32).getLsbD k := by
    have all : ∀ k : Fin 32, idcodeBits.getD k false = (0x10D09C55#32).getLsbD k := by decide
    exact all ⟨k, low⟩
  rw [← own, shiftOut, List.getD_eq_getElem?_getD, List.getD_eq_getElem?_getD, List.getElem?_take_of_lt shifted,
    List.getElem?_append_left (bits ▸ low)]

/-- Settles O39: every test command answers what its row of the state gives, and an instruction of the test access port changes
the port's own registers alone. -/
theorem testAndAccess : Obligations.TestAndAccess := by
  unfold Obligations.TestAndAccess
  refine ⟨fun s ch c => ?_, fun s tdi => ?_⟩
  · dsimp only
    refine ⟨fun m turn len pin args arg div => obsSet_selects turn len pin args arg div, s.selectObs_obsLevel, fun pin => obsSelectApply_shows,
      fun turn len low flags => ⟨patternSet_refused turn len low flags, fun free => ?_⟩,
      fun cmp errs turn len low => ⟨_, patternRead_reads cmp errs turn len low, onlyPort_setPort .., fun l unlocked =>
        Pattern.compare_unlocked unlocked ..⟩,
      fun p l there lane => ⟨checkerLock_free there lane, fun training detect others _ => checkerLock_last there lane training detect others,
        fun cmp errs => checkerLockLost_counts there cmp errs⟩,
      fun turn len fields => ⟨inject_away turn len fields, inject_busy turn len fields, fun stale active mode free =>
        ⟨_, inject_starts turn len fields stale active mode free, onlyPort_setPort ..⟩⟩,
      fun turn len fields => ⟨margin_away turn len fields, margin_busy turn len fields, fun able free =>
        ⟨_, margin_starts turn len fields able free, onlyPort_setPort .., ?_⟩⟩,
      fun p m there => marginDwellEnd_ends there, fun i au which auth => ?_,
      fun turn len => ⟨debugRelease_refused turn len, debugRelease_releases turn len⟩⟩
    · obtain ⟨t, ran, rest, ports⟩ := patternSet_sets turn len low flags free
      refine ⟨t, ran, rest, fun p there => ?_⟩
      have port := ports p there
      split
      next unset => rw [port, if_neg (by simp [unset])]
      next set =>
        rw [port, if_pos (by simpa using set)]
        exact (s.port p).setPattern_shows ..
    · have cmd : ∀ x, (((s.accepted ch c).setPort (fld c.payload 0 1) x).cmdOf ch) = some { c with executing := true } :=
        fun _ => s.accepted_executing ch c
      rw [cmd]
      rfl
    · refine ⟨fun bad => ?_, fun ok stop => ?_, fun ok read => ?_⟩
      · rcases which with ⟨rfl, turn, running, len⟩ | ⟨rfl, turn, job, len, fields⟩
        · exact ownerGate_refused (State.carries_opcode turn) (fun t r => debugStop_of turn running len) (debugStop_act ..) auth bad
        · exact ownerGate_refused (State.carries_opcode turn) (fun t r => debugRead_of turn job len fields) (debugRead_act ..) auth bad
      · rcases which with ⟨rfl, turn, running, len⟩ | ⟨rfl, turn, job, len, fields⟩
        · exact debugStop_stops turn running len auth ok
        · cases stop
      · rcases which with ⟨rfl, turn, running, len⟩ | ⟨rfl, turn, job, len, fields⟩
        · cases read
        · exact debugRead_reads turn job len fields auth ok
  · refine ⟨rfl, rfl, ⟨_, rfl, rfl, rfl, fun k => shiftOut_idcode tdi⟩, rfl, ?_, ?_, ?_, ?_, ?_⟩ <;>
      exact ⟨fun active => congrArg Host.Outcome.next (if_pos active), fun idle => congrArg Host.Outcome.next (if_neg (by simp [idle]))⟩

end Sys2Proof.Machine

/-! PROOF. The commands of a loaded job: serve, arm, launch, resume, pause, unload and stop (R276, R315, R329, R402, R403, R421, R431). -/
namespace Sys2Proof.Machine

/-- A change of the job's state changes the job and the event controller. -/
theorem State.setJob_evc (s : State) (j : JobState) : ∃ x, s.setJob j = { s with job := { s.job with state := j } }.withEvc x := by
  unfold State.setJob
  split
  next same => exact ⟨s.host.evc, by rw [← same]; rfl⟩
  next =>
    dsimp only
    unfold State.event State.raiseCode
    split
    · exact State.raiseSource_host ..
    · exact ⟨s.host.evc, rfl⟩

section Commands

variable {s : State} {ch : Nat} {c : Cmd}

/-! ### JOB_SERVE and JOB_ARM -/

/-- A configuration in R276's fields. -/
structure ServeFields (b : Bytes) : Prop where
  serve : fld b 0 1 ≤ 15
  kv : fld b 1 1 ≤ 15
  adapters : fld b 2 1 ≤ 15 ∨ fld b 2 1 = 0xFF
  reserved : zeroAt b 3 1 = true
  whole : fld b 4 4 % 64 = 0
  least : 64 ≤ fld b 4 4
  most : fld b 4 4 ≤ 16777216
  vocab : 1 ≤ fld b 8 4 ∧ fld b 8 4 ≤ 524288
  window : fld b 12 4 = 0 ∨ 100000 ≤ fld b 12 4

theorem jobServe_of {t : State} {r : Reply} (turn : s.carries ch 0x0102 c) (len : c.length = 16) (loaded : s.job.state = .loaded)
    (fields : ServeFields c.payload) (act : jobServe.act (s.accepted ch c) ch c.payload = .done t r)
    (kept : t.host = (s.accepted ch c).host) : answered (.jobServe ch) s ch t r := by
  obtain ⟨serve, kv, adapters, reserved, whole, least, most, vocab, window⟩ := fields
  refine answered_kept (p := jobServe) rfl turn (decide_eq_true len) ?_ ?_ act kept
  · simp only [jobServe, serve, kv, adapters, reserved, whole, least, vocab, window, decide_true, Bool.and_true, Bool.and_eq_true,
      decide_eq_true_eq, Bool.or_eq_true, Bool.true_and]
    exact ⟨⟨trivial, most⟩, trivial⟩
  · exact (congrArg (fun j => [JobState.loaded].contains j) loaded).trans rfl

/-- What arming a job asks. -/
structure State.armable (s : State) (i : Image) : Prop where
  image : s.image = some i
  serving : i.stepCount = 0 ∨ (s.srv.cfg.isSome = true ∧ s.recs.enable = true)
  models : ∀ k ∈ i.models, (s.rmSlot k).state = .resident
  fabric : s.fabricReady = true
  heartbeat : if s.host.fenceMs = 0 then s.multi = false else s.heartbeatFresh = true

theorem State.armable.allowed {i : Image} (h : s.armable i) (loaded : s.job.state = .loaded) :
    jobArm.allowed { s with host := { s.host with order := s.host.order.drop 1 } } = true := by
  obtain ⟨image, serving, models, fabric, heartbeat⟩ := h
  have steps : s.stepCount = i.stepCount := by rw [State.stepCount, image]
  have resident : (match s.image with | some i => i.models.all fun k => (s.rmSlot k).state = .resident | none => false) = true := by
    rw [image]
    exact List.all_eq_true.mpr fun k mem => decide_eq_true (models k mem)
  have beat : (if s.host.fenceMs = 0 then !s.multi else s.heartbeatFresh) = true := by
    split at heartbeat
    next none => rw [if_pos none, heartbeat]; rfl
    next some => rw [if_neg some, heartbeat]
  have all : (s.job.state = .loaded && (s.stepCount = 0 || (s.srv.cfg.isSome && s.recs.enable)) &&
      (match s.image with | some i => i.models.all fun k => (s.rmSlot k).state = .resident | none => false) && s.fabricReady &&
      (if s.host.fenceMs = 0 then !s.multi else s.heartbeatFresh)) = true := by
    rw [resident, beat, fabric, loaded, steps]
    simpa using serving
  exact all

/-- Arming takes the manifest and its digest. -/
theorem jobArm_arms {i : Image} (turn : s.carries ch 0x0103 c) (len : c.length = 0) (loaded : s.job.state = .loaded) (ready : s.armable i) :
    ∃ t, answered (.jobArm ch) s ch t (.ok (sha384 s.manifest)) ∧ t.job.state = .armed ∧ t.recs.manifest = s.manifest ∧
      t.recs.manifestDigest = sha384 s.manifest ∧ ({ t with
        recs := (s.accepted ch c).recs, job := (s.accepted ch c).job, host := { t.host with evc := (s.accepted ch c).host.evc } } : State) =
          s.accepted ch c := by
  have act : jobArm.act (s.accepted ch c) ch c.payload =
      .done ((s.accepted ch c).takeManifest.setJob .armed) (.ok ((s.accepted ch c).takeManifest.setJob .armed).recs.manifestDigest) := rfl
  obtain ⟨x, armed⟩ := (s.accepted ch c).takeManifest.setJob_evc .armed
  rw [armed] at act
  exact ⟨_, answered_done (p := jobArm) rfl turn (decide_eq_true len) rfl (ready.allowed loaded) act rfl rfl, rfl, rfl, rfl, rfl⟩

/-! ### Launch and resume -/

/-- The module with its launch count fixed. -/
def State.fixed (s : State) (l : Nat) : State := s.withFab { s.fab with startAt := some l, launchAt := l }

/-- The module with its launch announced to no rank yet. -/
def State.announcing (s : State) (ch l : Nat) : State :=
  s.withFab { s.fab with startAt := some l, launchAt := l, launch := some { at_ := l, chan := ch, accepted := [], answered := false } }

/-- A message of MAINT to each rank of a list, its words the same throughout. -/
theorem foldl_sendMsg_shows (f : State → Nat → FabMsg) (steady : ∀ (s : State) r x m, f (s.sendMsg r 3 x m) = f s) (x : Nat) (l : List Nat)
    (s : State) :
    let t := l.foldl (fun s r => s.sendMsg r 3 x (f s r)) s
    t.fab.sent = s.fab.sent ++ l.map (fun r => (r, f s r)) ∧ t.fab.startAt = s.fab.startAt ∧ t.fab.launchAt = s.fab.launchAt ∧
      t.fab.launch = s.fab.launch ∧ t.host = s.host := by
  induction l generalizing s with
  | nil => exact ⟨(List.append_nil _).symm, rfl, rfl, rfl, rfl⟩
  | cons r l ih =>
    obtain ⟨sent, start, count⟩ := s.sendMsg_maint_sent r x (f s r)
    have launch := State.sendMsg_maint_leaves (fun s => s.fab.launch) (fun _ _ _ _ _ _ _ _ _ => rfl) s r x (f s r)
    have host := State.sendMsg_maint_leaves State.host (fun _ _ _ _ _ _ _ _ _ => rfl) s r x (f s r)
    obtain ⟨sent', start', count', launch', host'⟩ := ih (s.sendMsg r 3 x (f s r))
    refine ⟨?_, start'.trans start, count'.trans count, launch'.trans launch, host'.trans host⟩
    rw [List.foldl_cons, sent', sent, List.map_cons, List.append_assoc, steady]
    rfl

theorem State.announce_alone {a : State} (alone : a.multi = false) (ch : Nat) (b : Bytes) :
    a.announce ch b = .done (a.fixed (a.gsc + leadNs b)) (.ok (leBytes 8 (a.gsc + leadNs b))) :=
  if_neg (by
    change ¬(a.multi = true)
    simp [alone])

/-- The launch unit of a module for the image of a digest. -/
def State.launchWord (s : State) (l : Nat) (digest : Bytes) (_ : Nat) : FabMsg := .launch l digest s.recs.manifestDigest s.fab.ranksDigest

theorem State.launchWord_sendMsg (s : State) (l : Nat) (digest : Bytes) (r x : Nat) (m : FabMsg) :
    (s.sendMsg r 3 x m).launchWord l digest = s.launchWord l digest :=
  State.sendMsg_maint_leaves (fun s => s.launchWord l digest) (fun _ _ _ _ _ _ _ _ _ => rfl) s r x m

theorem State.announce_ranks {a : State} (multi : a.multi = true) (ch : Nat) (b : Bytes) :
    ∃ t, a.announce ch b = .goOn t ∧ t.fab.sent = a.fab.sent ++ a.otherRanks.map (fun r =>
        (r, a.launchWord (a.gsc + leadNs b) ((a.image.map fun i => i.digest).getD []) r)) ∧
      t.fab.startAt = some (a.gsc + leadNs b) ∧ t.fab.launchAt = a.gsc + leadNs b ∧
      t.fab.launch = some { at_ := a.gsc + leadNs b, chan := ch, accepted := [], answered := false } ∧ t.host = a.host := by
  obtain ⟨digest, image⟩ : ∃ d, d = (a.image.map fun i => i.digest).getD [] := ⟨_, rfl⟩
  have match_ : (match a.image with | some i => i.digest | none => []) = digest := by
    rw [image]
    cases a.image <;> rfl
  obtain ⟨sent, start, count, launch, host⟩ := foldl_sendMsg_shows (fun s r => s.launchWord (a.gsc + leadNs b) digest r)
    (fun s r x m => s.launchWord_sendMsg (a.gsc + leadNs b) digest r x m) 0xFFFD a.otherRanks (a.announcing ch (a.gsc + leadNs b))
  have act : a.announce ch b = .goOn (a.otherRanks.foldl (fun s r => s.sendMsg r 3 0xFFFD (.launch (a.gsc + leadNs b)
      (match a.image with | some i => i.digest | none => []) s.recs.manifestDigest s.fab.ranksDigest))
        (a.announcing ch (a.gsc + leadNs b))) := if_pos (show (a.fixed (a.gsc + leadNs b)).multi = true from multi)
  rw [match_] at act
  exact ⟨_, act, image ▸ sent, start, count, launch, host⟩

section Launch

variable {op : Nat} {ok : State → Bool} {i : Instr} (row : exec i s = (launchSpec op ok).row ch s) (turn : s.carries ch op c)
  (len : c.length = 8) (lead : fld c.payload 0 8 = 0 ∨ (100000 ≤ fld c.payload 0 8 ∧ fld c.payload 0 8 ≤ 1000000000))
include row turn len lead

theorem launch_refused (multi : s.multi = true) (led : s.fab.lead = false) :
    answered i s ch { s with host := { s.host with order := s.host.order.drop 1 } } (.of .state) := by
  refine answered_refused row turn ?_
  obtain ⟨-, boot, -, -, -, reserved, -⟩ := turn
  have closed : (launchSpec op ok).allowed { s with host := { s.host with order := s.host.order.drop 1 } } = false := by
    change (_ && (!s.multi || s.fab.lead) && s.pace.calValid) = false
    simp [multi, led]
  have fields : (launchSpec op ok).fields c.payload = true := by simpa [launchSpec] using lead
  rw [CmdSpec.check, if_neg (by simp [boot]), if_neg (by simp [launchSpec, len]), if_neg (by simp [reserved, fields])]
  exact if_pos (congrArg (!·) closed)

variable (calibrated : s.pace.calValid = true) (may : ok { s with host := { s.host with order := s.host.order.drop 1 } } = true)
include calibrated may

theorem launch_alone (alone : s.multi = false) : answered i s ch ((s.accepted ch c).fixed (s.gsc + leadNs c.payload))
    (.ok (leBytes 8 (s.gsc + leadNs c.payload))) := by
  refine answered_kept row turn (decide_eq_true len) (by simpa [launchSpec] using lead) ?_
    (State.announce_alone (a := s.accepted ch c) alone ch c.payload) rfl
  change (ok _ && (!s.multi || s.fab.lead) && s.pace.calValid) = true
  rw [may, alone, calibrated]
  rfl

theorem launch_announced (multi : s.multi = true) (led : s.fab.lead = true) : completes i s fun t =>
    t.fab.startAt = some (s.gsc + leadNs c.payload) ∧ t.fab.launchAt = s.gsc + leadNs c.payload ∧
      t.fab.launch = some { at_ := s.gsc + leadNs c.payload, chan := ch, accepted := [], answered := false } ∧
      (t.cmdOf ch).any (fun d => d.executing) = true ∧ t.fab.sent = s.fab.sent ++ s.otherRanks.map fun r =>
        (r, .launch (s.gsc + leadNs c.payload) ((s.image.map fun i => i.digest).getD []) s.recs.manifestDigest s.fab.ranksDigest) := by
  obtain ⟨t, act, sent, start, count, launch, host⟩ := State.announce_ranks (a := s.accepted ch c) multi ch c.payload
  have allowed : (launchSpec op ok).allowed { s with host := { s.host with order := s.host.order.drop 1 } } = true := by
    change (ok _ && (!s.multi || s.fab.lead) && s.pace.calValid) = true
    rw [may, multi, led, calibrated]
    rfl
  refine ⟨t, row.trans ((launchSpec op ok).row_goOn turn (decide_eq_true len) (by simpa [launchSpec] using lead) allowed act
    (State.keepsOrder_of (by rw [host]; rfl) (by rw [host]))), start, count, launch, ?_, sent⟩
  have cmd : t.cmdOf ch = some { c with executing := true } :=
    (congrArg (fun h : HostBlk => (h.chans.find .init ch).cmd) host).trans (s.accepted_executing ch c)
  rw [cmd]
  rfl

end Launch

/-! ### JOB_PAUSE, JOB_UNLOAD and JOB_STOP -/

/-- The module with its pause requested. -/
def State.pausing (s : State) (n : Nat) : State :=
  { s with srv := { s.srv with pauseAt := some n }, job := { s.job with pausePending := true } }

theorem jobPause_pauses (turn : s.carries ch 0x0105 c) (len : c.length = 8) (running : s.job.state = .running)
    (serving : s.srv.cfg.isSome = true) (going : s.job.pausePending = false) :
    (s.srv.boundary = false → answered (.jobPause ch) s ch ((s.accepted ch c).pausing (fld c.payload 0 8)) .ok) ∧
      answeredAll (.jobPause ch) s ch ((s.accepted ch c).pausing (fld c.payload 0 8)).runBoundary .ok := by
  have allowed : jobPause.allowed { s with host := { s.host with order := s.host.order.drop 1 } } = true := by
    change (decide (s.job.state = .running) && s.srv.cfg.isSome && !s.job.pausePending) = true
    rw [running, serving, going]
    rfl
  refine ⟨fun shut => ?_, ?_⟩
  · have act : jobPause.act (s.accepted ch c) ch c.payload = .done ((s.accepted ch c).pausing (fld c.payload 0 8)) .ok :=
      congrArg (Verdict.done · .ok) (State.runBoundary_shut shut)
    exact answered_kept (p := jobPause) rfl turn (decide_eq_true len) rfl allowed act rfl
  · exact Eq.trans (b := jobPause.row ch s) rfl (jobPause.row_eq turn (decide_eq_true len) rfl allowed)

/-- What unloading a job leaves. -/
structure State.unloads (s t : State) : Prop where
  job : t.job.fault = 0#16 ∧ t.job.ended = false
  image : t.image = none
  queues : t.queues = []
  far : t.far.regions = [] ∧ t.far.mem = s.far.mem
  stop : t.stop = none
  srv : t.srv.cfg = none ∧ t.srv.reqs = [] ∧ t.srv.rq = s.srv.rq
  fab : t.fab.ranks = [] ∧ t.fab.fenceSelf = false
  cores : t.cores = s.cores
  ss : t.ss = s.ss
  power : t.power = s.power
  sec : t.sec = s.sec
  ports : t.ports = s.ports
  host : t.host.order = s.host.order ∧ t.host.chans = s.host.chans

theorem State.unloads.setJob {s t : State} (h : s.unloads t) (j : JobState) : s.unloads (t.setJob j) := by
  obtain ⟨job, image, queues, far, stop, srv, fab, cores, ss, power, sec, ports, host⟩ := h
  obtain ⟨x, eq⟩ := t.setJob_evc j
  rw [eq]
  exact ⟨job, image, queues, far, stop, srv, fab, cores, ss, power, sec, ports, host⟩

theorem State.countJobs_leaves {α : Type} {v : State → α} (casless : ∀ (s : State) k, v (s.withCas k) = v s) (s : State) (i : Image)
    (up : Bool) : v (s.countJobs i up) = v s :=
  foldl_keeps v (fun (s : State) k => s.setRmSlot k { s.rmSlot k with
    jobs := if up then (s.rmSlot k).jobs + 1 else (s.rmSlot k).jobs - 1 }) (fun _ _ => casless ..) i.models s

theorem State.unload_unloads (s : State) (i : Image) : s.unloads (s.unload i) ∧ (s.unload i).job.state = .idle := by
  unfold State.unload
  dsimp only
  generalize pins : List.foldl _ s s.srv.reqs = u
  have pinned : ({ u with cas := s.cas } : State) = s := by
    rw [← pins]
    refine foldl_keeps (fun t : State => { t with cas := s.cas }) _ (fun e t => ?_) s.srv.reqs s
    split
    · exact State.pin_leaves (v := fun t : State => { t with cas := s.cas }) (fun _ _ => rfl) ..
    · rfl
  have counted : ({ u.countJobs i false with cas := s.cas } : State) = s :=
    (State.countJobs_leaves (v := fun t : State => { t with cas := s.cas }) (fun _ _ => rfl) u i false).trans pinned
  generalize u.countJobs i false = w at counted
  refine ⟨State.unloads.setJob ⟨⟨rfl, rfl⟩, rfl, rfl, ⟨rfl, ?_⟩, rfl, ⟨rfl, rfl, ?_⟩, ⟨rfl, rfl⟩, ?_, ?_, ?_, ?_, ?_, ?_, ?_⟩ .idle, ?_⟩
  · exact (congrArg (fun t : State => t.far.mem) counted :)
  · exact (congrArg (fun t : State => t.srv.rq) counted :)
  · exact (congrArg State.cores counted :)
  · exact (congrArg State.ss counted :)
  · exact (congrArg State.power counted :)
  · exact (congrArg State.sec counted :)
  · exact (congrArg State.ports counted :)
  · exact (congrArg (fun t : State => t.host.order) counted :)
  · exact (congrArg (fun t : State => t.host.chans) counted :)
  · rw [State.setJob_job]

theorem jobUnload_unloads {i : Image} (turn : s.carries ch 0x0109 c) (len : c.length = 0)
    (state : s.job.state = .loaded ∨ s.job.state = .armed ∨ s.job.state = .paused ∨ s.job.state = .faulted ∨
      (s.job.state = .fenced ∧ ((s.mgmtPort 0).hbValid = true ∨ (s.mgmtPort 1).hbValid = true))) (image : s.image = some i) :
    ∃ t, answered (.jobUnload ch) s ch t .ok ∧ (s.accepted ch c).unloads t ∧ t.job.state = .idle := by
  have allowed : jobUnload.allowed { s with host := { s.host with order := s.host.order.drop 1 } } = true := by
    change ([JobState.loaded, .armed, .paused, .faulted].contains s.job.state ||
      (s.job.state = .fenced && ((s.mgmtPort 0).hbValid || (s.mgmtPort 1).hbValid))) = true
    rcases state with h | h | h | h | ⟨h, beats⟩
    · rw [h]; rfl
    · rw [h]; rfl
    · rw [h]; rfl
    · rw [h]; rfl
    · rw [h]
      rcases beats with b | b <;> simp [b]
  have act : jobUnload.act (s.accepted ch c) ch c.payload = .done ((s.accepted ch c).unload i) .ok := by
    have image : (s.accepted ch c).image = some i := image
    simp only [jobUnload, image]
  obtain ⟨unloads, idle⟩ := (s.accepted ch c).unload_unloads i
  exact ⟨_, answered_done (p := jobUnload) rfl turn (decide_eq_true len) rfl allowed act unloads.host.1 unloads.host.2, unloads, idle⟩

theorem State.jobFatal_host {s : State} (run : s.power.mode = .run) (code : Nat) :
    (s.jobFatal code).host.chans = s.host.chans ∧ (s.jobFatal code).host.order = s.host.order := by
  unfold State.jobFatal
  rw [State.wake_run s run]
  dsimp only
  split <;> exact ⟨State.raiseCode_host_chans .., State.raiseCode_host_order ..⟩

theorem jobStop_stops (turn : s.carries ch 0x010A c) (len : c.length = 0) (active : s.job.state.active = true)
    (first : s.job.fault = 0#16) : ∃ t, answered (.jobStop ch) s ch t .ok ∧ t.job.fault = 0x0C01#16 ∧ t.job.faultGsc = s.gsc ∧
      t.stop.isSome = true ∧ t.job.state = s.job.state ∧ t.cores = s.cores ∧ t.ss = s.ss ∧ t.far = s.far ∧ t.queues = s.queues := by
  obtain ⟨a, accepted⟩ : ∃ a, a = s.accepted ch c := ⟨_, rfl⟩
  have run : a.power.mode = .run := by
    obtain ⟨-, -, -, -, -, -, -, run, -⟩ := turn
    rw [accepted]
    exact run
  have job : a.job = s.job := by rw [accepted]; rfl
  obtain ⟨fault, at_, stopped⟩ := State.jobFatal_first run (job ▸ active) (job ▸ first) 0x0C01 none
  obtain ⟨chans, order⟩ := State.jobFatal_host run 0x0C01
  have state : (a.jobFatal 0x0C01).job.state = a.job.state := by
    rw [State.jobFatal_job _ _ _ _ _ _ _ run, if_pos (job ▸ active), JobStatus.note_first (job ▸ first)]
  refine ⟨a.jobFatal 0x0C01, answered_done (p := jobStop) rfl turn (decide_eq_true len) rfl active (by rw [accepted]; rfl) ?_ ?_, fault, ?_,
    stopped, ?_, ?_, ?_, ?_, ?_⟩
  · rw [order, accepted]; rfl
  · rw [chans, accepted]
  · rw [at_, accepted]; rfl
  · rw [state, job]
  · rw [State.jobFatal_cores, accepted]; rfl
  · rw [State.jobFatal_ss, accepted]; rfl
  · rw [State.jobFatal_far (h := run), accepted]; rfl
  · rw [State.jobFatal_queues, accepted]; rfl

end Commands

/-- Settles O30: every command of a loaded job answers what its conditions give, and a launch is announced rank by rank. -/
theorem jobCommands : Obligations.JobCommands := by
  unfold Obligations.JobCommands
  intro s ch c
  dsimp only
  refine ⟨fun turn len loaded serve kv adapters reserved whole least most vocab vocabs window => ?_,
    fun i turn len loaded image serving models fabric beat => jobArm_arms turn len loaded ⟨image, serving, models, fabric, beat⟩,
    fun len lead calibrated i which => ?_, fun turn len running serving going => jobPause_pauses turn len running serving going,
    fun turn len state image => ?_, jobStop_stops⟩
  · have fields : ServeFields c.payload := ⟨serve, kv, adapters, reserved, whole, least, most, ⟨vocab, vocabs⟩, window⟩
    refine ⟨fun none => jobServe_of turn len loaded fields (if_pos none) rfl,
      fun some barred => jobServe_of turn len loaded fields ((if_neg some).trans (if_pos ?_)) rfl,
      fun some ok => jobServe_of turn len loaded fields ((if_neg some).trans (if_neg ?_)) rfl⟩
    · exact congrArg (!·) barred
    · exact fun h => Bool.false_ne_true ((congrArg (!·) ok).symm.trans h)
  · rcases which with ⟨rfl, turn, armed⟩ | ⟨rfl, turn, paused, going, ready⟩
    · have may : decide (s.job.state = .armed) = true := decide_eq_true armed
      exact ⟨launch_alone (ok := fun s => s.job.state = .armed) rfl turn len lead calibrated may,
        launch_refused (ok := fun s => s.job.state = .armed) rfl turn len lead,
        launch_announced (ok := fun s => s.job.state = .armed) rfl turn len lead calibrated may⟩
    · have may : (decide (s.job.state = .paused) && !s.job.ended && (s.srv.cfg.isNone || s.recs.enable)) = true := by
        rw [paused, going]
        rcases ready with h | h <;> simp [h]
      let ok := fun s : State => s.job.state = .paused && !s.job.ended && (s.srv.cfg.isNone || s.recs.enable)
      exact ⟨launch_alone (ok := ok) rfl turn len lead calibrated may, launch_refused (ok := ok) rfl turn len lead,
        launch_announced (ok := ok) rfl turn len lead calibrated may⟩
  · obtain ⟨i, image⟩ := Option.isSome_iff_exists.mp image
    obtain ⟨t, ran, unloads, idle⟩ := jobUnload_unloads turn len state image
    obtain ⟨⟨fault, ended⟩, gone, queues, ⟨regions, mem⟩, stop, ⟨cfg, reqs, rq⟩, ⟨ranks, self⟩, cores, ss, power, sec, ports, -⟩ := unloads
    exact ⟨t, ran, idle, fault, ended, gone, queues, regions, stop, cfg, reqs, ranks, self, mem, ss, cores, rq, power, sec, ports⟩

end Sys2Proof.Machine

/-! PROOF. Customers, adapters and the audit replay (R284, R294 to R297, R330, R331, R431, R534). -/
namespace Sys2Proof.Machine

/-- The states outside RUNNING in which customers and adapters change. -/
def JobState.serves (j : JobState) : Prop := j = .loaded ∨ j = .armed ∨ j = .paused

theorem JobState.serves.ne {j : JobState} (h : j.serves) : j ≠ .running := by
  rcases h with h | h | h <;> simp [h]

theorem JobState.serves.listed {j : JobState} (h : j.serves ∨ j = .running) : servingStates.contains j = true := by
  rcases h with (h | h | h) | h <;> rw [h] <;> rfl

section Changes

variable {s : State}

/-- A change takes effect at once while no job is RUNNING (R534). -/
theorem State.change_now (idle : s.job.state ≠ .running) (x : Change) : s.change x = s.applyChange x := if_neg idle

/-- While one is, it waits for the boundary. -/
theorem State.change_waits (running : s.job.state = .running) (shut : s.srv.boundary = false) (x : Change) :
    s.change x = { s with srv := { s.srv with changes := s.srv.changes ++ [x] } } :=
  (if_pos running).trans (State.runBoundary_shut shut)

end Changes

/-! ### Customers (R284) -/

/-- A customer's record as CUSTOMER_SET leaves it. -/
def Customer.set (x : Customer) (en : Bool) (refill burst maxWait overdraft w : Nat) : Customer :=
  let y := { x with enabled := en, refill := refill, burst := burst, maxWaitUs := maxWait, overdraft := overdraft }
  if en && !x.enabled then { y with balance := burst, served := 0, win := w }
  else if burst < x.burst then { y with balance := min x.balance burst }
  else y

theorem State.setCustomer_eq (s : State) (k : Nat) (en : Bool) (refill burst maxWait overdraft : Nat) :
    s.setCustomer k en refill burst maxWait overdraft = s.withSrv { s.srv with
      customers :=
        s.srv.customers.put k ((s.srv.customers.find .init k).set en refill burst maxWait overdraft (s.gsc / s.windowNs)) } := rfl

theorem Customer.set_shows (x : Customer) (en refill burst maxWait overdraft w : Nat) :
    let y := x.set (decide (en = 1)) refill burst maxWait overdraft w
    y.enabled = decide (en = 1) ∧ y.refill = refill ∧ y.burst = burst ∧ y.maxWaitUs = maxWait ∧ y.overdraft = overdraft ∧
      y.balance = (if en = 1 ∧ x.enabled = false then (burst : Int) else if burst < x.burst then min x.balance burst else x.balance) := by
  unfold Customer.set
  dsimp only
  by_cases opens : en = 1 ∧ x.enabled = false
  · rw [if_pos (by simp [opens]), if_pos opens]
    exact ⟨rfl, rfl, rfl, rfl, rfl, rfl⟩
  · rw [if_neg (by simpa using opens), if_neg opens]
    split <;> exact ⟨rfl, rfl, rfl, rfl, rfl, rfl⟩

section Customers

variable {s : State} {ch : Nat} {c : Cmd}

theorem customerSet_of {t : State} {r : Reply} (turn : s.carries ch 0x0201 c) (len : c.length = 20) (low : fld c.payload 0 2 < 4096)
    (flag : fld c.payload 2 1 ≤ 1) (reserved : zeroAt c.payload 3 1 = true) (state : s.job.state.serves ∨ s.job.state = .running)
    (act : customerSet.act (s.accepted ch c) ch c.payload = .done t r) (kept : t.host = (s.accepted ch c).host) :
    answered (.customerSet ch) s ch t r :=
  answered_kept (p := customerSet) rfl turn (decide_eq_true len) (by simp [customerSet, low, flag, reserved])
    (JobState.serves.listed state) act kept

theorem customerRead_reads (turn : s.carries ch 0x0202 c) (len : c.length = 2) (low : fld c.payload 0 2 < 4096) (steps : s.stepCount ≠ 0)
    (state : s.job.state.serves ∨ s.job.state = .running) :
    answered (.customerRead ch) s ch (s.accepted ch c) (.ok (s.srv.customers.find .init (fld c.payload 0 2)).bytes) :=
  answered_kept (p := customerRead) rfl turn (decide_eq_true len) (by simp [customerRead, low]) (JobState.serves.listed state)
    (if_neg steps) rfl

end Customers

/-! ### Retiring an adapter (R296) -/

theorem Map.key_ne_of_mem_del {α : Type} {m : Map α} {k : Nat} {e : Nat × α} (mem : e ∈ Map.del m k) : e.1 ≠ k := by
  induction m with
  | nil => cases mem
  | cons x m ih =>
    rw [Map.del] at mem
    split at mem
    next => exact ih mem
    next other =>
      rcases List.mem_cons.mp mem with rfl | later
      · exact other
      · exact ih later

theorem Map.mem_put_key {α : Type} {m : Map α} {k : Nat} {x : α} {e : Nat × α} (mem : e ∈ m.put k x) :
    e = (k, x) ∨ e ∈ m ∧ e.1 ≠ k := by
  rcases Map.mem_ins _ _ _ _ mem with same | kept
  · exact .inl same
  · exact .inr ⟨Map.mem_del _ _ _ kept, Map.key_ne_of_mem_del kept⟩

/-- Waiting requests of an adapter slot end. -/
def State.endWaiting (s : State) (slot : Nat) (e : Nat × Req) : State :=
  if e.2.state = .waiting && e.2.par.adapter = slot then s.endReq e.1 e.2 stAdapterRetired else s

/-- A request that waits for a slot. -/
def Req.waitsFor (q : Req) (slot : Nat) : Prop := q.state = .waiting ∧ q.par.adapter = slot

theorem foldl_endWaiting_reqs {slot : Nat} (l : List (Nat × Req)) (s : State)
    (listed : ∀ e ∈ s.srv.reqs, e.2.waitsFor slot → e ∈ l) :
    ∀ e ∈ (l.foldl (fun s e => s.endWaiting slot e) s).srv.reqs, ¬e.2.waitsFor slot := by
  induction l generalizing s with
  | nil => exact fun e mem waits => absurd (listed e mem waits) List.not_mem_nil
  | cons x l ih =>
    refine ih _ fun e mem waits => ?_
    unfold State.endWaiting at mem
    dsimp only at mem
    split at mem
    next =>
      rcases Map.mem_put_key mem with rfl | ⟨old, other⟩
      · exact absurd waits.1 (by simp)
      · rcases List.mem_cons.mp (listed e old waits) with rfl | later
        · exact absurd rfl other
        · exact later
    next steady =>
      rcases List.mem_cons.mp (listed e mem waits) with rfl | later
      · exact absurd (by simpa [Req.waitsFor] using waits) steady
      · exact later

/-- The slot with its current version draining. -/
def State.drained (s : State) (slot : Nat) : State :=
  (s.setAdapter slot { s.adapter slot with
    retired := true
    versions := (s.adapter slot).versions.map fun v => if v.state = .current then { v with state := .draining } else v }).freeVersions slot

theorem State.retireSlot_eq (s : State) (slot : Nat) :
    s.retireSlot slot = (s.drained slot).srv.reqs.foldl (fun s e => s.endWaiting slot e) (s.drained slot) := rfl

theorem State.adapter_setAdapter (s : State) (k : Nat) (x : AdapterSlot) : (s.setAdapter k x).adapter k = x := Map.find_put_same ..

theorem State.freeVersions_adapter (s : State) (slot : Nat) : (s.freeVersions slot).adapter slot = { s.adapter slot with
    versions := (s.adapter slot).versions.filter fun v => !(v.state = .draining && s.verRefs slot v.num = 0) } :=
  State.adapter_setAdapter ..

theorem State.retireSlot_shows (s : State) (slot : Nat) : ((s.retireSlot slot).adapter slot).retired = true ∧
    (∀ v ∈ ((s.retireSlot slot).adapter slot).versions, v.state ≠ .current) ∧
    (∀ e ∈ (s.retireSlot slot).srv.reqs, e.2.state = .waiting → e.2.par.adapter ≠ slot) ∧
    ({ s.retireSlot slot with srv := s.srv } : State) = s := by
  have drained : (s.drained slot).adapter slot = _ := State.freeVersions_adapter ..
  rw [State.adapter_setAdapter] at drained
  have adapters : (s.retireSlot slot).adapter slot = (s.drained slot).adapter slot := by
    rw [s.retireSlot_eq]
    refine foldl_keeps (fun t : State => t.adapter slot) _ (fun e t => ?_) _ _
    unfold State.endWaiting
    split <;> rfl
  refine ⟨?_, fun v mem => ?_, fun e mem waits same => ?_, ?_⟩
  · rw [adapters, drained]
  · rw [adapters, drained] at mem
    obtain ⟨old, -, rfl⟩ := List.mem_map.mp (List.mem_filter.mp mem).1
    split
    · simp
    next other => exact other
  · rw [s.retireSlot_eq] at mem
    exact foldl_endWaiting_reqs _ _ (fun e old _ => old) e mem ⟨waits, same⟩
  · rw [s.retireSlot_eq]
    refine (foldl_keeps (fun t : State => { t with srv := s.srv }) _ (fun e t => ?_) _ _).trans rfl
    unfold State.endWaiting
    split <;> rfl

theorem adapterRetire_of {s : State} {ch : Nat} {c : Cmd} {t : State} (turn : s.carries ch 0x0204 c) (len : c.length = 2)
    (low : fld c.payload 0 2 < 16384) (steps : s.stepCount ≠ 0) (serving : s.srv.cfg.isSome = true)
    (state : s.job.state.serves ∨ s.job.state = .running) (eq : (s.accepted ch c).change (.retire (fld c.payload 0 2)) = t)
    (kept : t.host = (s.accepted ch c).host) : answered (.adapterRetire ch) s ch t .ok := by
  refine answered_kept (p := adapterRetire) rfl turn (decide_eq_true len) (by simp [adapterRetire, low]) (JobState.serves.listed state) ?_ kept
  rw [← eq]
  refine if_neg ?_
  change ¬((decide (s.stepCount = 0) || s.srv.cfg.isNone) = true)
  obtain ⟨x, cfg⟩ := Option.isSome_iff_exists.mp serving
  simp [steps, cfg]

/-! ### Installing an adapter (R294, R295) -/

/-- The number of a slot's next version. -/
def AdapterSlot.nextNum (x : AdapterSlot) : Nat := if x.installed then (x.last + 1) % 65536 else 1

/-- The version that a copy is installed as. -/
def AdapterSlot.nextVer (x : AdapterSlot) (rank base size : Nat) (digest : Bytes) : Version :=
  { num := x.nextNum, state := .loading, rank := rank, base := base, size := size, digest := digest, resDigest := [], loaded := false }

theorem State.installCopy_shows (a : State) (ch slot rank region : Nat) (m : Manifest) (digest : Bytes) (base : Nat) (copy : Bytes) :
    let t := a.installCopy ch slot rank region m digest base copy
    let x := a.adapter slot
    t.adapter slot = { x with
        last := x.nextNum, installed := true, versions := x.versions ++ [x.nextVer rank base m.resSize digest] } ∧
      t.far.mem = (a.farPut region base copy).far.mem ∧ (t.adapterLoad slot x.nextNum).isSome = true ∧
      (t.host, t.job, t.cores) = (a.host, a.job, a.cores) := by
  dsimp only
  unfold State.installCopy
  dsimp only
  refine ⟨?_, ?_, ?_, ?_⟩
  · refine (State.background_leaves (v := fun t : State => t.adapter slot) (fun _ _ => rfl) ..).trans ?_
    exact State.adapter_setAdapter ..
  · exact (State.background_mem ..).1
  · unfold State.adapterLoad
    rw [List.find?_isSome]
    exact ⟨_, List.mem_append_right _ (List.mem_singleton_self _), decide_eq_true rfl⟩
  · exact State.background_leaves (v := fun t : State => (t.host, t.job, t.cores)) (fun _ _ => rfl) ..

section Install

variable {s : State} {ch : Nat} {c : Cmd}

theorem adapterInstall_act {a : State} {v v2 : HostView} {region : Nat} {l : List (Nat × Nat)} {m : Manifest} {bs : Map Bytes}
    {copy b : Bytes} {base : Nat} (serving : a.srv.cfg.isSome = true) (adapters : a.serveCfg.adapters = some region)
    (few : (a.adapter (fld b 0 2)).versions.length < 4) (scatter : v.scatter (fld b 8 8) (fld b 4 4) = some l)
    (manifest : a.readManifest v l (sub b 16 48) id = .ok m) (blocks : readBlocks m v v2 l m.blocks 0 m.bytes.length [] = .inl bs)
    (built : residentCopy m ((List.range m.blocks).flatMap fun i => bs.find [] i) a.coreCount = .inl copy)
    (room : lowestFit a.adapterUsed 0 (a.regionBytes region) m.resSize = some base) : (adapterInstall v v2).act a ch b =
      .goOn (a.installCopy ch (fld b 0 2) (fld b 2 2) region m (sub b 16 48) base copy) := by
  obtain ⟨x, cfg⟩ := Option.isSome_iff_exists.mp serving
  simp only [adapterInstall, adapters, cfg, Option.isNone_some, Bool.false_eq_true, if_false, if_neg (Nat.not_le.mpr few), scatter, manifest,
    blocks, built, room]

theorem adapterInstall_installs {v v2 : HostView} {region : Nat} {l : List (Nat × Nat)} {m : Manifest} {bs : Map Bytes}
    {copy : Bytes} {base : Nat} (turn : s.carries ch 0x0203 c) (len : c.length = 68) (fields : (adapterInstall v v2).fields c.payload = true)
    (state : s.job.state.serves ∨ s.job.state = .running) (serving : s.srv.cfg.isSome = true)
    (adapters : s.serveCfg.adapters = some region) (few : (s.adapter (fld c.payload 0 2)).versions.length < 4)
    (scatter : v.scatter (fld c.payload 8 8) (fld c.payload 4 4) = some l)
    (manifest : (s.accepted ch c).readManifest v l (sub c.payload 16 48) id = .ok m)
    (blocks : readBlocks m v v2 l m.blocks 0 m.bytes.length [] = .inl bs)
    (built : residentCopy m ((List.range m.blocks).flatMap fun i => bs.find [] i) s.coreCount = .inl copy)
    (room : lowestFit s.adapterUsed 0 (s.regionBytes region) m.resSize = some base) :
    completes (.adapterInstall ch v v2) s fun t => (t.cmdOf ch).any (fun d => d.executing) = true ∧
      let x := s.adapter (fld c.payload 0 2)
      (t.adapter (fld c.payload 0 2)).last = x.nextNum ∧
        x.nextVer (fld c.payload 2 2) base m.resSize (sub c.payload 16 48) ∈ (t.adapter (fld c.payload 0 2)).versions ∧
        t.far.mem = ((s.accepted ch c).farPut region base copy).far.mem ∧ (t.adapterLoad (fld c.payload 0 2) x.nextNum).isSome = true ∧
        t.job = s.job ∧ t.cores = s.cores := by
  obtain ⟨adapter, mem, load, kept⟩ := (s.accepted ch c).installCopy_shows ch (fld c.payload 0 2) (fld c.payload 2 2) region m
    (sub c.payload 16 48) base copy
  have act := adapterInstall_act (a := s.accepted ch c) (ch := ch) serving adapters few scatter manifest blocks built room
  generalize (s.accepted ch c).installCopy ch (fld c.payload 0 2) (fld c.payload 2 2) region m (sub c.payload 16 48) base copy = t
    at adapter mem load kept act
  obtain ⟨host, kept⟩ := Prod.mk.inj kept
  obtain ⟨job, cores⟩ := Prod.mk.inj kept
  refine ⟨t, Eq.trans (b := (adapterInstall v v2).row ch s) rfl ((adapterInstall v v2).row_goOn turn (decide_eq_true len) fields
    (JobState.serves.listed state) act (State.keepsOrder_of (by rw [host]; rfl) (by rw [host]))), ?_, ?_, ?_, mem, load, job, cores⟩
  · have cmd : t.cmdOf ch = some { c with executing := true } :=
      (congrArg (fun h : HostBlk => (h.chans.find .init ch).cmd) host).trans (s.accepted_executing ch c)
    rw [cmd]
    rfl
  · rw [adapter]
    rfl
  · rw [adapter]
    exact List.mem_append_right _ (List.mem_singleton_self _)

end Install

/-! ### The read-back of an adapter (R295) -/

section LoadDone

variable {s : State} {slot ver region : Nat} {l : CasLoad} (load : s.adapterLoad slot ver = some l)
  (adapters : s.serveCfg.adapters = some region)
include load adapters

theorem adapterLoadDone_fails : completes (.adapterLoadDone slot ver false) s fun t => t.cas.faultCode = 0x0807#16 ∧
    t.cas.faultValid = true ∧ (∀ v ∈ (t.adapter slot).versions, v.num ≠ ver) ∧ t.far = s.far ∧ t.job = s.job ∧
      ∀ d r, l.chan = some d → (s.cmdOf d).isSome = true → (t.chan d).resp = some r → r.result = 3#16 ∧ r.fault = 0x0807#16 := by
  obtain ⟨w, dropped⟩ : ∃ w : State, w = ((s.casFault 0 0x0807 casNone).dropLoad l).setAdapter slot
    { s.adapter slot with versions := (s.adapter slot).versions.filter fun v => v.num ≠ ver } := ⟨_, rfl⟩
  obtain ⟨r, answer⟩ : ∃ r : Reply, r = { result := .state, fault := 0x0807, entry := some casNone } := ⟨_, rfl⟩
  have row : exec (.adapterLoadDone slot ver false) s = .next ((s.casFault 0 0x0807 casNone).failAdapter l slot ver r) := by
    refine Eq.trans (b := execAdapterLoadDone slot ver false s) rfl ?_
    rw [answer]
    simp only [execAdapterLoadDone, load, adapters, Bool.not_false, if_true]
  have shown : w.cas.faultCode = 0x0807#16 ∧ w.cas.faultValid = true ∧ (∀ v ∈ (w.adapter slot).versions, v.num ≠ ver) ∧
      w.far = s.far ∧ w.job = s.job := by
    rw [dropped, State.adapter_setAdapter]
    exact ⟨rfl, rfl, fun v mem => by simpa using (List.mem_filter.mp mem).2, rfl, rfl⟩
  obtain ⟨code, valid, versions, far, job⟩ := shown
  have chans : ∀ d, w.chan d = s.chan d := fun d => by rw [dropped]; rfl
  refine ⟨_, row, ?_⟩
  cases told : l.chan with
  | none =>
    rw [show (s.casFault 0 0x0807 casNone).failAdapter l slot ver r = w by rw [dropped]; simp only [State.failAdapter, told]; rfl]
    exact ⟨code, valid, versions, far, job, fun d r none => nomatch none⟩
  | some ch =>
    rw [show (s.casFault 0 0x0807 casNone).failAdapter l slot ver r = w.respond ch r by rw [dropped]; simp only [State.failAdapter, told]; rfl]
    refine ⟨?_, ?_, ?_, ?_, ?_, fun d resp own there got => ?_⟩
    · rw [State.respond_cas]; exact code
    · rw [State.respond_cas]; exact valid
    · rw [State.adapter, State.respond_srv]; exact versions
    · rw [State.respond_far]; exact far
    · rw [State.respond_job]; exact job
    · obtain rfl := Option.some.inj own
      obtain ⟨k, cmd⟩ := Option.isSome_iff_exists.mp there
      have answered := congrArg Channel.resp (State.respond_chan ((congrArg Channel.cmd (chans ch)).trans cmd) r).1
      obtain rfl := Option.some.inj (got.symm.trans answered)
      rw [answer]
      exact ⟨rfl, rfl⟩

omit load adapters in
/-- A version that has come in takes the place of the current one. -/
theorem State.makeCurrent_shows {t : State} (slot ver : Nat) {d : Bytes} (there : ∃ v ∈ (t.adapter slot).versions, v.num = ver ∧
    v.state = .loading ∧ v.resDigest = d) : (∃ v ∈ ((t.makeCurrent slot ver).adapter slot).versions, v.num = ver ∧ v.state = .current ∧
      ((t.makeCurrent slot ver).adapter slot).retired = false ∧ v.resDigest = d) ∧
      ({ t.makeCurrent slot ver with srv := t.srv } : State) = t := by
  obtain ⟨v, mem, num, loading, digest⟩ := there
  unfold State.makeCurrent
  dsimp only
  rw [if_pos (List.any_eq_true.mpr ⟨v, mem, by simp [num, loading]⟩)]
  refine ⟨⟨{ v with state := .current }, ?_, num, rfl, ?_, digest⟩, rfl⟩
  · rw [State.freeVersions_adapter, State.adapter_setAdapter]
    exact List.mem_filter.mpr ⟨List.mem_map.mpr ⟨v, mem, if_pos num⟩, rfl⟩
  · rw [State.freeVersions_adapter, State.adapter_setAdapter]

/-- The slot's version read back. -/
def AdapterSlot.readBack (x : AdapterSlot) (ver : Nat) (d : Bytes) : AdapterSlot :=
  { x with versions := x.versions.map fun v => if v.num = ver then { v with resDigest := d, loaded := true } else v }

theorem adapterLoadDone_loads {x : Version} (version : ((s.adapter slot).versions.find? fun v => v.num = ver) = some x)
    (loading : x.state = .loading) (idle : s.job.state ≠ .running) : completes (.adapterLoadDone slot ver true) s fun t =>
      (∃ v ∈ (t.adapter slot).versions, v.num = ver ∧ v.state = .current ∧ (t.adapter slot).retired = false ∧
        v.resDigest = residentDigest (s.farGet region x.base x.size)) ∧ t.job = s.job ∧ t.cores = s.cores ∧ t.far.mem = s.far.mem := by
  generalize digest : residentDigest (s.farGet region x.base x.size) = d
  obtain ⟨u, read⟩ : ∃ u : State, u = ((s.background (.adapter slot ver) (s.farRegion region) x.base x.size false).dropLoad l).setAdapter slot
    ((s.adapter slot).readBack ver d) := ⟨_, rfl⟩
  have shown : ∃ w : State, exec (.adapterLoadDone slot ver true) s = .next (w.change (.install slot ver)) ∧ w.srv = u.srv ∧
      (w.job, w.cores, w.far) = (u.job, u.cores, u.far) := by
    cases told : l.chan with
    | none =>
      refine ⟨u, ?_, rfl, rfl⟩
      refine Eq.trans (b := execAdapterLoadDone slot ver true s) rfl ?_
      simp only [execAdapterLoadDone, load, adapters, version, told, digest, Bool.not_true, Bool.false_eq_true, if_false, read,
        AdapterSlot.readBack]
    | some ch =>
      refine ⟨u.respond ch (.ok (leBytes 2 ver ++ zeros 6 ++ d)), ?_, State.respond_srv .., ?_⟩
      · refine Eq.trans (b := execAdapterLoadDone slot ver true s) rfl ?_
        simp only [execAdapterLoadDone, load, adapters, version, told, digest, Bool.not_true, Bool.false_eq_true, if_false, read,
          AdapterSlot.readBack]
      · rw [State.respond_job, State.respond_cores, State.respond_far]
  obtain ⟨w, row, srv, kept⟩ := shown
  have back : (s.background (.adapter slot ver) (s.farRegion region) x.base x.size false).job = s.job ∧
      (s.background (.adapter slot ver) (s.farRegion region) x.base x.size false).cores = s.cores :=
    ⟨State.background_leaves (v := State.job) (fun _ _ => rfl) .., State.background_leaves (v := State.cores) (fun _ _ => rfl) ..⟩
  have mem := (s.background_mem (.adapter slot ver) (s.farRegion region) x.base x.size false).1
  have slot_ : u.adapter slot = (s.adapter slot).readBack ver d := by rw [read, State.adapter_setAdapter]
  obtain ⟨job, cores, far⟩ : u.job = s.job ∧ u.cores = s.cores ∧ u.far.mem = s.far.mem := by
    rw [read]
    exact ⟨back.1, back.2, mem⟩
  obtain ⟨job', kept⟩ := Prod.mk.inj kept
  obtain ⟨cores', far'⟩ := Prod.mk.inj kept
  have there : ∃ v ∈ (w.adapter slot).versions, v.num = ver ∧ v.state = .loading ∧ v.resDigest = d := by
    have adapter : w.adapter slot = (s.adapter slot).readBack ver d := by
      rw [State.adapter, srv]
      exact slot_
    have num : x.num = ver := by simpa using List.find?_some version
    rw [adapter]
    exact ⟨{ x with resDigest := d, loaded := true },
      List.mem_map.mpr ⟨x, List.mem_of_find?_eq_some version, if_pos num⟩, num, loading, rfl⟩
  obtain ⟨current, rest⟩ := State.makeCurrent_shows slot ver there
  rw [State.change_now (by rw [job', job]; exact idle)] at row
  refine ⟨_, row, current, ?_, ?_, ?_⟩
  · exact (congrArg State.job rest :).trans (job'.trans job)
  · exact (congrArg State.cores rest :).trans (cores'.trans cores)
  · exact (congrArg (fun t : State => t.far.mem) rest :).trans ((congrArg Far.mem far').trans far)

end LoadDone

/-! ### The audit replay (R330, R331) -/

/-- A prompt that has been read changes its request and the far memory. -/
theorem State.promptOk_leaves {α : Type} {v : State → α} (far : ∀ (s : State) f, v { s with far := f } = v s)
    (req : ∀ (s : State) id q, v (s.setReq id q) = v s) (s : State) (id : Nat) (q : Req) (ids : List Nat) :
    v (s.promptOk id q ids) = v s :=
  (State.engineWrite_leaves far ..).trans ((State.engineWrite_leaves far ..).trans ((State.engineWrite_leaves far ..).trans (req ..)))

theorem State.promptOk_req (s : State) (id : Nat) (q : Req) (ids : List Nat) :
    ∃ q', (s.promptOk id q ids).req id = some q' ∧ q'.par = q.par ∧ q'.audit = q.audit := by
  let q' : Req := { q with
    state := .waiting, waitStart := s.gsc, gscWaiting := s.gsc, tokens := ids, pen := if q.par.penalised then ids.foldl penAdd [] else [] }
  refine ⟨q', ?_, rfl, rfl⟩
  have srv : (s.promptOk id q ids).srv = (s.setReq id q').srv :=
    (State.engineWrite_leaves (v := State.srv) (fun _ _ => rfl) ..).trans
      ((State.engineWrite_leaves (v := State.srv) (fun _ _ => rfl) ..).trans (State.engineWrite_leaves (v := State.srv) (fun _ _ => rfl) ..))
  exact (State.req_of_reqs (congrArg Serve.reqs srv) id).trans (s.req_setReq id q')

section Audit

variable (s : State) (p : ReqPar) (a : Audit) (ids : List Nat)

/-- An audit request touches the serving engine's requests and the far memory. -/
theorem State.enterAudit_leaves {α : Type} {v : State → α} (far : ∀ (s : State) f, v { s with far := f } = v s)
    (work : ∀ (s : State) w, v (s.addWork w) = v s) (req : ∀ (s : State) id q, v (s.setReq id q) = v s)
    (arrival : ∀ (s : State) n, v (s.withSrv { s.srv with arrival := n }) = v s) : v (s.enterAudit p a ids) = v s := by
  have ends : ∀ (s : State) id q n, v (s.endReq id q n) = v s := fun s id q n => (work ..).trans (req ..)
  unfold State.enterAudit
  dsimp only
  split
  · exact work ..
  split
  · exact work ..
  split
  · exact work ..
  split
  · exact work ..
  split
  · exact (ends ..).trans (arrival ..)
  have prompt := fun (s : State) id q => State.promptOk_leaves far req s id q ids
  split
  · split
    · exact (ends ..).trans ((prompt ..).trans (arrival ..))
    · exact (prompt ..).trans (arrival ..)
  · exact (prompt ..).trans (arrival ..)

theorem State.endReq_req (id : Nat) (q : Req) (n : Nat) :
    ∃ q', (s.endReq id q n).req id = some q' ∧ q'.par = q.par ∧ q'.audit = q.audit :=
  ⟨_, State.req_setReq s id _, rfl, rfl⟩

/-- One that fits stands in the table. -/
theorem State.enterAudit_enters (form : p.ok s.serveCfg.vocab = true) (fits : p.promptLen + p.maxNew ≤ s.maxPos + 1)
    (table : lowestFree s.srv.reqs 0 < 65536) (room : (s.tokFit (p.extent s.serveCfg.vocab)).isSome = true) :
    ∃ q, (s.enterAudit p a ids).req (lowestFree s.srv.reqs 0) = some q ∧ q.par = p ∧ q.audit.isSome = true := by
  obtain ⟨o, room⟩ := Option.isSome_iff_exists.mp room
  unfold State.enterAudit
  dsimp only
  rw [if_neg (by simp [form]), if_neg (by omega), if_neg (by omega), room]
  dsimp only
  generalize lowestFree s.srv.reqs 0 = id
  generalize s.withSrv { s.srv with arrival := s.srv.arrival + 1 } = w
  have kept : ∀ (t : State), (∃ q', t.req id = some q' ∧ q'.par = (newReq p s.srv.arrival o (p.extent s.serveCfg.vocab) (some a)).par ∧
      q'.audit = (newReq p s.srv.arrival o (p.extent s.serveCfg.vocab) (some a)).audit) →
      ∃ q, t.req id = some q ∧ q.par = p ∧ q.audit.isSome = true := fun t ⟨q, req, par, audit⟩ => ⟨q, req, par, by rw [audit]; rfl⟩
  split
  · exact kept _ (w.endReq_req id _ _)
  obtain ⟨q, req, par, audit⟩ := w.promptOk_req id (newReq p s.srv.arrival o (p.extent s.serveCfg.vocab) (some a)) ids
  split
  · rw [req]
    obtain ⟨q', req', par', audit'⟩ := (w.promptOk id (newReq p s.srv.arrival o (p.extent s.serveCfg.vocab) (some a)) ids).endReq_req id q stDone
    exact kept _ ⟨q', req', par'.trans par, audit'.trans audit⟩
  · exact kept _ ⟨q, req, par, audit⟩

end Audit

/-- The checks of an audit (R330) that come before the tables. -/
structure State.audits (s : State) (v : HostView) (b : Bytes) (i : Image) (model : Nat) (pb : Bytes) : Prop where
  form : auditForm (b.take 512) (b.drop 544) = true
  manifest : sha384 (b.drop 544) = sub (b.take 512) 176 48
  image : s.image = some i
  digest : sub (b.take 512) 128 48 = i.digest
  mode : sub (b.drop 544) 8 2 = sub s.recs.manifest 8 2
  build : sub (b.drop 544) 16 6 = sub s.recs.manifest 16 6
  settings : (b.drop 544).drop 128 = s.recs.manifest.drop 128
  grade : bit (fld s.recs.manifest 9 1) 0 = true ∨ sub (b.drop 544) 10 6 = sub s.recs.manifest 10 6
  model : s.auditModel (b.take 512) (b.drop 544) = some model
  adapter : s.auditAdapter (b.take 512) (fld b 536 2) = true
  read : v.read (fld b 512 8) (4 * fld (b.take 512) 40 4) = some pb
  prompt : sha384 pb = sub (b.take 512) 416 48

/-- What an audit asks of the result. -/
def auditOf (r : Bytes) (verdict : Nat) : Audit :=
  { digest := sha384 r, seq := fld r 16 8, outCount := fld r 48 4, outDigest := sub r 464 48
    stopped := bit (fld r 8 2) 1, cancelled := fld r 6 2 = 1, verdictAddr := verdict }

theorem auditReplay_act {a : State} {v : HostView} {b : Bytes} {i : Image} {model : Nat} {pb : Bytes} (h : a.audits v b i model pb) (ch : Nat) :
    (auditReplay v).act a ch b = if a.srv.reqs.any (fun e => e.2.audit.isSome) then .done a (.of .busy)
      else .done ((a.enterAudit (auditPar (b.take 512) model (fld b 536 2) (fld b 528 8) (fld b 538 1) (fld b 512 8))
        (auditOf (b.take 512) (fld b 520 8)) ((List.range (fld (b.take 512) 40 4)).map fun i => fld pb (4 * i) 4)).runBoundary) .ok := by
  obtain ⟨form, manifest, image, digest, mode, build, settings, grade, model, adapter, read, prompt⟩ := h
  have graded : (!bit (fld a.recs.manifest 9 1) 0 && decide (sub (b.drop 544) 10 6 ≠ sub a.recs.manifest 10 6)) = false := by
    rcases grade with h | h <;> simp [h]
  simp only [auditReplay, form, manifest, image, digest, mode, build, settings, graded, model, adapter, read, prompt, auditOf, ne_eq,
    not_true_eq_false, decide_false, Bool.or_false, Bool.not_true, Bool.false_eq_true, if_false]

section Replay

variable {s : State} {ch : Nat} {c : Cmd} {v : HostView} (turn : s.carries ch 0x010B c) (least : 672 ≤ c.length) (most : c.length ≤ 1184)
  (fields : (auditReplay v).fields c.payload = true) (running : s.job.state = .running) (serving : s.srv.cfg.isSome = true)
include turn least most fields running serving

theorem auditReplay_of {t : State} {r : Reply} (act : (auditReplay v).act (s.accepted ch c) ch c.payload = .done t r)
    (kept : t.host = (s.accepted ch c).host) : answered (.auditReplay ch v) s ch t r := by
  refine answered_kept (p := auditReplay v) rfl turn (by simp [auditReplay, least, most]) fields ?_ act kept
  change (decide (s.job.state = .running) && s.srv.cfg.isSome) = true
  rw [running, serving]
  rfl

theorem auditReplay_enters {i : Image} {model : Nat} {pb : Bytes} (checks : s.audits v c.payload i model pb)
    (none : ∀ e ∈ s.srv.reqs, e.2.audit = none) (shut : s.srv.boundary = false) :
    ∃ t, answered (.auditReplay ch v) s ch t .ok ∧ t.job = s.job ∧ t.cores = s.cores ∧
      let p := auditPar (c.payload.take 512) model (fld c.payload 536 2) (fld c.payload 528 8) (fld c.payload 538 1) (fld c.payload 512 8)
      (p.ok s.serveCfg.vocab = true → p.promptLen + p.maxNew ≤ s.maxPos + 1 → lowestFree s.srv.reqs 0 < 65536 →
        (s.tokFit (p.extent s.serveCfg.vocab)).isSome = true →
          ∃ q, t.req (lowestFree s.srv.reqs 0) = some q ∧ q.par = p ∧ q.audit.isSome = true) := by
  obtain ⟨form, manifest, image, digest, mode, build, settings, grade, model', adapter, read, prompt⟩ := checks
  obtain ⟨a, accepted⟩ : ∃ a, a = s.accepted ch c := ⟨_, rfl⟩
  have checks : a.audits v c.payload i model pb := by
    rw [accepted]
    exact ⟨form, manifest, image, digest, mode, build, settings, grade, model', adapter, read, prompt⟩
  have same : a.srv = s.srv ∧ a.image = s.image ∧ a.job = s.job ∧ a.cores = s.cores := by
    rw [accepted]
    exact ⟨rfl, rfl, rfl, rfl⟩
  obtain ⟨srv, image', job, cores⟩ := same
  have act := auditReplay_act checks ch
  rw [if_neg (by
    rw [srv, List.any_eq_true]
    rintro ⟨e, mem, some⟩
    rw [none e mem] at some
    cases some)] at act
  dsimp only
  generalize auditPar (c.payload.take 512) model (fld c.payload 536 2) (fld c.payload 528 8) (fld c.payload 538 1)
    (fld c.payload 512 8) = p at act ⊢
  generalize auditOf (c.payload.take 512) (fld c.payload 520 8) = q at act
  generalize (List.range (fld (c.payload.take 512) 40 4)).map (fun i => fld pb (4 * i) 4) = ids at act
  have kept := a.enterAudit_leaves p q ids (v := fun t => (t.job, t.cores, t.host, t.srv.boundary)) (fun _ _ => rfl) (fun _ _ => rfl)
    (fun _ _ _ => rfl) (fun _ _ => rfl)
  obtain ⟨job', kept⟩ := Prod.mk.inj kept
  obtain ⟨cores', kept⟩ := Prod.mk.inj kept
  obtain ⟨host', boundary⟩ := Prod.mk.inj kept
  rw [State.runBoundary_shut (boundary.trans (by rw [srv, shut]))] at act
  refine ⟨a.enterAudit p q ids, auditReplay_of turn least most fields running serving (accepted ▸ act) (host'.trans (by rw [accepted])),
    job'.trans job, cores'.trans cores, fun form fits table room => ?_⟩
  subst accepted
  exact State.enterAudit_enters _ p q ids form fits table room

end Replay

/-- Settles O33: a change of a customer or an adapter waits for the boundary of a running job and has its effect otherwise; a version's
load and an audit go through `makeCurrent`, `failAdapter` and `enterAudit`. -/
theorem customersAndAdapters : Obligations.CustomersAndAdapters := by
  unfold Obligations.CustomersAndAdapters
  intro s ch c
  dsimp only
  refine ⟨fun turn len low flag reserved steps => ⟨fun state => ?_, fun running shut => ?_⟩,
    fun turn len low steps state => customerRead_reads turn len low steps state,
    fun turn len low steps serving => ⟨fun state => ?_, fun running shut => ?_⟩,
    fun v v2 region l m bs copy base turn len fields state serving adapters few scatter manifest blocks built room => ?_,
    fun slot ver region l load adapters => ⟨adapterLoadDone_fails load adapters, fun x version loading idle =>
      adapterLoadDone_loads load adapters version loading idle⟩,
    fun v turn least most fields running serving => ⟨fun form => ?_, fun form manifest => ?_,
      fun i model pb form manifest image digest mode build settings grade model' adapter read prompt => ?_⟩⟩
  · obtain ⟨enabled, refill, burst, wait, overdraft, balance⟩ := (s.srv.customers.find .init (fld c.payload 0 2)).set_shows
      (fld c.payload 2 1) (fld c.payload 4 4) (fld c.payload 8 4) (fld c.payload 12 4) (fld c.payload 16 4) (s.gsc / s.windowNs)
    have act := State.change_now (s := s.accepted ch c) (JobState.serves.ne state) (.customer (fld c.payload 0 2)
      (decide (fld c.payload 2 1 = 1)) (fld c.payload 4 4) (fld c.payload 8 4) (fld c.payload 12 4) (fld c.payload 16 4))
    refine ⟨_, customerSet_of turn len low flag reserved (.inl state) ((if_neg steps).trans (congrArg (Verdict.done · .ok) act)) rfl,
      ⟨_, Map.find_put_same .., enabled, refill, burst, wait, overdraft, balance⟩, fun k other => Map.find_put_other _ _ _ other, rfl⟩
  · exact customerSet_of turn len low flag reserved (.inr running) ((if_neg steps).trans
      (congrArg (Verdict.done · .ok) (State.change_waits (s := s.accepted ch c) running shut _))) rfl
  · obtain ⟨retired, versions, waiting, rest⟩ := (s.accepted ch c).retireSlot_shows (fld c.payload 0 2)
    have act := State.change_now (s := s.accepted ch c) (JobState.serves.ne state) (.retire (fld c.payload 0 2))
    exact ⟨_, adapterRetire_of turn len low steps serving (.inl state) act (congrArg State.host rest :), retired, versions, waiting,
      (congrArg State.job rest :), (congrArg State.cores rest :), (congrArg State.far rest :)⟩
  · exact adapterRetire_of turn len low steps serving (.inr running) (State.change_waits (s := s.accepted ch c) running shut _) rfl
  · obtain ⟨t, row, under, last, version, mem, load, job, cores⟩ :=
      adapterInstall_installs turn len fields state serving adapters few scatter manifest blocks built room
    exact ⟨t, row, under, last, ⟨_, version, rfl, rfl, rfl, rfl, rfl, rfl⟩, mem, load, job, cores⟩
  · exact auditReplay_of turn least most fields running serving (if_pos (by rw [form]; rfl)) rfl
  · exact auditReplay_of turn least most fields running serving ((if_neg (by rw [form]; decide)).trans (if_pos manifest)) rfl
  · have checks : s.audits v c.payload i model pb :=
      ⟨form, manifest, image, digest, mode, build, settings, grade, model', adapter, read, prompt⟩
    refine ⟨fun busy => ?_, fun none shut => auditReplay_enters turn least most fields running serving checks none shut⟩
    have checks' : (s.accepted ch c).audits v c.payload i model pb :=
      ⟨form, manifest, image, digest, mode, build, settings, grade, model', adapter, read, prompt⟩
    refine auditReplay_of turn least most fields running serving ((auditReplay_act checks' ch).trans (if_pos ?_)) rfl
    obtain ⟨e, mem, some⟩ := busy
    exact List.any_eq_true.mpr ⟨e, mem, some⟩

end Sys2Proof.Machine

/-! PROOF. The resident-model table: slots, loads, and what the service of a broadcast's children touches (R257 to R270). -/
namespace Sys2Proof.Machine

/-! ### Slots and loads -/

theorem State.rmSlot_setRmSlot (s : State) (i : Nat) (x : RmSlot) : (s.setRmSlot i x).rmSlot i = x := Map.find_put_same ..

theorem State.rmSlot_setRmSlot_other (s : State) {i k : Nat} (x : RmSlot) (other : k ≠ i) : (s.setRmSlot i x).rmSlot k = s.rmSlot k :=
  Map.find_put_other _ _ _ other

theorem State.rmSlot_emptySlot (s : State) (i : Nat) : (s.emptySlot i).rmSlot i = .init := Map.find_del_same ..

theorem State.rmSlot_emptySlot_other (s : State) {i k : Nat} (other : k ≠ i) : (s.emptySlot i).rmSlot k = s.rmSlot k :=
  Map.find_del_other _ _ other

theorem State.rmSlot_of_slots {s t : State} (slots : t.cas.slots = s.cas.slots) (i : Nat) : t.rmSlot i = s.rmSlot i := by
  rw [State.rmSlot, slots]
  rfl

theorem State.loadOf_of_loads {s t : State} (loads : t.cas.loads = s.cas.loads) (digest : Bytes) : t.loadOf digest = s.loadOf digest := by
  rw [State.loadOf, loads]
  rfl

theorem State.loadOf_digest {s : State} {digest : Bytes} {l : CasLoad} (load : s.loadOf digest = some l) :
    l.digest = digest ∧ l.adapter = none := by
  have found := List.find?_some load
  simpa using found

/-- A load that is written in its own place is the one its digest names. -/
theorem State.loadOf_putLoad {s : State} {l : CasLoad} (plain : l.adapter = none) (there : (s.loadOf l.digest).isSome = true) :
    (s.putLoad l).loadOf l.digest = some l := by
  have same : ∀ x : CasLoad, (x.digest = l.digest && x.adapter.isNone) = (x.digest = l.digest && x.adapter = l.adapter : Bool) := fun x => by
    rw [plain]
    cases x.adapter <;> simp
  unfold State.loadOf at there ⊢
  change (s.cas.loads.map fun x => if x.digest = l.digest && x.adapter = l.adapter then l else x).find? _ = some l
  rw [List.find?_map]
  obtain ⟨x, found⟩ := Option.isSome_iff_exists.mp there
  have own : (decide (x.digest = l.digest) && x.adapter.isNone) = true := List.find?_some (p := fun x : CasLoad => decide (x.digest = l.digest) && x.adapter.isNone) found
  have pred : ((fun y : CasLoad => y.digest = l.digest && y.adapter.isNone) ∘ fun x : CasLoad =>
      if x.digest = l.digest && x.adapter = l.adapter then l else x) = fun x => x.digest = l.digest && x.adapter.isNone := by
    funext y
    dsimp only [Function.comp]
    split
    next h =>
      rw [← same] at h
      rw [h]
      simp [plain]
    next => rfl
  rw [pred, found, Option.map_some, if_pos (by rw [← same]; exact own)]

theorem State.loadOf_dropLoad {l : CasLoad} (plain : l.adapter = none) (s : State) : (s.dropLoad l).loadOf l.digest = none := by
  unfold State.loadOf
  rw [List.find?_eq_none]
  intro x mem named
  obtain ⟨-, kept⟩ := List.mem_filter.mp mem
  rw [plain] at kept
  cases h : x.adapter <;> simp_all

/-! ### A load that fails (R270) -/

section Fail

variable {s : State} {l : CasLoad} (r : Result) (code ix : Nat)

/-- The load as its failure leaves it. -/
def CasLoad.failing (l : CasLoad) (r : Result) (code ix : Nat) : CasLoad := { l with phase := .failed, failed := some (r.code, code, ix) }

/-- The module with the failure recorded. -/
def State.recording (s : State) (slot code ix : Nat) : State := if code / 256 = 8 then s.casFault slot code ix else s

/-- The module with the load and its slot gone. -/
def State.withoutLoad (s : State) (l : CasLoad) : State := (s.dropLoad l).emptySlot l.slot

theorem State.recording_leaves {α : Type} {v : State → α} (casless : ∀ (s : State) k, v (s.withCas k) = v s) (slot : Nat) :
    v (s.recording slot code ix) = v s := by
  unfold State.recording
  split
  · exact casless ..
  · rfl

theorem State.casNow_recording (slot : Nat) : (s.recording slot code ix).casNow = s.casNow :=
  State.recording_leaves code ix (v := State.casNow) (fun _ _ => rfl) slot

theorem Result.ofCode_code (r : Result) : Result.ofCode r.code = r := by cases r <;> rfl

/-- Where nothing waits for the boundary the slot is empty at once, and the command is answered. -/
theorem State.failLoad_answers (now : s.casNow = true) {ch : Nat} (told : l.chan = some ch) : s.failLoad l r code ix =
    ((s.recording l.slot code ix).withoutLoad l).respond ch { result := r, fault := code, entry := some ix } := by
  have eq : s.failLoad l r code ix = if (s.recording l.slot code ix).casNow then (s.recording l.slot code ix).endLoad (l.failing r code ix)
      else (s.recording l.slot code ix).putLoad (l.failing r code ix) := rfl
  rw [eq, if_pos ((State.casNow_recording ..).trans now)]
  have chan : (l.failing r code ix).chan = some ch := told
  have failed : (l.failing r code ix).failed = some (r.code, code, ix) := rfl
  simp only [State.endLoad, failed, chan, Result.ofCode_code]
  rfl

theorem State.failLoad_silent (now : s.casNow = true) (told : l.chan = none) :
    s.failLoad l r code ix = (s.recording l.slot code ix).withoutLoad l := by
  have eq : s.failLoad l r code ix = if (s.recording l.slot code ix).casNow then (s.recording l.slot code ix).endLoad (l.failing r code ix)
      else (s.recording l.slot code ix).putLoad (l.failing r code ix) := rfl
  rw [eq, if_pos ((State.casNow_recording ..).trans now)]
  have chan : (l.failing r code ix).chan = none := told
  have failed : (l.failing r code ix).failed = some (r.code, code, ix) := rfl
  simp only [State.endLoad, failed, chan]
  rfl

/-- Otherwise the failure waits for the boundary. -/
theorem State.failLoad_waits (later : s.casNow = false) :
    s.failLoad l r code ix = (s.recording l.slot code ix).putLoad (l.failing r code ix) := by
  have eq : s.failLoad l r code ix = if (s.recording l.slot code ix).casNow then (s.recording l.slot code ix).endLoad (l.failing r code ix)
      else (s.recording l.slot code ix).putLoad (l.failing r code ix) := rfl
  rw [eq, if_neg (by rw [State.casNow_recording, later]; decide)]

/-- The resident-model table after a failure. -/
theorem State.failLoad_cas_now (now : s.casNow = true) : (s.failLoad l r code ix).cas = ((s.recording l.slot code ix).withoutLoad l).cas := by
  cases told : l.chan with
  | none => rw [State.failLoad_silent r code ix now told]
  | some ch => rw [State.failLoad_answers r code ix now told, State.respond_cas]

variable {code} in
/-- What a cassette failure shows of the table. -/
theorem State.failLoad_shows (plain : l.adapter = none) (there : (s.loadOf l.digest).isSome = true) (cassette : code / 256 = 8) :
    let t := s.failLoad l r code ix
    t.cas.faultCode = BitVec.ofNat 16 code ∧ t.cas.faultIndex = BitVec.ofNat 32 ix ∧ t.cas.faultValid = true ∧
      t.cas.faultSlot = l.slot % 256 ∧
      (s.casNow = true → t.loadOf l.digest = none ∧ (t.rmSlot l.slot).state = .empty ∧ ∀ k, k ≠ l.slot → t.rmSlot k = s.rmSlot k) ∧
      (s.casNow = false → ∃ y, t.loadOf l.digest = some y ∧ y.phase = .failed) := by
  dsimp only
  have recorded : s.recording l.slot code ix = s.casFault l.slot code ix := if_pos cassette
  cases now : s.casNow with
  | true =>
    have cas := State.failLoad_cas_now (l := l) r code ix now
    rw [recorded] at cas
    generalize s.failLoad l r code ix = t at cas
    refine ⟨congrArg Cas.faultCode cas, congrArg Cas.faultIndex cas, congrArg Cas.faultValid cas, congrArg Cas.faultSlot cas,
      fun _ => ⟨?_, ?_, fun k other => ?_⟩, fun h => nomatch h⟩
    · exact (State.loadOf_of_loads (congrArg Cas.loads cas) _).trans (State.loadOf_dropLoad plain _)
    · rw [State.rmSlot_of_slots (congrArg Cas.slots cas), State.withoutLoad, State.rmSlot_emptySlot]
      rfl
    · rw [State.rmSlot_of_slots (congrArg Cas.slots cas), State.withoutLoad, State.rmSlot_emptySlot_other _ other]
      rfl
  | false =>
    rw [State.failLoad_waits r code ix now, recorded]
    exact ⟨rfl, rfl, rfl, rfl, fun h => absurd h Bool.false_ne_true, fun _ =>
      ⟨_, State.loadOf_putLoad (s := s.casFault l.slot code ix) (l := l.failing r code ix) plain there, rfl⟩⟩

end Fail

/-! ### What serving children touches (R263 to R267) -/

/-- Nothing differs but the table, the links' own transfers, and what the far memory's controllers and channels are to do. -/
structure State.casOnly (s t : State) : Prop where
  rest : ({ t with cas := s.cas, free := s.free, ports := s.ports, fab := s.fab
                   far := { t.far with ctrls := s.far.ctrls, chans := s.far.chans } } : State) = s
  fab : ({ t.fab with owns := s.fab.owns, nextTid := s.fab.nextTid } : Fabric) = s.fab

/-- The same, and of the table only what has been sent. -/
structure State.serves (s t : State) : Prop extends s.casOnly t where
  cas : ({ t.cas with sent := s.cas.sent } : Cas) = s.cas

namespace State.casOnly

theorem refl (s : State) : s.casOnly s := ⟨rfl, rfl⟩

theorem trans {s t u : State} (h : s.casOnly t) (k : t.casOnly u) : s.casOnly u :=
  ⟨(congrArg (fun x : State => { x with
      cas := s.cas, free := s.free, ports := s.ports, fab := s.fab, far := { x.far with ctrls := s.far.ctrls, chans := s.far.chans } })
      k.rest).trans h.rest,
    (congrArg (fun x : Fabric => { x with owns := s.fab.owns, nextTid := s.fab.nextTid }) k.fab).trans h.fab⟩

theorem withCas (s : State) (k : Cas) : s.casOnly (s.withCas k) := ⟨rfl, rfl⟩

theorem recording (s : State) (slot code ix : Nat) : s.casOnly (s.recording slot code ix) := by
  unfold State.recording
  split
  · exact withCas ..
  · exact refl s

theorem withoutLoad (s : State) (l : CasLoad) : s.casOnly (s.withoutLoad l) := (withCas ..).trans (withCas ..)

/-- What no cassette traffic changes. -/
theorem keeps {α : Type} {v : State → α} (kept : ∀ (s : State) cas free ports fab ctrls chans, v { s with
    cas := cas, free := free, ports := ports, fab := fab, far := { s.far with ctrls := ctrls, chans := chans } } = v s) {s t : State}
    (h : s.casOnly t) : v t = v s :=
  (kept t s.cas s.free s.ports s.fab s.far.ctrls s.far.chans).symm.trans (congrArg v h.rest)

end State.casOnly

namespace State.serves

theorem refl (s : State) : s.serves s := ⟨.refl s, rfl⟩

theorem trans {s t u : State} (h : s.serves t) (k : t.serves u) : s.serves u :=
  ⟨h.tocasOnly.trans k.tocasOnly, (congrArg (fun x : Cas => { x with sent := s.cas.sent }) k.cas).trans h.cas⟩

theorem slots {s t : State} (h : s.serves t) : t.cas.slots = s.cas.slots := (congrArg Cas.slots h.cas :)
theorem loads {s t : State} (h : s.serves t) : t.cas.loads = s.cas.loads := (congrArg Cas.loads h.cas :)

theorem background (s : State) (src : BgSrc) (r : FarRegion) (off n : Nat) (write : Bool) : s.serves (s.background src r off n write) := by
  have ctrl : ∀ (s : State) c x, s.serves (s.setCtrl c x) := fun s c x => ⟨⟨rfl, rfl⟩, rfl⟩
  have chan : ∀ (s : State) c k x, s.serves (s.setFarChan c k x) := fun s c k x => ⟨⟨rfl, rfl⟩, rfl⟩
  have foldl : ∀ {β : Type} (f : State → β → State), (∀ (s : State) x, s.serves (f s x)) → ∀ (l : List β) (s : State), s.serves (l.foldl f s) := by
    intro β f step l
    induction l with
    | nil => exact fun s => refl s
    | cons x l ih => exact fun s => (step s x).trans (ih _)
  unfold State.background
  refine trans (t := s.dropFixes _) (foldl _ (fun s g => ?_) _ s) (foldl _ (fun s c => ctrl ..) _ _)
  dsimp only
  split
  · exact chan ..
  · exact refl s

theorem windowAt (s : State) (l : CasLoad) (r : CasRange) (n len : Nat) (write : Bool) : s.serves (s.windowAt l r n len write) :=
  background ..

theorem casSend (s : State) (p : Nat) (m : CasMsg) (b : Bytes) : s.serves (s.casSend p m b) := ⟨⟨rfl, rfl⟩, rfl⟩

end State.serves

theorem State.casSend_sent (s : State) (p : Nat) (m : CasMsg) (b : Bytes) : (s.casSend p m b).cas.sent = s.cas.sent ++ [(p, m)] := rfl

/-! ### A range after a change (R265, R266) -/

/-- What serving a range keeps of it: where it lies, and how far its children have come. -/
structure CasRange.served (r r' : CasRange) : Prop where
  first : r'.first = r.first
  last : r'.last = r.last
  parent : r'.parent = r.parent
  retain : r'.retain = r.retain
  ackNext : r.ackNext ≤ r'.ackNext
  children : ∀ k ∈ r.children, ∃ k' ∈ r'.children, k'.port = k.port ∧ k'.start = k.start ∧ k'.acked = k.acked

namespace CasRange.served

theorem refl (r : CasRange) : r.served r := ⟨rfl, rfl, rfl, rfl, le_refl _, fun k mem => ⟨k, mem, rfl, rfl, rfl⟩⟩

theorem trans {r r' r'' : CasRange} (h : r.served r') (k : r'.served r'') : r.served r'' :=
  ⟨k.first.trans h.first, k.last.trans h.last, k.parent.trans h.parent, k.retain.trans h.retain, h.ackNext.trans k.ackNext,
    fun c mem => by
      obtain ⟨c', mem', port, start, acked⟩ := h.children c mem
      obtain ⟨c'', mem'', port', start', acked'⟩ := k.children c' mem'
      exact ⟨c'', mem'', port'.trans port, start'.trans start, acked'.trans acked⟩⟩

end CasRange.served

theorem CasRange.advance_served (blocks : Map Bytes) (n : Nat) (r : CasRange) : r.served (CasRange.advance blocks n r) := by
  induction n generalizing r with
  | zero => exact .refl r
  | succ n ih =>
    rw [CasRange.advance]
    split
    · exact CasRange.served.trans (r' := { r with ackNext := r.ackNext + 1 }) ⟨rfl, rfl, rfl, rfl, Nat.le_succ _, fun k mem => ⟨k, mem, rfl, rfl, rfl⟩⟩ (ih _)
    · exact .refl r

theorem State.ackRange_shows (s : State) (digest : Bytes) (r : CasRange) :
    s.serves (s.ackRange digest r).1 ∧ r.served (s.ackRange digest r).2 := by
  unfold State.ackRange
  split
  · split
    · exact ⟨.refl s, .refl r⟩
    · exact ⟨.casSend .., rfl, rfl, rfl, rfl, le_refl _, fun k mem => ⟨k, mem, rfl, rfl, rfl⟩⟩
  · exact ⟨.refl s, .refl r⟩

/-- The load with other blocks verified, and others left in the host's memory. -/
def CasLoad.fed (l : CasLoad) (blocks host : Map Bytes) : CasLoad := { l with blocks := blocks, host := host }

/-- A root takes nothing when nothing waits in its host's memory. -/
theorem State.feedRoot_shows (r : CasRange) (k n : Nat) (x : State × CasLoad) : ∃ blocks host,
    x.1.serves (State.feedRoot r k n x).1 ∧ (State.feedRoot r k n x).2 = x.2.fed blocks host ∧
      (x.2.host = [] → blocks = x.2.blocks ∧ host = []) := by
  induction k generalizing n x with
  | zero => exact ⟨x.2.blocks, x.2.host, .refl _, rfl, fun none => ⟨rfl, none⟩⟩
  | succ k ih =>
    rw [State.feedRoot]
    split
    next takes =>
      dsimp only
      generalize taken : (x.1.windowAt x.2 r n (x.2.host.find [] n).length true,
        ({ x.2 with blocks := x.2.blocks.put n (x.2.host.find [] n), host := x.2.host.del n } : CasLoad)) = y
      obtain ⟨blocks, host, serves, fed, -⟩ := ih (n + 1) y
      subst taken
      refine ⟨blocks, host, (State.serves.windowAt ..).trans serves, fed, fun none => ?_⟩
      rw [none] at takes
      simp [Map.has] at takes
    next => exact ⟨x.2.blocks, x.2.host, .refl _, rfl, fun none => ⟨rfl, none⟩⟩

/-- A child that has been sent its manifest and the blocks due to it. -/
def State.forwardTo (l : CasLoad) (r : CasRange) (p : State × List CasChild) (c : CasChild) : State × List CasChild :=
  let s := if c.manifest then p.1
    else p.1.casSend c.port (.manifest l.digest r.first) (match l.manifest with | some m => m.bytes | none => [])
  let d := r.due c
  let s := d.foldl (fun s n =>
    (s.windowAt l r n (l.blocks.find [] n).length false).casSend c.port (.block l.digest n) (l.blocks.find [] n)) s
  (s, p.2 ++ [c.sent d.length s.gsc])

theorem State.forwardTo_shows (l : CasLoad) (r : CasRange) (p : State × List CasChild) (c : CasChild) :
    p.1.serves (State.forwardTo l r p c).1 ∧ (∀ k ∈ p.2, k ∈ (State.forwardTo l r p c).2) ∧
      ∃ k ∈ (State.forwardTo l r p c).2, k.port = c.port ∧ k.start = c.start ∧ k.acked = c.acked := by
  unfold State.forwardTo
  dsimp only
  refine ⟨?_, fun k mem => List.mem_append_left _ mem, _, List.mem_append_right _ (List.mem_singleton_self _), rfl, rfl, rfl⟩
  have blocks : ∀ (d : List Nat) (s : State), s.serves (d.foldl (fun s n =>
      (s.windowAt l r n (l.blocks.find [] n).length false).casSend c.port (.block l.digest n) (l.blocks.find [] n)) s) := by
    intro d
    induction d with
    | nil => exact fun s => .refl s
    | cons n d ih => exact fun s => ((State.serves.windowAt ..).trans (State.serves.casSend ..)).trans (ih _)
  refine State.serves.trans ?_ (blocks ..)
  split
  · exact .refl _
  · exact .casSend ..

theorem foldl_forwardTo_shows (l : CasLoad) (r : CasRange) (kids : List CasChild) (p : State × List CasChild) :
    p.1.serves (kids.foldl (State.forwardTo l r) p).1 ∧ (∀ k ∈ p.2, k ∈ (kids.foldl (State.forwardTo l r) p).2) ∧
      ∀ c ∈ kids, ∃ k ∈ (kids.foldl (State.forwardTo l r) p).2, k.port = c.port ∧ k.start = c.start ∧ k.acked = c.acked := by
  induction kids generalizing p with
  | nil => exact ⟨.refl _, fun _ mem => mem, fun _ mem => absurd mem List.not_mem_nil⟩
  | cons c kids ih =>
    obtain ⟨serves, keeps, k, mem, same⟩ := State.forwardTo_shows l r p c
    obtain ⟨serves', keeps', each⟩ := ih (State.forwardTo l r p c)
    refine ⟨serves.trans serves', fun k mem => keeps' k (keeps k mem), fun x listed => ?_⟩
    rcases List.mem_cons.mp listed with rfl | later
    · exact ⟨k, keeps' k mem, same⟩
    · exact each x later

theorem State.forward_shows (s : State) (l : CasLoad) (r : CasRange) : s.serves (s.forward l r).1 ∧ r.served (s.forward l r).2 := by
  have eq : s.forward l r =
      let out := (sortBy (fun (a b : CasChild) => a.port ≤ b.port) r.children).foldl (State.forwardTo l r) (s, [])
      (out.1, { r with children := out.2 }) := rfl
  obtain ⟨serves, -, each⟩ := foldl_forwardTo_shows l r (sortBy (fun (a b : CasChild) => a.port ≤ b.port) r.children) (s, [])
  rw [eq]
  exact ⟨serves, rfl, rfl, rfl, rfl, le_refl _, fun k mem => each k (mem_sortBy.mpr mem)⟩

/-- Serving a range touches its children, its acknowledgement and what its host's memory has given. -/
theorem State.pumpRange_shows (s : State) (l : CasLoad) (r : CasRange) : ∃ blocks host r',
    s.serves (s.pumpRange l r).1 ∧ (s.pumpRange l r).2 = (l.fed blocks host).setRange r' ∧
      (l.host = [] → blocks = l.blocks ∧ host = []) ∧ r.served r' := by
  unfold State.pumpRange
  dsimp only
  have fed : ∃ blocks host, s.serves (if r.parent.isNone then State.feedRoot r (r.last + 1 - r.ackNext) r.ackNext (s, l) else (s, l)).1 ∧
      (if r.parent.isNone then State.feedRoot r (r.last + 1 - r.ackNext) r.ackNext (s, l) else (s, l)).2 = l.fed blocks host ∧
        (l.host = [] → blocks = l.blocks ∧ host = []) := by
    split
    · exact State.feedRoot_shows r _ _ (s, l)
    · exact ⟨l.blocks, l.host, .refl s, rfl, fun none => ⟨rfl, none⟩⟩
  obtain ⟨blocks, host, serves, load, none⟩ := fed
  generalize (if r.parent.isNone then State.feedRoot r (r.last + 1 - r.ackNext) r.ackNext (s, l) else (s, l)) = f at serves load
  have advanced := CasRange.advance_served f.2.blocks (r.last + 1) r
  generalize CasRange.advance f.2.blocks (r.last + 1) r = r' at advanced
  have acked : f.1.serves (if r.ackNext < r'.ackNext then f.1.ackRange l.digest r' else (f.1, r')).1 ∧
      r.served (if r.ackNext < r'.ackNext then f.1.ackRange l.digest r' else (f.1, r')).2 := by
    split
    · obtain ⟨serves, served⟩ := f.1.ackRange_shows l.digest r'
      exact ⟨serves, advanced.trans served⟩
    · exact ⟨.refl _, advanced⟩
  obtain ⟨serves', served⟩ := acked
  generalize (if r.ackNext < r'.ackNext then f.1.ackRange l.digest r' else (f.1, r')) = x at serves' served
  split
  · obtain ⟨serves'', served'⟩ := x.1.forward_shows f.2 x.2
    exact ⟨blocks, host, _, (serves.trans serves').trans serves'', by rw [load], none, served.trans served'⟩
  · exact ⟨blocks, host, _, serves.trans serves', by rw [load], none, served⟩

/-- Each of a load's ranges is one of another's, served. -/
structure CasLoad.rangesServed (l l' : CasLoad) : Prop where
  firsts : l'.ranges.map CasRange.first = l.ranges.map CasRange.first
  each : ∀ q ∈ l'.ranges, ∃ r ∈ l.ranges, r.served q

theorem CasLoad.setRange_firsts (l : CasLoad) (r : CasRange) : (l.setRange r).ranges.map CasRange.first = l.ranges.map CasRange.first := by
  unfold CasLoad.setRange
  rw [List.map_map]
  refine List.map_congr_left fun x _ => ?_
  dsimp only [Function.comp]
  split
  next same => exact same.symm
  next => rfl

theorem CasLoad.mem_setRange {l : CasLoad} {r q : CasRange} (mem : q ∈ (l.setRange r).ranges) :
    q = r ∨ q ∈ l.ranges ∧ q.first ≠ r.first := by
  obtain ⟨x, old, rfl⟩ := List.mem_map.mp mem
  split
  next => exact .inl rfl
  next other => exact .inr ⟨old, other⟩

theorem CasLoad.rangesServed.setRange {l l' : CasLoad} (h : l.rangesServed l') {r r' : CasRange} (mem : r ∈ l.ranges) (served : r.served r') :
    l.rangesServed (l'.setRange r') := by
  refine ⟨(l'.setRange_firsts r').trans h.firsts, fun q listed => ?_⟩
  rcases CasLoad.mem_setRange listed with rfl | ⟨old, -⟩
  · exact ⟨r, mem, served⟩
  · exact h.each q old

/-- A load whose ranges have all been served. -/
def CasLoad.pumped (l : CasLoad) (blocks host : Map Bytes) (ranges : List CasRange) : CasLoad :=
  { l with blocks := blocks, host := host, ranges := ranges }

/-- Serving all ranges of a load. -/
def State.pumpRanges (s : State) (l : CasLoad) : State × CasLoad :=
  l.ranges.foldl (fun (p : State × CasLoad) r => p.1.pumpRange p.2 r) (s, l)

theorem State.pumpRanges_shows (s : State) (l : CasLoad) : ∃ blocks host ranges,
    s.serves (s.pumpRanges l).1 ∧ (s.pumpRanges l).2 = l.pumped blocks host ranges ∧
      (l.host = [] → blocks = l.blocks ∧ host = []) ∧ l.rangesServed (l.pumped blocks host ranges) := by
  have steps : ∀ (todo : List CasRange) (p : State × CasLoad), (∀ r ∈ todo, r ∈ l.ranges) → s.serves p.1 →
      (∃ blocks host ranges, p.2 = l.pumped blocks host ranges ∧ (l.host = [] → blocks = l.blocks ∧ host = []) ∧
        l.rangesServed (l.pumped blocks host ranges)) →
      ∃ blocks host ranges, s.serves (todo.foldl (fun (p : State × CasLoad) r => p.1.pumpRange p.2 r) p).1 ∧
        (todo.foldl (fun (p : State × CasLoad) r => p.1.pumpRange p.2 r) p).2 = l.pumped blocks host ranges ∧
          (l.host = [] → blocks = l.blocks ∧ host = []) ∧ l.rangesServed (l.pumped blocks host ranges) := by
    intro todo
    induction todo with
    | nil => exact fun p _ serves ⟨blocks, host, ranges, load, stays, served⟩ => ⟨blocks, host, ranges, serves, load, stays, served⟩
    | cons r todo ih =>
      rintro p listed serves ⟨blocks, host, ranges, load, none, served⟩
      obtain ⟨blocks', host', r', serves', load', none', range⟩ := p.1.pumpRange_shows p.2 r
      refine ih _ (fun x mem => listed x (List.mem_cons_of_mem _ mem)) (serves.trans serves')
        ⟨blocks', host', ((l.pumped blocks host ranges).setRange r').ranges, ?_, fun empty => ?_, ?_⟩
      · rw [load', load]
        rfl
      · obtain ⟨same, gone⟩ := none empty
        obtain ⟨same', gone'⟩ := none' (by rw [load]; exact gone)
        exact ⟨same'.trans (by rw [load]; exact same), gone'⟩
      · obtain ⟨firsts, each⟩ := CasLoad.rangesServed.setRange served (listed r List.mem_cons_self) range
        exact ⟨firsts, each⟩
  exact steps l.ranges (s, l) (fun _ mem => mem) (.refl s) ⟨l.blocks, l.host, l.ranges, rfl, fun none => ⟨rfl, none⟩, rfl,
    fun q mem => ⟨q, mem, .refl q⟩⟩

theorem State.pumpLoad_eq (s : State) (l : CasLoad) : s.pumpLoad l =
    if (s.pumpRanges l).2.phase = .receiving then (s.pumpRanges l).1.writeCopy (s.pumpRanges l).2
    else (s.pumpRanges l).1.keepLoad (s.pumpRanges l).2 := rfl

/-- A load whose copy cannot be written yet. -/
def CasLoad.lacks (l : CasLoad) : Prop := l.phase = .receiving → l.host = [] ∧ ∀ m, l.manifest = some m → l.body m = none

theorem State.writeCopy_lacks {s : State} {l : CasLoad} (lacks : ∀ m, l.manifest = some m → l.body m = none) : s.writeCopy l = s.putLoad l := by
  unfold State.writeCopy
  split
  · rfl
  next m manifest => simp only [lacks m manifest]

/-- Serving a load that still waits for blocks puts it back, or ends its window. -/
theorem State.pumpLoad_lacks (s : State) {l : CasLoad} (lacks : l.lacks) : ∃ u blocks host ranges, s.serves u ∧
    (l.host = [] → blocks = l.blocks ∧ host = []) ∧ l.rangesServed (l.pumped blocks host ranges) ∧
      s.pumpLoad l = if l.phase = .receiving then u.putLoad (l.pumped blocks host ranges) else u.keepLoad (l.pumped blocks host ranges) := by
  obtain ⟨blocks, host, ranges, serves, load, stays, served⟩ := s.pumpRanges_shows l
  refine ⟨_, blocks, host, ranges, serves, stays, served, ?_⟩
  rw [s.pumpLoad_eq, load]
  change (if l.phase = .receiving then _ else _) = _
  by_cases receiving : l.phase = .receiving
  · rw [if_pos receiving, if_pos receiving]
    obtain ⟨empty, short⟩ := lacks receiving
    refine State.writeCopy_lacks fun m manifest => ?_
    have body : (l.pumped blocks host ranges).body m = l.body m := by
      unfold CasLoad.body
      rw [show (l.pumped blocks host ranges).blocks = l.blocks from (stays empty).1]
    rw [body]
    exact short m manifest
  · rw [if_neg receiving, if_neg receiving]

end Sys2Proof.Machine

/-! PROOF. The commands of the resident-model table and of broadcasts (R257 to R262, R269, R270, R431). -/
namespace Sys2Proof.Machine

/-! ### What a cassette gives (R243 to R250, R262) -/

/-- A manifest that fails a check fails with a cassette code. -/
theorem checkManifest_code {m digest : Bytes} {sig : Bool} {keys : Map Bytes} {f : CasFail} (bad : checkManifest m digest sig keys = .inr f) :
    f.code / 256 = 8 := by
  unfold checkManifest at bad
  dsimp only at bad
  split at bad
  · cases bad; norm_num
  split at bad
  · cases bad; norm_num
  split at bad
  · cases bad; norm_num
  split at bad
  · cases bad; norm_num
  split at bad
  · cases bad; norm_num
  split at bad
  · cases bad; norm_num
  split at bad
  · cases bad; norm_num
  split at bad
  · cases bad; norm_num
  split at bad
  · cases bad; norm_num
  · cases bad

theorem State.readManifest_code {s : State} {v : HostView} {l : List (Nat × Nat)} {digest : Bytes} {need : Nat → Nat} {f : CasFail}
    (bad : s.readManifest v l digest need = .bad f) : f.code / 256 = 8 := by
  unfold State.readManifest at bad
  split at bad
  · cases bad; rfl
  split at bad
  · cases bad
  split at bad
  · cases bad; rfl
  split at bad
  · cases bad; rfl
  split at bad
  · cases bad
  split at bad
  next check => cases bad; exact checkManifest_code check
  · cases bad

/-- The blocks that were read are all there. -/
theorem readBlocks_has {m : Manifest} {v v2 : HostView} {l : List (Nat × Nat)} (n : Nat) {b off : Nat} {acc bs : Map Bytes}
    (read : readBlocks m v v2 l n b off acc = .inl bs) :
    (∀ k, acc.has k = true → bs.has k = true) ∧ ∀ k, b ≤ k → k < b + n → bs.has k = true := by
  induction n generalizing b off acc with
  | zero =>
    obtain rfl : acc = bs := Sum.inl.inj read
    exact ⟨fun _ h => h, fun k low high => by omega⟩
  | succ n ih =>
    have later : ∀ {off : Nat} {x : Bytes}, readBlocks m v v2 l n (b + 1) off (acc.put b x) = .inl bs →
        (∀ k, acc.has k = true → bs.has k = true) ∧ ∀ k, b ≤ k → k < b + (n + 1) → bs.has k = true := fun read => by
      obtain ⟨kept, each⟩ := ih read
      refine ⟨fun k h => kept k (by simp [h]), fun k low high => ?_⟩
      by_cases own : k = b
      · exact kept k (by simp [own])
      · exact each k (by omega) (by omega)
    unfold readBlocks at read
    dsimp only at read
    split at read
    · cases read
    split at read
    · exact later read
    split at read
    · cases read
    split at read
    · exact later read
    · cases read

theorem CasLoad.body_all {l : CasLoad} {m : Manifest} (all : ∀ k, k < m.blocks → l.blocks.has k = true) :
    l.body m = some ((List.range m.blocks).flatMap fun b => l.blocks.find [] b) :=
  if_pos (List.all_eq_true.mpr fun k mem => all k (List.mem_range.mp mem))

/-! ### Taking a slot (R257, R260) -/

theorem State.freeSlot_spec {s : State} {i : Nat} (free : s.freeSlot = some i) : i < 256 ∧ (s.rmSlot i).state = .empty :=
  ⟨List.mem_range.mp (List.mem_of_find?_eq_some free), by simpa using List.find?_some free⟩

/-- The module with a load listed. -/
def State.listing (s : State) (l : CasLoad) : State :=
  s.withCas { s.cas with loads := (s.cas.loads.filter fun x => !(x.digest = l.digest && x.phase = .sharing)) ++ [l] }

/-- And with its slot LOADING. -/
def State.slotted (s : State) (i : Nat) (digest : Bytes) : State := s.setRmSlot i { RmSlot.init with state := .loading, digest := digest }

/-- The load in its slot. -/
def CasLoad.atSlot (l : CasLoad) (i : Nat) : CasLoad := { l with slot := i, phase := .receiving }

theorem State.listing_loadOf (s : State) {l : CasLoad} (plain : l.adapter = none) : ((s.listing l).loadOf l.digest).isSome = true := by
  unfold State.loadOf
  rw [List.find?_isSome]
  exact ⟨l, List.mem_append_right _ (List.mem_singleton_self l), by simp [plain]⟩

section Admit

variable {s : State} {l : CasLoad} {i : Nat} (free : s.freeSlot = some i)
include free

theorem State.startLoad_sound (sound : l.failed = none) : s.startLoad l = (s.slotted i l.digest).placeLoad (l.atSlot i) := by
  have taken : s.takeSlot = some (s, i) := by simp only [State.takeSlot, free]
  simp only [State.startLoad, taken, sound, State.slotted, CasLoad.atSlot]

/-- The module that a failed DMA read has told of, or as it was. -/
theorem State.startLoad_unread {r code ix : Nat} (failed : l.failed = some (r, code, ix)) : s.startLoad l =
    ((if code = 0x0C05 then (s.slotted i l.digest).dmaFailed else s.slotted i l.digest).putLoad (l.atSlot i)).failLoad (l.atSlot i)
      (Result.ofCode r) code ix := by
  have taken : s.takeSlot = some (s, i) := by simp only [State.takeSlot, free]
  simp only [State.startLoad, taken, failed, State.slotted, CasLoad.atSlot]

theorem State.admitLoad_free : s.admitLoad l = (s.listing l).startLoad l := by
  refine if_pos ?_
  have kept : (s.listing l).freeSlot = some i := free
  exact Bool.or_eq_true_iff.mpr (.inl (congrArg Option.isSome kept))

/-- A load that could not be read: its slot is empty again, and the command is answered. -/
theorem State.admitLoad_fails {r code ix ch : Nat} (now : s.casNow = true) (plain : l.adapter = none) (told : l.chan = some ch)
    (failed : l.failed = some (r, code, ix)) : ∃ w, s.admitLoad l = w.respond ch { result := Result.ofCode r, fault := code, entry := some ix } ∧
      w.loadOf l.digest = none ∧ (w.rmSlot i).state = .empty ∧ (∀ k, k ≠ i → w.rmSlot k = s.rmSlot k) ∧
      (code ≠ 0x0C05 → s.casOnly w) ∧
      (code / 256 = 8 → w.cas.faultCode = BitVec.ofNat 16 code ∧ w.cas.faultIndex = BitVec.ofNat 32 ix ∧ w.cas.faultSlot = i) ∧
      (code / 256 ≠ 8 → w.cas.faultValid = s.cas.faultValid) ∧ w.host.order = s.host.order ∧ w.host.chans = s.host.chans := by
  obtain ⟨u, slotted⟩ : ∃ u : State, u = if code = 0x0C05 then ((s.listing l).slotted i l.digest).dmaFailed
    else (s.listing l).slotted i l.digest := ⟨_, rfl⟩
  have cas : u.cas = ((s.listing l).slotted i l.digest).cas := by
    rw [slotted]
    split
    · exact State.event_cas ..
    · rfl
  have calm : u.casNow = true := by
    rw [slotted]
    split
    · unfold State.casNow State.dmaFailed
      rw [State.event_job, State.event_srv]
      exact now
    · exact now
  have host : u.host.order = s.host.order ∧ u.host.chans = s.host.chans := by
    rw [slotted]
    split
    · exact ⟨State.event_host_order .., State.event_host_chans ..⟩
    · exact ⟨rfl, rfl⟩
  have quiet : code ≠ 0x0C05 → s.casOnly u := fun other => by
    rw [slotted, if_neg other]
    exact (State.casOnly.withCas s _).trans (State.casOnly.withCas ..)
  have start := State.startLoad_unread (s := s.listing l) (l := l) (i := i) free failed
  rw [← slotted] at start
  have calm' : (u.putLoad (l.atSlot i)).casNow = true := calm
  obtain ⟨w, gone⟩ : ∃ w : State, w = ((u.putLoad (l.atSlot i)).recording i code ix).withoutLoad (l.atSlot i) := ⟨_, rfl⟩
  have answers := State.failLoad_answers (Result.ofCode r) code ix calm' (l := l.atSlot i) told
  rw [show ((u.putLoad (l.atSlot i)).recording (l.atSlot i).slot code ix).withoutLoad (l.atSlot i) = w from gone.symm] at answers
  have recorded : ((u.putLoad (l.atSlot i)).recording i code ix).cas.slots = u.cas.slots := by
    unfold State.recording
    split <;> rfl
  refine ⟨w, (State.admitLoad_free free).trans (start.trans answers), ?_, ?_, fun k other => ?_, fun other => ?_, fun cassette => ?_,
    fun other => ?_, ?_, ?_⟩
  · rw [gone]
    exact State.loadOf_dropLoad (l := l.atSlot i) plain _
  · rw [gone, State.withoutLoad]
    exact congrArg RmSlot.state (State.rmSlot_emptySlot ..)
  · rw [gone, State.withoutLoad]
    refine (State.rmSlot_emptySlot_other _ other).trans ((State.rmSlot_of_slots (s := u) recorded k).trans ?_)
    exact (State.rmSlot_of_slots (congrArg Cas.slots cas) k).trans (State.rmSlot_setRmSlot_other _ _ other)
  · refine (quiet other).trans ?_
    rw [gone]
    exact (State.casOnly.withCas ..).trans ((State.casOnly.recording ..).trans (State.casOnly.withoutLoad ..))
  · rw [gone, State.recording, if_pos cassette]
    exact ⟨rfl, rfl, Nat.mod_eq_of_lt (State.freeSlot_spec free).1⟩
  · rw [gone, State.recording, if_neg other]
    exact (congrArg Cas.faultValid cas :)
  · rw [gone]
    refine Eq.trans ?_ host.1
    unfold State.recording
    split <;> rfl
  · rw [gone]
    refine Eq.trans ?_ host.2
    unfold State.recording
    split <;> rfl

end Admit

/-! ### Writing a copy (R251 to R256, R260) -/

theorem State.farPutAt_mem {s t : State} (mem : t.far.mem = s.far.mem) (r : FarRegion) (off : Nat) (b : Bytes) :
    (t.farPutAt r off b).far.mem = (s.farPutAt r off b).far.mem := by
  unfold State.farPutAt
  rw [mem]

/-- A load all of whose blocks are there is written to its place. -/
theorem State.writeCopy_writes {s : State} {l : CasLoad} {m : Manifest} {body copy : Bytes} (manifest : l.manifest = some m)
    (whole : l.body m = some body) (built : residentCopy m body s.coreCount = .inl copy) : ∃ u : State,
      s.writeCopy l = u.putLoad { l with phase := .written } ∧
      u.far.mem = (s.farPutAt (copyRegion (s.rmSlot l.slot).base m.resSize) 0 copy).far.mem ∧
      u.cas.slots = s.cas.slots ∧ u.cas.loads = s.cas.loads ∧ (u.host, u.job, u.cores) = (s.host, s.job, s.cores) := by
  obtain ⟨w, wrote⟩ : ∃ w : State, w = (s.farPutAt (copyRegion (s.rmSlot l.slot).base m.resSize) 0 copy).background (.copy l.slot)
    (copyRegion (s.rmSlot l.slot).base m.resSize) 0 copy.length true := ⟨_, rfl⟩
  refine ⟨w.withCas { w.cas with bytesOut := w.cas.bytesOut + copy.length }, ?_, ?_, ?_, ?_, ?_⟩
  · simp only [State.writeCopy, manifest, whole, built, wrote]
  · rw [wrote]
    exact (State.background_mem ..).1
  · rw [wrote]
    exact State.background_leaves (v := fun t : State => t.cas.slots) (fun _ _ => rfl) ..
  · rw [wrote]
    exact State.background_leaves (v := fun t : State => t.cas.loads) (fun _ _ => rfl) ..
  · rw [wrote]
    exact State.background_leaves (v := fun t : State => (t.host, t.job, t.cores)) (fun _ _ => rfl) ..

/-- A slot with the place of its copy. -/
def RmSlot.placedAt (x : RmSlot) (base size : Nat) : RmSlot := { x with placed := true, base := base, size := size }

/-- The load whose place has been found goes on. -/
theorem State.placeLoad_fits {s : State} {l : CasLoad} {m : Manifest} {base : Nat} (manifest : l.manifest = some m)
    (fits : lowestFit s.usedBlocks 0 s.chanBlocks (copyRegion 0 m.resSize).blocks = some base) : s.placeLoad l =
      (s.setRmSlot l.slot ((s.rmSlot l.slot).placedAt base m.resSize)).writeCopy { l with phase := .receiving } := by
  simp only [State.placeLoad, manifest, fits, RmSlot.placedAt]

theorem State.placeLoad_none {s : State} {l : CasLoad} (manifest : l.manifest = none) : s.placeLoad l = s.putLoad l := by
  simp only [State.placeLoad, manifest]

/-- A load that has been read whole, admitted to a slot with room for its copy. -/
theorem State.admitLoad_writes {a : State} {x : CasLoad} {i base : Nat} {m : Manifest} {body copy : Bytes} (free : a.freeSlot = some i)
    (manifest : x.manifest = some m) (plain : x.adapter = none) (sound : x.failed = none) (whole : (x.atSlot i).body m = some body)
    (built : residentCopy m body a.coreCount = .inl copy)
    (fits : lowestFit (a.slotted i x.digest).usedBlocks 0 a.chanBlocks (copyRegion 0 m.resSize).blocks = some base) :
    (a.admitLoad x).rmSlot i = RmSlot.placedAt { RmSlot.init with state := .loading, digest := x.digest } base m.resSize ∧
      (a.admitLoad x).loadOf x.digest = some { x.atSlot i with phase := .written } ∧
      (a.admitLoad x).far.mem = (a.farPutAt (copyRegion base m.resSize) 0 copy).far.mem ∧
      ((a.admitLoad x).host, (a.admitLoad x).job, (a.admitLoad x).cores) = (a.host, a.job, a.cores) := by
  rw [State.admitLoad_free free, State.startLoad_sound (s := a.listing x) (i := i) free sound]
  obtain ⟨b, slotted⟩ : ∃ b, b = (a.listing x).slotted i x.digest := ⟨_, rfl⟩
  have shown : b.usedBlocks = (a.slotted i x.digest).usedBlocks ∧ b.chanBlocks = a.chanBlocks ∧ b.coreCount = a.coreCount ∧
      b.cas.loads = (a.listing x).cas.loads ∧ b.rmSlot i = { RmSlot.init with state := .loading, digest := x.digest } ∧
      b.far.mem = a.far.mem ∧ (b.host, b.job, b.cores) = (a.host, a.job, a.cores) := by
    rw [slotted]
    exact ⟨rfl, rfl, rfl, rfl, State.rmSlot_setRmSlot .., rfl, rfl⟩
  obtain ⟨used, room, cores, loads, slot, mem, kept⟩ := shown
  rw [← slotted, State.placeLoad_fits (s := b) (l := x.atSlot i) manifest (by rw [used, room]; exact fits)]
  obtain ⟨w, placed⟩ : ∃ w, w = b.setRmSlot i ((b.rmSlot i).placedAt base m.resSize) := ⟨_, rfl⟩
  have shown : w.rmSlot i = (b.rmSlot i).placedAt base m.resSize ∧ w.coreCount = b.coreCount ∧ w.cas.loads = b.cas.loads ∧
      w.far.mem = b.far.mem ∧ (w.host, w.job, w.cores) = (b.host, b.job, b.cores) := by
    rw [placed]
    exact ⟨State.rmSlot_setRmSlot .., rfl, rfl, rfl, rfl⟩
  obtain ⟨own, cores', loads', mem', kept'⟩ := shown
  obtain ⟨u, wrote, put, slots, listed, kept''⟩ := State.writeCopy_writes (s := w) (l := x.atSlot i) manifest whole
    (by rw [cores', cores]; exact built)
  rw [show b.setRmSlot (x.atSlot i).slot ((b.rmSlot (x.atSlot i).slot).placedAt base m.resSize) = w from placed.symm,
    show ({ x.atSlot i with phase := .receiving } : CasLoad) = x.atSlot i from rfl, wrote]
  refine ⟨?_, ?_, ?_, kept''.trans (kept'.trans kept)⟩
  · exact (State.rmSlot_of_slots (s := w) (t := u.putLoad { x.atSlot i with phase := .written }) slots i).trans (by rw [own, slot])
  · refine State.loadOf_putLoad (s := u) (l := { x.atSlot i with phase := .written }) plain ?_
    rw [State.loadOf_of_loads (s := a.listing x) (listed.trans (loads'.trans loads))]
    exact State.listing_loadOf _ plain
  · refine Eq.trans put ?_
    rw [show (x.atSlot i).slot = i from rfl, own]
    exact State.farPutAt_mem (mem'.trans mem) ..

/-! ### CAS_LOAD -/

/-- A command under execution in a module whose host block is that of the accepted command. -/
theorem executing_of_host {s t : State} {ch : Nat} {c : Cmd} (host : t.host = (s.accepted ch c).host) :
    (t.cmdOf ch).any (fun d => d.executing) = true := by
  have cmd : t.cmdOf ch = some { c with executing := true } :=
    (congrArg (fun h : HostBlk => (h.chans.find .init ch).cmd) host).trans (s.accepted_executing ch c)
  rw [cmd]
  rfl

/-- Reading a cassette gives its manifest and blocks, or its failure. -/
theorem State.readCassette_keeps (s : State) (v v2 : HostView) (addr count : Nat) (l : CasLoad) : ∃ manifest blocks failed,
    s.readCassette v v2 addr count l = { l with manifest := manifest, blocks := blocks, failed := failed } := by
  unfold State.readCassette
  repeat' split
  all_goals exact ⟨_, _, _, rfl⟩

/-- Reading roots gives their manifest and what waits in the host's memory, or a failure. -/
theorem State.readRoots_keeps (s : State) (v v2 : HostView) (b : Bytes) (ks : List Nat) (l : CasLoad) : ∃ manifest host failed,
    s.readRoots v v2 b ks l = { l with manifest := manifest, host := host, failed := failed } := by
  induction ks generalizing l with
  | nil => exact ⟨_, _, _, rfl⟩
  | cons k ks ih =>
    unfold State.readRoots
    dsimp only
    split
    · exact ih l
    split
    · exact ⟨_, _, _, rfl⟩
    · obtain ⟨manifest, host, failed, roots⟩ := ih _
      exact ⟨manifest, host, failed, roots⟩

theorem State.admitLoad_waits {s : State} (full : s.freeSlot = none) (later : s.casNow = false) (l : CasLoad) : s.admitLoad l = s.listing l := by
  have waits : ((s.listing l).freeSlot.isSome || (s.listing l).casNow) = false := by
    rw [show (s.listing l).freeSlot = none from full, show (s.listing l).casNow = false from later]
    rfl
  exact if_neg fun h => Bool.false_ne_true (waits.symm.trans h)

section Load

variable {s : State} {ch : Nat} {c : Cmd} {v v2 : HostView} (turn : s.carries ch 0x0301 c) (len : c.length = 64)
  (fields : (casLoad v v2).fields c.payload = true)

/-- A command that goes on and is answered within the row. -/
theorem answered_within {p : CmdSpec} {i : Instr} {w : State} {r : Reply} (row : exec i s = p.row ch s) (turn : s.carries ch p.op c)
    (len : p.len c.length = true) (fields : p.fields c.payload = true)
    (allowed : p.allowed { s with host := { s.host with order := s.host.order.drop 1 } } = true)
    (act : p.act (s.accepted ch c) ch c.payload = .goOn (w.respond ch r)) (order : w.host.order = (s.accepted ch c).host.order)
    (chans : w.host.chans = (s.accepted ch c).host.chans) : answered i s ch w r := by
  obtain ⟨order', others⟩ := State.keepsOrder_of (s := s) (t := w) (ch := ch) (c := c) order chans
  exact row.trans (p.row_goOn turn len fields allowed act
    ⟨(State.respond_order ..).trans order', fun x other => (State.respond_cmdOf w ch x r other).trans (others x other)⟩)

include turn len fields

theorem casLoad_known {r : Reply} (known : s.casKnown (c.payload.take 48) = some r) : answered (.casLoad ch v v2) s ch (s.accepted ch c) r := by
  have known : (s.accepted ch c).casKnown (c.payload.take 48) = some r := known
  exact answered_kept (p := casLoad v v2) rfl turn (decide_eq_true len) fields rfl (by simp only [casLoad, known]) rfl

variable (fresh : s.casKnown (c.payload.take 48) = none)
include fresh

omit turn len fields in
theorem casLoad_act : (casLoad v v2).act (s.accepted ch c) ch c.payload = .goOn ((s.accepted ch c).admitLoad
    ((s.accepted ch c).readCassette v v2 (fld c.payload 48 8) (fld c.payload 56 4) ((s.accepted ch c).newLoad (c.payload.take 48) ch))) := by
  have fresh : (s.accepted ch c).casKnown (c.payload.take 48) = none := fresh
  simp only [casLoad, fresh]

/-- A cassette that cannot be read: the answer, and what is left. -/
theorem casLoad_unread {i : Nat} {f : CasFail} (free : s.freeSlot = some i) (now : s.casNow = true)
    (unread : (s.accepted ch c).readCassette v v2 (fld c.payload 48 8) (fld c.payload 56 4)
      ((s.accepted ch c).newLoad (c.payload.take 48) ch) = ((s.accepted ch c).newLoad (c.payload.take 48) ch).unread f) : ∃ w : State,
      answered (.casLoad ch v v2) s ch w { result := casResultOf f.code, fault := f.code, entry := some f.index } ∧
      (w.loadOf (c.payload.take 48) = none ∧ (w.rmSlot i).state = .empty ∧ ∀ k, k ≠ i → w.rmSlot k = s.rmSlot k) ∧
      (f.code ≠ 0x0C05 → (s.accepted ch c).casOnly w) ∧
      (f.code / 256 = 8 → w.cas.faultCode = BitVec.ofNat 16 f.code ∧ w.cas.faultIndex = BitVec.ofNat 32 f.index ∧ w.cas.faultSlot = i) ∧
      (f.code / 256 ≠ 8 → w.cas.faultValid = s.cas.faultValid) := by
  have act := casLoad_act (ch := ch) (v := v) (v2 := v2) fresh
  rw [unread] at act
  obtain ⟨w, admitted, gone, empty, others, only, fault, calm, order, chans⟩ := State.admitLoad_fails (s := s.accepted ch c) (i := i) free
    (l := ((s.accepted ch c).newLoad (c.payload.take 48) ch).unread f) (ch := ch) now rfl rfl rfl
  rw [admitted, Result.ofCode_code] at act
  exact ⟨w, answered_within (p := casLoad v v2) rfl turn (decide_eq_true len) fields rfl act order chans, ⟨gone, empty, others⟩, only, fault, calm⟩

/-- One that is read whole is written to the slot's place, and its command goes on. -/
theorem casLoad_writes {i : Nat} {m : Manifest} {bs : Map Bytes} {copy : Bytes} {base : Nat} {l : List (Nat × Nat)}
    (free : s.freeSlot = some i) (scatter : v.scatter (fld c.payload 48 8) (fld c.payload 56 4) = some l)
    (manifest : (s.accepted ch c).readManifest v l (c.payload.take 48) id = .ok m)
    (read : readBlocks m v v2 l m.blocks 0 m.bytes.length [] = .inl bs)
    (built : residentCopy m ((List.range m.blocks).flatMap fun k => bs.find [] k) s.coreCount = .inl copy)
    (fits : lowestFit ((s.accepted ch c).slotted i (c.payload.take 48)).usedBlocks 0 s.chanBlocks (copyRegion 0 m.resSize).blocks = some base) :
    completes (.casLoad ch v v2) s fun t => (t.cmdOf ch).any (fun d => d.executing) = true ∧ (t.rmSlot i).state = .loading ∧
      (t.rmSlot i).digest = c.payload.take 48 ∧ (t.rmSlot i).base = base ∧
      (∃ x, t.loadOf (c.payload.take 48) = some x ∧ x.phase = .written ∧ x.slot = i ∧ x.chan = some ch) ∧
      t.far.mem = ((s.accepted ch c).farPutAt (copyRegion base m.resSize) 0 copy).far.mem ∧ t.job = s.job ∧ t.cores = s.cores := by
  have act := casLoad_act (ch := ch) (v := v) (v2 := v2) fresh
  obtain ⟨x, given⟩ : ∃ x : CasLoad, x = { (s.accepted ch c).newLoad (c.payload.take 48) ch with manifest := some m, blocks := bs } := ⟨_, rfl⟩
  have cassette : (s.accepted ch c).readCassette v v2 (fld c.payload 48 8) (fld c.payload 56 4)
      ((s.accepted ch c).newLoad (c.payload.take 48) ch) = x := by
    have manifest : (s.accepted ch c).readManifest v l ((s.accepted ch c).newLoad (c.payload.take 48) ch).digest id = .ok m := manifest
    simp only [State.readCassette, scatter, manifest, read, given]
  have shown : x.manifest = some m ∧ x.blocks = bs ∧ x.digest = c.payload.take 48 ∧ x.adapter = none ∧ x.chan = some ch ∧ x.failed = none := by
    rw [given]
    exact ⟨rfl, rfl, rfl, rfl, rfl, rfl⟩
  obtain ⟨man, blocks, digest, plain, chan, sound⟩ := shown
  have whole : (x.atSlot i).body m = some ((List.range m.blocks).flatMap fun k => bs.find [] k) := by
    have all := CasLoad.body_all (l := x.atSlot i) (m := m) fun k low =>
      (congrArg (fun b : Map Bytes => b.has k) blocks).trans ((readBlocks_has m.blocks read).2 k (Nat.zero_le _) (by omega))
    rw [all]
    exact congrArg (fun b : Map Bytes => some ((List.range m.blocks).flatMap fun k => b.find [] k)) blocks
  obtain ⟨slot, load, mem, kept⟩ := State.admitLoad_writes (a := s.accepted ch c) free man plain sound whole built
    (by rw [digest]; exact fits)
  rw [cassette] at act
  generalize (s.accepted ch c).admitLoad x = t at slot load mem kept act
  obtain ⟨host, kept⟩ := Prod.mk.inj kept
  obtain ⟨job, cores⟩ := Prod.mk.inj kept
  refine ⟨t, Eq.trans (b := (casLoad v v2).row ch s) rfl ((casLoad v v2).row_goOn turn (decide_eq_true len) fields rfl act
    (State.keepsOrder_of ((congrArg HostBlk.order host).trans rfl) (congrArg HostBlk.chans host))), ?_, ?_, ?_, ?_,
    ⟨_, (congrArg _ digest.symm).trans load, rfl, rfl, chan⟩, mem, job, cores⟩
  · exact executing_of_host host
  · rw [slot]; rfl
  · rw [slot]; exact digest
  · rw [slot]; rfl

/-- With no slot EMPTY the load waits for the boundary. -/
theorem casLoad_waits (later : s.casNow = false) (full : s.freeSlot = none) : completes (.casLoad ch v v2) s fun t =>
    (t.cmdOf ch).any (fun d => d.executing) = true ∧ (s.accepted ch c).casOnly t ∧ t.cas.slots = s.cas.slots ∧
      ∃ x ∈ t.cas.loads, x.digest = c.payload.take 48 ∧ x.phase = .needSlot ∧ x.chan = some ch := by
  have act := casLoad_act (ch := ch) (v := v) (v2 := v2) fresh
  obtain ⟨manifest, blocks, failed, cassette⟩ := (s.accepted ch c).readCassette_keeps v v2 (fld c.payload 48 8) (fld c.payload 56 4)
    ((s.accepted ch c).newLoad (c.payload.take 48) ch)
  rw [cassette, State.admitLoad_waits (s := s.accepted ch c) full later] at act
  exact ⟨_, Eq.trans (b := (casLoad v v2).row ch s) rfl ((casLoad v v2).row_goOn turn (decide_eq_true len) fields rfl act
    (State.keepsOrder_of rfl rfl)), executing_of_host rfl, .withCas .., rfl, _, List.mem_append_right _ (List.mem_singleton_self _), rfl, rfl, rfl⟩

end Load

/-! ### CAS_BCAST -/

section Broadcast

variable {s : State} {ch : Nat} {c : Cmd} {v v2 : HostView}

/-- The load of a broadcast, with the ranges of the command's entries. -/
def State.newBroadcast (s : State) (ch : Nat) (b : Bytes) : CasLoad :=
  { s.newLoad (b.take 48) ch with ranges := (List.range (fld b 48 2)).map fun i => bcastRange b (56 + 24 * i) s.gsc }

theorem casBcast_act (fresh : s.casKnown (c.payload.take 48) = none) : (casBcast v v2).act (s.accepted ch c) ch c.payload =
    .goOn (((s.accepted ch c).admitLoad ((s.accepted ch c).readRoots v v2 c.payload (List.range (fld c.payload 48 2))
      ((s.accepted ch c).newBroadcast ch c.payload))).pumpDigest (c.payload.take 48)) := by
  have fresh : (s.accepted ch c).casKnown (c.payload.take 48) = none := fresh
  simp only [casBcast, fresh]
  rfl

theorem State.pumpDigest_gone {s : State} {digest : Bytes} (gone : s.loadOf digest = none) : s.pumpDigest digest = s := by
  simp only [State.pumpDigest, gone]

theorem State.pumpDigest_failed {s : State} {digest : Bytes} {l : CasLoad} (load : s.loadOf digest = some l) (failed : l.phase = .failed) :
    s.pumpDigest digest = s := by
  simp only [State.pumpDigest, load, if_pos failed]

theorem State.pumpDigest_goes {s : State} {digest : Bytes} {l : CasLoad} (load : s.loadOf digest = some l) (sound : l.phase ≠ .failed) :
    s.pumpDigest digest = s.pumpLoad l := by
  simp only [State.pumpDigest, load, if_neg sound]

/-- A broadcast without a root reads nothing. -/
theorem State.readRoots_none {s : State} {b : Bytes} {ks : List Nat} (rootless : ∀ k ∈ ks, fld b (56 + 24 * k + 8) 1 ≠ 0x10) (l : CasLoad) :
    s.readRoots v v2 b ks l = l := by
  induction ks with
  | nil => rfl
  | cons k ks ih =>
    rw [State.readRoots, if_pos (rootless k List.mem_cons_self)]
    exact ih fun x mem => rootless x (List.mem_cons_of_mem _ mem)

/-- Where ranges have their own first blocks, serving them keeps where each lies. -/
theorem CasLoad.rangesServed.same {α : Type} {f : CasRange → α} {l l' : CasLoad} (h : l.rangesServed l')
    (apart : (l.ranges.map fun r => r.first).Nodup) (kept : ∀ r r' : CasRange, r.served r' → f r' = f r) :
    l'.ranges.map f = l.ranges.map f := by
  have long : l'.ranges.length = l.ranges.length := by simpa using congrArg List.length h.firsts
  refine List.ext_getElem (by simp [long]) fun k low low' => ?_
  simp only [List.length_map] at low low'
  obtain ⟨r, mem, served⟩ := h.each l'.ranges[k] (List.getElem_mem _)
  have first : l'.ranges[k].first = l.ranges[k].first := by
    have same := congrArg (fun x : List Nat => x[k]?) h.firsts
    simpa [low, low'] using same
  have own : r = l.ranges[k] := List.inj_on_of_nodup_map apart mem (List.getElem_mem _) (served.first.symm.trans first)
  rw [List.getElem_map, List.getElem_map, kept _ _ served, own]

/-- A load without a manifest takes its slot and serves its ranges. -/
theorem State.admitLoad_rootless {a : State} {x : CasLoad} {i : Nat} (free : a.freeSlot = some i) (plain : x.adapter = none)
    (sound : x.failed = none) (manifest : x.manifest = none) (host : x.host = []) : ∃ (t : State) (blocks hosted : Map Bytes) (ranges : List CasRange),
      (a.admitLoad x).pumpDigest x.digest = t ∧ a.casOnly t ∧ (t.rmSlot i).state = .loading ∧
        t.loadOf x.digest = some ((x.atSlot i).pumped blocks hosted ranges) ∧ x.rangesServed ((x.atSlot i).pumped blocks hosted ranges) := by
  obtain ⟨b, slotted⟩ : ∃ b, b = (a.listing x).slotted i x.digest := ⟨_, rfl⟩
  have shown : a.casOnly b ∧ (b.rmSlot i).state = .loading ∧ b.cas.loads = (a.listing x).cas.loads := by
    rw [slotted]
    exact ⟨(State.casOnly.withCas a _).trans (State.casOnly.withCas ..), congrArg RmSlot.state (State.rmSlot_setRmSlot ..), rfl⟩
  obtain ⟨only, slot, loads⟩ := shown
  have listed : (b.loadOf x.digest).isSome = true := by
    rw [State.loadOf_of_loads (s := a.listing x) loads]
    exact State.listing_loadOf _ plain
  have put : (b.putLoad (x.atSlot i)).loadOf x.digest = some (x.atSlot i) := State.loadOf_putLoad (l := x.atSlot i) plain listed
  have lacks : (x.atSlot i).lacks := fun _ => ⟨host, fun m there => absurd (manifest.symm.trans there) (by simp)⟩
  obtain ⟨u, blocks, hosted, ranges, serves, -, served, pumped⟩ := (b.putLoad (x.atSlot i)).pumpLoad_lacks lacks
  rw [State.admitLoad_free free, State.startLoad_sound (s := a.listing x) (i := i) free sound, ← slotted,
    State.placeLoad_none (l := x.atSlot i) manifest, State.pumpDigest_goes put (by simp [CasLoad.atSlot]), pumped,
    if_pos (show (x.atSlot i).phase = .receiving from rfl)]
  refine ⟨_, blocks, hosted, ranges, rfl, ?_, ?_, ?_, served.firsts, served.each⟩
  · exact only.trans ((State.casOnly.withCas ..).trans (serves.tocasOnly.trans (State.casOnly.withCas ..)))
  · refine (congrArg RmSlot.state (?_ : _ = b.rmSlot i)).trans slot
    exact (State.rmSlot_of_slots (s := u) (t := u.putLoad _) rfl i).trans (State.rmSlot_of_slots serves.slots i)
  · refine State.loadOf_putLoad (s := u) (l := (x.atSlot i).pumped blocks hosted ranges) plain ?_
    rw [State.loadOf_of_loads serves.loads]
    exact (congrArg Option.isSome put).trans rfl

variable (turn : s.carries ch 0x0302 c) (short : 80 ≤ c.length) (long : c.length ≤ 1592) (fields : (casBcast v v2).fields c.payload = true)
include turn short long fields

theorem casBcast_known {r : Reply} (known : s.casKnown (c.payload.take 48) = some r) : answered (.casBcast ch v v2) s ch (s.accepted ch c) r := by
  have known : (s.accepted ch c).casKnown (c.payload.take 48) = some r := known
  exact answered_kept (p := casBcast v v2) rfl turn (by simp [casBcast, short, long]) fields rfl (by simp only [casBcast, known]) rfl

variable (fresh : s.casKnown (c.payload.take 48) = none)
include fresh

theorem casBcast_exec : exec (.casBcast ch v v2) s = .next (State.answerUnknown 10
    (((s.accepted ch c).admitLoad ((s.accepted ch c).readRoots v v2 c.payload (List.range (fld c.payload 48 2))
      ((s.accepted ch c).newBroadcast ch c.payload))).pumpDigest (c.payload.take 48))) := by
  refine Eq.trans (b := (casBcast v v2).row ch s) rfl ?_
  rw [(casBcast v v2).row_eq turn (by simp [casBcast, short, long]) fields rfl, casBcast_act fresh]
  rfl

/-- A root that cannot be read: the answer, and what is left. -/
theorem casBcast_unread {i r code ix : Nat} (now : s.casNow = true) (free : s.freeSlot = some i)
    (failed : ((s.accepted ch c).readRoots v v2 c.payload (List.range (fld c.payload 48 2))
      ((s.accepted ch c).newBroadcast ch c.payload)).failed = some (r, code, ix)) : ∃ w : State,
      answered (.casBcast ch v v2) s ch w { result := Result.ofCode r, fault := code, entry := some ix } ∧
      (w.loadOf (c.payload.take 48) = none ∧ (w.rmSlot i).state = .empty ∧ ∀ k, k ≠ i → w.rmSlot k = s.rmSlot k) ∧
      (code / 256 = 8 → w.cas.faultCode = BitVec.ofNat 16 code ∧ w.cas.faultIndex = BitVec.ofNat 32 ix) := by
  have act := casBcast_act (ch := ch) (v := v) (v2 := v2) fresh
  obtain ⟨manifest, host, f, roots⟩ := (s.accepted ch c).readRoots_keeps v v2 c.payload (List.range (fld c.payload 48 2))
    ((s.accepted ch c).newBroadcast ch c.payload)
  rw [roots] at act failed
  obtain ⟨w, admitted, gone, empty, others, -, fault, -, order, chans⟩ := State.admitLoad_fails (s := s.accepted ch c) (i := i) free
    (l := { (s.accepted ch c).newBroadcast ch c.payload with manifest := manifest, host := host, failed := f }) (ch := ch) now rfl rfl failed
  have left : (w.respond ch { result := Result.ofCode r, fault := code, entry := some ix }).loadOf (c.payload.take 48) = none :=
    (State.loadOf_of_loads (congrArg Cas.loads (State.respond_cas ..)) _).trans gone
  rw [admitted, State.pumpDigest_gone left] at act
  exact ⟨w, answered_within (p := casBcast v v2) rfl turn (by simp [casBcast, short, long]) fields rfl act order chans, ⟨gone, empty, others⟩,
    fun cassette => ⟨(fault cassette).1, (fault cassette).2.1⟩⟩

/-- Without a root the load takes its slot and waits for its parents. -/
theorem casBcast_listens {i : Nat} (rootless : ∀ k, k < fld c.payload 48 2 → fld c.payload (56 + 24 * k + 8) 1 ≠ 0x10)
    (apart : (((s.accepted ch c).newBroadcast ch c.payload).ranges.map fun r => r.first).Nodup) (free : s.freeSlot = some i) :
    completes (.casBcast ch v v2) s fun t => (t.cmdOf ch).any (fun d => d.executing) = true ∧ (s.accepted ch c).casOnly t ∧
      (t.rmSlot i).state = .loading ∧ ∃ x, t.loadOf (c.payload.take 48) = some x ∧ x.phase = .receiving ∧ x.slot = i ∧ x.chan = some ch ∧
        x.ranges.map (fun r => (r.first, r.last, r.parent)) =
          ((s.accepted ch c).newBroadcast ch c.payload).ranges.map fun r => (r.first, r.last, r.parent) := by
  have act := casBcast_act (ch := ch) (v := v) (v2 := v2) fresh
  rw [State.readRoots_none fun k mem => rootless k (List.mem_range.mp mem)] at act
  obtain ⟨t, blocks, hosted, ranges, admitted, only, slot, load, served⟩ := State.admitLoad_rootless (a := s.accepted ch c)
    (x := (s.accepted ch c).newBroadcast ch c.payload) free rfl rfl rfl rfl
  have goes : (casBcast v v2).act (s.accepted ch c) ch c.payload = .goOn t := act.trans (congrArg Verdict.goOn admitted)
  have host : t.host = (s.accepted ch c).host := only.keeps (v := State.host) fun _ _ _ _ _ _ _ => rfl
  refine ⟨t, Eq.trans (b := (casBcast v v2).row ch s) rfl ((casBcast v v2).row_goOn turn (by simp [casBcast, short, long]) fields rfl goes
    (State.keepsOrder_of (congrArg HostBlk.order host) (congrArg HostBlk.chans host))), executing_of_host host, only, slot, _, load, rfl, rfl, rfl, ?_⟩
  exact CasLoad.rangesServed.same (f := fun r => (r.first, r.last, r.parent)) served apart fun r r' same => by
    rw [same.first, same.last, same.parent]

end Broadcast

/-! ### Ranges (R263 to R267, R269) -/

/-- Serving a load touches nothing that neither the answer of a command nor the resident models hold. -/
theorem Beside.pumpLoad {α : Type} {v : State → α} (beside : Beside v) (kept : ∀ (s : State) cas free ports fab ctrls chans, v { s with
    cas := cas, free := free, ports := ports, fab := fab, far := { s.far with ctrls := ctrls, chans := chans } } = v s) (s : State) (l : CasLoad) :
    v (s.pumpLoad l) = v s := by
  obtain ⟨blocks, host, ranges, serves, -, -, -⟩ := s.pumpRanges_shows l
  rw [s.pumpLoad_eq]
  split
  · exact (beside.writeCopy ..).trans (serves.tocasOnly.keeps kept)
  · exact (beside.keepLoad ..).trans (serves.tocasOnly.keeps kept)

theorem Beside.pumpDigest {α : Type} {v : State → α} (beside : Beside v) (kept : ∀ (s : State) cas free ports fab ctrls chans, v { s with
    cas := cas, free := free, ports := ports, fab := fab, far := { s.far with ctrls := ctrls, chans := chans } } = v s) (s : State) (digest : Bytes) :
    v (s.pumpDigest digest) = v s := by
  unfold State.pumpDigest
  split
  · split
    · rfl
    · exact beside.pumpLoad kept ..
  · rfl

theorem State.rangeAt_spec {s : State} {digest : Bytes} {first : Nat} {l : CasLoad} {r : CasRange}
    (range : s.rangeAt digest first = some (l, r)) :
    s.loadOf digest = some l ∧ l.ranges.find? (fun x => x.first = first) = some r ∧ l.digest = digest ∧ l.adapter = none ∧ r ∈ l.ranges ∧ r.first = first := by
  unfold State.rangeAt at range
  split at range
  · cases range
  next k load =>
    obtain ⟨x, found, eq⟩ := Option.map_eq_some_iff.mp range
    obtain ⟨rfl, rfl⟩ := Prod.mk.inj eq
    obtain ⟨digest, plain⟩ := State.loadOf_digest load
    exact ⟨load, found, digest, plain, List.mem_of_find?_eq_some found, by simpa using List.find?_some found⟩

theorem State.rangeAt_of_load {s : State} {digest : Bytes} {first : Nat} {l : CasLoad} {r : CasRange} (load : s.loadOf digest = some l)
    (range : l.ranges.find? (fun x => x.first = first) = some r) : s.rangeAt digest first = some (l, r) := by
  simp only [State.rangeAt, load, range, Option.map_some]

/-- A load whose range has been changed has it under the same first block. -/
theorem CasLoad.find_setRange {l : CasLoad} {first : Nat} {r r' : CasRange} (range : l.ranges.find? (fun x => x.first = first) = some r)
    (same : r'.first = first) : (l.setRange r').ranges.find? (fun x => x.first = first) = some r' := by
  have pred : ((fun x : CasRange => decide (x.first = first)) ∘ fun x => if x.first = r'.first then r' else x) = fun x : CasRange => decide (x.first = first) := by
    funext x
    dsimp only [Function.comp]
    split
    next own => rw [own]
    next => rfl
  have own : r.first = r'.first := by rw [same]; simpa using List.find?_some range
  rw [CasLoad.setRange, List.find?_map, pred, range, Option.map_some, if_pos own]

/-- The served load has its range under the same first block, served. -/
theorem CasLoad.rangesServed.find {l l' : CasLoad} (h : l.rangesServed l') {r : CasRange} (mem : r ∈ l.ranges)
    (only : ∀ q ∈ l.ranges, q.first = r.first → q = r) : ∃ q ∈ l'.ranges,
      l'.ranges.find? (fun x : CasRange => x.first = r.first) = some q ∧ r.served q := by
  have named : r.first ∈ l'.ranges.map CasRange.first := h.firsts ▸ List.mem_map_of_mem mem
  obtain ⟨x, listed, first⟩ := List.mem_map.mp named
  obtain ⟨q, found⟩ := Option.isSome_iff_exists.mp ((List.find?_isSome (p := fun x : CasRange => decide (x.first = r.first))).mpr
    ⟨x, listed, by simpa using first⟩)
  have there := List.mem_of_find?_eq_some found
  obtain ⟨r₀, old, served⟩ := h.each q there
  have own : q.first = r.first := by simpa using List.find?_some found
  exact ⟨q, there, found, only r₀ old (served.first.symm.trans own) ▸ served⟩

theorem CasLoad.mem_setRange_first {l : CasLoad} {r q : CasRange} (mem : q ∈ (l.setRange r).ranges) (same : q.first = r.first) : q = r := by
  rcases CasLoad.mem_setRange mem with own | ⟨-, other⟩
  · exact own
  · exact absurd same other

theorem CasLoad.mem_setRange_self {l : CasLoad} {r r' : CasRange} (mem : r ∈ l.ranges) (same : r'.first = r.first) : r' ∈ (l.setRange r').ranges :=
  List.mem_map.mpr ⟨r, mem, if_pos same.symm⟩

/-- A range one of whose children lacks blocks serves. -/
theorem CasRange.serving_of_child {r : CasRange} {k : CasChild} (mem : k ∈ r.children) (short : k.acked ≤ r.last) : r.serving = true := by
  unfold CasRange.serving
  rw [Bool.or_eq_true, List.any_eq_true]
  exact .inr ⟨k, mem, by simpa using short⟩

theorem State.keepLoad_puts {s : State} {l : CasLoad} (stays : l.phase ≠ .sharing ∨ ∃ r ∈ l.ranges, r.serving = true) :
    s.keepLoad l = s.putLoad l := by
  refine if_neg fun ends => ?_
  rw [Bool.and_eq_true] at ends
  obtain ⟨sharing, none⟩ := ends
  rcases stays with other | ⟨r, mem, serves⟩
  · exact other (by simpa using sharing)
  · rw [List.any_eq_true.mpr ⟨r, mem, serves⟩] at none
    cases none

/-- A load with one range changed, that lacks blocks, once it is served: the module, and the range as it then stands. -/
theorem State.pumpLoad_setRange {s : State} {digest : Bytes} {l : CasLoad} {r r' : CasRange} (load : (s.loadOf digest).isSome = true)
    (named : l.digest = digest) (plain : l.adapter = none) (mem : r ∈ l.ranges) {first : Nat} (own : r.first = first) (same : r'.first = r.first) (lacks : l.lacks) :
    s.casOnly (s.pumpLoad (l.setRange r')) ∧ (s.pumpLoad (l.setRange r')).cas.slots = s.cas.slots ∧
      ((s.pumpLoad (l.setRange r')).loadOf digest = none ∧ l.phase = .sharing ∧ (∀ k ∈ r'.children, r'.last < k.acked) ∨
        ∃ x q, (s.pumpLoad (l.setRange r')).rangeAt digest first = some (x, q) ∧ r'.served q) := by
  subst own
  have lacks' : (l.setRange r').lacks := lacks
  obtain ⟨u, blocks, host, ranges, serves, -, served, eq⟩ := s.pumpLoad_lacks lacks'
  obtain ⟨x, pumped⟩ : ∃ x, x = (l.setRange r').pumped blocks host ranges := ⟨_, rfl⟩
  have shown : x.digest = digest ∧ x.adapter = none ∧ x.phase = l.phase := by
    rw [pumped]
    exact ⟨named, plain, rfl⟩
  obtain ⟨own, plain', phase⟩ := shown
  rw [← pumped] at served eq
  obtain ⟨q, listed, found, changed⟩ := served.find (CasLoad.mem_setRange_self mem same) fun q mem first => CasLoad.mem_setRange_first mem first
  rw [same] at found
  have there : (u.loadOf x.digest).isSome = true := by
    rw [own, State.loadOf_of_loads serves.loads]
    exact load
  have stays : ∃ y z, (u.putLoad x).rangeAt digest r.first = some (y, z) ∧ r'.served z :=
    ⟨x, q, State.rangeAt_of_load (own ▸ State.loadOf_putLoad plain' there) found, changed⟩
  have only : s.casOnly (u.putLoad x) := serves.tocasOnly.trans (State.casOnly.withCas ..)
  by_cases keeps : s.pumpLoad (l.setRange r') = u.putLoad x
  · rw [keeps]
    exact ⟨only, serves.slots, .inr stays⟩
  have ends : (l.setRange r').phase ≠ .receiving := fun receiving => keeps (eq.trans (if_pos receiving))
  rw [if_neg ends] at eq
  have sharing : ¬(x.phase ≠ .sharing ∨ ∃ r ∈ x.ranges, r.serving = true) := fun stays => keeps (eq.trans (State.keepLoad_puts stays))
  obtain ⟨sharing, idle⟩ := not_or.mp sharing
  have dropped : u.keepLoad x = u.dropLoad x := by
    refine if_pos ?_
    rw [Bool.and_eq_true, Bool.not_eq_true']
    exact ⟨decide_eq_true (not_not.mp sharing), Bool.eq_false_iff.mpr fun any => idle (by simpa using any)⟩
  rw [eq, dropped]
  refine ⟨serves.tocasOnly.trans (State.casOnly.withCas ..), serves.slots, .inl ⟨own ▸ State.loadOf_dropLoad plain' u, phase.symm.trans (not_not.mp sharing),
    fun k child => Nat.lt_of_not_le fun short => ?_⟩⟩
  obtain ⟨k', child', -, -, acked⟩ := changed.children k child
  exact idle ⟨q, listed, CasRange.serving_of_child child' (by rw [acked, changed.last]; exact short)⟩

/-- A range whose window is kept for a lost child no longer, and its load served. -/
theorem State.freeRetained {s : State} {digest : Bytes} {first : Nat} {l : CasLoad} {r : CasRange} (range : s.rangeAt digest first = some (l, r))
    (lacks : l.lacks) : let t := (s.putLoad (l.setRange { r with retain := none })).pumpDigest l.digest
    s.casOnly t ∧ t.cas.slots = s.cas.slots ∧ (∀ x r', t.rangeAt digest first = some (x, r') → r'.retain = none) ∧
      (l.phase ≠ .sharing → (t.rangeAt digest first).isSome = true) := by
  obtain ⟨load, found, named, plain, mem, own⟩ := State.rangeAt_spec range
  obtain ⟨y, put⟩ : ∃ y, y = s.putLoad (l.setRange { r with retain := none }) := ⟨_, rfl⟩
  have listed : (s.loadOf l.digest).isSome = true := by rw [named, load]; rfl
  have there : y.loadOf l.digest = some (l.setRange { r with retain := none }) := by
    rw [put]
    exact State.loadOf_putLoad (l := l.setRange { r with retain := none }) plain (listed : (s.loadOf l.digest).isSome = true)
  have only : s.casOnly y ∧ y.cas.slots = s.cas.slots := by
    rw [put]
    exact ⟨.withCas .., rfl⟩
  dsimp only
  rw [← put]
  by_cases failed : l.phase = .failed
  · rw [State.pumpDigest_failed there failed]
    have now : y.rangeAt digest first = some (l.setRange { r with retain := none }, { r with retain := none }) :=
      State.rangeAt_of_load (named ▸ there) (CasLoad.find_setRange found own)
    refine ⟨only.1, only.2, fun x r' stands => ?_, fun _ => by rw [now]; rfl⟩
    rw [now] at stands
    cases stands
    rfl
  rw [State.pumpDigest_goes there failed]
  obtain ⟨served, slots, shown⟩ := State.pumpLoad_setRange (s := y) (digest := digest) (l := l) (r := r) (r' := { r with retain := none })
    (by rw [← named, there]; rfl) named plain mem own rfl lacks
  refine ⟨only.1.trans served, slots.trans only.2, fun x r' stands => ?_, fun apart => ?_⟩
  · rcases shown with ⟨gone, -, -⟩ | ⟨z, q, stays, kept⟩
    · simp only [State.rangeAt, gone] at stands
      cases stands
    · cases stays.symm.trans stands
      exact kept.retain
  · rcases shown with ⟨-, sharing, -⟩ | ⟨z, q, stays, -⟩
    · exact absurd sharing apart
    · rw [stays]
      rfl

/-- A command on a range: its row, and what it does with the range that it names. -/
structure State.asksRange (s : State) (ch : Nat) (c : Cmd) (i : Instr) (p : CmdSpec) (f : CasLoad → CasRange → Verdict) : Prop where
  row : exec i s = p.row ch s
  turn : s.carries ch p.op c
  len : p.len c.length = true
  fields : p.fields c.payload = true
  allowed : p.allowed { s with host := { s.host with order := s.host.order.drop 1 } } = true
  act : p.act (s.accepted ch c) ch c.payload = onRange (s.accepted ch c) c.payload f

namespace State.asksRange

variable {s : State} {ch : Nat} {c : Cmd} {i : Instr} {p : CmdSpec} {f : CasLoad → CasRange → Verdict} (h : s.asksRange ch c i p f)
include h

theorem missing (gone : s.rangeAt (c.payload.take 48) (fld c.payload 48 4) = none) : answered i s ch (s.accepted ch c) (.of .range) := by
  have gone : (s.accepted ch c).rangeAt (c.payload.take 48) (fld c.payload 48 4) = none := gone
  exact answered_kept h.row h.turn h.len h.fields h.allowed (by rw [h.act]; simp only [onRange, gone]) rfl

/-- The command does what is asked of the range, and leaves the host block to its answer. -/
theorem found {l : CasLoad} {r : CasRange} {t : State} {q : Reply} (range : s.rangeAt (c.payload.take 48) (fld c.payload 48 4) = some (l, r))
    (does : f l r = .done t q) (kept : t.host = (s.accepted ch c).host) : answered i s ch t q := by
  have range : (s.accepted ch c).rangeAt (c.payload.take 48) (fld c.payload 48 4) = some (l, r) := range
  exact answered_kept h.row h.turn h.len h.fields h.allowed (by rw [h.act]; simp only [onRange, range, does]) kept

/-- Whatever it finds, jobs, cores, stores, owner and time are as before. -/
theorem leaves (each : ∀ l r, ∃ t q, f l r = .done t q ∧ (t.job, t.cores, t.ss, t.sec, t.gsc) = (s.job, s.cores, s.ss, s.sec, s.gsc)) :
    completes i s fun t => t.job = s.job ∧ t.cores = s.cores ∧ t.ss = s.ss ∧ t.sec = s.sec ∧ t.gsc = s.gsc := by
  have done : ∃ t q, p.act (s.accepted ch c) ch c.payload = .done t q ∧
      (t.job, t.cores, t.ss, t.sec, t.gsc) = (s.job, s.cores, s.ss, s.sec, s.gsc) := by
    rw [h.act, onRange]
    split
    · exact ⟨_, _, rfl, rfl⟩
    next l r _ => exact each l r
  obtain ⟨t, q, act, kept⟩ := done
  have row := h.row.trans (p.row_eq h.turn h.len h.fields h.allowed)
  rw [act] at row
  obtain ⟨job, kept⟩ := Prod.mk.inj kept
  obtain ⟨cores, kept⟩ := Prod.mk.inj kept
  obtain ⟨ss, kept⟩ := Prod.mk.inj kept
  obtain ⟨sec, gsc⟩ := Prod.mk.inj kept
  refine ⟨_, row, ?_, ?_, ?_, ?_, ?_⟩ <;> simp [Verdict.state, job, cores, ss, sec, gsc]

end State.asksRange

section Children

variable {s : State} {ch : Nat} {c : Cmd}

/-- The child that CAS_CHILD names. -/
def State.newChild (s : State) (b : Bytes) : CasChild :=
  { port := fld b 52 1, start := fld b 56 4, acked := fld b 56 4, next := fld b 56 4, since := s.gsc, manifest := false }

/-- A range with a child in place of the one at its port. -/
def CasRange.withChild (r : CasRange) (k : CasChild) : CasRange := { r with children := (r.children.filter fun x => x.port ≠ k.port) ++ [k] }

/-- What CAS_CHILD, CAS_PARENT and CAS_RELEASE do with the range. -/
def State.addChild (s : State) (b : Bytes) (l : CasLoad) (r : CasRange) : Verdict :=
  if !l.holds r (fld b 56 4) then .done s (.of .range) else .done (s.pumpLoad (l.setRange (r.withChild (s.newChild b)))) .ok

def State.addParent (s : State) (b : Bytes) (l : CasLoad) (r : CasRange) : Verdict :=
  .done (s.putLoad (l.setRange { r with parent := some (fld b 52 1), parentLost := false, lastRx := s.gsc })) .ok

def State.addRelease (s : State) (l : CasLoad) (r : CasRange) : Verdict :=
  .done ((s.putLoad (l.setRange { r with retain := none })).pumpDigest l.digest) .ok

theorem casChild_asks (turn : s.carries ch 0x0303 c) (len : c.length = 60) (port : fld c.payload 52 1 ≤ 15)
    (zero : zeroAt c.payload 53 3 = true) : s.asksRange ch c (.casChild ch) casChild ((s.accepted ch c).addChild c.payload) :=
  ⟨rfl, turn, decide_eq_true len, by simp [casChild, port, zero], rfl, rfl⟩

theorem casParent_asks (turn : s.carries ch 0x0304 c) (len : c.length = 53) (port : fld c.payload 52 1 ≤ 15) :
    s.asksRange ch c (.casParent ch) casParent ((s.accepted ch c).addParent c.payload) :=
  ⟨rfl, turn, decide_eq_true len, decide_eq_true port, rfl, rfl⟩

theorem casRelease_asks (turn : s.carries ch 0x0305 c) (len : c.length = 52) :
    s.asksRange ch c (.casRelease ch) casRelease (s.accepted ch c).addRelease :=
  ⟨rfl, turn, decide_eq_true len, rfl, rfl, rfl⟩

theorem jobsAndTime_beside : Beside fun t : State => (t.job, t.cores, t.ss, t.sec, t.gsc) := ⟨⟨fun _ _ _ => rfl⟩, fun _ _ _ => rfl⟩

theorem addChild_leaves (b : Bytes) (l : CasLoad) (r : CasRange) : ∃ t q, s.addChild b l r = .done t q ∧
    (t.job, t.cores, t.ss, t.sec, t.gsc) = (s.job, s.cores, s.ss, s.sec, s.gsc) := by
  unfold State.addChild
  split
  · exact ⟨_, _, rfl, rfl⟩
  · exact ⟨_, _, rfl, jobsAndTime_beside.pumpLoad (fun _ _ _ _ _ _ _ => rfl) ..⟩

theorem addRelease_leaves (l : CasLoad) (r : CasRange) : ∃ t q, s.addRelease l r = .done t q ∧
    (t.job, t.cores, t.ss, t.sec, t.gsc) = (s.job, s.cores, s.ss, s.sec, s.gsc) :=
  ⟨_, _, rfl, (jobsAndTime_beside.pumpDigest (fun _ _ _ _ _ _ _ => rfl) ..).trans (jobsAndTime_beside.putLoad ..)⟩

theorem CasLoad.holds_last {l : CasLoad} {r : CasRange} {n : Nat} (held : l.holds r n = true) : n ≤ r.last := by
  unfold CasLoad.holds at held
  simp only [Bool.and_eq_true, decide_eq_true_eq] at held
  obtain ⟨⟨⟨-, low⟩, -⟩, -⟩ := held
  exact low

variable {l : CasLoad} {r : CasRange} (range : s.rangeAt (c.payload.take 48) (fld c.payload 48 4) = some (l, r))
include range

/-- A child is added to its range. -/
theorem casChild_adds (asks : s.asksRange ch c (.casChild ch) casChild ((s.accepted ch c).addChild c.payload))
    (held : l.holds r (fld c.payload 56 4) = true) (lacks : l.lacks) : ∃ t, answered (.casChild ch) s ch t .ok ∧ (s.accepted ch c).casOnly t ∧
      ∃ x r', t.rangeAt (c.payload.take 48) (fld c.payload 48 4) = some (x, r') ∧ ∃ k ∈ r'.children,
        k.port = fld c.payload 52 1 ∧ k.start = fld c.payload 56 4 ∧ k.acked = fld c.payload 56 4 := by
  have range' : (s.accepted ch c).rangeAt (c.payload.take 48) (fld c.payload 48 4) = some (l, r) := range
  obtain ⟨load, -, named, plain, mem, first⟩ := State.rangeAt_spec range'
  have does : (s.accepted ch c).addChild c.payload l r =
      .done ((s.accepted ch c).pumpLoad (l.setRange (r.withChild ((s.accepted ch c).newChild c.payload)))) .ok := if_neg (by rw [held]; decide)
  have child : (s.accepted ch c).newChild c.payload ∈ (r.withChild ((s.accepted ch c).newChild c.payload)).children :=
    List.mem_append_right _ (List.mem_singleton_self _)
  obtain ⟨only, -, shown⟩ := State.pumpLoad_setRange (s := s.accepted ch c) (digest := c.payload.take 48) (r := r)
    (r' := r.withChild ((s.accepted ch c).newChild c.payload)) (by rw [load]; rfl) named plain mem first rfl lacks
  refine ⟨_, asks.found range does (only.keeps (v := State.host) fun _ _ _ _ _ _ _ => rfl), only, ?_⟩
  rcases shown with ⟨-, -, past⟩ | ⟨x, q, there, served⟩
  · exact absurd (past _ child) (Nat.not_lt.mpr (CasLoad.holds_last held : _ ≤ r.last))
  · obtain ⟨k, listed, port, start, acked⟩ := served.children _ child
    exact ⟨x, q, there, k, listed, port, start, acked⟩

/-- A range takes another parent. -/
theorem casParent_sets (asks : s.asksRange ch c (.casParent ch) casParent ((s.accepted ch c).addParent c.payload)) :
    ∃ t, answered (.casParent ch) s ch t .ok ∧ (s.accepted ch c).casOnly t ∧ t.cas.slots = s.cas.slots ∧
      ∃ x, t.rangeAt (c.payload.take 48) (fld c.payload 48 4) =
        some (x, { r with parent := some (fld c.payload 52 1), parentLost := false, lastRx := s.gsc }) := by
  have range' : (s.accepted ch c).rangeAt (c.payload.take 48) (fld c.payload 48 4) = some (l, r) := range
  obtain ⟨load, found, named, plain, mem, first⟩ := State.rangeAt_spec range'
  refine ⟨_, asks.found range rfl rfl, .withCas .., rfl, _, State.rangeAt_of_load ?_ (CasLoad.find_setRange found first)⟩
  have there : ((s.accepted ch c).loadOf l.digest).isSome = true := by rw [named, load]; rfl
  exact named ▸ State.loadOf_putLoad (l := l.setRange { r with parent := some (fld c.payload 52 1), parentLost := false, lastRx := s.gsc }) plain there

/-- A range keeps its window for a lost child no longer. -/
theorem casRelease_frees (asks : s.asksRange ch c (.casRelease ch) casRelease (s.accepted ch c).addRelease) (lacks : l.lacks) :
    ∃ t, answered (.casRelease ch) s ch t .ok ∧ (s.accepted ch c).casOnly t ∧ t.cas.slots = s.cas.slots ∧
      (∀ x r', t.rangeAt (c.payload.take 48) (fld c.payload 48 4) = some (x, r') → r'.retain = none) ∧
      (l.phase ≠ .sharing → (t.rangeAt (c.payload.take 48) (fld c.payload 48 4)).isSome = true) := by
  have range' : (s.accepted ch c).rangeAt (c.payload.take 48) (fld c.payload 48 4) = some (l, r) := range
  obtain ⟨only, slots, gone⟩ := State.freeRetained range' lacks
  exact ⟨_, asks.found range rfl (only.keeps (v := State.host) fun _ _ _ _ _ _ _ => rfl), only, slots, gone⟩

end Children

/-! ### CAS_ABORT and CAS_UNLOAD (R257, R259, R431) -/

section Ends

variable {s : State} {ch : Nat} {c : Cmd}

theorem CasLoad.loading_of_phase {l : CasLoad} (plain : l.adapter = none) (apart : l.phase ≠ .sharing) : l.loading = true := by
  unfold CasLoad.loading
  rw [plain, Option.isNone_none, Bool.true_and]
  exact decide_eq_true apart

theorem casAbort_none (turn : s.carries ch 0x0306 c) (len : c.length = 48)
    (gone : s.loadOf c.payload = none ∨ ∃ l, s.loadOf c.payload = some l ∧ l.phase = .sharing) :
    answered (.casAbort ch) s ch (s.accepted ch c) (.of .range) := by
  refine answered_kept (p := casAbort) rfl turn (decide_eq_true len) rfl rfl ?_ rfl
  rcases gone with gone | ⟨l, load, sharing⟩
  · have gone : (s.accepted ch c).loadOf c.payload = none := gone
    simp only [casAbort, gone]
  · have load : (s.accepted ch c).loadOf c.payload = some l := load
    simp [casAbort, load, CasLoad.loading, sharing]

/-- A load under way fails, and everyone who waits for it is answered. -/
theorem casAbort_ends (turn : s.carries ch 0x0306 c) (len : c.length = 48) {l : CasLoad} (load : s.loadOf c.payload = some l)
    (apart : l.phase ≠ .sharing) : answeredAll (.casAbort ch) s ch ((s.accepted ch c).failLoad l .state 0x080A casNone) .ok := by
  refine Eq.trans (b := casAbort.row ch s) rfl ?_
  rw [casAbort.row_eq turn (decide_eq_true len) rfl rfl]
  have load' : (s.accepted ch c).loadOf c.payload = some l := load
  have act : casAbort.act (s.accepted ch c) ch c.payload = .done ((s.accepted ch c).failLoad l .state 0x080A casNone) .ok := by
    simp only [casAbort, load', CasLoad.loading_of_phase (State.loadOf_digest load).2 apart]
    exact if_neg (by decide)
  rw [act]
  exact rfl

variable (turn : s.carries ch 0x0307 c) (len : c.length = 1)
include turn len

theorem casUnload_refused (kept : (s.rmSlot (fld c.payload 0 1)).state ≠ .resident ∨ (s.rmSlot (fld c.payload 0 1)).pinned = true) :
    answered (.casUnload ch) s ch (s.accepted ch c) (.of .state) := by
  refine answered_kept (p := casUnload) rfl turn (decide_eq_true len) rfl rfl (if_pos ?_) rfl
  rw [Bool.or_eq_true]
  exact kept.imp decide_eq_true id

variable (resident : (s.rmSlot (fld c.payload 0 1)).state = .resident) (free : (s.rmSlot (fld c.payload 0 1)).pinned = false)
include resident free

omit turn len in
theorem casUnload_act : casUnload.act (s.accepted ch c) ch c.payload = if (s.accepted ch c).casNow then
      .done ((s.accepted ch c).emptySlot (fld c.payload 0 1)) .ok
    else .goOn ((s.accepted ch c).withCas { s.cas with unloads := s.cas.unloads ++ [(fld c.payload 0 1, ch)] }) := by
  refine if_neg ?_
  rw [Bool.or_eq_true, not_or]
  exact ⟨fun other => of_decide_eq_true other resident, fun pinned => Bool.false_ne_true (free.symm.trans pinned)⟩

theorem casUnload_empties (now : s.casNow = true) : ∃ t, answered (.casUnload ch) s ch t .ok ∧ (s.accepted ch c).casOnly t ∧
    t.rmSlot (fld c.payload 0 1) = .init ∧ ∀ k, k ≠ fld c.payload 0 1 → t.rmSlot k = s.rmSlot k :=
  ⟨_, answered_kept (p := casUnload) rfl turn (decide_eq_true len) rfl rfl ((casUnload_act resident free).trans (if_pos now)) rfl, .withCas ..,
    State.rmSlot_emptySlot .., fun _ other => State.rmSlot_emptySlot_other _ other⟩

theorem casUnload_waits (later : s.casNow = false) : completes (.casUnload ch) s fun t => (t.cmdOf ch).any (fun d => d.executing) = true ∧
    (s.accepted ch c).casOnly t ∧ t.cas.unloads = s.cas.unloads ++ [(fld c.payload 0 1, ch)] ∧ t.cas.slots = s.cas.slots := by
  have act := (casUnload_act resident free (ch := ch)).trans (if_neg fun now => Bool.false_ne_true (later.symm.trans now))
  exact ⟨_, Eq.trans (b := casUnload.row ch s) rfl (casUnload.row_goOn turn (decide_eq_true len) rfl rfl act (State.keepsOrder_of rfl rfl)),
    executing_of_host rfl, .withCas .., rfl, rfl⟩

end Ends

/-! ### All the commands -/

/-- Settles O34: a load is answered by what reading its cassette gives, and takes the lowest EMPTY slot; the commands of a broadcast and
of a load that ends change the range or slot they name. -/
theorem cassetteCommands : Obligations.CassetteCommands := by
  intro s ch c v v2
  refine ⟨fun turn len fields => ⟨fun r known => casLoad_known turn len fields known, fun i fresh now free unread => ?_,
      fun l i fresh free scatter => ⟨fun f now bad => ?_, fun m n now manifest read => ?_, fun m bs copy base manifest read built fits =>
        casLoad_writes turn len fields fresh free scatter manifest read built fits⟩,
      fun fresh later full => ?_⟩,
    fun turn short long fields => ⟨fun r known => casBcast_known turn short long fields known,
      fun i r code ix fresh now free failed => casBcast_unread turn short long fields fresh now free failed,
      fun fresh => casBcast_exec turn short long fields fresh, fun i fresh rootless apart free => ?_⟩,
    fun i which => ?_,
    fun turn len => ⟨casAbort_none turn len, fun l load apart => ⟨casAbort_ends turn len load apart, ?_⟩⟩,
    fun turn len => ⟨casUnload_refused turn len, fun resident free now => ?_, fun resident free later => ?_⟩⟩
  · obtain ⟨w, told, gone, -, -, calm⟩ := casLoad_unread (f := dmaFail) turn len fields fresh free now (by
      have unread : v.scatter (fld c.payload 48 8) (fld c.payload 56 4) = none := unread
      simp only [State.readCassette, unread])
    exact ⟨w, told, gone, calm (by decide)⟩
  · have code := State.readManifest_code bad
    obtain ⟨w, told, gone, only, fault, -⟩ := casLoad_unread (f := f) turn len fields fresh free now (by
      have bad : (s.accepted ch c).readManifest v l ((s.accepted ch c).newLoad (c.payload.take 48) ch).digest id = .bad f := bad
      simp only [State.readCassette, scatter, bad])
    obtain ⟨rest, fab⟩ := only (by omega)
    exact ⟨w, told, ⟨rest, fab⟩, gone, fault code⟩
  · obtain ⟨w, told, gone, only, fault, -⟩ := casLoad_unread (f := ⟨0x0804, n⟩) turn len fields fresh free now (by
      have manifest : (s.accepted ch c).readManifest v l ((s.accepted ch c).newLoad (c.payload.take 48) ch).digest id = .ok m := manifest
      simp only [State.readCassette, scatter, manifest, read])
    obtain ⟨rest, fab⟩ := only (show 0x0804 ≠ 0x0C05 by decide)
    exact ⟨w, told, ⟨rest, fab⟩, gone, fault (show 0x0804 / 256 = 8 by decide)⟩
  · obtain ⟨t, row, executing, ⟨rest, fab⟩, shown⟩ := casLoad_waits turn len fields fresh later full
    exact ⟨t, row, executing, ⟨rest, fab⟩, shown⟩
  · obtain ⟨t, row, executing, ⟨rest, fab⟩, shown⟩ := casBcast_listens turn short long fields fresh rootless apart free
    exact ⟨t, row, executing, ⟨rest, fab⟩, shown⟩
  · rcases which with ⟨rfl, turn, len, port, zero⟩ | ⟨rfl, turn, len, port⟩ | ⟨rfl, turn, len⟩
    · have asks := casChild_asks turn len port zero
      refine ⟨asks.missing, asks.leaves fun l r => addChild_leaves (s := s.accepted ch c) c.payload l r, fun l r range =>
        ⟨fun _ lost => asks.found range (if_pos (by rw [lost]; rfl)) rfl, fun _ held lacks => ?_, nofun, nofun⟩⟩
      obtain ⟨t, told, ⟨rest, fab⟩, shown⟩ := casChild_adds range asks held lacks
      exact ⟨t, told, ⟨rest, fab⟩, shown⟩
    · have asks := casParent_asks turn len port
      refine ⟨asks.missing, asks.leaves fun l r => ⟨_, _, rfl, rfl⟩, fun l r range => ⟨nofun, nofun, fun _ => ?_, nofun⟩⟩
      obtain ⟨t, told, ⟨rest, fab⟩, shown⟩ := casParent_sets range asks
      exact ⟨t, told, ⟨rest, fab⟩, shown⟩
    · have asks := casRelease_asks turn len
      refine ⟨asks.missing, asks.leaves fun l r => addRelease_leaves (s := s.accepted ch c) l r, fun l r range =>
        ⟨nofun, nofun, nofun, fun _ lacks => ?_⟩⟩
      obtain ⟨t, told, ⟨rest, fab⟩, shown⟩ := casRelease_frees range asks lacks
      exact ⟨t, told, ⟨rest, fab⟩, shown⟩
  · obtain ⟨named, plain⟩ := State.loadOf_digest load
    have there : ((s.accepted ch c).loadOf l.digest).isSome = true := (congrArg Option.isSome ((congrArg s.loadOf named).trans load)).trans rfl
    obtain ⟨code, -, valid, -, now, later⟩ := State.failLoad_shows (s := s.accepted ch c) (l := l) (code := 0x080A) .state casNone plain there (by decide)
    rw [named] at now later
    exact ⟨code, valid, fun calm => ⟨(now calm).1, (now calm).2.1⟩, later⟩
  · obtain ⟨t, told, ⟨rest, fab⟩, shown⟩ := casUnload_empties turn len resident free now
    exact ⟨t, told, ⟨rest, fab⟩, shown⟩
  · obtain ⟨t, row, executing, ⟨rest, fab⟩, shown⟩ := casUnload_waits turn len resident free later
    exact ⟨t, row, executing, ⟨rest, fab⟩, shown⟩

end Sys2Proof.Machine

/-! PROOF. Manifests, blocks, acknowledgements and timers of a load (R255, R257, R263 to R268, R270). -/
namespace Sys2Proof.Machine

/-! ### A load that fails at an event (R270) -/

/-- What a cassette failure of an event leaves: the fault recorded, the job and the far memory alone, and the slot EMPTY, at once or at the
boundary. -/
structure State.failsAs (s t : State) (digest : Bytes) (l : CasLoad) (code : W16) (ix : Nat) : Prop where
  faultCode : t.cas.faultCode = code
  faultIndex : t.cas.faultIndex = BitVec.ofNat 32 ix
  faultValid : t.cas.faultValid = true
  job : t.job = s.job
  far : t.far = s.far
  now : s.casNow = true → t.loadOf digest = none ∧ (t.rmSlot l.slot).state = .empty
  later : s.casNow = false → ∃ y, t.loadOf digest = some y ∧ y.phase = .failed

theorem job_beside : Beside State.job := ⟨⟨fun _ _ _ => rfl⟩, fun _ _ _ => rfl⟩

theorem State.failLoad_failsAs {s : State} {digest : Bytes} {l : CasLoad} (named : l.digest = digest) (plain : l.adapter = none)
    (there : (s.loadOf l.digest).isSome = true) (r : Result) {code : Nat} (ix : Nat) (cassette : code / 256 = 8) :
    s.failsAs (s.failLoad l r code ix) digest l (BitVec.ofNat 16 code) ix := by
  obtain ⟨faultCode, index, valid, -, now, later⟩ := State.failLoad_shows (s := s) (l := l) (code := code) r ix plain there cassette
  rw [named] at now later
  exact ⟨faultCode, index, valid, job_beside.failLoad .., (State.failLoad_far ..).1, fun calm => ⟨(now calm).1, (now calm).2.1⟩, later⟩

/-- The same after the load has been written back with other ranges. -/
theorem State.failsAs.of_putLoad {s t : State} {digest : Bytes} {l x y : CasLoad} {code : W16} {ix : Nat}
    (h : (s.putLoad x).failsAs t digest y code ix) (slot : y.slot = l.slot) : s.failsAs t digest l code ix :=
  ⟨h.faultCode, h.faultIndex, h.faultValid, h.job, h.far, slot ▸ h.now, h.later⟩

/-- A load that is written back in its place, and the one its digest names. -/
theorem State.loadOf_putLoad_of {s : State} {digest : Bytes} {l x : CasLoad} (load : s.loadOf digest = some l) (digests : x.digest = l.digest)
    (adapters : x.adapter = l.adapter) : (s.putLoad x).loadOf digest = some x := by
  obtain ⟨named, plain⟩ := State.loadOf_digest load
  have own : x.digest = digest := digests.trans named
  have there : (s.loadOf x.digest).isSome = true := by rw [own, load]; rfl
  exact own ▸ State.loadOf_putLoad (adapters.trans plain) there

/-! ### CASSETTE_MANIFEST (R263) -/

section ManifestArrives

variable {s : State} {digest : Bytes} {p first : Nat} {x : Bytes} {l : CasLoad} {r : CasRange}
  (range : s.rangeAt digest first = some (l, r)) (parent : r.parent = some p) (sound : l.phase ≠ .failed) (fresh : l.manifest = none)

/-- The load whose parent has sent. -/
def CasLoad.heard (l : CasLoad) (r : CasRange) (gsc : Nat) : CasLoad := l.setRange { r with lastRx := gsc }

/-- The checks of a manifest that has come. -/
def CasLoad.checked (l : CasLoad) (digest x : Bytes) : Sum Manifest CasFail :=
  if x.length < 256 then .inr ⟨0x0801, casNone⟩ else checkManifest x digest l.sigDemanded l.keys

/-- What a manifest that has come leads to. -/
def State.manifestCame (s : State) (digest : Bytes) (l : CasLoad) : Sum Manifest CasFail → State
  | .inr f => (s.putLoad l).failLoad l (casResultOf f.code) f.code f.index
  | .inl m => (if l.phase = .needSlot then s.putLoad { l with manifest := some m } else s.placeLoad { l with manifest := some m }).pumpDigest digest

include range parent sound fresh in
theorem cassetteManifest_exec : exec (.cassetteManifest p digest first x) s =
    .next (s.manifestCame digest (l.heard r s.gsc) ((l.heard r s.gsc).checked digest x)) := by
  refine Eq.trans (b := execCassetteManifest p digest first x s) rfl ?_
  have fresh' : (l.setRange { r with lastRx := s.gsc }).manifest.isSome = false :=
    (congrArg Option.isSome fresh :)
  have go : ¬(r.parent ≠ some p ∨ l.phase = .failed) := not_or.mpr ⟨not_not.mpr parent, sound⟩
  simp only [execCassetteManifest, range, CasLoad.heard]
  rw [if_neg (by simpa using go), if_neg (by rw [fresh']; decide)]
  unfold CasLoad.checked
  cases (if x.length < 256 then .inr ⟨0x0801, casNone⟩
    else checkManifest x digest (l.setRange { r with lastRx := s.gsc }).sigDemanded (l.setRange { r with lastRx := s.gsc }).keys :
      Sum Manifest CasFail) <;> exact rfl

include range parent sound fresh in
/-- One that fails its checks ends the load. -/
theorem cassetteManifest_bad {f : CasFail} (bad : (l.heard r s.gsc).checked digest x = .inr f) (cassette : f.code / 256 = 8) :
    completes (.cassetteManifest p digest first x) s fun t => s.failsAs t digest l (BitVec.ofNat 16 f.code) f.index := by
  have row := cassetteManifest_exec (x := x) range parent sound fresh
  rw [bad] at row
  obtain ⟨load, -, named, plain, -, -⟩ := State.rangeAt_spec range
  have put : (s.putLoad (l.heard r s.gsc)).loadOf digest = some (l.heard r s.gsc) := State.loadOf_putLoad_of load rfl rfl
  have there : ((s.putLoad (l.heard r s.gsc)).loadOf (l.heard r s.gsc).digest).isSome = true := by
    rw [show (l.heard r s.gsc).digest = digest from named, put]
    rfl
  exact ⟨_, row, (State.failLoad_failsAs (s := s.putLoad (l.heard r s.gsc)) (l := l.heard r s.gsc) named plain there
    (casResultOf f.code) f.index cassette).of_putLoad rfl⟩

/-- The load with its manifest. -/
def CasLoad.withManifest (l : CasLoad) (m : Manifest) : CasLoad := { l with manifest := some m }

include range parent sound fresh in
/-- One that passes is kept while the load waits for its slot. -/
theorem cassetteManifest_waits {m : Manifest} (good : (l.heard r s.gsc).checked digest x = .inl m) (waits : l.phase = .needSlot) :
    completes (.cassetteManifest p digest first x) s fun t => s.casOnly t ∧ t.cas.slots = s.cas.slots ∧
      ∃ y, t.loadOf digest = some y ∧ y.manifest = some m := by
  have row := cassetteManifest_exec (x := x) range parent sound fresh
  rw [good] at row
  obtain ⟨load, -, named, plain, -, -⟩ := State.rangeAt_spec range
  obtain ⟨k, kept⟩ : ∃ k, k = (l.heard r s.gsc).withManifest m := ⟨_, rfl⟩
  have shown : k.digest = l.digest ∧ k.adapter = l.adapter ∧ k.phase = .needSlot ∧ k.manifest = some m := by
    rw [kept]
    exact ⟨rfl, rfl, waits, rfl⟩
  obtain ⟨digests, adapters, phase, manifest⟩ := shown
  have put : (s.putLoad k).loadOf digest = some k := State.loadOf_putLoad_of load digests adapters
  have came : s.manifestCame digest (l.heard r s.gsc) (.inl m) = (s.putLoad k).pumpLoad k := by
    rw [State.manifestCame, if_pos (show (l.heard r s.gsc).phase = .needSlot from waits),
      show ({ l.heard r s.gsc with manifest := some m } : CasLoad) = k from kept.symm, State.pumpDigest_goes put (by rw [phase]; decide)]
  obtain ⟨u, blocks, host, ranges, serves, -, -, pumped⟩ := (s.putLoad k).pumpLoad_lacks (l := k) fun receiving => by
    rw [phase] at receiving
    cases receiving
  rw [if_neg (by rw [phase]; decide), State.keepLoad_puts (.inl (show (k.pumped blocks host ranges).phase ≠ .sharing by
    rw [show (k.pumped blocks host ranges).phase = .needSlot from phase]; decide))] at pumped
  have there : u.loadOf digest = some k := (State.loadOf_of_loads serves.loads _).trans put
  refine ⟨_, row, ?_⟩
  rw [came, pumped]
  exact ⟨(State.casOnly.withCas ..).trans (serves.tocasOnly.trans (State.casOnly.withCas ..)), serves.slots, _,
    State.loadOf_putLoad_of (x := k.pumped blocks host ranges) there rfl rfl, manifest⟩

include range parent sound fresh in
/-- Or its copy is placed, and the load goes on receiving. -/
theorem cassetteManifest_places {m : Manifest} {base : Nat} (good : (l.heard r s.gsc).checked digest x = .inl m) (receiving : l.phase = .receiving)
    (host : l.host = []) (short : ∃ k, k < m.blocks ∧ l.blocks.has k = false)
    (fits : lowestFit s.usedBlocks 0 s.chanBlocks (copyRegion 0 m.resSize).blocks = some base) :
    completes (.cassetteManifest p digest first x) s fun t => s.casOnly t ∧ (t.rmSlot l.slot).placed = true ∧
      (t.rmSlot l.slot).base = base ∧ ∃ y, t.loadOf digest = some y ∧ y.manifest = some m ∧ y.phase = .receiving := by
  have row := cassetteManifest_exec (x := x) range parent sound fresh
  rw [good] at row
  obtain ⟨load, -, named, plain, -, -⟩ := State.rangeAt_spec range
  obtain ⟨k, kept⟩ : ∃ k, k = (l.heard r s.gsc).withManifest m := ⟨_, rfl⟩
  have shown : k.digest = l.digest ∧ k.adapter = l.adapter ∧ k.phase = .receiving ∧ k.manifest = some m ∧ k.host = [] ∧ k.slot = l.slot ∧
      ({ k with phase := .receiving } : CasLoad) = k ∧ k.blocks = l.blocks := by
    rw [kept]
    refine ⟨rfl, rfl, receiving, rfl, host, rfl, ?_, rfl⟩
    unfold CasLoad.withManifest
    rw [← show (l.heard r s.gsc).phase = .receiving from receiving]
  obtain ⟨digests, adapters, phase, manifest, empty, slot, same, blocks⟩ := shown
  have bodiless : ∀ m', k.manifest = some m' → k.body m' = none := fun m' there => by
    cases manifest.symm.trans there
    obtain ⟨b, low, lost⟩ := short
    refine if_neg fun all => ?_
    have has := List.all_eq_true.mp all b (List.mem_range.mpr low)
    rw [blocks, lost] at has
    cases has
  obtain ⟨w, placed⟩ : ∃ w, w = s.setRmSlot l.slot ((s.rmSlot l.slot).placedAt base m.resSize) := ⟨_, rfl⟩
  have shown : s.casOnly w ∧ w.rmSlot l.slot = (s.rmSlot l.slot).placedAt base m.resSize ∧ w.loadOf digest = some l := by
    rw [placed]
    exact ⟨.withCas .., State.rmSlot_setRmSlot .., load⟩
  obtain ⟨only, own, there⟩ := shown
  have put : (w.putLoad k).loadOf digest = some k := State.loadOf_putLoad_of there digests adapters
  have came : s.manifestCame digest (l.heard r s.gsc) (.inl m) = (w.putLoad k).pumpLoad k := by
    rw [State.manifestCame, if_neg (by rw [show (l.heard r s.gsc).phase = .receiving from receiving]; decide),
      show ({ l.heard r s.gsc with manifest := some m } : CasLoad) = k from kept.symm, State.placeLoad_fits manifest fits, same, slot, ← placed,
      State.writeCopy_lacks bodiless, State.pumpDigest_goes put (by rw [phase]; decide)]
  obtain ⟨u, blocks, host, ranges, serves, -, -, pumped⟩ := (w.putLoad k).pumpLoad_lacks (l := k) fun _ => ⟨empty, bodiless⟩
  rw [if_pos phase] at pumped
  have stays : u.loadOf digest = some k := (State.loadOf_of_loads serves.loads _).trans put
  have stands : (u.putLoad (k.pumped blocks host ranges)).rmSlot l.slot = w.rmSlot l.slot := State.rmSlot_of_slots (s := w) (t := u.putLoad _) serves.slots l.slot
  refine ⟨_, row, ?_⟩
  rw [came, pumped]
  refine ⟨only.trans ((State.casOnly.withCas ..).trans (serves.tocasOnly.trans (State.casOnly.withCas ..))), ?_, ?_, _,
    State.loadOf_putLoad_of (x := k.pumped blocks host ranges) stays rfl rfl, manifest, phase⟩
  · rw [stands, own]
    rfl
  · rw [stands, own]
    rfl

end ManifestArrives

/-! ### CASSETTE_BLOCK (R264 to R266) -/

section BlockArrives

variable {s : State} {digest : Bytes} {p n : Nat} {x : Bytes} {l : CasLoad} {m : Manifest} {r : CasRange}

/-- The load of a block that has come, its range as before but for the time, and what the block leads to. -/
def State.blockCame (s : State) (p : Nat) (digest : Bytes) (n : Nat) (b : Bytes) (m : Manifest) (r : CasRange) (l : CasLoad) : State :=
  if l.blocks.has n || !r.takes n then s.putLoad l
  else if sha384 b = m.digests.getD n [] && b.length = m.blockLen n then
    (s.windowAt l r n b.length true).pumpLoad { l with blocks := l.blocks.put n b }
  else if 3 ≤ l.bad.find 0 n + 1 then
    (s.putLoad { l with bad := l.bad.put n (l.bad.find 0 n + 1) }).failLoad { l with bad := l.bad.put n (l.bad.find 0 n + 1) } .digest 0x0804 n
  else (s.putLoad { l with bad := l.bad.put n (l.bad.find 0 n + 1) }).casSend p (.again digest n) []

variable (load : s.loadOf digest = some l) (manifest : l.manifest = some m)
  (range : (l.ranges.find? fun r => r.first ≤ n && n ≤ r.last && r.parent = some p) = some r) (going : l.phase = .receiving ∨ l.phase = .needSlot)
include load manifest range going

theorem cassetteBlock_exec : exec (.cassetteBlock p digest n x) s =
    .next (s.blockCame p digest n x m { r with lastRx := s.gsc } (l.heard r s.gsc)) := by
  refine Eq.trans (b := execCassetteBlock p digest n x s) rfl ?_
  have sound : l.phase ≠ .failed := by rcases going with h | h <;> rw [h] <;> decide
  simp only [execCassetteBlock, load, manifest, range, if_neg sound, State.blockCame, CasLoad.heard]
  split
  next idle => exact congrArg Host.Outcome.next (if_pos idle).symm
  next taken =>
    refine Eq.trans ?_ (congrArg Host.Outcome.next (if_neg taken).symm)
    split
    next => exact rfl
    next =>
      split
      next often => exact congrArg Host.Outcome.next (if_pos often).symm
      next few => exact congrArg Host.Outcome.next (if_neg few).symm

/-- A block that is held, or lies beyond the window, only shows that the parent sends. -/
theorem cassetteBlock_shows (idle : l.blocks.has n = true ∨ r.takes n = false) : completes (.cassetteBlock p digest n x) s fun t =>
    s.casOnly t ∧ t.cas.sent = s.cas.sent ∧ ∃ y, t.loadOf digest = some y ∧ y.blocks = l.blocks ∧ ∃ r' ∈ y.ranges,
      r'.first = r.first ∧ r'.lastRx = s.gsc := by
  have row := cassetteBlock_exec (x := x) load manifest range going
  rw [State.blockCame, if_pos (by
    rw [Bool.or_eq_true, Bool.not_eq_true']
    exact idle)] at row
  exact ⟨_, row, .withCas .., rfl, _, State.loadOf_putLoad_of (x := l.heard r s.gsc) load rfl rfl, rfl, _,
    CasLoad.mem_setRange_self (List.mem_of_find?_eq_some range) rfl, rfl, rfl⟩

variable (takes : r.takes n = true) (fresh : l.blocks.has n = false)
include takes fresh

omit load manifest range going in
theorem State.blockCame_taken : s.blockCame p digest n x m { r with lastRx := s.gsc } (l.heard r s.gsc) =
    if sha384 x = m.digests.getD n [] && x.length = m.blockLen n then
      (s.windowAt (l.heard r s.gsc) { r with lastRx := s.gsc } n x.length true).pumpLoad
        { l.heard r s.gsc with blocks := l.blocks.put n x }
    else if 3 ≤ l.bad.find 0 n + 1 then
      (s.putLoad { l.heard r s.gsc with bad := l.bad.put n (l.bad.find 0 n + 1) }).failLoad
        { l.heard r s.gsc with bad := l.bad.put n (l.bad.find 0 n + 1) } .digest 0x0804 n
    else (s.putLoad { l.heard r s.gsc with bad := l.bad.put n (l.bad.find 0 n + 1) }).casSend p (.again digest n) [] := by
  refine if_neg ?_
  have takes : ({ r with lastRx := s.gsc } : CasRange).takes n = true := takes
  rw [takes, show (l.heard r s.gsc).blocks.has n = false from fresh]
  decide

/-- A verified block is kept, and the load goes on while another lacks. -/
theorem cassetteBlock_keeps (good : sha384 x = m.digests.getD n []) (length : x.length = m.blockLen n) (host : l.host = [])
    (short : ∃ k, k < m.blocks ∧ k ≠ n ∧ l.blocks.has k = false) : completes (.cassetteBlock p digest n x) s fun t => s.casOnly t ∧
      ∃ y, t.loadOf digest = some y ∧ y.phase = l.phase ∧ y.blocks.has n = true ∧ y.blocks.find [] n = x ∧
        ∀ k, k ≠ n → y.blocks.has k = l.blocks.has k := by
  have row := cassetteBlock_exec (x := x) load manifest range going
  rw [State.blockCame_taken takes fresh, if_pos (by simp [good, length])] at row
  obtain ⟨k, kept⟩ : ∃ k : CasLoad, k = { l.heard r s.gsc with blocks := l.blocks.put n x } := ⟨_, rfl⟩
  have shown : k.digest = l.digest ∧ k.adapter = l.adapter ∧ k.phase = l.phase ∧ k.manifest = l.manifest ∧ k.host = [] ∧
      k.blocks = l.blocks.put n x := by
    rw [kept]
    exact ⟨rfl, rfl, rfl, rfl, host, rfl⟩
  obtain ⟨digests, adapters, phase, manifests, empty, blocks⟩ := shown
  obtain ⟨w, window⟩ : ∃ w, w = s.windowAt (l.heard r s.gsc) { r with lastRx := s.gsc } n x.length true := ⟨_, rfl⟩
  have wrote : s.serves w := window ▸ State.serves.windowAt ..
  rw [← kept, ← window] at row
  have there : w.loadOf digest = some l := (State.loadOf_of_loads wrote.loads _).trans load
  have bodiless : ∀ m', k.manifest = some m' → k.body m' = none := fun m' there => by
    cases (manifests.trans manifest).symm.trans there
    obtain ⟨b, low, other, lost⟩ := short
    refine if_neg fun all => ?_
    have has := List.all_eq_true.mp all b (List.mem_range.mpr low)
    rw [blocks, Map.has_put, lost, Bool.false_or] at has
    exact other (by simpa using has : n = b).symm
  obtain ⟨u, blocks', host', ranges, serves, stays, -, pumped⟩ := w.pumpLoad_lacks (l := k) fun _ => ⟨empty, bodiless⟩
  have puts : w.pumpLoad k = u.putLoad (k.pumped blocks' host' ranges) := by
    rw [pumped]
    split
    · rfl
    · refine State.keepLoad_puts (.inl (?_ : k.phase ≠ .sharing))
      rw [phase]
      rcases going with h | h <;> rw [h] <;> decide
  have stands : u.loadOf digest = some l := (State.loadOf_of_loads serves.loads _).trans there
  obtain ⟨same, -⟩ := stays empty
  refine ⟨_, row, ?_⟩
  rw [puts]
  refine ⟨(wrote.trans serves).tocasOnly.trans (State.casOnly.withCas ..), _,
    State.loadOf_putLoad_of (x := k.pumped blocks' host' ranges) stands digests adapters, phase, ?_, ?_, fun b other => ?_⟩
  · rw [show (k.pumped blocks' host' ranges).blocks = l.blocks.put n x from same.trans blocks]
    simp
  · rw [show (k.pumped blocks' host' ranges).blocks = l.blocks.put n x from same.trans blocks]
    exact Map.find_put_same ..
  · rw [show (k.pumped blocks' host' ranges).blocks = l.blocks.put n x from same.trans blocks, Map.has_put]
    simp [Ne.symm other]

/-- The last block has the copy written. -/
theorem cassetteBlock_writes {copy : Bytes} (good : sha384 x = m.digests.getD n []) (length : x.length = m.blockLen n) (host : l.host = [])
    (receiving : l.phase = .receiving) (all : ∀ k, k < m.blocks → k ≠ n → l.blocks.has k = true)
    (built : residentCopy m ((List.range m.blocks).flatMap fun k => if k = n then x else l.blocks.find [] k) s.coreCount = .inl copy) :
    completes (.cassetteBlock p digest n x) s fun t => (∃ y, t.loadOf digest = some y ∧ y.phase = .written) ∧
      t.far.mem = (s.farPutAt (copyRegion (s.rmSlot l.slot).base m.resSize) 0 copy).far.mem ∧ t.job = s.job ∧ t.cores = s.cores := by
  have row := cassetteBlock_exec (x := x) load manifest range going
  rw [State.blockCame_taken takes fresh, if_pos (by simp [good, length])] at row
  obtain ⟨k, kept⟩ : ∃ k : CasLoad, k = { l.heard r s.gsc with blocks := l.blocks.put n x } := ⟨_, rfl⟩
  have shown : k.digest = l.digest ∧ k.adapter = l.adapter ∧ k.phase = .receiving ∧ k.manifest = some m ∧ k.host = [] ∧
      k.blocks = l.blocks.put n x ∧ k.slot = l.slot := by
    rw [kept]
    exact ⟨rfl, rfl, receiving, manifest, host, rfl, rfl⟩
  obtain ⟨digests, adapters, phase, manifests, empty, blocks, slot⟩ := shown
  obtain ⟨w, window⟩ : ∃ w, w = s.windowAt (l.heard r s.gsc) { r with lastRx := s.gsc } n x.length true := ⟨_, rfl⟩
  have wrote : s.serves w := window ▸ State.serves.windowAt ..
  rw [← kept, ← window, State.pumpLoad_eq] at row
  obtain ⟨blocks', host', ranges, serves, pumped, stays, -⟩ := w.pumpRanges_shows k
  obtain ⟨u, served⟩ : ∃ u, u = (w.pumpRanges k).1 := ⟨_, rfl⟩
  rw [← served] at serves
  obtain ⟨same, -⟩ := stays empty
  obtain ⟨y, load'⟩ : ∃ y, y = k.pumped blocks' host' ranges := ⟨_, rfl⟩
  have shown : y.phase = .receiving ∧ y.manifest = some m ∧ y.slot = l.slot ∧ y.blocks = l.blocks.put n x ∧ y.digest = l.digest ∧
      y.adapter = l.adapter := by
    rw [load']
    exact ⟨phase, manifests, slot, same.trans blocks, digests, adapters⟩
  obtain ⟨phase', manifest', slot', blocks'', digests', adapters'⟩ := shown
  rw [pumped, ← load', ← served, if_pos phase'] at row
  have whole : y.body m = some ((List.range m.blocks).flatMap fun k => if k = n then x else l.blocks.find [] k) := by
    rw [CasLoad.body_all fun b low => ?_, blocks'']
    · congr 2
      funext b
      split
      next own => rw [own]; exact Map.find_put_same ..
      next other => exact Map.find_put_other _ _ _ other
    · rw [blocks'', Map.has_put]
      by_cases own : b = n
      · simp [own]
      · simp [all b low own]
  have both := wrote.trans serves
  have there : u.loadOf digest = some l := (State.loadOf_of_loads both.loads _).trans load
  have cores : u.coreCount = s.coreCount := both.tocasOnly.keeps (v := State.coreCount) fun _ _ _ _ _ _ _ => rfl
  obtain ⟨z, writes, mem, -, listed, rest⟩ := State.writeCopy_writes (s := u) manifest' whole (cores ▸ built)
  obtain ⟨-, rest⟩ := Prod.mk.inj rest
  obtain ⟨job, cores'⟩ := Prod.mk.inj rest
  refine ⟨_, row, ?_⟩
  rw [writes]
  refine ⟨⟨_, State.loadOf_putLoad_of (x := { y with phase := .written }) ((State.loadOf_of_loads listed _).trans there) digests' adapters', rfl⟩,
    mem.trans ?_, job.trans (both.tocasOnly.keeps fun _ _ _ _ _ _ _ => rfl), cores'.trans (both.tocasOnly.keeps fun _ _ _ _ _ _ _ => rfl)⟩
  rw [slot', State.rmSlot_of_slots both.slots]
  exact State.farPutAt_mem (both.tocasOnly.keeps (v := fun t => t.far.mem) fun _ _ _ _ _ _ _ => rfl) ..

variable (bad : sha384 x ≠ m.digests.getD n [])
include bad

omit load manifest range going takes fresh in
theorem badBlock : ¬(decide (sha384 x = m.digests.getD n []) && decide (x.length = m.blockLen n)) = true := by
  rw [decide_eq_false bad, Bool.false_and]
  decide

/-- A block that fails its digest is asked for again. -/
theorem cassetteBlock_again (few : l.bad.find 0 n < 2) : completes (.cassetteBlock p digest n x) s fun t => s.casOnly t ∧
    t.cas.sent = s.cas.sent ++ [(p, .again digest n)] ∧ ∃ y, t.loadOf digest = some y ∧ y.blocks = l.blocks := by
  have row := cassetteBlock_exec (x := x) load manifest range going
  rw [State.blockCame_taken takes fresh, if_neg (badBlock bad), if_neg (by omega)] at row
  obtain ⟨k, kept⟩ : ∃ k : CasLoad, k = { l.heard r s.gsc with bad := l.bad.put n (l.bad.find 0 n + 1) } := ⟨_, rfl⟩
  have shown : k.digest = l.digest ∧ k.adapter = l.adapter ∧ k.blocks = l.blocks := by
    rw [kept]
    exact ⟨rfl, rfl, rfl⟩
  rw [← kept] at row
  have sends := State.serves.casSend (s.putLoad k) p (.again digest n) []
  exact ⟨_, row, (State.casOnly.withCas ..).trans sends.tocasOnly, State.casSend_sent .., k,
    (State.loadOf_of_loads sends.loads _).trans (State.loadOf_putLoad_of load shown.1 shown.2.1), shown.2.2⟩

/-- The third failure of a block ends the load. -/
theorem cassetteBlock_fails (often : 2 ≤ l.bad.find 0 n) : completes (.cassetteBlock p digest n x) s fun t =>
    s.failsAs t digest l 0x0804#16 n := by
  have row := cassetteBlock_exec (x := x) load manifest range going
  rw [State.blockCame_taken takes fresh, if_neg (badBlock bad), if_pos (by omega)] at row
  obtain ⟨k, kept⟩ : ∃ k : CasLoad, k = { l.heard r s.gsc with bad := l.bad.put n (l.bad.find 0 n + 1) } := ⟨_, rfl⟩
  have shown : k.digest = l.digest ∧ k.adapter = l.adapter ∧ k.slot = l.slot := by
    rw [kept]
    exact ⟨rfl, rfl, rfl⟩
  obtain ⟨digests, adapters, slot⟩ := shown
  rw [← kept] at row
  obtain ⟨named, plain⟩ := State.loadOf_digest load
  have there : ((s.putLoad k).loadOf k.digest).isSome = true := by
    rw [digests, named, State.loadOf_putLoad_of load digests adapters]
    rfl
  exact ⟨_, row, (State.failLoad_failsAs (digests.trans named) (adapters.trans plain) there .digest n (by decide)).of_putLoad slot⟩

end BlockArrives

/-! ### CASSETTE_ACK and the timers of a range (R265 to R268) -/

section RangeEvents

variable {s : State} {digest : Bytes} {p first : Nat} {l : CasLoad} {r : CasRange} (range : s.rangeAt digest first = some (l, r))
include range

/-- A range that is written back stands under its first block. -/
theorem State.rangeAt_putLoad {r' : CasRange} (same : r'.first = r.first) :
    (s.putLoad (l.setRange r')).rangeAt digest first = some (l.setRange r', r') := by
  obtain ⟨load, found, -, -, -, own⟩ := State.rangeAt_spec range
  exact State.rangeAt_of_load (State.loadOf_putLoad_of load rfl rfl) (CasLoad.find_setRange found (same.trans own))

omit range in
/-- A child after an acknowledgement on a port. -/
def CasChild.acksOn (c : CasChild) (p next last gsc : Nat) : CasChild :=
  if c.port = p && c.acked < next then { c with acked := min next (last + 1), next := max c.next next, since := gsc } else c

/-- A range after it. -/
def CasRange.acksOn (r : CasRange) (p next gsc : Nat) : CasRange := { r with children := r.children.map fun c => c.acksOn p next r.last gsc }

omit range in
theorem CasRange.acksOn_child {r : CasRange} {next gsc : Nat} {k : CasChild} (mem : k ∈ r.children) : ∃ k' ∈ (r.acksOn p next gsc).children,
    k'.port = k.port ∧ k'.acked = (if k.port = p ∧ k.acked < next then min next (r.last + 1) else k.acked) := by
  refine ⟨_, List.mem_map_of_mem mem, ?_⟩
  unfold CasChild.acksOn
  by_cases acks : k.port = p ∧ k.acked < next
  · rw [if_pos acks, if_pos (by simpa using acks)]
    exact ⟨rfl, rfl⟩
  · rw [if_neg acks, if_neg (by simpa using acks)]
    exact ⟨rfl, rfl⟩

/-- An acknowledgement moves its child on, and the load's ranges are served. -/
theorem cassetteAck_moves (next : Nat) (lacks : l.lacks) (apart : l.phase ≠ .sharing) : completes (.cassetteAck p digest first next) s fun t =>
    s.casOnly t ∧ t.cas.slots = s.cas.slots ∧ ∃ y r', t.rangeAt digest first = some (y, r') ∧ r.ackNext ≤ r'.ackNext ∧
      ∀ k ∈ r.children, ∃ k' ∈ r'.children, k'.port = k.port ∧
        k'.acked = (if k.port = p ∧ k.acked < next then min next (r.last + 1) else k.acked) := by
  have row : exec (.cassetteAck p digest first next) s = .next (if l.phase = .failed then s.putLoad (l.setRange (r.acksOn p next s.gsc))
      else s.pumpLoad (l.setRange (r.acksOn p next s.gsc))) := by
    refine Eq.trans (b := execCassetteAck p digest first next s) rfl ?_
    simp only [execCassetteAck, range]
    exact rfl
  by_cases failed : l.phase = .failed
  · rw [if_pos failed] at row
    exact ⟨_, row, .withCas .., rfl, _, _, State.rangeAt_putLoad range rfl, le_refl _, fun k mem => CasRange.acksOn_child mem⟩
  obtain ⟨load, -, named, plain, mem, own⟩ := State.rangeAt_spec range
  rw [if_neg failed] at row
  obtain ⟨only, slots, shown⟩ := State.pumpLoad_setRange (s := s) (r' := r.acksOn p next s.gsc) (by rw [load]; rfl) named plain mem own rfl lacks
  rcases shown with ⟨-, sharing, -⟩ | ⟨y, q, stays, served⟩
  · exact absurd sharing apart
  refine ⟨_, row, only, slots, y, q, stays, served.ackNext, fun k mem => ?_⟩
  obtain ⟨k', mem', port, acked⟩ := CasRange.acksOn_child (p := p) (next := next) (gsc := s.gsc) mem
  obtain ⟨k'', mem'', port', -, acked'⟩ := served.children k' mem'
  exact ⟨k'', mem'', port'.trans port, acked'.trans acked⟩

section Parent

variable (parent : r.parent = some p) (short : r.ackNext ≤ r.last) (sound : l.phase ≠ .failed) (sends : r.parentLost = false)
include parent short sound sends

/-- The acknowledgement of an incomplete range is repeated. -/
theorem cassetteAckRepeat_sends : completes (.cassetteAckRepeat digest first) s fun t => t.gsc = max s.gsc (r.lastAck + 10000000) ∧
    t.cas.sent = s.cas.sent ++ (if r.ackNext ≤ r.first then [] else [(p, .ack digest first r.ackNext)]) ∧
      t.cas.slots = s.cas.slots ∧ t.job = s.job := by
  obtain ⟨-, -, -, -, -, own⟩ := State.rangeAt_spec range
  obtain ⟨w, later⟩ : ∃ w, w = s.advanceTo (r.lastAck + 10000000) := ⟨_, rfl⟩
  have row : exec (.cassetteAckRepeat digest first) s = .next ((w.ackRange digest r).1.putLoad (l.setRange (w.ackRange digest r).2)) := by
    refine Eq.trans (b := execCassetteAckRepeat digest first s) rfl ?_
    simp only [execCassetteAckRepeat, range, ← later]
    exact if_neg (by simp [parent, short, sound])
  have shown : w.gsc = max s.gsc (r.lastAck + 10000000) ∧ w.cas = s.cas ∧ w.job = s.job := by
    rw [later]
    exact ⟨State.advanceTo_gsc .., State.advanceTo_cas .., State.advanceTo_job ..⟩
  obtain ⟨gsc, cas, job⟩ := shown
  have acks : w.ackRange digest r = if r.ackNext ≤ r.first then (w, r)
      else (w.casSend p (.ack digest r.first r.ackNext) [], { r with lastAck := w.gsc }) := by
    simp only [State.ackRange, parent, sends, Bool.false_or, decide_eq_true_eq]
  obtain ⟨serves, -⟩ := w.ackRange_shows digest r
  refine ⟨_, row, ?_, ?_, ?_, ?_⟩
  · exact (serves.tocasOnly.keeps (v := State.gsc) fun _ _ _ _ _ _ _ => rfl).trans gsc
  · change (w.ackRange digest r).1.cas.sent = _
    rw [acks]
    split
    · rw [cas, List.append_nil]
    · rw [State.casSend_sent, cas, own]
  · exact serves.slots.trans (congrArg Cas.slots cas)
  · exact (serves.tocasOnly.keeps (v := State.job) fun _ _ _ _ _ _ _ => rfl).trans job

/-- A parent from which nothing comes is lost. -/
theorem parentBcastTimeout_loses : completes (.parentBcastTimeout digest first) s fun t =>
    ((s.port p).state = .active → t.gsc = max s.gsc (r.lastRx + 100000000)) ∧ t.cas.faultCode = 0x0809#16 ∧ t.job = s.job ∧
      ∃ y, t.rangeAt digest first = some (y, { r with parentLost := true }) := by
  obtain ⟨w, later⟩ : ∃ w, w = if s.linkDown p then s else s.advanceTo (r.lastRx + bcastTimeout) := ⟨_, rfl⟩
  obtain ⟨u, told⟩ : ∃ u : State, u = (w.casFault l.slot 0x0809 casNone).event 0x0809 (BitVec.ofNat 64 (r.ackNext - 1)) := ⟨_, rfl⟩
  have row : exec (.parentBcastTimeout digest first) s = .next (u.putLoad (l.setRange { r with parentLost := true })) := by
    refine Eq.trans (b := execParentBcastTimeout digest first s) rfl ?_
    simp only [execParentBcastTimeout, range, parent, ← later, ← told]
    exact if_neg (by simp [short, sound, sends])
  have shown : w.cas = s.cas ∧ w.job = s.job := by
    rw [later]
    split
    · exact ⟨rfl, rfl⟩
    · exact ⟨State.advanceTo_cas .., State.advanceTo_job ..⟩
  obtain ⟨cas, job⟩ := shown
  have shown : u.cas = (w.casFault l.slot 0x0809 casNone).cas ∧ u.job = w.job ∧ u.gsc = w.gsc := by
    rw [told]
    exact ⟨State.event_cas .., State.event_job .., State.event_gsc ..⟩
  obtain ⟨cas', job', gsc'⟩ := shown
  have loads : u.cas.loads = s.cas.loads := by
    rw [cas']
    exact (congrArg Cas.loads cas :)
  have range' : u.rangeAt digest first = some (l, r) := by
    unfold State.rangeAt at range ⊢
    rw [State.loadOf_of_loads (s := s) (t := u) loads]
    exact range
  refine ⟨_, row, fun active => gsc'.trans ?_, congrArg Cas.faultCode cas', job'.trans job, _, State.rangeAt_putLoad range' rfl⟩
  have up : s.linkDown p = false := by
    unfold State.linkDown
    rw [active]
    decide
  rw [later, if_neg (by rw [up]; decide)]
  exact State.advanceTo_gsc ..

end Parent

/-- A child whose acknowledgements stall, or whose link is down, is lost; blocks are kept for it. -/
theorem childBcastTimeout_loses {k : CasChild} (child : (r.children.find? fun c => c.port = p) = some k)
    (stalls : k.acked < k.next ∨ s.linkDown p = true) : completes (.childBcastTimeout digest first p) s fun t =>
      ((s.port p).state = .active → t.gsc = max s.gsc (k.since + 100000000)) ∧ t.cas.faultCode = 0x0808#16 ∧ t.job = s.job ∧
        ∃ y r' low, t.rangeAt digest first = some (y, r') ∧ (∀ c ∈ r'.children, c.port ≠ p) ∧
          r'.retain = some (low, t.gsc + 10000000000) ∧ low ≤ k.acked - 64 := by
  obtain ⟨w, later⟩ : ∃ w, w = if s.linkDown p then s else s.advanceTo (k.since + bcastTimeout) := ⟨_, rfl⟩
  obtain ⟨low, lowest⟩ : ∃ low, low = match r.retain with | some (x, _) => min x (k.acked - 64) | none => k.acked - 64 := ⟨_, rfl⟩
  obtain ⟨u, told⟩ : ∃ u : State, u = (w.casFault l.slot 0x0808 casNone).event 0x0808 (BitVec.ofNat 64 p) (BitVec.ofNat 64 (k.acked - 1)) :=
    ⟨_, rfl⟩
  have row : exec (.childBcastTimeout digest first p) s = .next (u.putLoad (l.setRange
      { r with children := r.children.filter fun x => x.port ≠ p, retain := some (low, w.gsc + retainNs) })) := by
    refine Eq.trans (b := execChildBcastTimeout digest first p s) rfl ?_
    have goes : ¬(!s.linkDown p && decide (k.next ≤ k.acked)) = true := by
      rcases stalls with stalls | down
      · simp [stalls]
      · simp [down]
    simp only [execChildBcastTimeout, range, child, ← later, ← told]
    refine (if_neg goes).trans ?_
    subst lowest
    exact rfl
  have shown : w.cas = s.cas ∧ w.job = s.job := by
    rw [later]
    split
    · exact ⟨rfl, rfl⟩
    · exact ⟨State.advanceTo_cas .., State.advanceTo_job ..⟩
  obtain ⟨cas, job⟩ := shown
  have shown : u.cas = (w.casFault l.slot 0x0808 casNone).cas ∧ u.job = w.job ∧ u.gsc = w.gsc := by
    rw [told]
    exact ⟨State.event_cas .., State.event_job .., State.event_gsc ..⟩
  obtain ⟨cas', job', gsc'⟩ := shown
  have loads : u.cas.loads = s.cas.loads := by
    rw [cas']
    exact (congrArg Cas.loads cas :)
  have range' : u.rangeAt digest first = some (l, r) := by
    unfold State.rangeAt at range ⊢
    rw [State.loadOf_of_loads (s := s) (t := u) loads]
    exact range
  refine ⟨_, row, fun active => gsc'.trans ?_, congrArg Cas.faultCode cas', job'.trans job, _, _, low, State.rangeAt_putLoad range' rfl,
    fun c mem => ?_, congrArg (fun g => some (low, g + retainNs)) gsc'.symm, ?_⟩
  · have up : s.linkDown p = false := by
      unfold State.linkDown
      rw [active]
      decide
    rw [later, if_neg (by rw [up]; decide)]
    exact State.advanceTo_gsc ..
  · simpa using (List.mem_filter.mp mem).2
  · rw [lowest]
    split
    · exact min_le_right ..
    · exact le_refl _

theorem childBcastTimeout_calm {k : CasChild} (child : (r.children.find? fun c => c.port = p) = some k) (taken : k.next ≤ k.acked)
    (up : s.linkDown p = false) : exec (.childBcastTimeout digest first p) s = .next s := by
  refine Eq.trans (b := execChildBcastTimeout digest first p s) rfl ?_
  simp only [execChildBcastTimeout, range, child]
  exact if_pos (by simp [taken, up])

/-- The blocks kept for a lost child are released. -/
theorem retainExpiry_releases {low until_ : Nat} (kept : r.retain = some (low, until_)) (lacks : l.lacks) :
    completes (.retainExpiry digest first) s fun t => t.gsc = max s.gsc until_ ∧ t.cas.slots = s.cas.slots ∧ t.job = s.job ∧
      (∀ y r', t.rangeAt digest first = some (y, r') → r'.retain = none) ∧ (l.phase ≠ .sharing → (t.rangeAt digest first).isSome = true) := by
  obtain ⟨-, -, named, -, -, -⟩ := State.rangeAt_spec range
  obtain ⟨w, later⟩ : ∃ w, w = s.advanceTo until_ := ⟨_, rfl⟩
  have row : exec (.retainExpiry digest first) s = .next ((w.putLoad (l.setRange { r with retain := none })).pumpDigest l.digest) := by
    refine Eq.trans (b := execRetainExpiry digest first s) rfl ?_
    simp only [execRetainExpiry, range, kept, ← later, named]
  have shown : w.gsc = max s.gsc until_ ∧ w.cas = s.cas ∧ w.job = s.job := by
    rw [later]
    exact ⟨State.advanceTo_gsc .., State.advanceTo_cas .., State.advanceTo_job ..⟩
  obtain ⟨gsc, cas, job⟩ := shown
  have range' : w.rangeAt digest first = some (l, r) := by
    unfold State.rangeAt at range ⊢
    rw [State.loadOf_of_loads (s := s) (t := w) (congrArg Cas.loads cas)]
    exact range
  obtain ⟨only, slots, gone, stays⟩ := State.freeRetained range' lacks
  exact ⟨_, row, (only.keeps (v := State.gsc) fun _ _ _ _ _ _ _ => rfl).trans gsc, slots.trans (congrArg Cas.slots cas),
    (only.keeps (v := State.job) fun _ _ _ _ _ _ _ => rfl).trans job, gone, stays⟩

end RangeEvents

/-! ### RESIDENT_READBACK (R255, R257) -/

section Readback

variable {s : State} {i : Nat} {l : CasLoad}
  (written : (s.cas.loads.find? fun l => l.slot = i && l.phase = .written && l.adapter.isNone) = some l)
include written

theorem written_spec : l.slot = i ∧ l.adapter = none ∧ (s.loadOf l.digest).isSome = true := by
  have found := List.find?_some written
  simp only [Bool.and_eq_true, decide_eq_true_eq, Option.isNone_iff_eq_none] at found
  obtain ⟨⟨slot, -⟩, plain⟩ := found
  refine ⟨slot, plain, ?_⟩
  unfold State.loadOf
  rw [List.find?_isSome]
  exact ⟨l, List.mem_of_find?_eq_some written, by simp [plain]⟩

/-- A copy that reads back with an error ends its load. -/
theorem residentReadback_fails : completes (.residentReadback i false) s fun t => t.cas.faultCode = 0x0807#16 ∧ t.cas.faultValid = true ∧
    t.far = s.far ∧ t.job = s.job ∧ (s.casNow = true → (t.rmSlot i).state = .empty) := by
  obtain ⟨rfl, plain, there⟩ := written_spec written
  have row : exec (.residentReadback l.slot false) s = .next (s.failLoad l .state 0x0807 casNone) := by
    refine Eq.trans (b := execResidentReadback l.slot false s) rfl ?_
    simp only [execResidentReadback, written]
    exact if_pos rfl
  have fails := State.failLoad_failsAs (s := s) rfl plain there .state (code := 0x0807) casNone (by decide)
  exact ⟨_, row, fails.faultCode, fails.faultValid, fails.far, fails.job, fun calm => (fails.now calm).2⟩

omit written in
/-- A load that has come to its end well, with its slot RESIDENT and its command answered. -/
theorem State.endLoad_sound {s : State} {l : CasLoad} (sound : l.failed = none) : ∃ w : State,
    (s.endLoad l = w ∧ l.chan = none ∨ ∃ ch r, l.chan = some ch ∧ s.endLoad l = w.respond ch r ∧ r.result = .ok) ∧
      (w.rmSlot l.slot).state = .resident ∧ (w.rmSlot l.slot).resDigest = l.resDigest ∧
      ({ w with cas := s.cas } : State) = s := by
  obtain ⟨k, kept⟩ : ∃ k, k = s.keepLoad { l with phase := .sharing, chan := none } := ⟨_, rfl⟩
  have rest : ({ k with cas := s.cas } : State) = s := by
    rw [kept, State.keepLoad]
    split <;> exact rfl
  refine ⟨k.setRmSlot l.slot { k.rmSlot l.slot with state := .resident, resDigest := l.resDigest, lastUse := k.cas.useSeq }, ?_,
    congrArg RmSlot.state (State.rmSlot_setRmSlot ..), congrArg RmSlot.resDigest (State.rmSlot_setRmSlot ..), rest⟩
  unfold State.endLoad
  split
  next failed => cases sound.symm.trans failed
  next =>
    dsimp only
    rw [← kept]
    split
    next ch told => exact .inr ⟨ch, _, told, rfl, rfl⟩
    next told => exact .inl ⟨rfl, told⟩

/-- A copy that reads back without error makes its slot RESIDENT. -/
theorem residentReadback_ends (sound : l.failed = none) : completes (.residentReadback i true) s fun t => t.far.mem = s.far.mem ∧ t.job = s.job ∧
    t.cores = s.cores ∧ (s.casNow = true → (t.rmSlot i).state = .resident ∧
      (t.rmSlot i).resDigest = residentDigest (s.farGetAt (copyRegion (s.rmSlot i).base (s.rmSlot i).size) 0 (s.rmSlot i).size) ∧
      ∀ d r, l.chan = some d → (s.cmdOf d).isSome = true → (t.chan d).resp = some r → r.result = 0#16) := by
  obtain ⟨rfl, plain, there⟩ := written_spec written
  obtain ⟨y, ready⟩ : ∃ y : CasLoad, y = { l with
    phase := .ready
    resDigest := residentDigest (s.farGetAt (copyRegion (s.rmSlot l.slot).base (s.rmSlot l.slot).size) 0 (s.rmSlot l.slot).size) } := ⟨_, rfl⟩
  obtain ⟨w, put⟩ : ∃ w : State, w = (s.background (.copy l.slot) (copyRegion (s.rmSlot l.slot).base (s.rmSlot l.slot).size) 0
    (s.rmSlot l.slot).size false).putLoad y := ⟨_, rfl⟩
  have row : exec (.residentReadback l.slot true) s = .next (if w.casNow then w.endLoad y else w) := by
    refine Eq.trans (b := execResidentReadback l.slot true s) rfl ?_
    simp only [execResidentReadback, written, Bool.not_true, put, ready]
    exact rfl
  have shown : y.failed = none ∧ y.chan = l.chan ∧ y.slot = l.slot ∧ y.resDigest =
      residentDigest (s.farGetAt (copyRegion (s.rmSlot l.slot).base (s.rmSlot l.slot).size) 0 (s.rmSlot l.slot).size) := by
    rw [ready]
    exact ⟨sound, rfl, rfl, rfl⟩
  obtain ⟨sound', chan, slot, digest⟩ := shown
  have only : s.casOnly w := by
    rw [put]
    exact (State.serves.background ..).tocasOnly.trans (State.casOnly.withCas ..)
  have mem : w.far.mem = s.far.mem := only.keeps (v := fun t => t.far.mem) fun _ _ _ _ _ _ _ => rfl
  have job : w.job = s.job := only.keeps fun _ _ _ _ _ _ _ => rfl
  have cores : w.cores = s.cores := only.keeps fun _ _ _ _ _ _ _ => rfl
  have calm : w.casNow = s.casNow := only.keeps fun _ _ _ _ _ _ _ => rfl
  have cmds : ∀ d, w.cmdOf d = s.cmdOf d := fun d => only.keeps (v := fun t => t.cmdOf d) fun _ _ _ _ _ _ _ => rfl
  cases now : s.casNow with
  | false =>
    rw [calm, now] at row
    exact ⟨_, row, mem, job, cores, fun h => absurd h Bool.false_ne_true⟩
  | true =>
    rw [calm, now] at row
    obtain ⟨u, ends, resident, resDigest, rest⟩ := State.endLoad_sound (s := w) sound'
    have mem' : u.far.mem = w.far.mem := (congrArg (fun t : State => t.far.mem) rest :)
    have job' : u.job = w.job := (congrArg State.job rest :)
    have cores' : u.cores = w.cores := (congrArg State.cores rest :)
    have cmds' : ∀ d, u.cmdOf d = w.cmdOf d := fun d => (congrArg (fun t : State => t.cmdOf d) rest :)
    rw [slot] at resident resDigest
    rw [digest] at resDigest
    rcases ends with ⟨eq, silent⟩ | ⟨ch, r, told, eq, ok⟩
    · refine ⟨u, row.trans (congrArg Host.Outcome.next eq), mem'.trans mem, job'.trans job, cores'.trans cores, fun _ => ⟨resident, resDigest,
        fun d r told => ?_⟩⟩
      rw [← chan, silent] at told
      cases told
    · have cas : (u.respond ch r).cas = u.cas := State.respond_cas ..
      have same : (u.respond ch r).rmSlot l.slot = u.rmSlot l.slot := State.rmSlot_of_slots (congrArg Cas.slots cas) _
      refine ⟨u.respond ch r, row.trans (congrArg Host.Outcome.next eq), ?_, (State.respond_job ..).trans (job'.trans job),
        (State.respond_cores ..).trans (cores'.trans cores), fun _ => ⟨same ▸ resident, same ▸ resDigest, fun d q channel busy resp => ?_⟩⟩
      · rw [State.respond_far]
        exact mem'.trans mem
      · rw [chan, channel] at told
        cases told
        obtain ⟨cmd, has⟩ := Option.isSome_iff_exists.mp busy
        rw [(State.respond_chan (((cmds' ch).trans (cmds ch)).trans has) r).1] at resp
        cases resp
        rw [ok]
        rfl

end Readback

/-! ### All the events -/

/-- Settles O35: each message and timer of a broadcast changes the load it names, and of everything else only what the links and the far
memory's controllers are to do. -/
theorem cassetteEvents : Obligations.CassetteEvents := by
  intro s digest
  refine ⟨fun p first x l r range parent sound fresh => ⟨fun short => ?_, fun f long bad => ?_, fun m long good => ⟨fun waits => ?_,
      fun base receiving host short fits => ?_⟩⟩,
    fun p n x l m r load manifest range going => ⟨fun idle => ?_, fun takes fresh => ⟨fun good length host short => ?_,
      fun copy good length host receiving all built =>
        cassetteBlock_writes load manifest range going takes fresh good length host receiving all built,
      fun bad few => ?_, fun bad often => ?_⟩⟩,
    fun first l r range => ⟨fun p next lacks apart => ?_, fun p parent short sound =>
      ⟨fun sends => cassetteAckRepeat_sends range parent short sound sends, fun sends => parentBcastTimeout_loses range parent short sound sends⟩,
      fun p k child => ⟨fun stalls => childBcastTimeout_loses range child stalls, fun taken up => childBcastTimeout_calm range child taken up⟩,
      fun low until_ kept lacks => retainExpiry_releases range kept lacks⟩,
    fun i l written => ⟨residentReadback_fails written, fun sound => residentReadback_ends written sound⟩⟩
  · obtain ⟨t, row, h⟩ := cassetteManifest_bad (x := x) range parent sound fresh (f := ⟨0x0801, casNone⟩) (if_pos short) (by decide)
    exact ⟨t, row, h.faultCode, h.faultIndex, h.faultValid, h.job, h.far, h.now, h.later⟩
  · obtain ⟨t, row, h⟩ := cassetteManifest_bad (x := x) range parent sound fresh ((if_neg (Nat.not_lt.mpr long)).trans bad) (checkManifest_code bad)
    exact ⟨t, row, h.faultCode, h.faultIndex, h.faultValid, h.job, h.far, h.now, h.later⟩
  · obtain ⟨t, row, only, shown⟩ := cassetteManifest_waits (x := x) range parent sound fresh ((if_neg (Nat.not_lt.mpr long)).trans good) waits
    exact ⟨t, row, ⟨only.rest, only.fab⟩, shown⟩
  · obtain ⟨t, row, only, shown⟩ := cassetteManifest_places (x := x) range parent sound fresh ((if_neg (Nat.not_lt.mpr long)).trans good)
      receiving host short fits
    exact ⟨t, row, ⟨only.rest, only.fab⟩, shown⟩
  · obtain ⟨t, row, only, shown⟩ := cassetteBlock_shows (x := x) load manifest range going idle
    exact ⟨t, row, ⟨only.rest, only.fab⟩, shown⟩
  · obtain ⟨t, row, only, shown⟩ := cassetteBlock_keeps load manifest range going takes fresh good length host short
    exact ⟨t, row, ⟨only.rest, only.fab⟩, shown⟩
  · obtain ⟨t, row, only, shown⟩ := cassetteBlock_again load manifest range going takes fresh bad few
    exact ⟨t, row, ⟨only.rest, only.fab⟩, shown⟩
  · obtain ⟨t, row, h⟩ := cassetteBlock_fails load manifest range going takes fresh bad often
    exact ⟨t, row, h.faultCode, h.faultIndex, h.faultValid, h.job, h.far, h.now, h.later⟩
  · obtain ⟨t, row, only, shown⟩ := cassetteAck_moves range next lacks apart
    exact ⟨t, row, ⟨only.rest, only.fab⟩, shown⟩

end Sys2Proof.Machine

/-! PROOF. IDENT, MGMT_CFG and the commands of links, routes, ranks and fences (R376, R377, R380, R389, R391, R394, R395, R398, R409, R431,
R446). -/
namespace Sys2Proof.Machine

/-! ### Bit masks and tables of bytes -/

/-- A mask built of 16 flags has them, and no other. -/
theorem bit_foldl_bitAt (g : Nat → Bool) (n : Nat) :
    (List.range n).foldl (fun m i => m + bitAt i (g i)) 0 < 2 ^ n ∧
      ∀ i, i < n → bit ((List.range n).foldl (fun m i => m + bitAt i (g i)) 0) i = g i := by
  induction n with
  | zero => exact ⟨Nat.one_pos, fun i low => by omega⟩
  | succ n ih =>
    rw [List.range_succ, List.foldl_append]
    generalize (List.range n).foldl (fun m i => m + bitAt i (g i)) 0 = m at ih
    obtain ⟨low, each⟩ := ih
    have test : ∀ x i, bit x i = x.testBit i := fun x i => Nat.testBit_eq_decide_div_mod_eq.symm
    simp only [List.foldl_cons, List.foldl_nil, bitAt, test] at each ⊢
    cases set : g n with
    | false =>
      refine ⟨by simp only [Bool.false_eq_true, if_false]; rw [Nat.pow_succ]; omega, fun i below => ?_⟩
      rw [if_neg (by decide), Nat.add_zero]
      by_cases last : i = n
      · rw [last, set, Nat.testBit_lt_two_pow low]
      · exact each i (by omega)
    | true =>
      refine ⟨by simp only [if_true]; rw [Nat.pow_succ]; omega, fun i below => ?_⟩
      rw [if_pos rfl, Nat.add_comm]
      by_cases last : i = n
      · rw [last, set, Nat.testBit_two_pow_add_eq, Nat.testBit_lt_two_pow low]
        rfl
      · rw [Nat.testBit_two_pow_add_gt (by omega)]
        exact each i (by omega)

theorem fld_leBytes {k n : Nat} (r : Bytes) (x : Nat) (same : k = n) : fld (leBytes k x ++ r) 0 n = x % 256 ^ n := by
  subst same
  rw [fld, sub_append_left (by simp), sub, List.drop_zero, List.take_of_length_le (by simp), leNat_leBytes]

theorem fld_append_left {a b : Bytes} {o n : Nat} (fits : o + n ≤ a.length) : fld (a ++ b) o n = fld a o n := by
  rw [fld, sub_append_left fits]
  rfl

theorem fld_append_right {a b : Bytes} {m o n : Nat} (past : m = a.length + o) : fld (a ++ b) m n = fld b o n := by
  rw [fld, sub_append_right past]
  rfl

theorem flatMap_length {f : Nat → Bytes} {k : Nat} (each : ∀ i, (f i).length = k) (l : List Nat) : (l.flatMap f).length = k * l.length := by
  induction l with
  | nil => rfl
  | cons x l ih => rw [List.flatMap_cons, List.length_append, ih, each, List.length_cons]; ring

/-- The entry of a table of entries of one size. -/
theorem fld_flatMap {f : Nat → Bytes} {k : Nat} (each : ∀ i, (f i).length = k) (n : Nat) {i o m : Nat} (low : i < n) (fits : o + m ≤ k) (r : Bytes) :
    fld ((List.range n).flatMap f ++ r) (k * i + o) m = fld (f i) o m := by
  have split : List.range n = List.range i ++ i :: (List.range (n - i - 1)).map (· + (i + 1)) := by
    refine List.ext_getElem (by simp; omega) fun j h h' => ?_
    rcases Nat.lt_trichotomy j i with below | rfl | above
    · rw [List.getElem_append_left (by simpa using below)]
      simp
    · rw [List.getElem_append_right (by simp)]
      simp
    · rw [List.getElem_append_right (by simp; omega)]
      obtain ⟨d, rfl⟩ : ∃ d, j = i + 1 + d := ⟨j - (i + 1), by omega⟩
      simp only [List.length_range, List.getElem_range, show i + 1 + d - i = d + 1 from by omega, List.getElem_cons_succ, List.getElem_map]
      omega
  rw [split, List.flatMap_append, List.flatMap_cons, List.append_assoc, List.append_assoc,
    fld_append_right (by rw [flatMap_length each, List.length_range]), fld_append_left (by rw [each]; exact fits)]

/-- The entry of a table of numbers of `k` bytes. -/
theorem fld_numbers (g : Nat → Nat) (k n : Nat) {i : Nat} (low : i < n) (r : Bytes) :
    fld ((List.range n).flatMap (fun i => leBytes k (g i)) ++ r) (k * i) k = g i % 256 ^ k := by
  have entry := fld_flatMap (f := fun i => leBytes k (g i)) (k := k) (o := 0) (m := k) (fun i => leBytes_length ..) n low (by omega) r
  rw [Nat.add_zero] at entry
  rw [entry, ← List.append_nil (leBytes k (g i)), fld_leBytes _ _ rfl]

/-! ### IDENT, MGMT_CFG, FAB_ADDR_SET, SYNC_CFG -/

section Simple

variable {s : State} {ch : Nat} {c : Cmd}

theorem ident_answers (turn : s.carries ch 0x0001 c ∨ s.carriesRec ch 0x0001 c) (len : c.length = 0) : answered (.ident ch) s ch (s.accepted ch c)
    (.ok (padTo 16 s.part.serial ++ padTo 8 (s.part.mac0.take 6) ++ padTo 8 (s.part.mac1.take 6) ++ zeros 4)) :=
  answered_everywhere (p := ident) rfl (turn.imp id fun turn => ⟨turn, rfl⟩) rfl rfl (decide_eq_true len) rfl rfl rfl rfl

theorem mgmtCfg_sets (turn : s.carries ch 0x0601 c) (len : c.length = 4) (free : s.job.state = .idle ∨ s.job.state = .loaded)
    (fence : fld c.payload 0 2 = 0 ∨ (200 ≤ fld c.payload 0 2 ∧ fld c.payload 0 2 ≤ 2000)) (port : 1024 ≤ fld c.payload 2 2) :
    answered (.mgmtCfg ch) s ch { s.accepted ch c with
      host := { (s.accepted ch c).host with fenceMs := fld c.payload 0 2, udpPort := fld c.payload 2 2 } } .ok :=
  answered_done (p := mgmtCfg) rfl turn (decide_eq_true len) (by simpa [mgmtCfg, port] using fence)
    (by rcases free with h | h <;> simp [mgmtCfg, jobIn, h]) rfl rfl rfl

variable (turn : s.carries ch 0x0602 c) (len : c.length = 4) (idle : s.job.state = .idle) (low : fld c.payload 0 4 < 2 ^ 18)
include turn len idle low

theorem fabAddrSet_refused (mailbox : ch < 8) : answered (.fabAddrSet ch) s ch (s.accepted ch c) (.of .auth) :=
  answered_kept (p := fabAddrSet) rfl turn (decide_eq_true len) (decide_eq_true low) (by simp [fabAddrSet, jobIn, idle]) (if_pos mailbox) rfl

theorem fabAddrSet_sets (management : 8 ≤ ch) : answered (.fabAddrSet ch) s ch { s.accepted ch c with
    fab := { (s.accepted ch c).fab with addr := fld c.payload 0 4, addrValid := true } } .ok :=
  answered_kept (p := fabAddrSet) rfl turn (decide_eq_true len) (decide_eq_true low) (by simp [fabAddrSet, jobIn, idle])
    (if_neg (by omega)) rfl

end Simple

theorem syncCfg_sets {s : State} {ch : Nat} {c : Cmd} (turn : s.carries ch 0x0507 c) (len : c.length = 2) : answered (.syncCfg ch) s ch
    { s.accepted ch c with fab := { (s.accepted ch c).fab with beaconUs := fld c.payload 0 2 } } .ok :=
  answered_kept (p := syncCfg) rfl turn (decide_eq_true len) rfl rfl rfl rfl

/-! ### Transfers that are routed anew (R368, R391, R393) -/

/-- What routing keeps: the fence, the job's state, cores and stores, power, and the commands that wait. -/
def State.unrouted (s : State) :=
  (s.fab.fence, s.job.state, (s.cores, s.ss, s.far), s.power, s.host.order, s.host.chans)

theorem State.run_of_unrouted {s t : State} (same : t.unrouted = s.unrouted) (run : s.power.mode = .run) : t.power.mode = .run := by
  obtain ⟨-, same⟩ := Prod.mk.inj same
  obtain ⟨-, same⟩ := Prod.mk.inj same
  obtain ⟨-, same⟩ := Prod.mk.inj same
  obtain ⟨power, -⟩ := Prod.mk.inj same
  rw [power, run]

theorem JobStatus.note_state (j : JobStatus) (code rank gsc : Nat) : (j.note code rank gsc).state = j.state := by
  unfold JobStatus.note
  split <;> rfl

theorem State.jobFatal_unrouted {s : State} (run : s.power.mode = .run) (code : Nat) : (s.jobFatal code).unrouted = s.unrouted := by
  obtain ⟨chans, order⟩ := State.jobFatal_host run code
  have state : (s.jobFatal code).job.state = s.job.state := by
    unfold State.jobFatal
    rw [State.wake_run s run]
    dsimp only
    split
    · exact (JobStatus.note_state ..).trans (congrArg JobStatus.state (State.raiseCode_job ..))
    · exact congrArg JobStatus.state (State.raiseCode_job ..)
  unfold State.unrouted
  rw [State.jobFatal_fab, state, State.jobFatal_cores, State.jobFatal_ss, State.jobFatal_far (h := run), State.jobFatal_power (h := run), chans, order]

theorem State.unreachable_unrouted {s : State} (run : s.power.mode = .run) (dest xfer cause : Nat) :
    (s.unreachable dest xfer cause).unrouted = s.unrouted := by
  unfold State.unreachable
  split
  · exact State.jobFatal_unrouted run _
  · rfl

theorem State.sendOwn_unrouted {s : State} (run : s.power.mode = .run) (dest cls xfer : Nat) (b : Bytes) :
    (s.sendOwn dest cls xfer b).unrouted = s.unrouted := by
  unfold State.sendOwn
  split
  · rfl
  · rfl
  · split
    · rfl
    · exact State.unreachable_unrouted run ..

/-- A fold that keeps it, step by step, in RUN. -/
theorem foldl_unrouted {β : Type} (f : State → β → State) (step : ∀ (s : State) x, s.power.mode = .run → (f s x).unrouted = s.unrouted)
    (l : List β) {s : State} (run : s.power.mode = .run) : (l.foldl f s).unrouted = s.unrouted := by
  induction l generalizing s with
  | nil => rfl
  | cons x l ih => exact (ih (State.run_of_unrouted (step s x run) run)).trans (step s x run)

theorem State.leave_unrouted (s : State) (src : UnitSrc) (u : LUnit) : (s.leave src u).unrouted = s.unrouted := by
  cases src <;> rfl

theorem State.landFabric_unrouted {s t : State} {xfer : Nat} {b : Bytes} (landed : s.landFabric xfer b = some t) : t.unrouted = s.unrouted := by
  unfold State.landFabric at landed
  split at landed
  · cases landed
  · dsimp only at landed
    split at landed
    · cases landed
    · cases landed
      rfl

theorem State.pumpUnit_unrouted (x : State × List TxItem × List Nat) (it : TxItem) (k : Nat) :
    (State.pumpUnit x it k).1.unrouted = x.1.unrouted := by
  unfold State.pumpUnit
  split
  · rfl
  · split
    next landed => exact (State.leave_unrouted ..).trans (State.landFabric_unrouted landed)
    · rfl

theorem State.switchPump_unrouted (s : State) : s.switchPump.unrouted = s.unrouted := by
  unfold State.switchPump
  generalize pumped : List.foldl _ _ s.fab.switch = r
  have kept : r.1.unrouted = s.unrouted := by
    rw [← pumped]
    exact foldl_keeps (fun x : State × List TxItem × List Nat => x.1.unrouted) _ (fun x it => State.pumpUnit_unrouted x it _) _ _
  exact kept

/-- Units that are cut go to their port, or, for the module's own rank, to the port switch. -/
def State.cutFor (s : State) (p xfer : Nat) (items : List TxItem) : State :=
  if p = 16 && (s.expected xfer).isNone then s.jobFatal 0x0602
  else if p = 16 then (s.withFab { s.fab with switch := s.fab.switch ++ items }).switchPump
  else s.setPort p { s.port p with txq := (s.port p).txq ++ items }

theorem State.cutFor_unrouted {s : State} (run : s.power.mode = .run) (p xfer : Nat) (items : List TxItem) :
    (s.cutFor p xfer items).unrouted = s.unrouted := by
  unfold State.cutFor
  split
  · exact State.jobFatal_unrouted run _
  split
  · exact (State.switchPump_unrouted _).trans rfl
  · rfl

theorem State.cutOne_unrouted {s t : State} (run : s.power.mode = .run) {c h : Nat} (cut : s.cutOne c h = some t) : t.unrouted = s.unrouted := by
  unfold State.cutOne at cut
  dsimp only at cut
  split at cut
  · cases cut
  split at cut
  · cases cut
  split at cut
  · cases cut
    exact State.jobFatal_unrouted run _
  · obtain rfl := Option.some.inj cut
    refine Eq.trans (State.cutFor_unrouted ?_ _ _ _) ?_
    · exact run
    · rfl

theorem State.cutAll_unrouted (n c h : Nat) {s : State} (run : s.power.mode = .run) : (State.cutAll n c h s).unrouted = s.unrouted := by
  induction n generalizing s with
  | zero => rfl
  | succ n ih =>
    rw [State.cutAll]
    split
    · rfl
    split
    next t cut =>
      have same := State.cutOne_unrouted run cut
      exact (ih (State.run_of_unrouted same run)).trans same
    · rfl

theorem State.cutSends_unrouted {s : State} (run : s.power.mode = .run) : s.cutSends.unrouted = s.unrouted :=
  foldl_unrouted _ (fun s e run => by
    split
    · exact State.cutAll_unrouted _ _ _ run
    · rfl) _ run

theorem State.uncut_unrouted (s : State) (c h : Nat) : (s.uncut c h).unrouted = s.unrouted := by
  unfold State.uncut
  exact foldl_keeps State.unrouted (fun s (r : QReq) => s.dropItems r.tid) (fun _ _ => rfl) _ s

theorem State.recut_unrouted {s : State} (run : s.power.mode = .run) : s.recut.unrouted = s.unrouted := by
  unfold State.recut
  dsimp only
  have dropped : (s.fab.owns.foldl (fun s o => s.dropItems o.tid) (s.withFab { s.fab with owns := [] })).unrouted = s.unrouted :=
    (foldl_keeps State.unrouted (fun s (o : OwnXfer) => s.dropItems o.tid) (fun _ _ => rfl) _ _).trans rfl
  generalize s.fab.owns.foldl (fun s o => s.dropItems o.tid) (s.withFab { s.fab with owns := [] }) = u at dropped
  have sent := foldl_unrouted (fun s (o : OwnXfer) => match o.port with
    | some p => s.putOwn p o.dest o.cls o.xfer true o.data
    | none => s.sendOwn o.dest o.cls o.xfer o.data) (fun s o run => by
      split
      · rfl
      · exact State.sendOwn_unrouted run ..) s.fab.owns (State.run_of_unrouted dropped run)
  generalize s.fab.owns.foldl _ u = w at sent ⊢
  have cut : (w.queues.foldl (fun s e => if e.2.kind = .fabricSend then s.uncut (e.1 / 32) (e.1 % 32) else s) w).unrouted = w.unrouted :=
    foldl_keeps State.unrouted _ (fun s e => by
      split
      · exact State.uncut_unrouted ..
      · rfl) _ _
  have all := cut.trans (sent.trans dropped)
  exact (State.cutSends_unrouted (State.run_of_unrouted all run)).trans all

/-- With nothing of this module under way nothing is routed anew. -/
theorem State.recut_calm {s : State} (none : s.fab.owns = []) (sendless : ∀ e ∈ s.queues, e.2.kind ≠ .fabricSend) : s.recut = s := by
  have same : s.withFab { s.fab with owns := [] } = s := by rw [← none]; rfl
  have cut : s.queues.foldl (fun s e => if e.2.kind = .fabricSend then s.uncut (e.1 / 32) (e.1 % 32) else s) s = s := by
    have all : ∀ l : List (Nat × Queue), (∀ e ∈ l, e.2.kind ≠ .fabricSend) →
        l.foldl (fun s e => if e.2.kind = .fabricSend then s.uncut (e.1 / 32) (e.1 % 32) else s) s = s := fun l => by
      induction l with
      | nil => exact fun _ => rfl
      | cons e l ih =>
        intro each
        rw [List.foldl_cons, if_neg (each e List.mem_cons_self)]
        exact ih fun e mem => each e (List.mem_cons_of_mem _ mem)
    exact all _ sendless
  unfold State.recut
  dsimp only
  rw [none, List.foldl_nil, List.foldl_nil]
  refine Eq.trans ?_ (State.cutSends_none sendless)
  rw [show s.withFab { s.fab with owns := [] } = s from same, cut]

/-! ### FENCE (R391, R409) -/

/-- A fenced port gives up the units of this module. -/
def State.fencePort (s : State) (p : Nat) : State :=
  ((s.port p).txq.filter TxItem.caught).foldl (fun s i => s.unreachable i.unit.dest i.unit.xfer 1)
    (s.setPort p { s.port p with txq := (s.port p).txq.filter fun i => !i.caught })

theorem State.fenceSources_eq (s : State) : s.fenceSources = ((List.range 16).filter s.recut.fenced).foldl State.fencePort s.recut := rfl

theorem State.unreachable_ports {s : State} (run : s.power.mode = .run) (dest xfer cause : Nat) :
    (s.unreachable dest xfer cause).ports = s.ports := by
  unfold State.unreachable
  split
  · exact State.jobFatal_ports run ..
  · rfl

theorem State.fencePort_shows {s : State} (run : s.power.mode = .run) (p : Nat) : (s.fencePort p).unrouted = s.unrouted ∧
    (s.fencePort p).ports = (s.setPort p { s.port p with txq := (s.port p).txq.filter fun i => !i.caught }).ports := by
  have both : ∀ (l : List TxItem) (u : State), u.power.mode = .run →
      (l.foldl (fun s i => s.unreachable i.unit.dest i.unit.xfer 1) u).unrouted = u.unrouted ∧
        (l.foldl (fun s i => s.unreachable i.unit.dest i.unit.xfer 1) u).ports = u.ports := by
    intro l
    induction l with
    | nil => exact fun _ _ => ⟨rfl, rfl⟩
    | cons i l ih =>
      intro u run
      have same := State.unreachable_unrouted run i.unit.dest i.unit.xfer 1
      obtain ⟨kept, ports⟩ := ih _ (State.run_of_unrouted same run)
      exact ⟨kept.trans same, ports.trans (State.unreachable_ports run ..)⟩
  obtain ⟨kept, ports⟩ := both ((s.port p).txq.filter TxItem.caught)
    (s.setPort p { s.port p with txq := (s.port p).txq.filter fun i => !i.caught }) run
  exact ⟨kept.trans rfl, ports⟩

/-- No unit of this module waits at a port. -/
def LinkPort.freeOfOwn (x : LinkPort) : Prop := ∀ i ∈ x.txq, i.caught = false

theorem State.fencePort_frees {s : State} (run : s.power.mode = .run) (p q : Nat) (free : q = p ∨ (s.port q).freeOfOwn) :
    ((s.fencePort p).port q).freeOfOwn := by
  obtain ⟨-, ports⟩ := State.fencePort_shows run p
  rw [State.port_of_ports ports]
  by_cases own : q = p
  · rw [own, State.port_setPort]
    intro i mem
    simpa using (List.mem_filter.mp mem).2
  · rw [State.port_setPort_other _ _ own]
    exact free.resolve_left own

theorem foldl_fencePort_frees (l : List Nat) {s : State} (run : s.power.mode = .run) (q : Nat) (free : q ∈ l ∨ (s.port q).freeOfOwn) :
    ((l.foldl State.fencePort s).port q).freeOfOwn := by
  induction l generalizing s with
  | nil => exact free.resolve_left List.not_mem_nil
  | cons p l ih =>
    obtain ⟨same, -⟩ := State.fencePort_shows run p
    refine ih (State.run_of_unrouted same run) ?_
    rcases free with listed | free
    · rcases List.mem_cons.mp listed with own | later
      · exact .inr (State.fencePort_frees run p q (.inl own))
      · exact .inl later
    · exact .inr (State.fencePort_frees run p q (.inr free))

theorem State.fencePort_calm {s : State} {p : Nat} (empty : (s.port p).txq = []) :
    ({ s.fencePort p with ports := s.ports } : State) = s ∧ ∀ q, (s.fencePort p).port q = s.port q := by
  have eq : s.fencePort p = s.setPort p (s.port p) := by
    unfold State.fencePort
    rw [empty, List.filter_nil, List.filter_nil, List.foldl_nil, ← empty]
  rw [eq]
  refine ⟨rfl, fun q => ?_⟩
  by_cases own : q = p
  · rw [own, State.port_setPort]
  · rw [State.port_setPort_other _ _ own]

theorem foldl_fencePort_calm (l : List Nat) {s : State} (empty : ∀ p, (s.port p).txq = []) :
    ({ l.foldl State.fencePort s with ports := s.ports } : State) = s ∧ ∀ q, (l.foldl State.fencePort s).port q = s.port q := by
  induction l generalizing s with
  | nil => exact ⟨rfl, fun _ => rfl⟩
  | cons p l ih =>
    obtain ⟨rest, ports⟩ := State.fencePort_calm (empty p)
    obtain ⟨rest', ports'⟩ := ih (s := s.fencePort p) fun q => by rw [ports]; exact empty q
    exact ⟨(congrArg (fun u : State => { u with ports := s.ports }) rest').trans rest, fun q => (ports' q).trans (ports q)⟩

/-- The mask FENCE asks for. -/
def State.fenceMask (s : State) (b : Bytes) : Nat :=
  (List.range 16).foldl (fun n i => n + bitAt i ((bit s.fab.fence i && !bit (fld b 0 2) i) || bit (fld b 2 2) i)) 0

theorem State.fenceSources_shows {s : State} (run : s.power.mode = .run) : s.fenceSources.unrouted = s.unrouted ∧
    ∀ p, p < 16 → bit s.fab.fence p = true → (s.fenceSources.port p).freeOfOwn := by
  have same := State.recut_unrouted run
  have run' := State.run_of_unrouted same run
  rw [State.fenceSources_eq]
  refine ⟨(foldl_unrouted _ (fun s p run => (State.fencePort_shows run p).1) _ run').trans same, fun p low fenced =>
    foldl_fencePort_frees _ run' p (.inl (List.mem_filter.mpr ⟨List.mem_range.mpr low, ?_⟩))⟩
  have fence : s.recut.fab.fence = s.fab.fence := (Prod.mk.inj same).1
  unfold State.fenced
  rw [fence]
  exact fenced

/-- With nothing of this module under way a fence changes no port. -/
theorem State.fenceSources_calm {s : State} (owns : s.fab.owns = []) (sendless : ∀ e ∈ s.queues, e.2.kind ≠ .fabricSend)
    (empty : ∀ p, (s.port p).txq = []) :
    ({ s.fenceSources with ports := s.ports } : State) = s ∧ ∀ p, s.fenceSources.port p = s.port p := by
  rw [State.fenceSources_eq, State.recut_calm owns sendless]
  exact foldl_fencePort_calm _ empty

theorem fence_sets {s : State} {ch : Nat} {c : Cmd} (turn : s.carries ch 0x0506 c) (len : c.length = 4) :
    ∃ t, answered (.fence ch) s ch t (.ok (leBytes 2 t.fab.fence)) ∧ t.fab.fence < 2 ^ 16 ∧
      (∀ i, i < 16 → bit t.fab.fence i = ((bit s.fab.fence i && !bit (fld c.payload 0 2) i) || bit (fld c.payload 2 2) i)) ∧
      (∀ p, p < 16 → bit t.fab.fence p = true → ∀ x ∈ (t.port p).txq, x.caught = false) ∧
      t.job.state = s.job.state ∧ t.cores = s.cores ∧ t.ss = s.ss ∧ t.far = s.far ∧ t.power = s.power ∧
      (s.fab.owns = [] → (∀ e ∈ s.queues, e.2.kind ≠ .fabricSend) → (∀ p, (s.port p).txq = []) →
        ({ t with ports := (s.accepted ch c).ports, fab := { t.fab with fence := (s.accepted ch c).fab.fence } } : State) = s.accepted ch c ∧
          ∀ p, t.port p = s.port p) := by
  obtain ⟨w, masked⟩ : ∃ w : State, w = (s.accepted ch c).withFab { (s.accepted ch c).fab with fence := (s.accepted ch c).fenceMask c.payload } :=
    ⟨_, rfl⟩
  have mask := bit_foldl_bitAt (fun i => (bit s.fab.fence i && !bit (fld c.payload 0 2) i) || bit (fld c.payload 2 2) i) 16
  have shown : w.fab.fence = (List.range 16).foldl (fun n i =>
      n + bitAt i ((bit s.fab.fence i && !bit (fld c.payload 0 2) i) || bit (fld c.payload 2 2) i)) 0 ∧ w.power = s.power ∧
      (w.job, w.cores, w.ss, w.far) = (s.job, s.cores, s.ss, s.far) ∧ w.host = (s.accepted ch c).host ∧ w.fab.owns = s.fab.owns ∧
      w.queues = s.queues ∧ w.ports = s.ports := by
    rw [masked]
    exact ⟨rfl, rfl, rfl, rfl, rfl, rfl, rfl⟩
  obtain ⟨fence, power, kept, host, owns, queues, ports⟩ := shown
  have run : w.power.mode = .run := by
    obtain ⟨-, -, -, -, -, -, -, run, -⟩ := turn
    rw [power, run]
  have act : fenceCmd.act (s.accepted ch c) ch c.payload = .done w.fenceSources (.ok (leBytes 2 w.fab.fence)) := by
    rw [masked]
    exact rfl
  obtain ⟨same, free⟩ := State.fenceSources_shows run
  obtain ⟨fence', same⟩ := Prod.mk.inj same
  obtain ⟨state, same⟩ := Prod.mk.inj same
  obtain ⟨stores, same⟩ := Prod.mk.inj same
  obtain ⟨cores, stores⟩ := Prod.mk.inj stores
  obtain ⟨ss, far⟩ := Prod.mk.inj stores
  obtain ⟨power', same⟩ := Prod.mk.inj same
  obtain ⟨order, chans⟩ := Prod.mk.inj same
  obtain ⟨job₀, kept⟩ := Prod.mk.inj kept
  obtain ⟨cores₀, kept⟩ := Prod.mk.inj kept
  obtain ⟨ss₀, far₀⟩ := Prod.mk.inj kept
  rw [← fence] at mask
  rw [← fence'] at act mask free
  refine ⟨w.fenceSources, answered_done (p := fenceCmd) rfl turn (decide_eq_true len) rfl rfl act
      ((order.trans (congrArg HostBlk.order host)).trans rfl) (chans.trans (congrArg HostBlk.chans host)), mask.1, mask.2, free,
    state.trans (congrArg JobStatus.state job₀), cores.trans cores₀, ss.trans ss₀, far.trans far₀, power'.trans power, fun none sendless empty => ?_⟩
  obtain ⟨rest, each⟩ := State.fenceSources_calm (owns.trans none) (queues.symm ▸ sendless) fun p => by
    rw [State.port_of_ports (s := s) ports]
    exact empty p
  refine ⟨?_, fun p => (each p).trans (State.port_of_ports ports p)⟩
  refine (congrArg (fun u : State => ({ u with
    ports := (s.accepted ch c).ports, fab := { u.fab with fence := (s.accepted ch c).fab.fence } } : State)) rest).trans ?_
  rw [masked]
  exact rfl

/-! ### LINK_CFG (R376) -/

/-- The fields of LINK_CFG's payload on a port. -/
def LinkPort.configured (x : LinkPort) (b : Bytes) : LinkPort :=
  { x with
    e2eClass := if bit (fld b 2 2) 1 then fld b 5 1 else x.e2eClass
    x8Test := if bit (fld b 2 2) 2 then fld b 6 1 = 1 else x.x8Test
    replayNs := if bit (fld b 2 2) 4 then fld b 8 2 else x.replayNs
    nakNs := if bit (fld b 2 2) 5 then fld b 10 2 else x.nakNs
    e2eNs := if bit (fld b 2 2) 6 then fld b 12 4 else x.e2eNs
    downMs := if bit (fld b 2 2) 7 then fld b 16 2 else x.downMs
    mode := if bit (fld b 2 2) 0 then fld b 4 1 else x.mode }

/-- The ports LINK_CFG names, one after another. -/
def State.linkCfgs (s : State) (b : Bytes) : State := (List.range 16).foldl (fun s p => if bit (fld b 0 2) p then s.linkCfg b p else s) s

/-- A port with its new fields, in training where its mode is set. -/
def State.linkSet (s : State) (b : Bytes) (p : Nat) : State :=
  if bit (fld b 2 2) 0 then (s.setPort p ((s.port p).configured b)).startTraining p else s.setPort p ((s.port p).configured b)

theorem State.linkCfg_eq (s : State) (b : Bytes) (p : Nat) :
    s.linkCfg b p = if bit (fld b 2 2) 3 && fld b 7 1 = 1 then (s.linkSet b p).retrain p 3 else s.linkSet b p := rfl

theorem State.linkCfg_plain {s : State} {b : Bytes} (untrained : bit (fld b 2 2) 0 = false) (kept : bit (fld b 2 2) 3 = false) (p : Nat) :
    s.linkCfg b p = s.setPort p ((s.port p).configured b) := by
  rw [State.linkCfg_eq, kept, State.linkSet, untrained]
  exact rfl

theorem State.linkCfg_trains {s : State} {b : Bytes} (trained : bit (fld b 2 2) 0 = true) (kept : bit (fld b 2 2) 3 = false) (p : Nat) :
    s.linkCfg b p = (s.setPort p ((s.port p).configured b)).startTraining p := by
  rw [State.linkCfg_eq, kept, State.linkSet, trained]
  exact rfl

theorem State.linkCfg_retrains {s : State} {b : Bytes} (untrained : bit (fld b 2 2) 0 = false) (anew : bit (fld b 2 2) 3 = true)
    (asked : fld b 7 1 = 1) (p : Nat) : s.linkCfg b p = (s.setPort p ((s.port p).configured b)).retrain p 3 := by
  rw [State.linkCfg_eq, anew, asked, State.linkSet, untrained]
  exact rfl

/-- Steps that each change one port change the ports of a list that a mask names, each as its step does. -/
theorem foldl_onPorts {f : State → Nat → State} (on : Nat → Bool) (R : LinkPort → LinkPort → Prop)
    (own : ∀ (s : State) p, R (s.port p) ((f s p).port p)) (others : ∀ (s : State) p q, q ≠ p → (f s p).port q = s.port q) {l : List Nat}
    (once : l.Nodup) (s : State) (q : Nat) :
    (q ∈ l → on q = true → R (s.port q) ((l.foldl (fun s p => if on p then f s p else s) s).port q)) ∧
      (on q = false → (l.foldl (fun s p => if on p then f s p else s) s).port q = s.port q) ∧
      (q ∉ l → (l.foldl (fun s p => if on p then f s p else s) s).port q = s.port q) := by
  induction l generalizing s with
  | nil => exact ⟨fun mem => absurd mem List.not_mem_nil, fun _ => rfl, fun _ => rfl⟩
  | cons p l ih =>
    obtain ⟨fresh, once⟩ := List.nodup_cons.mp once
    rw [List.foldl_cons]
    obtain ⟨changed, unset, absent⟩ := ih once (if on p then f s p else s)
    have other : q ≠ p → (if on p then f s p else s).port q = s.port q := fun other => by
      split
      · exact others s p q other
      · rfl
    refine ⟨fun mem set => ?_, fun off => ?_, fun away => ?_⟩
    · by_cases same : q = p
      · subst same
        rw [absent fresh, if_pos set]
        exact own s q
      · rw [← other same]
        exact changed ((List.mem_cons.mp mem).resolve_left same) set
    · rw [unset off]
      by_cases same : q = p
      · subst same
        rw [if_neg (by rw [off]; decide)]
      · exact other same
    · rw [absent fun mem => away (List.mem_cons_of_mem _ mem)]
      exact other fun same => away (same ▸ List.mem_cons_self)

/-- An ACTIVE port that is asked to train again (R362). -/
def LinkPort.askedAnew (x : LinkPort) (gsc : Nat) : LinkPort :=
  { x with
    state := .retraining, phase := 1, phaseAt := gsc, trainAt := gsc, frameKey := [], frameRun := 0, inj := none, echo := 0, pat := .init
    peerValid := false, retrains := satAdd 16 x.retrains 1, lastCause := 3 }

theorem State.retrain_asked (s : State) (p : Nat) : s.retrain p 3 =
    if (s.port p).state = .active then (s.setPort p ((s.port p).askedAnew s.gsc)).event 0x0504 3#64 else s := by
  by_cases active : (s.port p).state = .active
  · rw [if_pos active]
    exact (if_neg (not_not.mpr active)).trans rfl
  · rw [if_neg active]
    exact if_pos active

/-- What the links' own commands leave of the module besides its ports. -/
def State.unlinked (s : State) := (s.fab.owns, s.queues, s.host.order, s.host.chans)

theorem State.linkCfg_unlinked {s : State} {b : Bytes} (p : Nat) : (s.linkCfg b p).unlinked = s.unlinked := by
  have set : (s.linkSet b p).unlinked = s.unlinked := by
    unfold State.linkSet
    split <;> rfl
  rw [State.linkCfg_eq]
  split
  · refine Eq.trans ?_ set
    generalize s.linkSet b p = u
    rw [State.retrain_asked]
    split
    · unfold State.unlinked
      rw [State.event_fab, State.event_queues, State.event_host_order, State.event_host_chans]
      exact rfl
    · rfl
  · exact set

theorem State.linkCfgs_unlinked (s : State) (b : Bytes) : (s.linkCfgs b).unlinked = s.unlinked :=
  foldl_keeps State.unlinked _ (fun s p => by
    split
    · exact State.linkCfg_unlinked p
    · rfl) _ s

section LinkConfig

variable {s : State} {ch : Nat} {c : Cmd} (turn : s.carries ch 0x0501 c) (len : c.length = 18) (apply : fld c.payload 2 2 < 256)
  (mode : fld c.payload 4 1 ≤ 3) (classes : fld c.payload 5 1 ≤ 7) (x8 : fld c.payload 6 1 ≤ 1) (again : fld c.payload 7 1 ≤ 1)
include turn len apply mode classes x8 again

theorem linkCfg_refused (test : bit (fld c.payload 2 2) 2 = true) (asked : fld c.payload 6 1 = 1) (active : s.job.state.active = true) :
    answered (.linkCfg ch) s ch (s.accepted ch c) (.of .state) := by
  refine answered_kept (p := linkCfgCmd) rfl turn (decide_eq_true len) (by simp [linkCfgCmd, apply, mode, classes, x8, again]) rfl (if_pos ?_) rfl
  rw [test, asked, show (s.accepted ch c).job.state.active = true from active]
  decide

variable (owns : s.fab.owns = []) (sendless : ∀ e ∈ s.queues, e.2.kind ≠ .fabricSend)
  (free : bit (fld c.payload 2 2) 2 = false ∨ fld c.payload 6 1 = 0 ∨ s.job.state.active = false)
include owns sendless free

/-- The command that is not refused, where nothing of this module is under way. -/
theorem linkCfg_answers : answered (.linkCfg ch) s ch ((s.accepted ch c).linkCfgs c.payload) .ok := by
  have kept := (s.accepted ch c).linkCfgs_unlinked c.payload
  have goes : ¬(bit (fld c.payload 2 2) 2 && decide (fld c.payload 6 1 = 1) && (s.accepted ch c).job.state.active) = true := by
    rw [show (s.accepted ch c).job.state.active = s.job.state.active from rfl]
    rcases free with unset | none | idle
    · simp [unset]
    · simp [none]
    · simp [idle]
  have act : linkCfgCmd.act (s.accepted ch c) ch c.payload = .done ((s.accepted ch c).linkCfgs c.payload).recut .ok := if_neg goes
  obtain ⟨owns', kept⟩ := Prod.mk.inj kept
  obtain ⟨queues, kept⟩ := Prod.mk.inj kept
  obtain ⟨order, chans⟩ := Prod.mk.inj kept
  rw [State.recut_calm (owns'.trans owns) fun e mem => sendless e (queues ▸ mem)] at act
  exact answered_done (p := linkCfgCmd) rfl turn (decide_eq_true len) (by simp [linkCfgCmd, apply, mode, classes, x8, again]) rfl act
    (order.trans rfl) chans

theorem linkCfg_sets (untrained : bit (fld c.payload 2 2) 0 = false) (kept : bit (fld c.payload 2 2) 3 = false) : ∃ t,
    answered (.linkCfg ch) s ch t .ok ∧
      (∀ p, p < 16 → t.port p = if bit (fld c.payload 0 2) p = true then (s.port p).configured c.payload else s.port p) ∧
      ({ t with ports := (s.accepted ch c).ports } : State) = s.accepted ch c := by
  have eq : (s.accepted ch c).linkCfgs c.payload = (List.range 16).foldl (fun s p => if bit (fld c.payload 0 2) p then
      s.setPort p ((s.port p).configured c.payload) else s) (s.accepted ch c) := by
    unfold State.linkCfgs
    congr 1
    funext s p
    rw [State.linkCfg_plain untrained kept]
  refine ⟨_, linkCfg_answers turn len apply mode classes x8 again owns sendless free, fun p low => ?_, ?_⟩
  · rw [eq]
    refine (foldl_setPort_port (fun x => x.configured c.payload) (bit (fld c.payload 0 2)) (List.nodup_range (n := 16)) _ p).trans ?_
    have there : p ∈ List.range 16 := List.mem_range.mpr low
    have same : (s.accepted ch c).port p = s.port p := rfl
    simp only [there, true_and, same]
  · rw [eq]
    exact foldl_setPort_rest (fun x => x.configured c.payload) (bit (fld c.payload 0 2)) (List.range 16) (s.accepted ch c)

theorem linkCfg_trains (trained : bit (fld c.payload 2 2) 0 = true) (kept : bit (fld c.payload 2 2) 3 = false) : ∃ t,
    answered (.linkCfg ch) s ch t .ok ∧
      (∀ p, p < 16 → bit (fld c.payload 0 2) p = true → (t.port p).mode = fld c.payload 4 1 ∧
        (t.port p).state = (if fld c.payload 4 1 = 0 then .off else .training)) ∧
      (∀ p, p < 16 → bit (fld c.payload 0 2) p = false → t.port p = s.port p) := by
  have shown := foldl_onPorts (f := fun s p => s.linkCfg c.payload p) (bit (fld c.payload 0 2))
    (fun _ y => y.mode = fld c.payload 4 1 ∧ y.state = (if fld c.payload 4 1 = 0 then .off else .training))
    (fun u p => by
      have mode : ((u.port p).configured c.payload).dropHeld.mode = fld c.payload 4 1 := (LinkPort.dropHeld_mode _).trans (if_pos trained)
      rw [State.linkCfg_trains trained kept]
      unfold State.startTraining
      dsimp only
      rw [State.port_setPort, State.port_setPort]
      exact ⟨mode, by rw [mode]⟩)
    (fun u p q other => by
      rw [State.linkCfg_trains trained kept]
      exact (State.port_setPort_other _ _ other).trans (State.port_setPort_other _ _ other))
    (List.nodup_range (n := 16)) (s.accepted ch c)
  exact ⟨_, linkCfg_answers turn len apply mode classes x8 again owns sendless free,
    fun p low set => (shown p).1 (List.mem_range.mpr low) set, fun p _ unset => (shown p).2.1 unset⟩

theorem linkCfg_retrains {p : Nat} (low : p < 16) (only : fld c.payload 0 2 = 2 ^ p) (untrained : bit (fld c.payload 2 2) 0 = false)
    (anew : bit (fld c.payload 2 2) 3 = true) (asked : fld c.payload 7 1 = 1) (active : (s.port p).state = .active) : ∃ t,
    answered (.linkCfg ch) s ch t .ok ∧ (t.port p).state = .retraining ∧ (t.port p).lastCause = 3 ∧ ∀ q, q ≠ p → t.port q = s.port q := by
  have named : ∀ q, bit (fld c.payload 0 2) q = decide (p = q) := fun q => by
    rw [only, ← Nat.testBit_two_pow]
    exact Nat.testBit_eq_decide_div_mod_eq.symm
  have ports : ∀ (u : State) q, (u.linkCfg c.payload q).ports = if (u.port q).state = .active then
        ((u.setPort q ((u.port q).configured c.payload)).setPort q (((u.port q).configured c.payload).askedAnew u.gsc)).ports
      else (u.setPort q ((u.port q).configured c.payload)).ports := fun u q => by
    have state : ((u.port q).configured c.payload).state = (u.port q).state := rfl
    rw [State.linkCfg_retrains untrained anew asked, State.retrain_asked, State.port_setPort, state]
    split
    · exact (State.event_ports ..).trans rfl
    · rfl
  have shown := foldl_onPorts (f := fun s p => s.linkCfg c.payload p) (bit (fld c.payload 0 2))
    (fun x y => x.state = .active → y.state = .retraining ∧ y.lastCause = 3)
    (fun u q active => by
      rw [State.port_of_ports ((ports u q).trans (if_pos active)), State.port_setPort]
      exact ⟨rfl, rfl⟩)
    (fun u r q other => by
      have kept := ports u r
      split at kept
      · rw [State.port_of_ports kept, State.port_setPort_other _ _ other, State.port_setPort_other _ _ other]
      · rw [State.port_of_ports kept, State.port_setPort_other _ _ other])
    (List.nodup_range (n := 16)) (s.accepted ch c)
  obtain ⟨state, cause⟩ := (shown p).1 (List.mem_range.mpr low) (by rw [named]; exact decide_eq_true rfl) active
  exact ⟨_, linkCfg_answers turn len apply mode classes x8 again owns sendless free, state, cause,
    fun q other => (shown q).2.1 (by rw [named]; exact decide_eq_false (Ne.symm other))⟩

end LinkConfig

/-! ### ROUTE_LOAD (R389, R394) -/

theorem fld_byte {b : Bytes} {o : Nat} (low : o < b.length) : fld b o 1 = b[o].toNat := by
  rw [fld, sub, List.take_one_drop_eq_of_lt_length low]
  simp [leNat]

/-- A directory read from bytes. -/
theorem getD_map_sub {b : Bytes} {o n d : Nat} (fits : o + n ≤ b.length) (low : d < n) :
    ((sub b o n).map (·.toNat)).getD d 0 = fld b (o + d) 1 := by
  have there : d < ((sub b o n).map (·.toNat)).length := by rw [List.length_map, sub_length fits]; exact low
  rw [List.getD_eq_getElem _ _ there, fld_byte (by omega)]
  simp [sub]

/-- A table of which a run of entries is written. -/
theorem foldl_put_find {α : Type} (g : Nat → α) (d : α) (first n : Nat) (m : Map α) (j : Nat) :
    ((List.range n).foldl (fun m i => m.put (first + i) (g i)) m).find d j =
      if first ≤ j ∧ j < first + n then g (j - first) else m.find d j := by
  induction n with
  | zero => rw [if_neg (by omega)]; rfl
  | succ n ih =>
    rw [List.range_succ, List.foldl_append, List.foldl_cons, List.foldl_nil]
    by_cases last : j = first + n
    · rw [last, Map.find_put_same, if_pos (by omega), Nat.add_sub_cancel_left]
    · rw [Map.find_put_other _ _ _ last, ih]
      by_cases inside : first ≤ j ∧ j < first + n
      · rw [if_pos inside, if_pos (by omega)]
      · rw [if_neg inside, if_neg (by omega)]

theorem State.bank_setBank (s : State) (k : Nat) (x : Bank) : (s.setBank k x).bank k = x := Map.find_put_same ..

theorem State.bank_setBank_other (s : State) {k j : Nat} (x : Bank) (other : j ≠ k) : (s.setBank k x).bank j = s.bank j :=
  Map.find_put_other _ _ _ other

/-- A bank with pods from ROUTE_LOAD's payload. -/
def Bank.podsFrom (x : Bank) (b : Bytes) : Bank :=
  { x with pod := (List.range (fld b 4 2)).foldl (fun m i => m.put (fld b 2 2 + i) (fld b (20 + i) 1)) x.pod, state := .loaded }

/-- A bank filled from the start. -/
def Bank.fromStart (x : Bank) (b : Bytes) : Bank := { x with dir := (sub b 8 12).map (·.toNat), pod := [] }

section RouteLoad

variable {s : State} {ch : Nat} {c : Cmd} (turn : s.carries ch 0x0502 c) (pods : fld c.payload 4 2 ≤ 2048)
  (len : c.length = 20 + fld c.payload 4 2) (whole : c.payload.length = c.length) (zero : zeroAt c.payload 6 2 = true)
  (which : fld c.payload 0 1 ≤ 1) (first : fld c.payload 1 1 ≤ 1)
include turn pods len whole zero which first

/-- The command answers what its act has. -/
theorem routeLoad_of {t : State} {r : Reply} (act : routeLoad.act (s.accepted ch c) ch c.payload = .done t r)
    (kept : t.host = (s.accepted ch c).host) : answered (.routeLoad ch) s ch t r :=
  answered_kept (p := routeLoad) rfl turn (by simp [routeLoad]; omega) (by simp [routeLoad, which, first, pods, zero]; omega) rfl act kept

theorem routeLoad_busy (busy : (s.bank (fld c.payload 0 1)).state = .active ∨ (s.bank (fld c.payload 0 1)).state = .draining) :
    answered (.routeLoad ch) s ch (s.accepted ch c) (.of .state) := by
  refine routeLoad_of turn pods len whole zero which first (if_pos ?_) rfl
  rw [Bool.or_eq_true]
  exact busy.imp decide_eq_true decide_eq_true

variable (idle : (s.bank (fld c.payload 0 1)).state ≠ .active) (still : (s.bank (fld c.payload 0 1)).state ≠ .draining)
  (fits : fld c.payload 2 2 + fld c.payload 4 2 ≤ 4096)
include idle still fits

omit turn pods len whole zero which in
/-- What the command does with a bank that is not in use, when its ports are good. -/
theorem routeLoad_act (podPorts : ∀ x ∈ c.payload.drop 20, x.toNat ≤ 15 ∨ x.toNat = 31)
    (dirPorts : fld c.payload 1 1 = 1 → ∀ x ∈ c.payload.drop 8, x.toNat ≤ 15 ∨ x.toNat = 31) :
    routeLoad.act (s.accepted ch c) ch c.payload =
      if fld c.payload 1 1 = 1 then .done ((s.accepted ch c).setBank (fld c.payload 0 1)
        (((s.bank (fld c.payload 0 1)).fromStart c.payload).podsFrom c.payload)) .ok
      else if (s.bank (fld c.payload 0 1)).state ≠ .loaded then .done (s.accepted ch c) (.of .state)
      else .done ((s.accepted ch c).setBank (fld c.payload 0 1) ((s.bank (fld c.payload 0 1)).podsFrom c.payload)) .ok := by
  have good : ∀ o n : Nat, (∀ x ∈ c.payload.drop o, x.toNat ≤ 15 ∨ x.toNat = 31) →
      ((sub c.payload o n).all fun x => portOk x.toNat) = true := fun o n each =>
    List.all_eq_true.mpr fun x mem => by simpa [portOk] using each x (List.mem_of_mem_take mem)
  have podsGood := good 20 (fld c.payload 4 2) podPorts
  have free : ¬(decide ((s.bank (fld c.payload 0 1)).state = .active) || decide ((s.bank (fld c.payload 0 1)).state = .draining)) = true := by
    simp [idle, still]
  rcases Nat.le_one_iff_eq_zero_or_eq_one.mp first with later | start
  · have off : bit (fld c.payload 1 1) 0 = false := by rw [later]; rfl
    rw [if_neg (by omega)]
    refine (if_neg free).trans ((if_neg ?_).trans ?_)
    · rw [podsGood, off]
      simp
      omega
    · rw [off]
      by_cases loaded : (s.bank (fld c.payload 0 1)).state = .loaded
      · rw [if_neg (not_not.mpr loaded)]
        exact if_neg (by rw [Bool.not_false, Bool.true_and, decide_eq_true_eq]; exact not_not.mpr loaded)
      · rw [if_pos loaded]
        exact if_pos (by rw [Bool.not_false, Bool.true_and, decide_eq_true_eq]; exact loaded)
  · have on : bit (fld c.payload 1 1) 0 = true := by rw [start]; rfl
    have dirGood := good 8 12 (dirPorts start)
    rw [if_pos start]
    refine (if_neg free).trans ((if_neg ?_).trans ((if_neg ?_).trans ?_))
    · rw [podsGood, dirGood]
      simp
      omega
    · rw [on, Bool.not_true, Bool.false_and]
      decide
    · rw [on]
      exact rfl

/-- A bank filled from the start. -/
theorem routeLoad_starts (start : fld c.payload 1 1 = 1) (ports : ∀ x ∈ c.payload.drop 8, x.toNat ≤ 15 ∨ x.toNat = 31) : ∃ t,
    answered (.routeLoad ch) s ch t .ok ∧ (t.bank (fld c.payload 0 1)).state = .loaded ∧
      (∀ d, d < 12 → (t.bank (fld c.payload 0 1)).dir.getD d 0 = fld c.payload (8 + d) 1) ∧
      (∀ i, i < fld c.payload 4 2 → (t.bank (fld c.payload 0 1)).pod.find 0x1F (fld c.payload 2 2 + i) = fld c.payload (20 + i) 1) ∧
      t.bank (1 - fld c.payload 0 1) = s.bank (1 - fld c.payload 0 1) ∧
      ({ t with fab := { t.fab with banks := (s.accepted ch c).fab.banks } } : State) = s.accepted ch c := by
  have podPorts : ∀ x ∈ c.payload.drop 20, x.toNat ≤ 15 ∨ x.toNat = 31 := fun x mem =>
    ports x (List.mem_of_mem_drop (i := 12) (by rw [List.drop_drop]; exact mem))
  have act := (routeLoad_act (ch := ch) first idle still fits podPorts fun _ => ports).trans (if_pos start)
  refine ⟨_, routeLoad_of turn pods len whole zero which first act rfl, ?_, fun d low => ?_, fun i low => ?_,
    State.bank_setBank_other _ _ (by omega), rfl⟩
  · rw [State.bank_setBank]
    rfl
  · rw [State.bank_setBank]
    exact getD_map_sub (by omega) low
  · rw [State.bank_setBank]
    refine (foldl_put_find (fun i => fld c.payload (20 + i) 1) ..).trans ?_
    rw [if_pos (by omega), Nat.add_sub_cancel_left]

/-- One filled further. -/
theorem routeLoad_goes (later : fld c.payload 1 1 = 0) (ports : ∀ x ∈ c.payload.drop 20, x.toNat ≤ 15 ∨ x.toNat = 31) :
    ((s.bank (fld c.payload 0 1)).state ≠ .loaded → answered (.routeLoad ch) s ch (s.accepted ch c) (.of .state)) ∧
      ((s.bank (fld c.payload 0 1)).state = .loaded → ∃ t, answered (.routeLoad ch) s ch t .ok ∧
        (t.bank (fld c.payload 0 1)).dir = (s.bank (fld c.payload 0 1)).dir ∧ (t.bank (fld c.payload 0 1)).state = .loaded ∧
        ∀ i, (t.bank (fld c.payload 0 1)).pod.find 0x1F i =
          (if fld c.payload 2 2 ≤ i ∧ i < fld c.payload 2 2 + fld c.payload 4 2 then fld c.payload (20 + i - fld c.payload 2 2) 1
           else (s.bank (fld c.payload 0 1)).pod.find 0x1F i)) := by
  have act := (routeLoad_act (ch := ch) first idle still fits ports fun start => by omega).trans (if_neg (by omega))
  refine ⟨fun fresh => routeLoad_of turn pods len whole zero which first (act.trans (if_pos fresh)) rfl, fun loaded =>
    ⟨_, routeLoad_of turn pods len whole zero which first (act.trans (if_neg (not_not.mpr loaded))) rfl, ?_, ?_, fun i => ?_⟩⟩
  · rw [State.bank_setBank]
    rfl
  · rw [State.bank_setBank]
    rfl
  · rw [State.bank_setBank]
    refine (foldl_put_find (fun i => fld c.payload (20 + i) 1) ..).trans ?_
    split
    next inside => rw [show 20 + (i - fld c.payload 2 2) = 20 + i - fld c.payload 2 2 from by omega]
    next => rfl

end RouteLoad

/-! ### ROUTE_SWITCH, ROUTE_READ, RANK_READ (R380, R394) -/

section Routes

variable {s : State} {ch : Nat} {c : Cmd}

theorem routeSwitch_refused (turn : s.carries ch 0x0503 c) (len : c.length = 8)
    (early : (s.bank (1 - s.fab.active)).state ≠ .loaded ∨ fld c.payload 0 8 < s.gsc + 100000) :
    answered (.routeSwitch ch) s ch (s.accepted ch c) (.of .state) := by
  refine answered_kept (p := routeSwitch) rfl turn (decide_eq_true len) rfl rfl (if_pos ?_) rfl
  rw [Bool.or_eq_true]
  exact early.imp decide_eq_true decide_eq_true

theorem routeSwitch_sets (turn : s.carries ch 0x0503 c) (len : c.length = 8) (loaded : (s.bank (1 - s.fab.active)).state = .loaded)
    (later : s.gsc + 100000 ≤ fld c.payload 0 8) : answered (.routeSwitch ch) s ch { s.accepted ch c with
      fab := { (s.accepted ch c).fab with switchAt := fld c.payload 0 8, switchDue := true } } .ok := by
  refine answered_kept (p := routeSwitch) rfl turn (decide_eq_true len) rfl rfl (if_neg ?_) rfl
  rw [Bool.or_eq_true, not_or]
  exact ⟨fun other => of_decide_eq_true other loaded, fun early => Nat.not_lt.mpr later (of_decide_eq_true early)⟩

theorem BankState.code_lt (x : BankState) : x.code < 256 := by cases x <;> decide

theorem routeRead_reads (turn : s.carries ch 0x0504 c) (len : c.length = 6) (which : fld c.payload 0 1 ≤ 1) (zero : zeroAt c.payload 1 1 = true)
    (some_ : 1 ≤ fld c.payload 4 2) (few : fld c.payload 4 2 ≤ 2048) (fits : fld c.payload 2 2 + fld c.payload 4 2 ≤ 4096) :
    ∃ y, answered (.routeRead ch) s ch (s.accepted ch c) (.ok y) ∧ y.length = 20 + fld c.payload 4 2 ∧
      fld y 0 1 = (s.bank (fld c.payload 0 1)).state.code ∧
      (∀ d, d < 12 → fld y (8 + d) 1 = (s.bank (fld c.payload 0 1)).dir.getD d 0 % 256) ∧
      ∀ i, i < fld c.payload 4 2 → fld y (20 + i) 1 = (s.bank (fld c.payload 0 1)).pod.find 0x1F (fld c.payload 2 2 + i) % 256 := by
  refine ⟨_, answered_kept (p := routeRead) rfl turn (decide_eq_true len) (by simp [routeRead, which, zero, some_, few, fits]) rfl rfl rfl, ?_⟩
  rw [show (s.accepted ch c).bank (fld c.payload 0 1) = s.bank (fld c.payload 0 1) from rfl]
  generalize s.bank (fld c.payload 0 1) = k
  have dirs := flatMap_length (f := fun i => leBytes 1 (k.dir.getD i 0)) (k := 1) (fun i => leBytes_length ..) (List.range 12)
  have pods := flatMap_length (f := fun i => leBytes 1 (k.pod.find 0x1F (fld c.payload 2 2 + i))) (k := 1) (fun i => leBytes_length ..)
    (List.range (fld c.payload 4 2))
  rw [List.length_range] at dirs pods
  refine ⟨?_, ?_, fun d low => ?_, fun i low => ?_⟩
  · simp only [List.length_append, leBytes_length, zeros_length, dirs, pods]
    omega
  · rw [List.append_assoc, List.append_assoc, fld_leBytes _ _ rfl]
    exact Nat.mod_eq_of_lt (BankState.code_lt _)
  · rw [List.append_assoc, fld_append_right (o := 1 * d) (by simp)]
    exact fld_numbers (fun i => k.dir.getD i 0) 1 12 low _
  · rw [fld_append_right (o := 1 * i) (by simp only [List.length_append, leBytes_length, zeros_length, dirs]; omega),
      ← List.append_nil (List.flatMap _ _)]
    exact fld_numbers (fun i => k.pod.find 0x1F (fld c.payload 2 2 + i)) 1 _ low []

theorem rankRead_reads (turn : s.carries ch 0x0505 c) (len : c.length = 8) (loaded : s.job.state ≠ .idle) (some_ : 1 ≤ fld c.payload 4 4)
    (few : fld c.payload 4 4 ≤ 1016) (fits : fld c.payload 0 4 + fld c.payload 4 4 ≤ 262144) :
    ∃ y, answered (.rankRead ch) s ch (s.accepted ch c) (.ok y) ∧ y.length = 4 * fld c.payload 4 4 ∧
      ∀ i, i < fld c.payload 4 4 → fld y (4 * i) 4 =
        (if s.fab.ranks.has (fld c.payload 0 4 + i) then s.fab.ranks.find 0 (fld c.payload 0 4 + i) + 2 ^ 31 else 0) % 2 ^ 32 := by
  have size : ∀ i, ((s.accepted ch c).rankEntry (fld c.payload 0 4 + i)).length = 4 := fun i => leBytes_length ..
  refine ⟨_, answered_kept (p := rankRead) rfl turn (decide_eq_true len) (by simp [rankRead, some_, few, fits]) (decide_eq_true loaded) rfl rfl,
    (flatMap_length size _).trans (by rw [List.length_range]), fun i low => ?_⟩
  rw [← List.append_nil (List.flatMap _ _)]
  exact fld_numbers (fun i => if s.fab.ranks.has (fld c.payload 0 4 + i) then s.fab.ranks.find 0 (fld c.payload 0 4 + i) + 2 ^ 31 else 0) 4 _ low []

end Routes

/-! ### All the commands -/

/-- Settles O29: the commands of the module and of the fabric write the fields, ports, banks and fences they name, and read the tables. -/
theorem fabricCommands : Obligations.FabricCommands := by
  intro s ch c
  refine ⟨ident_answers, mgmtCfg_sets, fun turn len idle low => ⟨fabAddrSet_refused turn len idle low, fabAddrSet_sets turn len idle low⟩,
    syncCfg_sets, fence_sets, fun turn len apply mode classes x8 again owns sendless => ⟨fun untrained kept free => ?_,
      fun trained kept unset => ?_, fun p low only untrained unset anew asked active => ?_, fun test asked active => ?_⟩,
    fun turn _ pods len whole zero which first => ⟨routeLoad_busy turn pods len whole zero which first,
      fun idle still fits start ports => routeLoad_starts turn pods len whole zero which first idle still fits start ports,
      fun later idle still fits ports => routeLoad_goes turn pods len whole zero which first idle still fits later ports⟩,
    fun turn len => ⟨routeSwitch_refused turn len, routeSwitch_sets turn len⟩, routeRead_reads, rankRead_reads⟩
  · obtain ⟨t, told, ports, rest⟩ := linkCfg_sets turn len apply mode classes x8 again owns sendless free untrained kept
    refine ⟨t, told, fun p low => ?_, rest⟩
    rw [ports p low]
    split
    · unfold LinkPort.configured
      rw [untrained]
      exact rfl
    · rfl
  · exact linkCfg_trains turn len apply mode classes x8 again owns sendless (.inl unset) trained kept
  · exact linkCfg_retrains turn len apply mode classes x8 again owns sendless (.inl unset) low only untrained anew asked active
  · exact linkCfg_refused turn len apply mode classes x8 again test asked active

end Sys2Proof.Machine

/-! PROOF. JOB_LOAD, JOB_SAVE and JOB_RESTORE (R238, R239, R335, R336, R380, R431). -/
namespace Sys2Proof.Machine

/-! ### JOB_LOAD (R238, R239, R380) -/

/-- What a load shows of its tables, and what it leaves alone. -/
def State.loadView (s : State) :=
  ((s.image, s.queues, s.far.regions), (s.fab, s.srv), (s.power, s.sec, s.ports, s.regions, s.gsc), s.host.order, s.host.chans)

theorem State.loadBytes_loadView (s : State) (i : Image) : (s.loadBytes i).loadView = s.loadView := by
  unfold State.loadBytes
  dsimp only
  refine (foldl_keeps State.loadView (fun t (e : InitEnt) => t.farPut e.unit e.addr e.data) (fun _ _ => rfl) _ _).trans ?_
  refine (foldl_keeps State.loadView (fun (t : State) (e : InitEnt) => { t with
    ss := t.ss.write (ssAddr e.unit e.addr) e.data, ssErr := errsAfter t.ssErr (ssAddr e.unit e.addr) e.data.length })
    (fun _ _ => rfl) _ _).trans ?_
  exact foldl_keeps State.loadView _ (fun t d => by split <;> rfl) i.decls s

/-- The tables of a load: ranks, image, queues, regions, and the serving state and records begun anew. -/
def State.loadTables (s : State) (b : Bytes) (v : LoadEnv) (t : List (Nat × FarRegion)) (ranks : Map Nat) (rd : Bytes) (lead : Nat) : State :=
  let s := s.joinRanks ranks rd v.rank lead
  let s := { s with
    image := some (imageOf b v lead), queues := queuesOf b v.grade, job := .init
    far := { s.far with regions := regionTable t, bgEnlarged := bit (fld b 0x13 1) 0 } }
  let s := s.withSrv { Serve.init with rq := s.srv.rq, cq := s.srv.cq }
  s.withRecs { s.recs with marks := [], drainedTo := none, manifest := [], manifestDigest := [] }

/-- Instruction stores and bytes written, and the models counted. -/
def State.loadStores (s : State) (b : Bytes) (v : LoadEnv) (lead : Nat) : State :=
  (v.cores.foldl (fun s c => s.loadCore b v c) (s.loadBytes (imageOf b v lead))).countJobs (imageOf b v lead) true

theorem State.loadStores_loadView (s : State) (b : Bytes) (v : LoadEnv) (lead : Nat) : (s.loadStores b v lead).loadView = s.loadView :=
  (State.countJobs_leaves (v := State.loadView) (fun _ _ => rfl) ..).trans
    ((foldl_keeps State.loadView (fun t c => t.loadCore b v c) (fun _ _ => rfl) _ _).trans (State.loadBytes_loadView ..))

theorem State.loadJob_eq (s : State) (b : Bytes) (v : LoadEnv) (t : List (Nat × FarRegion)) (ranks : Map Nat) (rd : Bytes) (lead : Nat) :
    s.loadJob b v t ranks rd lead = ((s.loadTables b v t ranks rd lead).loadStores b v lead).setJob .loaded := rfl

theorem State.loadJob_shows (s : State) (b : Bytes) (v : LoadEnv) (t : List (Nat × FarRegion)) (ranks : Map Nat) (rd : Bytes) (lead : Nat) :
    (s.loadJob b v t ranks rd lead).job.state = .loaded ∧
      (s.loadJob b v t ranks rd lead).loadView = (s.loadTables b v t ranks rd lead).loadView := by
  rw [State.loadJob_eq]
  have stores := (s.loadTables b v t ranks rd lead).loadStores_loadView b v lead
  generalize (s.loadTables b v t ranks rd lead).loadStores b v lead = w at stores
  obtain ⟨e, loaded⟩ := w.setJob_evc .loaded
  rw [loaded, ← stores]
  exact ⟨rfl, rfl⟩

theorem State.loadTables_loadView (s : State) (b : Bytes) (v : LoadEnv) (t : List (Nat × FarRegion)) (ranks : Map Nat) (rd : Bytes) (lead : Nat) :
    (s.loadTables b v t ranks rd lead).loadView = ((some (imageOf b v lead), queuesOf b v.grade, regionTable t),
      ((s.joinRanks ranks rd v.rank lead).fab, { Serve.init with rq := s.srv.rq, cq := s.srv.cq }),
      (s.power, s.sec, s.ports, s.regions, s.gsc), s.host.order, s.host.chans) := rfl

/-- What the ranks and the values given make the image's environment. -/
def State.loadEnv (s : State) (p rt : Bytes) : LoadEnv :=
  { grade := s.grade, gridW := s.gridW, modules := fld p 12 4, rank := rankAt (ranksOf rt (fld p 12 4)) s.fab.addr
    given := (List.range (fld p 28 2)).map fun i => (fld p (32 + 16 * i) 2, sgn 64 (fld p (40 + 16 * i) 8)) }

/-- The lead's rank that the command names, or the lowest address. -/
def leadOf (p rt : Bytes) : Nat := if fld p 24 4 = 0xFFFFFFFF then lowestRank (ranksOf rt (fld p 12 4)) else fld p 24 4

section LoadActs

variable {a : State} {ch : Nat} {p rt b : Bytes} {v : HostView} (read : v.read (fld p 16 8) 0x100000 = some rt)
  (good : rankBad rt (fld p 12 4) a.fab.addr = none) (image : (v.scatter (fld p 0 8) (fld p 8 4)).bind v.gather = some b)
include read good image

theorem jobLoad_act_bad {f : ImgFail} (bad : a.checkImage b (a.loadEnv p rt) = .inr f) : (jobLoad v).act a ch p =
    .done a { result := f.result, fault := f.code, sect := f.sect, entry := some f.entry } := by
  unfold State.loadEnv at bad
  simp only [jobLoad, read, good, image, bad]

theorem jobLoad_act_good {regions : List (Nat × FarRegion)} (passes : a.checkImage b (a.loadEnv p rt) = .inl regions) : (jobLoad v).act a ch p =
    .done (a.loadJob b (a.loadEnv p rt) regions (ranksOf rt (fld p 12 4)) (sha384 rt) (leadOf p rt)) (.ok (imgDigest b)) := by
  unfold State.loadEnv at passes ⊢
  simp only [jobLoad, read, good, image, passes, leadOf]

end LoadActs

section Load

variable {s : State} {ch : Nat} {c : Cmd} {v : HostView} (turn : s.carries ch 0x0101 c) (long : 32 ≤ c.length) (short : c.length ≤ 1056)
  (whole : c.length % 16 = 0) (fields : (jobLoad v).fields c.payload = true) (idle : s.job.state = .idle) (calibrated : s.pace.calValid = true)
  (sound : s.far.degraded = false) (addressed : s.fab.addrValid = true) (owned : s.loadAllowed = true)
include turn long short whole fields idle calibrated sound addressed owned

/-- The command answers what its act has. -/
theorem jobLoad_of {t : State} {r : Reply} (act : (jobLoad v).act (s.accepted ch c) ch c.payload = .done t r)
    (order : t.host.order = s.host.order.drop 1) (chans : t.host.chans = (s.accepted ch c).host.chans) : answered (.jobLoad ch v) s ch t r := by
  have allowed : (decide (s.job.state = .idle) && s.pace.calValid && !s.far.degraded && s.fab.addrValid && s.loadAllowed) = true := by
    simp [idle, calibrated, sound, addressed, owned]
  exact answered_done (p := jobLoad v) rfl turn (by simp [jobLoad, long, short, whole]) fields allowed act order chans

theorem jobLoad_unread (unread : v.read (fld c.payload 16 8) 0x100000 = none) :
    answered (.jobLoad ch v) s ch ((s.accepted ch c).event 0x0C05) (.bad .state 0x0C05) := by
  refine jobLoad_of turn long short whole fields idle calibrated sound addressed owned ?_ ((State.event_host_order ..).trans rfl) (State.event_host_chans ..)
  simp only [jobLoad, unread]
  exact rfl

variable {rt : Bytes} (read : v.read (fld c.payload 16 8) 0x100000 = some rt)
include read

theorem jobLoad_badRanks {e : Nat} (bad : rankBad rt (fld c.payload 12 4) s.fab.addr = some e) :
    answered (.jobLoad ch v) s ch (s.accepted ch c) { result := .range, sect := 0xFE, entry := some e } := by
  have bad : rankBad rt (fld c.payload 12 4) (s.accepted ch c).fab.addr = some e := bad
  refine jobLoad_of turn long short whole fields idle calibrated sound addressed owned ?_ rfl rfl
  simp only [jobLoad, read, bad]

variable {b : Bytes} (good : rankBad rt (fld c.payload 12 4) s.fab.addr = none)
  (image : (v.scatter (fld c.payload 0 8) (fld c.payload 8 4)).bind v.gather = some b)
include good image

theorem jobLoad_badImage {f : ImgFail} (bad : (s.accepted ch c).checkImage b (s.loadEnv c.payload rt) = .inr f) :
    answered (.jobLoad ch v) s ch (s.accepted ch c) { result := f.result, fault := f.code, sect := f.sect, entry := some f.entry } := by
  have env : (s.accepted ch c).loadEnv c.payload rt = s.loadEnv c.payload rt := rfl
  rw [← env] at bad
  exact jobLoad_of turn long short whole fields idle calibrated sound addressed owned (jobLoad_act_bad (a := s.accepted ch c) read good image bad) rfl rfl

/-- An image that passes is loaded. -/
theorem jobLoad_loads {regions : List (Nat × FarRegion)} (passes : (s.accepted ch c).checkImage b (s.loadEnv c.payload rt) = .inl regions) :
    ∃ t, answered (.jobLoad ch v) s ch t (.ok (imgDigest b)) ∧ t.job.state = .loaded ∧
      t.loadView = ((s.accepted ch c).loadTables b (s.loadEnv c.payload rt) regions (ranksOf rt (fld c.payload 12 4)) (sha384 rt)
        (leadOf c.payload rt)).loadView := by
  have env : (s.accepted ch c).loadEnv c.payload rt = s.loadEnv c.payload rt := rfl
  rw [← env] at passes ⊢
  have act := jobLoad_act_good (a := s.accepted ch c) (ch := ch) read good image passes
  obtain ⟨loaded, shown⟩ := (s.accepted ch c).loadJob_shows b ((s.accepted ch c).loadEnv c.payload rt) regions (ranksOf rt (fld c.payload 12 4))
    (sha384 rt) (leadOf c.payload rt)
  generalize (s.accepted ch c).loadJob b ((s.accepted ch c).loadEnv c.payload rt) regions (ranksOf rt (fld c.payload 12 4)) (sha384 rt)
    (leadOf c.payload rt) = t at act loaded shown
  obtain ⟨-, kept⟩ := Prod.mk.inj shown
  obtain ⟨-, kept⟩ := Prod.mk.inj kept
  obtain ⟨-, kept⟩ := Prod.mk.inj kept
  obtain ⟨order, chans⟩ := Prod.mk.inj kept
  exact ⟨t, jobLoad_of turn long short whole fields idle calibrated sound addressed owned act order chans, loaded, shown⟩

end Load

/-! ### JOB_SAVE (R335) -/

section Save

variable {α : Type} {v : State → α} (farless : ∀ (s : State) far, v { s with far := far } = v s)
include farless

/-- The engine's records and the save engine's accesses touch the far memory alone. -/
theorem State.putRecords_leaves (s : State) : v s.putRecords = v s := by
  unfold State.putRecords
  split
  · rfl
  · exact foldl_keeps v _ (fun s id => farless s _) _ s

theorem State.saveTraffic_leaves (s : State) (write : Bool) : v (s.saveTraffic write) = v s := by
  unfold State.saveTraffic
  split
  · rfl
  · exact foldl_keeps v _ (fun s d => by
      split
      · rfl
      · exact State.background_leaves farless ..) _ s

end Save

/-- Host memory after a write through a scatter list, from the memory before. -/
theorem State.scatterWrite_mem {s t : State} (same : t.host.hostMem = s.host.hostMem) (l : List (Nat × Nat)) (b : Bytes) :
    (t.scatterWrite l b).host.hostMem = (s.scatterWrite l b).host.hostMem := by
  induction l generalizing s t b with
  | nil => exact same
  | cons e l ih =>
    refine ih ?_ _
    exact congrArg (fun m : Mem => m.write e.1 (b.take e.2)) same

theorem State.scatterWrite_rest (s : State) (l : List (Nat × Nat)) (b : Bytes) :
    ({ s.scatterWrite l b with host := { (s.scatterWrite l b).host with hostMem := s.host.hostMem } } : State) = s := by
  have general : ∀ (l : List (Nat × Nat)) (b : Bytes) (t : State),
      ({ t.scatterWrite l b with host := { (t.scatterWrite l b).host with hostMem := s.host.hostMem } } : State) =
        { t with host := { t.host with hostMem := s.host.hostMem } } := by
    intro l
    induction l with
    | nil => exact fun _ _ => rfl
    | cons e l ih => exact fun b t => (ih _ (t.dmaWrite e.1 (b.take e.2))).trans rfl
  exact general l b s

/-- The save image of a job, and the state after its signature. -/
def State.savedImage (s : State) : Bytes × State := (s.putRecords.saveTraffic false).saveImage

/-- What a save leaves alone. -/
def State.unsaved (s : State) := ((s.cores, s.ss, s.job, s.srv, s.recs), s.host.order, s.host.chans)

theorem State.savedImage_shows (s : State) : s.savedImage.2.unsaved = s.unsaved ∧ s.savedImage.2.host.hostMem = s.host.hostMem := by
  have both : ∀ {α : Type} (v : State → α), (∀ (s : State) far, v { s with far := far } = v s) →
      (∀ (s : State) free sec, v { s with free := free, sec := sec } = v s) → v s.savedImage.2 = v s := fun v farless signless =>
    (signless (s.putRecords.saveTraffic false) _ _).trans ((State.saveTraffic_leaves farless ..).trans (State.putRecords_leaves farless s))
  exact ⟨both State.unsaved (fun _ _ => rfl) fun _ _ _ => rfl, both (fun t => t.host.hostMem) (fun _ _ => rfl) fun _ _ _ => rfl⟩

theorem jobSave_act {v : HostView} {p : Bytes} {l : List (Nat × Nat)} (scatter : v.scatter (fld p 0 8) (fld p 8 4) = some l) (a : State) (ch : Nat) :
    (jobSave v).act a ch p = if scatterLen l < a.savedImage.1.length then
        .done a { result := .noSpace, payload := leBytes 8 a.savedImage.1.length }
      else .done (a.savedImage.2.scatterWrite l a.savedImage.1) (.ok (leBytes 8 a.savedImage.1.length)) := by
  simp only [jobSave, scatter, State.savedImage]
  exact rfl

section Saves

variable {s : State} {ch : Nat} {c : Cmd} {v : HostView} {l : List (Nat × Nat)} (turn : s.carries ch 0x0106 c) (len : c.length = 12)
  (fields : sgFields v c.payload = true) (paused : s.job.state = .paused)
  (scatter : v.scatter (fld c.payload 0 8) (fld c.payload 8 4) = some l)
include turn len fields paused scatter

theorem jobSave_small (small : scatterLen l < (s.accepted ch c).savedImage.1.length) : answered (.jobSave ch v) s ch (s.accepted ch c)
    { result := .noSpace, payload := leBytes 8 (s.accepted ch c).savedImage.1.length } :=
  answered_kept (p := jobSave v) rfl turn (decide_eq_true len) fields (by simp [jobSave, jobIn, paused])
    ((jobSave_act scatter ..).trans (if_pos small)) rfl

theorem jobSave_writes (room : (s.accepted ch c).savedImage.1.length ≤ scatterLen l) : ∃ t,
    answered (.jobSave ch v) s ch t (.ok (leBytes 8 (s.accepted ch c).savedImage.1.length)) ∧
      t.host.hostMem = ((s.accepted ch c).scatterWrite l (s.accepted ch c).savedImage.1).host.hostMem ∧
      t.unsaved = (s.accepted ch c).unsaved := by
  have act := (jobSave_act scatter (s.accepted ch c) ch).trans (if_neg (Nat.not_lt.mpr room))
  obtain ⟨unsaved, mem⟩ := (s.accepted ch c).savedImage_shows
  generalize (s.accepted ch c).savedImage = x at act unsaved mem
  have same := State.scatterWrite_mem mem l x.1
  have rest : (x.2.scatterWrite l x.1).unsaved = x.2.unsaved := (congrArg State.unsaved (x.2.scatterWrite_rest l x.1) :)
  generalize x.2.scatterWrite l x.1 = t at act same rest
  have kept := rest.trans unsaved
  obtain ⟨-, host⟩ := Prod.mk.inj kept
  obtain ⟨order, chans⟩ := Prod.mk.inj host
  exact ⟨t, answered_done (p := jobSave v) rfl turn (decide_eq_true len) fields (by simp [jobSave, jobIn, paused]) act order chans, same, kept⟩

end Saves

/-! ### JOB_RESTORE (R336) -/

/-- What a restore keeps, and the paths it has emptied. -/
def State.unrestored (s : State) := ((s.flights, s.ssLines, s.ssLost), (s.gsc, s.power, s.sec, s.ports), s.host)

theorem State.restoreQueues_unrestored (s : State) (c : Nat) (b : Bytes) : (s.restoreQueues c b).unrestored = s.unrestored := by
  unfold State.restoreQueues
  refine foldl_keeps State.unrestored _ (fun s h => ?_) (List.range 32) s
  split
  · dsimp only
    generalize ({ s.queue c h with
      pushed := BitVec.ofNat 32 (fld b (9280 + 16 * h) 4), at_ := BitVec.ofNat 32 (fld b (9280 + 16 * h + 4) 4)
      gated := BitVec.ofNat 32 (fld b (9280 + 16 * h + 8) 4), cc := BitVec.ofNat 32 (fld b (9280 + 16 * h + 8) 4)
      done := fld b (9280 + 16 * h + 8) 4, reqs := [], stage := [], land := [] } : Queue) = q
    split
    · generalize List.foldl _ _ _ = m
      rfl
    · rfl
  · rfl

theorem State.restoreCore_unrestored (s : State) (c : Nat) (b : Bytes) : (s.restoreCore c b).unrestored = s.unrestored := by
  unfold State.restoreCore
  dsimp only
  generalize (s.core c).restore s.exact b = k
  have kept := State.restoreQueues_unrestored (s.setCore c k) c b
  generalize (s.setCore c k).restoreQueues c b = u at kept ⊢
  exact kept

theorem State.takeRecords_unrestored (s : State) : s.takeRecords.unrestored = s.unrestored := by
  have srvless : ∀ x, (s.withSrv x).unrestored = s.unrestored := fun _ => rfl
  unfold State.takeRecords
  split
  · rfl
  · exact srvless _

/-- The paths between cores and slices emptied. -/
def State.emptyPaths (s : State) : State := { s with flights := [], ssLines := [], ssLost := [] }

/-- The cores of a save image. -/
def State.restoreCores (s : State) (b : Bytes) : State := s.coreList.foldl (fun s c => s.restoreCore c ((saveSect b 1 c).getD [])) s

/-- Its slices. -/
def State.restoreSlices (s : State) (b : Bytes) : State :=
  s.coreList.foldl (fun s c =>
    ((s.sliceOffs c).zip ((saveSect b 2 c).getD [])).foldl (fun s e => { s with ss := s.ss.set (ssAddr c e.1) e.2 }) s) s

/-- Its regions. -/
def State.restoreRegions (s : State) (b : Bytes) : State :=
  (match s.image with | some i => i.decls | none => []).foldl (fun s (d : RegionDecl) =>
    if d.content = 2 then s else s.farPut d.region 0 ((saveSect b 3 d.region).getD [])) s

/-- Its engine, with the pins of the requests that were ACTIVE. -/
def State.restorePins (s : State) : State := s.srv.reqs.foldl (fun s e => if e.2.wasActive then s.pin e.2.par.modelIx true else s) s

theorem State.restoreCores_unrestored (s : State) (b : Bytes) : (s.restoreCores b).unrestored = s.unrestored :=
  foldl_keeps State.unrestored (fun s c => s.restoreCore c ((saveSect b 1 c).getD [])) (fun _ _ => State.restoreCore_unrestored ..) _ s

theorem State.restoreSlices_unrestored (s : State) (b : Bytes) : (s.restoreSlices b).unrestored = s.unrestored := by
  unfold State.restoreSlices
  refine foldl_keeps State.unrestored _ (fun _ c => ?_) _ s
  exact foldl_keeps State.unrestored (fun (s : State) (e : Nat × Byte) => { s with ss := s.ss.set (ssAddr c e.1) e.2 }) (fun _ _ => rfl) _ _

theorem State.restoreRegions_unrestored (s : State) (b : Bytes) : (s.restoreRegions b).unrestored = s.unrestored := by
  unfold State.restoreRegions
  refine foldl_keeps State.unrestored _ (fun s d => ?_) _ s
  split <;> rfl

theorem State.restorePins_unrestored (s : State) : s.restorePins.unrestored = s.unrestored := by
  unfold State.restorePins
  refine foldl_keeps State.unrestored _ (fun s e => ?_) _ s
  split
  · exact State.pin_leaves (v := State.unrestored) (fun _ _ => rfl) ..
  · rfl

/-- Everything a save image holds but the save tick. -/
def State.restoreParts (s : State) (b : Bytes) : State :=
  ((((s.emptyPaths.restoreCores b).restoreSlices b).restoreRegions b).restoreEngine ((saveSect b 4 0).getD [])).takeRecords.restorePins

theorem State.restoreEngine_unrestored (s : State) (b : Bytes) : (s.restoreEngine b).unrestored = s.unrestored := rfl

theorem State.restoreParts_unrestored (s : State) (b : Bytes) : (s.restoreParts b).unrestored = s.emptyPaths.unrestored := by
  unfold State.restoreParts
  rw [State.restorePins_unrestored, State.takeRecords_unrestored, State.restoreEngine_unrestored, State.restoreRegions_unrestored,
    State.restoreSlices_unrestored, State.restoreCores_unrestored]

theorem State.restoreAll_eq (s : State) (b : Bytes) :
    s.restoreAll b = (s.restoreParts b).withRecs { (s.restoreParts b).recs with savedTick := fld b 16 8 } := by
  unfold State.restoreAll
  extract_lets empty cores slices decls regions engine pins
  have parts : pins = s.restoreParts b := by
    have hcores : cores = s.emptyPaths.restoreCores b := rfl
    have hslices : slices = cores.restoreSlices b := rfl
    have hregions : regions = slices.restoreRegions b := rfl
    have hengine : engine = (regions.restoreEngine ((saveSect b 4 0).getD [])).takeRecords := rfl
    have hpins : pins = engine.restorePins := rfl
    rw [hpins, hengine, hregions, hslices, hcores, State.restoreParts]
  change pins.withRecs { pins.recs with savedTick := fld b 16 8 } = _
  rw [parts]

/-- The module with a save image written. -/
def State.restoredFrom (s : State) (b : Bytes) : State := (s.takeManifest.restoreAll b).saveTraffic true

/-- Every region at the save tick, and no step to come. -/
def State.atSaveTick (s : State) : State :=
  (s.mapRegions fun x => { x with tickCount := s.recs.savedTick, gate := none }).withSrv { s.srv with fetchStop := true, paused := true }

theorem State.restoredFrom_shows (s : State) (b : Bytes) :
    (s.restoredFrom b).unrestored = s.emptyPaths.unrestored ∧ (s.restoredFrom b).recs.savedTick = fld b 16 8 := by
  have kept := s.takeManifest.restoreParts_unrestored b
  unfold State.restoredFrom
  rw [State.saveTraffic_leaves (v := State.unrestored) (fun _ _ => rfl),
    State.saveTraffic_leaves (v := fun t : State => t.recs.savedTick) (fun _ _ => rfl), State.restoreAll_eq]
  generalize s.takeManifest.restoreParts b = w at kept
  exact ⟨kept, rfl⟩

theorem State.atSaveTick_shows (s : State) : s.atSaveTick.unrestored = s.unrestored ∧ s.atSaveTick.recs.savedTick = s.recs.savedTick ∧
    ∀ r, r < 80 → (s.atSaveTick.region r).tickCount = s.recs.savedTick := by
  have kept := State.mapRegions_keeps State.unrestored (fun _ _ _ => rfl) s fun x => { x with tickCount := s.recs.savedTick, gate := none }
  have saved := State.mapRegions_keeps (fun t => t.recs.savedTick) (fun _ _ _ => rfl) s fun x => { x with tickCount := s.recs.savedTick, gate := none }
  have ticks := fun r (low : r < 80) => congrArg Region.tickCount
    (State.mapRegions_region s (fun x => { x with tickCount := s.recs.savedTick, gate := none }) low)
  unfold State.atSaveTick
  generalize s.mapRegions (fun x => { x with tickCount := s.recs.savedTick, gate := none }) = w at kept saved ticks
  exact ⟨kept, saved, ticks⟩

section Restore

variable {s : State} {ch : Nat} {c : Cmd} {v : HostView} {all : Bytes} (turn : s.carries ch 0x0107 c) (len : c.length = 12)
  (fields : sgFields v c.payload = true) (loaded : s.job.state = .loaded)
  (image : (v.scatter (fld c.payload 0 8) (fld c.payload 8 4)).bind v.gather = some all)

include image in
theorem jobRestore_act {a : State} (passes : a.restoreCheck (all.take (fld all 8 8)) = none) : (jobRestore v).act a ch c.payload =
    .done ((a.restoredFrom (all.take (fld all 8 8))).atSaveTick.setJob .paused) .ok := by
  simp only [jobRestore, image, passes, State.restoredFrom, State.atSaveTick]

include turn len fields loaded image

theorem jobRestore_refused {r : Result} (refused : (s.accepted ch c).restoreCheck (all.take (fld all 8 8)) = some r) :
    answered (.jobRestore ch v) s ch (s.accepted ch c) (.of r) := by
  refine answered_kept (p := jobRestore v) rfl turn (decide_eq_true len) fields (by simp [jobRestore, jobIn, loaded]) ?_ rfl
  simp only [jobRestore, image, refused]

theorem jobRestore_restores (passes : (s.accepted ch c).restoreCheck (all.take (fld all 8 8)) = none) : ∃ t,
    answered (.jobRestore ch v) s ch t .ok ∧ t.job.state = .paused ∧ t.recs.savedTick = fld (all.take (fld all 8 8)) 16 8 ∧
      (∀ r, r < 80 → (t.region r).tickCount = fld (all.take (fld all 8 8)) 16 8) ∧
      ((t.flights, t.ssLines, t.ssLost), (t.gsc, t.power, t.sec, t.ports)) = (([], [], []), (s.gsc, s.power, s.sec, s.ports)) := by
  have act := jobRestore_act (ch := ch) image passes
  obtain ⟨kept, saved⟩ := (s.accepted ch c).restoredFrom_shows (all.take (fld all 8 8))
  generalize (s.accepted ch c).restoredFrom (all.take (fld all 8 8)) = w at act kept saved
  obtain ⟨same, saved', ticks⟩ := w.atSaveTick_shows
  generalize w.atSaveTick = u at act same saved' ticks
  obtain ⟨paths, rest⟩ := Prod.mk.inj (same.trans kept)
  obtain ⟨blocks, host⟩ := Prod.mk.inj rest
  obtain ⟨e, paused⟩ := u.setJob_evc .paused
  rw [paused] at act
  exact ⟨_, answered_done (p := jobRestore v) rfl turn (decide_eq_true len) fields (by simp [jobRestore, jobIn, loaded]) act
      (congrArg HostBlk.order host :) (congrArg HostBlk.chans host :), rfl, saved'.trans saved, fun r low => (ticks r low).trans saved,
    Prod.ext paths blocks⟩

end Restore

/-! ### All three -/

/-- Settles O31: JOB_LOAD answers the first check that fails, or loads; JOB_SAVE writes the save image where there is room for it, and
JOB_RESTORE answers the first condition that fails, or restores. -/
theorem jobImages : Obligations.JobImages := by
  intro s ch c v
  refine ⟨fun turn long short whole fields idle calibrated sound addressed owned unread =>
      jobLoad_unread turn long short whole fields idle calibrated sound addressed owned unread,
    fun rt turn long short whole fields idle calibrated sound addressed owned read => ⟨fun e bad =>
      jobLoad_badRanks turn long short whole fields idle calibrated sound addressed owned read bad, fun b good image => ⟨fun f bad =>
        jobLoad_badImage turn long short whole fields idle calibrated sound addressed owned read good image bad, fun regions passes => ?_⟩⟩,
    fun l turn len fields paused scatter => ⟨fun small => ?_, fun room => ?_⟩,
    fun all turn len fields loaded image => ⟨fun r refused => jobRestore_refused turn len fields loaded image refused, fun passes => ?_⟩⟩
  · obtain ⟨t, told, state, shown⟩ := jobLoad_loads turn long short whole fields idle calibrated sound addressed owned read good image passes
    rw [State.loadTables_loadView] at shown
    obtain ⟨tables, shown⟩ := Prod.mk.inj shown
    obtain ⟨img, tables⟩ := Prod.mk.inj tables
    obtain ⟨queues, regs⟩ := Prod.mk.inj tables
    obtain ⟨blocks, shown⟩ := Prod.mk.inj shown
    obtain ⟨fab, srv⟩ := Prod.mk.inj blocks
    obtain ⟨kept, -⟩ := Prod.mk.inj shown
    obtain ⟨power, kept⟩ := Prod.mk.inj kept
    obtain ⟨sec, kept⟩ := Prod.mk.inj kept
    obtain ⟨ports, kept⟩ := Prod.mk.inj kept
    obtain ⟨regions, gsc⟩ := Prod.mk.inj kept
    exact ⟨t, told, state, img, queues, regs, (congrArg Fabric.rank fab :), (congrArg Fabric.leadRank fab :),
      (congrArg Fabric.ranks fab :), (congrArg Serve.reqs srv :), (congrArg Serve.cfg srv :), (congrArg Serve.rq srv :), power, sec, ports, regions, gsc⟩
  · exact ⟨_, jobSave_small turn len fields paused scatter small, rfl, rfl, rfl⟩
  · obtain ⟨t, told, mem, kept⟩ := jobSave_writes turn len fields paused scatter room
    obtain ⟨stores, -⟩ := Prod.mk.inj kept
    obtain ⟨cores, stores⟩ := Prod.mk.inj stores
    obtain ⟨ss, stores⟩ := Prod.mk.inj stores
    obtain ⟨job, stores⟩ := Prod.mk.inj stores
    obtain ⟨srv, recs⟩ := Prod.mk.inj stores
    exact ⟨t, told, mem, cores, ss, job, srv, recs⟩
  · obtain ⟨t, told, state, saved, ticks, kept⟩ := jobRestore_restores turn len fields loaded image passes
    simp only [Prod.mk.injEq] at kept
    obtain ⟨⟨flights, lines, lost⟩, gsc, power, sec, ports⟩ := kept
    exact ⟨t, told, state, saved, flights, lines, lost, ticks, gsc, power, sec, ports⟩

end Sys2Proof.Machine
